-- ==== Sys2Proof/Word.lean ====
section
/-! DEFINITION. The word types of the BV9-2048: registers, syllables and memory words are 32 bits wide (R11, R43, R48). -/

namespace Sys2Proof

/-- A 32-bit word: a register (R11), a syllable, a memory word (R48). -/
abbrev Word := BitVec 32

/-- A byte of an addressed memory. -/
abbrev Byte := BitVec 8

/-- An accumulator, Q18.62 in 80 bits (R60). -/
abbrev Acc := BitVec 80

/-- One of the eight Courses C0 to C7 (R6). -/
abbrev CourseId := Fin 8

/-- A Ridge master, 0 to 12 (R111). -/
abbrev Master := Fin 13

end Sys2Proof
end

