-- ==== Sys2Proof/Machine/Bits.lean ====
section
/-! DEFINITION. Bit fields, signed values, rounding, saturation and the CRC-32 that every block uses (R6 to R8, R400). -/

namespace Sys2Proof.Machine

/-- Field of `len` bits at bit `lo` of a word, as a number (R6). -/
def fld (w : Word) (lo len : Nat) : Nat := w.toNat / 2 ^ lo % 2 ^ len

/-- Bit `i` of a word. -/
def bit (w : Word) (i : Nat) : Bool := w.getLsbD i

/-- The mask of a field of `len` bits at bit `lo`. -/
def fmask (lo len : Nat) : Word := BitVec.ofNat 32 ((2 ^ len - 1) * 2 ^ lo)

/-- The word with the bits of mask `m` taken from `v`. -/
def merge (w m v : Word) : Word := (w &&& ~~~m) ||| (v &&& m)

/-- The word with a field of `len` bits at bit `lo` set to `v` mod 2^len. -/
def setFld (w : Word) (lo len v : Nat) : Word := merge w (fmask lo len) (BitVec.ofNat 32 (v % 2 ^ len * 2 ^ lo))

/-- The word with bit `i` set to `b`. -/
def setBit (w : Word) (i : Nat) (b : Bool) : Word := setFld w i 1 (if b then 1 else 0)

/-- A one-bit number. -/
def b2n (b : Bool) : Nat := if b then 1 else 0

/-- A word whose only set bit is bit `i`. -/
def oneHot (i : Nat) : Word := BitVec.ofNat 32 (2 ^ i)

/-- The number of bits set in a word. -/
def popCount (w : Word) : Nat := ((List.range 32).filter fun i => bit w i).length

/-- The bit numbers set in a word, rising. -/
def bitsOf (w : Word) : List Nat := (List.range 32).filter fun i => bit w i

/-- A counter of `len` bits at bit `lo` steps by `n` and saturates at all ones (R77, R117). -/
def satAdd (w : Word) (lo len n : Nat) : Word := setFld w lo len (Nat.min (2 ^ len - 1) (fld w lo len + n))

/-- A signed field of `len` bits at bit `lo`. -/
def sfld (w : Word) (lo len : Nat) : Int :=
  let v := fld w lo len
  if v < 2 ^ (len - 1) then (v : Int) else (v : Int) - 2 ^ len

/-- The word that holds an integer modulo 2^32. -/
def ofInt (x : Int) : Word := BitVec.ofInt 32 x

/-- Saturation to 32 bits signed (R8). -/
def sat32 (x : Int) : Int := if x > 2147483647 then 2147483647 else if x < -2147483648 then -2147483648 else x

/-- Convergent rounding of x / 2^q: half goes to the even neighbour (R8, R61). -/
def rconv (x : Int) (q : Nat) : Int :=
  let w := x / 2 ^ q
  let r := x % 2 ^ q
  if 2 * r > 2 ^ q ∨ (2 * r = 2 ^ q ∧ w % 2 = 1) then w + 1 else w

/-- Convergent rounding of the quotient of an integer by a positive number. -/
def rconvDiv (x : Int) (d : Nat) : Int :=
  let w := x / (d : Int)
  let r := x % (d : Int)
  if 2 * r > d ∨ (2 * r = d ∧ w % 2 = 1) then w + 1 else w

/-- The low word of a 64-bit value. -/
def lo32 (v : BitVec 64) : Word := v.extractLsb' 0 32

/-- The high word of a 64-bit value. -/
def hi32 (v : BitVec 64) : Word := v.extractLsb' 32 32

/-- Rotate right by whole bytes, as the byte-lane rotate view does (R115). -/
def rotrB (w : Word) (r : Nat) : Word := w.rotateRight (8 * (r % 4))

/-- Rotate left by whole bytes. -/
def rotlB (w : Word) (r : Nat) : Word := w.rotateLeft (8 * (r % 4))

/-- The four bytes of a word, least significant first (R400). -/
def bytesLE (w : Word) : List Byte := [w.extractLsb' 0 8, w.extractLsb' 8 8, w.extractLsb' 16 8, w.extractLsb' 24 8]

/-- The four bytes of a word, most significant first. -/
def bytesBE (w : Word) : List Byte := (bytesLE w).reverse

/-- The bytes of a list of words, least significant first (R400). -/
def wordsLE (ws : List Word) : List Byte := ws.flatMap bytesLE

/-- The number whose bytes, most significant first, are `bs`. -/
def natBE (bs : List Byte) : Nat := bs.foldl (fun n b => n * 256 + b.toNat) 0

/-- The number whose bytes, least significant first, are `bs`. -/
def natLE (bs : List Byte) : Nat := natBE bs.reverse

/-- `len` bytes of a number, most significant first. -/
def beBytes (len n : Nat) : List Byte := (List.range len).reverse.map fun i => BitVec.ofNat 8 (n / 256 ^ i)

/-- One bit of the reflected CRC-32 register with polynomial 0x04C1_1DB7 (R400). -/
def crcShift (c : Word) : Word := if bit c 0 then (c >>> 1) ^^^ 0xEDB88320#32 else c >>> 1

/-- One byte into the CRC-32 register, least significant bit first. -/
def crcByte (c : Word) (b : Byte) : Word :=
  let c := c ^^^ b.zeroExtend 32
  crcShift (crcShift (crcShift (crcShift (crcShift (crcShift (crcShift (crcShift c)))))))

/-- The CRC-32 register after the bytes `bs`, started at 0xFFFF_FFFF. -/
def crcRun (bs : List Byte) : Word := bs.foldl crcByte 0xFFFFFFFF#32

/-- The CRC-32 of R400. -/
def crc32 (bs : List Byte) : Word := ~~~(crcRun bs)

/-- The CRC-32 over 32-bit words (R400). -/
def crcWords (ws : List Word) : Word := crc32 (wordsLE ws)

/-- Element `i` of a list, or the given value beyond its end. -/
def nthD {α : Type} (l : List α) (i : Nat) (d : α) : α := l.getD i d

/-- The elements of a list with element `i` replaced. -/
def setNth {α : Type} (l : List α) (i : Nat) (v : α) : List α := l.set i v

/-- A number brought below `n + 1`, as an index of `n + 1` values. -/
def fin (n v : Nat) : Fin (n + 1) := Fin.ofNat (n + 1) v

end Sys2Proof.Machine
end

