-- ==== Sys2Proof/Syntax.lean ====
section
/-! DEFINITION. The commands of the block: one constructor of `Instr` per row of the table of operations and events, with the operands a sender gives it. -/

namespace Sys2Proof

/-- The two contexts of a Course (R44). -/
inductive CtxId where
  | fg
  | bg
deriving DecidableEq, Repr

/-- What every syllable carries beside its fields: the Course and context that issue it, its stop bit S (R79), and whether one of its reserved bits is not zero (R108). -/
structure SylHdr where
  n : CourseId
  x : CtxId
  stop : Bool
  rsv : Bool
deriving DecidableEq, Repr

/-- The part of an accumulator that RDR and WRR name (R85). -/
inductive AccPart where
  | l
  | h
  | x
deriving DecidableEq, Repr

/-- The address forms of R57 and R85. -/
inductive Form where
  | plain
  | postInc
  | postDec
  | postAddN
  | postSubN
  | indexN
  | disp (d : BitVec 8)
deriving DecidableEq, Repr

/-- Words per access, field SZ (R85). -/
inductive Size where
  | one
  | two
  | four
deriving DecidableEq, Repr

/-- The four registers of an address channel, field KIND (R85). -/
inductive AddrKind where
  | p
  | n
  | l
  | k
deriving DecidableEq, Repr

/-- The source of a store or an OUT: data registers, or with A = 1 a rounded accumulator (R89, R92). -/
inductive StSrc where
  | regs (r : Fin 32) (sz : Size)
  | acc (a : Fin 8)
deriving DecidableEq, Repr

/-- The special registers of MFS and MTS (R93). -/
inductive Spr where
  | lc (i : Fin 4)
  | rot
  | mode
  | flags
deriving DecidableEq, Repr

/-- The count of a REP: an immediate, or a loop counter (R98). -/
inductive RepCount where
  | imm (c : BitVec 16)
  | lc (i : Fin 4)
deriving DecidableEq, Repr

/-- The target ports of the Ridge (R130). -/
inductive RidgePort where
  | scratch (b : Fin 64)
  | dram (ch : Fin 2)
  | csr
  | course (n : CourseId)
  | table
deriving DecidableEq, Repr

/-- What a deferred change waits on (R402): a tap, a selector (by the byte address of its halfword, R194), a crosspoint, a patch point or a section. -/
inductive WaitKey where
  | tap (n : CourseId) (j : Fin 2048)
  | sel (a : Word)
  | xpoint (x : Fin 65536)
  | patch (q : Fin 4096)
  | sec (s : Fin 16384)
deriving DecidableEq, Repr

/-- A crosspoint or a patch point (R144, R145). -/
inductive EntryKey where
  | xpoint (x : Fin 65536)
  | patch (q : Fin 4096)
deriving DecidableEq, Repr

/-- A serial port or an AES3 receiver, the two places of a resync slip (R216, R224). -/
inductive InKey where
  | port (p : Fin 16)
  | rx (r : Fin 4)
deriving DecidableEq, Repr

/-- Network path A or B (R240). -/
inductive Path where
  | a
  | b
deriving DecidableEq, Repr

/-- The direction of a flow (R245). -/
inductive Dir where
  | rx
  | tx
deriving DecidableEq, Repr

/-- One AES3 subframe as received (R225). -/
structure Subframe where
  data : BitVec 24
  parityErr : Bool
  v : Bool
deriving DecidableEq, Repr

/-- Why an ASRC channel unlocks (R232, R233). -/
inductive UnlockCause where
  | endpoint
  | anchor
  | drift
deriving DecidableEq, Repr

/-- Where a Delron message comes from: the SPI host port, or an IPv4 sender on a path (R265, R268). -/
inductive DelronSrc where
  | spi
  | net (ip : Word) (port : BitVec 16)
deriving DecidableEq, Repr

/-- A flow record of ANNOUNCE (R267): number, byte 1, NCH - 1, TAG and three words. -/
structure FlowRec where
  num : Byte
  fmt : Byte
  nch : Byte
  tag : Byte
  addr : Word
  w8 : Word
  w12 : Word
deriving DecidableEq, Repr

/-- The body of ANNOUNCE that the partner table and the connection rules use (R267, R269, R270). -/
structure Announce where
  sender : BitVec 64
  gid : Word
  pairState : BitVec 2
  roleB : Bool
  carNo : Byte
  period : BitVec 16
  ipA : Word
  ipB : Word
  flows : List FlowRec
deriving DecidableEq, Repr

/-- The heartbeat that a module sends in every frame (R346). -/
structure Heartbeat where
  fc : BitVec 64
  state : BitVec 4
  hash : Word
  digest : Word
  epoch : Word
  pegAck : Word
deriving DecidableEq, Repr

/-- A wake source (R308), with the layout of PWR.WAKE. -/
inductive WakeSrc where
  | tl (i : Fin 8)
  | pathA
  | pathB
  | spi
  | lpo
deriving DecidableEq, Repr

/-- What stopped the command that a boot step reports (R388). -/
inductive AuxRail where
  | v3p3
  | v1p8
deriving DecidableEq, Repr

/-- The commands: one constructor per row of the table of operations and events, in the table's order. -/
inductive Instr where
  -- register access (R12 to R22, R360)
  | registerWrite (m : Master) (a v : Word)
  | rcFieldRead (m : Master) (a : Word) (ev : Word)
  | globalFcLoRead (m : Master)
  | pairFcoffLoRead (m : Master)
  -- the frame pipeline (R22 to R36)
  | frameTick
  | matrixWorkStart
  | foregroundStart (n : CourseId)
  | foregroundWorkComplete (n : CourseId) (cycles behind : BitVec 16)
  | slackMiss (n : CourseId)
  | backlogLimit (n : CourseId)
  -- Course control (R72 to R78)
  | sreset (m : Master) (n : CourseId)
  | courseResetReloadComplete (n : CourseId)
  | halt (m : Master) (n : CourseId) (on : Bool)
  | courseHalted (n : CourseId)
  | courseHaltedRegisterWrite (m : Master) (a v : Word)
  | courseMemoryWindowWrite (m : Master) (a v : Word)
  -- the Ridge as a Course sees it (R51, R401)
  | ridgeReadReturn (n : CourseId) (x : CtxId)
  | postedWriteAccept (n : CourseId)
  | ridgeAccessGrant (t : RidgePort)
  -- MAC class (R87)
  | mac (h : SylHdr) (a : Fin 8) (dx dy : Fin 32)
  | msu (h : SylHdr) (a : Fin 8) (dx dy : Fin 32)
  | mul (h : SylHdr) (a : Fin 8) (dx dy : Fin 32)
  | muln (h : SylHdr) (a : Fin 8) (dx dy : Fin 32)
  | clr (h : SylHdr) (a : Fin 8)
  | lda (h : SylHdr) (a : Fin 8) (dx : Fin 32)
  | adda (h : SylHdr) (a : Fin 8) (dx : Fin 32)
  | accadd (h : SylHdr) (a y : Fin 8)
  | accsub (h : SylHdr) (a y : Fin 8)
  | mova (h : SylHdr) (dx : Fin 32) (a : Fin 8) (sh : Option (BitVec 5))
  | rdr (h : SylHdr) (dx : Fin 32) (a : Fin 8) (part : AccPart)
  | wrr (h : SylHdr) (a : Fin 8) (part : AccPart) (dx : Fin 32)
  -- AGU class (R89)
  | ld (h : SylHdr) (ch : Fin 16) (f : Form) (r : Fin 32) (sz : Size)
  | st (h : SylHdr) (ch : Fin 16) (f : Form) (src : StSrc)
  | modp (h : SylHdr) (ch : Fin 16) (f : Form)
  | mva (h : SylHdr) (ch : Fin 16) (kind : AddrKind) (toData : Bool) (r : Fin 32)
  | setlo (h : SylHdr) (ch : Fin 16) (kind : AddrKind) (imm : BitVec 16)
  | sethi (h : SylHdr) (ch : Fin 16) (kind : AddrKind) (imm : BitVec 16)
  -- IO class (R92)
  | inp (h : SylHdr) (ch : Fin 16) (f : Form) (r : Fin 32) (sz : Size)
  | out (h : SylHdr) (ch : Fin 16) (f : Form) (src : StSrc)
  -- ALU class (R93)
  | add (h : SylHdr) (f : Bool) (dd da db : Fin 32)
  | sub (h : SylHdr) (f : Bool) (dd da db : Fin 32)
  | adds (h : SylHdr) (f : Bool) (dd da db : Fin 32)
  | subs (h : SylHdr) (f : Bool) (dd da db : Fin 32)
  | and (h : SylHdr) (f : Bool) (dd da db : Fin 32)
  | or (h : SylHdr) (f : Bool) (dd da db : Fin 32)
  | xor (h : SylHdr) (f : Bool) (dd da db : Fin 32)
  | andn (h : SylHdr) (f : Bool) (dd da db : Fin 32)
  | asr (h : SylHdr) (f : Bool) (dd da db : Fin 32)
  | lsr (h : SylHdr) (f : Bool) (dd da db : Fin 32)
  | lsl (h : SylHdr) (f : Bool) (dd da db : Fin 32)
  | asri (h : SylHdr) (f : Bool) (dd da : Fin 32) (k : BitVec 5)
  | lsri (h : SylHdr) (f : Bool) (dd da : Fin 32) (k : BitVec 5)
  | lsli (h : SylHdr) (f : Bool) (dd da : Fin 32) (k : BitVec 5)
  | abs (h : SylHdr) (f : Bool) (dd da : Fin 32)
  | neg (h : SylHdr) (f : Bool) (dd da : Fin 32)
  | min (h : SylHdr) (f : Bool) (dd da db : Fin 32)
  | max (h : SylHdr) (f : Bool) (dd da db : Fin 32)
  | cmpeq (h : SylHdr) (pd : Fin 8) (da db : Fin 32) (pn : Bool)
  | cmplt (h : SylHdr) (pd : Fin 8) (da db : Fin 32) (pn : Bool)
  | cmple (h : SylHdr) (pd : Fin 8) (da db : Fin 32) (pn : Bool)
  | cmpltu (h : SylHdr) (pd : Fin 8) (da db : Fin 32) (pn : Bool)
  | cmpleu (h : SylHdr) (pd : Fin 8) (da db : Fin 32) (pn : Bool)
  | sel (h : SylHdr) (dd da db : Fin 32) (p : Fin 8) (pn : Bool)
  | movp (h : SylHdr) (dd da : Fin 32) (p : Fin 8) (pn : Bool)
  | mov (h : SylHdr) (dd da : Fin 32)
  | movi (h : SylHdr) (dd : Fin 32) (imm : BitVec 16)
  | movhi (h : SylHdr) (dd : Fin 32) (imm : BitVec 16)
  | mfs (h : SylHdr) (dd : Fin 32) (r : Spr)
  | mts (h : SylHdr) (r : Spr) (da : Fin 32)
  | cls (h : SylHdr) (dd da : Fin 32)
  | lci (h : SylHdr) (i : Fin 4) (imm : BitVec 16)
  -- CTL class (R95)
  | nop (h : SylHdr)
  | br (h : SylHdr) (p : Fin 8) (pn : Bool) (target : BitVec 14)
  | dbnz (h : SylHdr) (rt : Bool) (i : Fin 4) (target : BitVec 14)
  | rep (h : SylHdr) (c : RepCount)
  | rots (h : SylHdr)
  | jal (h : SylHdr) (dd : Fin 32) (target : BitVec 14)
  | jmp (h : SylHdr) (da : Fin 32)
  | fend (h : SylHdr)
  | tend (h : SylHdr)
  -- extension block (R103)
  | eqSos (h : SylHdr) (dd da : Fin 32) (s : BitVec 8)
  | asrcRatio (h : SylHdr) (dd : Fin 32) (c : Fin 512)
  | asrcStat (h : SylHdr) (dd : Fin 32) (c : Fin 512)
  | mtrGet (h : SylHdr) (dd da : Fin 32) (f : Fin 4)
  | dlyMove (h : SylHdr) (dd da : Fin 32)
  | dlyPoll (h : SylHdr) (dd da : Fin 32)
  | undefinedSyllable (h : SylHdr) (w : Word)
  | delayMoveComplete (n : CourseId) (ticket : Fin 16)
  | delayMoveAbort (n : CourseId) (ticket : Fin 16)
  -- scratch banks and delay memory (R112 to R129, R402)
  | scrOwnWrite (m : Master) (b : Fin 64) (v : Word)
  | handoverComplete (b : Fin 64)
  | delayTableWrite (m : Master) (a v : Word)
  | dlyDeclWrite (m : Master) (n : CourseId) (v : Word)
  | tapPrefetch (n : CourseId)
  | delayBlockWrite (n : CourseId) (line : Fin 1024)
  | tapCrossfadeEnd (n : CourseId) (j : Fin 2048)
  | lengthFold (n : CourseId) (line : Fin 1024)
  | waitingChangeStart (k : WaitKey)
  | ridgeSlowWrite (m : Master) (v : Word)
  | ridgeSliceSwitch
  -- the mixing fabric (R138 to R162)
  | bootOnlyWordWrite (m : Master) (a v : Word)
  | shadowedWordDirectWrite (m : Master) (a v : Word)
  | memberRetire (k : EntryKey)
  | selectorCrossfadeEnd (a : Word)
  | sectionCrossfadeEnd (s : Fin 16384)
  | eqSatRecord
  | meterReadingWord0Read (m : Master) (p : Fin 4096)
  -- the Peg unit (R172 to R190)
  | pegQhdrWrite (m : Master) (v : Word)
  | pegQdataWrite (m : Master) (v : Word)
  | pegWrite
  | pegCommit
  | pegScene
  | sceneResolve
  | pegRevert
  | pegMark
  | commitCopyFix
  | commitApplied
  | pegCancelWrite (m : Master) (v : Word)
  | pegLogWord0Read (m : Master) (r : Fin 64)
  -- events and the scheduler (R192 to R207)
  | softwareEventWrite (m : Master) (i : Fin 32) (v : Word)
  | tokenOffer
  | frameDividerTick
  | dispatch
  | taskEnd (n : CourseId)
  | taskOvertime (n : CourseId)
  | purge (m : Master) (v : Word)
  | evtPendClear (m : Master) (k : Fin 4) (v : Word)
  -- serial ports, AES3, ASRC (R213 to R236)
  | tdmFrameEnd (p : Fin 16) (slots : List Word)
  | captureDeadline (p : Fin 16)
  | tdmFrameStart (p : Fin 16)
  | resyncSlip (k : InKey)
  | portClockLoss (p : Fin 16)
  | portQualified (p : Fin 16) (rateHz : BitVec 18)
  | portRateChange (k : InKey)
  | tdmCfgWrite (m : Master) (p : Fin 16) (v : Word)
  | masterPortRestart (p : Fin 16)
  | aesFrameReceive (r : Fin 4) (sa sb : Subframe)
  | nonAudioClear (r : Fin 4)
  | channelStatusBlock (r : Fin 4) (sub : Bool) (block : BitVec 192)
  | aesReceiverQualified (r : Fin 4) (rateHz : BitVec 18)
  | aesReceiverLost (r : Fin 4)
  | aesFrameTransmit (t : Fin 4)
  | asrcLock (c : Fin 512) (ratio : Word) (rateHz : BitVec 18)
  | asrcUnlock (c : Fin 512) (why : UnlockCause)
  -- network (R240 to R271)
  | pathModeWrite (m : Master) (x : Path) (v : Word)
  | linkChange (x : Path) (up : Bool) (badPartner : Bool)
  | frameReceive (x : Path) (frame : List Byte)
  | mergeWindowExpiry (f : Fin 256)
  | flowFadeEnd (d : Dir) (f : Fin 256)
  | streamPacketLaunch (f : Fin 256) (late : Bool)
  | txDescriptorProcess (r : Fin 32)
  | txLaunchTime (r : Fin 32) (late : Bool)
  | ringTailWrite (m : Master) (r : Fin 64) (v : Word)
  | ringCfgWrite (m : Master) (r : Fin 64) (v : Word)
  | classifierRuleWrite (m : Master) (q : Fin 64) (w1 : Bool) (v : Word)
  | delronAnnounce (x : Path) (msg : List Byte)
  -- a message is its bytes in the order of R265, in one list or in the parts named, which are joined
  | delronLeave (msg : DelronSrc × List Byte)
  | delronRead (src : DelronSrc) (head body crc : List Byte)
  | delronWrite (src : DelronSrc) (head body crc : List Byte)
  | delronPeg (src : DelronSrc) (covered crc : List Byte)
  | delronSceneCommit (src : DelronSrc) (head scene mode ns sec crc : List Byte)
  | delronStatusReq (src : DelronSrc) (msg : List Byte)
  | announceSend
  | partnerTimeout (p : Fin 512)
  | partnerTableWrite (m : Master) (a v : Word)
  -- time bases (R272 to R282)
  | tbCmdStep (t : Fin 4)
  | tbCmdQualify (t : Fin 4)
  | tbCmdLose (t : Fin 4)
  | tbCmdArm (t : Fin 4)
  | tbCmdGrandmaster (t : Fin 4)
  | rateWatchdogTrip (t : Fin 4)
  | tbRateWrite (m : Master) (t : Fin 4) (v : Word)
  | tbCfgWrite (m : Master) (t : Fin 4) (v : Word)
  | tbNsRead (m : Master) (t : Fin 4) (elapsedXo : BitVec 64)
  | tbAncNsRead (m : Master) (t : Fin 4)
  | anchorEstablish (t : Fin 4) (s : BitVec 48)
  | alarmCtrlWrite (m : Master) (t : Fin 4) (j : Fin 2) (v : Word)
  | alarmFire (t : Fin 4) (j : Fin 2)
  | captureEdge (k : Fin 4) (falling : Bool)
  | capnsRead (m : Master) (k : Fin 4)
  -- reference selection (R283 to R294)
  | slotCfgWrite (m : Master) (s : Fin 8) (v : Word)
  | sourcePresent (s : Fin 8) (hz : BitVec 18) (offset : Word)
  | qualificationTimerExpiry (s : Fin 8)
  | wtrExpiry (s : Fin 8)
  | slotLost (s : Fin 8)
  | phaseGlitch (s : Fin 8)
  | lockAchieved (err : Word)
  | lockLost (err : Word)
  | refFault
  | refFaultClear
  | refCtrlWrite (m : Master) (v : Word)
  | refFreeWrite (m : Master) (v : Word)
  | selectorSecond (mean : Word) (whole : Bool) (offsets : List Word)
  | realign (m : Master) (g : Fin 4) (v : Word)
  | generatorAlign (g : Fin 4) (present : Bool)
  -- clocks, power, isolation (R299 to R314)
  | powerGood (bulk : BitVec 10) (dc : Bool)
  | powerOnResetRelease (roleGnd : Bool)
  | earlyHeaderRead
  | xoQualified
  | xoWaitTimeout
  | pllLock
  | pllStartTimeout
  | muxEscape
  | xoLoss
  | cpllLoss
  | apllLoss
  | dramPllLoss
  | clkDivWrite (m : Master) (v : Word)
  | dividerChange
  | sscWrite (m : Master) (v : Word)
  | modeReqWrite (m : Master) (v : Word)
  | maintWrite (m : Master) (v : Word)
  | sleepEntry
  | deepEntry
  | wake (src : WakeSrc)
  | lpoTimerExpiry
  | brownOut (bulk : BitVec 10)
  | holdupCapture
  | holdupStoreDone
  | bulkRecover (bulk : BitVec 10)
  | railsFall
  | trainLineInputChange (i : Fin 8) (level : Bool)
  | trainLineOutputWrite (m : Master) (v : Word)
  | trainLineOvercurrent (j : Fin 2)
  -- boot, reset, host port (R318 to R343, R395)
  | pass1Complete (readOk : Bool)
  | verifyComplete
  | pass2Complete (readOk : Bool)
  | blockResetComplete
  | checksComplete
  | otpBurn (m : Master) (v : Word)
  | otpBurnComplete
  | globalResetWrite (m : Master) (v : Word)
  | resetPin
  | rstOutRise
  | spiRead (a : Word) (count : BitVec 16) (crcOk : Bool)
  | spiWrite (a : Word) (ws : List Word) (count : BitVec 16) (crcOk : Bool)
  | delronSend (len : BitVec 16) (msg : List Byte) (crcOk : Bool)
  | delronRecv (crcOk : Bool)
  -- the command byte of a request whose CRC is right, none of any other
  | spiStatus (cmd : Option Byte)
  | doorbell (v : Word) (crcOk : Bool)
  | spiTransactionAbandon (write : Option (Word × List Word))
  | flashRead (m : Master)
  | flashProgram (m : Master)
  | flashErase (m : Master)
  | flashCommandComplete (deviceErr : Bool)
  -- pairing (R345 to R359)
  | battenSample (high : Bool)
  | battenRelease
  | heartbeatSend
  | heartbeatReceive (hb : Heartbeat) (skew : Word)
  | heartbeatLoss
  | mirrorReady
  | syncRecord
  | sceneDirectoryReceive (dir : List (Fin 1024 × Word × Word × Word × Word))
  | forwardedEntryReceive (hdr : Word) (payload : List Word)
  | resolutionRecordReceive (ticket : Byte) (mask : Word) (c : BitVec 64)
  | epochStart
  | epochDataReceive (num : Word) (region : Fin 16) (off : Nat) (ws : List Word)
  | epochCommitMarker (num : Word) (startFc : BitVec 64) (crc : Word)
  | pairRelease (m : Master)
  | forceRelease (m : Master)
  | estart (m : Master)
  | resync (m : Master)
  -- faults, snapshots, tests (R365 to R378)
  | faultLatchClear (m : Master) (k : Fin 8) (v : Word)
  | firstFaultAck (m : Master)
  | ffr0Read (m : Master)
  | injectionArm (m : Master) (v : Word)
  | trig (m : Master) (v : Word)
  | snapInEdge (falling : Bool)
  | snapshotTake
  | scrubPassComplete (dram : Bool) (errs : List (Fin 22 × Word × Byte × Bool))
  | macCheckComplete (n : CourseId) (pass : Bool)
  | testRequest (m : Master) (v : Word)
  | testAbort (m : Master)
  | testComplete (pass : Bool)
  -- late rows of the table
  | apllRelock
  | dramTrainingComplete (sfdpOk : Bool)
  | sceneBodyReceive (s : Fin 1024) (ws : List Word)
  | forwardedCancelReceive (ticket : Byte)
  | currentLimitShutdown (rail : AuxRail)
deriving DecidableEq, Repr

end Sys2Proof
end

