-- ==== Sys2Proof/WellFormed.lean ====
section
/-! DEFINITION. Which commands are well formed: the register ranges and forms of R89 and R90, and the lengths that a frame, a packet or an entry has. An ill-formed syllable is undefined (R107). -/

namespace Sys2Proof

/-- Words per access (R85). -/
def Size.count : Size → Nat
  | .one => 1
  | .two => 2
  | .four => 4

/-- The registers Dr to Dr+n-1 exist (R90). -/
def regsFit (r : Fin 32) (sz : Size) : Bool := decide (r.val + sz.count ≤ 32)

/-- The source of a store names registers that exist (R89, R90). -/
def StSrc.wf : StSrc → Bool
  | .regs r sz => regsFit r sz
  | .acc _ => true

/-- A MODP names one of the forms that update the pointer (R89). -/
def Form.updates : Form → Bool
  | .postInc | .postDec | .postAddN | .postSubN => true
  | _ => false

/-- A command is well formed. -/
def Instr.wf : Instr → Bool
  | .ld _ _ _ r sz => regsFit r sz
  | .st _ _ _ src => src.wf
  | .modp _ _ f => f.updates
  | .inp _ _ _ r sz => regsFit r sz
  | .out _ _ _ src => src.wf
  | .tdmFrameEnd _ slots => decide (slots.length ≤ 32)
  | _ => true

end Sys2Proof
end

