-- ==== Sys2Proof/Decode.lean ====
section
/-! DEFINITION. The commands that words spell: by the bits of the opcode table none, for no row of this table gives bits; and the syllable that a word of program memory spells (R84, R85, R107, R108). -/

namespace Sys2Proof

open Sys2Proof.Machine (fld bit fin)

/-- The command that a word spells by the table's bits: none, for no row gives bits. The syllables of a program are read by `decodeSyllable`. -/
def decodeTableWord (_nbits _w : Nat) : Option Instr := none

/-- The header of a syllable that stands in word `w`: its stop bit, and whether a bit of the reserved mask is set (R79, R108). -/
def sylHdr (n : CourseId) (x : CtxId) (w reserved : Word) : SylHdr :=
  { n := n, x := x, stop := bit w 31, rsv := decide (w &&& reserved ≠ 0) }

/-- The data register named by five bits from bit `lo` on. -/
def regAt (w : Word) (lo : Nat) : Fin 32 := fin 31 (fld w lo 5)

/-- The accumulator named by three bits from bit `lo` on. -/
def accAt (w : Word) (lo : Nat) : Fin 8 := fin 7 (fld w lo 3)

/-- The part of an accumulator in bits [11:10]; 0b11 is reserved (R85). -/
def partAt (w : Word) : Option AccPart :=
  match fld w 10 2 with
  | 0 => some .l
  | 1 => some .h
  | 2 => some .x
  | _ => none

/-- A MAC-class word, bits [26:23] (R85, R87). -/
def decodeMac (n : CourseId) (x : CtxId) (w : Word) : Option Instr :=
  let a := accAt w 20
  let dx := regAt w 15
  let dy := regAt w 10
  match fld w 23 4 with
  | 0 => some (.mac (sylHdr n x w 0x3FF#32) a dx dy)
  | 1 => some (.msu (sylHdr n x w 0x3FF#32) a dx dy)
  | 2 => some (.mul (sylHdr n x w 0x3FF#32) a dx dy)
  | 3 => some (.muln (sylHdr n x w 0x3FF#32) a dx dy)
  | 4 => some (.clr (sylHdr n x w 0xFFFFF#32) a)
  | 5 => some (.lda (sylHdr n x w 0x7FFF#32) a dx)
  | 6 => some (.adda (sylHdr n x w 0x7FFF#32) a dx)
  | 7 => some (.accadd (sylHdr n x w 0xFE3FF#32) a (accAt w 10))
  | 8 => some (.accsub (sylHdr n x w 0xFE3FF#32) a (accAt w 10))
  | 9 => some (.mova (sylHdr n x w 0x7C0F#32) dx a (if bit w 4 then some (w.extractLsb' 5 5) else none))
  | 10 => (partAt w).map fun p => .rdr (sylHdr n x w 0x73FF#32) dx a p
  | 11 => (partAt w).map fun p => .wrr (sylHdr n x w 0x73FF#32) a p dx
  | _ => none

/-- The address form of bits [19:17]; 0b111 is reserved (R85). -/
def formAt (w : Word) : Option Form :=
  match fld w 17 3 with
  | 0 => some .plain
  | 1 => some .postInc
  | 2 => some .postDec
  | 3 => some .postAddN
  | 4 => some .postSubN
  | 5 => some .indexN
  | 6 => some (.disp (w.extractLsb' 1 8))
  | _ => none

/-- The words per access of bits [16:15]; 0b11 is reserved (R85). -/
def sizeAt (w : Word) : Option Size :=
  match fld w 15 2 with
  | 0 => some .one
  | 1 => some .two
  | 2 => some .four
  | _ => none

/-- The reserved bits of D8, which only FORM 0b110 uses (R85; DEDUCED, log entry 91). -/
def d8Reserved : Form → Word
  | .disp _ => 0
  | _ => 0x1FE#32

/-- The operands of a load or IN: form, registers and reserved bits; a register beyond D31 makes it undefined (R85, R90). -/
def loadAt (w : Word) : Option (Form × Fin 32 × Size × Word) :=
  match formAt w, sizeAt w with
  | some f, some sz => if regsFit (regAt w 10) sz then some (f, regAt w 10, sz, 0x201#32 ||| d8Reserved f) else none
  | _, _ => none

/-- The operands of a store or OUT: with A = 1 an accumulator, SZ 0b00 and REG[4:3] zero (R85, R89, R90). -/
def storeAt (w : Word) : Option (Form × StSrc × Word) :=
  match formAt w, sizeAt w with
  | some f, some sz =>
    if bit w 9 then (if sz = .one ∧ fld w 13 2 = 0 then some (f, .acc (accAt w 10), 1#32 ||| d8Reserved f) else none)
    else if regsFit (regAt w 10) sz then some (f, .regs (regAt w 10) sz, 1#32 ||| d8Reserved f)
    else none
  | _, _ => none

/-- The register of an address channel in bits [19:18] (R85). -/
def kindAt (w : Word) : AddrKind :=
  match fld w 18 2 with
  | 0 => .p
  | 1 => .n
  | 2 => .l
  | _ => .k

/-- An AGU-class word, bits [26:24] (R85, R89). -/
def decodeAgu (n : CourseId) (x : CtxId) (w : Word) : Option Instr :=
  let ch : Fin 16 := fin 15 (fld w 20 4)
  match fld w 24 3 with
  | 0 => (loadAt w).map fun o => .ld (sylHdr n x w o.2.2.2) ch o.1 o.2.1 o.2.2.1
  | 1 => (storeAt w).map fun o => .st (sylHdr n x w o.2.2) ch o.1 o.2.1
  | 2 => (formAt w).bind fun f => if f.updates then some (.modp (sylHdr n x w 0x1FFFF#32) ch f) else none
  | 3 => some (.mva (sylHdr n x w 0x183FF#32) ch (kindAt w) (bit w 17) (regAt w 10))
  | 4 => some (.setlo (sylHdr n x w 0x30000#32) ch (kindAt w) (w.extractLsb' 0 16))
  | 5 => some (.sethi (sylHdr n x w 0x30000#32) ch (kindAt w) (w.extractLsb' 0 16))
  | _ => none

/-- An IO-class word, bits [26:24] (R85, R92). -/
def decodeIo (n : CourseId) (x : CtxId) (w : Word) : Option Instr :=
  let ch : Fin 16 := fin 15 (fld w 20 4)
  match fld w 24 3 with
  | 0 => (loadAt w).map fun o => .inp (sylHdr n x w o.2.2.2) ch o.1 o.2.1 o.2.2.1
  | 1 => (storeAt w).map fun o => .out (sylHdr n x w o.2.2) ch o.1 o.2.1
  | _ => none

/-- The special register of bits [10:6]; 7 to 31 are reserved (R93). -/
def sprAt (w : Word) : Option Spr :=
  match fld w 6 5 with
  | 0 => some (.lc 0)
  | 1 => some (.lc 1)
  | 2 => some (.lc 2)
  | 3 => some (.lc 3)
  | 4 => some .rot
  | 5 => some .mode
  | 6 => some .flags
  | _ => none

/-- An ALU-class word, bits [26:21] (R85, R93, R94). -/
def decodeAlu (n : CourseId) (x : CtxId) (w : Word) : Option Instr :=
  let dd := regAt w 16
  let da := regAt w 11
  let db := regAt w 6
  let k : BitVec 5 := w.extractLsb' 6 5
  let f := bit w 2
  let p := accAt w 3
  let pn := bit w 1
  let pd := accAt w 16
  let imm : BitVec 16 := w.extractLsb' 0 16
  let h3 := sylHdr n x w 0x3B#32
  let h2 := sylHdr n x w 0x7FB#32
  let hc := sylHdr n x w 0x18003D#32
  let hi := sylHdr n x w 0#32
  match fld w 21 6 with
  | 0x01 => some (.add h3 f dd da db)
  | 0x02 => some (.sub h3 f dd da db)
  | 0x03 => some (.adds h3 f dd da db)
  | 0x04 => some (.subs h3 f dd da db)
  | 0x05 => some (.and h3 f dd da db)
  | 0x06 => some (.or h3 f dd da db)
  | 0x07 => some (.xor h3 f dd da db)
  | 0x08 => some (.andn h3 f dd da db)
  | 0x09 => some (.asr h3 f dd da db)
  | 0x0A => some (.lsr h3 f dd da db)
  | 0x0B => some (.lsl h3 f dd da db)
  | 0x0C => some (.asri h3 f dd da k)
  | 0x0D => some (.lsri h3 f dd da k)
  | 0x0E => some (.lsli h3 f dd da k)
  | 0x0F => some (.abs h2 f dd da)
  | 0x10 => some (.neg h2 f dd da)
  | 0x11 => some (.min h3 f dd da db)
  | 0x12 => some (.max h3 f dd da db)
  | 0x13 => some (.cmpeq hc pd da db pn)
  | 0x14 => some (.cmplt hc pd da db pn)
  | 0x15 => some (.cmple hc pd da db pn)
  | 0x16 => some (.cmpltu hc pd da db pn)
  | 0x17 => some (.cmpleu hc pd da db pn)
  | 0x18 => some (.sel (sylHdr n x w 0x5#32) dd da db p pn)
  | 0x19 => some (.movp (sylHdr n x w 0x7C5#32) dd da p pn)
  | 0x1A => some (.mov (sylHdr n x w 0x7FF#32) dd da)
  | 0x1B => some (.movi hi dd imm)
  | 0x1C => some (.movhi hi dd imm)
  | 0x1D => (sprAt w).map fun r => .mfs (sylHdr n x w 0xF83F#32) dd r
  | 0x1E => (sprAt w).map fun r => .mts (sylHdr n x w 0x1F003F#32) r da
  | 0x1F => some (.cls (sylHdr n x w 0x7FF#32) dd da)
  | 0x20 => some (.lci (sylHdr n x w 0x1C0000#32) (fin 3 (fld w 16 2)) imm)
  | _ => none

/-- A CTL-class word, bits [26:22] (R85, R95). -/
def decodeCtl (n : CourseId) (x : CtxId) (w : Word) : Option Instr :=
  let target : BitVec 14 := w.extractLsb' 0 14
  let lc : Fin 4 := fin 3 (fld w 16 2)
  let none' := sylHdr n x w 0x3FFFFF#32
  match fld w 22 5 with
  | 0 => some (.nop none')
  | 1 => some (.br (sylHdr n x w 0x3C000#32) (accAt w 18) (bit w 21) target)
  | 2 => some (.dbnz (sylHdr n x w 0x1CC000#32) (bit w 21) lc target)
  | 3 =>
    if bit w 21 then some (.rep (sylHdr n x w 0x1CFFFF#32) (.lc lc))
    else some (.rep (sylHdr n x w 0x1F0000#32) (.imm (w.extractLsb' 0 16)))
  | 4 => some (.rots none')
  | 5 => some (.jal (sylHdr n x w 0x20C000#32) (regAt w 16) target)
  | 6 => some (.jmp (sylHdr n x w 0x20FFFF#32) (regAt w 16))
  | 7 => some (.fend none')
  | 8 => some (.tend none')
  | _ => none

/-- A word of the extension classes: class bits [30:27] and opcode bits [26:21] (R84, R85, R103). -/
def decodeExt (n : CourseId) (x : CtxId) (w : Word) : Option Instr :=
  let dd := regAt w 16
  let da := regAt w 11
  let ch : Fin 512 := fin 511 (fld w 0 9)
  match fld w 27 4, fld w 21 6 with
  | 8, 1 => some (.eqSos (sylHdr n x w 0x700#32) dd da (w.extractLsb' 0 8))
  | 9, 1 => some (.asrcRatio (sylHdr n x w 0xFE00#32) dd ch)
  | 9, 2 => some (.asrcStat (sylHdr n x w 0xFE00#32) dd ch)
  | 10, 1 => some (.mtrGet (sylHdr n x w 0x7FC#32) dd da (fin 3 (fld w 0 2)))
  | 11, 1 => some (.dlyMove (sylHdr n x w 0x7FF#32) dd da)
  | 11, 2 => some (.dlyPoll (sylHdr n x w 0x7FF#32) dd da)
  | _, _ => none

/-- The defined syllable that a word spells, if any: bits [30:27] give the class (R84). -/
def definedSyllable (n : CourseId) (x : CtxId) (w : Word) : Option Instr :=
  match fld w 27 4 with
  | 0 => decodeMac n x w
  | 1 => decodeAgu n x w
  | 2 => decodeAlu n x w
  | 3 => decodeCtl n x w
  | 4 => decodeIo n x w
  | _ => decodeExt n x w

/-- The syllable command that a word of program memory spells when Course `n` issues it in context `x`; a word with an undefined class, an undefined opcode or a reserved value spells an undefined syllable (R84, R85, R107). Excess syllables, and FEND or TEND in the wrong context, show in the bundle (Machine/Bundle.lean). -/
def decodeSyllable (n : CourseId) (x : CtxId) (w : Word) : Instr :=
  (definedSyllable n x w).getD (.undefinedSyllable (sylHdr n x w 0#32) w)

/-- A word spells no defined syllable (R107). -/
def undefinedWord (w : Word) : Bool := (definedSyllable 0 .fg w).isNone

end Sys2Proof
end

