-- ==== Sys2Proof/Machine/Map.lean ====
section
/-! DEFINITION. Sparse maps in one canonical form: a list of (key, value) pairs, keys strictly rising, no entry equal to what an unlisted key reads as. Registers, tables and memories are held so. -/

namespace Sys2Proof.Machine

/-- The value listed under key `k`, if any. -/
def mapFind {α : Type} : List (Nat × α) → Nat → Option α
  | [], _ => none
  | e :: t, k => if e.1 = k then some e.2 else mapFind t k

/-- The value at key `k`: the listed one, else the default `d k`. -/
def mapGet {α : Type} (d : Nat → α) (m : List (Nat × α)) (k : Nat) : α :=
  (mapFind m k).getD (d k)

/-- The map without key `k`. -/
def mapDel {α : Type} : List (Nat × α) → Nat → List (Nat × α)
  | [], _ => []
  | e :: t, k => if e.1 = k then mapDel t k else e :: mapDel t k

/-- Insertion in key order of a key that is not listed. -/
def mapIns {α : Type} : List (Nat × α) → Nat → α → List (Nat × α)
  | [], k, v => [(k, v)]
  | e :: t, k, v => if k < e.1 then (k, v) :: e :: t else e :: mapIns t k v

/-- Key `k` takes value `v`; the canonical form is kept. -/
def mapSet {α : Type} [DecidableEq α] (d : Nat → α) (m : List (Nat × α)) (k : Nat) (v : α) : List (Nat × α) :=
  if v = d k then mapDel m k else mapIns (mapDel m k) k v

/-- The keys rise strictly from `lo` on and no entry equals its default. -/
def mapWfFrom {α : Type} [DecidableEq α] (d : Nat → α) (lo : Nat) : List (Nat × α) → Bool
  | [] => true
  | e :: t => decide (lo ≤ e.1) && decide (e.2 ≠ d e.1) && mapWfFrom d (e.1 + 1) t

/-- The canonical form of a map. -/
def mapWf {α : Type} [DecidableEq α] (d : Nat → α) (m : List (Nat × α)) : Bool := mapWfFrom d 0 m

/-- Successive values `vs` at keys `k`, `k + 1`, … -/
def mapSetMany {α : Type} [DecidableEq α] (d : Nat → α) : List (Nat × α) → Nat → List α → List (Nat × α)
  | m, _, [] => m
  | m, k, v :: vs => mapSetMany d (mapSet d m k v) (k + 1) vs

/-- What a byte that nothing has written reads as (log entry 3). -/
def byteDefault (_ : Nat) : Byte := 0

/-- One byte of an addressed memory. -/
def byteGet (m : List (Nat × Byte)) (a : Nat) : Byte := mapGet byteDefault m a

/-- One byte of an addressed memory is written. -/
def byteSet (m : List (Nat × Byte)) (a : Nat) (b : Byte) : List (Nat × Byte) := mapSet byteDefault m a b

/-- The canonical form of an addressed memory. -/
def Memory.wf (m : List (Nat × Byte)) : Bool := mapWf byteDefault m

/-- Lane `i` of a word is bits [8i+7:8i] (R115). -/
def lane (w : Word) (i : Nat) : Byte := w.extractLsb' (8 * i) 8

/-- Word `w` of a memory: its bytes 4w to 4w + 3, lane 0 first (R115, R400). -/
def memWord (m : List (Nat × Byte)) (w : Nat) : Word :=
  byteGet m (4 * w + 3) ++ byteGet m (4 * w + 2) ++ byteGet m (4 * w + 1) ++ byteGet m (4 * w)

/-- Word `w` of a memory is written. -/
def memSetWord (m : List (Nat × Byte)) (w : Nat) (v : Word) : List (Nat × Byte) :=
  byteSet (byteSet (byteSet (byteSet m (4 * w) (lane v 0)) (4 * w + 1) (lane v 1)) (4 * w + 2) (lane v 2)) (4 * w + 3) (lane v 3)

/-- What a word of a register-like map that nothing has written reads as. -/
def wordDefault (_ : Nat) : Word := 0

/-- A word of a map whose unlisted words read zero. -/
def wmGet (m : List (Nat × Word)) (k : Nat) : Word := mapGet wordDefault m k

/-- A word of such a map is written. -/
def wmSet (m : List (Nat × Word)) (k : Nat) (v : Word) : List (Nat × Word) := mapSet wordDefault m k v

/-- Successive words of such a map. -/
def wmSetMany (m : List (Nat × Word)) (k : Nat) (vs : List Word) : List (Nat × Word) := mapSetMany wordDefault m k vs

end Sys2Proof.Machine
end

