-- ==== Sys2Proof/Config.lean ====
section
/-! DEFINITION. What an implementation fixes, and the values the spec leaves open (free values: no body, so no proof can see what they are). -/

namespace Sys2Proof.Config

/-- Free 32-bit values, one for each value of the counter `State.freeCtr` (log entry 2). -/
opaque freeWord : Nat → BitVec 32

/-- The converted value of an ASRC channel in network-time ratio mode: a function of the ratio (Q4.28), the placed samples (newest first) and the instant that the output shows; the spec states its delay and its quality, not its numbers (R233, R234; log entries 2 and 95). -/
opaque asrcValue : BitVec 32 → List (Int × BitVec 32) → Int → BitVec 32

/-- The device identifier fused in the module, NET.DEVID_HI and NET.DEVID_LO (R271; log entry 4). -/
opaque deviceId : BitVec 64

/-- True on a BV9-2048-S, false on a BV9-2048-T: GLOBAL.ID.GRADE (R4; log entry 4). -/
opaque stationGrade : Bool

/-- True where the carrier's boot flash holds 256 MiB, false where it holds 128 MiB (R318; log entry 40). -/
opaque bigFlash : Bool

/-- The control sources of GV_DELRON, address and mask; the spec states no place where Thatch lists them (R268; log entry 60). -/
opaque delronControl : List (BitVec 32 × BitVec 32)

/-- PERIOD of ANNOUNCE in ms, which Thatch sets at a place the spec does not state (R269; log entry 60). -/
opaque delronPeriod : BitVec 16

/-- CARNO, which Thatch sets at a place the spec does not state (R267; log entry 60). -/
opaque delronCar : BitVec 8

/-- NAME, 32 bytes, at a place the spec does not state (R267; log entry 60). -/
opaque delronName : Nat → BitVec 8

/-- The TAG of each transmit flow, at a place the spec does not state (R267; log entry 60). -/
opaque delronTag : Nat → BitVec 8

/-- The length of the instruction register of the test access port (R396; log entry 96). -/
opaque tapIrLength : Nat

/-- What an instruction code of the test access port selects: 0 the boundary register, 1 IDCODE, any other number bypass (R396; log entry 96). -/
opaque tapDecode : List Bool → Nat

end Sys2Proof.Config
end

