-- ==== Sys2Proof/Machine/Regs.lean ====
section
/-! DEFINITION. The control and status registers of the map of R18: for each, its address, its reset value and which of its bits are RW, RO, WO, W1C, RC, shadowed and loaded by Thatch. One row per register (or register array) of the spec's register tables; a bit in no mask is reserved (R13). -/

namespace Sys2Proof.Machine

/-- A register, or an array of `n1` × `n2` registers at strides `s1` and `s2`, with its reset value and its bit masks by access type (R12). `shadow` marks bits changed only by a commit (R167), `thatch` those loaded at boot (R328). -/
structure RegInfo where
  base : Nat
  n1 : Nat
  s1 : Nat
  n2 : Nat
  s2 : Nat
  reset : Nat
  rw : Nat
  ro : Nat
  wo : Nat
  w1c : Nat
  rc : Nat
  shadow : Nat
  thatch : Nat
deriving DecidableEq, Repr

/-- GLOBAL.ID (R4). -/
def regGLOBAL_ID : Nat := 0x0
/-- GLOBAL.ISSUE (R4). -/
def regGLOBAL_ISSUE : Nat := 0x4
/-- GLOBAL.RESET (R334). -/
def regGLOBAL_RESET : Nat := 0x10
/-- GLOBAL.RSTCAUSE (R334). -/
def regGLOBAL_RSTCAUSE : Nat := 0x14
/-- GLOBAL.FC_LO (R22). -/
def regGLOBAL_FC_LO : Nat := 0x20
/-- GLOBAL.FC_HI (R22). -/
def regGLOBAL_FC_HI : Nat := 0x24
/-- GLOBAL.RATE (R23). -/
def regGLOBAL_RATE : Nat := 0x28
/-- GLOBAL.PIPE_STAT (R34). -/
def regGLOBAL_PIPE_STAT : Nat := 0x2C
/-- GLOBAL.MODE (R314). -/
def regGLOBAL_MODE : Nat := 0x40
/-- CLK.STATUS (R315). -/
def regCLK_STATUS : Nat := 0x10000
/-- CLK.HIST (R315). -/
def regCLK_HIST : Nat := 0x10004
/-- CLK.DIV (R315). -/
def regCLK_DIV : Nat := 0x10008
/-- CLK.SSC (R315). -/
def regCLK_SSC : Nat := 0x1000C
/-- CLK.GATE_RUN (R315). -/
def regCLK_GATE_RUN : Nat := 0x10010
/-- CLK.GATE_SLEEP (R315). -/
def regCLK_GATE_SLEEP : Nat := 0x10014
/-- CLK.GATE_DEEP (R315). -/
def regCLK_GATE_DEEP : Nat := 0x10018
/-- PWR.STATUS (R316). -/
def regPWR_STATUS : Nat := 0x20000
/-- PWR.WAKE (R316). -/
def regPWR_WAKE : Nat := 0x20004
/-- PWR.LPOTMR (R316). -/
def regPWR_LPOTMR : Nat := 0x20008
/-- FAULT.FFR0 (R377). -/
def regFAULT_FFR0 : Nat := 0x30000
/-- FAULT.FFR1, indexed (R377). -/
def regFAULT_FFR1 (i : Nat) : Nat := 0x30004 + 4 * i
/-- FAULT.FFDET (R377). -/
def regFAULT_FFDET : Nat := 0x30010
/-- FAULT.FFSYN (R377). -/
def regFAULT_FFSYN : Nat := 0x30014
/-- FAULT.COUNT (R377). -/
def regFAULT_COUNT : Nat := 0x30018
/-- FAULT.CLASSCNT (R377). -/
def regFAULT_CLASSCNT : Nat := 0x3001C
/-- FAULT.INJCTRL (R377). -/
def regFAULT_INJCTRL : Nat := 0x30020
/-- FAULT.INJADDR (R377). -/
def regFAULT_INJADDR : Nat := 0x30024
/-- FAULT.TESTCTRL (R377). -/
def regFAULT_TESTCTRL : Nat := 0x30028
/-- FAULT.TESTSTAT (R377). -/
def regFAULT_TESTSTAT : Nat := 0x3002C
/-- FAULT.SCRUB (R377). -/
def regFAULT_SCRUB : Nat := 0x30030
/-- FAULT.CORR_CNT (R377). -/
def regFAULT_CORR_CNT : Nat := 0x30034
/-- FAULT.LATCH, indexed (R377). -/
def regFAULT_LATCH (i : Nat) : Nat := 0x30040 + 4 * i
/-- FAULT.CAUSE, indexed (R377). -/
def regFAULT_CAUSE (i : Nat) : Nat := 0x30060 + 4 * i
/-- FAULT.CFG, indexed (R377). -/
def regFAULT_CFG (i : Nat) : Nat := 0x30100 + 4 * i
/-- EVT.CTRL (R209). -/
def regEVT_CTRL : Nat := 0x40000
/-- EVT.STATUS (R209). -/
def regEVT_STATUS : Nat := 0x40004
/-- EVT.DIVIDER (R209). -/
def regEVT_DIVIDER : Nat := 0x40008
/-- EVT.FULL_CNT (R209). -/
def regEVT_FULL_CNT : Nat := 0x4000C
/-- EVT.DROP_CNT (R209). -/
def regEVT_DROP_CNT : Nat := 0x40010
/-- EVT.LOST_CNT (R209). -/
def regEVT_LOST_CNT : Nat := 0x40014
/-- EVT.ABORT_CNT (R209). -/
def regEVT_ABORT_CNT : Nat := 0x40018
/-- EVT.DISPATCH_CNT (R209). -/
def regEVT_DISPATCH_CNT : Nat := 0x4001C
/-- EVT.READY, indexed (R209). -/
def regEVT_READY (i : Nat) : Nat := 0x40020 + 4 * i
/-- EVT.DOMBUSY_LO (R209). -/
def regEVT_DOMBUSY_LO : Nat := 0x40040
/-- EVT.DOMBUSY_HI (R209). -/
def regEVT_DOMBUSY_HI : Nat := 0x40044
/-- EVT.PURGE (R209). -/
def regEVT_PURGE : Nat := 0x40048
/-- EVT.INTSTAT (R209). -/
def regEVT_INTSTAT : Nat := 0x4004C
/-- EVT.PEND, indexed (R209). -/
def regEVT_PEND (i : Nat) : Nat := 0x40080 + 4 * i
/-- EVT.ROUTE, indexed (R209). -/
def regEVT_ROUTE (i : Nat) : Nat := 0x40100 + 4 * i
/-- EVT.PAYLOAD, indexed (R209). -/
def regEVT_PAYLOAD (i : Nat) : Nat := 0x40300 + 4 * i
/-- EVT.SW, indexed (R209). -/
def regEVT_SW (i : Nat) : Nat := 0x40500 + 4 * i
/-- PEG.QHDR (R191). -/
def regPEG_QHDR : Nat := 0x50000
/-- PEG.QDATA (R191). -/
def regPEG_QDATA : Nat := 0x50004
/-- PEG.QFREE (R191). -/
def regPEG_QFREE : Nat := 0x50008
/-- PEG.STATUS (R191). -/
def regPEG_STATUS : Nat := 0x5000C
/-- PEG.SEALED (R191). -/
def regPEG_SEALED : Nat := 0x50010
/-- PEG.PENDING (R191). -/
def regPEG_PENDING : Nat := 0x50014
/-- PEG.CANCEL (R191). -/
def regPEG_CANCEL : Nat := 0x50018
/-- PEG.TICKET (R191). -/
def regPEG_TICKET : Nat := 0x5001C
/-- PEG.DROP_CNT (R191). -/
def regPEG_DROP_CNT : Nat := 0x50020
/-- PEG.MARK (R191). -/
def regPEG_MARK : Nat := 0x50024
/-- PEG.PAGEGRP, indexed (R191). -/
def regPEG_PAGEGRP (i : Nat) : Nat := 0x50040 + 4 * i
/-- PEG.XFADE, indexed (R191). -/
def regPEG_XFADE (i : Nat) : Nat := 0x50100 + 4 * i
/-- PEG.LOG, doubly indexed (R191). -/
def regPEG_LOG (i j : Nat) : Nat := 0x51000 + 32 * i + 4 * j
/-- MIX.STATUS (R164). -/
def regMIX_STATUS : Nat := 0x60000
/-- MIX.ACTIVE (R164). -/
def regMIX_ACTIVE : Nat := 0x60004
/-- MIX.DEFER_CNT (R164). -/
def regMIX_DEFER_CNT : Nat := 0x60008
/-- MIX.SAT_CNT (R164). -/
def regMIX_SAT_CNT : Nat := 0x6000C
/-- MIX.AV_CNT (R164). -/
def regMIX_AV_CNT : Nat := 0x60010
/-- MIX.AV_BUS (R164). -/
def regMIX_AV_BUS : Nat := 0x60014
/-- MIX.SELECTORS (R164). -/
def regMIX_SELECTORS : Nat := 0x60018
/-- EQ.STATUS (R165). -/
def regEQ_STATUS : Nat := 0x70000
/-- EQ.DEFER_CNT (R165). -/
def regEQ_DEFER_CNT : Nat := 0x70004
/-- EQ.SAT_CNT (R165). -/
def regEQ_SAT_CNT : Nat := 0x70008
/-- EQ.SAT_SEC (R165). -/
def regEQ_SAT_SEC : Nat := 0x7000C
/-- EQ.SECTIONS (R165). -/
def regEQ_SECTIONS : Nat := 0x70010
/-- EQ.BIND, indexed (R165). -/
def regEQ_BIND (i : Nat) : Nat := 0x70040 + 4 * i
/-- MTR.CTRL (R166). -/
def regMTR_CTRL : Nat := 0x80000
/-- MTR.STATUS (R166). -/
def regMTR_STATUS : Nat := 0x80004
/-- ASRC.STATUS (R239). -/
def regASRC_STATUS : Nat := 0x90000
/-- ASRC.UNLOCK_CNT (R239). -/
def regASRC_UNLOCK_CNT : Nat := 0x90004
/-- ASRC.CHSTAT, indexed (R239). -/
def regASRC_CHSTAT (i : Nat) : Nat := 0x90400 + 4 * i
/-- TDM.CFG, indexed (R236). -/
def regTDM_CFG (i : Nat) : Nat := 0xA0000 + 64 * i
/-- TDM.ALIGN, indexed (R236). -/
def regTDM_ALIGN (i : Nat) : Nat := 0xA0004 + 64 * i
/-- TDM.MASKIN, indexed (R236). -/
def regTDM_MASKIN (i : Nat) : Nat := 0xA0008 + 64 * i
/-- TDM.MASKOUT, indexed (R236). -/
def regTDM_MASKOUT (i : Nat) : Nat := 0xA000C + 64 * i
/-- TDM.STAT, indexed (R236). -/
def regTDM_STAT (i : Nat) : Nat := 0xA0010 + 64 * i
/-- TDM.SLIP, indexed (R236). -/
def regTDM_SLIP (i : Nat) : Nat := 0xA0014 + 64 * i
/-- TDM.RESYNC, indexed (R236). -/
def regTDM_RESYNC (i : Nat) : Nat := 0xA0018 + 64 * i
/-- TDM.RATE, indexed (R236). -/
def regTDM_RATE (i : Nat) : Nat := 0xA001C + 64 * i
/-- AES.RXCTRL, indexed (R238). -/
def regAES_RXCTRL (i : Nat) : Nat := 0xB0000 + 256 * i
/-- AES.RXSTAT, indexed (R238). -/
def regAES_RXSTAT (i : Nat) : Nat := 0xB0004 + 256 * i
/-- AES.RXERR, indexed (R238). -/
def regAES_RXERR (i : Nat) : Nat := 0xB0008 + 256 * i
/-- AES.RXSLIP, indexed (R238). -/
def regAES_RXSLIP (i : Nat) : Nat := 0xB000C + 256 * i
/-- AES.RXCS, doubly indexed (R238). -/
def regAES_RXCS (i j : Nat) : Nat := 0xB0020 + 256 * i + 4 * j
/-- AES.TXCTRL, indexed (R238). -/
def regAES_TXCTRL (i : Nat) : Nat := 0xB0800 + 256 * i
/-- AES.TXSEL, indexed (R238). -/
def regAES_TXSEL (i : Nat) : Nat := 0xB0804 + 256 * i
/-- AES.TXCS, doubly indexed (R238). -/
def regAES_TXCS (i j : Nat) : Nat := 0xB0820 + 256 * i + 4 * j
/-- NET.PCTRL, indexed (R271). -/
def regNET_PCTRL (i : Nat) : Nat := 0xC0000 + 32 * i
/-- NET.PSTAT, indexed (R271). -/
def regNET_PSTAT (i : Nat) : Nat := 0xC0004 + 32 * i
/-- NET.PMACLO, indexed (R271). -/
def regNET_PMACLO (i : Nat) : Nat := 0xC0008 + 32 * i
/-- NET.PMACHI, indexed (R271). -/
def regNET_PMACHI (i : Nat) : Nat := 0xC000C + 32 * i
/-- NET.PIP, indexed (R271). -/
def regNET_PIP (i : Nat) : Nat := 0xC0010 + 32 * i
/-- NET.CTRL (R271). -/
def regNET_CTRL : Nat := 0xC0040
/-- NET.STATUS (R271). -/
def regNET_STATUS : Nat := 0xC0044
/-- NET.DEVID_LO (R271). -/
def regNET_DEVID_LO : Nat := 0xC0048
/-- NET.DEVID_HI (R271). -/
def regNET_DEVID_HI : Nat := 0xC004C
/-- NET.RXDROP_CNT (R271). -/
def regNET_RXDROP_CNT : Nat := 0xC0050
/-- NET.UNCLASS_CNT (R271). -/
def regNET_UNCLASS_CNT : Nat := 0xC0054
/-- NET.ERRFRAME_CNT (R271). -/
def regNET_ERRFRAME_CNT : Nat := 0xC0058
/-- NET.RINGBASE, indexed (R271). -/
def regNET_RINGBASE (i : Nat) : Nat := 0xC1000 + 16 * i
/-- NET.RINGCFG, indexed (R271). -/
def regNET_RINGCFG (i : Nat) : Nat := 0xC1004 + 16 * i
/-- NET.RINGHEAD, indexed (R271). -/
def regNET_RINGHEAD (i : Nat) : Nat := 0xC1008 + 16 * i
/-- NET.RINGTAIL, indexed (R271). -/
def regNET_RINGTAIL (i : Nat) : Nat := 0xC100C + 16 * i
/-- TIME.CFG, indexed (R296). -/
def regTIME_CFG (i : Nat) : Nat := 0xD0000 + 256 * i
/-- TIME.CMD, indexed (R296). -/
def regTIME_CMD (i : Nat) : Nat := 0xD0004 + 256 * i
/-- TIME.STAT, indexed (R296). -/
def regTIME_STAT (i : Nat) : Nat := 0xD0008 + 256 * i
/-- TIME.RATE, indexed (R296). -/
def regTIME_RATE (i : Nat) : Nat := 0xD000C + 256 * i
/-- TIME.STEP_LO, indexed (R296). -/
def regTIME_STEP_LO (i : Nat) : Nat := 0xD0010 + 256 * i
/-- TIME.STEP_HI, indexed (R296). -/
def regTIME_STEP_HI (i : Nat) : Nat := 0xD0014 + 256 * i
/-- TIME.NS, indexed (R296). -/
def regTIME_NS (i : Nat) : Nat := 0xD0018 + 256 * i
/-- TIME.SEC_LO, indexed (R296). -/
def regTIME_SEC_LO (i : Nat) : Nat := 0xD001C + 256 * i
/-- TIME.SEC_HI, indexed (R296). -/
def regTIME_SEC_HI (i : Nat) : Nat := 0xD0020 + 256 * i
/-- TIME.ALIGN, indexed (R296). -/
def regTIME_ALIGN (i : Nat) : Nat := 0xD0024 + 256 * i
/-- TIME.ANC_NS, indexed (R296). -/
def regTIME_ANC_NS (i : Nat) : Nat := 0xD0028 + 256 * i
/-- TIME.ANC_SEC_LO, indexed (R296). -/
def regTIME_ANC_SEC_LO (i : Nat) : Nat := 0xD002C + 256 * i
/-- TIME.ANC_SEC_HI, indexed (R296). -/
def regTIME_ANC_SEC_HI (i : Nat) : Nat := 0xD0030 + 256 * i
/-- TIME.ANC_FC_LO, indexed (R296). -/
def regTIME_ANC_FC_LO (i : Nat) : Nat := 0xD0034 + 256 * i
/-- TIME.ANC_FC_HI, indexed (R296). -/
def regTIME_ANC_FC_HI (i : Nat) : Nat := 0xD0038 + 256 * i
/-- TIME.TICKERR, indexed (R296). -/
def regTIME_TICKERR (i : Nat) : Nat := 0xD003C + 256 * i
/-- TIME.ALM_NS, doubly indexed (R296). -/
def regTIME_ALM_NS (i j : Nat) : Nat := 0xD0040 + 256 * i + 16 * j
/-- TIME.ALM_SEC_LO, doubly indexed (R296). -/
def regTIME_ALM_SEC_LO (i j : Nat) : Nat := 0xD0044 + 256 * i + 16 * j
/-- TIME.ALM_SEC_HI, doubly indexed (R296). -/
def regTIME_ALM_SEC_HI (i j : Nat) : Nat := 0xD0048 + 256 * i + 16 * j
/-- TIME.ALM_CTRL, doubly indexed (R296). -/
def regTIME_ALM_CTRL (i j : Nat) : Nat := 0xD004C + 256 * i + 16 * j
/-- TIME.PHYDLY, indexed (R296). -/
def regTIME_PHYDLY (i : Nat) : Nat := 0xD0400 + 4 * i
/-- TIME.CAPCFG, indexed (R296). -/
def regTIME_CAPCFG (i : Nat) : Nat := 0xD0410 + 16 * i
/-- TIME.CAPNS, indexed (R296). -/
def regTIME_CAPNS (i : Nat) : Nat := 0xD0414 + 16 * i
/-- TIME.CAPSECLO, indexed (R296). -/
def regTIME_CAPSECLO (i : Nat) : Nat := 0xD0418 + 16 * i
/-- TIME.CAPSECHI, indexed (R296). -/
def regTIME_CAPSECHI (i : Nat) : Nat := 0xD041C + 16 * i
/-- TIME.CAPSTAT (R296). -/
def regTIME_CAPSTAT : Nat := 0xD0450
/-- REF.CTRL (R297). -/
def regREF_CTRL : Nat := 0xE0000
/-- REF.STATE (R297). -/
def regREF_STATE : Nat := 0xE0004
/-- REF.HIST (R297). -/
def regREF_HIST : Nat := 0xE0008
/-- REF.DCO (R297). -/
def regREF_DCO : Nat := 0xE000C
/-- REF.FREE (R297). -/
def regREF_FREE : Nat := 0xE0010
/-- REF.HOCFG (R297). -/
def regREF_HOCFG : Nat := 0xE0014
/-- REF.HOAVG (R297). -/
def regREF_HOAVG : Nat := 0xE0018
/-- REF.HOCNT (R297). -/
def regREF_HOCNT : Nat := 0xE001C
/-- REF.LOCKCFG (R297). -/
def regREF_LOCKCFG : Nat := 0xE0020
/-- REF.DISTHR (R297). -/
def regREF_DISTHR : Nat := 0xE0024
/-- REF.PHERR (R297). -/
def regREF_PHERR : Nat := 0xE0028
/-- REF.SWITCH_CNT (R297). -/
def regREF_SWITCH_CNT : Nat := 0xE002C
/-- REF.SLOTCFG, indexed (R297). -/
def regREF_SLOTCFG (i : Nat) : Nat := 0xE0040 + 32 * i
/-- REF.SLOTTMR, indexed (R297). -/
def regREF_SLOTTMR (i : Nat) : Nat := 0xE0044 + 32 * i
/-- REF.SLOTSTAT, indexed (R297). -/
def regREF_SLOTSTAT (i : Nat) : Nat := 0xE0048 + 32 * i
/-- REF.SLOTOFF, indexed (R297). -/
def regREF_SLOTOFF (i : Nat) : Nat := 0xE004C + 32 * i
/-- REF.OUTCFG, indexed (R297). -/
def regREF_OUTCFG (i : Nat) : Nat := 0xE0200 + 16 * i
/-- REF.OUTOFF, indexed (R297). -/
def regREF_OUTOFF (i : Nat) : Nat := 0xE0204 + 16 * i
/-- REF.OUTDIV, indexed (R297). -/
def regREF_OUTDIV (i : Nat) : Nat := 0xE0208 + 16 * i
/-- REF.OUTSTAT, indexed (R297). -/
def regREF_OUTSTAT (i : Nat) : Nat := 0xE020C + 16 * i
/-- PAIR.CFG (R360). -/
def regPAIR_CFG : Nat := 0xF0000
/-- PAIR.CTRL (R360). -/
def regPAIR_CTRL : Nat := 0xF0004
/-- PAIR.STATUS (R360). -/
def regPAIR_STATUS : Nat := 0xF0008
/-- PAIR.MATCH (R360). -/
def regPAIR_MATCH : Nat := 0xF000C
/-- PAIR.SKEW (R360). -/
def regPAIR_SKEW : Nat := 0xF0010
/-- PAIR.FCOFF_LO (R360). -/
def regPAIR_FCOFF_LO : Nat := 0xF0014
/-- PAIR.FCOFF_HI (R360). -/
def regPAIR_FCOFF_HI : Nat := 0xF0018
/-- PAIR.EPOCH (R360). -/
def regPAIR_EPOCH : Nat := 0xF001C
/-- PAIR.ESTAT (R360). -/
def regPAIR_ESTAT : Nat := 0xF0020
/-- PAIR.TAKEOVER (R360). -/
def regPAIR_TAKEOVER : Nat := 0xF0024
/-- PAIR.STALE (R360). -/
def regPAIR_STALE : Nat := 0xF0028
/-- PAIR.MISCNT (R360). -/
def regPAIR_MISCNT : Nat := 0xF002C
/-- PAIR.NEED (R360). -/
def regPAIR_NEED : Nat := 0xF0030
/-- PAIR.EREG_SRC, indexed (R360). -/
def regPAIR_EREG_SRC (i : Nat) : Nat := 0xF0100 + 16 * i
/-- PAIR.EREG_LEN, indexed (R360). -/
def regPAIR_EREG_LEN (i : Nat) : Nat := 0xF0104 + 16 * i
/-- PAIR.EREG_RXA, indexed (R360). -/
def regPAIR_EREG_RXA (i : Nat) : Nat := 0xF0108 + 16 * i
/-- PAIR.EREG_RXB, indexed (R360). -/
def regPAIR_EREG_RXB (i : Nat) : Nat := 0xF010C + 16 * i
/-- SCR.OWN, indexed (R117). -/
def regSCR_OWN (i : Nat) : Nat := 0x100000 + 4 * i
/-- SCR.HO_DONE_LO (R117). -/
def regSCR_HO_DONE_LO : Nat := 0x100100
/-- SCR.HO_DONE_HI (R117). -/
def regSCR_HO_DONE_HI : Nat := 0x100104
/-- SCR.CONFLICT, indexed (R117). -/
def regSCR_CONFLICT (i : Nat) : Nat := 0x100200 + 4 * i
/-- SCR.ERR (R117). -/
def regSCR_ERR : Nat := 0x100300
/-- SCR.ERR_ADDR (R117). -/
def regSCR_ERR_ADDR : Nat := 0x100304
/-- SCR.ERR_CNT (R117). -/
def regSCR_ERR_CNT : Nat := 0x100308
/-- DLY.PART, indexed (R119). -/
def regDLY_PART (i : Nat) : Nat := 0x110000 + 4 * i
/-- DLY.STATUS (R129). -/
def regDLY_STATUS : Nat := 0x110020
/-- DLY.DEFER_CNT (R129). -/
def regDLY_DEFER_CNT : Nat := 0x110024
/-- DLY.CFGERR (R129). -/
def regDLY_CFGERR : Nat := 0x110028
/-- DLY.DECL, indexed (R129). -/
def regDLY_DECL (i : Nat) : Nat := 0x110040 + 4 * i
/-- DLY.REC_HEAD (R129). -/
def regDLY_REC_HEAD : Nat := 0x110080
/-- DLY.REC_TAIL (R129). -/
def regDLY_REC_TAIL : Nat := 0x110084
/-- DLY.REC_WRAP (R129). -/
def regDLY_REC_WRAP : Nat := 0x110088
/-- RIDGE.CTRL (R136). -/
def regRIDGE_CTRL : Nat := 0x120000
/-- RIDGE.STATUS (R136). -/
def regRIDGE_STATUS : Nat := 0x120004
/-- RIDGE.ERR (R136). -/
def regRIDGE_ERR : Nat := 0x120008
/-- RIDGE.ERR_ADDR (R136). -/
def regRIDGE_ERR_ADDR : Nat := 0x12000C
/-- RIDGE.ERR_CNT (R136). -/
def regRIDGE_ERR_CNT : Nat := 0x120010
/-- SNAP.CTRL (R378). -/
def regSNAP_CTRL : Nat := 0x130000
/-- SNAP.STATUS (R378). -/
def regSNAP_STATUS : Nat := 0x130004
/-- SNAP.DROP_CNT (R378). -/
def regSNAP_DROP_CNT : Nat := 0x130008
/-- SNAP.D, indexed (R378). -/
def regSNAP_D (i : Nat) : Nat := 0x130100 + 4 * i
/-- HVIO.TLCFG (R317). -/
def regHVIO_TLCFG : Nat := 0x140000
/-- HVIO.TLSTAT (R317). -/
def regHVIO_TLSTAT : Nat := 0x140004
/-- HVIO.TOCTRL (R317). -/
def regHVIO_TOCTRL : Nat := 0x140008
/-- HVIO.TOSTAT (R317). -/
def regHVIO_TOSTAT : Nat := 0x14000C
/-- BOOT.STATUS (R343). -/
def regBOOT_STATUS : Nat := 0x150000
/-- BOOT.IMAGE (R343). -/
def regBOOT_IMAGE : Nat := 0x150004
/-- BOOT.REJECT (R343). -/
def regBOOT_REJECT : Nat := 0x150008
/-- BOOT.DRAMWIN (R343). -/
def regBOOT_DRAMWIN : Nat := 0x15000C
/-- BOOT.FLADDR (R343). -/
def regBOOT_FLADDR : Nat := 0x150010
/-- BOOT.FLCMD (R343). -/
def regBOOT_FLCMD : Nat := 0x150014
/-- BOOT.LOG (R343). -/
def regBOOT_LOG : Nat := 0x150018
/-- BOOT.OTPCTRL (R343). -/
def regBOOT_OTPCTRL : Nat := 0x15001C
/-- BOOT.KEYHASH, indexed (R343). -/
def regBOOT_KEYHASH (i : Nat) : Nat := 0x150020 + 4 * i
/-- BOOT.HOSTDROP (R343). -/
def regBOOT_HOSTDROP : Nat := 0x150040
/-- C.CTRL, indexed (R77). -/
def regC_CTRL (i : Nat) : Nat := 0x200000 + 65536 * i
/-- C.STATUS, indexed (R77). -/
def regC_STATUS (i : Nat) : Nat := 0x200004 + 65536 * i
/-- C.FG_ENTRY, indexed (R77). -/
def regC_FG_ENTRY (i : Nat) : Nat := 0x200008 + 65536 * i
/-- C.DMEM_SPLIT, indexed (R77). -/
def regC_DMEM_SPLIT (i : Nat) : Nat := 0x20000C + 65536 * i
/-- C.AMODE_FG, indexed (R77). -/
def regC_AMODE_FG (i : Nat) : Nat := 0x200010 + 65536 * i
/-- C.AMODE_BG, indexed (R77). -/
def regC_AMODE_BG (i : Nat) : Nat := 0x200014 + 65536 * i
/-- C.CYCLES, indexed (R77). -/
def regC_CYCLES (i : Nat) : Nat := 0x200018 + 65536 * i
/-- C.FG_MAX, indexed (R77). -/
def regC_FG_MAX (i : Nat) : Nat := 0x20001C + 65536 * i
/-- C.STALL_LAST, indexed (R77). -/
def regC_STALL_LAST (i : Nat) : Nat := 0x200020 + 65536 * i
/-- C.OVERRUN_CNT, indexed (R77). -/
def regC_OVERRUN_CNT (i : Nat) : Nat := 0x200024 + 65536 * i
/-- C.BACKLOG_CNT, indexed (R77). -/
def regC_BACKLOG_CNT (i : Nat) : Nat := 0x200028 + 65536 * i
/-- C.BACKLOG_MAX, indexed (R77). -/
def regC_BACKLOG_MAX (i : Nat) : Nat := 0x20002C + 65536 * i
/-- C.PC, indexed (R77). -/
def regC_PC (i : Nat) : Nat := 0x200030 + 65536 * i
/-- C.TASK, indexed (R77). -/
def regC_TASK (i : Nat) : Nat := 0x200034 + 65536 * i
/-- C.PROVEN, indexed (R77). -/
def regC_PROVEN (i : Nat) : Nat := 0x200038 + 65536 * i

/-- The registers of block GLOBAL. -/
def regsGLOBAL : List RegInfo := [
  ⟨0x0, 1, 4, 1, 4, 0xB01A0910, 0x0, 0xFFFFFFF0, 0x0, 0x0, 0x0, 0x0, 0x0⟩,
  ⟨0x4, 1, 4, 1, 4, 0x10100, 0x0, 0xFFFF00, 0x0, 0x0, 0x0, 0x0, 0x0⟩,
  ⟨0x10, 1, 4, 1, 4, 0x0, 0x0, 0x0, 0xFFFF0001, 0x0, 0x0, 0x0, 0x0⟩,
  ⟨0x14, 1, 4, 1, 4, 0x1, 0x0, 0xF, 0x0, 0x0, 0x0, 0x0, 0x0⟩,
  ⟨0x20, 1, 4, 1, 4, 0x0, 0x0, 0xFFFFFFFF, 0x0, 0x0, 0x0, 0x0, 0x0⟩,
  ⟨0x24, 1, 4, 1, 4, 0x0, 0x0, 0xFFFFFFFF, 0x0, 0x0, 0x0, 0x0, 0x0⟩,
  ⟨0x28, 1, 4, 1, 4, 0x25800000, 0x0, 0xFFFF0001, 0x0, 0x0, 0x0, 0x0, 0x0⟩,
  ⟨0x2C, 1, 4, 1, 4, 0x0, 0x0, 0xFF, 0x0, 0xFFFF00, 0x0, 0x0, 0x0⟩,
  ⟨0x40, 1, 4, 1, 4, 0x0, 0x10003, 0x30, 0x0, 0x100, 0x0, 0x0, 0x0⟩]

/-- The registers of block CLK. -/
def regsCLK : List RegInfo := [
  ⟨0x10000, 1, 4, 1, 4, 0x0, 0x0, 0xFFE00000, 0x0, 0x0, 0x0, 0x0, 0x0⟩,
  ⟨0x10004, 1, 4, 1, 4, 0x0, 0x0, 0x0, 0x0, 0x3F, 0x0, 0x0, 0x0⟩,
  ⟨0x10008, 1, 4, 1, 4, 0x402, 0xF07, 0x0, 0x0, 0x0, 0x0, 0x0, 0xF07⟩,
  ⟨0x1000C, 1, 4, 1, 4, 0x1F000A, 0x803F001F, 0x0, 0x0, 0x0, 0x0, 0x0, 0x803F001F⟩,
  ⟨0x10010, 1, 4, 1, 4, 0x7FFF, 0x7FFF, 0x0, 0x0, 0x0, 0x0, 0x0, 0x7FFF⟩,
  ⟨0x10014, 1, 4, 1, 4, 0x4001, 0x7FFF, 0x0, 0x0, 0x0, 0x0, 0x0, 0x7FFF⟩,
  ⟨0x10018, 1, 4, 1, 4, 0x0, 0x7, 0x0, 0x0, 0x0, 0x0, 0x0, 0x7⟩]

/-- The registers of block PWR. -/
def regsPWR : List RegInfo := [
  ⟨0x20000, 1, 4, 1, 4, 0x0, 0x0, 0x880003FF, 0x0, 0x70000000, 0x0, 0x0, 0x0⟩,
  ⟨0x20004, 1, 4, 1, 4, 0x400, 0xFFF, 0xFFF0000, 0x0, 0x0, 0x0, 0x0, 0xFFF⟩,
  ⟨0x20008, 1, 4, 1, 4, 0x0, 0xFFFFFFFF, 0x0, 0x0, 0x0, 0x0, 0x0, 0x0⟩]

/-- The registers of block FAULT. -/
def regsFAULT : List RegInfo := [
  ⟨0x30000, 1, 4, 1, 4, 0x0, 0x0, 0x7CFFFFFF, 0x0, 0x80000000, 0x0, 0x0, 0x0⟩,
  ⟨0x30004, 3, 4, 1, 4, 0x0, 0x0, 0xFFFFFFFF, 0x0, 0x0, 0x0, 0x0, 0x0⟩,
  ⟨0x30010, 1, 4, 1, 4, 0x0, 0x0, 0xFFFFFFFF, 0x0, 0x0, 0x0, 0x0, 0x0⟩,
  ⟨0x30014, 1, 4, 1, 4, 0x0, 0x0, 0x1F0000FF, 0x0, 0x0, 0x0, 0x0, 0x0⟩,
  ⟨0x30018, 1, 4, 1, 4, 0x0, 0x0, 0x0, 0x0, 0x0, 0xFFFFFFFF, 0x0, 0x0⟩,
  ⟨0x3001C, 1, 4, 1, 4, 0x0, 0x0, 0x0, 0x0, 0x0, 0xFFFFFFFF, 0x0, 0x0⟩,
  ⟨0x30020, 1, 4, 1, 4, 0x0, 0x801F00FF, 0x0, 0x0, 0x0, 0x0, 0x0, 0x0⟩,
  ⟨0x30024, 1, 4, 1, 4, 0x0, 0xFFFFFFFF, 0x0, 0x0, 0x0, 0x0, 0x0, 0x0⟩,
  ⟨0x30028, 1, 4, 1, 4, 0x0, 0x0, 0x0, 0xC000FF0F, 0x0, 0x0, 0x0, 0x0⟩,
  ⟨0x3002C, 1, 4, 1, 4, 0x0, 0x0, 0xF00000FF, 0x0, 0x0, 0x0, 0x0, 0x0⟩,
  ⟨0x30030, 1, 4, 1, 4, 0x7, 0x7, 0x0, 0x0, 0x0, 0x0, 0x0, 0x7⟩,
  ⟨0x30034, 1, 4, 1, 4, 0x0, 0x0, 0x0, 0x0, 0x0, 0xFFFFFFFF, 0x0, 0x0⟩,
  ⟨0x30040, 8, 4, 1, 4, 0x0, 0x0, 0x0, 0x0, 0xFFFFFFFF, 0x0, 0x0, 0x0⟩,
  ⟨0x30060, 8, 4, 1, 4, 0x0, 0x0, 0xFFFFFFFF, 0x0, 0x0, 0x0, 0x0, 0x0⟩,
  ⟨0x30100, 256, 4, 1, 4, 0x0, 0x107, 0xC0000000, 0x0, 0x0, 0x0, 0x0, 0x107⟩]

/-- The registers of block EVT. -/
def regsEVT : List RegInfo := [
  ⟨0x40000, 1, 4, 1, 4, 0x1, 0x703FF01, 0x0, 0x0, 0x0, 0x0, 0x0, 0x703FF01⟩,
  ⟨0x40004, 1, 4, 1, 4, 0x0, 0x0, 0x7FF, 0x0, 0xFC000000, 0x0, 0x0, 0x0⟩,
  ⟨0x40008, 1, 4, 1, 4, 0x60, 0xFFFF, 0x0, 0x0, 0x0, 0x0, 0x0, 0xFFFF⟩,
  ⟨0x4000C, 1, 4, 1, 4, 0x0, 0x0, 0x0, 0x0, 0x0, 0xFFFFFFFF, 0x0, 0x0⟩,
  ⟨0x40010, 1, 4, 1, 4, 0x0, 0x0, 0x0, 0x0, 0x0, 0xFFFFFFFF, 0x0, 0x0⟩,
  ⟨0x40014, 1, 4, 1, 4, 0x0, 0x0, 0x0, 0x0, 0x0, 0xFFFFFFFF, 0x0, 0x0⟩,
  ⟨0x40018, 1, 4, 1, 4, 0x0, 0x0, 0x0, 0x0, 0x0, 0xFFFFFFFF, 0x0, 0x0⟩,
  ⟨0x4001C, 1, 4, 1, 4, 0x0, 0x0, 0x0, 0x0, 0x0, 0xFFFFFFFF, 0x0, 0x0⟩,
  ⟨0x40020, 8, 4, 1, 4, 0x0, 0x0, 0x7FF, 0x0, 0x0, 0x0, 0x0, 0x0⟩,
  ⟨0x40040, 1, 4, 1, 4, 0x0, 0x0, 0xFFFFFFFF, 0x0, 0x0, 0x0, 0x0, 0x0⟩,
  ⟨0x40044, 1, 4, 1, 4, 0x0, 0x0, 0xFFFFFFFF, 0x0, 0x0, 0x0, 0x0, 0x0⟩,
  ⟨0x40048, 1, 4, 1, 4, 0x0, 0x0, 0x0, 0xFF, 0x0, 0x0, 0x0, 0x0⟩,
  ⟨0x4004C, 1, 4, 1, 4, 0x0, 0x0, 0xF, 0x0, 0x0, 0x0, 0x0, 0x0⟩,
  ⟨0x40080, 4, 4, 1, 4, 0x0, 0x0, 0x0, 0x0, 0xFFFFFFFF, 0x0, 0x0, 0x0⟩,
  ⟨0x40100, 128, 4, 1, 4, 0x0, 0xF8FFFF0F, 0x0, 0x0, 0x0, 0x0, 0x0, 0xF8FFFF0F⟩,
  ⟨0x40300, 128, 4, 1, 4, 0x0, 0x0, 0xFFFFFFFF, 0x0, 0x0, 0x0, 0x0, 0x0⟩,
  ⟨0x40500, 32, 4, 1, 4, 0x0, 0x0, 0x0, 0xFFFFFFFF, 0x0, 0x0, 0x0, 0x0⟩]

/-- The registers of block PEG. -/
def regsPEG : List RegInfo := [
  ⟨0x50000, 1, 4, 1, 4, 0x0, 0x0, 0x0, 0xF0FFFFFF, 0x0, 0x0, 0x0, 0x0⟩,
  ⟨0x50004, 1, 4, 1, 4, 0x0, 0x0, 0x0, 0xFFFFFFFF, 0x0, 0x0, 0x0, 0x0⟩,
  ⟨0x50008, 1, 4, 1, 4, 0x800, 0x0, 0xFFF, 0x0, 0x0, 0x0, 0x0, 0x0⟩,
  ⟨0x5000C, 1, 4, 1, 4, 0x0, 0x0, 0x3, 0x0, 0xFFC00000, 0x0, 0x0, 0x0⟩,
  ⟨0x50010, 1, 4, 1, 4, 0x0, 0x0, 0xFFFFFFFF, 0x0, 0x0, 0x0, 0x0, 0x0⟩,
  ⟨0x50014, 1, 4, 1, 4, 0x0, 0x0, 0x1F, 0x0, 0x0, 0x0, 0x0, 0x0⟩,
  ⟨0x50018, 1, 4, 1, 4, 0x0, 0x0, 0x0, 0xFF, 0x0, 0x0, 0x0, 0x0⟩,
  ⟨0x5001C, 1, 4, 1, 4, 0xFFFF, 0x0, 0xFFFF, 0x0, 0x0, 0x0, 0x0, 0x0⟩,
  ⟨0x50020, 1, 4, 1, 4, 0x0, 0x0, 0x0, 0x0, 0x0, 0xFFFFFFFF, 0x0, 0x0⟩,
  ⟨0x50024, 1, 4, 1, 4, 0x0, 0x0, 0xFFFF, 0x0, 0x0, 0x0, 0x0, 0x0⟩,
  ⟨0x50040, 8, 4, 1, 4, 0x0, 0x0, 0x1F1F, 0x0, 0x0, 0x0, 0x0, 0x1F1F⟩,
  ⟨0x50100, 32, 4, 1, 4, 0x100, 0x0, 0x0, 0x0, 0x0, 0x0, 0x1FFF, 0x1FFF⟩,
  ⟨0x51000, 64, 32, 8, 4, 0x0, 0x0, 0xFFFFFFFF, 0x0, 0x0, 0x0, 0x0, 0x0⟩]

/-- The registers of block MIX. -/
def regsMIX : List RegInfo := [
  ⟨0x60000, 1, 4, 1, 4, 0x0, 0x0, 0x10003FFF, 0x0, 0xE0000000, 0x0, 0x0, 0x0⟩,
  ⟨0x60004, 1, 4, 1, 4, 0x0, 0x0, 0xFFF9FFFF, 0x0, 0x0, 0x0, 0x0, 0x0⟩,
  ⟨0x60008, 1, 4, 1, 4, 0x0, 0x0, 0x0, 0x0, 0x0, 0xFFFFFFFF, 0x0, 0x0⟩,
  ⟨0x6000C, 1, 4, 1, 4, 0x0, 0x0, 0x0, 0x0, 0x0, 0xFFFFFFFF, 0x0, 0x0⟩,
  ⟨0x60010, 1, 4, 1, 4, 0x0, 0x0, 0x0, 0x0, 0x0, 0xFFFFFFFF, 0x0, 0x0⟩,
  ⟨0x60014, 1, 4, 1, 4, 0x0, 0x0, 0x3FF, 0x0, 0x80000000, 0x0, 0x0, 0x0⟩,
  ⟨0x60018, 1, 4, 1, 4, 0x0, 0x0, 0xFFF, 0x0, 0x0, 0x0, 0x0, 0x0⟩]

/-- The registers of block EQ. -/
def regsEQ : List RegInfo := [
  ⟨0x70000, 1, 4, 1, 4, 0x0, 0x0, 0x10000FFF, 0x0, 0xE0000000, 0x0, 0x0, 0x0⟩,
  ⟨0x70004, 1, 4, 1, 4, 0x0, 0x0, 0x0, 0x0, 0x0, 0xFFFFFFFF, 0x0, 0x0⟩,
  ⟨0x70008, 1, 4, 1, 4, 0x0, 0x0, 0x0, 0x0, 0x0, 0xFFFFFFFF, 0x0, 0x0⟩,
  ⟨0x7000C, 1, 4, 1, 4, 0x0, 0x0, 0x3FFF, 0x0, 0x80000000, 0x0, 0x0, 0x0⟩,
  ⟨0x70010, 1, 4, 1, 4, 0x0, 0x0, 0xFFF7FFF, 0x0, 0x0, 0x0, 0x0, 0xFFF7FFF⟩,
  ⟨0x70040, 8, 4, 1, 4, 0x0, 0x0, 0x1F7FFFFF, 0x0, 0x0, 0x0, 0x0, 0x1F7FFFFF⟩]

/-- The registers of block MTR. -/
def regsMTR : List RegInfo := [
  ⟨0x80000, 1, 4, 1, 4, 0x0, 0x0, 0x1F, 0x0, 0x0, 0x0, 0x0, 0x1F⟩,
  ⟨0x80004, 1, 4, 1, 4, 0x0, 0x0, 0x1FFF, 0x0, 0xC0000000, 0x0, 0x0, 0x0⟩]

/-- The registers of block ASRC. -/
def regsASRC : List RegInfo := [
  ⟨0x90000, 1, 4, 1, 4, 0x0, 0x0, 0x3FF, 0x0, 0xE0000000, 0x0, 0x0, 0x0⟩,
  ⟨0x90004, 1, 4, 1, 4, 0x0, 0x0, 0x0, 0x0, 0x0, 0xFFFFFFFF, 0x0, 0x0⟩,
  ⟨0x90400, 512, 4, 1, 4, 0x0, 0x0, 0xFFFFFFFF, 0x0, 0x0, 0x0, 0x0, 0x0⟩]

/-- The registers of block TDM. -/
def regsTDM : List RegInfo := [
  ⟨0xA0000, 16, 64, 1, 4, 0x0, 0xFFFF8000, 0x1F00, 0x0, 0x0, 0x0, 0x0, 0xFFFF9F00⟩,
  ⟨0xA0004, 16, 64, 1, 4, 0x0, 0x7FF, 0x0, 0x0, 0x0, 0x0, 0x0, 0x7FF⟩,
  ⟨0xA0008, 16, 64, 1, 4, 0x0, 0x0, 0x0, 0x0, 0x0, 0x0, 0xFFFFFFFF, 0xFFFFFFFF⟩,
  ⟨0xA000C, 16, 64, 1, 4, 0x0, 0x0, 0x0, 0x0, 0x0, 0x0, 0xFFFFFFFF, 0xFFFFFFFF⟩,
  ⟨0xA0010, 16, 64, 1, 4, 0x0, 0x0, 0xE13F3F00, 0x0, 0x1E000000, 0x0, 0x0, 0x0⟩,
  ⟨0xA0014, 16, 64, 1, 4, 0x0, 0x0, 0x0, 0x0, 0x0, 0xFFFFFFFF, 0x0, 0x0⟩,
  ⟨0xA0018, 16, 64, 1, 4, 0x0, 0x0, 0x0, 0x0, 0x0, 0xFFFF, 0x0, 0x0⟩,
  ⟨0xA001C, 16, 64, 1, 4, 0x0, 0x0, 0xFFE3FFFF, 0x0, 0x0, 0x0, 0x0, 0x0⟩]

/-- The registers of block AES. -/
def regsAES : List RegInfo := [
  ⟨0xB0000, 4, 256, 1, 4, 0x70000000, 0xF0000000, 0x0, 0x0, 0x0, 0x0, 0x0, 0xF0000000⟩,
  ⟨0xB0004, 4, 256, 1, 4, 0x0, 0x0, 0xFC03FFFF, 0x0, 0x3000000, 0x0, 0x0, 0x0⟩,
  ⟨0xB0008, 4, 256, 1, 4, 0x0, 0x0, 0x0, 0x0, 0x0, 0xFFFFFFFF, 0x0, 0x0⟩,
  ⟨0xB000C, 4, 256, 1, 4, 0x0, 0x0, 0x0, 0x0, 0x0, 0xFFFFFFFF, 0x0, 0x0⟩,
  ⟨0xB0020, 4, 256, 12, 4, 0x0, 0x0, 0xFFFFFFFF, 0x0, 0x0, 0x0, 0x0, 0x0⟩,
  ⟨0xB0800, 4, 256, 1, 4, 0x0, 0xFC000000, 0x1F00, 0x0, 0x0, 0x0, 0x0, 0xFC001F00⟩,
  ⟨0xB0804, 4, 256, 1, 4, 0x0, 0x0, 0x0, 0x0, 0x0, 0x0, 0xFFFFFFFF, 0xFFFFFFFF⟩,
  ⟨0xB0820, 4, 256, 6, 4, 0x0, 0xFFFFFFFF, 0x0, 0x0, 0x0, 0x0, 0x0, 0xFFFFFFFF⟩]

/-- The registers of block NET. -/
def regsNET : List RegInfo := [
  ⟨0xC0000, 2, 32, 1, 4, 0x0, 0x7, 0x0, 0x0, 0x0, 0x0, 0x0, 0x7⟩,
  ⟨0xC0004, 2, 32, 1, 4, 0x0, 0x0, 0x80000000, 0x0, 0x60000000, 0x0, 0x0, 0x0⟩,
  ⟨0xC0008, 2, 32, 1, 4, 0x0, 0xFFFFFFFF, 0x0, 0x0, 0x0, 0x0, 0x0, 0xFFFFFFFF⟩,
  ⟨0xC000C, 2, 32, 1, 4, 0x0, 0xFFFF, 0x0, 0x0, 0x0, 0x0, 0x0, 0xFFFF⟩,
  ⟨0xC0010, 2, 32, 1, 4, 0x0, 0xFFFFFFFF, 0x0, 0x0, 0x0, 0x0, 0x0, 0xFFFFFFFF⟩,
  ⟨0xC0040, 1, 4, 1, 4, 0x2000, 0xFF00, 0x1F, 0x0, 0x0, 0x0, 0x0, 0xFF1F⟩,
  ⟨0xC0044, 1, 4, 1, 4, 0x0, 0x0, 0x3F, 0x0, 0xF8000000, 0x0, 0x0, 0x0⟩,
  ⟨0xC0048, 1, 4, 1, 4, 0x0, 0x0, 0xFFFFFFFF, 0x0, 0x0, 0x0, 0x0, 0x0⟩,
  ⟨0xC004C, 1, 4, 1, 4, 0x0, 0x0, 0xFFFFFFFF, 0x0, 0x0, 0x0, 0x0, 0x0⟩,
  ⟨0xC0050, 1, 4, 1, 4, 0x0, 0x0, 0x0, 0x0, 0x0, 0xFFFFFFFF, 0x0, 0x0⟩,
  ⟨0xC0054, 1, 4, 1, 4, 0x0, 0x0, 0x0, 0x0, 0x0, 0xFFFFFFFF, 0x0, 0x0⟩,
  ⟨0xC0058, 1, 4, 1, 4, 0x0, 0x0, 0x0, 0x0, 0x0, 0xFFFFFFFF, 0x0, 0x0⟩,
  ⟨0xC1000, 64, 16, 1, 4, 0x0, 0xFFFFFFFF, 0x0, 0x0, 0x0, 0x0, 0x0, 0x0⟩,
  ⟨0xC1004, 64, 16, 1, 4, 0x4, 0xFC00000F, 0x0, 0x0, 0x0, 0x0, 0x0, 0x0⟩,
  ⟨0xC1008, 64, 16, 1, 4, 0x0, 0x0, 0xFFF, 0x0, 0x0, 0x0, 0x0, 0x0⟩,
  ⟨0xC100C, 64, 16, 1, 4, 0x0, 0xFFF, 0x0, 0x0, 0x0, 0x0, 0x0, 0x0⟩]

/-- The registers of block TIME. -/
def regsTIME : List RegInfo := [
  ⟨0xD0000, 4, 256, 1, 4, 0x4, 0xFFFF00FF, 0x0, 0x0, 0x0, 0x0, 0x0, 0xFFFF00FF⟩,
  ⟨0xD0004, 4, 256, 1, 4, 0x0, 0x0, 0x0, 0x7, 0x0, 0x0, 0x0, 0x0⟩,
  ⟨0xD0008, 4, 256, 1, 4, 0x10, 0x0, 0xF3, 0x0, 0xF0000000, 0x0, 0x0, 0x0⟩,
  ⟨0xD000C, 4, 256, 1, 4, 0x0, 0xFFFFFFFF, 0x0, 0x0, 0x0, 0x0, 0x0, 0x0⟩,
  ⟨0xD0010, 4, 256, 1, 4, 0x0, 0xFFFFFFFF, 0x0, 0x0, 0x0, 0x0, 0x0, 0x0⟩,
  ⟨0xD0014, 4, 256, 1, 4, 0x0, 0xFFFFFFFF, 0x0, 0x0, 0x0, 0x0, 0x0, 0x0⟩,
  ⟨0xD0018, 4, 256, 1, 4, 0x0, 0x0, 0x3FFFFFFF, 0x0, 0x0, 0x0, 0x0, 0x0⟩,
  ⟨0xD001C, 4, 256, 1, 4, 0x0, 0x0, 0xFFFFFFFF, 0x0, 0x0, 0x0, 0x0, 0x0⟩,
  ⟨0xD0020, 4, 256, 1, 4, 0x0, 0x0, 0xFFFF, 0x0, 0x0, 0x0, 0x0, 0x0⟩,
  ⟨0xD0024, 4, 256, 1, 4, 0x0, 0xFFFFFFFF, 0x0, 0x0, 0x0, 0x0, 0x0, 0xFFFFFFFF⟩,
  ⟨0xD0028, 4, 256, 1, 4, 0x0, 0x0, 0x3FFFFFFF, 0x0, 0x0, 0x0, 0x0, 0x0⟩,
  ⟨0xD002C, 4, 256, 1, 4, 0x0, 0x0, 0xFFFFFFFF, 0x0, 0x0, 0x0, 0x0, 0x0⟩,
  ⟨0xD0030, 4, 256, 1, 4, 0x0, 0x0, 0xFFFF, 0x0, 0x0, 0x0, 0x0, 0x0⟩,
  ⟨0xD0034, 4, 256, 1, 4, 0x0, 0x0, 0xFFFFFFFF, 0x0, 0x0, 0x0, 0x0, 0x0⟩,
  ⟨0xD0038, 4, 256, 1, 4, 0x0, 0x0, 0xFFFFFFFF, 0x0, 0x0, 0x0, 0x0, 0x0⟩,
  ⟨0xD003C, 4, 256, 1, 4, 0x0, 0x0, 0xFFFFFFFF, 0x0, 0x0, 0x0, 0x0, 0x0⟩,
  ⟨0xD0040, 4, 256, 2, 16, 0x0, 0x3FFFFFFF, 0x0, 0x0, 0x0, 0x0, 0x0, 0x0⟩,
  ⟨0xD0044, 4, 256, 2, 16, 0x0, 0xFFFFFFFF, 0x0, 0x0, 0x0, 0x0, 0x0, 0x0⟩,
  ⟨0xD0048, 4, 256, 2, 16, 0x0, 0xFFFF, 0x0, 0x0, 0x0, 0x0, 0x0, 0x0⟩,
  ⟨0xD004C, 4, 256, 2, 16, 0x0, 0x80000000, 0x0, 0x0, 0x40000000, 0x0, 0x0, 0x0⟩,
  ⟨0xD0400, 2, 4, 1, 4, 0x0, 0xFFFFFFFF, 0x0, 0x0, 0x0, 0x0, 0x0, 0xFFFFFFFF⟩,
  ⟨0xD0410, 4, 16, 1, 4, 0x1, 0xF000FFFF, 0x0, 0x0, 0x0, 0x0, 0x0, 0xF000FFFF⟩,
  ⟨0xD0414, 4, 16, 1, 4, 0x0, 0x0, 0x3FFFFFFF, 0x0, 0x0, 0x0, 0x0, 0x0⟩,
  ⟨0xD0418, 4, 16, 1, 4, 0x0, 0x0, 0xFFFFFFFF, 0x0, 0x0, 0x0, 0x0, 0x0⟩,
  ⟨0xD041C, 4, 16, 1, 4, 0x0, 0x0, 0xFFFF, 0x0, 0x0, 0x0, 0x0, 0x0⟩,
  ⟨0xD0450, 1, 4, 1, 4, 0x0, 0x0, 0x0, 0x0, 0xFF, 0x0, 0x0, 0x0⟩]

/-- The registers of block REF. -/
def regsREF : List RegInfo := [
  ⟨0xE0000, 1, 4, 1, 4, 0x0, 0xE0000007, 0x0, 0x0, 0x0, 0x0, 0x0, 0xE0000007⟩,
  ⟨0xE0004, 1, 4, 1, 4, 0x0, 0x0, 0xF7, 0x0, 0x0, 0x0, 0x0, 0x0⟩,
  ⟨0xE0008, 1, 4, 1, 4, 0x0, 0x0, 0x0, 0x0, 0xFF0000FE, 0x0, 0x0, 0x0⟩,
  ⟨0xE000C, 1, 4, 1, 4, 0x0, 0x0, 0xFFFFFFFF, 0x0, 0x0, 0x0, 0x0, 0x0⟩,
  ⟨0xE0010, 1, 4, 1, 4, 0x0, 0xFFFFFFFF, 0x0, 0x0, 0x0, 0x0, 0x0, 0xFFFFFFFF⟩,
  ⟨0xE0014, 1, 4, 1, 4, 0x3C000A, 0x7FF01FF, 0x0, 0x0, 0x0, 0x0, 0x0, 0x7FF01FF⟩,
  ⟨0xE0018, 1, 4, 1, 4, 0x0, 0x0, 0xFFFFFFFF, 0x0, 0x0, 0x0, 0x0, 0x0⟩,
  ⟨0xE001C, 1, 4, 1, 4, 0x0, 0x0, 0x800007FF, 0x0, 0x0, 0x0, 0x0, 0x0⟩,
  ⟨0xE0020, 1, 4, 1, 4, 0xA03E8, 0xFFFFFF, 0x0, 0x0, 0x0, 0x0, 0x0, 0xFFFFFF⟩,
  ⟨0xE0024, 1, 4, 1, 4, 0x1E8480, 0xFFFFFFFF, 0x0, 0x0, 0x0, 0x0, 0x0, 0xFFFFFFFF⟩,
  ⟨0xE0028, 1, 4, 1, 4, 0x0, 0x0, 0xFFFFFFFF, 0x0, 0x0, 0x0, 0x0, 0x0⟩,
  ⟨0xE002C, 1, 4, 1, 4, 0x0, 0x0, 0x0, 0x0, 0x0, 0xFFFFFFFF, 0x0, 0x0⟩,
  ⟨0xE0040, 8, 32, 1, 4, 0x0, 0xFF70FFFF, 0x0, 0x0, 0x0, 0x0, 0x0, 0xFF70FFFF⟩,
  ⟨0xE0044, 8, 32, 1, 4, 0x1, 0xFFF00FF, 0x0, 0x0, 0x0, 0x0, 0x0, 0xFFF00FF⟩,
  ⟨0xE0048, 8, 32, 1, 4, 0x0, 0x0, 0xFFFF0000, 0x0, 0x0, 0xFF, 0x0, 0x0⟩,
  ⟨0xE004C, 8, 32, 1, 4, 0x0, 0x0, 0xFFFFFFFF, 0x0, 0x0, 0x0, 0x0, 0x0⟩,
  ⟨0xE0200, 4, 16, 1, 4, 0x400400, 0xFEC00FFF, 0x0, 0x1000000, 0x0, 0x0, 0x0, 0xFEC00FFF⟩,
  ⟨0xE0204, 4, 16, 1, 4, 0x0, 0xFFFFFFFF, 0x0, 0x0, 0x0, 0x0, 0x0, 0xFFFFFFFF⟩,
  ⟨0xE0208, 4, 16, 1, 4, 0x1, 0xFFFF, 0x0, 0x0, 0x0, 0x0, 0x0, 0xFFFF⟩,
  ⟨0xE020C, 4, 16, 1, 4, 0x0, 0x0, 0xC0000000, 0x0, 0x20000000, 0x0, 0x0, 0x0⟩]

/-- The registers of block PAIR. -/
def regsPAIR : List RegInfo := [
  ⟨0xF0000, 1, 4, 1, 4, 0x100000, 0x80FFFFFF, 0x0, 0x0, 0x0, 0x0, 0x0, 0x80FFFFFF⟩,
  ⟨0xF0004, 1, 4, 1, 4, 0x0, 0x0, 0x0, 0xF, 0x0, 0x0, 0x0, 0x0⟩,
  ⟨0xF0008, 1, 4, 1, 4, 0x0, 0x0, 0xF00F000F, 0x0, 0xFC00000, 0x0, 0x0, 0x0⟩,
  ⟨0xF000C, 1, 4, 1, 4, 0x0, 0x0, 0xFFFFFFFF, 0x0, 0x0, 0x0, 0x0, 0x0⟩,
  ⟨0xF0010, 1, 4, 1, 4, 0x0, 0x0, 0xFFFFFFFF, 0x0, 0x0, 0x0, 0x0, 0x0⟩,
  ⟨0xF0014, 1, 4, 1, 4, 0x0, 0x0, 0xFFFFFFFF, 0x0, 0x0, 0x0, 0x0, 0x0⟩,
  ⟨0xF0018, 1, 4, 1, 4, 0x0, 0x0, 0xFFFFFFFF, 0x0, 0x0, 0x0, 0x0, 0x0⟩,
  ⟨0xF001C, 1, 4, 1, 4, 0x0, 0x0, 0xFFFFFFFF, 0x0, 0x0, 0x0, 0x0, 0x0⟩,
  ⟨0xF0020, 1, 4, 1, 4, 0x0, 0x0, 0xC0000000, 0x0, 0x30000000, 0x0, 0x0, 0x0⟩,
  ⟨0xF0024, 1, 4, 1, 4, 0x0, 0x0, 0xFFFFFFFF, 0x0, 0x0, 0x0, 0x0, 0x0⟩,
  ⟨0xF0028, 1, 4, 1, 4, 0x0, 0x0, 0xFFFFFFFF, 0x0, 0x0, 0x0, 0x0, 0x0⟩,
  ⟨0xF002C, 1, 4, 1, 4, 0x0, 0x0, 0x0, 0x0, 0x0, 0xFFFFFFFF, 0x0, 0x0⟩,
  ⟨0xF0030, 1, 4, 1, 4, 0x1000, 0x0, 0xFFFFFFFF, 0x0, 0x0, 0x0, 0x0, 0x0⟩,
  ⟨0xF0100, 16, 16, 1, 4, 0x0, 0xFFFFFFFF, 0x0, 0x0, 0x0, 0x0, 0x0, 0xFFFFFFFF⟩,
  ⟨0xF0104, 16, 16, 1, 4, 0x0, 0xFFFFFFFF, 0x0, 0x0, 0x0, 0x0, 0x0, 0xFFFFFFFF⟩,
  ⟨0xF0108, 16, 16, 1, 4, 0x0, 0xFFFFFFFF, 0x0, 0x0, 0x0, 0x0, 0x0, 0xFFFFFFFF⟩,
  ⟨0xF010C, 16, 16, 1, 4, 0x0, 0xFFFFFFFF, 0x0, 0x0, 0x0, 0x0, 0x0, 0xFFFFFFFF⟩]

/-- The registers of block SCR. -/
def regsSCR : List RegInfo := [
  ⟨0x100000, 64, 4, 1, 4, 0x9, 0xF, 0x80000000, 0x0, 0x0, 0x0, 0x0, 0xF⟩,
  ⟨0x100100, 1, 4, 1, 4, 0x0, 0x0, 0x0, 0x0, 0xFFFFFFFF, 0x0, 0x0, 0x0⟩,
  ⟨0x100104, 1, 4, 1, 4, 0x0, 0x0, 0x0, 0x0, 0xFFFFFFFF, 0x0, 0x0, 0x0⟩,
  ⟨0x100200, 13, 4, 1, 4, 0x0, 0x0, 0x0, 0x0, 0x0, 0xFFFFFFFF, 0x0, 0x0⟩,
  ⟨0x100300, 1, 4, 1, 4, 0x0, 0x0, 0x3F03F00, 0x0, 0x80000000, 0x0, 0x0, 0x0⟩,
  ⟨0x100304, 1, 4, 1, 4, 0x0, 0x0, 0xFFFFFFFF, 0x0, 0x0, 0x0, 0x0, 0x0⟩,
  ⟨0x100308, 1, 4, 1, 4, 0x0, 0x0, 0x0, 0x0, 0x0, 0xFFFFFFFF, 0x0, 0x0⟩]

/-- The registers of block DLY. -/
def regsDLY : List RegInfo := [
  ⟨0x110000, 5, 4, 1, 4, 0x0, 0x0, 0x3FFF1FFF, 0x0, 0x0, 0x0, 0x0, 0x3FFF1FFF⟩,
  ⟨0x110020, 1, 4, 1, 4, 0x0, 0x0, 0x20001FFF, 0x0, 0xC0000000, 0x0, 0x0, 0x0⟩,
  ⟨0x110024, 1, 4, 1, 4, 0x0, 0x0, 0x0, 0x0, 0x0, 0xFFFFFFFF, 0x0, 0x0⟩,
  ⟨0x110028, 1, 4, 1, 4, 0x0, 0x0, 0x670007FF, 0x0, 0x80000000, 0x0, 0x0, 0x0⟩,
  ⟨0x110040, 8, 4, 1, 4, 0x0, 0xFFF07FF, 0x0, 0x0, 0x0, 0x0, 0x0, 0xFFF07FF⟩,
  ⟨0x110080, 1, 4, 1, 4, 0x0, 0xFFFFFFFF, 0x0, 0x0, 0x0, 0x0, 0x0, 0x0⟩,
  ⟨0x110084, 1, 4, 1, 4, 0x0, 0xFFFFFFFF, 0x0, 0x0, 0x0, 0x0, 0x0, 0x0⟩,
  ⟨0x110088, 1, 4, 1, 4, 0x0, 0xFFFFFFFF, 0x0, 0x0, 0x0, 0x0, 0x0, 0x0⟩]

/-- The registers of block RIDGE. -/
def regsRIDGE : List RegInfo := [
  ⟨0x120000, 1, 4, 1, 4, 0x1, 0x1, 0x0, 0x0, 0x0, 0x0, 0x0, 0x0⟩,
  ⟨0x120004, 1, 4, 1, 4, 0x1, 0x0, 0x3, 0x0, 0x0, 0x0, 0x0, 0x0⟩,
  ⟨0x120008, 1, 4, 1, 4, 0x0, 0x0, 0x7F00001, 0x0, 0x80000000, 0x0, 0x0, 0x0⟩,
  ⟨0x12000C, 1, 4, 1, 4, 0x0, 0x0, 0xFFFFFFFF, 0x0, 0x0, 0x0, 0x0, 0x0⟩,
  ⟨0x120010, 1, 4, 1, 4, 0x0, 0x0, 0x0, 0x0, 0x0, 0xFFFFFFFF, 0x0, 0x0⟩]

/-- The registers of block SNAP. -/
def regsSNAP : List RegInfo := [
  ⟨0x130000, 1, 4, 1, 4, 0x0, 0x3F, 0x0, 0x80000000, 0x0, 0x0, 0x0, 0x0⟩,
  ⟨0x130004, 1, 4, 1, 4, 0x0, 0x0, 0x20000007, 0x0, 0xC0000000, 0x0, 0x0, 0x0⟩,
  ⟨0x130008, 1, 4, 1, 4, 0x0, 0x0, 0x0, 0x0, 0x0, 0xFFFFFFFF, 0x0, 0x0⟩,
  ⟨0x130100, 64, 4, 1, 4, 0x0, 0x0, 0xFFFFFFFF, 0x0, 0x0, 0x0, 0x0, 0x0⟩]

/-- The registers of block HVIO. -/
def regsHVIO : List RegInfo := [
  ⟨0x140000, 1, 4, 1, 4, 0xA00, 0xFFFF, 0x0, 0x0, 0x0, 0x0, 0x0, 0xFFFF⟩,
  ⟨0x140004, 1, 4, 1, 4, 0x0, 0x0, 0xFF, 0x0, 0xFF00, 0x0, 0x0, 0x0⟩,
  ⟨0x140008, 1, 4, 1, 4, 0x0, 0x3, 0x0, 0x0, 0x0, 0x0, 0x0, 0x0⟩,
  ⟨0x14000C, 1, 4, 1, 4, 0x0, 0x0, 0xF, 0x0, 0x30, 0x0, 0x0, 0x0⟩]

/-- The registers of block BOOT. -/
def regsBOOT : List RegInfo := [
  ⟨0x150000, 1, 4, 1, 4, 0x0, 0x0, 0xFF400701, 0x0, 0xA00000, 0x0, 0x0, 0x0⟩,
  ⟨0x150004, 1, 4, 1, 4, 0x0, 0x0, 0xFFFFFFFF, 0x0, 0x0, 0x0, 0x0, 0x0⟩,
  ⟨0x150008, 1, 4, 1, 4, 0x0, 0x0, 0xFFFF, 0x0, 0x0, 0x0, 0x0, 0x0⟩,
  ⟨0x15000C, 1, 4, 1, 4, 0x0, 0x1FF, 0x0, 0x0, 0x0, 0x0, 0x0, 0x0⟩,
  ⟨0x150010, 1, 4, 1, 4, 0x0, 0xFFFFFFF, 0x0, 0x0, 0x0, 0x0, 0x0, 0x0⟩,
  ⟨0x150014, 1, 4, 1, 4, 0x0, 0x0, 0x0, 0x3, 0x0, 0x0, 0x0, 0x0⟩,
  ⟨0x150018, 1, 4, 1, 4, 0x0, 0x0, 0xBFFF3FFF, 0x0, 0x0, 0x0, 0x0, 0x0⟩,
  ⟨0x15001C, 1, 4, 1, 4, 0x0, 0x0, 0x0, 0xFFFF0003, 0x0, 0x0, 0x0, 0x0⟩,
  ⟨0x150020, 8, 4, 1, 4, 0x0, 0x0, 0xFFFFFFFF, 0x0, 0x0, 0x0, 0x0, 0x0⟩,
  ⟨0x150040, 1, 4, 1, 4, 0x0, 0xFFFFFFFF, 0x0, 0x0, 0x0, 0x0, 0x0, 0x0⟩]

/-- The registers of block C. -/
def regsC : List RegInfo := [
  ⟨0x200000, 8, 65536, 1, 4, 0x2, 0x3, 0x0, 0x80000000, 0x0, 0x0, 0x0, 0x0⟩,
  ⟨0x200004, 8, 65536, 1, 4, 0x0, 0x0, 0x607, 0x0, 0x1F0000, 0x0, 0x0, 0x0⟩,
  ⟨0x200008, 8, 65536, 1, 4, 0x0, 0x3FFF, 0x0, 0x0, 0x0, 0x0, 0x0, 0x3FFF⟩,
  ⟨0x20000C, 8, 65536, 1, 4, 0x40, 0x7F, 0x0, 0x0, 0x0, 0x0, 0x0, 0x7F⟩,
  ⟨0x200010, 8, 65536, 1, 4, 0x0, 0xFFFFFFFF, 0x0, 0x0, 0x0, 0x0, 0x0, 0xFFFFFFFF⟩,
  ⟨0x200014, 8, 65536, 1, 4, 0x0, 0x0, 0xFFFFFFFF, 0x0, 0x0, 0x0, 0x0, 0x0⟩,
  ⟨0x200018, 8, 65536, 1, 4, 0x0, 0x0, 0xFFFFFFFF, 0x0, 0x0, 0x0, 0x0, 0x0⟩,
  ⟨0x20001C, 8, 65536, 1, 4, 0x0, 0x0, 0x0, 0x0, 0x0, 0xFFFF, 0x0, 0x0⟩,
  ⟨0x200020, 8, 65536, 1, 4, 0x0, 0x0, 0xFFFFFFFF, 0x0, 0x0, 0x0, 0x0, 0x0⟩,
  ⟨0x200024, 8, 65536, 1, 4, 0x0, 0x0, 0x0, 0x0, 0x0, 0xFFFFFFFF, 0x0, 0x0⟩,
  ⟨0x200028, 8, 65536, 1, 4, 0x0, 0x0, 0x0, 0x0, 0x0, 0xFFFFFFFF, 0x0, 0x0⟩,
  ⟨0x20002C, 8, 65536, 1, 4, 0x0, 0x0, 0x0, 0x0, 0x0, 0xFFFF, 0x0, 0x0⟩,
  ⟨0x200030, 8, 65536, 1, 4, 0x0, 0x0, 0x3FFF3FFF, 0x0, 0x0, 0x0, 0x0, 0x0⟩,
  ⟨0x200034, 8, 65536, 1, 4, 0x0, 0x0, 0x8000FFFF, 0x0, 0x0, 0x0, 0x0, 0x0⟩,
  ⟨0x200038, 8, 65536, 1, 4, 0x0, 0x0, 0xFFFF, 0x0, 0x0, 0x0, 0x0, 0xFFFF⟩]

/-- The registers of a block, by its window number (R18). -/
def blockRegs : Nat → List RegInfo
  | 0 => regsGLOBAL
  | 1 => regsCLK
  | 2 => regsPWR
  | 3 => regsFAULT
  | 4 => regsEVT
  | 5 => regsPEG
  | 6 => regsMIX
  | 7 => regsEQ
  | 8 => regsMTR
  | 9 => regsASRC
  | 10 => regsTDM
  | 11 => regsAES
  | 12 => regsNET
  | 13 => regsTIME
  | 14 => regsREF
  | 15 => regsPAIR
  | 16 => regsSCR
  | 17 => regsDLY
  | 18 => regsRIDGE
  | 19 => regsSNAP
  | 20 => regsHVIO
  | 21 => regsBOOT
  | w => if 32 ≤ w ∧ w ≤ 39 then regsC else []

/-- The register covers the byte address `a`. -/
def RegInfo.covers (r : RegInfo) (a : Nat) : Bool :=
  (List.range r.n2).any fun j =>
    let b := r.base + r.s2 * j
    decide (b ≤ a) && decide ((a - b) % r.s1 = 0) && decide ((a - b) / r.s1 < r.n1)

/-- The register at byte address `a`, if one is listed there (R13, R18). -/
def regInfo (a : Nat) : Option RegInfo := (blockRegs (a / 0x10000)).find? (·.covers a)

/-- The fault sources of R362 and R369 (a number not listed is reserved). -/
def faultListed (n : Nat) : Bool :=
  decide (n ≤ 6) || (decide (8 ≤ n) && decide (n ≤ 53)) || (decide (56 ≤ n) && decide (n ≤ 76)) ||
  decide (n = 80) || (decide (96 ≤ n) && decide (n ≤ 117)) || (decide (128 ≤ n) && decide (n ≤ 144))

/-- The class of a fault source: NOTE 0, WARN 1, DEGRADE 2, FAIL 3 (R362, R369). -/
def faultClass (n : Nat) : Nat :=
  if n ≤ 4 then (if n = 2 then 1 else 0)
  else if n = 5 then 1
  else if n = 6 then 3
  else if n < 24 then 1
  else if n < 32 then 2
  else if n < 46 then 3
  else if n = 46 then 1
  else if n = 47 then 2
  else if n < 53 then 1
  else if n = 53 then 3
  else if n < 80 then 1
  else if n = 80 then 0
  else if n < 112 then 3
  else if n = 112 then 1
  else if n = 113 then 2
  else if n < 116 then 3
  else if n < 118 then 1
  else if n < 136 then 2
  else 3

/-- A source whose mute scope is a Course: the sources on which CRESET is permitted, with that Course (R362, R363, R369). -/
def faultCourse (n : Nat) : Option Nat :=
  if 8 ≤ n ∧ n < 40 then some (n % 8)
  else if 96 ≤ n ∧ n < 112 then some (n % 8)
  else if 128 ≤ n ∧ n < 144 then some (n % 8)
  else none

/-- A source whose mute scope is the whole module (R362, R369). -/
def faultScopeAll (n : Nat) : Bool :=
  (decide (40 ≤ n) && decide (n ≤ 45)) || n == 47 || n == 53 || n == 114 || n == 115 || n == 144

/-- A source with a mute scope, on which MUTE is permitted (R363). -/
def faultHasScope (n : Nat) : Bool :=
  (faultCourse n).isSome || faultScopeAll n || (decide (56 ≤ n) && decide (n < 76)) || n == 76

/-- The reaction bits MUTE (0), CRESET (1) and RELEASE (2) that source `n` may have; the others are reserved (R363). -/
def faultPermitted (n : Nat) : Nat :=
  (if faultHasScope n then 1 else 0) + (if (faultCourse n).isSome then 2 else 0) + (if faultClass n = 3 then 4 else 0)

/-- The default reaction bits of source `n` (R362, R369). -/
def faultDefault (n : Nat) : Nat :=
  if 32 ≤ n ∧ n < 40 then 2
  else if 40 ≤ n ∧ n ≤ 45 then 5
  else if n = 53 then 5
  else if n = 76 then 1
  else if 96 ≤ n ∧ n < 112 then 2
  else if n = 114 ∨ n = 115 then 5
  else if 136 ≤ n ∧ n < 144 then 2
  else 0

/-- The reaction bits that are fixed: they read 1 and ignore writes (R362). -/
def faultFixed (n : Nat) : Nat := if 41 ≤ n ∧ n ≤ 45 then 1 else if n = 53 then 5 else 0

/-- REC at reset: 0 for sources 0, 1, 3, 4 and 80, 1 otherwise (R377). -/
def faultRecReset (n : Nat) : Nat := if n = 0 ∨ n = 1 ∨ n = 3 ∨ n = 4 ∨ n = 80 then 0 else 1

/-- The reset value of FAULT.CFGn (R362, R369, R377); zero for a reserved source but for REC, which R377 gives. -/
def faultCfgReset (n : Nat) : Word :=
  BitVec.ofNat 32 (if faultListed n then faultClass n * 2 ^ 30 + faultRecReset n * 256 + faultDefault n else faultRecReset n * 256)

/-- The reset value of the register at byte address `a`: the table's, but for GLOBAL.ID (R4), NET.DEVID_LO and NET.DEVID_HI (R271) and FAULT.CFGn (R362). -/
def regReset (a : Nat) : Word :=
  if a = regGLOBAL_ID then (if Config.stationGrade then 0xB01A0920#32 else 0xB01A0910#32)
  else if a = regNET_DEVID_LO then lo32 Config.deviceId
  else if a = regNET_DEVID_HI then hi32 Config.deviceId
  else if 0x30100 ≤ a ∧ a < 0x30500 ∧ a % 4 = 0 then faultCfgReset ((a - 0x30100) / 4)
  else match regInfo a with
    | some r => BitVec.ofNat 32 r.reset
    | none => 0

end Sys2Proof.Machine
end

