-- ==== Sys2Proof/Machine/State.lean ====
section
/-! DEFINITION. The state of the BV9-2048 as plain data: the registers of R18, the tables and memories, the eight Courses, the scheduler, and what every block holds between two commands; the queue of waiting commands; faults and refusals; the state after reset. -/

namespace Sys2Proof.Machine

/-- Why the machine would stop with a fault. No command of the table stops: every outcome the spec gives is a next state. -/
inductive Fault where
  /-- No command raises it: the spec names no stop of the part. Safe. -/
  | none
deriving DecidableEq, Repr

/-- Why a command would have no meaning. -/
inductive Refusal where
  /-- A command whose meaning is not written yet, by its mnemonic. Safe. -/
  | notModelled (mnemonic : String)
deriving DecidableEq, Repr

/-- A crossfade of R125 and R126 over members of type `M`: the first member, and the members that follow it, each with the start frame and the length of its crossfade, oldest first. The weight with which a later crossfade freezes an earlier one follows from the start frames. -/
structure Fade (M : Type) where
  base : M
  runs : List (M × Nat × Nat)
deriving DecidableEq, Repr

/-! ## The Courses -/

/-- A register of a Course context other than an accumulator (R43). D names physical registers. -/
inductive CReg where
  | d (k : Fin 32)
  | p (i : Fin 16)
  | n (i : Fin 16)
  | l (i : Fin 16)
  | k (i : Fin 16)
  | lc (i : Fin 4)
  | rot
  | mode
  | flags
deriving DecidableEq, Repr

/-- A write of a result: masked bits of a register, an accumulator as accumulating operations see it, or as moves out see it (R66, R88). -/
inductive RWrite where
  | reg (r : CReg) (mask v : Word)
  | acc (a : Fin 8) (v : Acc)
  | accOut (a : Fin 8) (v : Acc)
deriving DecidableEq, Repr

/-- A result in flight: it becomes readable after `left` more bundles (R66). -/
structure Flight where
  left : Nat
  w : RWrite
deriving DecidableEq, Repr

/-- The view through which a Ridge access of a Course goes (R50, R53, R115). -/
inductive RidgeView where
  | plain
  | setAlias
  | clrAlias
  | rotate
  | dram
  | csr
deriving DecidableEq, Repr

/-- A Ridge access of a Course: target port, view and the word (or byte) addresses of its words. -/
structure RidgeReq where
  port : RidgePort
  view : RidgeView
  addrs : List Nat
deriving DecidableEq, Repr

/-- A read of an issued bundle: done, waiting for a mailbox entry, or waiting on the Ridge with the data of its grant (R51, R74, R401). -/
inductive ReadSlot where
  | done (ws : List Word) (lat : Nat) (refused : Bool)
  | mbox (addrs : List Nat)
  | ridge (r : RidgeReq) (got : Option (List Word))
deriving DecidableEq, Repr

/-- An entry of the posted-write buffer (R51). -/
structure Posted where
  x : CtxId
  req : RidgeReq
  data : List Word
  granted : Bool
deriving DecidableEq, Repr

/-- The unit class that a syllable takes a place of (R80); an undefined class takes none. -/
inductive SylUnit where
  | mac
  | agu
  | alu
  | ctl
  | none
deriving DecidableEq, Repr

/-- A syllable of the bundle being issued: the operation, its unit class, whether it is undefined of itself (R107), and whether one of its reserved bits is not zero (R108). -/
structure Syl where
  op : Instr
  unit : SylUnit
  bad : Bool
  rsv : Bool
deriving DecidableEq, Repr

/-- An issued bundle that is stalled (R51, R68, R74): its syllables, whether it ended without a stop bit, whether this is its first issue, the repetitions to issue after this one, and its reads, none while it is to be issued again (R71). -/
structure Stall where
  syls : List Syl
  noStop : Bool
  first : Bool
  reps : Nat
  reads : Option (List ReadSlot)
deriving DecidableEq, Repr

/-- One context of a Course (R43, R44). `slot` is the target of a transfer whose delay slot comes next (R96); `rep` is the count a REP gave to the next bundle (R98); `bundle` holds the syllables of the bundle being issued. -/
structure Ctx where
  d : Vector Word 32
  p : Vector Word 16
  n : Vector Word 16
  l : Vector Word 16
  k : Vector Word 16
  lc : Vector Word 4
  rot : Word
  mode : Word
  flags : Word
  acc : Vector Acc 8
  accOut : Vector Acc 8
  flight : List Flight
  pc : BitVec 14
  slot : Option (BitVec 14)
  rep : Option Nat
  bundle : List Syl
  stall : Option Stall
  ended : Bool
deriving DecidableEq, Repr

/-- The states of R35, halted (R73) and in reset (R72), as Cn.STATUS.STATE codes them (R77). -/
inductive Phase where
  | entry
  | fore
  | back
  | sleep
  | halted
  | reset
deriving DecidableEq, Repr

/-- A task in the background context: its tag (template × 256 + number, R197) and the frame ticks it has held the context (R205). -/
structure Task where
  tag : Nat
  ticks : Nat
deriving DecidableEq, Repr

/-- The state of a DLY.MOVE (R106). -/
inductive MoveState where
  | running
  | complete
  | aborted
deriving DecidableEq, Repr

/-- A block move of DLY.MOVE; `fresh` while the task that started it has not given way to another dispatch (R106). -/
structure Move where
  ticket : Nat
  src : Nat
  dst : Nat
  len : Nat
  event : Bool
  st : MoveState
  fresh : Bool
deriving DecidableEq, Repr

/-- One Course (R42 to R78). `frame` is the frame whose foreground work runs or comes next; `missed` the latest frame whose deadline passed before its work was complete (R31); `feedLevel` the fade-in level of its feeds; `feedCur` the feed slots written by the work in progress and `feedOut` those of frame `feedFrame`; `tapCur` the posted tap samples; `mbox` the mailbox banks (bank × 2048 + entry) with the frame each bank is filled for; `pageOld` the coefficient words (commit frame, address, old value) that a late work still reads (R170); `ioStall` and `mboxStall` the stall cycles of the work in progress; `ioOpen` and `mboxOpen` whether a stall of unstated length is among them; `haltDue` whether a tick has seen HALT (R73); `bgRan` whether background work ran since the last tick; `preemptDue` a tick has been seen while a background bundle or REP that must complete was in progress (R71, R100). -/
structure Course where
  phase : Phase
  frame : Nat
  fg : Ctx
  bg : Ctx
  pmem : List (Nat × Byte)
  lmem : List (Nat × Byte)
  posted : List Posted
  task : Option Task
  resetReq : Bool
  reloaded : Bool
  missed : Option Nat
  feedLevel : Nat
  feedCur : List (Nat × Word)
  feedOut : List (Nat × Word)
  feedFrame : Option Nat
  tapCur : List (Nat × Word)
  mbox : List (Nat × Word)
  mboxFrame : Vector (Option Nat) 2
  pageOld : List (Nat × Nat × Word)
  ioStall : Nat
  mboxStall : Nat
  ioOpen : Bool
  mboxOpen : Bool
  bgRan : Bool
  preemptDue : Bool
  haltDue : Bool
  moves : List Move
  nextTicket : Nat
deriving DecidableEq, Repr

/-! ## The scheduler -/

/-- A token waiting to be offered, with its source (R193, R197). -/
structure Token where
  src : Nat
  tmpl : Nat
  num : Nat
  slot : Nat
  val : Word
deriving DecidableEq, Repr

/-- An entry of the matching store: its key, the operand words present, and its ready order once it is complete (R198, R201). -/
structure StoreEntry where
  key : Nat
  ops : List (Option Word)
  ready : Option Nat
deriving DecidableEq, Repr

/-! ## The delay controller -/

/-- A member of a tap: its delay, whether its last sample was held, and the frame its fade-in began (R122, R126). -/
structure TapMember where
  delay : Nat
  held : Bool
  fadeAt : Option Nat
deriving DecidableEq, Repr

/-- A tap with its crossfade (R123, R126), the frame after the last one of its latest crossfade (R124), and the change that waits for it, with its commit frame (R402). -/
structure Tap where
  fade : Fade TapMember
  quietAt : Nat
  waiting : Option (Nat × Nat)
deriving DecidableEq, Repr

/-- A delay line: the write geometry (ring length and next position), the frame until which the geometry before the last fold is kept, the held samples (newest first, each with its frame, its value and the shortest ring length since it was written), and the samples not yet written to DRAM with their positions (R122, R124). -/
structure Line where
  ring : Nat
  pos : Nat
  oldUntil : Nat
  hist : List (Nat × Word × Nat)
  posted : List (Nat × Nat × Word)
deriving DecidableEq, Repr

/-! ## The mixing fabric -/

/-- A member of a crosspoint or patch point: a feed and polarity with a gain ramp from `g0` to `g1` over `len` frames from frame `start`; `dying` marks a member whose ramp ends in its retirement (R146, R147). -/
structure XMember where
  feed : Nat
  inv : Bool
  g0 : Nat
  g1 : Nat
  start : Nat
  len : Nat
  dying : Bool
deriving DecidableEq, Repr

/-- The members of an entry, oldest first, and the commit frame of the route change that waits (R146, R148, R402). -/
structure XEntry where
  members : List XMember
  waiting : Option Nat
deriving DecidableEq, Repr

/-- A consumer's sources (selector codes) and the commit frame of the selector change that waits (R143, R402). -/
structure Selector where
  fade : Fade Nat
  waiting : Option Nat
deriving DecidableEq, Repr

/-- A member of a section: its coefficients and its two state words; no state until its first step copies that of the member before it (R152, R155). -/
structure SecMember where
  b0 : Word
  b1 : Word
  b2 : Word
  a1 : Word
  a2 : Word
  st : Option (Int × Int)
deriving DecidableEq, Repr

/-- A section with its crossfade and the commit frame of the change that waits (R155, R156, R402). -/
structure Section where
  fade : Fade SecMember
  waiting : Option Nat
deriving DecidableEq, Repr

/-- A meter point: followers, held peak, hold timer, RMS integrator and the last twelve observed values, newest first (R160, R161). -/
structure Meter where
  sp : Nat
  tp : Nat
  hp : Nat
  th : Nat
  r : Nat
  hist : List Word
deriving DecidableEq, Repr

/-! ## The Peg unit -/

/-- A master's open entry (R174). -/
structure PegOpen where
  master : Nat
  hdr : Word
  words : List Word
deriving DecidableEq, Repr

/-- An entry in the processing order: writer, header and payload, the payload (or scene body) words already taken, whether a skipped word was counted, the reading state of a scene, and the Delron request that its resolution answers (R174 to R177, R188, R266). -/
structure PegEntry where
  master : Nat
  hdr : Word
  words : List Word
  pos : Nat
  skipped : Bool
  recA : Nat
  recLeft : Nat
  crc : Word
  loading : Bool
  loaded : Bool
  failed : Bool
  dir : List Word
  ack : Option (DelronSrc × BitVec 16)
deriving DecidableEq, Repr

/-- A commit from its resolution to the tick of its commit frame: ticket, group mask, commit frame, and the copies fixed for that frame (R178 to R180). -/
structure Commit where
  ticket : Nat
  mask : Word
  frame : Nat
  fixed : Option (List (Nat × Word))
deriving DecidableEq, Repr

/-! ## Ports, receivers and flows -/

/-- The captured side of a serial port or receiver: complete frames not yet taken with the frame in which each ended, oldest first; the frame taken last; whether captures have begun; and the capture of the current frame (R215, R224). -/
structure InBuf where
  held : List (Nat × List Word)
  taken : List Word
  begun : Bool
  cap : List Word
deriving DecidableEq, Repr

/-- A serial port (R210 to R222): `slipped` an input slip since qualification; `cfg` and `offset` the settings in force; `lev` the port level of the current frame; `inMask` the input mask in force; `levIn` and `levOut` the slot levels of the frame before; `sent` the newest presented frame sent; `pins` the slots of the TDM frame being sent, none at high impedance; `restart` a restart due at the next tick; `clk` its bit clock and frame sync are driven, else at high impedance or the carrier's (R212, R223). -/
structure Port where
  buf : InBuf
  slipped : Bool
  cfg : Word
  offset : Nat
  lev : Nat
  inMask : Word
  levIn : List Nat
  levOut : List Nat
  sent : Option Nat
  pins : List (Option Word)
  restart : Bool
  clk : Bool
deriving DecidableEq, Repr

/-- An AES3 receiver (R224 to R227): `last` the last samples of subframes A and B, `sinceBurst` the AES frames since the last IEC 61937 preamble, `absent` those since both non-audio conditions ceased. -/
structure AesRx where
  buf : InBuf
  lev : Nat
  last : List Word
  sinceBurst : Option Nat
  absent : Nat
deriving DecidableEq, Repr

/-- An AES3 transmitter (R228): the next frame of the channel-status block, the template and the samples presented last, and what was sent last: the subframes (none at high impedance), the channel-status bit, the validity and user bits, and the parity bits of both subframes. -/
structure AesTx where
  pos : Nat
  tmpl : List Word
  next : Word × Word
  sent : Option (Word × Word)
  csBit : Bool
  vBit : Bool
  uBit : Bool
  parity : Bool × Bool
deriving DecidableEq, Repr

/-- A packet whose first copy has arrived on a flow with two paths: sequence number, timestamp, whether that copy came on path B, whether the second copy is still awaited, and the frame of the arrival (R253). -/
structure CopyWait where
  seq : Nat
  ts : Nat
  pathB : Bool
  wanted : Bool
  frame : Nat
deriving DecidableEq, Repr

/-- A receive flow: words 1 to 7 in use, level, whether a commit has it fade out, and whether to stop; the samples taken by capture frame (by media time in ns × rate for a flow at another rate) with their packet, the last taken sample, and the counters and states of R253 to R255. -/
structure RxFlow where
  words : List Word
  run : Bool
  level : Nat
  leaving : Bool
  off : Bool
  buf : List (Int × Nat × List Word)
  last : List Word
  concealed : Bool
  waits : List CopyWait
  missRunA : Nat
  missRunB : Nat
  goodRun : Nat
  single : Bool
  seenA : Bool
  seenB : Bool
  lost : Nat
  missA : Nat
  missB : Nat
  late : Nat
  discard : Nat
deriving DecidableEq, Repr

/-- A transmit flow: words 1 to 7 in use, level, whether a commit has it fade out, and whether to stop; the presented samples of the latest frames (newest first), the first media sample of the packet launched last, and the counters of R255. -/
structure TxFlow where
  words : List Word
  run : Bool
  level : Nat
  leaving : Bool
  off : Bool
  hist : List (Nat × List Word)
  launched : Option Int
  sent : Nat
  lateLaunch : Nat
deriving DecidableEq, Repr

/-- The record of a connection rule's hold: rule, partner entry and flow record (R270). -/
structure Conn where
  rule : Nat
  partner : Nat
  fr : FlowRec
deriving DecidableEq, Repr

/-! ## Time bases -/

/-- A frame anchor: the time τa in ns on the time base and the frame na (R279). -/
structure Anchor where
  ns : Int
  frame : Nat
deriving DecidableEq, Repr

/-! ## Conversions, clocks and modes -/

/-- What the ASRC channels in network-time ratio mode hold (R233): by channel the placed samples, newest first, each with its place (the media time of a network channel in ns × its rate; for another input channel its time in units of 1 / (Fi × its rate) counted from frame 0; for an output channel the frame), and the endpoint samples that an output channel has delivered since it locked. -/
structure Conversions where
  hist : List (Nat × List (Int × Word))
  turn : List (Nat × Nat)
deriving DecidableEq, Repr

/-- What an output pin carries: nothing, a steady level, or the edges of its generator (R293 to R295, R382). -/
inductive PinDrive where
  | highZ
  | level (high : Bool)
  | edges
deriving DecidableEq, Repr

/-- What the time block and the pulse outputs hold beside their registers (R261, R295, R296). -/
structure Timing where
  /-- The time bases that have been LOCKED since boot (R261). -/
  seen : List Nat
  /-- The values of TIME.TBt_ALIGN with the second of TBt from which each applies, newest first (R296). -/
  aligns : List (Nat × Nat × Word)
  /-- PPS_OUT, FP_OUT, WC_OUT0 and WC_OUT1 (R293, R295). -/
  pins : List PinDrive
deriving DecidableEq, Repr

/-- What the clock supervisor and the mode control hold between two commands: SLEEP has been left and the stopped blocks restart at the next tick (R306); the first frame tick since start-up has been released (R311); and a multiplexer change that may still need its escape, to the normal clocks or to the limp clock (R301). -/
structure Service where
  exitDue : Bool
  ticked : Bool
  muxDue : Option Bool
deriving DecidableEq, Repr

/-- The controller states of the test access port (R396). -/
inductive TapState where
  | testLogicReset | runTestIdle
  | selectDr | captureDr | shiftDr | exit1Dr | pauseDr | exit2Dr | updateDr
  | selectIr | captureIr | shiftIr | exit1Ir | pauseIr | exit2Ir | updateIr
deriving DecidableEq, Repr

/-- The data registers of the test access port (R396). -/
inductive TapReg where
  | idcode
  | bypass
  | boundary
deriving DecidableEq, Repr

/-- The test access port: the controller state, the data register in use, the scan register (the bit at TDO first), and the boundary bits that were updated last (R396). -/
structure TestPort where
  state : TapState
  sel : TapReg
  scan : List Bool
  drive : List Bool
deriving DecidableEq, Repr

/-- The port in Test-Logic-Reset, where IDCODE is selected (R396; log entry 96). -/
def TestPort.reset : TestPort := { state := .testLogicReset, sel := .idcode, scan := [], drive := [] }

/-! ## The whole state -/

/-- The snapshot unit between a trigger and the words of SNAP.D0 to SNAP.D63. -/
structure Snap where
  /-- The triggers that wait for a tick, as SNAP.STATUS.CAUSE codes them (R372). -/
  pend : Nat
  /-- The snapshot that the last tick has taken and SNAPSHOT_TAKE stores or drops: its triggers and its 64 words (R372, R373). -/
  held : Option (Nat × List Word)
deriving DecidableEq, Repr

/-- The state of the module: what the spec gives it, plus the free-value counter `freeCtr` (the model's own, log entry 2) and the queue `pending` of commands that wait. -/
structure State where
  /-- Control and status registers by byte address; an unlisted one holds its reset value (R11, R18). -/
  regs : List (Nat × Word)
  /-- Holding registers: the words latched by a read of a low word or of word 0, keyed by master × 2^32 + byte address (R15, R162, R190, R377). -/
  latch : List (Nat × Word)
  /-- The data of the last register or table read, keyed by master (R12). -/
  rdata : List (Nat × Word)
  /-- FC, the frame counter (R22). -/
  fc : BitVec 64
  /-- The first frame tick has been released (R22). -/
  ticking : Bool
  /-- The latest frame whose matrix work has run (R30). -/
  matFrame : Option Nat
  /-- Active copies of the table words and of the shadowed register words, by byte address (R137, R167). -/
  tab : List (Nat × Word)
  /-- Shadow copies of the shadowed words, by byte address (R167). -/
  shad : List (Nat × Word)
  /-- The Courses (R42). -/
  courses : Vector Course 8
  /-- The scratch banks: byte 4 × (65,536 × bank + word) + lane (R111). -/
  scratch : List (Nat × Byte)
  /-- The owner a handover in progress gives to a bank (R114). -/
  newOwner : List (Nat × Nat)
  /-- The DRAM, by byte address (R118). -/
  dram : List (Nat × Byte)
  /-- The words of the ranges of running moves that another master has written since the move started: Course, ticket and data-space word address (R106). -/
  raced : List (Nat × Nat × Nat)
  /-- The masters that have accessed a scratch bank since their waiting cycles were last read (R117). -/
  scrUsed : List Nat
  /-- The round-robin pointer of each Ridge port, 12 where unlisted (R131). -/
  rr : List (Nat × Nat)
  /-- The delay lines, keyed by Course × 1,024 + line (R120). -/
  lines : List (Nat × Line)
  /-- The taps, keyed by Course × 2,048 + tap (R120). -/
  taps : List (Nat × Tap)
  /-- The values of the feeds that the input blocks assigned to the last captured frame, by feed (R25, R139). -/
  captured : List (Nat × Word)
  /-- The feed values that the latest matrix work consumed, by feed (R149, R159). -/
  mixFeeds : List (Nat × Word)
  /-- The two bus banks: bus b of frame k at key (k mod 2) × 1,024 + b (R54). -/
  bus : List (Nat × Word)
  /-- The members of crosspoint x at key x and of patch point q at key 65,536 + q (R146). -/
  xents : List (Nat × XEntry)
  /-- The sources of the selector consumers, keyed by the byte address of the halfword that holds the selector (R143, R194). -/
  sels : List (Nat × Selector)
  /-- The members and state of the equaliser sections (R151, R152). -/
  secs : List (Nat × Section)
  /-- Frames with a saturating section step, with the lowest such section, until their record (R152). -/
  eqSat : List (Nat × Nat)
  /-- The latest chain outputs (R153). -/
  chainOut : List (Nat × Word)
  /-- The meter points in use (R160). -/
  meters : List (Nat × Meter)
  /-- The open entries of the masters (R174). -/
  pegOpen : List PegOpen
  /-- The entries in processing order (R174). -/
  pegQueue : List PegEntry
  /-- The pending commits, in ticket order (R180). -/
  commits : List Commit
  /-- The tokens waiting to be offered, oldest first (R192, R193). -/
  tokens : List Token
  /-- The sequence counters of the sources with IMODE 2 (R197). -/
  seq : List (Nat × Nat)
  /-- The matching store (R198). -/
  store : List StoreEntry
  /-- The next ready order (R201). -/
  readyCtr : Nat
  /-- The mute levels of the scopes, 64 where unlisted: Cn at n, all at 8, the output fade of R305 and R352 at 9, port n at 16 + n, receiver r at 32 + r, ASRC channels at 36 (R364). -/
  mute : List (Nat × Nat)
  /-- The latched sources whose MUTE reaction is in force (R364, R377). -/
  reactMute : List Nat
  /-- The ASRC channels that have lost lock since the latch of source 76 was last cleared (R364). -/
  asrcLost : List Nat
  /-- The intrusive test that runs: TEST, TARGET, and whether HALT was set before the request (R376). -/
  test : Option (Nat × Nat × Bool)
  /-- The snapshot unit between a trigger and the stored words (R372, R373). -/
  snap : Snap
  /-- The counters of TB0 to TB3 in units of 2^-32 ns, as of the last command that gave their elapsed time (R272). -/
  tbCount : Vector Nat 4
  /-- A RELEASE reaction waits for its effect on the pairing state (R363). -/
  releaseReq : Bool
  /-- The measured ratios of the locked ASRC channels, unsigned Q4.28 (R235). -/
  asrcRatio : List (Nat × Word)
  /-- The address channels with the reserved mode whose first use has been reported: Course × 32 + 16 for the background + channel (R56). -/
  modeUsed : List Nat
  /-- The serial ports (R210). -/
  ports : Vector Port 16
  /-- The AES3 receivers (R224). -/
  rxs : Vector AesRx 4
  /-- The AES3 transmitters (R228). -/
  txs : Vector AesTx 4
  /-- The fade levels of the ASRC channels, 0 where unlisted (R232, R233). -/
  asrcLev : List (Nat × Nat)
  /-- The ASRC channels in network-time ratio mode (R233). -/
  conv : Conversions
  /-- The outputs of the ASRC input channels in the last captured frame (R230). -/
  asrcOut : List (Nat × Word)
  /-- The receive flows that have been enabled (R245 to R255). -/
  rxFlows : List (Nat × RxFlow)
  /-- The transmit flows that have been enabled (R245 to R257). -/
  txFlows : List (Nat × TxFlow)
  /-- The flows held disabled: f, or 256 + f in the transmit direction (R248). -/
  flowErr : List Nat
  /-- The last frame sent on path A (0) and path B (1), without FCS (R241). -/
  wire : List (Nat × List Byte)
  /-- The transmit rings whose descriptor is held until its launch time, with the address of that descriptor (R261). -/
  ringHold : List (Nat × Nat)
  /-- The flow records in the last announcement of each partner entry (R267, R270). -/
  partnerFlows : List (Nat × List FlowRec)
  /-- The connection rules that hold a partner's record (R270). -/
  conns : List Conn
  /-- New partners that found the table full (R269). -/
  partnersRefused : Nat
  /-- The Delron message sent last on the network, with its destination (R265). -/
  delronNet : Option (Word × BitVec 16 × List Byte)
  /-- The outbound Delron slot that the next reply fills (R339). -/
  outFill : Nat
  /-- The replies that wait for an outbound slot (R339). -/
  outWait : List (List Byte)
  /-- Pairing is in force: PAIR.CFG.EN as of the last module reset (R344, R360). -/
  pairEn : Bool
  /-- The Peg records that the active has forwarded (R346, R356). -/
  fwdSent : Nat
  /-- The forwarded Peg records that the standby has applied (R346, R356). -/
  fwdApplied : Nat
  /-- Tickets whose cancel waits for the acknowledgement of a forwarded record (R356). -/
  cancelWait : List (Nat × Nat)
  /-- The frame anchors in force, by time base (R279). -/
  anchors : List (Nat × Anchor)
  /-- The anchors that come into force at the next tick, by time base (R279). -/
  ancPend : List (Nat × Anchor)
  /-- The edges of a capture input since its last captured one (R282). -/
  capCnt : List (Nat × Nat)
  /-- The seconds of the newest capture of each input (R282). -/
  capSec : List (Nat × Nat)
  /-- The reference slots that have been WTR or VALID since boot (R284). -/
  slotSeen : List Nat
  /-- The recorded means of the control word, newest first, with their XO second (R291). -/
  refMeans : List (Nat × Int)
  /-- The XO seconds counted by the selector (R291). -/
  refSec : Nat
  /-- The slot pairs that disagree: higher slot × 8 + lower (R290). -/
  disPairs : List Nat
  /-- The generators with an alignment request not yet met (R294). -/
  genReq : List Nat
  /-- The time block and the pulse outputs (R261, R295, R296). -/
  timing : Timing
  /-- The dividers in force: CLK.DIV, or the value that a held change still awaits (R299). -/
  divNow : Word
  /-- The master ports hold until the dividers change (R299). -/
  divHold : Bool
  /-- The early value for CLK.DIV (R319). -/
  earlyDiv : Word
  /-- The early value for CLK.SSC (R319). -/
  earlySsc : Word
  /-- XO_WAIT was entered from RUN (R303). -/
  xoFromRun : Bool
  /-- The mode that the outputs fade out towards (R305). -/
  modeStep : Option Nat
  /-- The REQ value written while a transition is in progress (R305). -/
  modeQueued : Option Nat
  /-- What the clock supervisor and the mode control hold between two commands (R301, R306, R311). -/
  sup : Service
  /-- An enabled source has asked to wake the module while its entry to SLEEP or DEEP is under way (R305). -/
  wakePend : Bool
  /-- Every logic rail is in regulation (R310, R311). -/
  railsUp : Bool
  /-- The level of RST_OUT_N (R395). -/
  rstOut : Bool
  /-- A brown-out waits for its capture at the next tick (R311). -/
  holdupDue : Bool
  /-- The captures that wait for the hold-up store: the eight words of the index record, the four of the first-fault record, and the fault count, oldest first (R311, R342). -/
  holdup : List (List Word)
  /-- The boot flash by byte address; an unlisted byte is erased (R318, R341). -/
  flash : List (Nat × Byte)
  /-- The boot flash answered with its SFDP tables at this start-up (R318). -/
  flashPart : Bool
  /-- The flash command that runs, with its address (R341). -/
  flCmd : Option (Nat × Nat)
  /-- The fused key hash; all zero while unfused (R324, R333). -/
  fuseKey : List Word
  /-- The debug lock is fused (R332). -/
  fuseLock : Bool
  /-- The fuse burn that runs: key, lock, and the digest (R333). -/
  otpRun : Option (Bool × Bool × List Word)
  /-- PASS2 of the copy in work has begun (R326). -/
  loading : Bool
  /-- The block reset after a rejected PASS2 is under way (R326). -/
  resetDue : Bool
  /-- The loaded words with a reserved value, whose EV5 come at the first tick, in load order (R328). -/
  bootEv : List Nat
  /-- The loaded SCR.OWN words, which come into force at the first tick (R328). -/
  bootOwn : List (Nat × Word)
  /-- The auxiliary rails shut down until the next module reset: 0 V3P3_AUX, 1 V1P8_FL (R388). -/
  railsOff : List Nat
  /-- The train-line outputs opened by an overcurrent until ON goes from 0 to 1 (R313). -/
  toOpen : List Nat
  /-- The claim window count (R350). -/
  claimCount : Nat
  /-- Consecutive valid heartbeats (R347). -/
  linkRun : Nat
  /-- The frame of the last valid heartbeat (R347, R353, R355). -/
  hbFrame : Nat
  /-- Consecutive frames with a skew of at most 100 ns (R353). -/
  skewGood : Nat
  /-- Consecutive frames with a skew above 100 ns (R353). -/
  skewBad : Nat
  /-- The steps of R353 completed since the last entry to JOIN. -/
  joinStep : Nat
  /-- The output hashes of the latest frames (R355). -/
  hashes : List (Nat × Word)
  /-- The state digests of the latest frames (R355). -/
  digests : List (Nat × Word)
  /-- Frames of which one of the two comparisons has been made, with its result: 2 × frame for the hash, 2 × frame + 1 for the digest (R355). -/
  matched : List (Nat × Bool)
  /-- The heartbeat sent last (R346). -/
  hbSent : Option Heartbeat
  /-- The epoch in progress: its number and its start frame, in the frames of the active (R357). -/
  epochRun : Option (Nat × Nat)
  /-- The number of the epoch started last (R357). -/
  epochLast : Nat
  /-- An epoch has been requested and not started (R357). -/
  epochReq : Bool
  /-- The number of the final epoch of an accepted release; 0 until it starts (R358). -/
  finalEpoch : Option Nat
  /-- A release of BATTEN is due after the next tick, with the state that follows (R351). -/
  relDue : Option Nat
  /-- BATTEN has been released; the state that the next tick brings (R351). -/
  relDone : Option Nat
  /-- The epoch being received: its number and the CRC register over its data (R357). -/
  epochRx : Option (Nat × Word)
  /-- The start frame of the live epoch, in the frames of the active that sent it (R359). -/
  liveStart : Nat
  /-- The scenes requested from the active, with their directory entries (R353). -/
  sceneNeed : List (Nat × List Word)
  /-- The module owns the presentation frame in progress (R352). -/
  ownCur : Bool
  /-- The module owned the presentation frame before it (R352). -/
  ownPrev : Bool
  /-- A tick has passed since a release became due (R351). -/
  relArmed : Bool
  /-- The active has processed the sync record, so that it forwards its entries (R353, R356). -/
  syncSent : Bool
  /-- The response of the last SPI request: STATUS, fields and CRC-32; empty where none was sent (R335). -/
  spiResp : List Byte
  /-- The test access port (R396). -/
  testPort : TestPort
  /-- The model's own counter that indexes the free values (log entry 2). -/
  freeCtr : Nat
  /-- The commands that wait, first in first out. -/
  pending : List Instr
deriving DecidableEq, Repr

/-- A context at its reset values (R43, R63). -/
def Ctx.reset : Ctx :=
  { d := Vector.replicate 32 0, p := Vector.replicate 16 0, n := Vector.replicate 16 0, l := Vector.replicate 16 0, k := Vector.replicate 16 0,
    lc := Vector.replicate 4 0, rot := 0, mode := 0, flags := 0x100#32, acc := Vector.replicate 8 0, accOut := Vector.replicate 8 0,
    flight := [], pc := 0, slot := none, rep := none, bundle := [], stall := none, ended := false }

/-- A Course at reset: STATE reads 0, its memories list nothing (R77; log entry 3). -/
def Course.reset : Course :=
  { phase := .entry, frame := 0, fg := Ctx.reset, bg := Ctx.reset, pmem := [], lmem := [], posted := [], task := none, resetReq := false,
    reloaded := false, missed := none, feedLevel := 64, feedCur := [], feedOut := [], feedFrame := none, tapCur := [], mbox := [],
    mboxFrame := Vector.replicate 2 none, pageOld := [], ioStall := 0, mboxStall := 0, ioOpen := false, mboxOpen := false, bgRan := false, preemptDue := false, haltDue := false, moves := [], nextTicket := 0 }

/-- A capture side with nothing received. -/
def bufReset : InBuf := { held := [], taken := [], begun := false, cap := [] }

/-- A serial port at reset. -/
def portReset : Port :=
  { buf := bufReset, slipped := false, cfg := 0, offset := 0, lev := 0, inMask := 0, levIn := List.replicate 32 0, levOut := List.replicate 32 0,
    sent := none, pins := List.replicate 32 none, restart := false, clk := false }

/-- The module right after reset: every register at the reset value of its table, memories with nothing listed, no command waiting (R6 to R378; log entries 3 to 5). -/
def State.reset : State :=
  { regs := [],
    latch := [],
    rdata := [],
    fc := 0,
    ticking := false,
    matFrame := none,
    tab := [],
    shad := [],
    courses := Vector.replicate 8 Course.reset,
    scratch := [],
    newOwner := [],
    dram := [],
    raced := [],
    scrUsed := [],
    rr := [],
    lines := [],
    taps := [],
    captured := [],
    mixFeeds := [],
    bus := [],
    xents := [],
    sels := [],
    secs := [],
    eqSat := [],
    chainOut := [],
    meters := [],
    pegOpen := [],
    pegQueue := [],
    commits := [],
    tokens := [],
    seq := [],
    store := [],
    readyCtr := 0,
    mute := [],
    reactMute := [],
    asrcLost := [],
    test := none,
    snap := { pend := 0, held := none },
    tbCount := Vector.replicate 4 0,
    releaseReq := false,
    asrcRatio := [],
    modeUsed := [],
    ports := Vector.replicate 16 portReset,
    rxs := Vector.replicate 4 { buf := bufReset, lev := 0, last := [0, 0], sinceBurst := none, absent := 0 },
    txs := Vector.replicate 4 { pos := 0, tmpl := [], next := (0, 0), sent := none, csBit := false, vBit := false, uBit := false, parity := (false, false) },
    asrcLev := [],
    conv := { hist := [], turn := [] },
    asrcOut := [],
    rxFlows := [],
    txFlows := [],
    flowErr := [],
    wire := [],
    ringHold := [],
    partnerFlows := [],
    conns := [],
    partnersRefused := 0,
    delronNet := none,
    outFill := 0,
    outWait := [],
    pairEn := false,
    fwdSent := 0,
    fwdApplied := 0,
    cancelWait := [],
    anchors := [],
    ancPend := [],
    capCnt := [],
    capSec := [],
    slotSeen := [],
    refMeans := [],
    refSec := 0,
    disPairs := [],
    genReq := [],
    timing := { seen := [], aligns := [], pins := List.replicate 4 .highZ },
    divNow := 0x402#32,
    divHold := false,
    earlyDiv := 0x402#32,
    earlySsc := 0x001F000A#32,
    xoFromRun := false,
    modeStep := none,
    modeQueued := none,
    sup := { exitDue := false, ticked := false, muxDue := none },
    wakePend := false,
    railsUp := false,
    rstOut := false,
    holdupDue := false,
    holdup := [],
    flash := [],
    flashPart := false,
    flCmd := none,
    fuseKey := List.replicate 8 0,
    fuseLock := false,
    otpRun := none,
    loading := false,
    resetDue := false,
    bootEv := [],
    bootOwn := [],
    railsOff := [],
    toOpen := [],
    claimCount := 0,
    linkRun := 0,
    hbFrame := 0,
    skewGood := 0,
    skewBad := 0,
    joinStep := 0,
    hashes := [],
    digests := [],
    matched := [],
    hbSent := none,
    epochRun := none,
    epochLast := 0,
    epochReq := false,
    finalEpoch := none,
    relDue := none,
    relDone := none,
    epochRx := none,
    liveStart := 0,
    sceneNeed := [],
    ownCur := false,
    ownPrev := false,
    relArmed := false,
    syncSent := false,
    spiResp := [],
    testPort := TestPort.reset,
    freeCtr := 0,
    pending := [] }

end Sys2Proof.Machine
end

