-- ==== Sys2Proof/Machine/Ops.lean ====
section
/-! DEFINITION. The named operations over registers, tables, Courses, events and faults that every command uses. -/

namespace Sys2Proof.Machine

/-! ## Registers (R11 to R17) -/

/-- The register at byte address `a` (R11). -/
def State.reg (s : State) (a : Nat) : Word := mapGet regReset s.regs a

/-- The register at byte address `a` takes value `v`. -/
def State.setReg (s : State) (a : Nat) (v : Word) : State := { s with regs := mapSet regReset s.regs a v }

/-- A field of a register, as a number. -/
def State.rfld (s : State) (a lo len : Nat) : Nat := fld (s.reg a) lo len

/-- A field of a register takes a number. -/
def State.setRfld (s : State) (a lo len v : Nat) : State := s.setReg a (setFld (s.reg a) lo len v)

/-- A bit of a register. -/
def State.rbit (s : State) (a i : Nat) : Bool := bit (s.reg a) i

/-- A bit of a register is set by hardware. -/
def State.setRbit (s : State) (a i : Nat) : State := s.setReg a (s.reg a ||| oneHot i)

/-- A bit of a register takes the value `b`. -/
def State.putRbit (s : State) (a i : Nat) (b : Bool) : State := s.setReg a (setBit (s.reg a) i b)

/-- A 32-bit counter register steps by `n` and saturates at all ones (R77, R191). -/
def State.count (s : State) (a n : Nat) : State := s.setReg a (satAdd (s.reg a) 0 32 n)

/-- The key of a holding register of a master (R15, R162, R190). -/
def latchKey (m a : Nat) : Nat := m * 0x100000000 + a

/-- The word latched for master `m` at address `a`. -/
def State.latched (s : State) (m a : Nat) : Word := wmGet s.latch (latchKey m a)

/-- A word is latched for master `m` at address `a`. -/
def State.setLatch (s : State) (m a : Nat) (v : Word) : State := { s with latch := wmSet s.latch (latchKey m a) v }

/-- A read returns `v` to master `m`. -/
def State.returnTo (s : State) (m : Nat) (v : Word) : State := { s with rdata := wmSet s.rdata m v }

/-- A free value (log entry 2) and the state that has drawn it. -/
def State.draw (s : State) : Word × State := (Config.freeWord s.freeCtr, { s with freeCtr := s.freeCtr + 1 })

/-- The frame counter as a number. -/
def State.now (s : State) : Nat := s.fc.toNat

/-! ## Tables (R19, R137, R167) -/

/-- The reset value of a table word or of a shadowed register word: 256 for PEG.XFADEn (R191), zero otherwise. -/
def tabDefault (a : Nat) : Word := if 0x50100 ≤ a ∧ a < 0x50180 then 0x100#32 else 0

/-- The active copy of a table word. -/
def State.tabGet (s : State) (a : Nat) : Word := mapGet tabDefault s.tab a

/-- The active copy of a table word is written. -/
def State.tabSet (s : State) (a : Nat) (v : Word) : State := { s with tab := mapSet tabDefault s.tab a v }

/-- The shadow copy of a shadowed word. -/
def State.shadGet (s : State) (a : Nat) : Word := mapGet tabDefault s.shad a

/-- The shadow copy of a shadowed word is written. -/
def State.shadSet (s : State) (a : Nat) (v : Word) : State := { s with shad := mapSet tabDefault s.shad a v }

/-- The newest active copy fixed for a word (R173). -/
def State.newest (s : State) (a : Nat) : Word :=
  let fixed := s.commits.filterMap fun c => c.fixed.bind fun f => (mapFind f a).map fun v => (c.frame, v)
  match fixed.foldl (fun (b : Option (Nat × Word)) e => match b with | none => some e | some x => if x.1 < e.1 then some e else some x) none with
  | some e => e.2
  | none => s.tabGet a

/-- Both copies of a word take the value that Thatch gives (R169). -/
def State.tabLoad (s : State) (a : Nat) (v : Word) : State := (s.tabSet a v).shadSet a v

/-- The crossfade length of a commit group: PEG.XFADEg.LEN of the active copy, 1 to 4,096 (R170). LEN is [12:0]; 0 and values above 4,096 are reserved and act as 256 (R13). -/
def State.xfadeLen (s : State) (g : Nat) : Nat :=
  let n := fld (s.tabGet (regPEG_XFADE g)) 0 13
  if n = 0 ∨ n > 4096 then 256 else n

/-! ## Courses -/

/-- Course `n`. -/
def State.course (s : State) (n : CourseId) : Course := s.courses.get n

/-- Course `n` is replaced. -/
def State.setCourse (s : State) (n : CourseId) (c : Course) : State := { s with courses := s.courses.set n.val c n.isLt }

/-- Course `n` is changed by `f`. -/
def State.modCourse (s : State) (n : CourseId) (f : Course → Course) : State := s.setCourse n (f (s.course n))

/-- A context of a Course. -/
def Course.ctx (c : Course) : CtxId → Ctx
  | .fg => c.fg
  | .bg => c.bg

/-- A context of a Course is replaced. -/
def Course.setCtx (c : Course) (x : CtxId) (v : Ctx) : Course :=
  match x with
  | .fg => { c with fg := v }
  | .bg => { c with bg := v }

/-- All Courses, in ascending number. -/
def courseIds : List CourseId := [0, 1, 2, 3, 4, 5, 6, 7]

/-- The Course is halted (Cn.STATUS.HALTED, R73). -/
def Course.isHalted (c : Course) : Bool := decide (c.phase = .halted)

/-- A Course with foreground work unfinished at the tick of a later frame has a backlog (R20, R33). -/
def State.backlog (s : State) (n : CourseId) : Bool :=
  let c := s.course n
  s.ticking && decide (c.frame < s.now) && decide (c.phase ≠ .halted) && decide (c.phase ≠ .reset)

/-- FG_KWORDS × 1,024: the size of the foreground region; values above 64 act as 64 (R52, R77). -/
def State.fgWords (s : State) (n : CourseId) : Nat := Nat.min 64 (s.rfld (regC_DMEM_SPLIT n) 0 7) * 1024

/-! ## Clocks and modes (R303 to R307) -/

/-- SLEEP is in force, or left while its exit waits for the next frame tick (R306). -/
def State.asleep (s : State) : Bool := decide (s.rfld regGLOBAL_MODE 4 2 = 1) || s.sup.exitDue

/-- DEEP is in force (R307). -/
def State.deep (s : State) : Bool := decide (s.rfld regGLOBAL_MODE 4 2 = 2)

/-- SLEEP is in force and the block of bit `i` of CLK.GATE_SLEEP has no clock (R306). -/
def State.gatedOff (s : State) (i : Nat) : Bool := s.asleep && !s.rbit regCLK_GATE_SLEEP i

/-- The Course clocks run: the system multiplexer is not on the limp clock (R303). -/
def State.courseClock (s : State) : Bool := !s.rbit regCLK_STATUS 21

/-- The Course clock is not twice the Ridge clock; reserved values of RDIV act as 2 (R134, R299, R315). On the limp clock the Course clocks stand (R303). -/
def State.courseRatioBad (s : State) : Bool :=
  let d := fld s.divNow 0 3
  s.courseClock && decide (1 ≤ d) && decide (d ≤ 4) && decide (d ≠ 2)

/-- The DRAM controller has its clock: not between the start of the supervisor and the lock of the DRAM PLL, nor after its loss (R303, R304). -/
def State.dramOn (s : State) : Bool := decide (s.rfld regCLK_STATUS 29 3 = 0) || s.rbit regCLK_STATUS 22

/-! ## Holds of the master ports (R135, R299) -/

/-- Every master port holds its new accesses: a change of the slices or of the dividers is in progress (R135, R299). -/
def State.held (s : State) : Bool := s.divHold || s.rbit regRIDGE_STATUS 1

/-- The slices switch: SLOW_ACT follows SLOW (R135). Without a change in progress nothing happens. -/
def State.sliceSwitch (s : State) : State :=
  if s.rbit regRIDGE_STATUS 1 then (s.putRbit regRIDGE_STATUS 0 (s.rbit regRIDGE_CTRL 0)).putRbit regRIDGE_STATUS 1 false else s

/-- The dividers take the value of CLK.DIV (R299). Without a change pending nothing happens. -/
def State.divChange (s : State) : State :=
  if s.divHold then { s with divNow := s.reg regCLK_DIV, divHold := false } else s

/-- An access of a master other than a Course that meets a hold proceeds when the change is complete: the change comes first (R135, R299; DESIGN CHOICE, log entry 93). -/
def State.unhold (s : State) : State := if s.held then s.sliceSwitch.divChange else s

/-- The number of a target port. -/
def portNo : RidgePort → Nat
  | .scratch b => b.val
  | .dram c => 64 + c.val
  | .csr => 66
  | .course n => 67 + n.val
  | .table => 75

/-- A target port served master `m` last: its round-robin pointer moves (R131). -/
def State.servePort (s : State) (p m : Nat) : State := { s with rr := mapSet (fun _ => 12) s.rr p m }

/-! ## Events (R192 to R197) -/

/-- The task number of a token of source `e` with payload `pl`, by IMODE; the reserved IMODE 3 acts as 0 (R197, R209). -/
def State.tokenNum (s : State) (e : Nat) (pl : Word) : Nat :=
  let r := s.reg (regEVT_ROUTE e)
  match fld r 29 2 with
  | 1 => fld pl 0 8
  | 2 => (mapFind s.seq e).getD 0
  | _ => fld r 8 8

/-- The sequence counter of a source steps modulo 256 when its routing has TEN = 1 and IMODE 2 (R197). -/
def State.bumpSeq (s : State) (e : Nat) : State :=
  if fld (s.reg (regEVT_ROUTE e)) 29 2 = 2 then
    { s with seq := mapSet (fun _ => 0) s.seq e ((((mapFind s.seq e).getD 0) + 1) % 256) }
  else s

/-- The token of an occurrence is queued, or lost when 16 of its source wait (R192 step 4, R193). -/
def State.queueToken (s : State) (e : Nat) (pl : Word) : State :=
  let r := s.reg (regEVT_ROUTE e)
  if bit r 31 then
    let t : Token := { src := e, tmpl := fld r 16 8, num := s.tokenNum e pl, slot := fld r 27 2, val := pl }
    let s1 := s.bumpSeq e
    if (s.tokens.filter fun t => t.src == e).length ≥ 16 then
      (s1.count regEVT_LOST_CNT 1).setRbit regEVT_STATUS 28
    else { s1 with tokens := s1.tokens ++ [t] }
  else s

/-- An occurrence of event source EV`e` with payload `pl` (R192). The interrupt pins follow the pending bits and the routing (R207). -/
def State.raiseEvent (s : State) (e : Nat) (pl : Word) : State :=
  ((s.setRbit (regEVT_PEND (e / 32)) (e % 32)).setReg (regEVT_PAYLOAD e) pl).queueToken e pl

/-- A reserved value written to an enumerated field: EV5 with the byte address of the word (R13, R194). -/
def State.configError (s : State) (a : Nat) : State := s.raiseEvent 5 (BitVec.ofNat 32 a)

/-! ## Faults (R361 to R368) -/

/-- The latch of a fault source (R361). -/
def State.faultLatched (s : State) (src : Nat) : Bool := s.rbit (regFAULT_LATCH (src / 32)) (src % 32)

/-- The counter of TB0 as nanoseconds and seconds [31:0]: the held value while TB0 is disabled; while it counts, a free value, since a raising carries no elapsed time (R368; log entry 2). -/
def State.tb0Words (s : State) : (Word × Word) × State :=
  if s.rbit (regTIME_CFG 0) 31 then
    let (a, s1) := s.draw
    let (b, s2) := s1.draw
    ((BitVec.ofNat 32 (a.toNat % 1000000000), b), s2)
  else
    let ns := (s.tbCount.get 0) / 2 ^ 32
    ((BitVec.ofNat 32 (ns % 1000000000), BitVec.ofNat 32 (ns / 1000000000)), s)

/-- The first-fault record is made, with the address and syndrome of a memory fault or zeros, and EV6 occurs (R366, R368). -/
def State.recordFault (s : State) (src : Nat) (inj : Bool) (det syn : Word) : State :=
  let r := s.tb0Words
  let w0 := BitVec.ofNat 32 (0x80000000 + b2n inj * 2 ^ 30 + faultClass src * 2 ^ 28 + s.rfld (regTIME_STAT 0) 0 2 * 2 ^ 26
    + (s.now / 2 ^ 32 % 2 ^ 16) * 256 + src)
  let s1 := (((((r.2.setReg regFAULT_FFR0 w0).setReg (regFAULT_FFR1 0) (lo32 s.fc)).setReg (regFAULT_FFR1 1) r.1.1).setReg
    (regFAULT_FFR1 2) r.1.2).setReg regFAULT_FFDET det).setReg regFAULT_FFSYN syn
  s1.raiseEvent 6 (BitVec.ofNat 32 src)

/-- A Course reset is due at the next frame tick when the source's CRESET reaction is selected (R363). -/
def State.creset (s : State) (src : Nat) : State :=
  match faultCourse src with
  | some n => if s.rbit (regFAULT_CFG src) 1 then s.modCourse (fin 7 n) (fun c => { c with resetReq := true }) else s
  | none => s

/-- The MUTE and RELEASE reactions of a raising, under the settings then in force: the source is among the muting latches or is not, and a release is due (R363, R364, R377). -/
def State.reactions (s : State) (src : Nat) : State :=
  let c := s.reg (regFAULT_CFG src)
  let others := s.reactMute.filter fun r => r != src
  let s1 : State := { s with reactMute := if bit c 0 then others ++ [src] else others }
  if bit c 2 then { s1 with releaseReq := true } else s1

/-- The latch, class count and reactions of one raising (R363). -/
def State.latchFault (s : State) (src : Nat) : State :=
  let s1 := s.setRbit (regFAULT_LATCH (src / 32)) (src % 32)
  let s2 := s1.setReg regFAULT_CLASSCNT (satAdd (s1.reg regFAULT_CLASSCNT) (8 * faultClass src) 8 1)
  s2.reactions src

/-- The source that the record takes among those raised in one cycle with REC = 1: the highest class, then the lowest number (R366). -/
def State.firstFault (s : State) (srcs : List Nat) : Option Nat :=
  srcs.foldl (fun best src =>
    if s.rbit (regFAULT_CFG src) 8 then
      match best with
      | none => some src
      | some b => if faultClass b < faultClass src ∨ (faultClass b = faultClass src ∧ src < b) then some src else best
    else best) none

/-- The sources `srcs` are raised in one Ridge cycle: latches, class counts and reactions of each, then the record or FAULT.COUNT (R361, R363, R366, R367). `det` is the address and syndrome of a memory fault, with its INJ bit. -/
def State.raiseAll (s : State) (srcs : List Nat) (det : Option (Bool × Word × Word)) : State :=
  if srcs.isEmpty then s
  else
    let s1 := srcs.foldl State.latchFault s
    if s.rbit regFAULT_FFR0 31 then s1.count regFAULT_COUNT srcs.length
    else match s.firstFault srcs with
      | none => s1
      | some src =>
        let s2 := s1.count regFAULT_COUNT (srcs.length - 1)
        match det with
        | some (inj, a, y) => s2.recordFault src inj a y
        | none => s2.recordFault src false 0 0

/-- An occurrence of a fault source: a raising when its latch is clear, and the CRESET reaction at every occurrence (R361, R363). -/
def State.faultOccurs (s : State) (src : Nat) : State :=
  (if s.faultLatched src then s else s.raiseAll [src] none).creset src

/-- The level cause of a source begins: the live cause bit is set and the source is raised if its latch is clear (R361). -/
def State.causeBegins (s : State) (src : Nat) : State :=
  let s1 := s.setRbit (regFAULT_CAUSE (src / 32)) (src % 32)
  if s.rbit (regFAULT_CAUSE (src / 32)) (src % 32) then s1
  else if s.faultLatched src then s1 else (s1.raiseAll [src] none).creset src

/-- The level cause of a source ends (R361). -/
def State.causeEnds (s : State) (src : Nat) : State := s.putRbit (regFAULT_CAUSE (src / 32)) (src % 32) false

/-- A level cause follows a condition. -/
def State.setCause (s : State) (src : Nat) (b : Bool) : State := if b then s.causeBegins src else s.causeEnds src

/-! ## Memory checkers and injection (R369 to R371) -/

/-- A checker reports a corrected error: source 80 and FAULT.CORR_CNT (R369). INJ marks an error of the armed checker (R371). -/
def State.corrected (s : State) (inj : Bool) (det syn : Word) : State :=
  let s1 := s.count regFAULT_CORR_CNT 1
  if s1.faultLatched 80 then s1 else s1.raiseAll [80] (some (inj, det, syn))

/-- A checker reports an uncorrectable error: source 96 + k with its address and syndrome (R369). -/
def State.uncorrectable (s : State) (k : Nat) (inj : Bool) (det syn : Word) : State :=
  (if s.faultLatched (96 + k) then s else s.raiseAll [96 + k] (some (inj, det, syn))).creset (96 + k)

/-- The word of FAULT.FFSYN for checker `k` and a syndrome (R377). -/
def synWord (k syn : Nat) : Word := BitVec.ofNat 32 (k % 32 * 2 ^ 24 + syn % 256)

/-- A read of unit `u` of checker `k`: when that checker is armed for that unit, the check bits arrive with those of MASK inverted, so one bit is a corrected error and two an uncorrectable one; which of the two three or more bits give is open (R370; log entry 2). Stored data never change. -/
def State.memRead (s : State) (k u : Nat) : State :=
  let c := s.reg regFAULT_INJCTRL
  if bit c 31 ∧ (if fld c 16 5 > 21 then 0 else fld c 16 5) = k ∧ (s.reg regFAULT_INJADDR).toNat = u then
    let mask := if k = 17 then fld c 0 8 else fld c 0 7
    let n := popCount (BitVec.ofNat 32 mask)
    let det := BitVec.ofNat 32 u
    let syn := synWord k mask
    if n = 0 then s
    else if n = 1 then s.corrected true det syn
    else if n = 2 then s.uncorrectable k true det syn
    else
      let r := s.draw
      if bit r.1 0 then r.2.uncorrectable k true det syn else r.2.corrected true det syn
  else s

/-- The work of a block reads every unit of checker `k` for which `p` holds; only a read of the armed unit has an effect, and the units of the DRAM are even word indices (R369, R370). -/
def State.memTouch (s : State) (k : Nat) (p : Nat → Bool) : State :=
  let u := (s.reg regFAULT_INJADDR).toNat
  if s.rbit regFAULT_INJCTRL 31 && (k != 17 || u % 2 == 0) && p u then s.memRead k u else s

/-- The DRAM words `w` to `w + n - 1` are read (R369, R370). -/
def State.dramTouch (s : State) (w n : Nat) : State := s.memTouch 17 fun u => decide (0 < n) && decide (w ≤ u + 1) && decide (u < w + n)

/-- Whether a block reads the armed unit of checker `k` in the work at hand is open where the spec does not say which units it reads (R370; log entry 2). -/
def State.memMay (s : State) (k : Nat) (p : Nat → Bool) : State :=
  if s.rbit regFAULT_INJCTRL 31 && decide (s.rfld regFAULT_INJCTRL 16 5 = k) && p (s.reg regFAULT_INJADDR).toNat then
    let r := s.draw
    if bit r.1 0 then r.2.memTouch k p else r.2
  else s

/-- Successive unit reads of one checker. -/
def State.memReads (s : State) (k : Nat) (us : List Nat) : State := us.foldl (fun s u => s.memRead k u) s

/-! ## Refusals that the register blocks record -/

/-- An access to an unmapped address: source 0 (R17). -/
def State.unmapped (s : State) : State := s.faultOccurs 0

/-- A refused scratch access or handover request: SCR.ERR when it holds no valid record, SCR.ERR_CNT and source 2 (R112, R113, R117). -/
def State.scratchRefused (s : State) (kind m bank : Nat) (addr : Word) : State :=
  let s1 := if s.rbit regSCR_ERR 31 then s else
    (s.setReg regSCR_ERR (BitVec.ofNat 32 (0x80000000 + kind * 2 ^ 24 + m * 2 ^ 20 + bank * 256))).setReg regSCR_ERR_ADDR addr
  (s1.count regSCR_ERR_CNT 1).faultOccurs 2

/-- RIDGE.ERR when it holds no valid record, and RIDGE.ERR_CNT: an access refused under R119 or for lack of a path (R136). -/
def State.ridgeRecord (s : State) (cause m : Nat) (write : Bool) (addr : Word) : State :=
  let s1 := if s.rbit regRIDGE_ERR 31 then s else
    (s.setReg regRIDGE_ERR (BitVec.ofNat 32 (0x80000000 + cause * 2 ^ 24 + m * 2 ^ 20 + b2n write))).setReg regRIDGE_ERR_ADDR addr
  s1.count regRIDGE_ERR_CNT 1

/-- A refusal under R119 is recorded and raises source 1. -/
def State.ridgeRefused (s : State) (cause m : Nat) (write : Bool) (addr : Word) : State :=
  (s.ridgeRecord cause m write addr).faultOccurs 1

/-! ## Scratch ownership and the DRAM partition (R111 to R119) -/

/-- The owner code of a master; 16 for a master that never owns a bank (R111). -/
def ownerCode (m : Nat) : Nat :=
  if m ≤ 7 then m else if m = 9 then 8 else if m = 10 then 9 else if m = 11 then 10 else 16

/-- The handover of a bank is in progress (R114). -/
def State.scrPend (s : State) (b : Nat) : Bool := s.rbit (regSCR_OWN b) 31

/-- The owner code that the ports hold for a bank: the new owner from the acceptance of a handover on (R114). -/
def State.scrOwner (s : State) (b : Nat) : Nat :=
  if s.scrPend b then (mapFind s.newOwner b).getD 15 else s.rfld (regSCR_OWN b) 0 4

/-- Master `m` may access bank `b` (R112). -/
def State.scrMay (s : State) (m b : Nat) : Bool := decide (s.scrOwner b = ownerCode m)

/-- The region of R118 that holds a DRAM word index, if any. -/
def State.dramRegion (s : State) (w : Nat) : Option Nat :=
  (List.range 5).find? fun r =>
    let p := s.reg (regDLY_PART r)
    let base := fld p 0 13 * 262144
    decide (base ≤ w) && decide (w < base + fld p 16 14 * 262144)

/-- The rights of R119: master `m` (8 is the DLY.MOVE engine; the tap engine is not asked) reads or writes region `r`. -/
def regionMay (r m : Nat) (write : Bool) : Bool :=
  match r with
  | 0 => decide (m = 10) && !write
  | 1 => decide (m ≤ 11)
  | 2 => decide (m ≤ 8) || ((decide (m = 9) || decide (m = 10)) && !write)
  | 3 => if write then decide (m = 10) || decide (m = 11) else decide (m ≤ 7) || decide (m = 10) || decide (m = 11) || decide (m = 12)
  | 4 => decide (m ≤ 11)
  | _ => false

/-- Why master `m` may not access a DRAM word: 1 unpartitioned, 2 region not permitted (R119, R136). -/
def State.dramRefusal (s : State) (m w : Nat) (write : Bool) : Option Nat :=
  match s.dramRegion w with
  | none => some 1
  | some r => if regionMay r m write then none else some 2

/-- The DRAM channel of a word: 256-byte blocks alternate (R118). -/
def dramChannel (w : Nat) : Fin 2 := fin 1 (w / 64 % 2)

/-- Master `m` accesses a scratch bank: it may have waited there (R117). -/
def State.scrTouch (s : State) (m : Nat) : State := if s.scrUsed.contains m then s else { s with scrUsed := s.scrUsed ++ [m] }

/-- A scratch word: bank and word (R111). -/
def State.scratchGet (s : State) (b w : Nat) : Word := memWord s.scratch (b * 65536 + w)

/-- A data-space word address lies in a range of a move (R106). -/
def Move.covers (m : Move) (a : Nat) : Bool :=
  (decide (m.src ≤ a) && decide (a < m.src + m.len)) || (decide (m.dst ≤ a) && decide (a < m.dst + m.len))

/-- The written words of running moves, once a master other than the delay controller has written data-space word `a` (R106). -/
def State.raceAt (s : State) (a : Nat) : List (Nat × Nat × Nat) :=
  s.raced ++ courseIds.flatMap fun n => (s.course n).moves.filterMap fun m =>
    if decide (m.st = .running) && m.covers a && !s.raced.contains (n.val, m.ticket, a) then some (n.val, m.ticket, a) else none

/-- A scratch word is written. -/
def State.scratchSet (s : State) (b w : Nat) (v : Word) : State :=
  { s with scratch := memSetWord s.scratch (b * 65536 + w) v, raced := s.raceAt (0x00400000 + b * 65536 + w) }

/-- A DRAM word (R118). -/
def State.dramGet (s : State) (w : Nat) : Word := memWord s.dram w

/-- A DRAM word is written by the delay controller. -/
def State.dramPut (s : State) (w : Nat) (v : Word) : State := { s with dram := memSetWord s.dram w v }

/-- A DRAM word is written by any other master. -/
def State.dramSet (s : State) (w : Nat) (v : Word) : State := { s.dramPut w v with raced := s.raceAt (0x80000000 + w) }

/-- The first DRAM word of a region (R119). -/
def State.regionBase (s : State) (r : Nat) : Nat := s.rfld (regDLY_PART r) 0 13 * 262144

/-- The words of a region (R119). -/
def State.regionSize (s : State) (r : Nat) : Nat := s.rfld (regDLY_PART r) 16 14 * 262144

end Sys2Proof.Machine
end

