-- ==== Sys2Proof/Machine/Fade.lean ====
section
/-! DEFINITION. The crossfade arithmetic of R125 and R126, the gain ramp of R147, and the levels of R221 and R364, shared by taps, selectors, sections, crosspoints and outputs. -/

namespace Sys2Proof.Machine

/-- The weight g of frame c + t of a crossfade of length f (R125): 2^31 stands for 1.0. -/
def fadeWeight (t f : Nat) : Nat := if f ≤ t then 2 ^ 31 else (t + 1) * 2 ^ 31 / f

/-- A member pair combined with weight g (R125). -/
def fadePair (old new : Int) (g : Nat) : Int := rconv (old * 2 ^ 31 + g * (new - old)) 31

/-- A crossfader with one member (R126). -/
def Fade.single {M : Type} (m : M) : Fade M := { base := m, runs := [] }

/-- The members, oldest first. -/
def Fade.members {M : Type} (f : Fade M) : List M := f.base :: f.runs.map (·.1)

/-- The number of members (R126). -/
def Fade.size {M : Type} (f : Fade M) : Nat := f.members.length

/-- The newest member. -/
def Fade.newest {M : Type} (f : Fade M) : M := (f.runs.getLast?.map (·.1)).getD f.base

/-- The weight in frame `k` of a crossfade that began at frame `start`, where another begins at frame `next`: from then on it stays at its value of the frame before (R126). -/
def runWeight (k start len : Nat) (next : Option Nat) : Nat :=
  match next with
  | some c => if c ≤ k then (if c ≤ start then 0 else fadeWeight (c - 1 - start) len) else fadeWeight (k - start) len
  | none => fadeWeight (k - start) len

/-- The members that have started combine with a value in turn (R125, R126). -/
def runsValue {M : Type} (get : M → Int) (k : Nat) : List (M × Nat × Nat) → Int → Int
  | [], y => y
  | r :: rest, y =>
    if k < r.2.1 then y
    else runsValue get k rest (fadePair y (get r.1) (runWeight k r.2.1 r.2.2 (rest.head?.map (·.2.1))))

/-- The value delivered in a frame, from the sample of each member (R125, R126). It depends on the frames alone, so a frame before a later change reads as it did before that change (R33, R37). -/
def Fade.value {M : Type} (f : Fade M) (get : M → Int) (frame : Nat) : Int := runsValue get frame f.runs (get f.base)

/-- A crossfade to a new member starts at frame `c` (R126). -/
def Fade.begin {M : Type} (f : Fade M) (c : Nat) (m : M) (len : Nat) : Fade M := { f with runs := f.runs ++ [(m, c, len)] }

/-- The newest crossfade has delivered its last frame before frame `k` (R123). -/
def Fade.over {M : Type} (f : Fade M) (k : Nat) : Bool :=
  match f.runs.getLast? with
  | none => false
  | some (_, start, len) => decide (start + len ≤ k)

/-- The crossfade ends: the newest member alone remains (R123, R126). -/
def Fade.finish {M : Type} (f : Fade M) : Fade M := Fade.single f.newest

/-- The newest member whose crossfade ended by frame `k`, before another began, with the members after it: all earlier members have retired (R126). -/
def lastDone {M : Type} (k : Nat) : List (M × Nat × Nat) → Option (M × List (M × Nat × Nat))
  | [] => none
  | r :: rest =>
    match lastDone k rest with
    | some d => some d
    | none => if r.2.1 + r.2.2 ≤ (match rest.head? with | some n => Nat.min k n.2.1 | none => k) then some (r.1, rest) else none

/-- The crossfader with the members that are left in frame `k` (R123, R126). -/
def Fade.live {M : Type} (f : Fade M) (k : Nat) : Fade M :=
  match lastDone k f.runs with
  | some (m, rest) => { base := m, runs := rest }
  | none => f

/-- The number of members in frame `k`, whether or not the end of a crossfade has been commanded (R126). -/
def Fade.sizeAt {M : Type} (f : Fade M) (k : Nat) : Nat := (f.live k).size

/-- Each member that has started by frame `k` changed by `g`, each other by `h`. -/
def Fade.mapAt {M N : Type} (f : Fade M) (k : Nat) (g h : M → N) : Fade N :=
  { base := g f.base, runs := f.runs.map fun r => (if r.2.1 ≤ k then g r.1 else h r.1, r.2) }

/-- Each member changed by `g`. -/
def Fade.map {M N : Type} (f : Fade M) (g : M → N) : Fade N :=
  { base := g f.base, runs := f.runs.map fun r => (g r.1, r.2) }

/-- The turns of waiting changes: by commit frame, earliest first, then by number (R402). -/
def insertTurn (e : Nat × Nat) : List (Nat × Nat) → List (Nat × Nat)
  | [] => [e]
  | d :: t => if e.1 < d.1 ∨ (e.1 = d.1 ∧ e.2 < d.2) then e :: d :: t else d :: insertTurn e t

/-- The numbers of waiting changes, given with their commit frames, in the order of their turns (R402). -/
def turnOrder (l : List (Nat × Nat)) : List Nat := (l.foldl (fun t e => insertTurn e t) []).map (·.2)

/-- A gain ramp from g0 to g1 over n frames, t frames after its start (R147). -/
def rampGain (g0 g1 t n : Nat) : Nat :=
  if n ≤ t then g1 else ((g0 : Int) + rconv ((((t + 1) * 2 ^ 31 / n : Nat) : Int) * ((g1 : Int) - g0)) 31).toNat

/-- A value scaled by slot level, port level and mute level (R221, R364). -/
def levelled (x : Word) (l v m : Nat) : Word := ofInt (rconv (x.toInt * l * v * m) 18)

/-- A level steps by 1 towards its target (R221, R364). -/
def stepTo (level target : Nat) : Nat :=
  if level < target then level + 1 else if target < level then level - 1 else level

end Sys2Proof.Machine
end

