-- ==== Sys2Proof/Machine/Meter.lean ====
section
/-! DEFINITION. Meters: settings, the work of a frame, the readings (R158 to R162). -/

namespace Sys2Proof.Machine

/-- Fi in frames per millisecond: 96 or 48 (R23). -/
def State.framesPerMs (s : State) : Nat := if s.rbit regGLOBAL_RATE 0 then 48 else 96

/-- Fi in Hz (R23). -/
def State.fi (s : State) : Nat := s.framesPerMs * 1000

/-- The address of settings word `w` of a meter point (R158). -/
def meterAddr (p w : Nat) : Nat := 0x01300000 + 16 * p + 4 * w

/-- The meter points with EN = 1, in ascending order (R158). -/
def State.metersOn (s : State) : List Nat :=
  s.tab.filterMap fun e =>
    if 0x01300000 ≤ e.1 ∧ e.1 < 0x01310000 ∧ (e.1 - 0x01300000) % 16 = 0 ∧ bit e.2 31 then some ((e.1 - 0x01300000) / 16) else none

/-- The bus value of frame `k` (R54). -/
def State.busOf (s : State) (k b : Nat) : Word := wmGet s.bus (k % 2 * 1024 + b)

/-- The chain is enabled (R153). -/
def State.chainOn (s : State) (c : Nat) : Bool := bit (s.tabGet (0x01280000 + 8 * c)) 31

/-- The output of a chain; zero for a disabled chain (R142). -/
def State.chainWord (s : State) (c : Nat) : Word := if s.chainOn c then wmGet s.chainOut c else 0

/-- The value that a meter point observes in the meter work of frame `k` (R142, R159). -/
def State.meterInput (s : State) (k sel : Nat) : Word :=
  match sel / 16384 % 4 with
  | 1 => s.busOf k (sel % 1024)
  | 2 => s.chainWord (sel % 2048)
  | 3 => wmGet s.mixFeeds (sel % 2048)
  | _ => 0

/-- The four phases of the interpolation filter in Q1.31, newest sample first: the 48 coefficients of ITU-R BS.1770-4, Annex 2 (R160; PRESUMED, log entry 6). -/
def truePeakPhases : List (List Int) :=
  let p0 : List Int := [3670016, 23592960, -42205184, 71303168, -127664128, 294912000, 2087714816, -219676672, 102236160, -57147392, 31981568, -17825792]
  let p1 : List Int := [-62652416, 62914560, -111149056, 191365120, -357564416, 998768640, 1674575872, -430178304, 218103808, -125042688, 71041024, -40632320]
  [p0, p1, p1.reverse, p0.reverse]

/-- The magnitude |v| of a value with q more fractional bits than Q2.30, rounded convergently (R160). -/
def magnitude (v : Int) (q : Nat) : Nat := (rconv v.natAbs q).toNat

/-- The sum of the products of two lists. -/
def dotInt : List Int → List Int → Int
  | a :: as, b :: bs => a * b + dotInt as bs
  | _, _ => 0

/-- The true magnitude m_t over the last twelve observed values, newest first (R160). -/
def trueMagnitude (hist : List Word) : Nat :=
  (truePeakPhases.map fun ph => magnitude (dotInt ph (hist.map BitVec.toInt)) 32).foldl Nat.max 0

/-- A meter point after a reset (R159). -/
def meterZero : Meter := { sp := 0, tp := 0, hp := 0, th := 0, r := 0, hist := [] }

/-- One update of a meter point on the observed value, with D, C, HOLD_TP and the hold time in frames (R160, R161). -/
def meterStep (m : Meter) (x : Word) (d c nh : Nat) (holdTp : Bool) : Meter :=
  let hist := (x :: m.hist).take 12
  let sp := Nat.max (magnitude x.toInt 1) (m.sp * d / 2 ^ 32)
  let tp := Nat.max (trueMagnitude hist) (m.tp * d / 2 ^ 32)
  let src := if holdTp then tp else sp
  let e : Int := 2 * x.toInt * x.toInt
  let r := ((m.r : Int) + (e - m.r) * c / 2 ^ 32).toNat
  let (hp, th) := if m.hp ≤ src then (src, nh) else if 0 < m.th then (m.hp, m.th - 1) else (m.hp * d / 2 ^ 32, 0)
  { sp := sp, tp := tp, hp := hp, th := th, r := r, hist := hist }

/-- The hold time of a point in frames; HOLD_MS above 10,000 acts as 10,000 (R158, R160). -/
def State.holdFrames (s : State) (p : Nat) : Nat :=
  Nat.min 10000 (fld (s.tabGet (meterAddr p 3)) 0 14) * s.framesPerMs

/-- The meter work of frame `k` on one point (R159 to R161). -/
def State.meterPoint (s : State) (k p : Nat) : State :=
  let w0 := s.tabGet (meterAddr p 0)
  let m := (mapFind s.meters p).getD meterZero
  let m' := meterStep m (s.meterInput k (fld w0 0 16)) (s.tabGet (meterAddr p 1)).toNat (s.tabGet (meterAddr p 2)).toNat
    (s.holdFrames p) (bit w0 30)
  { s with meters := mapIns (mapDel s.meters p) p m' }

/-- The meter work of frame `k` (R25, R160, R166). -/
def State.meterWork (s : State) (k : Nat) : State :=
  let ps := s.metersOn
  (ps.foldl (fun s p => s.meterPoint k p) s).setRfld regMTR_STATUS 0 13 ps.length

/-- A meter point is reset (R159). -/
def State.meterReset (s : State) (p : Nat) : State := { s with meters := mapDel s.meters p }

/-- Word `w` of a meter reading: followers, power and held peak; zero while EN = 0, and while the meters have no clock in SLEEP (R159, R162, R306). -/
def State.meterWord (s : State) (p w : Nat) : Word :=
  let m := (mapFind s.meters p).getD meterZero
  if bit (s.tabGet (meterAddr p 0)) 31 && !s.gatedOff 10 then
    BitVec.ofNat 32 (match w with | 0 => m.sp | 1 => m.tp | 2 => m.r / 2 ^ 32 | _ => m.hp)
  else 0

end Sys2Proof.Machine
end

