-- ==== Sys2Proof/Machine/Section.lean ====
section
/-! DEFINITION. Equaliser sections: coefficients, the transposed direct form II step, the coefficient crossfade, and EQ.SOS (R105, R151 to R157). -/

namespace Sys2Proof.Machine

/-- Saturation to 64 bits signed (R152). -/
def sat64 (x : Int) : Int :=
  if x > 2 ^ 63 - 1 then 2 ^ 63 - 1 else if x < -(2 ^ 63) then -(2 ^ 63) else x

/-- The address of word `w` of section `s` (R151). -/
def secAddr (s w : Nat) : Nat := 0x01200000 + 32 * s + 4 * w

/-- A member with the active coefficients of a section (R151). -/
def State.secCoef (st : State) (s : Nat) (z : Option (Int × Int)) : SecMember :=
  { b0 := st.tabGet (secAddr s 0), b1 := st.tabGet (secAddr s 1), b2 := st.tabGet (secAddr s 2),
    a1 := st.tabGet (secAddr s 3), a2 := st.tabGet (secAddr s 4), st := z }

/-- A section: listed, or one member with cleared state. -/
def State.sec (st : State) (s : Nat) : Section :=
  (mapFind st.secs s).getD { fade := Fade.single (st.secCoef s (some (0, 0))), waiting := none }

/-- The result of one member step: the member after it, its output, and whether output or state saturated (R152). -/
structure SecStep where
  m : SecMember
  y : Int
  ysat : Bool
  ssat : Bool
deriving DecidableEq, Repr

/-- One step of a member on input x (R152). -/
def secStep (m : SecMember) (x : Int) : SecStep :=
  let z := m.st.getD (0, 0)
  let w := rconv (m.b0.toInt * x + z.1) 29
  let y := sat32 w
  let e1 := m.b1.toInt * x - m.a1.toInt * y + z.2
  let e2 := m.b2.toInt * x - m.a2.toInt * y
  { m := { m with st := some (sat64 e1, sat64 e2) }, y := y, ysat := decide (w ≠ y), ssat := decide (sat64 e1 ≠ e1) || decide (sat64 e2 ≠ e2) }

/-- New members that have started by `frame` take a copy of the state of the member before them, as it was at the end of the frame before (R155). -/
def fillRuns (frame : Nat) (prev : Option (Int × Int)) : List (SecMember × Nat × Nat) → List (SecMember × Nat × Nat)
  | [] => []
  | r :: rest =>
    let m := if r.1.st.isNone ∧ r.2.1 ≤ frame then { r.1 with st := prev } else r.1
    (m, r.2) :: fillRuns frame m.st rest

/-- A section as it steps in the work of a frame: the members left, each that has started with its state (R155). -/
def Section.ready (c : Section) (frame : Nat) : Section :=
  let f := c.fade.live frame
  { c with fade := { f with runs := fillRuns frame f.base.st f.runs } }

/-- A member that has not started does not step. -/
def secIdle (m : SecMember) : SecStep := { m := m, y := 0, ysat := false, ssat := false }

/-- One step of a section in the work of a frame: every member that has started steps, the outputs are combined, and every saturating step is noted (R152, R155). -/
def State.stepSection (st : State) (s : Nat) (frame : Nat) (x : Int) : Int × State :=
  let st := st.memTouch 19 fun u => u / 16 == s && u % 16 < 8
  let c := (st.sec s).ready frame
  let stepped := c.fade.mapAt frame (fun m => secStep m x) secIdle
  let y := stepped.value (·.y) frame
  let c' : Section := { c with fade := stepped.map (·.m) }
  let n := (stepped.members.filter fun r => r.ysat || r.ssat).length
  let s1 := { st with secs := mapIns (mapDel st.secs s) s c' }
  let s2 := if stepped.members.any (·.ysat) then s1.setRbit regEQ_STATUS 30 else s1
  let s3 := if stepped.members.any (·.ssat) then s2.setRbit regEQ_STATUS 29 else s2
  if n = 0 then (y, s3)
  else
    let s4 := s3.count regEQ_SAT_CNT n
    let low := match mapFind s4.eqSat frame with
      | some t => Nat.min t s
      | none => s
    (y, { s4 with eqSat := mapIns (mapDel s4.eqSat frame) frame low })

/-- FIRST of the binding of Course `n` (R165). -/
def State.bindFirst (s : State) (n : CourseId) : Nat := s.rfld (regEQ_BIND n) 0 14

/-- COUNT of the binding of Course `n` (R165). -/
def State.bindCount (s : State) (n : CourseId) : Nat := s.rfld (regEQ_BIND n) 14 9

/-- A Course reset retires every member of its bound sections but the newest, and clears the state of that one (R157). -/
def State.clearBound (s : State) (n : CourseId) : State :=
  let lo := s.bindFirst n
  let hi := lo + s.bindCount n
  { s with secs := s.secs.map fun e =>
      if lo ≤ e.1 ∧ e.1 < hi then (e.1, { e.2 with fade := Fade.single { e.2.fade.newest with st := some (0, 0) } }) else e }

end Sys2Proof.Machine
end

