-- ==== Sys2Proof/Machine/Eq.lean ====
section
/-! DEFINITION. The equaliser array: chains and their work in a frame (R153), coefficient changes of sections (R155, R156), the saturation record (R152); and the read of a meter reading (R162). -/

namespace Sys2Proof.Machine

/-- The enabled chains, ascending (R153). -/
def State.chainsOn (s : State) : List Nat :=
  s.tab.filterMap fun e =>
    if 0x01280000 ≤ e.1 ∧ e.1 < 0x01284000 ∧ e.1 % 8 = 0 ∧ bit e.2 31 then some ((e.1 - 0x01280000) / 8) else none

/-- Word 0 of a chain (R153). -/
def State.chainCfg (s : State) (c : Nat) : Word := s.tabGet (0x01280000 + 8 * c)

/-- The first section of a chain. -/
def State.chainFirst (s : State) (c : Nat) : Nat := fld (s.chainCfg c) 0 14

/-- The number of sections of a chain. -/
def State.chainCount (s : State) (c : Nat) : Nat := fld (s.chainCfg c) 14 8

/-- The sections `first` to `first + n - 1` step in order, each on the output of the one before (R153). -/
def State.stepSections (st : State) : Nat → Nat → Nat → Int → Int × State
  | 0, _, _, x => (x, st)
  | n + 1, first, frame, x =>
    let r := st.stepSection first frame x
    r.2.stepSections n (first + 1) frame r.1

/-- One chain in the work of frame `k`: from bus BUS of frame k - 1 to the chain output (R153). -/
def State.chainStep (s : State) (k c : Nat) : State :=
  let b := fld (s.tabGet (0x01280000 + 8 * c + 4)) 0 10
  let x := if k = 0 then 0 else (s.busOf (k - 1) b).toInt
  let r := s.stepSections (s.chainCount c) (s.chainFirst c) k x
  { r.2 with chainOut := wmSet r.2.chainOut c (ofInt r.1) }

/-- The array's work of frame `k` (R25, R153). -/
def State.eqWork (s : State) (k : Nat) : State := s.chainsOn.foldl (fun s c => s.chainStep k c) s

/-! ## Coefficient changes -/

/-- The enabled chain that names a section, if any (R154). -/
def State.chainOf (s : State) (sec : Nat) : Option Nat :=
  s.chainsOn.find? fun c => decide (s.chainFirst c ≤ sec) && decide (sec < s.chainFirst c + s.chainCount c)

/-- The Course to which a section is bound, if any (R157). -/
def State.bindOf (s : State) (sec : Nat) : Option CourseId :=
  courseIds.find? fun n => decide (s.bindFirst n ≤ sec) && decide (sec < s.bindFirst n + s.bindCount n)

/-- The commit group of a section: its chain's, its binding's, or 0 (R155, R167). -/
def State.secGroup (s : State) (sec : Nat) : Nat :=
  match s.chainOf sec with
  | some c => fld (s.chainCfg c) 24 5
  | none => match s.bindOf sec with
    | some n => s.rfld (regEQ_BIND n) 24 5
    | none => 0

/-- A section is replaced. -/
def State.setSec (s : State) (sec : Nat) (v : Section) : State := { s with secs := mapIns (mapDel s.secs sec) sec v }

/-- Members beyond the first of each section in frame `k` (R156, R165). -/
def State.secExtra (s : State) (k : Nat) : Nat := (s.secs.map fun e => e.2.fade.sizeAt k - 1).sum

/-- A section may take a further member in frame `k`: at most four, and the reserve of 2,048 (R156). -/
def State.secRoom (s : State) (sec k : Nat) : Bool := decide ((s.sec sec).fade.sizeAt k < 4) && decide (s.secExtra k < 2048)

/-- A new member with the active coefficients starts at frame `c`; its state is that of the newest member at the end of frame c - 1, taken at its first step (R155). -/
def State.secBegin (s : State) (sec c : Nat) : State :=
  let v := s.sec sec
  s.setSec sec { fade := v.fade.begin c (s.secCoef sec none) (s.xfadeLen (s.secGroup sec)), waiting := none }

/-- A coefficient change due at commit frame `c` starts, or waits and is counted: EQ.DEFER_CNT and EV44 (R155, R156, R194, R402). -/
def State.secChange (s : State) (sec c : Nat) : State :=
  if s.secRoom sec c then s.secBegin sec c
  else ((s.setSec sec { s.sec sec with waiting := some c }).count regEQ_DEFER_CNT 1).raiseEvent 44 (BitVec.ofNat 32 sec)

/-- The first frame that a section has not yet stepped: that of its Course for a bound section, the current frame for the array (R153, R157). -/
def State.secFrame (s : State) (sec : Nat) : Nat :=
  match s.bindOf sec with
  | some n => (s.course n).frame
  | none => s.now

/-- SECTION_CROSSFADE_END (R155): after its last frame a coefficient crossfade ends and the members it replaced retire. -/
def execSectionCrossfadeEnd (sec : Fin 16384) (s : State) : Host.Outcome State Fault Refusal :=
  .next (
    let v := s.sec sec.val
    if v.fade.over (s.secFrame sec.val) then s.setSec sec.val { v with fade := v.fade.finish } else s)

/-- The array's and every Course's work of frame `k` is complete (R152). -/
def State.eqFrameDone (s : State) (k : Nat) : Bool :=
  decide (k < s.now) && courseIds.all fun n =>
    let c := s.course n
    decide (k < c.frame) || decide (c.phase = .halted) || decide (c.phase = .reset)

/-- EQ_SAT_RECORD (R152): the oldest complete frame with a saturating step is recorded in EQ.SAT_SEC if that holds no valid record. Without such a frame nothing happens. -/
def execEqSatRecord (s : State) : Host.Outcome State Fault Refusal :=
  .next (match s.eqSat with
    | [] => s
    | e :: t =>
      if s.eqFrameDone e.1 then
        let s1 : State := { s with eqSat := t }
        if s1.rbit regEQ_SAT_SEC 31 then s1 else s1.setReg regEQ_SAT_SEC (BitVec.ofNat 32 (0x80000000 + e.2))
      else s)

/-- The address of word `w` of the readings of a meter point (R158). -/
def readingAddr (p w : Nat) : Nat := 0x01310000 + 16 * p + 4 * w

/-- METER_READING_WORD0_READ (R162): word 0 is returned, and words 1 to 3 are latched for the master. -/
def execMeterReadingWord0Read (m : Master) (p : Fin 4096) (s : State) : Host.Outcome State Fault Refusal :=
  .next (
    let s1 := [1, 2, 3].foldl (fun (t : State) w => t.setLatch m.val (readingAddr p.val w) (s.meterWord p.val w)) s
    s1.returnTo m.val (s.meterWord p.val 0))

end Sys2Proof.Machine
end

