-- ==== Sys2Proof/Machine/Flags.lean ====
section
/-! DEFINITION. The flag computations of the ALU class (R93, R94) and the positions of the FLAGS fields (R63). -/

namespace Sys2Proof.Machine

/-- FLAGS.ILLEGAL (R63). -/
def flagILLEGAL : Word := 0x80000000#32
/-- FLAGS.AV (R63). -/
def flagAV : Word := 0x40000000#32
/-- FLAGS.SV (R63). -/
def flagSV : Word := 0x20000000#32
/-- FLAGS.DERR (R63). -/
def flagDERR : Word := 0x10000000#32
/-- N, Z, C and V (R63). -/
def flagNZCV : Word := 0x0000000F#32

/-- An ALU result with its C and V (R93). -/
structure AluOut where
  d : Word
  c : Bool
  v : Bool
deriving DecidableEq, Repr

/-- N, Z, C and V of a result (R94). -/
def nzcv (r : AluOut) : Word :=
  BitVec.ofNat 32 (b2n (bit r.d 31) * 8 + b2n (decide (r.d = 0)) * 4 + b2n r.c * 2 + b2n r.v)

/-- ADD: carry out and signed overflow (R93). -/
def aluAdd (a b : Word) : AluOut :=
  { d := a + b, c := decide (2 ^ 32 ≤ a.toNat + b.toNat), v := decide (sat32 (a.toInt + b.toInt) ≠ a.toInt + b.toInt) }

/-- SUB: borrow and signed overflow (R93). -/
def aluSub (a b : Word) : AluOut :=
  { d := a - b, c := decide (a.toNat < b.toNat), v := decide (sat32 (a.toInt - b.toInt) ≠ a.toInt - b.toInt) }

/-- ADDS: saturating, with the carry of the 32-bit sum (R93). -/
def aluAdds (a b : Word) : AluOut := { aluAdd a b with d := ofInt (sat32 (a.toInt + b.toInt)) }

/-- SUBS: saturating, with the borrow of the 32-bit difference (R93). -/
def aluSubs (a b : Word) : AluOut := { aluSub a b with d := ofInt (sat32 (a.toInt - b.toInt)) }

/-- A result that clears C and V (R93). -/
def aluLogic (d : Word) : AluOut := { d := d, c := false, v := false }

/-- ASR by n: C is the last bit shifted out, 0 when n = 0 (R93). -/
def aluAsr (a : Word) (n : Nat) : AluOut := { d := a.sshiftRight n, c := decide (n ≠ 0) && bit a (n - 1), v := false }

/-- LSR by n (R93). -/
def aluLsr (a : Word) (n : Nat) : AluOut := { d := a >>> n, c := decide (n ≠ 0) && bit a (n - 1), v := false }

/-- LSL by n (R93). -/
def aluLsl (a : Word) (n : Nat) : AluOut := { d := a <<< n, c := decide (n ≠ 0) && bit a (32 - n), v := false }

/-- ABS: V when a = 0x8000_0000 (R93). -/
def aluAbs (a : Word) : AluOut :=
  { d := ofInt (sat32 a.toInt.natAbs), c := false, v := decide (a = 0x80000000#32) }

/-- NEG: V when a = 0x8000_0000 (R93). -/
def aluNeg (a : Word) : AluOut := { d := ofInt (sat32 (-a.toInt)), c := false, v := decide (a = 0x80000000#32) }

/-- MIN, signed (R93). -/
def aluMin (a b : Word) : AluOut := aluLogic (if a.toInt ≤ b.toInt then a else b)

/-- MAX, signed (R93). -/
def aluMax (a b : Word) : AluOut := aluLogic (if a.toInt ≤ b.toInt then b else a)

/-- CLS: the number of bits below bit 31 that equal bit 31 before the first that differs (R93). -/
def clsCount (a : Word) : Nat :=
  ((List.range 31).takeWhile fun i => bit a (30 - i) == bit a 31).length

end Sys2Proof.Machine
end

