-- ==== Sys2Proof/Machine/Operands.lean ====
section
/-! DEFINITION. How a syllable names its operands: register rotation (R65, R86), the address forms and their arithmetic (R56 to R59), and the accumulator arithmetic (R60 to R62). -/

namespace Sys2Proof.Machine

/-! ## Registers of a context -/

/-- The physical register that Dk names: D16 to D31 rotate by ROT while MODE.ROTEN = 1 (R65, R86). -/
def Ctx.phys (c : Ctx) (k : Fin 32) : Fin 32 :=
  if bit c.mode 8 ∧ 16 ≤ k.val then fin 31 (16 + (k.val - 16 + fld c.rot 0 4) % 16) else k

/-- The value of Dk (R65). -/
def Ctx.dget (c : Ctx) (k : Fin 32) : Word := c.d.get (c.phys k)

/-- A register of a context other than an accumulator (R43). -/
def Ctx.get (c : Ctx) : CReg → Word
  | .d k => c.d.get k
  | .p i => c.p.get i
  | .n i => c.n.get i
  | .l i => c.l.get i
  | .k i => c.k.get i
  | .lc i => c.lc.get i
  | .rot => c.rot
  | .mode => c.mode
  | .flags => c.flags

/-- The bits of a register that hold state: reserved bits read zero and ignore writes, and PR0 always reads 1 (R43, R63, R64). -/
def CReg.mask : CReg → Word
  | .l _ => 0x00FFFFFF#32
  | .lc _ => 0x0000FFFF#32
  | .rot => 0x0000000F#32
  | .mode => 0x0000011F#32
  | .flags => 0xF000FE0F#32
  | _ => 0xFFFFFFFF#32

/-- The masked bits of a register take those of `v`. -/
def Ctx.put (c : Ctx) (r : CReg) (m v : Word) : Ctx :=
  let w := merge (c.get r) (m &&& r.mask) v
  match r with
  | .d k => { c with d := c.d.set k.val w k.isLt }
  | .p i => { c with p := c.p.set i.val w i.isLt }
  | .n i => { c with n := c.n.set i.val w i.isLt }
  | .l i => { c with l := c.l.set i.val w i.isLt }
  | .k i => { c with k := c.k.set i.val w i.isLt }
  | .lc i => { c with lc := c.lc.set i.val w i.isLt }
  | .rot => { c with rot := w }
  | .mode => { c with mode := w }
  | .flags => { c with flags := w }

/-- One result takes effect (R66, R67). -/
def Ctx.apply (c : Ctx) : RWrite → Ctx
  | .reg r m v => c.put r m v
  | .acc a v => { c with acc := c.acc.set a.val v a.isLt }
  | .accOut a v => { c with accOut := c.accOut.set a.val v a.isLt }

/-- One bundle has issued: every result in flight comes one bundle nearer, and those that arrive take effect in issue order (R66 to R68). -/
def Ctx.advance (c : Ctx) : Ctx :=
  let c1 := (c.flight.filter fun f => decide (f.left ≤ 1)).foldl (fun c f => c.apply f.w) c
  { c1 with flight := (c.flight.filter fun f => decide (1 < f.left)).map fun f => { f with left := f.left - 1 } }

/-- Every result in flight is written, in the order of arrival (R70, R102); the longest latency is 8 bundles. -/
def Ctx.drain (c : Ctx) : Ctx := ((((((((c.advance).advance).advance).advance).advance).advance).advance).advance)

/-- The predicate PRp, inverted when `pn` (R63, R93). -/
def Ctx.pred (c : Ctx) (p : Fin 8) (pn : Bool) : Bool := bit c.flags (8 + p.val) != pn

/-! ## Address units -/

/-- The modes of R56. -/
inductive AddrMode where
  | linear
  | modulo
  | bitrev
deriving DecidableEq, Repr

/-- The mode of a channel; the reserved encoding is linear (R56). -/
def addrMode (amode : Word) (i : Fin 16) : AddrMode :=
  match fld amode (2 * i.val) 2 with
  | 1 => .modulo
  | 2 => .bitrev
  | _ => .linear

/-- log2 of the bit-reversed size: the largest power of two not above Li (R59). -/
def brBits (l : Nat) : Nat := Nat.log2 l

/-- The low `n` bits of a number reversed (R57). -/
def bitRev : Nat → Nat → Nat
  | 0, _ => 0
  | n + 1, x => x % 2 * 2 ^ n + bitRev n (x / 2)

/-- ea(x) of R57, with base k and length l. -/
def eaddr (m : AddrMode) (k : Word) (l : Nat) (x : Int) : Word :=
  if l = 0 then ofInt x
  else match m with
    | .linear => ofInt x
    | .modulo => ofInt (k.toNat + (x - k.toNat) % l)
    | .bitrev => ofInt (k.toNat + (x - k.toNat) % (2 ^ brBits l : Nat))

/-- next(p, o) of R57. -/
def nextPtr (m : AddrMode) (k : Word) (l : Nat) (p : Word) (o : Int) : Word :=
  if l = 0 then ofInt (p.toNat + o)
  else match m with
    | .linear => ofInt (p.toNat + o)
    | .modulo => ofInt (k.toNat + ((p.toNat : Int) + o - k.toNat) % l)
    | .bitrev =>
      let n := brBits l
      let b : Nat := 2 ^ n
      let u := ((p.toNat : Int) - k.toNat) % b
      ofInt (k.toNat + bitRev n ((bitRev n u.toNat + bitRev n (o % b).toNat) % b))

/-- The step Ni as a signed number (R43). -/
def Ctx.step (c : Ctx) (i : Fin 16) : Int := (c.n.get i).toInt

/-- The address x that a form names, before ea (R57). -/
def formBase (c : Ctx) (i : Fin 16) : Form → Int
  | .indexN => (c.p.get i).toNat + c.step i
  | .disp d => (c.p.get i).toNat + d.toInt
  | _ => (c.p.get i).toNat

/-- The pointer that a form leaves, when it changes it (R57). -/
def formNext (c : Ctx) (m : AddrMode) (i : Fin 16) (f : Form) : Option Word :=
  let go (o : Int) := some (nextPtr m (c.k.get i) (fld (c.l.get i) 0 24) (c.p.get i) o)
  match f with
  | .postInc => go 1
  | .postDec => go (-1)
  | .postAddN => go (c.step i)
  | .postSubN => go (-(c.step i))
  | _ => none

/-- The word addresses of an access of `n` words: ea(x + j), or ea(x) + j in bit-reversed mode (R58, R59). -/
def accessAddrs (c : Ctx) (m : AddrMode) (i : Fin 16) (f : Form) (n : Nat) : List Nat :=
  let l := fld (c.l.get i) 0 24
  let x := formBase c i f
  (List.range n).map fun j =>
    if m = .bitrev ∧ l ≠ 0 then (eaddr m (c.k.get i) l x + BitVec.ofNat 32 j).toNat
    else (eaddr m (c.k.get i) l (x + j)).toNat

/-! ## Accumulators (R60 to R62) -/

/-- The exact product of two words as an integer of 2^-62 steps (R60). -/
def prod (a b : Word) : Int := a.toInt * b.toInt

/-- A data value lifted to the accumulator (R62). -/
def lift (a : Word) : Int := a.toInt * 2 ^ 31

/-- The accumulator value that an exact result wraps to (R60). -/
def wrapAcc (x : Int) : Acc := BitVec.ofInt 80 x

/-- The exact result lies outside the Q18.62 range (R60). -/
def accOver (x : Int) : Bool := decide (x < -(2 ^ 79)) || decide (x > 2 ^ 79 - 1)

/-- A scaling shift as a signed number (R61). -/
def shiftOf (s : BitVec 5) : Int := s.toInt

/-- MODE.SHIFT (R64). -/
def Ctx.modeShift (c : Ctx) : Int := (c.mode.extractLsb' 0 5).toInt

/-- conv(v, s) of R61: shift, convergent rounding, saturation; with the saturation flag. -/
def convAcc (v : Acc) (s : Int) : Word × Bool :=
  let w := rconv v.toInt (31 - s).toNat
  (ofInt (sat32 w), decide (w ≠ sat32 w))

end Sys2Proof.Machine
end

