-- ==== Sys2Proof/Machine/Access.lean ====
section
/-! DEFINITION. The data space and the I/O space of a Course: what each context may reach (R50 to R55), local memory, coefficient pages, mailbox and feed windows, bus window, and the classification of Ridge accesses (R112, R115, R119, R130). -/

namespace Sys2Proof.Machine

/-- Why an access is refused: by R50, R52 or R53 alone; at the scratch ownership check; by the DRAM partition; or for lack of a path. -/
inductive RefKind where
  | plain
  | scratch (bank addr : Nat)
  | dram (cause addr : Nat)
  | noPath (addr : Nat)
deriving DecidableEq, Repr

/-- What an access reaches: the Course itself, the Ridge, or a refusal. -/
inductive Target where
  | near
  | ridge (r : RidgeReq)
  | refused (k : RefKind)
deriving DecidableEq, Repr

/-- A refused access: DERR in STATUS, source 8 + n, and the record of the refusing port (R55, R112, R119). FLAGS.DERR is set by the bundle. -/
def State.derr (s : State) (n : CourseId) (x : CtxId) (k : RefKind) (write : Bool) : State :=
  let s1 := match k with
    | .plain => s
    | .scratch b a => s.scratchRefused 0 n.val b (BitVec.ofNat 32 a)
    | .dram c a => s.ridgeRefused c n.val write (BitVec.ofNat 32 a)
    | .noPath a => s.ridgeRecord 0 n.val write (BitVec.ofNat 32 a)
  (s1.setRbit (regC_STATUS n) (match x with | .fg => 18 | .bg => 19)).faultOccurs (8 + n.val)

/-- An access to a target that no path reaches is recorded and refused as an unmapped access: under R55 for a Course, under R17 for any other master (R130, R136). -/
def State.pathless (s : State) (m : Master) (a : Nat) (write : Bool) : State :=
  if m.val ≤ 7 then
    (s.derr (fin 7 m.val) .bg (.noPath a) write).modCourse (fin 7 m.val) fun c => { c with bg := { c.bg with flags := c.bg.flags ||| flagDERR } }
  else (s.ridgeRecord 0 m.val write (BitVec.ofNat 32 a)).unmapped

/-- The number of declared taps; values above 2,048 act as 2,048 (R129). -/
def State.declTaps (s : State) (n : CourseId) : Nat := Nat.min 2048 (s.rfld (regDLY_DECL n) 16 12)

/-- The number of declared lines; values above 1,024 act as 1,024 (R129). -/
def State.declLines (s : State) (n : CourseId) : Nat := Nat.min 1024 (s.rfld (regDLY_DECL n) 0 11)

/-- The table address of coefficient word `a` of Course `n`, for data-space words 0x0001_1000 to 0x0001_2FFF (R50, R171). -/
def pageAddr (n : CourseId) (a : Nat) : Nat := 0x01400000 + n.val * 0x8000 + 4 * (a - 0x11000)

/-- A coefficient word as a context reads it: the foreground work of a frame reads the copy in force for that frame (R50, R170). -/
def State.pageWord (s : State) (n : CourseId) (x : CtxId) (a : Nat) : Word :=
  let c := s.course n
  let t := pageAddr n a
  match x with
  | .bg => s.tabGet t
  | .fg =>
    match c.pageOld.find? fun e => decide (c.frame < e.1) && decide (e.2.1 = t) with
    | some e => e.2.2
    | none => s.tabGet t

/-- Data-space words that the Course itself serves: local memory, the tap windows and the coefficient pages (R50). -/
def nearData (a : Nat) : Bool := decide (a < 0x13000)

/-- The latency of a data-space read as attempted (R55, R66). -/
def dataLat (a : Nat) : Nat :=
  if a < 0x10800 then 3 else if 0x11000 ≤ a ∧ a < 0x13000 then 3 else 1

/-- A near data word may be read by the context (R50, R52, R74). -/
def State.nearReadOk (s : State) (n : CourseId) (x : CtxId) (a : Nat) : Bool :=
  if a < 0x10000 then (match x with | .fg => decide (a < s.fgWords n) | .bg => true)
  else if a < 0x10800 then (match x with | .fg => decide (a - 0x10000 < s.declTaps n) | .bg => false)
  else decide (0x11000 ≤ a) && decide (a < 0x13000)

/-- A near data word may be written by the context (R50, R52, R76). -/
def State.nearWriteOk (s : State) (n : CourseId) (x : CtxId) (a : Nat) : Bool :=
  if a < 0x10000 then (match x with | .fg => true | .bg => decide (s.fgWords n ≤ a))
  else if 0x10800 ≤ a ∧ a < 0x10C00 then (match x with | .fg => decide (a - 0x10800 < s.declLines n) | .bg => false)
  else false

/-- A word of local data memory. -/
def Course.local (c : Course) (w : Nat) : Word := memWord c.lmem w

/-- A near data word as it stands (R50, R74). -/
def State.nearWord (s : State) (n : CourseId) (x : CtxId) (a : Nat) : Word :=
  let c := s.course n
  if a < 0x10000 then c.local a
  else if a < 0x10800 then wmGet c.mbox (c.frame % 2 * 2048 + (a - 0x10000))
  else s.pageWord n x a

/-- The mailbox bank of the work in progress is filled for its frame (R74, R75). -/
def Course.mboxReady (c : Course) : Bool := decide (c.mboxFrame.get (fin 1 (c.frame % 2)) = some c.frame)

/-- The scratch view of a data-space word address: bank, word, view and rotation (R50, R115). -/
def scratchView (a : Nat) : Option (RidgeView × Nat × Nat) :=
  if 0x00400000 ≤ a ∧ a < 0x00800000 then some (.plain, (a - 0x00400000) / 65536, a % 65536)
  else if 0x00800000 ≤ a ∧ a < 0x00C00000 then some (.setAlias, (a - 0x00800000) / 65536, a % 65536)
  else if 0x00C00000 ≤ a ∧ a < 0x01000000 then some (.clrAlias, (a - 0x00C00000) / 65536, a % 65536)
  else if 0x01000000 ≤ a ∧ a < 0x02000000 then some (.rotate, (a - 0x01000000) / 0x40000, a % 0x40000)
  else none

/-- The target ports that the words of a Ridge access reach: an access of several words may cross into a second bank or channel (R51, R118, R130). -/
def RidgeReq.ports (r : RidgeReq) : List RidgePort :=
  r.addrs.map fun a => match r.view with
    | .csr => r.port
    | .dram => .dram (dramChannel (a - 0x80000000))
    | _ => .scratch (fin 63 ((scratchView a).map (·.2.1) |>.getD 0))

/-- Where a far data-space access goes; a multi-word access is permitted or refused as a whole (R50, R55, R112, R115, R119; log entry 12). -/
def State.farData (s : State) (n : CourseId) (x : CtxId) (write : Bool) (addrs : List Nat) : Target :=
  let a := addrs.headD 0
  match x with
  | .fg => .refused .plain
  | .bg =>
    match scratchView a with
    | some (v, b, _) =>
      if v ≠ .plain ∧ addrs.length ≠ 1 then .refused .plain
      else if addrs.any fun a' => (scratchView a').map (·.1) != some v then .refused .plain
      else match addrs.find? fun a' => !s.scrMay n.val ((scratchView a').map (·.2.1) |>.getD 0) with
        | some a' => .refused (.scratch ((scratchView a').map (·.2.1) |>.getD 0) a')
        | none => .ridge { port := .scratch (fin 63 b), view := v, addrs := addrs }
    | none =>
      if addrs.all fun a' => decide (0x80000000 ≤ a') then
        match addrs.find? fun a' => (s.dramRefusal n.val (a' - 0x80000000) write).isSome with
        | some a' => .refused (.dram ((s.dramRefusal n.val (a' - 0x80000000) write).getD 0) a')
        | none => .ridge { port := .dram (dramChannel (a - 0x80000000)), view := .dram, addrs := addrs }
      else .refused .plain

/-- Where a data-space access goes. -/
def State.dataTarget (s : State) (n : CourseId) (x : CtxId) (write : Bool) (addrs : List Nat) : Target :=
  if nearData (addrs.headD 0) then .near else s.farData n x write addrs

/-- The control and status window of I/O space: the byte address behind a word address (R53). -/
def csrByte (a : Nat) : Nat := (a - 0x80000000) * 4

/-- Where an access of the control and status window goes: register blocks through the CSR bridge, block tables through the block table port (background only), and no path to the Course memory windows and the host scratch views (R53, R130). -/
def csrTarget (x : CtxId) (write : Bool) (addrs : List Nat) : Target :=
  let a := csrByte (addrs.headD 0)
  if addrs.length ≠ 1 then .refused .plain
  else if x = .fg ∧ !write then .refused .plain
  else if a < 0x01000000 then .ridge { port := .csr, view := .csr, addrs := [a] }
  else if (0x02000000 ≤ a ∧ a < 0x02400000) ∨ (0x04000000 ≤ a ∧ a < 0x07000000) then .refused (.noPath a)
  else if x = .fg then .refused (.noPath a)
  else .ridge { port := .table, view := .csr, addrs := [a] }

/-- Where an I/O-space access goes (R53). The first word of a multi-word OUT decides: outside the feed window the whole OUT is refused, also where later words lie inside (DESIGN CHOICE, log entry 90). -/
def State.ioTarget (x : CtxId) (write : Bool) (addrs : List Nat) : Target :=
  let a := addrs.headD 0
  if 0x80000000 ≤ a ∧ a ≤ 0x81FFFFFF then csrTarget x write addrs
  else if write then
    (if x = .fg ∧ 0x1000 ≤ a ∧ a ≤ 0x10FF then .near else .refused .plain)
  else if addrs.all fun a' => decide (a' < 0x400) then .near
  else .refused .plain

/-- A bus value as a context reads it: the foreground that of its frame, the background that of the frame whose work was completed last (R54). -/
def State.busWord (s : State) (n : CourseId) (x : CtxId) (b : Nat) : Word :=
  let f := (s.course n).frame
  match x with
  | .fg => wmGet s.bus (f % 2 * 1024 + b)
  | .bg => wmGet s.bus ((f + 1) % 2 * 1024 + b)

/-- A near store: local memory, tap window words, each word where permitted (R50, R52, R55, R76, R91). -/
def State.nearStore (s : State) (n : CourseId) (x : CtxId) : List Nat → List Word → State
  | a :: as, v :: vs =>
    let s1 :=
      if s.nearWriteOk n x a then
        if a < 0x10000 then s.modCourse n fun c => { c with lmem := memSetWord c.lmem a v }
        else s.modCourse n fun c => { c with tapCur := wmSet c.tapCur (a - 0x10800) v }
      else s.derr n x .plain true
    s1.nearStore n x as vs
  | _, _ => s

/-- A store to the feed window, word by word (R53, R54). -/
def State.feedStore (s : State) (n : CourseId) (x : CtxId) : List Nat → List Word → State
  | a :: as, v :: vs =>
    let s1 :=
      if 0x1000 ≤ a ∧ a ≤ 0x10FF then s.modCourse n fun c => { c with feedCur := wmSet c.feedCur (a - 0x1000) v }
      else s.derr n x .plain true
    s1.feedStore n x as vs
  | _, _ => s

end Sys2Proof.Machine
end

