-- ==== Sys2Proof/Machine/Moves.lean ====
section
/-! DEFINITION. DLY.MOVE: the descriptor, the tickets, and the copy (R106, R112, R119). -/

namespace Sys2Proof.Machine

/-- A word address of a move: DRAM, or the plain view of a scratch bank (R106). -/
def moveSpace (a : Nat) : Option Bool :=
  if 0x80000000 ≤ a ∧ a < 0x100000000 then some true
  else if 0x00400000 ≤ a ∧ a < 0x00800000 then some false
  else none

/-- A range of a move lies in one of the two spaces (R106). -/
def moveRangeOk (a len : Nat) : Bool :=
  (moveSpace a).isSome && decide (moveSpace (a + len - 1) = moveSpace a)

/-- The moves in flight (R106). -/
def Course.movesRunning (c : Course) : Nat := (c.moves.filter fun m => decide (m.st = .running)).length

/-- DLY.MOVE: the value returned and the state with the move started, or refused (R106). With four moves in flight the answer is 0xFFFF_FFFF whatever the descriptor holds; the descriptor is read from local memory as it stands, also outside the background region, its word addresses modulo 65,536 (DESIGN CHOICE, log entry 90). -/
def State.moveStart (s : State) (n : CourseId) (a : Nat) : Word × State :=
  let c := s.course n
  let w (i : Nat) : Word := c.local ((a + i) % 65536)
  let len := fld (w 2) 0 17
  if 4 ≤ c.movesRunning then (0xFFFFFFFF#32, s)
  else if len = 0 ∨ 65536 < len ∨ !moveRangeOk (w 0).toNat len ∨ !moveRangeOk (w 1).toNat len then (0xFFFFFFFE#32, s)
  else
    let t := c.nextTicket
    let mv : Move := { ticket := t, src := (w 0).toNat, dst := (w 1).toNat, len := len, event := bit (w 3) 0, st := .running, fresh := true }
    (BitVec.ofNat 32 t, s.setCourse n { c with
      moves := (c.moves.filter fun m => decide (m.st = .running) || decide (m.ticket ≠ t)) ++ [mv], nextTicket := (t + 1) % 16 })

/-- DLY.POLL: the state of a ticket (R106). -/
def Course.movePoll (c : Course) (t : Nat) : Word :=
  match (c.moves.filter fun m => decide (m.ticket = t) && m.fresh).getLast? with
  | none => 3
  | some m => match m.st with | .running => 0 | .complete => 1 | .aborted => 2

/-- Why a word of a move may not be touched: the scratch bank that the Course does not own, or the DRAM cause (R106, R112, R119). -/
def State.moveRefusal (s : State) (n : CourseId) (a : Nat) (write : Bool) : Option RefKind :=
  if 0x80000000 ≤ a then
    (s.dramRefusal 8 (a - 0x80000000) write).map fun c => .dram c a
  else
    let b := (a - 0x00400000) / 65536
    if s.scrMay n.val b then none else some (.scratch b a)

/-- A word of a move waits at the port while the handover of its bank is in progress (R114). -/
def State.moveHeld (s : State) (m : Move) : Bool :=
  (List.range 64).any fun b =>
    let lo := 0x00400000 + b * 65536
    s.scrPend b && ((decide (m.src < lo + 65536) && decide (lo < m.src + m.len)) || (decide (m.dst < lo + 65536) && decide (lo < m.dst + m.len)))

/-- The reads of a move pass the checkers of the scratch banks and the DRAM (R369, R370). -/
def State.moveChecked (s : State) (m : Move) : State :=
  let inSrc (a : Nat) := decide (m.src ≤ a) && decide (a < m.src + m.len)
  (s.memTouch 16 fun u => inSrc (0x00400000 + u)).memTouch 17 fun u => inSrc (0x80000000 + u) || inSrc (0x80000000 + u + 1)

/-- A word of a move is read. -/
def State.moveGet (s : State) (a : Nat) : Word :=
  if 0x80000000 ≤ a then s.dramGet (a - 0x80000000) else memWord s.scratch (a - 0x00400000)

/-- A word of a move is written. -/
def State.moveSet (s : State) (a : Nat) (v : Word) : State :=
  if 0x80000000 ≤ a then s.dramPut (a - 0x80000000) v else { s with scratch := memSetWord s.scratch (a - 0x00400000) v }

/-- The order in which a move copies its words: descending when the destination lies above the source (R106), whether or not the ranges overlap (DESIGN CHOICE, log entry 90). -/
def Move.order (m : Move) : List Nat :=
  if m.src < m.dst then (List.range m.len).reverse else List.range m.len

/-- The first word that a move may not touch, as its place in the order, with the refusal (R106). -/
def State.moveBlock (s : State) (n : CourseId) (m : Move) : Option (Nat × RefKind × Bool) :=
  (m.order.zipIdx).findSome? fun e =>
    match s.moveRefusal n (m.src + e.1) false with
    | some k => some (e.2, k, false)
    | none => (s.moveRefusal n (m.dst + e.1) true).map fun k => (e.2, k, true)

/-- The first `count` words of a move are copied in its order. -/
def State.moveCopy (s : State) (m : Move) (count : Nat) : State :=
  (m.order.take count).foldl (fun s i => s.moveSet (m.dst + i) (s.moveGet (m.src + i))) s

/-- The words that a write of another master leaves undefined, once `count` words are copied: the written ones, and the copies of written source words (R106). -/
def State.moveOpen (s : State) (n : CourseId) (m : Move) (count : Nat) : List Nat :=
  let hit (a : Nat) := s.raced.contains (n.val, m.ticket, a)
  m.order.zipIdx.flatMap fun e =>
    (if hit (m.src + e.1) then [m.src + e.1] else []) ++
    (if hit (m.dst + e.1) || (hit (m.src + e.1) && decide (e.2 < count)) then [m.dst + e.1] else [])

/-- The words of a move that ended with `count` words copied, those undefined as free values (R106; log entries 2 and 82). -/
def State.moveResult (s : State) (n : CourseId) (m : Move) (count : Nat) : State :=
  let t := (s.moveOpen n m count).foldl (fun (t : State) a => t.draw.2.moveSet a t.draw.1) (s.moveCopy m count)
  { t with raced := t.raced.filter fun e => !(e.1 == n.val && e.2.1 == m.ticket) }

/-- The running move of a ticket. -/
def Course.runningMove (c : Course) (t : Nat) : Option Move := c.moves.find? fun m => decide (m.ticket = t) && decide (m.st = .running)

/-- A move ends in a state. -/
def State.moveEnd (s : State) (n : CourseId) (mv : Move) (st : MoveState) : State :=
  s.modCourse n fun c => { c with moves := c.moves.map fun m => if m = mv then { m with st := st } else m }

/-- A context waits with a DRAM read that no port has granted. -/
def Ctx.asksDram (c : Ctx) : Bool :=
  match c.stall with
  | some st => (st.reads.getD []).any fun r => match r with | .ridge q none => decide (q.view = .dram) | _ => false
  | none => false

/-- A Course has a request pending at a DRAM port; a request of a move is granted only when none is (R106, R127). -/
def State.dramAsked (s : State) : Bool :=
  courseIds.any fun n =>
    let c := s.course n
    c.posted.any (fun q => decide (q.req.view = .dram) && !q.granted) || c.fg.asksDram || c.bg.asksDram

/-- A move reaches the DRAM. -/
def Move.usesDram (m : Move) : Bool := decide (0x80000000 ≤ m.src) || decide (0x80000000 ≤ m.dst)

/-- The words of a move wait: at a port that holds them, behind a handover, for the DRAM clock, or for the DRAM requests of the Courses (R106, R114, R127, R135). -/
def State.moveWaits (s : State) (m : Move) : Bool :=
  s.held || s.moveHeld m || (m.usesDram && (!s.dramOn || s.dramAsked))

/-- DELAY_MOVE_COMPLETE: the words are copied, the ticket is complete, and the event occurs when word 3 asked for it (R106, R194). Without a running move of the ticket that may touch all its words, and while it waits, nothing happens. -/
def execDelayMoveComplete (n : CourseId) (ticket : Fin 16) (s : State) : Host.Outcome State Fault Refusal :=
  .next (match (s.course n).runningMove ticket.val with
    | none => s
    | some m =>
      if (s.moveBlock n m).isSome || s.moveWaits m then s
      else
        let s1 := ((s.moveChecked m).moveResult n m m.len).moveEnd n m .complete
        if m.event then s1.raiseEvent (24 + n.val) (BitVec.ofNat 32 m.ticket) else s1)

/-- DELAY_MOVE_ABORT: the words before the refused one are copied, the refusal is recorded, and the ticket is aborted (R106, R112, R119). Without a running move that touches a refused word, nothing happens. -/
def execDelayMoveAbort (n : CourseId) (ticket : Fin 16) (s : State) : Host.Outcome State Fault Refusal :=
  .next (match (s.course n).runningMove ticket.val with
    | none => s
    | some m =>
      match s.moveBlock n m with
      | none => s
      | some (i, k, write) =>
        let s1 := (s.moveResult n m i).moveEnd n m .aborted
        match k with
        | .scratch b a => s1.scratchRefused 0 8 b (BitVec.ofNat 32 a)
        | .dram c a => s1.ridgeRefused c 8 write (BitVec.ofNat 32 a)
        | _ => s1)

end Sys2Proof.Machine
end

