-- ==== Sys2Proof/Machine/Bundle.lean ====
section
/-! DEFINITION. How a bundle issues: places and undefined syllables (R79 to R81, R107 to R109), the effects of its syllables read before any is written (R67), stalls (R51, R68, R74), repetitions (R98 to R100), transfers and their delay slots (R96), and the results in flight (R66). -/

namespace Sys2Proof.Machine

/-- What a syllable does besides the memory it reaches: a result in flight, or sticky flags that hardware sets (R63, R66). -/
inductive Eff where
  | res (lat : Nat) (w : RWrite)
  | stick (m : Word)
deriving DecidableEq, Repr

/-- A result into Dd, at its physical register of issue (R66, R86). -/
def effD (c : Ctx) (lat : Nat) (dd : Fin 32) (v : Word) : Eff := .res lat (.reg (.d (c.phys dd)) 0xFFFFFFFF#32 v)

/-- A value into an accumulator: seen by accumulating operations after 1 bundle and by moves out after 3 (R66, R88). -/
def effAcc (a : Fin 8) (v : Acc) : List Eff := [.res 1 (.acc a v), .res 3 (.accOut a v)]

/-- An accumulating operation with exact result x: wrapped, with AV when it leaves the range (R60). -/
def effAccumulate (a : Fin 8) (x : Int) : List Eff :=
  effAcc a (wrapAcc x) ++ if accOver x then [.stick flagAV] else []

/-- The flags that an ALU result writes when F = 1 (R94). -/
def effFlags (f : Bool) (r : AluOut) : List Eff := if f then [.res 1 (.reg .flags flagNZCV (nzcv r))] else []

/-- An ALU result (R93, R94). -/
def effAlu (c : Ctx) (f : Bool) (dd : Fin 32) (r : AluOut) : List Eff := effD c 1 dd r.d :: effFlags f r

/-- A compare into PRd; PR0 does not change (R93, R94). -/
def effCmp (pd : Fin 8) (b pn : Bool) : List Eff :=
  [.res 1 (.reg .flags (oneHot (8 + pd.val)) (if b != pn then oneHot (8 + pd.val) else 0))]

/-- The update of Pi by a form (R57, R66). -/
def effPost (c : Ctx) (amode : Word) (i : Fin 16) (f : Form) : List Eff :=
  match formNext c (addrMode amode i) i f with
  | some v => [.res 1 (.reg (.p i) 0xFFFFFFFF#32 v)]
  | none => []

/-- The register that KIND names (R85). -/
def kindReg (i : Fin 16) : AddrKind → CReg
  | .p => .p i
  | .n => .n i
  | .l => .l i
  | .k => .k i

/-- The register that a special register number names (R93). -/
def sprReg : Spr → CReg
  | .lc i => .lc i
  | .rot => .rot
  | .mode => .mode
  | .flags => .flags

/-- Data words into Dr, Dr+1, …, each mapped at issue (R86, R90). -/
def effWords (c : Ctx) (lat : Nat) (r : Fin 32) (ws : List Word) : List Eff :=
  ws.zipIdx.map fun e => effD c lat (fin 31 (r.val + e.2)) e.1

/-- The address mode word of a context (R56). -/
def State.amode (s : State) (n : CourseId) : CtxId → Word
  | .fg => s.reg (regC_AMODE_FG n)
  | .bg => s.reg (regC_AMODE_BG n)

/-! ## MAC class (R87, R88) -/

/-- MAC. -/
def effMac (c : Ctx) (a : Fin 8) (dx dy : Fin 32) : List Eff := effAccumulate a ((c.acc.get a).toInt + prod (c.dget dx) (c.dget dy))
/-- MSU. -/
def effMsu (c : Ctx) (a : Fin 8) (dx dy : Fin 32) : List Eff := effAccumulate a ((c.acc.get a).toInt - prod (c.dget dx) (c.dget dy))
/-- MUL. -/
def effMul (c : Ctx) (a : Fin 8) (dx dy : Fin 32) : List Eff := effAcc a (wrapAcc (prod (c.dget dx) (c.dget dy)))
/-- MULN. -/
def effMuln (c : Ctx) (a : Fin 8) (dx dy : Fin 32) : List Eff := effAcc a (wrapAcc (-(prod (c.dget dx) (c.dget dy))))
/-- CLR. -/
def effClr (a : Fin 8) : List Eff := effAcc a 0
/-- LDA. -/
def effLda (c : Ctx) (a : Fin 8) (dx : Fin 32) : List Eff := effAcc a (wrapAcc (lift (c.dget dx)))
/-- ADDA. -/
def effAdda (c : Ctx) (a : Fin 8) (dx : Fin 32) : List Eff := effAccumulate a ((c.acc.get a).toInt + lift (c.dget dx))
/-- ACCADD. -/
def effAccadd (c : Ctx) (a y : Fin 8) : List Eff := effAccumulate a ((c.acc.get a).toInt + (c.acc.get y).toInt)
/-- ACCSUB. -/
def effAccsub (c : Ctx) (a y : Fin 8) : List Eff := effAccumulate a ((c.acc.get a).toInt - (c.acc.get y).toInt)
/-- MOVA: the shift of the syllable, else MODE.SHIFT (R61). -/
def effMova (c : Ctx) (dx : Fin 32) (a : Fin 8) (sh : Option (BitVec 5)) : List Eff :=
  let r := convAcc (c.accOut.get a) ((sh.map shiftOf).getD c.modeShift)
  effD c 2 dx r.1 :: if r.2 then [.stick flagSV] else []
/-- RDR: the named part; ACCnX is sign-extended (R62). -/
def effRdr (c : Ctx) (dx : Fin 32) (a : Fin 8) (part : AccPart) : List Eff :=
  let v := c.accOut.get a
  [effD c 2 dx (match part with
    | .l => v.extractLsb' 0 32
    | .h => v.extractLsb' 32 32
    | .x => (v.extractLsb' 64 16).signExtend 32)]
/-- WRR: the parts that it does not write are kept (R62, R88). -/
def effWrr (c : Ctx) (a : Fin 8) (part : AccPart) (dx : Fin 32) : List Eff :=
  let v := c.acc.get a
  let d := c.dget dx
  effAcc a (match part with
    | .l => v.extractLsb' 32 48 ++ d
    | .h => v.extractLsb' 64 16 ++ d ++ v.extractLsb' 0 32
    | .x => d.extractLsb' 0 16 ++ v.extractLsb' 0 64)

/-! ## AGU class without memory (R89) -/

/-- MVA: latency 2 into an address register, 1 into Dr (R66). -/
def effMva (c : Ctx) (i : Fin 16) (kd : AddrKind) (toData : Bool) (r : Fin 32) : List Eff :=
  if toData then [effD c 1 r (c.get (kindReg i kd))] else [.res 2 (.reg (kindReg i kd) 0xFFFFFFFF#32 (c.dget r))]
/-- SETLO. -/
def effSetlo (i : Fin 16) (kd : AddrKind) (imm : BitVec 16) : List Eff := [.res 2 (.reg (kindReg i kd) 0xFFFFFFFF#32 (imm.signExtend 32))]
/-- SETHI. -/
def effSethi (i : Fin 16) (kd : AddrKind) (imm : BitVec 16) : List Eff := [.res 2 (.reg (kindReg i kd) 0xFFFF0000#32 (imm.zeroExtend 32 <<< 16))]

/-! ## ALU class (R93, R94) -/

/-- A shift amount taken from a register. -/
def shamt (w : Word) : Nat := fld w 0 5
/-- SEL. -/
def effSel (c : Ctx) (dd da db : Fin 32) (p : Fin 8) (pn : Bool) : List Eff := [effD c 1 dd (if c.pred p pn then c.dget da else c.dget db)]
/-- MOVP. -/
def effMovp (c : Ctx) (dd da : Fin 32) (p : Fin 8) (pn : Bool) : List Eff := if c.pred p pn then [effD c 1 dd (c.dget da)] else []
/-- MOVHI. -/
def effMovhi (c : Ctx) (dd : Fin 32) (imm : BitVec 16) : List Eff :=
  [.res 1 (.reg (.d (c.phys dd)) 0xFFFF0000#32 (imm.zeroExtend 32 <<< 16))]
/-- MTS: latency 2, but 1 for FLAGS (R94). A 1 that a program writes to a sticky flag sets the flag alone: Cn.STATUS copies what hardware sets (R63; DEDUCED, log entry 90). -/
def effMts (c : Ctx) (r : Spr) (da : Fin 32) : List Eff :=
  [.res (match r with | .flags => 1 | _ => 2) (.reg (sprReg r) 0xFFFFFFFF#32 (c.dget da))]
/-- LCI. -/
def effLci (i : Fin 4) (imm : BitVec 16) : List Eff := [.res 2 (.reg (.lc i) 0xFFFFFFFF#32 (imm.zeroExtend 32))]

/-! ## CTL class (R95 to R98) -/

/-- A rotate step (R65). -/
def effRots (c : Ctx) : List Eff := [.res 1 (.reg .rot 0xFFFFFFFF#32 (BitVec.ofNat 32 ((fld c.rot 0 4 + 15) % 16)))]
/-- The new value of a loop counter at DBNZ (R97). -/
def dbnzVal (c : Ctx) (i : Fin 4) : Nat := (fld (c.lc.get i) 0 16 + 65535) % 65536
/-- DBNZ without its transfer. -/
def effDbnz (c : Ctx) (rt : Bool) (i : Fin 4) : List Eff :=
  .res 1 (.reg (.lc i) 0xFFFFFFFF#32 (BitVec.ofNat 32 (dbnzVal c i))) :: if rt then effRots c else []

/-- The syllables of the bundle at a program address: up to the first with bit 31, at most eight (R79). -/
def bundleLen (c : Course) (pc : BitVec 14) : Nat :=
  ((List.range 7).takeWhile fun i => !bit (memWord c.pmem (pc + BitVec.ofNat 14 i).toNat) 31).length + 1

/-- The syllables that program memory holds for the bundle at `pc`, as the commands that a Course sends for itself (R79, R84; log entry 9). -/
def bundleAt (c : Course) (n : CourseId) (x : CtxId) (pc : BitVec 14) : List Instr :=
  (List.range (bundleLen c pc)).map fun i => decodeSyllable n x (memWord c.pmem (pc + BitVec.ofNat 14 i).toNat)

/-- JAL: the address of the bundle after the delay slot, which starts at `seq` (R95). -/
def effJal (c : Ctx) (cr : Course) (seq : BitVec 14) (dd : Fin 32) : List Eff :=
  [effD c 1 dd ((seq + BitVec.ofNat 14 (bundleLen cr seq)).zeroExtend 32)]

/-! ## The effects of one syllable -/

/-- The results and sticky flags of a syllable that does not touch memory or a coprocessor. `seq` is the address after its bundle. -/
def sylEffects (c : Ctx) (cr : Course) (amode : Word) (seq : BitVec 14) : Instr → List Eff
  | .mac _ a dx dy => effMac c a dx dy
  | .msu _ a dx dy => effMsu c a dx dy
  | .mul _ a dx dy => effMul c a dx dy
  | .muln _ a dx dy => effMuln c a dx dy
  | .clr _ a => effClr a
  | .lda _ a dx => effLda c a dx
  | .adda _ a dx => effAdda c a dx
  | .accadd _ a y => effAccadd c a y
  | .accsub _ a y => effAccsub c a y
  | .mova _ dx a sh => effMova c dx a sh
  | .rdr _ dx a part => effRdr c dx a part
  | .wrr _ a part dx => effWrr c a part dx
  | .ld _ ch f _ _ => effPost c amode ch f
  | .st _ ch f _ => effPost c amode ch f
  | .inp _ ch f _ _ => effPost c amode ch f
  | .out _ ch f _ => effPost c amode ch f
  | .modp _ ch f => effPost c amode ch f
  | .mva _ ch kd toData r => effMva c ch kd toData r
  | .setlo _ ch kd imm => effSetlo ch kd imm
  | .sethi _ ch kd imm => effSethi ch kd imm
  | .add _ f dd da db => effAlu c f dd (aluAdd (c.dget da) (c.dget db))
  | .sub _ f dd da db => effAlu c f dd (aluSub (c.dget da) (c.dget db))
  | .adds _ f dd da db => effAlu c f dd (aluAdds (c.dget da) (c.dget db))
  | .subs _ f dd da db => effAlu c f dd (aluSubs (c.dget da) (c.dget db))
  | .and _ f dd da db => effAlu c f dd (aluLogic (c.dget da &&& c.dget db))
  | .or _ f dd da db => effAlu c f dd (aluLogic (c.dget da ||| c.dget db))
  | .xor _ f dd da db => effAlu c f dd (aluLogic (c.dget da ^^^ c.dget db))
  | .andn _ f dd da db => effAlu c f dd (aluLogic (c.dget da &&& ~~~(c.dget db)))
  | .asr _ f dd da db => effAlu c f dd (aluAsr (c.dget da) (shamt (c.dget db)))
  | .lsr _ f dd da db => effAlu c f dd (aluLsr (c.dget da) (shamt (c.dget db)))
  | .lsl _ f dd da db => effAlu c f dd (aluLsl (c.dget da) (shamt (c.dget db)))
  | .asri _ f dd da k => effAlu c f dd (aluAsr (c.dget da) k.toNat)
  | .lsri _ f dd da k => effAlu c f dd (aluLsr (c.dget da) k.toNat)
  | .lsli _ f dd da k => effAlu c f dd (aluLsl (c.dget da) k.toNat)
  | .abs _ f dd da => effAlu c f dd (aluAbs (c.dget da))
  | .neg _ f dd da => effAlu c f dd (aluNeg (c.dget da))
  | .min _ f dd da db => effAlu c f dd (aluMin (c.dget da) (c.dget db))
  | .max _ f dd da db => effAlu c f dd (aluMax (c.dget da) (c.dget db))
  | .cmpeq _ pd da db pn => effCmp pd (decide (c.dget da = c.dget db)) pn
  | .cmplt _ pd da db pn => effCmp pd (decide ((c.dget da).toInt < (c.dget db).toInt)) pn
  | .cmple _ pd da db pn => effCmp pd (decide ((c.dget da).toInt ≤ (c.dget db).toInt)) pn
  | .cmpltu _ pd da db pn => effCmp pd (decide ((c.dget da).toNat < (c.dget db).toNat)) pn
  | .cmpleu _ pd da db pn => effCmp pd (decide ((c.dget da).toNat ≤ (c.dget db).toNat)) pn
  | .sel _ dd da db p pn => effSel c dd da db p pn
  | .movp _ dd da p pn => effMovp c dd da p pn
  | .mov _ dd da => [effD c 1 dd (c.dget da)]
  | .movi _ dd imm => [effD c 1 dd (imm.signExtend 32)]
  | .movhi _ dd imm => effMovhi c dd imm
  | .mfs _ dd r => [effD c 1 dd (c.get (sprReg r))]
  | .mts _ r da => effMts c r da
  | .cls _ dd da => [effD c 1 dd (BitVec.ofNat 32 (clsCount (c.dget da)))]
  | .lci _ i imm => effLci i imm
  | .dbnz _ rt i _ => effDbnz c rt i
  | .rots _ => effRots c
  | .jal _ dd _ => effJal c cr seq dd
  | _ => []

/-- The read of a syllable: I/O space or data space, its word addresses, and its first register (R89, R92). -/
def sylRead (c : Ctx) (amode : Word) : Instr → Option (Bool × List Nat × Fin 32)
  | .ld _ ch f r sz => some (false, accessAddrs c (addrMode amode ch) ch f sz.count, r)
  | .inp _ ch f r sz => some (true, accessAddrs c (addrMode amode ch) ch f sz.count, r)
  | _ => none

/-- The words that a store takes: data registers, or a rounded accumulator with its saturation (R89, R92). -/
def storeWords (c : Ctx) : StSrc → List Word × Bool
  | .regs r sz => ((List.range sz.count).map fun j => c.dget (fin 31 (r.val + j)), false)
  | .acc a => let v := convAcc (c.accOut.get a) c.modeShift; ([v.1], v.2)

/-- The number of words of a store. -/
def storeCount : StSrc → Nat
  | .regs _ sz => sz.count
  | .acc _ => 1

/-- The store of a syllable: I/O space or data space, its word addresses, its words, and whether it saturated. -/
def sylStore (c : Ctx) (amode : Word) : Instr → Option (Bool × List Nat × List Word × Bool)
  | .st _ ch f src => let w := storeWords c src; some (false, accessAddrs c (addrMode amode ch) ch f (storeCount src), w.1, w.2)
  | .out _ ch f src => let w := storeWords c src; some (true, accessAddrs c (addrMode amode ch) ch f (storeCount src), w.1, w.2)
  | _ => none

/-- Where a store goes. -/
def State.storeTarget (s : State) (n : CourseId) (x : CtxId) (io : Bool) (addrs : List Nat) : Target :=
  if io then State.ioTarget x true addrs else s.dataTarget n x true addrs

/-- Where a read goes. -/
def State.readTarget (s : State) (n : CourseId) (x : CtxId) (io : Bool) (addrs : List Nat) : Target :=
  if io then State.ioTarget x false addrs else s.dataTarget n x false addrs

/-! ## Places and undefined syllables -/

/-- The free places of each unit in a bundle (R42, R80). -/
structure Places where
  mac : Nat
  agu : Nat
  alu : Nat
  ctl : Nat
deriving DecidableEq, Repr

/-- One syllable takes a place, or is excess (R80). -/
def Places.take (p : Places) : SylUnit → Places × Bool
  | .mac => if p.mac = 0 then (p, false) else ({ p with mac := p.mac - 1 }, true)
  | .agu => if p.agu = 0 then (p, false) else ({ p with agu := p.agu - 1 }, true)
  | .alu => if p.alu = 0 then (p, false) else ({ p with alu := p.alu - 1 }, true)
  | .ctl => if p.ctl = 0 then (p, false) else ({ p with ctl := p.ctl - 1 }, true)
  | .none => (p, true)

/-- The syllable is undefined in a context: of itself, or FEND or TEND in the wrong one (R102, R107). -/
def Syl.undefinedIn (y : Syl) (x : CtxId) : Bool :=
  y.bad || (match y.op, x with
    | .fend _, .bg => true
    | .tend _, .fg => true
    | _, _ => false)

/-- Each syllable of a bundle with whether it executes: defined, and not excess (R80, R107). -/
def placed (x : CtxId) : Places → List Syl → List (Syl × Bool)
  | _, [] => []
  | p, y :: ys => let t := p.take y.unit; (y, t.2 && !y.undefinedIn x) :: placed x t.1 ys

/-- All places of a bundle free (R42). -/
def Places.all : Places := { mac := 4, agu := 2, alu := 1, ctl := 1 }

/-- The operations of a bundle that execute, in order (R107). -/
def bundleOps (x : CtxId) (ys : List Syl) : List Instr :=
  ((placed x Places.all ys).filter (·.2)).map (·.1.op)

/-- The bundle holds an undefined syllable, reserved bits that are not zero, or eight syllables without a stop bit (R81, R107 to R109). -/
def bundleIllegal (x : CtxId) (noStop : Bool) (ys : List Syl) : Bool :=
  noStop || ys.any (·.rsv) || (placed x Places.all ys).any fun e => !e.2

/-- A CTL operation other than NOP and ROTS (R99). -/
def ctlOther : Instr → Bool
  | .br .. | .dbnz .. | .rep .. | .jal .. | .jmp .. | .fend .. | .tend .. => true
  | _ => false

/-- The target of a transfer of control that the operation makes (R95 to R97). -/
def transfer (c : Ctx) : Instr → Option (BitVec 14)
  | .br _ p pn t => if c.pred p pn then some t else none
  | .dbnz _ _ i t => if dbnzVal c i ≠ 0 then some t else none
  | .jal _ _ t => some t
  | .jmp _ da => some ((c.dget da).extractLsb' 0 14)
  | _ => none

/-- The operation is a transfer of control whose target the delay slot suppresses (R96). -/
def transferAny (c : Ctx) (ops : List Instr) : Option (BitVec 14) := ops.findSome? (transfer c)

/-- The count that a REP latches (R98). -/
def repCount (c : Ctx) : Instr → Option Nat
  | .rep _ (.imm k) => some k.toNat
  | .rep _ (.lc i) => some (fld (c.lc.get i) 0 16)
  | _ => none

/-- FEND or TEND executes in the bundle (R102). -/
def endsWork : Instr → Bool
  | .fend _ | .tend _ => true
  | _ => false

/-! ## Reads -/

/-- A read slot holds its data. -/
def ReadSlot.isDone : ReadSlot → Bool
  | .done .. => true
  | _ => false

/-- A near read of data space: each word where permitted, zero elsewhere (R55). -/
def State.nearRead (s : State) (n : CourseId) (x : CtxId) (addrs : List Nat) : ReadSlot :=
  .done (addrs.map fun a => if s.nearReadOk n x a then s.nearWord n x a else 0) (dataLat (addrs.headD 0))
    (addrs.any fun a => !s.nearReadOk n x a)

/-- The read of a syllable as it is issued (R51, R55, R74). -/
def State.readSlot (s : State) (n : CourseId) (x : CtxId) (io : Bool) (addrs : List Nat) : ReadSlot :=
  match s.readTarget n x io addrs with
  | .near =>
    if io then .done (addrs.map fun a => s.busWord n x a) 1 false
    else if addrs.any fun a => decide (0x10000 ≤ a) && decide (a < 0x10800) && s.nearReadOk n x a && !(s.course n).mboxReady then .mbox addrs
    else s.nearRead n x addrs
  | .ridge r => .ridge r none
  | .refused _ => .done (addrs.map fun _ => 0) (if io then 1 else dataLat (addrs.headD 0)) true

/-- What a near read of data space leaves as it is served: the checker of local memory has seen the permitted words, and the refusal of a word is recorded (R55, R369). -/
def State.nearServed (s : State) (n : CourseId) (x : CtxId) (addrs : List Nat) : State :=
  let s1 := s.memReads (8 + n.val) (addrs.filter fun a => decide (a < 0x10000) && s.nearReadOk n x a)
  if addrs.any fun a => !s.nearReadOk n x a then s1.derr n x .plain false else s1

/-- The read of an issued syllable: its slot, and the state in which its refusals are recorded and its checkers have seen it (R55, R369). A read of the bus window adds its eight cycles to the I/O stall; where two stand in one bundle each adds eight (R51; DESIGN CHOICE, log entry 90). -/
def State.issueRead (s : State) (n : CourseId) (x : CtxId) (io : Bool) (addrs : List Nat) : ReadSlot × State :=
  let slot := s.readSlot n x io addrs
  let s1 := match s.readTarget n x io addrs with
    | .refused k => s.derr n x k false
    | .near =>
      if io then s.modCourse n fun c => if x = .fg then { c with ioStall := c.ioStall + 8 } else c
      else if slot.isDone then s.nearServed n x addrs else s
    | .ridge _ => s
  (slot, s1)

/-- The reads of a bundle as it is issued, in the order of its syllables. -/
def State.issueReads (s : State) (n : CourseId) (x : CtxId) (c : Ctx) (amode : Word) : List Instr → List ReadSlot × State
  | [] => ([], s)
  | i :: is =>
    match sylRead c amode i with
    | none => s.issueReads n x c amode is
    | some (io, addrs, _) =>
      let r := s.issueRead n x io addrs
      let t := r.2.issueReads n x c amode is
      (r.1 :: t.1, t.2)

/-! ## Coprocessor operations (R103 to R106) -/

/-- The ratio of an ASRC channel: 0 while unlocked; that of its lock in network-time ratio mode; in measured ratio mode the one that the loop has tracked to, which is open (R232, R235; log entry 2). -/
def State.ratioNow (s : State) (c : Nat) : Word × State :=
  if !s.rbit (regASRC_CHSTAT c) 31 then (0, s)
  else if fld (s.tabGet (0x01900004 + 16 * c)) 29 2 = 1 then (wmGet s.asrcRatio c, s)
  else s.draw

/-- An extension operation: its destination, its value, its latency, and the state after it; `none` when it is refused under R104, with its latency. -/
def State.extension (s : State) (n : CourseId) (x : CtxId) (c : Ctx) : Instr → Option (Fin 32 × Nat × Option (Word × State))
  | .eqSos _ dd da k => some (dd, 6,
      if x = .fg ∧ k.toNat < s.bindCount n then
        let r := s.stepSection (s.bindFirst n + k.toNat) (s.course n).frame (c.dget da).toInt
        some (ofInt r.1, r.2)
      else none)
  | .asrcRatio _ dd ch => some (dd, 4, if x = .bg then some (s.ratioNow ch.val) else none)
  | .asrcStat _ dd ch => some (dd, 4, if x = .bg then some (s.reg (regASRC_CHSTAT ch.val), s) else none)
  | .mtrGet _ dd da f => some (dd, 8, if x = .bg then some (s.meterWord (fld (c.dget da) 0 12) f.val, s) else none)
  | .dlyMove _ dd da => some (dd, 4, if x = .bg then some (s.moveStart n (fld (c.dget da) 0 16)) else none)
  | .dlyPoll _ dd da => some (dd, 4, if x = .bg then some ((s.course n).movePoll (fld (c.dget da) 0 4), s) else none)
  | _ => none

/-- The coprocessor operation of a bundle, if any: its result in flight and the state after it (R103, R104). -/
def State.runExtension (s : State) (n : CourseId) (x : CtxId) (c : Ctx) (ops : List Instr) : List Eff × State :=
  match ops.findSome? (s.extension n x c) with
  | none => ([], s)
  | some (dd, lat, some (v, s1)) => ([effD c lat dd v], s1)
  | some (dd, lat, none) => ([effD c lat dd 0, .stick flagDERR], s.derr n x .plain false)

/-! ## Completion of one issue -/

/-- The result of a read: its words, and FLAGS.DERR when a word was refused (R55, R66, R89). -/
def readEffects (c : Ctx) (r : Fin 32) : ReadSlot → List Eff
  | .done ws lat refused => effWords c lat r ws ++ if refused then [.stick flagDERR] else []
  | _ => []

/-- The results of the syllables of a bundle in the order in which they stand, those of reads among them, so that of two results that reach a register together the later syllable's is kept (R66, R67). -/
def bundleEffects (c : Ctx) (cr : Course) (amode : Word) (seq : BitVec 14) : List Instr → List ReadSlot → List Eff
  | [], _ => []
  | i :: is, slots =>
    match sylRead c amode i with
    | none => sylEffects c cr amode seq i ++ bundleEffects c cr amode seq is slots
    | some (_, _, r) =>
      sylEffects c cr amode seq i ++ (slots.head?.map (readEffects c r)).getD [] ++ bundleEffects c cr amode seq is slots.tail

/-- The posted writes that the stores of a bundle would enter (R51). -/
def State.postedOf (s : State) (n : CourseId) (x : CtxId) (c : Ctx) (amode : Word) (ops : List Instr) : List Posted :=
  ops.filterMap fun i =>
    match sylStore c amode i with
    | none => none
    | some (io, addrs, ws, _) =>
      match s.storeTarget n x io addrs with
      | .ridge r => some { x := x, req := r, data := ws, granted := false }
      | _ => none

/-- One store of a bundle takes effect or is refused; a posted one enters the buffer (R51, R55, R91). -/
def State.runStore (s : State) (n : CourseId) (x : CtxId) (io : Bool) (addrs : List Nat) (ws : List Word) : State :=
  match s.storeTarget n x io addrs with
  | .near => if io then s.feedStore n x addrs ws else s.nearStore n x addrs ws
  | .ridge r => s.modCourse n fun c => { c with posted := c.posted ++ [{ x := x, req := r, data := ws, granted := false }] }
  | .refused k => s.derr n x k true

/-- A near store has a word that is refused (R55). -/
def State.nearStoreRefused (s : State) (n : CourseId) (x : CtxId) (io : Bool) (addrs : List Nat) : Bool :=
  match s.storeTarget n x io addrs with
  | .near => addrs.any fun a => if io then decide (a < 0x1000) || decide (0x10FF < a) else !s.nearWriteOk n x a
  | .ridge _ => false
  | .refused _ => true

/-- The stores of a bundle, in the order of its syllables, with the sticky flags they set. -/
def State.runStores (s : State) (n : CourseId) (x : CtxId) (c : Ctx) (amode : Word) : List Instr → List Eff × State
  | [] => ([], s)
  | i :: is =>
    match sylStore c amode i with
    | none => s.runStores n x c amode is
    | some (io, addrs, ws, sat) =>
      let e := (if sat then [.stick flagSV] else []) ++ (if s.nearStoreRefused n x io addrs then [.stick flagDERR] else [])
      let t := (s.runStore n x io addrs ws).runStores n x c amode is
      (e ++ t.1, t.2)

/-- The results in flight that a list of effects starts; sticky flags take effect after the written ones (R63, R66). -/
def flights (es : List Eff) : List Flight :=
  (es.filterMap fun e => match e with | .res l w => some { left := l, w := w } | .stick _ => none) ++
  (es.filterMap fun e => match e with | .stick m => some { left := 1, w := .reg .flags m m } | .res .. => none)

/-- The illegal-syllable effects of R109 but for FLAGS.ILLEGAL: STATUS, EV8 + n, source 16 + n. -/
def State.illegalSyllable (s : State) (n : CourseId) (x : CtxId) : State :=
  let k := match x with | .fg => 0 | .bg => 1
  ((s.setRbit (regC_STATUS n) (16 + k)).faultOccurs (16 + n.val)).raiseEvent (8 + n.val) (BitVec.ofNat 32 k)

/-- The control-sequence event of R96 and R99 (R194). -/
def State.ctlSequence (s : State) (n : CourseId) (x : CtxId) (pc : BitVec 14) : State :=
  s.raiseEvent (16 + n.val) (BitVec.ofNat 32 ((match x with | .fg => 0 | .bg => 1) + pc.toNat * 65536))

/-- The program counter, delay slot and repeat count after the last issue of a bundle (R79, R96, R98, R102), with whether the control-sequence event occurs. `repeated` says that a REP applied to the bundle. -/
def afterBundle (c : Ctx) (ops : List Instr) (len : Nat) (repeated : Bool) : Ctx × Bool :=
  let seq := c.pc + BitVec.ofNat 14 len
  let t := transferAny c ops
  let suppressed := c.slot.isSome && t.isSome
  let ended := ops.any endsWork
  let c1 := { c with
    pc := if ended then seq else c.slot.getD seq
    slot := if c.slot.isSome || ended then none else t
    rep := ops.findSome? (repCount c)
    ended := ended }
  (c1, suppressed || (repeated && ops.any ctlOther))

/-- Whether every read of the stalled bundle is done and the posted-write buffer has room for all its stores (R51). -/
def State.bundleReady (s : State) (n : CourseId) (x : CtxId) (st : Stall) : Bool :=
  let c := (s.course n).ctx x
  let ops := bundleOps x st.syls
  match st.reads with
  | none => false
  | some rs =>
    let q := s.postedOf n x c (s.amode n x) ops
    rs.all (·.isDone) && (q.isEmpty || decide ((s.course n).posted.length + q.length ≤ 8))

/-- The syllable addresses of a bundle, read from program memory (R79, R369). -/
def fetchUnits (pc : BitVec 14) (len : Nat) : List Nat := (List.range len).map fun i => (pc + BitVec.ofNat 14 i).toNat

/-- A channel of the bundle has the reserved address mode: the configuration-error event of its first use (R56). -/
def State.modeError (s : State) (n : CourseId) (x : CtxId) (ops : List Instr) : State :=
  let a := match x with | .fg => regC_AMODE_FG n | .bg => regC_AMODE_BG n
  let chans := ops.filterMap fun i => match i with
    | .ld _ ch .. | .st _ ch .. | .modp _ ch _ | .inp _ ch .. | .out _ ch .. => some ch
    | _ => none
  (chans.filter fun ch => fld (s.reg a) (2 * ch.val) 2 == 3).foldl (fun s ch =>
    let k := n.val * 32 + (match x with | .fg => 0 | .bg => 16) + ch.val
    if s.modeUsed.contains k then s else ({ s with modeUsed := s.modeUsed ++ [k] }).configError a) s

/-- One issue of a bundle completes: operands were read before, results start their flight, stores act, and results already in flight come one bundle nearer (R66, R67). A bundle that a REP repeats counts as one bundle for R109: each repetition executes its undefined syllables and sets FLAGS.ILLEGAL again, while STATUS, the event and the fault come with the first (DEDUCED, log entry 90). -/
def State.completeIssue (s : State) (n : CourseId) (x : CtxId) (st : Stall) : State :=
  let cr := s.course n
  let c := cr.ctx x
  let am := s.amode n x
  let ops := bundleOps x st.syls
  let seq := c.pc + BitVec.ofNat 14 st.syls.length
  let illegal := bundleIllegal x st.noStop st.syls
  let e1 := bundleEffects c cr am seq ops (st.reads.getD [])
  let r3 := s.runExtension n x c ops
  let r4 := r3.2.runStores n x c am ops
  let e5 := if illegal then [.stick flagILLEGAL] else []
  let fs := flights (e1 ++ r3.1 ++ r4.1 ++ e5)
  let s5 := r4.2.modCourse n fun k => k.setCtx x ({ c with flight := c.flight ++ fs }).advance
  if illegal && st.first then s5.illegalSyllable n x else s5

/-- The bundle is finished: the program counter and what follows it (R79, R96, R98). -/
def State.finishBundle (s : State) (n : CourseId) (x : CtxId) (c0 : Ctx) (st : Stall) (repeated : Bool) : State :=
  let ops := bundleOps x st.syls
  let a := afterBundle c0 ops st.syls.length repeated
  let s1 := s.modCourse n fun k => k.setCtx x { k.ctx x with
    pc := a.1.pc, slot := a.1.slot, rep := a.1.rep, ended := a.1.ended, stall := none }
  if a.2 then s1.ctlSequence n x c0.pc else s1

/-- The reads of the stalled bundle are issued (R51). -/
def State.issueStall (s : State) (n : CourseId) (x : CtxId) (st : Stall) : State :=
  let c := (s.course n).ctx x
  let ops := bundleOps x st.syls
  let s0 := (s.memReads n.val (fetchUnits c.pc st.syls.length)).modeError n x ops
  let r := s0.issueReads n x c (s.amode n x) ops
  r.2.modCourse n fun k => k.setCtx x { k.ctx x with stall := some { st with reads := some r.1 } }

/-- A REP applied to the stalled bundle, which holds only NOP or ROTS of the CTL class (R98, R99). -/
def Ctx.repeating (c : Ctx) : Bool := c.rep.isSome

/-- The stalled bundle goes on as far as it can: each issue completes once its reads are done and its stores have room, then the next repetition is issued (R51, R98 to R100). -/
def State.runStall : Nat → State → CourseId → CtxId → State
  | 0, s, _, _ => s
  | k + 1, s, n, x =>
    match ((s.course n).ctx x).stall with
    | none => s
    | some st =>
      if s.bundleReady n x st then
        let c0 := (s.course n).ctx x
        let s1 := s.completeIssue n x st
        if st.reps = 0 then s1.finishBundle n x c0 st c0.repeating
        else State.runStall k (s1.issueStall n x { st with reps := st.reps - 1, first := false, reads := none }) n x
      else s

/-- A preempted background context: every result in flight is written, and a stalled bundle, of which no store has entered the buffer, is kept to be issued again (R69, R71). -/
def Ctx.preempt (c : Ctx) : Ctx := { c.drain with stall := c.stall.map fun st => { st with reads := none } }

/-- The preemption that a tick has asked for takes place once no bundle of the background is stalled and no REP is in progress (R71, R100). -/
def State.settle (s : State) (n : CourseId) : State :=
  let c := s.course n
  if c.preemptDue && decide (c.phase = .back) && c.bg.stall.isNone && c.bg.rep.isNone then
    s.setCourse n { c with phase := .entry, preemptDue := false, bg := c.bg.preempt }
  else s

/-- The stalled bundle of a context goes on. -/
def State.resumeStall (s : State) (n : CourseId) (x : CtxId) : State :=
  match ((s.course n).ctx x).stall with
  | none => s
  | some st => (State.runStall (st.reps + 1) s n x).settle n

/-- Bundle R under a REP of count 0 is skipped: one issued bundle for the latencies, no syllable executes (R98). Undefined syllables and reserved bits in it cause nothing, for no syllable of it executes (DEDUCED, log entry 90). -/
def State.skipBundle (s : State) (n : CourseId) (x : CtxId) (len : Nat) : State :=
  (s.modCourse n fun k =>
    let c := (k.ctx x).advance
    k.setCtx x { c with pc := c.pc + BitVec.ofNat 14 len, rep := none }).settle n

/-- A complete bundle issues (R79 to R83, R98, R99). -/
def State.issueBundle (s : State) (n : CourseId) (x : CtxId) (syls : List Syl) (noStop : Bool) : State :=
  let c := (s.course n).ctx x
  let other := (bundleOps x syls).any ctlOther
  match c.rep with
  | some 0 =>
    if other then (s.issueStall n x { syls := syls, noStop := noStop, first := true, reps := 0, reads := none }).resumeStall n x
    else s.skipBundle n x syls.length
  | some (r + 1) =>
    (s.issueStall n x { syls := syls, noStop := noStop, first := true, reps := if other then 0 else r, reads := none }).resumeStall n x
  | none =>
    (s.issueStall n x { syls := syls, noStop := noStop, first := true, reps := 0, reads := none }).resumeStall n x

/-- A context may issue: its Course is in FORE or BACK for it, no bundle of it is stalled, and its work has not ended; once a tick has asked for preemption the background issues only what a REP in progress still needs (R35, R68, R71, R100, R102). -/
def Course.mayIssue (c : Course) (x : CtxId) : Bool :=
  (match x with | .fg => decide (c.phase = .fore) | .bg => decide (c.phase = .back) && !(c.preemptDue && c.bg.rep.isNone)) && (c.ctx x).stall.isNone && !(c.ctx x).ended

/-- A syllable joins the bundle of its context; at its stop bit, or as the eighth, the bundle issues (R79, R81). A context that may not issue, or a Course without a clock (R303), takes no syllable (log entry 10). -/
def State.syllable (s : State) (h : SylHdr) (u : SylUnit) (bad : Bool) (op : Instr) : State :=
  let c := s.course h.n
  if c.mayIssue h.x && s.courseClock then
    let b := (c.ctx h.x).bundle ++ [{ op := op, unit := u, bad := bad, rsv := h.rsv }]
    if h.stop || decide (8 ≤ b.length) then
      (s.modCourse h.n fun k => k.setCtx h.x { k.ctx h.x with bundle := [] }).issueBundle h.n h.x b (!h.stop)
    else s.modCourse h.n fun k => k.setCtx h.x { k.ctx h.x with bundle := b }
  else s

end Sys2Proof.Machine
end

