-- ==== Sys2Proof/Machine/Delay.lean ====
section
/-! DEFINITION. Delay lines and taps: the tables and their checks (R120, R121), held samples and write geometry (R122, R124), crossfades of a delay or length change (R123, R126, R402), mailbox prefetch (R74, R75), and the commands of the delay controller. -/

namespace Sys2Proof.Machine

/-- The address of word `w` of line `l` of Course `n` (R120). -/
def lineAddr (n l w : Nat) : Nat := 0x07000000 + n * 0x20000 + 16 * l + 4 * w

/-- The address of word `w` of tap `j` of Course `n` (R120). -/
def tapAddr (n j w : Nat) : Nat := 0x07004000 + n * 0x20000 + 8 * j + 4 * w

/-- A line or tap table word: Course, tap table or line table, entry, word (R120). -/
structure DelayWord where
  course : Nat
  isTap : Bool
  index : Nat
  word : Nat
deriving DecidableEq, Repr

/-- The table word at a byte address, if it is aligned and lies in a line or tap table (R11, R120). -/
def delayWord (a : Nat) : Option DelayWord :=
  if 0x07000000 ≤ a ∧ a < 0x07100000 ∧ a % 4 = 0 then
    let n := (a - 0x07000000) / 0x20000
    let o := (a - 0x07000000) % 0x20000
    if o < 0x4000 then some { course := n, isTap := false, index := o / 16, word := o / 4 % 4 }
    else if o < 0x8000 then some { course := n, isTap := true, index := (o - 0x4000) / 8, word := o / 4 % 2 }
    else none
  else none

/-- The word is shadowed: LEN and DELAY (R120). -/
def DelayWord.shadowed (d : DelayWord) : Bool := if d.isTap then d.word == 1 else d.word == 2

/-- The bits of a delay table word that hold state; the others are reserved (R120). -/
def DelayWord.mask (d : DelayWord) : Word :=
  if d.isTap then (if d.word = 0 then 0x800003FF#32 else 0x00FFFFFF#32)
  else match d.word with
    | 0 => 0xFFFFFFFF#32
    | 1 | 2 => 0x00FFFFFF#32
    | _ => 0x0000001F#32

/-- CAP of a line (R120). -/
def State.lineCap (s : State) (n l : Nat) : Nat := fld (s.tabGet (lineAddr n l 1)) 0 24

/-- BASE of a line (R120). -/
def State.lineBase (s : State) (n l : Nat) : Nat := fld (s.tabGet (lineAddr n l 0)) 0 31

/-- BASE and CAP lie inside the delay region (R121). -/
def State.lineInside (s : State) (n l : Nat) : Bool :=
  decide (s.regionBase 0 ≤ s.lineBase n l) && decide (s.lineBase n l + s.lineCap n l ≤ s.regionBase 0 + s.regionSize 0)

/-- EN of a line below the declared count (R121). -/
def State.lineEn (s : State) (n l : Nat) : Bool := bit (s.tabGet (lineAddr n l 0)) 31 && decide (l < s.declLines (fin 7 n))

/-- The line works: enabled, declared and inside the delay region (R121). -/
def State.lineOn (s : State) (n l : Nat) : Bool := s.lineEn n l && s.lineInside n l

/-- A number clamped to a range (R121). -/
def clampNat (lo hi v : Nat) : Nat := if v < lo then lo else if hi < v then Nat.max lo hi else v

/-- The ring length that a LEN word gives: clamped to 2 … CAP (R121). -/
def State.lenOf (s : State) (n l : Nat) (w : Word) : Nat := clampNat 2 (s.lineCap n l) (fld w 0 24)

/-- The committed ring length of a line. -/
def State.lineLen (s : State) (n l : Nat) : Nat := s.lenOf n l (s.tabGet (lineAddr n l 2))

/-- The key of a line. -/
def lineKey (n l : Nat) : Nat := n * 1024 + l

/-- The key of a tap. -/
def tapKey (n j : Nat) : Nat := n * 2048 + j

/-- A line: listed, or with its committed length and nothing written (R124). Its write position starts at 0, and a line enabled again goes on from the position it had: R124 gives no start value (DESIGN CHOICE, log entry 92). -/
def State.line (s : State) (n l : Nat) : Line :=
  (mapFind s.lines (lineKey n l)).getD { ring := s.lineLen n l, pos := 0, oldUntil := 0, hist := [], posted := [] }

/-- A line is replaced. -/
def State.setLine (s : State) (n l : Nat) (v : Line) : State :=
  { s with lines := mapIns (mapDel s.lines (lineKey n l)) (lineKey n l) v }

/-- LINE of a tap (R120). -/
def State.tapLine (s : State) (n j : Nat) : Nat := fld (s.tabGet (tapAddr n j 0)) 0 10

/-- EN of a tap below the declared count (R121). -/
def State.tapEn (s : State) (n j : Nat) : Bool := bit (s.tabGet (tapAddr n j 0)) 31 && decide (j < s.declTaps (fin 7 n))

/-- A member that starts: it has read nothing yet (R122). -/
def newMember (d : Nat) : TapMember := { delay := d, held := true, fadeAt := none }

/-- The delay that a DELAY word and a ring length give: clamped to 2 … LEN (R121). -/
def delayOf (len : Nat) (w : Word) : Nat := clampNat 2 len (fld w 0 24)

/-- A tap: listed, or with its committed delay. -/
def State.tap (s : State) (n j : Nat) : Tap :=
  (mapFind s.taps (tapKey n j)).getD
    { fade := Fade.single (newMember (delayOf (s.lineLen n (s.tapLine n j)) (s.tabGet (tapAddr n j 1)))), quietAt := 0, waiting := none }

/-- A tap is replaced. -/
def State.setTap (s : State) (n j : Nat) (v : Tap) : State :=
  { s with taps := mapIns (mapDel s.taps (tapKey n j)) (tapKey n j) v }

/-- The enabled and declared taps of a Course, ascending. -/
def State.tapsOn (s : State) (n : Nat) : List Nat :=
  s.tab.filterMap fun e =>
    match delayWord e.1 with
    | some d => if d.course = n ∧ d.isTap ∧ d.word = 0 ∧ s.tapEn n d.index then some d.index else none
    | none => none

/-- The working lines of a Course, ascending. -/
def State.linesOn (s : State) (n : Nat) : List Nat :=
  s.tab.filterMap fun e =>
    match delayWord e.1 with
    | some d => if d.course = n ∧ !d.isTap ∧ d.word = 0 ∧ s.lineOn n d.index then some d.index else none
    | none => none

/-! ## Checks (R121) -/

/-- A configuration error: EV41, STATUS.CFG, and the first case in CFGERR (R121, R129, R194). -/
def State.delayError (s : State) (kind n i : Nat) : State :=
  let s1 := s.setRbit regDLY_STATUS 30
  let s2 := if s1.rbit regDLY_CFGERR 31 then s1 else
    s1.setReg regDLY_CFGERR (BitVec.ofNat 32 (0x80000000 + kind * 2 ^ 29 + n * 2 ^ 24 + i))
  s2.raiseEvent 41 (BitVec.ofNat 32 (n * 2 ^ 24 + i))

/-- The checks of one line entry (R121). -/
def State.checkLine (s : State) (n l : Nat) : State :=
  if s.lineEn n l then
    if !s.lineInside n l then s.delayError 0 n l
    else if s.lineLen n l ≠ fld (s.tabGet (lineAddr n l 2)) 0 24 then s.delayError 1 n l
    else s
  else s

/-- The checks of one tap entry (R121). -/
def State.checkTap (s : State) (n j : Nat) : State :=
  if s.tapEn n j then
    let l := s.tapLine n j
    if !s.lineOn n l then s.delayError 3 n j
    else if delayOf (s.lineLen n l) (s.tabGet (tapAddr n j 1)) ≠ fld (s.tabGet (tapAddr n j 1)) 0 24 then s.delayError 2 n j
    else s
  else s

/-- The checks that a changed table word calls for: its entry, and with LEN every tap of the line (R121). -/
def State.checkDelayWord (s : State) (a : Nat) : State :=
  match delayWord a with
  | none => s
  | some d =>
    if d.isTap then s.checkTap d.course d.index
    else ((s.tapsOn d.course).filter fun j => s.tapLine d.course j == d.index).foldl (fun s j => s.checkTap d.course j)
      (s.checkLine d.course d.index)

/-! ## Writing samples (R76, R122, R124) -/

/-- The sample of frame `k` of a line is written in the ring length in force: held samples that no longer fit a ring length since they were written are dropped (R122). -/
def Line.post (ln : Line) (k : Nat) (v : Word) : Line :=
  { ln with
    hist := ((k, v, ln.ring) :: ln.hist.map fun e => (e.1, e.2.1, Nat.min e.2.2 ln.ring)).filter fun e => decide (k + 1 - e.1 ≤ e.2.2)
    posted := ln.posted ++ [(k, ln.pos, v)]
    pos := (ln.pos + 1) % ln.ring }

/-- The samples of frame `k` of every working line of a Course are retired; a port not written stores zero (R76). -/
def State.retireTaps (s : State) (n : CourseId) (k : Nat) (ws : List (Nat × Word)) : State :=
  (s.linesOn n.val).foldl (fun s l => s.setLine n.val l ((s.line n.val l).post k (wmGet ws l))) s

/-! ## Prefetch (R74, R75, R122, R123) -/

/-- The next frame whose bank the controller fills for a Course (R75). -/
def Course.nextPrefetch (c : Course) : Nat := if c.mboxReady then c.frame + 1 else c.frame

/-- The sample that a member reads in frame `k`, if it is held (R122). -/
def Line.sample (ln : Line) (k d : Nat) : Option Word :=
  if d ≤ ln.ring ∧ d ≤ k then (ln.hist.find? fun e => decide (e.1 + d = k ∧ d ≤ e.2.2)).map (·.2.1) else none

/-- A member after its read of frame `k`, with its value: fade-in over 64 frames after an unheld sample (R122). -/
def TapMember.read (m : TapMember) (ln : Line) (k : Nat) : TapMember × Int :=
  match ln.sample k m.delay with
  | none => ({ m with held := false, fadeAt := none }, 0)
  | some x =>
    let at' := if m.held then m.fadeAt else some k
    let y := match at' with
      | some a => if k < a + 64 then fadePair 0 x.toInt (fadeWeight (k - a) 64) else x.toInt
      | none => x.toInt
    ({ m with held := true, fadeAt := at' }, y)

/-- One tap is read for frame `k` into a bank; a member whose crossfade starts later reads nothing yet (R74, R121 to R123). -/
def State.prefetchTap (s : State) (n : CourseId) (k j : Nat) : State :=
  let l := s.tapLine n.val j
  let t := s.tap n.val j
  let put (s : State) (v : Word) := s.modCourse n fun c => { c with mbox := wmSet c.mbox (k % 2 * 2048 + j) v }
  if s.lineOn n.val l then
    let ln := s.line n.val l
    let r := (t.fade.live k).mapAt k (fun m => m.read ln k) fun m => (m, 0)
    put (s.setTap n.val j { t with fade := r.map (·.1) }) (ofInt (r.value (·.2) k))
  else put s 0

/-- A bank is filled for frame `k`: every entry of the bank is written, those without a tap in use with zero (R74). -/
def State.fillBank (s : State) (n : CourseId) (k : Nat) : State :=
  let s1 := s.modCourse n fun c => { c with
    mbox := c.mbox.filter fun e => decide (e.1 / 2048 ≠ k % 2)
    mboxFrame := c.mboxFrame.set (k % 2) (some k) (Nat.mod_lt k (by decide)) }
  (s1.tapsOn n.val).foldl (fun s j => s.prefetchTap n k j) s1

/-- The mailbox entries that a stalled bundle waits for are ready; a word of such a read that is refused is recorded as any refusal (R55, R74). -/
def State.releaseMbox (s : State) (n : CourseId) : State :=
  let c := s.course n
  match c.fg.stall with
  | none => s
  | some st =>
    let rs := st.reads.getD []
    if rs.any (fun r => match r with | .mbox _ => true | _ => false) && c.mboxReady then
      let rs' := rs.map fun r => match r with | .mbox addrs => s.nearRead n .fg addrs | r => r
      let s1 := rs.foldl (fun s r => match r with | .mbox addrs => s.nearServed n .fg addrs | _ => s) s
      (s1.modCourse n fun c => { c with mboxOpen := true, fg := { c.fg with stall := some { st with reads := some rs' } } }).resumeStall n .fg
    else s

/-- The DRAM reads of a prefetch: the controller forwards samples from its buffers and moves blocks of 16, so which words of the lines in use it reads is open (R122, R370; log entry 2). -/
def State.tapReads (s : State) (n : Nat) : State :=
  s.memMay 17 fun u => (s.tapsOn n).any fun j =>
    let l := s.tapLine n j
    s.lineOn n l && decide (s.lineBase n l ≤ u + 1) && decide (u < s.lineBase n l + s.lineLen n l)

/-- TAP_PREFETCH (R75): the bank of the next frame is filled during the frame before it, once the Course has completed the work that reads that bank; a program stalled on the mailbox goes on. Otherwise, and while the DRAM or the controller has no clock (R304, R306), nothing happens. -/
def execTapPrefetch (n : CourseId) (s : State) : Host.Outcome State Fault Refusal :=
  .next (
    let c := s.course n
    let k := c.nextPrefetch
    if s.dramOn ∧ !s.gatedOff 13 ∧ k ≤ s.now + 1 ∧ c.mboxFrame.get (fin 1 (k % 2)) ≠ some k then ((s.tapReads n.val).fillBank n k).releaseMbox n else s)

/-! ## Changes of delay and length (R123, R126, R402) -/

/-- Members beyond the first of each tap in frame `k` (R126, R129). -/
def State.tapExtra (s : State) (k : Nat) : Nat := (s.taps.map fun e => e.2.fade.sizeAt k - 1).sum

/-- A tap may take a further member in frame `k`: at most four, and the reserve of 4,096 (R126). -/
def State.tapRoom (s : State) (n j k : Nat) : Bool := decide ((s.tap n j).fade.sizeAt k < 4) && decide (s.tapExtra k < 4096)

/-- The crossfade length of the group of a line (R120, R123). -/
def State.lineFade (s : State) (n l : Nat) : Nat := s.xfadeLen (fld (s.tabGet (lineAddr n l 3)) 0 5)

/-- A tap starts a crossfade to a delay at frame `c`. -/
def State.tapBegin (s : State) (n j c d f : Nat) : State :=
  let t := s.tap n j
  s.setTap n j { fade := t.fade.begin c (newMember d) f, quietAt := c + f, waiting := none }

/-- A deferral is counted and EV42 occurs (R126, R402). -/
def State.tapDefer (s : State) (n j c d : Nat) : State :=
  let t := s.tap n j
  ((s.setTap n j { t with waiting := some (c, d) }).count regDLY_DEFER_CNT 1).raiseEvent 42 (BitVec.ofNat 32 (n * 2 ^ 24 + j))

/-- A change of a tap that is due at commit frame `c`: it starts, or waits (R123, R126, R402). -/
def State.tapChange (s : State) (n j c d f : Nat) : State :=
  if s.tapRoom n j c then s.tapBegin n j c d f else s.tapDefer n j c d

/-- A word of the copies fixed for a frame, else the newest copy fixed before. -/
def State.fixedWord (s : State) (fixed : List (Nat × Word)) (a : Nat) : Word := (mapFind fixed a).getD (s.newest a)

/-- The taps that a fixed change concerns: those whose DELAY changes and those of a line whose LEN changes (R123). -/
def State.tapsChanged (s : State) (fixed : List (Nat × Word)) (n : Nat) : List Nat :=
  (s.tapsOn n).filter fun j =>
    (mapFind fixed (tapAddr n j 1)).isSome || (mapFind fixed (lineAddr n (s.tapLine n j) 2)).isSome

/-- The crossfade length of a group among the fixed copies (R185). -/
def State.fixedFade (s : State) (fixed : List (Nat × Word)) (g : Nat) : Nat :=
  let n := fld (s.fixedWord fixed (regPEG_XFADE g)) 0 13
  if n = 0 ∨ n > 4096 then 256 else n

/-- The waiting taps, with their commit frames. -/
def State.tapsWaiting (s : State) : List (Nat × Nat) := s.taps.filterMap fun e => e.2.waiting.map fun w => (w.1, e.1)

/-- The taps that wait from earlier commit frames take their turns in frame `c`, but for those whose change the keys `replaced` replace (R402). -/
def State.tapTurns (s : State) (fixed : List (Nat × Word)) (replaced : List Nat) (c : Nat) : State :=
  (turnOrder (s.tapsWaiting.filter fun e => decide (e.1 < c) && !replaced.contains e.2)).foldl (fun s key =>
    let n := key / 2048
    let j := key % 2048
    match (s.tap n j).waiting with
    | some w =>
      if s.tapRoom n j c then s.tapBegin n j c w.2 (s.fixedFade fixed (fld (s.tabGet (lineAddr n (s.tapLine n j) 3)) 0 5)) else s
    | none => s) s

/-- The tap crossfades of the copies fixed for frame `c` start: first the changes that wait from earlier commit frames, then those of this commit, Course by Course and in tap order; the prefetch for frame `c` already uses the new delays (R123, R178, R402). -/
def State.delayFix (s : State) (fixed : List (Nat × Word)) (c : Nat) : State :=
  let replaced := (List.range 8).flatMap fun n => (s.tapsChanged fixed n).map (tapKey n)
  (List.range 8).foldl (fun s n =>
    (s.tapsChanged fixed n).foldl (fun s j =>
      let l := s.tapLine n j
      let len := s.lenOf n l (s.fixedWord fixed (lineAddr n l 2))
      let d := delayOf len (s.fixedWord fixed (tapAddr n j 1))
      let s := s.setLine n l (s.line n l)
      s.tapChange n j c d (s.fixedFade fixed (fld (s.tabGet (lineAddr n l 3)) 0 5))) s) (s.tapTurns fixed replaced c)

/-- TAP_CROSSFADE_END (R123): after the last frame of a tap's crossfade the replaced members retire. -/
def execTapCrossfadeEnd (n : CourseId) (j : Fin 2048) (s : State) : Host.Outcome State Fault Refusal :=
  .next (
    let t := s.tap n.val j.val
    if t.fade.over (s.course n).nextPrefetch then s.setTap n.val j.val { t with fade := t.fade.finish } else s)

/-- In frame `f` no tap of the line crossfades or waits (R124). -/
def State.lineQuiet (s : State) (n l f : Nat) : Bool :=
  (s.tapsOn n).all fun j => s.tapLine n j != l || (decide ((s.tap n j).fade.sizeAt f = 1) && (s.tap n j).waiting.isNone && decide ((s.tap n j).quietAt ≤ f))

/-- LENGTH_FOLD (R124): with no crossfade of the line left and the previous geometry's frames passed, the write position folds into the committed ring length. Otherwise nothing happens. -/
def execLengthFold (n : CourseId) (line : Fin 1024) (s : State) : Host.Outcome State Fault Refusal :=
  .next (
    let ln := s.line n.val line.val
    let l2 := s.lineLen n.val line.val
    let f := (s.course n).frame
    if l2 ≠ ln.ring ∧ s.lineQuiet n.val line.val f ∧ ln.oldUntil ≤ f then
      s.setLine n.val line.val { ln with ring := l2, pos := ln.pos % l2, oldUntil := f + l2 }
    else s)

/-- The tap engine writes a DRAM word: in the delay region only; any other is refused (R119). -/
def State.tapStore (s : State) (w : Nat) (v : Word) : State :=
  match s.dramRegion w with
  | some 0 => s.dramPut w v
  | r => s.ridgeRefused (if r.isNone then 1 else 2) 8 true (BitVec.ofNat 32 w)

/-- DELAY_BLOCK_WRITE (R119, R122): the oldest posted samples of a line that stand in one block of 16 ring positions reach DRAM. -/
def execDelayBlockWrite (n : CourseId) (line : Fin 1024) (s : State) : Host.Outcome State Fault Refusal :=
  .next (
    let ln := s.line n.val line.val
    if !s.dramOn then s
    else match ln.posted with
    | [] => s
    | e :: _ =>
      let blk := ln.posted.takeWhile fun p => p.2.1 / 16 == e.2.1 / 16
      let base := s.lineBase n.val line.val
      (blk.foldl (fun s p => s.tapStore (base + p.2.1) p.2.2) s).setLine n.val line.val
        { ln with posted := ln.posted.drop blk.length })

/-! ## Writes of the tables while the Course is halted (R120, R121, R129) -/

/-- A tap starts anew from its table words: what it held of an earlier line or delay is gone. -/
def State.tapForget (s : State) (n j : Nat) : State := { s with taps := mapDel s.taps (tapKey n j) }

/-- The delay of the newest change of a listed tap: that which waits, else the newest member's. -/
def Tap.delayNow (t : Tap) : Nat := match t.waiting with | some w => w.2 | none => t.fade.newest.delay

/-- The taps of a Course that stand otherwise than the tables give after a halted write: on no line in use by EN and the declared count, or with another clamped delay. They start anew (R121; DEDUCED, log entry 92). -/
def State.tapsAnew (s : State) (n : Nat) : State :=
  (s.taps.filter fun e => decide (e.1 / 2048 = n)).foldl (fun (t : State) e =>
    let j := e.1 % 2048
    if s.tapEn n j && decide (e.2.delayNow = delayOf (s.lineLen n (s.tapLine n j)) (s.tabGet (tapAddr n j 1))) then t else t.tapForget n j) s

/-- A word of the tables changes while its Course is halted: checks, and the taps that it concerns; a tap that goes to another line starts anew there (R120, R121). -/
def State.delayPut (s : State) (d : DelayWord) (a : Nat) (v : Word) : State :=
  let s1 := s.tabLoad a (v &&& d.mask)
  let s2 := if d.isTap && d.word == 0 && decide (fld (s.tabGet a) 0 10 ≠ fld v 0 10) then s1.tapForget d.course d.index else s1
  (s2.tapsAnew d.course).checkDelayWord a

/-- DELAY_TABLE_WRITE (R120): a word that is not shadowed changes while its Course is halted; any other write is ignored and sets DLY.STATUS.HOSTREF. GROUP of a line is such a word, though R167 calls group assignments boot-only (DEDUCED, log entry 92). A misaligned address, or one outside the tables, is unmapped (R11, R17, R19). -/
def execDelayTableWrite (_m : Master) (a v : Word) (s : State) : Host.Outcome State Fault Refusal :=
  .next (match delayWord a.toNat with
    | none => s.unmapped
    | some d =>
      if d.shadowed || !(s.course (fin 7 d.course)).isHalted then s.setRbit regDLY_STATUS 31
      else s.delayPut d a.toNat v)

/-- DLY_DECL_WRITE (R129): the declared counts change while the Course is halted, and taps no longer declared start anew when they are declared again; otherwise HOSTREF is set. -/
def execDlyDeclWrite (_m : Master) (n : CourseId) (v : Word) (s : State) : Host.Outcome State Fault Refusal :=
  .next (
    if (s.course n).isHalted then (s.setReg (regDLY_DECL n.val) (v &&& 0x0FFF07FF#32)).tapsAnew n.val
    else s.setRbit regDLY_STATUS 31)

end Sys2Proof.Machine
end

