-- ==== Sys2Proof/Machine/Ridge.lean ====
section
/-! DEFINITION. The Ridge as Courses see it: returns of reads and acceptances of posted writes (R51, R401), scratch handovers (R113, R114), and the slow Ridge (R135). The grant of a target port is in Machine/Bus.lean. -/

namespace Sys2Proof.Machine

/-- The first slot that is not done takes its data; nothing changes when it has none. -/
def fillSlot : List ReadSlot → List ReadSlot
  | [] => []
  | .ridge _ (some ws) :: t => .done ws 1 false :: t
  | .done ws l r :: t => .done ws l r :: fillSlot t
  | e :: t => e :: t

/-- The first slot that is not done. -/
def openSlot (rs : List ReadSlot) : Option ReadSlot := rs.find? fun r => !r.isDone

/-- RIDGE_READ_RETURN (R51, R401): the data that the grant took reach the stalled bundle, which goes on. A read of a target at which a posted write of the Course is pending waits for its acceptance. Without granted data nothing happens. -/
def execRidgeReadReturn (n : CourseId) (x : CtxId) (s : State) : Host.Outcome State Fault Refusal :=
  .next (
    let c := s.course n
    match (c.ctx x).stall with
    | none => s
    | some st =>
      let rs := st.reads.getD []
      match openSlot rs with
      | some (.ridge _ (some _)) =>
        (s.modCourse n fun c => c.setCtx x { c.ctx x with stall := some { st with reads := some (fillSlot rs) } }).resumeStall n x
      | _ => s)

/-- POSTED_WRITE_ACCEPT (R51): the oldest posted write, granted at its target, leaves the buffer, and a bundle that waits for room goes on. Without a granted write nothing happens. -/
def execPostedWriteAccept (n : CourseId) (s : State) : Host.Outcome State Fault Refusal :=
  .next (
    match (s.course n).posted with
    | p :: ps =>
      if p.granted then
        let stalled := (s.course n).fg.stall.isSome
        let s1 := s.modCourse n fun c => { c with posted := ps }
        let s2 := (s1.resumeStall n .fg).resumeStall n .bg
        if stalled && (s2.course n).fg.stall.isNone then s2.modCourse n fun c => { c with ioOpen := true } else s2
      else s
    | [] => s)

/-- The owner code that a written value names: reserved codes act as the reset value 0x9 (R111, R113). -/
def ownerOf (v : Word) : Nat :=
  let o := fld v 0 4
  if 11 ≤ o ∧ o ≤ 14 then 9 else o

/-- Master `m` may request a handover of a bank (R113). -/
def State.mayHandOver (s : State) (m b : Nat) : Bool :=
  let o := s.rfld (regSCR_OWN b) 0 4
  decide (ownerCode m = o) || decide (m = 10) || (decide (m ≤ 7) && (decide (o = 8) || decide (o = 10)))

/-- SCR_OWN_WRITE (R113, R114): an accepted request of another owner sets PEND and every port takes the new owner; one that names the owner in force changes nothing; any other request is recorded. A reserved code raises EV5 (R13). -/
def execScrOwnWrite (m : Master) (b : Fin 64) (v : Word) (s : State) : Host.Outcome State Fault Refusal :=
  .next (
    let s := if 11 ≤ fld v 0 4 ∧ fld v 0 4 ≤ 14 then s.configError (regSCR_OWN b.val) else s
    if !s.mayHandOver m.val b.val ∧ !s.scrPend b.val then s.scratchRefused 1 m.val b.val 0
    else if s.scrPend b.val then s.scratchRefused 2 m.val b.val 0
    else if ownerOf v = s.rfld (regSCR_OWN b.val) 0 4 then s
    else { s.setRbit (regSCR_OWN b.val) 31 with newOwner := mapIns (mapDel s.newOwner b.val) b.val (ownerOf v) })

/-- A read of a bundle is on the Ridge at a bank. -/
def ReadSlot.atBank (b : Fin 64) : ReadSlot → Bool
  | .ridge r _ => r.ports.contains (.scratch b)
  | _ => false

/-- A context has a read of a bank outstanding. -/
def Ctx.atBank (c : Ctx) (b : Fin 64) : Bool :=
  match c.stall with
  | some st => (st.reads.getD []).any (ReadSlot.atBank b)
  | none => false

/-- A Course other than the new owner has an access of a bank outstanding that it issued before the handover was accepted (R114). -/
def State.bankBusy (s : State) (b : Fin 64) : Bool :=
  courseIds.any fun n => decide (ownerCode n.val ≠ s.scrOwner b.val) &&
    let c := s.course n
    (c.posted.any (fun q => q.req.ports.contains (.scratch b)) || c.fg.atBank b || c.bg.atBank b)

/-- Ownership of a bank passes: PEND clears, HO_DONE is set and EV40 occurs (R114). -/
def State.handOver (s : State) (b : Fin 64) : State :=
  let s1 := s.setReg (regSCR_OWN b.val) (BitVec.ofNat 32 (s.scrOwner b.val))
  let s2 : State := { s1 with newOwner := mapDel s1.newOwner b.val }
  let s3 := if b.val < 32 then s2.setRbit regSCR_HO_DONE_LO b.val else s2.setRbit regSCR_HO_DONE_HI (b.val - 32)
  s3.raiseEvent 40 (BitVec.ofNat 32 b.val)

/-- HANDOVER_COMPLETE (R114): once no earlier access of the bank is outstanding, ownership passes. Without a handover in progress, or before, nothing happens. -/
def execHandoverComplete (b : Fin 64) (s : State) : Host.Outcome State Fault Refusal :=
  .next (if s.scrPend b.val && !s.bankBusy b then s.handOver b else s)

/-- An access of a master other than a Course to a bank whose handover to it is in progress is held until ownership has passed (R114; DESIGN CHOICE, log entry 93): the handover completes first. -/
def State.awaitBank (s : State) (m : Nat) (b : Fin 64) : State :=
  if s.scrPend b.val && s.scrMay m b.val && !s.bankBusy b then s.handOver b else s

/-- RIDGE_SLOW_WRITE (R135, R136): in maintenance mode SLOW takes the written bit, and a change that SLOW_ACT does not show yet starts switching. Outside it the write has no effect (R135, R314; DEDUCED, log entry 93). -/
def execRidgeSlowWrite (_m : Master) (v : Word) (s : State) : Host.Outcome State Fault Refusal :=
  .next (
    if s.rbit regGLOBAL_MODE 16 then
      let s1 := s.setReg regRIDGE_CTRL (v &&& 1#32)
      s1.putRbit regRIDGE_STATUS 1 (bit v 0 != s.rbit regRIDGE_STATUS 0)
    else s)

/-- RIDGE_SLICE_SWITCH (R135): the slices switch, SLOW_ACT follows SLOW and the held accesses proceed. Without a change in progress nothing happens. -/
def execRidgeSliceSwitch (s : State) : Host.Outcome State Fault Refusal := .next s.sliceSwitch

end Sys2Proof.Machine
end

