-- ==== Sys2Proof/Machine/CourseRun.lean ====
section
/-! DEFINITION. The frame work of a Course: its start and completion, slack and backlog (R29 to R35, R70), halts (R73), the reset request (R72), the registers written only when halted (R77), and what a frame tick does to a Course (R35, R71 to R73). -/

namespace Sys2Proof.Machine

/-- The matrix work of frame `k` is complete (R29). -/
def State.matrixDone (s : State) (k : Nat) : Bool :=
  match s.matFrame with
  | some m => decide (k ≤ m)
  | none => false

/-- FOREGROUND_START (R29, R35, R45): in ENTRY, with the tick and the matrix work of its frame past and no halt due, the Course enters FORE: PC takes FG_ENTRY.ENTRY, every other foreground register keeps its value, and the frame starts without feed or tap writes. Otherwise, and in SLEEP (R306), nothing happens. -/
def execForegroundStart (n : CourseId) (s : State) : Host.Outcome State Fault Refusal :=
  .next (
    let c := s.course n
    if s.ticking && !s.asleep && decide (c.phase = .entry) && decide (c.frame ≤ s.now) && s.matrixDone c.frame && !c.haltDue then
      let pc := BitVec.ofNat 14 (s.rfld (regC_FG_ENTRY n.val) 0 14)
      s.setCourse n { c with
        phase := .fore
        fg := { c.fg with pc := pc, slot := none, rep := none, bundle := [], stall := none, ended := false }
        feedCur := [], tapCur := [], ioStall := 0, mboxStall := 0, ioOpen := false, mboxOpen := false
        pageOld := c.pageOld.filter fun e => decide (c.frame < e.1) }
    else s)

/-- A stall count of a work: the modelled cycles, with a free value where a stall of unstated length is among them (R77; log entry 2). -/
def State.stallField (s : State) (modelled : Nat) (isOpen : Bool) : Nat × State :=
  if isOpen then let r := s.draw; (fld r.1 0 16, r.2) else (Nat.min 65535 modelled, s)

/-- The background resumes a preempted task at the first background slot: a bundle abandoned at the tick is issued again (R47, R71). -/
def State.resumeTask (s : State) (n : CourseId) : State :=
  let s1 := s.modCourse n fun c => { c with phase := .back, bgRan := true }
  match (s1.course n).bg.stall with
  | some st => (if st.reads.isNone then s1.issueStall n .bg st else s1).resumeStall n .bg
  | none => s1

/-- FOREGROUND_WORK_COMPLETE (R70, R102): once FEND has issued and every posted write of the foreground is accepted, all results in flight are written and the work of the frame is complete: cycle counts, LATE and BACKLOG_MAX when its successor's tick has passed, the feeds unless the slack was missed, the tap writes, and the next state of R35. `cycles` and `behind` are the Course cycles that the work took and by which it ran behind the tick. Otherwise nothing happens. -/
def execForegroundWorkComplete (n : CourseId) (cycles behind : BitVec 16) (s : State) : Host.Outcome State Fault Refusal :=
  .next (
    let c := s.course n
    if decide (c.phase = .fore) && c.fg.ended && c.posted.all (fun p => decide (p.x ≠ .fg)) then
      let k := c.frame
      let late := decide (k < s.now)
      let met := match c.missed with | some m => decide (m < k) | none => true
      let io := s.stallField c.ioStall c.ioOpen
      let mb := io.2.stallField c.mboxStall c.mboxOpen
      let s1 := (mb.2.setRfld (regC_CYCLES n.val) 16 16 cycles.toNat).setReg (regC_STALL_LAST n.val) (BitVec.ofNat 32 (io.1 * 65536 + mb.1))
      let s2 := s1.setReg (regC_FG_MAX n.val) (BitVec.ofNat 32 (Nat.max (s1.rfld (regC_FG_MAX n.val) 0 16) cycles.toNat))
      let s3 := if late then
          (s2.setRbit regGLOBAL_PIPE_STAT (8 + n.val)).setReg (regC_BACKLOG_MAX n.val)
            (BitVec.ofNat 32 (Nat.max (s2.rfld (regC_BACKLOG_MAX n.val) 0 16) behind.toNat))
        else s2
      let s4 := (s3.retireTaps n k c.tapCur).modCourse n fun c => { c with
        fg := c.fg.drain
        frame := k + 1
        feedOut := if met then c.feedCur else []
        feedFrame := if met then some k else none
        phase := if late || c.haltDue then .entry else .sleep }
      if late || c.haltDue then s4 else if c.task.isSome then s4.resumeTask n else s4
    else s)

/-- SLACK_MISS (R31): the deadline of the frame before the current one passes while a running Course has not completed its work: MISS and LATE, the overrun count and the DEGRADE source. Its feeds are zero until a frame meets its deadline. -/
def execSlackMiss (n : CourseId) (s : State) : Host.Outcome State Fault Refusal :=
  .next (
    let c := s.course n
    let k := s.now - 1
    let already := match c.missed with | some m => decide (k ≤ m) | none => false
    if s.ticking && decide (1 ≤ s.now) && decide (c.frame ≤ k) && (decide (c.phase = .fore) || decide (c.phase = .entry)) && !already then
      let s1 := (s.setRbit regGLOBAL_PIPE_STAT (16 + n.val)).setRbit regGLOBAL_PIPE_STAT (8 + n.val)
      let s2 := (s1.count (regC_OVERRUN_CNT n.val) 1).modCourse n fun c => { c with missed := some k }
      s2.faultOccurs (24 + n.val)
    else s)

/-- BACKLOG_LIMIT (R32): at D(k+1) and each later deadline a Course still in the work of frame k raises the backlog-limit source, whose CRESET reaction acts every time. -/
def execBacklogLimit (n : CourseId) (s : State) : Host.Outcome State Fault Refusal :=
  .next (
    let c := s.course n
    if s.ticking && decide (c.phase = .fore) && decide (c.frame + 2 ≤ s.now) then s.faultOccurs (32 + n.val) else s)

/-- SRESET (R72, R77): a write of 1 to Cn.CTRL.SRESET requests a Course reset at the next frame tick. -/
def execSreset (_m : Master) (n : CourseId) (s : State) : Host.Outcome State Fault Refusal :=
  .next (s.modCourse n fun c => { c with resetReq := true })

/-- HALT (R73, R77): Cn.CTRL.HALT takes the written value; at 0 a halt that a tick had seen is withdrawn and a halted Course restarts at the next tick. -/
def execHalt (_m : Master) (n : CourseId) (on : Bool) (s : State) : Host.Outcome State Fault Refusal :=
  .next (
    let s1 := s.putRbit (regC_CTRL n.val) 0 on
    if on then s1 else s1.modCourse n fun c => { c with haltDue := false })

/-- COURSE_HALTED (R73): a Course whose halt a tick has seen, with no foreground work in progress, stops: both contexts and a preempted task are kept, its feeds carry zero. Otherwise nothing happens. -/
def execCourseHalted (n : CourseId) (s : State) : Host.Outcome State Fault Refusal :=
  .next (
    let c := s.course n
    if c.haltDue && !c.preemptDue && (decide (c.phase = .entry) || decide (c.phase = .sleep) || decide (c.phase = .back)) then
      s.setCourse n { c with bg := if c.phase = .back then c.bg.preempt else c.bg, phase := .halted, haltDue := false, feedFrame := none, feedOut := [], feedLevel := 0 }
    else s)

/-- The three registers of a Course that are written only when halted (R77). -/
def haltedReg (a : Nat) : Option (CourseId × Word) :=
  let n := fin 7 ((a - 0x200000) / 0x10000)
  if a = regC_FG_ENTRY n.val then some (n, 0x00003FFF#32)
  else if a = regC_DMEM_SPLIT n.val then some (n, 0x0000007F#32)
  else if a = regC_AMODE_FG n.val then some (n, 0xFFFFFFFF#32)
  else none

/-- COURSE_HALTED_REGISTER_WRITE (R77): FG_ENTRY, DMEM_SPLIT or AMODE_FG changes while the Course is halted; otherwise the write is ignored and sets HOSTREF. Another address is none of these registers: nothing happens. -/
def execCourseHaltedRegisterWrite (_m : Master) (a v : Word) (s : State) : Host.Outcome State Fault Refusal :=
  .next (match haltedReg a.toNat with
    | none => s
    | some (n, mask) =>
      if (s.course n).isHalted then s.setReg a.toNat (v &&& mask) else s.setRbit (regC_STATUS n.val) 20)

/-! ## What a frame tick does to a Course -/

/-- A syllable reads through the control and status window (R53). -/
def readsCsr (c : Ctx) (amode : Word) (i : Instr) : Bool :=
  match sylRead c amode i with
  | some (true, addrs, _) => (match State.ioTarget .bg false addrs with | .ridge _ => true | _ => false)
  | _ => false

/-- What the background has in progress completes before the tick preempts it: a REP with its repetitions, also where one is stalled, and a stalled bundle that reads through the control and status window; a bundle that makes R99 issue once is no repetition. Any other stalled bundle is abandoned (R71, R100; DEDUCED, log entries 75 and 90). -/
def Ctx.mustFinish (c : Ctx) (amode : Word) : Bool :=
  match c.stall with
  | none => c.rep.isSome
  | some st =>
    let ops := bundleOps .bg st.syls
    (c.rep.isSome && !ops.any ctlOther) || ops.any (readsCsr c amode)

/-- The tap ports of a Course that does not run store zero in the frames from `from'` to before `k` (R73). -/
def State.retireZero (s : State) (n : CourseId) (from' k : Nat) : State :=
  (List.range (k - from')).foldl (fun s i => s.retireTaps n (from' + i) []) s

/-- The scheduler reports the task of a reset Course as aborted (R72, R205). -/
def State.abortTask (s : State) (n : CourseId) : State :=
  match (s.course n).task with
  | none => s
  | some t =>
    (((s.modCourse n fun c => { c with task := none }).count regEVT_ABORT_CNT 1).setRbit regEVT_STATUS 27).raiseEvent 3
      (BitVec.ofNat 32 (t.tag + n.val * 65536))

/-- The Course reset of R72 at the tick of frame `k`: the work in progress is abandoned, the samples of the frames it leaves are retired, the background context is reset, its task aborted, the backlog cleared; the reload starts. A set HALT stays set: the Course stops at the tick that would restart it (R73; DEDUCED, log entry 90). -/
def State.courseReset (s : State) (n : CourseId) (k : Nat) : State :=
  let c := s.course n
  let s1 := (List.range (k - c.frame)).foldl (fun s i =>
    s.retireTaps n (c.frame + i) (if i = 0 ∧ c.phase = .fore then c.tapCur else [])) s
  let s2 := (s1.abortTask n).modCourse n fun c => { c with
    phase := .reset, resetReq := false, reloaded := false, bg := Ctx.reset, frame := k, feedCur := [], feedOut := [], feedFrame := none,
    feedLevel := 0, tapCur := [], missed := none, haltDue := false, preemptDue := false, pageOld := [],
    fg := { c.fg with stall := none, bundle := [], slot := none, rep := none, ended := false } }
  s2.clearBound n

/-- What the tick of frame `k` does to Course `n`: the backlog count, BG_LAST, preemption, the end of a halt or of a reload, a halt request seen, a requested reset; a stopped Course's tap ports store zero in every frame that it does not run (R35, R71 to R73, R77). -/
def State.courseTick (s : State) (n : CourseId) (k : Nat) : State :=
  let c := s.course n
  let stopped := decide (c.phase = .halted) || decide (c.phase = .reset)
  let halt := s.rbit (regC_CTRL n.val) 0
  let finish := decide (c.phase = .back) && c.bg.mustFinish (s.amode n .bg)
  let s1 := if decide (c.frame < k) && !stopped then s.count (regC_BACKLOG_CNT n.val) 1 else s
  let b := s1.stallField 0 c.bgRan
  let s2 := b.2.setRfld (regC_CYCLES n.val) 0 16 b.1
  let s3 := if stopped then s2.retireZero n c.frame k else s2
  let s4 := s3.modCourse n fun c => { c with
    bgRan := finish
    preemptDue := finish
    frame := if stopped then k else c.frame
    phase := match c.phase with
      | .back => if finish then .back else .entry
      | .sleep => .entry
      | .halted => if halt then .halted else .entry
      | .reset => if c.reloaded then (if halt then .halted else .entry) else .reset
      | p => p
    bg := if c.phase = .back ∧ !finish then c.bg.preempt else c.bg
    task := if c.phase = .halted then c.task else c.task.map fun t => { t with ticks := t.ticks + 1 }
    haltDue := c.haltDue || (halt && !stopped) }
  if c.resetReq then s4.courseReset n k else s4

/-- The tick of frame `k` in SLEEP: a Course with foreground work in progress completes it; a halted or reset one, or one with a reset due, is treated as at every tick; any other stops as under a halt, its background goes on where CLK.GATE_SLEEP keeps its clock, and its next foreground work is that of frame k + 1 (R306). No foreground work completes, and what a background read of the bus window returns then is open: the model counts frame k as completed, so the bank follows the frame counter (R54; DESIGN CHOICE, log entry 90). -/
def State.courseSleepTick (s : State) (n : CourseId) (k : Nat) : State :=
  let c := s.course n
  if decide (c.phase = .fore) || decide (c.phase = .halted) || decide (c.phase = .reset) || c.resetReq then s.courseTick n k
  else
    let off := s.gatedOff n.val
    let b := s.stallField 0 c.bgRan
    let s1 := b.2.setRfld (regC_CYCLES n.val) 0 16 b.1
    let s2 := if s.gatedOff 13 then s1 else s1.retireTaps n k []
    let s3 := s2.modCourse n fun c => { c with
      frame := k + 1, feedFrame := none, feedOut := [], feedLevel := 0, preemptDue := false
      bgRan := !off && decide (c.phase = .back)
      haltDue := c.haltDue || s.rbit (regC_CTRL n.val) 0
      phase := if off || c.task.isNone then .sleep else c.phase
      bg := if off && decide (c.phase = .back) then c.bg.preempt else c.bg
      task := if off then c.task else c.task.map fun t => { t with ticks := t.ticks + 1 } }
    if !off && c.task.isSome && decide (c.phase ≠ .back) then s3.resumeTask n else s3

end Sys2Proof.Machine
end

