-- ==== Sys2Proof/Machine/Mix.lean ====
section
/-! DEFINITION. The mix matrix: feeds (R139, R140), members and gain ramps (R146 to R148), bus summation (R149, R150), selector crossfades (R142, R143) and the matrix work of a frame (R30). -/

namespace Sys2Proof.Machine

/-- The table address of word `w` of an entry: crosspoint x at key x, patch point q at key 65,536 + q (R144, R145). -/
def entryAddr (key w : Nat) : Nat :=
  if key < 65536 then 0x01000000 + 16 * key + 4 * w else 0x01100000 + 8 * (key - 65536) + 4 * w

/-- The key of a crosspoint or patch point. -/
def entryKey : EntryKey → Nat
  | .xpoint x => x.val
  | .patch q => 65536 + q.val

/-- EN of an entry. -/
def entryEn (w1 : Word) : Bool := bit w1 31

/-- INV of an entry; a patch point is not inverted (R145). -/
def entryInv (key : Nat) (w1 : Word) : Bool := decide (key < 65536) && bit w1 30

/-- FEED of an entry. -/
def entryFeed (w1 : Word) : Nat := fld w1 0 11

/-- RAMP of a crosspoint in frames; 0 means 4,096 (R144). -/
def entryRamp (w1 : Word) : Nat := if fld w1 16 12 = 0 then 4096 else fld w1 16 12

/-- GAIN of an entry; unity for a patch point (R145). -/
def State.entryGain (s : State) (key : Nat) : Nat :=
  if key < 65536 then (s.tabGet (entryAddr key 2)).toNat else 0x10000000

/-- Bus of an entry (R144, R145). -/
def State.entryBus (s : State) (key : Nat) : Nat := fld (s.tabGet (entryAddr key 0)) 0 10

/-- Commit group of a bus (R141). -/
def State.busGroup (s : State) (b : Nat) : Nat := fld (s.tabGet (0x01120000 + 4 * b)) 8 5

/-- Headroom shift of a bus; 5 to 7 are reserved and act as 0 (R141). -/
def State.busShift (s : State) (b : Nat) : Nat :=
  let h := fld (s.tabGet (0x01120000 + 4 * b)) 0 3
  if 4 < h then 0 else h

/-- A steady member (R146). -/
def steadyMember (feed : Nat) (inv : Bool) (g : Nat) : XMember :=
  { feed := feed, inv := inv, g0 := g, g1 := g, start := 0, len := 0, dying := false }

/-- The members of an entry: listed, or the steady one of an entry in use (R146). -/
def State.xent (s : State) (key : Nat) : XEntry :=
  (mapFind s.xents key).getD
    (let w1 := s.tabGet (entryAddr key 1)
     { members := if entryEn w1 then [steadyMember (entryFeed w1) (entryInv key w1) (s.entryGain key)] else [], waiting := none })

/-- The members of an entry are replaced. -/
def State.setXent (s : State) (key : Nat) (e : XEntry) : State := { s with xents := mapIns (mapDel s.xents key) key e }

/-- The gain of a member in frame `k` (R147). -/
def XMember.gain (m : XMember) (k : Nat) : Nat := if k < m.start then m.g0 else rampGain m.g0 m.g1 (k - m.start) m.len

/-- A member that ramps to 0 over `len` frames from frame `c` and then retires (R146). -/
def XMember.fadeOut (m : XMember) (c len : Nat) : XMember :=
  { m with g0 := m.gain (c - 1), g1 := 0, start := c, len := len, dying := true }

/-- The key of the entry whose word 1 stands at a table address. -/
def entryOfWord1 (a : Nat) : Option Nat :=
  if 0x01000000 ≤ a ∧ a < 0x01100000 ∧ a % 16 = 4 then some ((a - 0x01000000) / 16)
  else if 0x01100000 ≤ a ∧ a < 0x01108000 ∧ a % 8 = 4 then some (65536 + (a - 0x01100000) / 8)
  else none

/-- Every entry that has a member: those in use and those still fading (R145, R146). -/
def State.entryKeys (s : State) : List Nat :=
  (s.tab.filterMap fun e => match entryOfWord1 e.1 with
    | some k => if entryEn e.2 && (mapFind s.xents k).isNone then some k else none
    | none => none) ++ s.xents.map (·.1)

/-- The members of an entry that are left in frame `k`: those whose route-change ramp reached 0 in an earlier frame have retired (R146). -/
def XEntry.live (e : XEntry) (k : Nat) : List XMember := e.members.filter fun m => !(m.dying && decide (m.start + m.len ≤ k))

/-- Members beyond the first of each entry in frame `k` (R148, R164). -/
def State.mixExtra (s : State) (k : Nat) : Nat := (s.xents.map fun e => (e.2.live k).length - 1).sum

/-- An entry may take a further member in frame `k`: at most four, and the reserve of 8,192 beyond the first of each entry (R148). -/
def State.entryRoom (s : State) (key k : Nat) : Bool :=
  let n := ((s.xent key).live k).length
  decide (n = 0) || (decide (n < 4) && decide (s.mixExtra k < 8192))

/-- A route change of an entry starts at frame `c` from the active copy: a member in force ramps out, and with it every other, and a new member ramps in over the crossfade length (R146). -/
def State.routeBegin (s : State) (key c : Nat) : State :=
  let w1 := s.tabGet (entryAddr key 1)
  let f := s.xfadeLen (s.busGroup (s.entryBus key))
  let e := s.xent key
  let old := if e.members.any fun m => !m.dying then e.members.map (·.fadeOut c f) else e.members
  let new := { steadyMember (entryFeed w1) (entryInv key w1) (s.entryGain key) with g0 := 0, start := c, len := f }
  s.setXent key { members := old ++ [new], waiting := none }

/-- A deferral in the matrix or at a selector: MIX.DEFER_CNT and EV43 (R143, R148, R194, R402). -/
def State.mixDefer (s : State) (payload : Nat) : State := (s.count regMIX_DEFER_CNT 1).raiseEvent 43 (BitVec.ofNat 32 payload)

/-- A route change that is due at commit frame `c` starts, or waits and is counted (R148, R402). -/
def State.routeChange (s : State) (key c : Nat) : State :=
  if s.entryRoom key c then s.routeBegin key c
  else (s.setXent key { s.xent key with waiting := some c }).mixDefer key

/-- The newest member in force ramps to a new gain over `ramp` frames; older members continue (R146). -/
def rampNewest (ms : List XMember) (c g ramp : Nat) : List XMember :=
  match ms.reverse with
  | [] => []
  | m :: older => ({ m with g0 := m.gain (c - 1), g1 := g, start := c, len := ramp, dying := false } :: older).reverse

/-- A committed change of an entry at frame `c`; `old` is word 1 of the copy before, and the new copy is already active (R146, R402). -/
def State.entryChange (s : State) (key c : Nat) (old : Word) : State :=
  let w1 := s.tabGet (entryAddr key 1)
  let e := s.xent key
  let f := s.xfadeLen (s.busGroup (s.entryBus key))
  if entryEn w1 then
    if e.waiting.isSome then s.routeChange key c
    else if entryEn old ∧ entryFeed old = entryFeed w1 ∧ entryInv key old = entryInv key w1 then
      s.setXent key { e with members := rampNewest e.members c (s.entryGain key) (entryRamp w1) }
    else s.routeChange key c
  else if entryEn old then s.setXent key { members := e.members.map (·.fadeOut c f), waiting := none }
  else s.setXent key { e with waiting := none }

/-- MEMBER_RETIRE (R146): the members of an entry whose route-change ramp reached 0 in an earlier frame retire. -/
def execMemberRetire (k : EntryKey) (s : State) : Host.Outcome State Fault Refusal :=
  .next (
    let e := s.xent (entryKey k)
    let kept := e.live s.now
    if kept.isEmpty && e.waiting.isNone then { s with xents := mapDel s.xents (entryKey k) } else s.setXent (entryKey k) { e with members := kept })

/-! ## Selectors (R142, R143) -/

/-- The selector code in the halfword at address `a` of the active copy (R142, R194). -/
def State.selCode (s : State) (a : Nat) : Nat := fld (s.tabGet (a / 4 * 4)) (a % 4 * 8) 16

/-- The sources of a consumer: listed, or its committed selector alone. -/
def State.selector (s : State) (a : Nat) : Selector :=
  (mapFind s.sels a).getD { fade := Fade.single (s.selCode a), waiting := none }

/-- The sources of a consumer are replaced. -/
def State.setSelector (s : State) (a : Nat) (v : Selector) : State := { s with sels := mapIns (mapDel s.sels a) a v }

/-- Sources beyond the first of each consumer in frame `k` (R143). -/
def State.selExtra (s : State) (k : Nat) : Nat := (s.sels.map fun e => e.2.fade.sizeAt k - 1).sum

/-- A consumer may take a further source in frame `k`: at most four, and the reserve of 2,048 (R143). -/
def State.selRoom (s : State) (a k : Nat) : Bool := decide ((s.selector a).fade.sizeAt k < 4) && decide (s.selExtra k < 2048)

/-- A selector change starts at frame `c` with the crossfade length of group `g` (R143). -/
def State.selBegin (s : State) (a c g : Nat) : State :=
  s.setSelector a { fade := (s.selector a).fade.begin c (s.selCode a) (s.xfadeLen g), waiting := none }

/-- A selector change that is due at commit frame `c` starts with the group's crossfade length, or waits and is counted (R143, R402). `old` is the code before. -/
def State.selChange (s : State) (a c g old : Nat) : State :=
  let v := (mapFind s.sels a).getD { fade := Fade.single old, waiting := none }
  let s1 := s.setSelector a v
  if s1.selRoom a c then s1.selBegin a c g
  else (s1.setSelector a { v with waiting := some c }).mixDefer a

/-- The value that a selector code names for presentation in frame `k`: the bus value or chain output delivered by its tick (R25, R142). KIND 0b11 is reserved for a consumer and acts as none. -/
def State.sourceWord (s : State) (k code : Nat) : Word :=
  match code / 16384 % 4 with
  | 1 => s.busOf (k - 1) (code % 1024)
  | 2 => s.chainWord (code % 2048)
  | _ => 0

/-- The value of a consumer in presentation frame `k` (R143). -/
def State.selValue (s : State) (a k : Nat) : Word :=
  if k = 0 then 0 else ofInt ((s.selector a).fade.value (fun c => (s.sourceWord k c).toInt) k)

/-- SELECTOR_CROSSFADE_END (R143): after its last frame a selector crossfade ends and the replaced sources retire. -/
def execSelectorCrossfadeEnd (a : Word) (s : State) : Host.Outcome State Fault Refusal :=
  .next (
    let v := s.selector a.toNat
    if v.fade.over s.now then s.setSelector a.toNat { v with fade := v.fade.finish } else s)

/-! ## Feeds and buses -/

/-- The mute level of a scope: 64 where unlisted (R364). -/
def State.muteLevel (s : State) (scope : Nat) : Nat := (mapFind s.mute scope).getD 64

/-- An output value scaled by slot level, port level and the mute level of every output, and by the fade of R305 and R352, kept as the level of scope 9 (R221, R364; log entry 30). -/
def State.outLevelled (s : State) (x : Word) (l v : Nat) : Word := levelled (levelled x l v (s.muteLevel 8)) 64 64 (s.muteLevel 9)

/-- The value of Course feed slot `j` that the matrix work of frame `k` takes: that of frame k - 1, faded in and muted (R31, R54, R364). -/
def State.courseFeed (s : State) (n : CourseId) (k j : Nat) : Word :=
  let c := s.course n
  if 1 ≤ k ∧ c.feedFrame = some (k - 1) then levelled (wmGet c.feedOut j) c.feedLevel 64 (s.muteLevel n.val) else 0

/-- The value of a feed that the matrix work of frame `k` consumes (R25, R139, R140). -/
def State.feedValue (s : State) (k f : Nat) : Word :=
  let e := s.tabGet (0x01110000 + 4 * (f / 16))
  if fld e 28 4 = 5 then s.courseFeed (fin 7 (fld e 4 3)) k (16 * fld e 0 4 + f % 16)
  else wmGet s.captured f

/-- The fade-in level of a Course's feeds after the deadline of frame k - 1: one step up if that frame met it, else zero (R31). -/
def Course.stepFeeds (c : Course) (k : Nat) : Course :=
  if k = 0 then c
  else if c.feedFrame = some (k - 1) then { c with feedLevel := stepTo c.feedLevel 64 }
  else { c with feedLevel := 0 }

/-- The product of a member with its feed value (R149). -/
def memberProduct (m : XMember) (k : Nat) (x : Word) : Int :=
  let p := x.toInt * (m.gain k : Int)
  if m.inv then -p else p

/-- The contribution of an entry to its bus (R149). -/
def State.entrySum (s : State) (key k : Nat) : Int :=
  ((s.xent key).members.map fun m => memberProduct m k (wmGet s.mixFeeds m.feed)).sum

/-- A bus value from its exact sum: value, AV and SAT (R149). -/
def busOut (sum : Int) (h : Nat) : Word × Bool × Bool :=
  let a := sat64 sum
  let w := rconv a (28 + h)
  (ofInt (sat32 w), decide (a ≠ sum), decide (w ≠ sat32 w))

/-- The exact sums of the buses that have a member, by ascending bus (R149). -/
def State.busSums (s : State) (k : Nat) : List (Nat × Int) :=
  s.entryKeys.foldl (fun m key =>
    let b := s.entryBus key
    mapIns (mapDel m b) b (((mapFind m b).getD 0) + s.entrySum key k)) []

/-- One bus takes its value for frame `k`, with the effects of R150. -/
def State.busWork (s : State) (k b : Nat) (sum : Int) : State :=
  let o := busOut sum (s.busShift b)
  let s1 := { s with bus := wmSet s.bus (k % 2 * 1024 + b) o.1 }
  let s2 := if o.2.1 then
      let t := (s1.setRbit regMIX_STATUS 30).count regMIX_AV_CNT 1
      if t.rbit regMIX_AV_BUS 31 then t else t.setReg regMIX_AV_BUS (BitVec.ofNat 32 (0x80000000 + b))
    else s1
  if o.2.2 then (s2.setRbit regMIX_STATUS 29).count regMIX_SAT_CNT 1 else s2

/-- The Courses have completed frame k - 1, or its deadline has passed for them (R30, R31). -/
def State.matrixDue (s : State) (k : Nat) : Bool :=
  courseIds.all fun n =>
    let c := s.course n
    decide (k ≤ c.frame) || decide (c.phase = .halted) || decide (c.phase = .reset) ||
      (match c.missed with | some m => decide (k ≤ m + 1) | none => false)

/-- The matrix work of frame `k` (R25, R30, R149, R150, R164). -/
def State.matrixWork (s : State) (k : Nat) : State :=
  let s0 := s.memTouch 18 fun u => decide (0x01000000 ≤ u) && decide (u < 0x01121000)
  let s1 := courseIds.foldl (fun s n => s.modCourse n fun c => c.stepFeeds k) s0
  let feeds := (List.range 2048).foldl (fun m f => wmSet m f (s1.feedValue k f)) []
  let s2 := { s1 with mixFeeds := feeds, bus := s1.bus.filter fun e => decide (e.1 / 1024 ≠ k % 2), matFrame := some k }
  let s3 := (s2.busSums k).foldl (fun s e => s.busWork k e.1 e.2) s2
  let live := s3.entryKeys.filter fun key => !((s3.xent key).live k).isEmpty
  let xp := (live.filter fun key => decide (key < 65536)).length
  s3.setReg regMIX_ACTIVE (BitVec.ofNat 32 ((live.length - xp) * 2 ^ 19 + xp))

/-- MATRIX_WORK_START (R30, R31): the matrix work of the current frame, once every Course has completed the frame before or missed its deadline. Before that, or a second time, nothing happens. In SLEEP a matrix without a clock delivers zero (R306). -/
def execMatrixWorkStart (s : State) : Host.Outcome State Fault Refusal :=
  .next (
    let k := s.now
    let fresh := match s.matFrame with | some m => decide (m < k) | none => true
    if s.ticking && fresh && s.matrixDue k then
      (if s.gatedOff 8 then { s with bus := s.bus.filter fun e => decide (e.1 / 1024 ≠ k % 2), mixFeeds := [], matFrame := some k } else s.matrixWork k)
    else s)

end Sys2Proof.Machine
end

