-- ==== Sys2Proof/Machine/Slots.lean ====
section
/-! DEFINITION. Serial ports, receivers and flows as the ASRC array sees them: their accessors and formats (R211 to R214, R236), the captured side of a port or receiver (R215), the words of a flow (R247) and the anchor of a time base (R279). -/

namespace Sys2Proof.Machine

/-- A port. -/
def State.port (s : State) (p : Fin 16) : Port := s.ports.get p

/-- A port is replaced. -/
def State.setPort (s : State) (p : Fin 16) (v : Port) : State := { s with ports := s.ports.set p.val v p.isLt }

/-- A port is changed by `f`. -/
def State.modPort (s : State) (p : Fin 16) (f : Port → Port) : State := s.setPort p (f (s.port p))

/-- All ports, ascending. -/
def portIds : List (Fin 16) := [0, 1, 2, 3, 4, 5, 6, 7, 8, 9, 10, 11, 12, 13, 14, 15]

/-- FMT of a configuration; the reserved 3 acts as 0 (R211). -/
def cfgFmt (c : Word) : Nat := if fld c 28 2 = 3 then 0 else fld c 28 2

/-- The slots of a TDM frame: SLOTS + 1, or two for I2S and left-justified (R211). -/
def cfgSlots (c : Word) : Nat := if cfgFmt c = 0 then fld c 23 5 + 1 else 2

/-- The word length in bits; the reserved code acts as 16 (R214, R236). -/
def cfgWlen (c : Word) : Nat :=
  match fld c 21 2 with
  | 1 => 24
  | 2 => 32
  | _ => 16

/-- MASTER of a configuration. -/
def cfgMaster (c : Word) : Bool := bit c 30

/-- The smallest power of two not below the slot count (R212). -/
def slotSpan (n : Nat) : Nat := if n ≤ 1 then 1 else if n ≤ 2 then 2 else if n ≤ 4 then 4 else if n ≤ 8 then 8 else if n ≤ 16 then 16 else 32

/-- A master configuration that its clock cannot carry (R212). -/
def State.cfgRefused (s : State) (c : Word) : Bool := bit c 31 && cfgMaster c && decide (1536000 < slotSpan (cfgSlots c) * s.fi)

/-- The port works: enabled and not refused (R212). -/
def State.portOn (s : State) (p : Fin 16) : Bool := bit (s.port p).cfg 31 && !s.cfgRefused (s.port p).cfg

/-- The port works as a slave. -/
def State.portSlave (s : State) (p : Fin 16) : Bool := s.portOn p && !cfgMaster (s.port p).cfg

/-- VALID of a port: qualified, or a working master (R236). -/
def State.portValid (s : State) (p : Fin 16) : Bool :=
  if cfgMaster (s.port p).cfg then s.portOn p else s.rbit (regTDM_STAT p.val) 31

/-- The largest OFFSET (R213). -/
def State.maxOffset (s : State) : Nat := if s.rbit regGLOBAL_RATE 0 then 2016 else 992

/-- An input word placed in a sample (R214). -/
def slotIn (w : Word) (wlen : Nat) : Word := w &&& fmask (32 - wlen) wlen

/-- A sample rounded, saturated and left-aligned in a slot (R214). -/
def slotOut (x : Word) (wlen : Nat) : Word :=
  let r := rconv x.toInt (32 - wlen)
  let hi : Int := 2 ^ (wlen - 1) - 1
  let v := if hi < r then hi else r
  ofInt (v * 2 ^ (32 - wlen))

/-- A slip in the input or output direction (R215). -/
def State.portSlip (s : State) (p : Fin 16) (input : Bool) : State :=
  let a := regTDM_SLIP p.val
  ((s.setReg a (if input then satAdd (s.reg a) 16 16 1 else satAdd (s.reg a) 0 16 1)).setRbit (regTDM_STAT p.val) 27).raiseEvent 48
    (BitVec.ofNat 32 p.val)

/-! ## Captures (R215) -/

/-- A frame completes at a capture side: with two held the older is discarded (R215). -/
def InBuf.complete (b : InBuf) (frame : Nat) (ws : List Word) : InBuf :=
  { b with held := (if 2 ≤ b.held.length then b.held.drop 1 else b.held) ++ [(frame, ws)] }

/-- The capture at a deadline: the oldest held frame, or the one taken last (R215). -/
def InBuf.takeNext (b : InBuf) : InBuf :=
  match b.held with
  | [] => { b with cap := b.taken }
  | e :: t => { b with held := t, taken := e.2, begun := true, cap := e.2 }

/-! ## Receivers -/

/-- A receiver. -/
def State.rx (s : State) (r : Fin 4) : AesRx := s.rxs.get r

/-- VALID of a receiver. -/
def State.rxValid (s : State) (r : Fin 4) : Bool := s.rbit (regAES_RXSTAT r.val) 31

/-- EN of a receiver. -/
def State.rxOn (s : State) (r : Fin 4) : Bool := s.rbit (regAES_RXCTRL r.val) 31

/-! ## The words of a flow (R247) -/

/-- The address of word `w` of flow `f`; direction 0 receives, 1 transmits (R247). -/
def flowAddr (d f w : Nat) : Nat := 0x01A00000 + 0x10000 * d + 32 * f + 4 * w

/-- Words 1 to 7 of a flow in the active copy. -/
def State.flowWords (s : State) (d f : Nat) : List Word := (List.range 7).map fun i => s.tabGet (flowAddr d f (i + 1))

/-- Word `w` (1 to 7) of a list of words. -/
def fw (ws : List Word) (w : Nat) : Word := nthD ws (w - 1) 0

/-- EN. -/
def fwEn (ws : List Word) : Bool := bit (fw ws 1) 31
/-- PATHS: bit 0 path A, bit 1 path B. -/
def fwPaths (ws : List Word) : Nat := fld (fw ws 1) 29 2
/-- TB. -/
def fwTb (ws : List Word) : Nat := fld (fw ws 1) 27 2
/-- The sample rate of a flow in Hz. -/
def fwRate (ws : List Word) : Nat := if bit (fw ws 1) 26 then 96000 else 48000
/-- FMT. -/
def fwFmt (ws : List Word) : Nat := fld (fw ws 1) 24 2
/-- An AAF flow. -/
def fwAaf (ws : List Word) : Bool := decide (2 ≤ fwFmt ws)
/-- The channels of a flow. -/
def fwChans (ws : List Word) : Nat := fld (fw ws 1) 10 6 + 1
/-- FIRSTCH. -/
def fwFirst (ws : List Word) : Nat := fld (fw ws 1) 0 10
/-- Samples per packet (R243); a reserved PTIME acts as 0. -/
def fwSamples (ws : List Word) : Nat :=
  (match fld (fw ws 1) 21 3 with | 1 => 12 | 2 => 16 | 3 => 48 | 4 => 192 | _ => 6) * (if bit (fw ws 1) 26 then 2 else 1)
/-- Bytes per sample (R243). -/
def fwBytes (ws : List Word) : Nat := match fwFmt ws with | 0 => 2 | 3 => 4 | _ => 3

/-- The running flow that carries channel `c` of a direction: its words and level (R245, R249). -/
def State.flowAt (s : State) (d c : Nat) : Option (List Word × Nat) :=
  let has (ws : List Word) : Bool := decide (fwFirst ws ≤ c) && decide (c < fwFirst ws + fwChans ws)
  if d = 0 then (s.rxFlows.find? fun e => e.2.run && has e.2.words).map fun e => (e.2.words, e.2.level)
  else (s.txFlows.find? fun e => e.2.run && has e.2.words).map fun e => (e.2.words, e.2.level)

/-! ## Anchors (R181, R279) -/

/-- A frame anchor in force: time in ns and frame (R181, R279). -/
def State.anchor (s : State) (t : Nat) : Option (Int × Int) :=
  if s.rbit (regTIME_STAT t) 7 then (mapFind s.anchors t).map fun a => (a.ns, (a.frame : Int)) else none

/-- A time base gives a conversion its place: LOCKED or FREERUN with an anchor in force (R233). -/
def State.tbAnchored (s : State) (t : Nat) : Bool :=
  decide (1 ≤ s.rfld (regTIME_STAT t) 0 2) && decide (s.rfld (regTIME_STAT t) 0 2 ≤ 2) && s.rbit (regTIME_STAT t) 7

end Sys2Proof.Machine
end

