-- ==== Sys2Proof/Machine/Asrc.lean ====
section
/-! DEFINITION. The ASRC array (R229 to R235): its channels and endpoints, conversion in network-time and in measured ratio mode, lock state and the status words. -/

namespace Sys2Proof.Machine

/-! ## The channels (R229, R230) -/

/-- Word `w` of an ASRC channel (R229). -/
def State.asrcWord (s : State) (c w : Nat) : Word := s.tabGet (0x01900000 + 16 * c + 4 * w)

/-- ETYPE of a channel; 6 and 7 act as 0 (R229). -/
def State.asrcType (s : State) (c : Nat) : Nat := let e := fld (s.asrcWord c 0) 28 3; if 6 ≤ e then 0 else e

/-- EIDX of a channel. -/
def State.asrcIdx (s : State) (c : Nat) : Nat := fld (s.asrcWord c 0) 0 10

/-- DIR of a channel. -/
def State.asrcDirOut (s : State) (c : Nat) : Bool := bit (s.asrcWord c 0) 31

/-- The endpoint type suits the direction (R230). -/
def State.asrcSuits (s : State) (c : Nat) : Bool :=
  match s.asrcType c with
  | 1 => true
  | 2 | 4 => !s.asrcDirOut c
  | 3 | 5 => s.asrcDirOut c
  | _ => false

/-- The channel is in use: enabled with a suitable endpoint (R229, R230). -/
def State.asrcUsed (s : State) (c : Nat) : Bool := bit (s.asrcWord c 1) 31 && s.asrcSuits c

/-- The channels in use, ascending. -/
def State.asrcOn (s : State) : List Nat :=
  s.tab.filterMap fun e =>
    if 0x01900000 ≤ e.1 ∧ e.1 < 0x01902000 ∧ e.1 % 16 = 4 ∧ s.asrcUsed ((e.1 - 0x01900000) / 16) then some ((e.1 - 0x01900000) / 16) else none

/-- The lowest output channel that names an endpoint, if any (R230). -/
def State.asrcDriver (s : State) (etype eidx : Nat) : Option Nat :=
  s.asrcOn.find? fun c => s.asrcDirOut c && decide (s.asrcType c = etype) && decide (s.asrcIdx c = eidx)

/-- The channels with EN = 1, ascending. -/
def State.asrcEnabled (s : State) : List Nat :=
  s.tab.filterMap fun e =>
    if 0x01900000 ≤ e.1 ∧ e.1 < 0x01902000 ∧ e.1 % 16 = 4 ∧ bit e.2 31 then some ((e.1 - 0x01900000) / 16) else none

/-- MODE of a channel; 2 and 3 act as 0 (R229). -/
def State.asrcMode (s : State) (c : Nat) : Nat := if fld (s.asrcWord c 1) 29 2 = 1 then 1 else 0

/-- TB of a channel. -/
def State.asrcTb (s : State) (c : Nat) : Nat := fld (s.asrcWord c 1) 24 2

/-- The fade level of a channel (R232). -/
def State.asrcLevel (s : State) (c : Nat) : Nat := (mapFind s.asrcLev c).getD 0

/-! ## Endpoints (R230, R231, R235) -/

/-- RATE of a transmitter; 1 at Fi = 48 kHz acts as 0 (R228). -/
def State.txRate (s : State) (t : Fin 4) : Nat :=
  let r := s.rfld (regAES_TXCTRL t.val) 28 2
  if r = 1 ∧ s.rbit regGLOBAL_RATE 0 then 0 else r

/-- The endpoint of a channel is valid (R232, R235). -/
def State.asrcEndpointValid (s : State) (c : Nat) : Bool :=
  let i := s.asrcIdx c
  match s.asrcType c with
  | 1 => s.portOn (fin 15 (i / 32)) && s.portValid (fin 15 (i / 32))
  | 2 => s.rxValid (fin 3 (i / 2 % 4))
  | 3 => s.rbit (regAES_TXCTRL (i / 2 % 4)) 31 && (decide (s.txRate (fin 3 (i / 2 % 4)) ≠ 3) || s.rxValid (fin 3 (s.rfld (regAES_TXCTRL (i / 2 % 4)) 26 2)))
  | 4 => (s.flowAt 0 i).isSome
  | 5 => (s.flowAt 1 i).isSome
  | _ => false

/-- The measured rate of a channel's endpoint where a register or the flow's format states it, else the one that its lock brought; 0 while unqualified (R235). -/
def State.asrcRateHz (s : State) (c : Nat) : Nat :=
  let i := s.asrcIdx c
  if !s.asrcEndpointValid c then 0
  else match s.asrcType c with
    | 1 => if cfgMaster (s.port (fin 15 (i / 32))).cfg then s.fi else s.rfld (regTDM_RATE (i / 32)) 0 18
    | 2 => s.rfld (regAES_RXSTAT (i / 2 % 4)) 0 18
    | 4 => (s.flowAt 0 i).elim 0 fun f => fwRate f.1
    | 5 => (s.flowAt 1 i).elim 0 fun f => fwRate f.1
    | _ => s.rfld (regASRC_CHSTAT c) 0 18

/-! ## Conversion (R232 to R234) -/

/-- The samples placed for a channel, newest first. -/
def State.asrcPlaced (s : State) (c : Nat) : List (Int × Word) := (mapFind s.conv.hist c).getD []

/-- A sample is placed for a channel (R233). -/
def State.asrcPlace (s : State) (c : Nat) (at_ : Int) (w : Word) : State :=
  { s with conv := { s.conv with hist := mapIns (mapDel s.conv.hist c) c ((at_, w) :: s.asrcPlaced c) } }

/-- A channel's endpoint delivers its next sample: placed one nominal period after the one before it, the first at the frame of the endpoint's qualification (R233; log entry 95). -/
def State.asrcPlaceNext (s : State) (c : Nat) (w : Word) : State :=
  s.asrcPlace c (match s.asrcPlaced c with | e :: _ => e.1 + s.fi | [] => (s.now * s.asrcRateHz c : Nat)) w

/-- The input channels of an endpoint in network-time ratio mode: their conversion depends on the placed samples alone (R233). -/
def State.asrcTakers (s : State) (etype eidx : Nat) : List Nat :=
  s.asrcOn.filter fun c => !s.asrcDirOut c && decide (s.asrcMode c = 1) && decide (s.asrcType c = etype) && decide (s.asrcIdx c = eidx)

/-- An endpoint delivers its next sample to the channels that take it (R233). -/
def State.endpointSample (s : State) (etype eidx : Nat) (w : Word) : State :=
  (s.asrcTakers etype eidx).foldl (fun (t : State) c => t.asrcPlaceNext c w) s

/-- The group delay in frames (R234). -/
def State.asrcDelay (s : State) : Int := if s.rbit regGLOBAL_RATE 0 then 12 else 24

/-- The instant that an input channel's output of frame `k` shows: the tick of frame k less the group delay, and less the link offset of a network flow; in ns × rate of the time base for a network channel, and in units of 1 / (Fi × rate) from frame 0 for any other (R233, R234, R251). -/
def State.asrcInstant (s : State) (c k rate : Nat) : Int :=
  let j : Int := k - s.asrcDelay
  if s.asrcType c = 4 then
    match s.anchor (s.asrcTb c), s.flowAt 0 (s.asrcIdx c) with
    | some a, some f => (a.1 * s.fi + (j - fld (fw f.1 6) 0 13 - a.2) * 1000000000) * rate / s.fi
    | _, _ => 0
  else j * rate

/-- The levels of the endpoint that an input channel converts: of a port slot, of a receiver, or of a network flow; zero where the endpoint has none (R221, R227, R249, R364; DESIGN CHOICE where they act, log entry 95). -/
def State.asrcEndLevelled (s : State) (c : Nat) (x : Word) : Word :=
  let i := s.asrcIdx c
  match s.asrcType c with
  | 1 =>
    let p := fin 15 (i / 32)
    let q := s.port p
    if s.asrcDirOut c then x
    else if s.portOn p && decide (i % 32 < cfgSlots q.cfg) then
      levelled x (stepTo (nthD q.levIn (i % 32) 0) (if bit q.inMask (i % 32) then 64 else 0)) q.lev (s.muteLevel (16 + p.val))
    else 0
  | 2 => levelled x 64 (s.rx (fin 3 (i / 2 % 4))).lev (s.muteLevel (32 + i / 2 % 4))
  | 4 => match s.flowAt 0 i with
    | some f => levelled x 64 f.2 64
    | none => 0
  | _ => x

/-- The converted sample of a channel, for frame `k` of an input channel and for the next sample of an output channel's endpoint: zero at level 0, and in network-time ratio mode without an anchor in force. In that mode the value is the conversion of the placed samples at its instant; in measured ratio mode it is a free value (R232 to R234; log entries 2 and 95). -/
def State.asrcSample (s : State) (c k : Nat) : Word × State :=
  let l := s.asrcLevel c
  let m := if s.asrcLost.contains c then s.muteLevel 36 else 64
  if l = 0 then (0, s)
  else if s.asrcMode c = 1 then
    if !s.tbAnchored (s.asrcTb c) then (0, s)
    else if s.asrcDirOut c then
      let n := (mapFind s.conv.turn c).getD 0
      (levelled (Config.asrcValue (wmGet s.asrcRatio c) (s.asrcPlaced c) ((n : Int) - s.asrcDelay)) 64 l m,
        { s with conv := { s.conv with turn := mapSet (fun _ => 0) s.conv.turn c (n + 1) } })
    else (levelled (s.asrcEndLevelled c (Config.asrcValue (wmGet s.asrcRatio c) (s.asrcPlaced c) (s.asrcInstant c k (s.asrcRateHz c)))) 64 l m, s)
  else
    let r := s.draw
    (levelled (s.asrcEndLevelled c r.1) 64 l m, r.2)

/-! ## Status (R230, R231, R235) -/

/-- A rate within the limits of R231. -/
def State.asrcRateOk (s : State) (rate : Nat) : Bool :=
  decide (8000 ≤ rate) && decide (rate ≤ 192000) && decide (s.fi ≤ 8 * rate) && decide (rate ≤ 8 * s.fi)

/-- An output channel whose endpoint a lower-numbered one drives (R230). -/
def State.asrcOverridden (s : State) (c : Nat) : Bool :=
  s.asrcDirOut c && match s.asrcDriver (s.asrcType c) (s.asrcIdx c) with | some d => decide (d < c) | none => false

/-- The status word of R235. -/
def State.asrcStatus (s : State) (c : Nat) (lock acq rangeErr : Bool) (rate : Nat) : Word :=
  BitVec.ofNat 32 (b2n lock * 2 ^ 31 + b2n acq * 2 ^ 30 + b2n rangeErr * 2 ^ 29 + b2n (!s.asrcEndpointValid c) * 2 ^ 28
    + b2n (s.asrcOverridden c) * 2 ^ 27 + s.asrcMode c * 2 ^ 25 + b2n (s.asrcDirOut c) * 2 ^ 24 + rate % 2 ^ 18)

/-- LOCK of a channel. -/
def State.asrcLocked (s : State) (c : Nat) : Bool := s.rbit (regASRC_CHSTAT c) 31

/-- A locked channel loses its lock: ASRC.UNLOCK_CNT, UNLOCK and EV55; its output steps towards zero and it acquires again while `acq` (R232, R234, R239, R364). -/
def State.asrcUnlocked (s : State) (c : Nat) (acq : Bool) (rate : Nat) : State :=
  let s1 := ((s.setReg (regASRC_CHSTAT c) (s.asrcStatus c false acq false rate)).count regASRC_UNLOCK_CNT 1).setRbit regASRC_STATUS 29
  let s2 : State := { s1 with asrcRatio := mapDel s1.asrcRatio c, conv := { hist := mapDel s1.conv.hist c, turn := mapDel s1.conv.turn c }, asrcLost := if s1.asrcLost.contains c then s1.asrcLost else s1.asrcLost ++ [c] }
  s2.raiseEvent 55 (BitVec.ofNat 32 c)

/-- The status of a channel in use follows its endpoint: a locked one whose endpoint is lost unlocks and acquires again; any other shows its present state (R230, R232, R235). -/
def State.asrcFollow (s : State) (c : Nat) : State :=
  if s.asrcLocked c && !s.asrcEndpointValid c then s.asrcUnlocked c true 0
  else ({ s with conv := if s.asrcEndpointValid c then s.conv else { s.conv with hist := mapDel s.conv.hist c } } : State).setReg (regASRC_CHSTAT c) (s.asrcStatus c (s.asrcLocked c) (!s.asrcLocked c) (s.rbit (regASRC_CHSTAT c) 29) (s.asrcRateHz c))

/-- The channels of the endpoints of one unit follow it: of port `u`, of a receiver, or of every network flow (R218, R232, R235). -/
def State.asrcEndpoints (s : State) (p : Nat → Nat → Bool) : State :=
  (s.asrcOn.filter fun c => p (s.asrcType c) (s.asrcIdx c)).foldl State.asrcFollow s

/-- The endpoints on a port. -/
def onPort (p : Fin 16) (etype eidx : Nat) : Bool := decide (etype = 1) && decide (eidx / 32 = p.val)

/-- The endpoints on a receiver, and the transmitter subframes that may take its rate. -/
def onRx (r : Fin 4) (etype eidx : Nat) : Bool := (decide (etype = 2) && decide (eidx / 2 % 4 = r.val)) || decide (etype = 3)

/-- The endpoints on the network. -/
def onNet (etype _eidx : Nat) : Bool := decide (etype = 4) || decide (etype = 5)

/-- A mismatch or conflict of R230: CFG and EV5. -/
def State.asrcMisfit (s : State) (c : Nat) : State := (s.setRbit regASRC_STATUS 30).configError (0x01900000 + 16 * c)

/-- Another output channel of the endpoint of `c` shows whether a lower-numbered one drives it now; one newly overridden is a conflict (R230). -/
def State.asrcRival (s : State) (c d : Nat) : State :=
  if c = d ∨ !s.asrcDirOut d ∨ s.asrcType d ≠ s.asrcType c ∨ s.asrcIdx d ≠ s.asrcIdx c then s
  else (if s.asrcOverridden d && !s.rbit (regASRC_CHSTAT d) 27 then s.asrcMisfit d else s).asrcFollow d

/-- What a commit of a channel's words, or its load, brings: a mismatch or conflict of R230, the loss of the lock of a channel taken out of use, the status of the others, and the conflicts of the other channels of its endpoint. -/
def State.asrcChanged (s : State) (c : Nat) : State :=
  let bad := bit (s.asrcWord c 1) 31 && (!s.asrcSuits c || s.asrcOverridden c)
  let s1 := if bad then s.asrcMisfit c else s
  let s2 := if s1.asrcUsed c then s1.asrcFollow c
    else if s.asrcLocked c then s1.asrcUnlocked c false 0
    else s1.setReg (regASRC_CHSTAT c) (s1.asrcStatus c false false false 0)
  s2.asrcOn.foldl (fun (t : State) d => t.asrcRival c d) s2

end Sys2Proof.Machine
end

