-- ==== Sys2Proof/Machine/Ports.lean ====
section
/-! DEFINITION. Serial ports (R210 to R223): formats, captures and slips of slave ports, slot and port levels, output slots, clock supervision and restarts. -/

namespace Sys2Proof.Machine

/-- The slots of a port deliver their samples to the ASRC channels (R230, R233). -/
def State.portSamples (s : State) (p : Fin 16) (ws : List Word) : State :=
  ws.zipIdx.foldl (fun (t : State) e => t.endpointSample 1 (32 * p.val + e.2) e.1) s

/-- A completed frame of a port: the capture of the current frame on a master; held on a valid slave with ASRC = 0, where a third one makes an overrun slip (R213, R215). The captures of a slave with ASRC = 1 serve ASRC channels alone. -/
def State.portFrame (s : State) (p : Fin 16) (ws : List Word) : State :=
  let q := s.port p
  if cfgMaster q.cfg then s.setPort p { q with buf := { q.buf with taken := ws, cap := ws } }
  else if bit q.cfg 16 then s
  else
    let s1 := s.setPort p { q with buf := q.buf.complete s.now ws, slipped := q.slipped || decide (2 ≤ q.buf.held.length) }
    if 2 ≤ q.buf.held.length then (s1.portSlip p true).putRbit (regTDM_STAT p.val) 24 false else s1

/-- TDM_FRAME_END (R213 to R215, R217, R230): a TDM frame completes at an enabled port: captured or held, and delivered to ASRC channels; on a slave that is not valid it shows that the port is qualifying. -/
def execTdmFrameEnd (p : Fin 16) (slots : List Word) (s : State) : Host.Outcome State Fault Refusal :=
  .next (
    let q := s.port p
    let ws := (List.range 32).map fun i => if i < cfgSlots q.cfg then slotIn (nthD slots i 0) (cfgWlen q.cfg) else 0
    if !s.portOn p then s
    else if s.portValid p then (s.portFrame p ws).portSamples p ws
    else s.setRbit (regTDM_STAT p.val) 30)

/-- CAPTURE_DEADLINE (R215): a valid slave port whose slots reach the matrix directly takes its oldest held frame; with none held, once captures have begun, it repeats the last one and slips. After a slip LAG says whether the capture trails by a frame. -/
def execCaptureDeadline (p : Fin 16) (s : State) : Host.Outcome State Fault Refusal :=
  .next (
    let q := s.port p
    if s.portSlave p && s.portValid p && !bit q.cfg 16 then
      if q.buf.held.isEmpty then
        if q.buf.begun then (s.setPort p { q with buf := q.buf.takeNext, slipped := true }).portSlip p true else s
      else
        let lag := q.slipped && decide (((q.buf.held.head?.map (·.1)).getD 0) < s.now)
        (s.setPort p { q with buf := q.buf.takeNext }).putRbit (regTDM_STAT p.val) 24 lag
    else s)

/-- The slip of a preamble or frame sync out of place: the capture that the discarded frame would have served repeats the frame before it (R216). -/
def InBuf.resync (b : InBuf) (frame : Nat) : InBuf :=
  let prev := (b.held.getLast?.map (·.2)).getD b.taken
  if b.begun ∧ b.held.length < 2 then { b with held := b.held ++ [(frame, prev)] } else b

/-- The input value of slot `i` for the capture frame that ends, from its capture, slot level and port level (R221, R364). -/
def State.portInput (s : State) (p : Fin 16) (i : Nat) : Word :=
  let q := s.port p
  if s.portOn p && decide (i < cfgSlots q.cfg) then
    levelled (nthD q.buf.cap i 0) (stepTo (nthD q.levIn i 0) (if bit q.inMask i then 64 else 0)) q.lev (s.muteLevel (16 + p.val))
  else 0

/-! ## Output -/

/-- The halfword that holds the selector of port `p`, slot `i` (R237). -/
def slotSelAddr (p i : Nat) : Nat := 0x01910000 + 128 * p + 4 * i

/-- The value presented in frame `k` at an endpoint: the channel that drives it, else its selector (R143, R230). -/
def State.endpointValue (s : State) (etype eidx selAddr k : Nat) : Word × State :=
  match s.asrcDriver etype eidx with
  | some c => s.asrcSample c k
  | none => (s.selValue selAddr k, s)

/-- The value presented at an output slot: on a port with ASRC = 1 only that of a channel (R230, R236). -/
def State.slotValue (s : State) (p : Fin 16) (i k : Nat) : Word × State :=
  if bit (s.port p).cfg 16 && (s.asrcDriver 1 (32 * p.val + i)).isNone then (0, s) else s.endpointValue 1 (32 * p.val + i) (slotSelAddr p.val i) k

/-- The output slot `i` of port `p` for presentation frame `k`; none where the slot is masked with OUTZ = 1 (R220, R221, R364). -/
def State.slotPin (s : State) (p : Fin 16) (i k : Nat) : Option Word × State :=
  let q := s.port p
  let z : Option Word := if bit q.cfg 15 then none else some 0
  let l := stepTo (nthD q.levOut i 0) (if bit (s.tabGet (regTDM_MASKOUT p.val)) i then 64 else 0)
  if cfgSlots q.cfg ≤ i ∨ l = 0 then (z, s)
  else
    let r := s.slotValue p i k
    (some (slotOut (s.outLevelled r.1 l q.lev) (cfgWlen q.cfg)), r.2)

/-- The output slots of a port for presentation frame `k`; at high impedance when the module does not own the frame (R348, R352). -/
def State.slotPins (s : State) (p : Fin 16) (k : Nat) : List (Option Word) × State :=
  if !s.ownCur then (List.replicate 32 none, s)
  else (List.range 32).foldl (fun (acc : List (Option Word) × State) i =>
    let r := acc.2.slotPin p i k
    (acc.1 ++ [r.1], r.2)) ([], s)

/-- A TDM frame of a port begins with the samples presented in the current frame; a master drives its bit clock and frame sync with them while the module owns the frame (R213, R223, R352). -/
def State.portSend (s : State) (p : Fin 16) : State :=
  let r := s.slotPins p s.now
  r.2.modPort p fun q => { q with pins := r.1, sent := some s.now, clk := cfgMaster q.cfg && s.ownCur }

/-- A slave that slips: with ASRC = 1 its samples come at the port's own rate and none is repeated or skipped (R215). -/
def State.portSlips (s : State) (p : Fin 16) : Bool := !cfgMaster (s.port p).cfg && !bit (s.port p).cfg 16

/-- TDM_FRAME_START (R213, R215): the port sends the newest presented frame, that of the current frame tick, or repeats the last frame sent; a slave that repeats or skips one slips. With ASRC = 1 every frame carries new samples. A port without a clock sends nothing. -/
def execTdmFrameStart (p : Fin 16) (s : State) : Host.Outcome State Fault Refusal :=
  .next (
    let q := s.port p
    if !(s.portOn p && s.portValid p && s.ticking) then s
    else match q.sent with
      | some j =>
        if j < s.now ∨ bit q.cfg 16 then
          let s1 := s.portSend p
          if j + 1 < s.now && s.portSlips p then s1.portSlip p false else s1
        else if s.portSlips p then s.portSlip p false
        else s
      | none => s.portSend p)

/-! ## Clock supervision -/

/-- A slave port is marked invalid: VALID clears, INVALIDATED is set, the port-clock fault's cause begins and EV50 occurs, with EV51 where its rate moved; the last capture is held while the level falls, and the ASRC channels on the port lose their endpoint (R217, R218). -/
def State.portInvalid (s : State) (p : Fin 16) (moved : Bool) : State :=
  let s1 := (s.putRbit (regTDM_STAT p.val) 31 false).setRbit (regTDM_STAT p.val) 25
  let s2 := s1.modPort p fun q => { q with buf := { q.buf with held := [], begun := false } }
  let s3 := (s2.causeBegins (56 + p.val)).raiseEvent 50 (BitVec.ofNat 32 p.val)
  (if moved then s3.raiseEvent 51 (BitVec.ofNat 32 p.val) else s3).asrcEndpoints (onPort p)

/-- PORT_CLOCK_LOSS (R217): a valid slave port without a frame-sync or bit-clock edge is marked invalid. -/
def execPortClockLoss (p : Fin 16) (s : State) : Host.Outcome State Fault Refusal :=
  .next (
    if s.portSlave p && s.portValid p then (s.putRbit (regTDM_STAT p.val) 30 false).portInvalid p false
    else s.putRbit (regTDM_STAT p.val) 30 false)

/-- A rate within 1 % of Fi (R219). -/
def State.nearFi (s : State) (rate : Nat) : Bool :=
  decide (s.fi * 99 ≤ rate * 100) && decide (rate * 100 ≤ s.fi * 101)

/-- PORT_QUALIFIED (R217, R219): a working slave port that is not valid qualifies at the measured rate: VALID, EV50, LAG cleared, the fault's cause ended. With ASRC = 0 and a rate off Fi, RATEERR is set and it stays invalid, marked as such (R217, R219). -/
def execPortQualified (p : Fin 16) (rateHz : BitVec 18) (s : State) : Host.Outcome State Fault Refusal :=
  .next (
    if s.portSlave p && !s.portValid p then
      let s1 := (s.setRfld (regTDM_RATE p.val) 0 18 rateHz.toNat).putRbit (regTDM_STAT p.val) 30 false
      if !bit (s.port p).cfg 16 && !s.nearFi rateHz.toNat then (s1.setRbit (regTDM_STAT p.val) 29).portInvalid p false
      else
        let s2 := ((s1.setRbit (regTDM_STAT p.val) 31).putRbit (regTDM_STAT p.val) 29 false).putRbit (regTDM_STAT p.val) 24 false
        let s3 := s2.modPort p fun q => { q with slipped := false, buf := { q.buf with held := [], begun := false } }
        ((s3.raiseEvent 50 (BitVec.ofNat 32 p.val)).causeEnds (56 + p.val)).asrcEndpoints (onPort p)
    else s)

/-- The RW bits of TDM.CFGn (R236). -/
def cfgMask : Word := 0xFFFF8000#32

/-- A port whose configuration was refused: CFGERR and EV5 (R212). -/
def State.portCfgCheck (s : State) (p : Fin 16) : State :=
  if s.cfgRefused (s.reg (regTDM_CFG p.val)) then (s.setRbit (regTDM_STAT p.val) 28).configError (regTDM_CFG p.val) else s

/-- TDM_CFG_WRITE (R212, R236): the RW fields take the written value. A change marks a slave port invalid, with the new settings at once and its qualification begun anew, and makes a master port restart at the next frame tick. A reserved FMT or WLEN raises EV5. -/
def execTdmCfgWrite (_m : Master) (p : Fin 16) (v : Word) (s : State) : Host.Outcome State Fault Refusal :=
  .next (
    let a := regTDM_CFG p.val
    let old := s.reg a
    let new := merge old cfgMask v
    let s0 := if fld v 28 2 = 3 ∨ fld v 21 2 = 3 then s.configError a else s
    let s1 := s0.setReg a new
    if new = old then s1
    else
      let s2 := if s.portSlave p ∧ s.portValid p then s1.portInvalid p false else s1
      let s3 := (s2.portCfgCheck p).putRbit (regTDM_STAT p.val) 30 false
      if cfgMaster new then s3.modPort p fun q => { q with restart := true }
      else (s3.modPort p fun q => { q with cfg := new, restart := false, clk := false }).asrcEndpoints (onPort p))

/-- MASTER_PORT_RESTART (R221, R236): at the tick after a change a master port takes its new settings, with its level at 0. Without a restart due nothing happens. -/
def execMasterPortRestart (p : Fin 16) (s : State) : Host.Outcome State Fault Refusal :=
  .next (
    if (s.port p).restart then
      (s.modPort p fun q => { q with
        cfg := s.reg (regTDM_CFG p.val), restart := false, lev := 0, buf := bufReset, slipped := false, sent := none, clk := false }).asrcEndpoints (onPort p)
    else s)

/-- ℓ of every slot and v of a port after the capture of frame k - 1 at the tick of frame k, the mask of the next capture, and OFFSET (R213, R220, R221). -/
def State.portTick (s : State) (p : Fin 16) : State :=
  let q := s.port p
  let mi := q.inMask
  let mo := s.tabGet (regTDM_MASKOUT p.val)
  s.setPort p { q with
    lev := stepTo q.lev (if s.portValid p then 64 else 0)
    levIn := q.levIn.zipIdx.map fun e => stepTo e.1 (if bit mi e.2 then 64 else 0)
    levOut := q.levOut.zipIdx.map fun e => stepTo e.1 (if bit mo e.2 then 64 else 0)
    inMask := s.tabGet (regTDM_MASKIN p.val)
    offset := Nat.min s.maxOffset (s.rfld (regTDM_ALIGN p.val) 0 11) }

/-- The levels of a port at the first frame tick (R221). -/
def State.portFirst (s : State) (p : Fin 16) : State :=
  let c := s.reg (regTDM_CFG p.val)
  let lv (m : Word) : List Nat := (List.range 32).map fun i => if bit m i then 64 else 0
  let mi := s.tabGet (regTDM_MASKIN p.val)
  let mo := s.tabGet (regTDM_MASKOUT p.val)
  s.modPort p fun q => { q with
    cfg := c, lev := if cfgMaster c then 64 else 0, levIn := lv mi, levOut := lv mo, inMask := mi
    offset := Nat.min s.maxOffset (s.rfld (regTDM_ALIGN p.val) 0 11) }

end Sys2Proof.Machine
end

