-- ==== Sys2Proof/Machine/Aes.lean ====
section
/-! DEFINITION. AES3 receivers and transmitters (R224 to R228), resync slips (R216) and the locks of ASRC channels (R229 to R235). -/

namespace Sys2Proof.Machine

/-- A receiver is changed by `f`. -/
def State.modRx (s : State) (r : Fin 4) (f : AesRx → AesRx) : State := { s with rxs := s.rxs.set r.val (f (s.rx r)) r.isLt }

/-- All receivers or transmitters, ascending. -/
def aesIds : List (Fin 4) := [0, 1, 2, 3]

/-- Entry `b` of the feed map (R139). -/
def State.feedMap (s : State) (b : Nat) : Word := s.tabGet (0x01110000 + 4 * b)

/-- A feed block takes the receivers directly (R224). -/
def State.rxDirect (s : State) : Bool := (List.range 128).any fun b => decide (fld (s.feedMap b) 28 4 = 2)

/-- A rate that a receiver accepts (R224). -/
def aesRateOk (rate : Nat) : Bool :=
  [32000, 44100, 48000, 88200, 96000, 176400, 192000].any fun f => decide (f * 999 ≤ rate * 1000) && decide (rate * 1000 ≤ f * 1001)

/-- A slip of a receiver used directly (R215, R224; log entry 21). -/
def State.rxSlip (s : State) (r : Fin 4) : State :=
  ((s.setReg (regAES_RXSLIP r.val) (satAdd (s.reg (regAES_RXSLIP r.val)) 0 16 1)).setRbit (regAES_RXSTAT r.val) 24).raiseEvent 48 (BitVec.ofNat 32 r.val)

/-- The channel-status condition of R227: CSND and the non-audio bit of a held block. -/
def State.csNonAudio (s : State) (r : Fin 4) : Bool :=
  s.rbit (regAES_RXCTRL r.val) 29 && (s.rbit (regAES_RXCS r.val 0) 1 || s.rbit (regAES_RXCS r.val 6) 1)

/-- The burst condition of R227: BURST and a preamble within the last 8,192 AES frames. -/
def State.burstNonAudio (s : State) (r : Fin 4) : Bool :=
  s.rbit (regAES_RXCTRL r.val) 28 && match (s.rx r).sinceBurst with | some n => decide (n < 8192) | none => false

/-- The non-audio state is set when a condition first holds, with EV53 (R227). -/
def State.nonAudioSet (s : State) (r : Fin 4) : State :=
  if s.csNonAudio r || s.burstNonAudio r then
    let s1 := s.modRx r fun v => { v with absent := 0 }
    if s.rbit (regAES_RXSTAT r.val) 28 then s1 else (s1.setRbit (regAES_RXSTAT r.val) 28).raiseEvent 53 (BitVec.ofNat 32 r.val)
  else s

/-- A subframe's sample: bits [31:8], or the previous sample after a parity error, which is counted (R225). -/
def State.subSample (s : State) (r : Fin 4) (prev : Word) (f : Subframe) : Word × State :=
  if f.parityErr then (prev, s.setReg (regAES_RXERR r.val) (satAdd (s.reg (regAES_RXERR r.val)) 16 16 1))
  else (f.data ++ 0#8, s)

/-- AES_FRAME_RECEIVE (R224, R225, R227): an enabled receiver takes the subframes' samples, reports the validity bit, notes a preamble, and holds the frame for its capture when it is valid and used directly; a third held frame makes a slip. -/
def execAesFrameReceive (r : Fin 4) (sa sb : Subframe) (s : State) : Host.Outcome State Fault Refusal :=
  .next (
    if !s.rxOn r then s
    else
      let v := s.rx r
      let a := s.subSample r (nthD v.last 0 0) sa
      let b := a.2.subSample r (nthD v.last 1 0) sb
      let s1 := b.2.putRbit (regAES_RXSTAT r.val) 26 sb.v
      let burst := decide (fld a.1 16 16 = 0xF872) && decide (fld b.1 16 16 = 0x4E1F)
      let since := if burst then some 0 else v.sinceBurst.map (· + 1)
      let take := s.rxValid r && s.rxDirect
      let third := take && decide (2 ≤ v.buf.held.length)
      let s2 := s1.modRx r fun v => { v with
        last := [a.1, b.1], sinceBurst := since, absent := v.absent + 1, buf := if take then v.buf.complete s.now [a.1, b.1] else v.buf }
      let s3 := if third then s2.rxSlip r else s2
      let s4 := if s.rxValid r then (s3.endpointSample 2 (2 * r.val) a.1).endpointSample 2 (2 * r.val + 1) b.1 else s3.setRbit (regAES_RXSTAT r.val) 30
      s4.nonAudioSet r)

/-- NON_AUDIO_CLEAR (R227): with both conditions absent for 8,192 AES frames the non-audio state clears, with EV53. -/
def execNonAudioClear (r : Fin 4) (s : State) : Host.Outcome State Fault Refusal :=
  .next (
    if s.rbit (regAES_RXSTAT r.val) 28 && !s.csNonAudio r && !s.burstNonAudio r && decide (8192 ≤ (s.rx r).absent) then
      (s.putRbit (regAES_RXSTAT r.val) 28 false).raiseEvent 53 (BitVec.ofNat 32 r.val)
    else s)

/-- One bit into the channel-status CRC of AES3 (PRESUMED: AES3, x^8 + x^4 + x^3 + x^2 + 1 started at ones, first bit first; log entry 22). -/
def csCrcBit (c : Byte) (b : Bool) : Byte := if (c.getLsbD 0) != b then (c >>> 1) ^^^ 0xB8#8 else c >>> 1

/-- The channel-status CRC over bytes 0 to 22. -/
def csCrc (bs : List Byte) : Byte :=
  (bs.take 23).foldl (fun c b => (List.range 8).foldl (fun c i => csCrcBit c (b.getLsbD i)) c) 0xFF#8

/-- The bytes of a channel-status block, byte 0 first. -/
def blockBytes (b : BitVec 192) : List Byte := (List.range 24).map fun i => b.extractLsb' (8 * i) 8

/-- CHANNEL_STATUS_BLOCK (R226, R227): a professional block with a wrong CRC is discarded and counted; a taken block that differs from the held one is written to AES.RXCSr, with EV54. `sub` is true for subframe B. -/
def execChannelStatusBlock (r : Fin 4) (sub : Bool) (block : BitVec 192) (s : State) : Host.Outcome State Fault Refusal :=
  .next (
    let bs := blockBytes block
    let pro := block.getLsbD 0
    if !s.rxOn r then s
    else if pro && csCrc bs != nthD bs 23 0 then s.setReg (regAES_RXERR r.val) (satAdd (s.reg (regAES_RXERR r.val)) 0 16 1)
    else
      let base := if sub then 6 else 0
      let word (w : Nat) : Word := block.extractLsb' (32 * w) 32
      let differs := (List.range 6).any fun w => s.reg (regAES_RXCS r.val (base + w)) != word w
      let s1 := (List.range 6).foldl (fun (t : State) w => t.setReg (regAES_RXCS r.val (base + w)) (word w)) s
      let s2 := if sub then s1 else s1.putRbit (regAES_RXSTAT r.val) 27 pro
      let s3 := if differs then s2.raiseEvent 54 (BitVec.ofNat 32 r.val) else s2
      s3.nonAudioSet r)

/-- AES_RECEIVER_QUALIFIED (R224): an enabled receiver that is not valid qualifies at an accepted rate, within 1 % of Fi when a feed block takes it directly: VALID, EV52, the fault's cause ended; otherwise RATEERR. -/
def execAesReceiverQualified (r : Fin 4) (rateHz : BitVec 18) (s : State) : Host.Outcome State Fault Refusal :=
  .next (
    if s.rxOn r && !s.rxValid r then
      let a := regAES_RXSTAT r.val
      let s1 := (s.setRfld a 0 18 rateHz.toNat).putRbit a 30 false
      if !aesRateOk rateHz.toNat || (s.rxDirect && !s.nearFi rateHz.toNat) then s1.setRbit a 29
      else
        let s2 := ((s1.setRbit a 31).putRbit a 29 false).modRx r fun v => { v with buf := { v.buf with held := [], begun := false } }
        ((s2.raiseEvent 52 (BitVec.ofNat 32 r.val)).causeEnds (72 + r.val)).asrcEndpoints (onRx r)
    else s)

/-- A receiver is marked invalid: VALID clears, INVALIDATED is set, the receiver fault's cause, EV51 where its rate changed, and EV52; its ASRC channels lose their endpoint (R217, R218, R224). -/
def State.rxInvalid (s : State) (r : Fin 4) (moved : Bool) : State :=
  let a := regAES_RXSTAT r.val
  let s1 := ((s.putRbit a 31 false).setRbit a 25).modRx r fun v => { v with buf := { v.buf with held := [], begun := false } }
  let s2 := s1.causeBegins (72 + r.val)
  let s3 := if moved then s2.raiseEvent 51 (BitVec.ofNat 32 r.val) else s2
  (s3.raiseEvent 52 (BitVec.ofNat 32 r.val)).asrcEndpoints (onRx r)

/-- AES_RECEIVER_LOST (R217, R224): the signal stops: a valid receiver is marked invalid, and one that is qualifying no longer is. -/
def execAesReceiverLost (r : Fin 4) (s : State) : Host.Outcome State Fault Refusal :=
  .next (
    let s1 := s.putRbit (regAES_RXSTAT r.val) 30 false
    if s.rxValid r then s1.rxInvalid r false else s1)

/-- PORT_RATE_CHANGE (R218, R224): the rate of a valid slave port or receiver moves by more than 1 %: EV51, and it is marked invalid and re-qualifies. -/
def execPortRateChange (k : InKey) (s : State) : Host.Outcome State Fault Refusal :=
  .next (match k with
    | .port p =>
      if s.portSlave p && s.portValid p then (s.portInvalid p true).setRbit (regTDM_STAT p.val) 30
      else s
    | .rx r =>
      if s.rxValid r then (s.rxInvalid r true).setRbit (regAES_RXSTAT r.val) 30
      else s)

/-- RESYNC_SLIP (R216, R224): the frame in progress of a slave port or an enabled receiver is discarded and the capture it would have served repeats the one before; the slip is counted and reported with EV49. -/
def execResyncSlip (k : InKey) (s : State) : Host.Outcome State Fault Refusal :=
  .next (match k with
    | .port p =>
      if s.portSlave p then
        let a := regTDM_RESYNC p.val
        let s1 := ((s.setReg a (satAdd (s.reg a) 0 16 1)).setRbit (regTDM_STAT p.val) 26).modPort p fun q => { q with buf := q.buf.resync s.now }
        s1.raiseEvent 49 (BitVec.ofNat 32 p.val)
      else s
    | .rx r =>
      if s.rxOn r then
        let a := regAES_RXSLIP r.val
        let s1 := ((s.setReg a (satAdd (s.reg a) 16 16 1)).setRbit (regAES_RXSTAT r.val) 24).modRx r fun v => { v with buf := v.buf.resync s.now }
        s1.raiseEvent 49 (BitVec.ofNat 32 r.val)
      else s)

/-- The value of a subframe of a receiver for the capture frame that ends (R224, R227, R364). -/
def State.rxInput (s : State) (r : Fin 4) (sub : Nat) : Word :=
  levelled (nthD (s.rx r).buf.cap sub 0) 64 (s.rx r).lev (s.muteLevel (32 + r.val))

/-- The capture of a receiver for frame k - 1, made at the tick of frame `k`: the frame that ended in frame k - 2 is taken (R215, R224; log entry 21). -/
def State.rxCapture (s : State) (r : Fin 4) (k : Nat) : State :=
  let v := s.rx r
  let due := match v.buf.held with | e :: _ => v.buf.begun || decide (e.1 + 2 ≤ k) | [] => false
  if s.rxValid r && s.rxDirect && due then s.modRx r fun v => { v with buf := v.buf.takeNext }
  else if s.rxValid r && s.rxDirect && v.buf.begun then (s.modRx r fun v => { v with buf := v.buf.takeNext }).rxSlip r
  else s

/-- The port level of a receiver steps at a tick (R221, R224, R227). -/
def State.rxLevel (s : State) (r : Fin 4) : State :=
  let up := s.rxValid r && !(s.rbit (regAES_RXCTRL r.val) 30 && s.rbit (regAES_RXSTAT r.val) 28)
  s.modRx r fun v => { v with lev := stepTo v.lev (if up then 64 else 0) }

/-! ## Transmitters -/

/-- A transmitter. -/
def State.tx (s : State) (t : Fin 4) : AesTx := s.txs.get t

/-- A transmitter is changed by `f`. -/
def State.modTx (s : State) (t : Fin 4) (f : AesTx → AesTx) : State := { s with txs := s.txs.set t.val (f (s.tx t)) t.isLt }

/-- The samples presented in frame `k` at a transmitter, kept for the AES frame that begins in frame k + 1 (R228, R364). -/
def State.txPresent (s : State) (t : Fin 4) (k : Nat) : State :=
  if s.rbit (regAES_TXCTRL t.val) 31 && decide (s.txRate t = 0) then
    let a := regAES_TXSEL t.val
    let x := s.endpointValue 3 (2 * t.val) a k
    let y := x.2.endpointValue 3 (2 * t.val + 1) (a + 2) k
    y.2.modTx t fun v => { v with next := (s.outLevelled x.1 64 64, s.outLevelled y.1 64 64) }
  else s

/-- The converted sample of a transmitter subframe at another rate; zero without a channel or while RXSRC is invalid (R228). -/
def State.txConverted (s : State) (t : Fin 4) (sub : Nat) : Word × State :=
  if s.txRate t = 3 ∧ !s.rxValid (fin 3 (s.rfld (regAES_TXCTRL t.val) 26 2)) then (0, s)
  else match s.asrcDriver 3 (2 * t.val + sub) with
    | some c => let r := s.asrcSample c s.now; (s.outLevelled r.1 64 64, r.2)
    | none => (0, s)

/-- The bytes of the channel-status template, with the CRC in byte 23 when PRO = 1 (R228). -/
def State.txTemplate (s : State) (t : Fin 4) : List Word := (List.range 6).map fun w => s.reg (regAES_TXCS t.val w)

/-- The channel-status bit `pos` of a template. -/
def csBitOf (tmpl : List Word) (pro : Bool) (pos : Nat) : Bool :=
  let bs := wordsLE tmpl
  if pro && decide (184 ≤ pos) then (csCrc bs).getLsbD (pos % 8) else (nthD bs (pos / 8) 0).getLsbD (pos % 8)

/-- The parity bit of a subframe: slots 4 to 31 hold an even number of ones (R228; PRESUMED: AES3, log entry 22). -/
def subParity (x : Word) (v u c : Bool) : Bool := (popCount x + b2n v + b2n u + b2n c) % 2 == 1

/-- AES_FRAME_TRANSMIT (R228): an enabled transmitter sends the samples presented in the frame before, or the converted ones at another rate, rounded to 24 bits, with validity and user bit 0, the parity bit, and the channel-status bit of its place in the block; a block takes the template at its start. A module that did not own the frame of the samples holds the output at high impedance (R348, R352). -/
def execAesFrameTransmit (t : Fin 4) (s : State) : Host.Outcome State Fault Refusal :=
  .next (
    if !s.rbit (regAES_TXCTRL t.val) 31 then s
    else
      let v := s.tx t
      let tmpl := if v.pos = 0 then s.txTemplate t else v.tmpl
      let x := if s.txRate t = 0 then (v.next.1, s) else s.txConverted t 0
      let y := if s.txRate t = 0 then (v.next.2, x.2) else x.2.txConverted t 1
      let cs := csBitOf tmpl (s.rbit (regAES_TXCTRL t.val) 30) v.pos
      let a := slotOut x.1 24
      let b := slotOut y.1 24
      y.2.modTx t fun v => { v with
        pos := (v.pos + 1) % 192, tmpl := tmpl, sent := if s.ownPrev then some (a, b) else none
        csBit := cs, vBit := false, uBit := false, parity := (subParity a false false cs, subParity b false false cs) })

/-! ## The ASRC array -/

/-- ASRC_LOCK (R231 to R235): a channel in use that is not locked, with a valid endpoint, a rate within the limits and, in network-time ratio mode, an anchor in force, locks and fades in, with EV55. A rate outside the limits sets RANGEERR. -/
def execAsrcLock (c : Fin 512) (ratio : Word) (rateHz : BitVec 18) (s : State) : Host.Outcome State Fault Refusal :=
  .next (
    let a := regASRC_CHSTAT c.val
    if !s.asrcUsed c.val || s.asrcLocked c.val || !s.asrcEndpointValid c.val then s
    else if !s.asrcRateOk rateHz.toNat then s.setReg a (s.asrcStatus c.val false false true rateHz.toNat)
    else if s.asrcMode c.val = 1 ∧ !s.tbAnchored (fld (s.asrcWord c.val 1) 24 2) then s
    else
      let s1 := s.setReg a (s.asrcStatus c.val true false false rateHz.toNat)
      ({ s1 with asrcRatio := wmSet s1.asrcRatio c.val ratio } : State).raiseEvent 55 (BitVec.ofNat 32 c.val))

/-- Why a channel unlocks holds: its endpoint is lost, no anchor is in force for its conversion, or its samples drift from their computed place, which only network-time ratio mode computes (R232, R233). -/
def State.unlockDue (s : State) (c : Nat) (why : UnlockCause) : Bool :=
  match why with
  | .endpoint => !s.asrcEndpointValid c
  | .anchor => decide (s.asrcMode c = 1) && !s.tbAnchored (s.asrcTb c)
  | .drift => decide (s.asrcMode c = 1)

/-- ASRC_UNLOCK (R232, R233): a locked channel loses lock; a drift also raises source 76. Without its cause nothing happens. -/
def execAsrcUnlock (c : Fin 512) (why : UnlockCause) (s : State) : Host.Outcome State Fault Refusal :=
  .next (
    if s.asrcLocked c.val && s.unlockDue c.val why then
      let s1 := s.asrcUnlocked c.val true (s.asrcRateHz c.val)
      if why = .drift then s1.faultOccurs 76 else s1
    else s)

/-- The locked channels whose anchor is no longer in force unlock and acquire again (R233, R279). -/
def State.asrcAnchors (s : State) : State :=
  (s.asrcOn.filter fun c => s.asrcLocked c && s.unlockDue c .anchor).foldl (fun (t : State) c => t.asrcUnlocked c true (t.asrcRateHz c)) s

/-- The output channels in network-time ratio mode take their sources as presented in the frame that ends (R230, R233). -/
def State.asrcSources (s : State) : State :=
  (s.asrcOn.filter fun c => s.asrcDirOut c && decide (s.asrcMode c = 1)).foldl
    (fun (t : State) c => t.asrcPlace c (s.now : Int) (s.selValue (0x01900008 + 16 * c) s.now)) s

/-- The outputs of the input channels for the capture frame that ends, and the levels of every channel for the next (R221, R232). -/
def State.asrcTick (s : State) : State :=
  let ins := s.asrcOn.filter fun c => !s.asrcDirOut c
  let s1 : State := ins.foldl (fun (s : State) c =>
    let r := s.asrcSample c s.now
    { r.2 with asrcOut := wmSet r.2.asrcOut c r.1 }) { s.asrcSources with asrcOut := [] }
  let keys := (s1.asrcLev.map (·.1)) ++ (s1.asrcOn.filter fun c => (mapFind s1.asrcLev c).isNone)
  { s1 with asrcLev := keys.foldl (fun m c =>
      mapSet (fun _ => 0) m c (stepTo (s1.asrcLevel c) (if s1.asrcUsed c && s1.asrcLocked c then 64 else 0))) s1.asrcLev }

end Sys2Proof.Machine
end

