-- ==== Sys2Proof/Machine/Crypto.lean ====
section
/-! DEFINITION. SHA-256, and ECDSA verification on curve P-256, as R323 names them (FIPS 180-4 and FIPS 186-5: PRESUMED, log entry 50). -/

namespace Sys2Proof.Machine

/-! ## SHA-256 -/

/-- The largest `x` below `acc + 2^n` with `x^k ≤ v`, found bit by bit. -/
def rootFrom (k v : Nat) : Nat → Nat → Nat
  | 0, acc => acc
  | n + 1, acc => rootFrom k v n (if (acc + 2 ^ n) ^ k ≤ v then acc + 2 ^ n else acc)

/-- The first 32 bits of the fractional part of the `k`-th root of a number below 512: the form in which FIPS 180-4 gives its constants. -/
def rootFrac (k p : Nat) : Word := BitVec.ofNat 32 (rootFrom k (p * 2 ^ (32 * k)) 41 0)

/-- The first 64 primes. -/
def shaPrimes : List Nat := (List.range 312).filter fun p => decide (2 ≤ p) && (List.range p).all fun d => decide (d < 2) || decide (p % d ≠ 0)

/-- The round constants: cube roots. -/
def shaK : List Word := shaPrimes.map (rootFrac 3)

/-- The initial hash value, first word in front: square roots. -/
def shaInit : List Word := (shaPrimes.take 8).map (rootFrac 2)

/-- A word turned right by each amount, and the results added bit by bit. -/
def shaTurn (w : Word) (amounts : List Nat) : Word := amounts.foldl (fun x n => x ^^^ w.rotateRight n) 0

/-- One round on the eight working words: all move down one place, and the round's two sums enter in front and at the fifth place. -/
def shaRound (v : List Word) (kw : Word) : List Word :=
  let x (i : Nat) : Word := nthD v i 0
  let choice := (x 4 &&& x 5) ||| (x 6 &&& ~~~x 4)
  let majority := (x 0 &&& (x 1 ||| x 2)) ||| (x 1 &&& x 2)
  let sum := x 7 + kw + choice + shaTurn (x 4) [6, 11, 25]
  [sum + majority + shaTurn (x 0) [2, 13, 22]] ++ v.take 3 ++ [sum + x 3] ++ (v.drop 4).take 3

/-- The schedule word that follows sixteen others. -/
def shaNext (w : List Word) : Word :=
  let near := nthD w 1 0
  let far := nthD w 14 0
  nthD w 0 0 + nthD w 9 0 + (shaTurn near [7, 18] ^^^ near >>> 3) + (shaTurn far [17, 19] ^^^ far >>> 10)

/-- The rounds of a block: `w` holds the next sixteen schedule words. -/
def shaRounds : List Word → List Word → List Word → List Word
  | [], _, v => v
  | k :: ks, w, v => shaRounds ks (w.drop 1 ++ [shaNext w]) (shaRound v (k + nthD w 0 0))

/-- The blocks of a padded message given as words: each one's rounds are added to the value before it. -/
def shaBlocks : Nat → List Word → List Word → List Word
  | 0, v, _ => v
  | n + 1, v, ws => shaBlocks n (List.zipWith (· + ·) v (shaRounds shaK (ws.take 16) v)) (ws.drop 16)

/-- Bytes as big-endian words; fewer than four left over give none. -/
def wordsOf : List Byte → List Word
  | a :: b :: c :: d :: t => (a ++ b ++ c ++ d) :: wordsOf t
  | _ => []

/-- The SHA-256 digest of a message as eight words, the first in front. -/
def sha256 (bs : List Byte) : List Word :=
  let zeros := (119 - bs.length % 64) % 64
  let ws := wordsOf (bs ++ 0x80#8 :: (List.replicate zeros 0#8 ++ beBytes 8 (8 * bs.length)))
  shaBlocks (ws.length / 16) shaInit ws

/-- A digest as a number. -/
def shaNat (ws : List Word) : Nat := natBE (ws.flatMap bytesBE)

/-! ## P-256 -/

/-- The field prime. -/
def pP : Nat := 0xffffffff00000001000000000000000000000000ffffffffffffffffffffffff
/-- The order of the base point. -/
def pN : Nat := 0xffffffff00000000ffffffffffffffffbce6faada7179e84f3b9cac2fc632551
/-- The constant of the curve y² = x³ - 3x + b. -/
def pB : Nat := 0x5ac635d8aa3a93e7b3ebbd55769886bc651d06b0cc53b0f63bce3c3e27d2604b
/-- The base point. -/
def pG : Nat × Nat :=
  (0x6b17d1f2e12c4247f8bce6e563a440f277037d812deb33a0f4a13945d898c296, 0x4fe342e2fe1a7f9b8ee7eb4a7c0f9e162bce33576b315ececbb6406837bf51f5)

/-- x^e mod m, over the low `n` bits of e. -/
def powMod (m x e : Nat) : Nat → Nat
  | 0 => 1 % m
  | n + 1 =>
    let h := powMod m x (e / 2) n
    let q := h * h % m
    if e % 2 = 1 then q * x % m else q

/-- The inverse modulo a prime below 2^256. -/
def invMod (m x : Nat) : Nat := powMod m (x % m) (m - 2) 256

/-- Difference modulo a number. -/
def subMod (m a b : Nat) : Nat := (a + m - b % m) % m

/-- Twice a point (X, Y, Z), which stands for (X / Z², Y / Z³); none is the point at infinity. -/
def ecDouble : Option (Nat × Nat × Nat) → Option (Nat × Nat × Nat)
  | none => none
  | some (x, y, z) =>
    if y = 0 then none
    else
      let y2 := y * y % pP
      let z2 := z * z % pP
      let u := 4 * x * y2 % pP
      let m := 3 * subMod pP x z2 * (x + z2) % pP
      let x3 := subMod pP (m * m) (2 * u)
      some (x3, subMod pP (m * subMod pP u x3) (8 * y2 * y2), 2 * y * z % pP)

/-- The sum of two points. -/
def ecAdd : Option (Nat × Nat × Nat) → Option (Nat × Nat × Nat) → Option (Nat × Nat × Nat)
  | none, q => q
  | p, none => p
  | some (x1, y1, z1), some (x2, y2, z2) =>
    let a := z1 * z1 % pP
    let b := z2 * z2 % pP
    let u1 := x1 * b % pP
    let v1 := y1 * (b * z2) % pP
    let h := subMod pP (x2 * a) u1
    let r := subMod pP (y2 * (a * z1)) v1
    if h = 0 then (if r = 0 then ecDouble (some (x1, y1, z1)) else none)
    else
      let hh := h * h % pP
      let hc := hh * h % pP
      let w := u1 * hh % pP
      let x3 := subMod pP (r * r) (hc + 2 * w)
      some (x3, subMod pP (r * subMod pP w x3) (v1 * hc), h * (z1 * z2) % pP)

/-- A multiple of a point, over the low `n` bits of the factor. -/
def ecMul (k : Nat) (p : Option (Nat × Nat × Nat)) : Nat → Option (Nat × Nat × Nat)
  | 0 => none
  | n + 1 =>
    let d := ecDouble (ecMul (k / 2) p n)
    if k % 2 = 1 then ecAdd d p else d

/-- The signature (r, s) over digest number `z` verifies under the public key (x, y) (R323). -/
def ecdsaOk (x y r s z : Nat) : Bool :=
  decide (x < pP) && decide (y < pP) && decide (y * y % pP = (x * x * x + (pP - 3) * x + pB) % pP) &&
  decide (0 < r) && decide (r < pN) && decide (0 < s) && decide (s < pN) &&
  let w := invMod pN s
  match ecAdd (ecMul (z * w % pN) (some (pG.1, pG.2, 1)) 256) (ecMul (r * w % pN) (some (x, y, 1)) 256) with
  | none => false
  | some (px, _, pz) => decide (px * invMod pP (pz * pz % pP) % pP % pN = r)

end Sys2Proof.Machine
end

