-- ==== Sys2Proof/Machine/Sched.lean ====
section
/-! DEFINITION. The hardware task scheduler: tokens and the matching store (R197 to R199), templates (R200), ready lists and domains (R201, R202), dispatch (R203, R46), the ends of a task (R205), purge (R206) and the interrupt pins (R207). -/

namespace Sys2Proof.Machine

/-- Word `w` of a template entry (R200). -/
def State.tmpl (s : State) (t w : Nat) : Word := s.tabGet (0x01800000 + 16 * t + 4 * w)

/-- PRI of a template. -/
def State.tmplPri (s : State) (t : Nat) : Nat := fld (s.tmpl t 0) 28 3

/-- The operand count of a template. -/
def State.tmplOps (s : State) (t : Nat) : Nat := fld (s.tmpl t 0) 26 2 + 1

/-- DOMAIN of a template. -/
def State.tmplDomain (s : State) (t : Nat) : Nat := fld (s.tmpl t 0) 16 6

/-- A token is rejected (R198). -/
def State.tokenRejected (s : State) (t : Token) : State :=
  let s1 := (s.count regEVT_DROP_CNT 1).setRbit regEVT_STATUS 29
  if t.src = 1 ∨ t.src = 2 then s1 else s1.raiseEvent 2 (BitVec.ofNat 32 (t.tmpl * 256 + t.num))

/-- A token is dropped for want of a store entry (R199). -/
def State.tokenDropped (s : State) (t : Token) : State :=
  let s1 := (s.count regEVT_FULL_CNT 1).setRbit regEVT_STATUS 30
  if t.src = 1 ∨ t.src = 2 then s1 else s1.raiseEvent 1 (BitVec.ofNat 32 (t.tmpl * 256 + t.num))

/-- A new store entry may be taken at a priority (R199). -/
def State.storeRoom (s : State) (pri : Nat) : Bool :=
  let free := 1024 - s.store.length
  decide (0 < free) && !(decide (free ≤ s.rfld regEVT_CTRL 8 10) && decide (pri < s.rfld regEVT_CTRL 24 3))

/-- The incomplete entry with a key (R198). -/
def StoreEntry.open (e : StoreEntry) (key : Nat) : Bool := decide (e.key = key) && e.ready.isNone

/-- An entry with a slot filled; complete when every slot below the operand count is present (R198, R201). -/
def StoreEntry.fill (e : StoreEntry) (slot : Nat) (v : Word) (order : Nat) : StoreEntry :=
  let ops := setNth e.ops slot (some v)
  { e with ops := ops, ready := if ops.all Option.isSome then some order else none }

/-- The token is matched against the store (R198, R199). -/
def State.offerToken (s : State) (t : Token) : State :=
  let key := t.tmpl * 256 + t.num
  let nops := s.tmplOps t.tmpl
  if !bit (s.tmpl t.tmpl 0) 31 || decide (nops ≤ t.slot) then s.tokenRejected t
  else match s.store.find? (·.open key) with
    | some e =>
      if (nthD e.ops t.slot none).isSome then s.tokenRejected t
      else
        let e' := e.fill t.slot t.val s.readyCtr
        { s with store := s.store.map (fun d => if d.open key then e' else d),
                 readyCtr := if e'.ready.isSome then s.readyCtr + 1 else s.readyCtr }
    | none =>
      if s.storeRoom (s.tmplPri t.tmpl) then
        let e : StoreEntry := { key := key, ops := List.replicate nops none, ready := none }
        let e' := e.fill t.slot t.val s.readyCtr
        { s with store := s.store ++ [e'], readyCtr := if e'.ready.isSome then s.readyCtr + 1 else s.readyCtr }
      else s.tokenDropped t

/-- TOKEN_OFFER (R192, R198): the oldest waiting token is offered to the matching store. With none waiting nothing happens. -/
def execTokenOffer (s : State) : Host.Outcome State Fault Refusal :=
  .next (match s.tokens with
    | [] => s
    | t :: ts => (({ s with tokens := ts } : State).memTouch 20 fun u => u / 4 == t.tmpl).offerToken t)

/-- SOFTWARE_EVENT_WRITE (R195): an occurrence of EV96 + n with the written payload. -/
def execSoftwareEventWrite (_m : Master) (i : Fin 32) (v : Word) (s : State) : Host.Outcome State Fault Refusal :=
  .next (s.raiseEvent (96 + i.val) v)

/-- N of the event divider; the reserved 0 acts as 96 (R209). -/
def State.divider (s : State) : Nat := if s.rfld regEVT_DIVIDER 0 16 = 0 then 96 else s.rfld regEVT_DIVIDER 0 16

/-- FRAME_DIVIDER_TICK (R196): at the tick of a frame with k mod N = 0, EV0 occurs with FC [31:0]; at another frame nothing happens. -/
def execFrameDividerTick (s : State) : Host.Outcome State Fault Refusal :=
  .next (if s.ticking ∧ s.now % s.divider = 0 then s.raiseEvent 0 (lo32 s.fc) else s)

/-! ## Dispatch -/

/-- A domain has a task in flight (R202). -/
def State.domainBusy (s : State) (d : Nat) : Bool :=
  courseIds.any fun n => match (s.course n).task with
    | some t => decide (s.tmplDomain (t.tag / 256) = d)
    | none => false

/-- Template of an entry. -/
def StoreEntry.tmplNo (e : StoreEntry) : Nat := e.key / 256

/-- The entry is its domain's head: no ready entry of the domain comes earlier (R202). -/
def State.isHead (s : State) (e : StoreEntry) (order : Nat) : Bool :=
  s.store.all fun d => match d.ready with
    | some o => decide (order ≤ o) || decide (s.tmplDomain d.tmplNo ≠ s.tmplDomain e.tmplNo)
    | none => true

/-- The entry is a candidate for Course `n` (R202, R203). -/
def State.isCandidate (s : State) (n : CourseId) (e : StoreEntry) : Bool :=
  match e.ready with
  | none => false
  | some o => s.isHead e o && !s.domainBusy (s.tmplDomain e.tmplNo) && bit (s.tmpl e.tmplNo 1) n.val

/-- Of two candidates the better: higher PRI, then earlier ready order (R203). -/
def State.better (s : State) (a b : StoreEntry) : Bool :=
  let pa := s.tmplPri a.tmplNo
  let pb := s.tmplPri b.tmplNo
  decide (pb < pa) || (decide (pa = pb) && decide ((a.ready.getD 0) < (b.ready.getD 0)))

/-- The best candidate for Course `n` (R203). -/
def State.bestFor (s : State) (n : CourseId) : Option StoreEntry :=
  (s.store.filter (s.isCandidate n)).foldl (fun best e => match best with
    | none => some e
    | some b => if s.better e b then some e else some b) none

/-- Course `n` offers a background slot; in SLEEP only a Course that CLK.GATE_SLEEP keeps (R203, R306). -/
def State.offers (s : State) (n : CourseId) : Bool :=
  let c := s.course n
  decide (c.phase = .sleep) && c.task.isNone && s.rbit (regC_CTRL n.val) 1 && s.rbit regEVT_CTRL 0 && !s.gatedOff n.val && s.courseClock

/-- The background context at dispatch: reset values, the operands in D0 to D3, PC at ENTRY (R46). -/
def dispatchCtx (ops : List (Option Word)) (entry : Nat) : Ctx :=
  let d := (ops.zipIdx).foldl (fun (v : Vector Word 32) e => v.set (e.2 % 32) (e.1.getD 0) (Nat.mod_lt _ (by decide))) Ctx.reset.d
  { Ctx.reset with d := d, pc := BitVec.ofNat 14 entry }

/-- An entry is dispatched to Course `n` (R46, R203). -/
def State.dispatchTo (s : State) (n : CourseId) (e : StoreEntry) : State :=
  let t := e.tmplNo
  let s1 := s.modCourse n fun c => { c with
    bg := dispatchCtx e.ops (fld (s.tmpl t 0) 0 14), task := some { tag := e.key, ticks := 0 }, phase := .back, bgRan := true, preemptDue := false,
    moves := c.moves.map fun m => { m with fresh := false } }
  let s2 := (s1.setReg (regC_AMODE_BG n.val) (s.tmpl t 2)).count regEVT_DISPATCH_CNT 1
  { s2 with store := s2.store.filter fun d => d.ready != e.ready }

/-- DISPATCH (R203): the offering Course of lowest number that has a candidate takes its best one. With no such Course nothing happens. -/
def execDispatch (s : State) : Host.Outcome State Fault Refusal :=
  .next (match courseIds.find? fun n => s.offers n && (s.bestFor n).isSome with
    | none => s
    | some n => match s.bestFor n with
      | some e => s.dispatchTo n e
      | none => s)

/-- TASK_END (R102, R205): TEND has issued and every posted write of the background is accepted: the task ends, its domain is released, and the Course leaves BACK. Otherwise nothing happens. -/
def execTaskEnd (n : CourseId) (s : State) : Host.Outcome State Fault Refusal :=
  .next (
    let c := s.course n
    if c.task.isSome && c.bg.ended && c.posted.all (fun p => decide (p.x ≠ .bg)) then
      s.setCourse n { c with task := none, bg := c.bg.drain, phase := if c.phase = .back then .sleep else c.phase }
    else s)

/-- TASK_OVERTIME (R205): a task that has held its context across more than LIMIT ticks is discarded. Outside SLEEP the tick has preempted it; in SLEEP, where a Course that keeps its clock goes on with it across the tick (R306), it leaves BACK. Otherwise nothing happens. -/
def execTaskOvertime (n : CourseId) (s : State) : Host.Outcome State Fault Refusal :=
  .next (
    let c := s.course n
    match c.task with
    | none => s
    | some t =>
      let limit := fld (s.tmpl (t.tag / 256) 1) 16 8
      if limit ≠ 0 ∧ limit < t.ticks ∧ (c.phase ≠ .back ∨ s.asleep) then
        (((s.setCourse n { c with task := none, bg := Ctx.reset, phase := if c.phase = .back then .sleep else c.phase }).count regEVT_ABORT_CNT 1).setRbit regEVT_STATUS 26).raiseEvent 4
          (BitVec.ofNat 32 (t.tag + n.val * 65536))
      else s)

/-- PURGE (R206): every incomplete entry of the template is removed and counted. -/
def execPurge (_m : Master) (v : Word) (s : State) : Host.Outcome State Fault Refusal :=
  .next (
    let gone (e : StoreEntry) := e.ready.isNone && decide (e.tmplNo = fld v 0 8)
    ({ s with store := s.store.filter fun e => !gone e } : State).count regEVT_DROP_CNT (s.store.filter gone).length)

/-- EVT_PEND_CLEAR (R207): a 1 clears a pending bit; a pin is released when no pending source routed to it remains. -/
def execEvtPendClear (_m : Master) (k : Fin 4) (v : Word) (s : State) : Host.Outcome State Fault Refusal :=
  .next (s.setReg (regEVT_PEND k.val) (s.reg (regEVT_PEND k.val) &&& ~~~v))

/-- Interrupt pin INTk_N is driven low (R207). -/
def State.intPin (s : State) (k : Nat) : Bool :=
  (List.range 128).any fun e => s.rbit (regEVT_PEND (e / 32)) (e % 32) && s.rbit (regEVT_ROUTE e) k

end Sys2Proof.Machine
end

