-- ==== Sys2Proof/Machine/Reply.lean ====
section
/-! DEFINITION. Delron messages (R265, R266), the host message window (R339), and the pairing states that other blocks ask (R344, R348, R350). -/

namespace Sys2Proof.Machine

/-- State codes of R350. -/
def pSINGLE : Nat := 0
/-- CLAIM (R350). -/
def pCLAIM : Nat := 1
/-- ACTIVE (R350). -/
def pACTIVE : Nat := 2
/-- JOIN (R350). -/
def pJOIN : Nat := 3
/-- MIRROR (R350). -/
def pMIRROR : Nat := 4
/-- READY (R350). -/
def pREADY : Nat := 5
/-- HELD (R350). -/
def pHELD : Nat := 6

/-- PAIR.STATUS.STATE (R350). -/
def State.pairState (s : State) : Nat := s.rfld regPAIR_STATUS 0 4

/-- In a state other than SINGLE and ACTIVE the outputs are held at high impedance (R348). -/
def State.standby (s : State) : Bool := decide (s.pairState ≠ pSINGLE) && decide (s.pairState ≠ pACTIVE)

/-- The Peg queue accepts entries only from master 11 (R349). -/
def State.pegClosed (s : State) : Bool := s.pairEn && decide (s.pairState ≠ pACTIVE)

/-- The partner receives forwarded records: the module is ACTIVE, the sync record has been processed, and the partner's heartbeat reports JOIN, MIRROR or READY (R353, R356). -/
def State.forwards (s : State) : Bool :=
  s.syncSent && decide (s.pairState = pACTIVE) && s.rbit regPAIR_STATUS 28 && decide (pJOIN ≤ s.rfld regPAIR_STATUS 16 4) && decide (s.rfld regPAIR_STATUS 16 4 ≤ pREADY)

/-- A record is forwarded to the partner (R356). -/
def State.forward (s : State) : State := if s.forwards then { s with fwdSent := s.fwdSent + 1 } else s

/-- The Delron pair state of R267 and R350. -/
def State.delronPair (s : State) : Nat :=
  if s.pairState = pSINGLE then 0 else if s.pairState = pACTIVE then 1 else if s.pairState = pREADY then 3 else 2

/-- A Delron message: header, body and CRC-32, big-endian (R265). -/
def delronMsg (dev : BitVec 64) (type : Nat) (seq : BitVec 16) (body : List Byte) : List Byte :=
  let m := [0xDE#8, 0x1A#8, 0x01#8, BitVec.ofNat 8 type] ++ beBytes 2 body.length ++ beBytes 2 seq.toNat ++ beBytes 8 dev.toNat ++ body
  m ++ bytesBE (crc32 m)

/-- The module's device identifier (R265, R271). -/
def State.devId (s : State) : BitVec 64 := s.reg regNET_DEVID_HI ++ s.reg regNET_DEVID_LO

/-- The address of outbound slot `k` (R339). -/
def outSlot (k : Nat) : Nat := 0x01B10800 + 0x600 * (k % 4)

/-- The bytes of a message packed four to a word, the first byte in [31:24]. -/
def packBE : List Byte → List Word
  | a :: b :: c :: d :: t => (a ++ b ++ c ++ d) :: packBE t
  | [a, b, c] => [a ++ b ++ c ++ 0#8]
  | [a, b] => [a ++ b ++ 0#16]
  | [a] => [a ++ 0#24]
  | [] => []

/-- A message is written to a slot, its length last (R339). -/
def State.writeSlot (s : State) (base : Nat) (msg : List Byte) : State :=
  let s1 := (packBE msg).zipIdx.foldl (fun (t : State) e => t.tabSet (base + 4 + 4 * e.2) e.1) s
  s1.tabSet base (BitVec.ofNat 32 msg.length)

/-- The bytes of the message in a slot. -/
def State.slotBytes (s : State) (base : Nat) : List Byte :=
  let n := Nat.min 1532 (s.tabGet base).toNat
  ((List.range ((n + 3) / 4)).flatMap fun i => bytesBE (s.tabGet (base + 4 + 4 * i))).take n

/-- Waiting replies are written while the next slot in order is empty (R339). -/
def State.fillSlots (s : State) : Nat → State
  | 0 => s
  | n + 1 => match s.outWait with
    | [] => s
    | m :: ms =>
      if s.tabGet (outSlot s.outFill) = 0 then
        ({ s.writeSlot (outSlot s.outFill) m with outFill := (s.outFill + 1) % 4, outWait := ms } : State).fillSlots n
      else s

/-- A reply to the SPI host port: the next slot, a place among 16 that wait, or BOOT.HOSTDROP (R339). -/
def State.replySpi (s : State) (msg : List Byte) : State :=
  if s.outWait.isEmpty && decide (s.tabGet (outSlot s.outFill) = 0) then
    { s.writeSlot (outSlot s.outFill) msg with outFill := (s.outFill + 1) % 4 }
  else if s.outWait.length < 16 then { s with outWait := s.outWait ++ [msg] }
  else s.count regBOOT_HOSTDROP 1

/-- A reply of a type to the sender of a request (R265, R266, R339). -/
def State.reply (s : State) (src : DelronSrc) (type : Nat) (seq : BitVec 16) (body : List Byte) : State :=
  let m := delronMsg s.devId type seq body
  match src with
  | .spi => s.replySpi m
  | .net ip port => { s with delronNet := some (ip, port, m) }

/-- A NAK with the refused type and a code (R266). -/
def State.nak (s : State) (src : DelronSrc) (seq : BitVec 16) (type code : Nat) : State :=
  s.reply src 0x7F seq [BitVec.ofNat 8 type, BitVec.ofNat 8 code, 0, 0]

/-- The oldest full outbound slot: slots are filled in order, so it is the first full one from the next to be filled on (R339). -/
def State.outOldest (s : State) : Option Nat := ((List.range 4).map (s.outFill + ·)).find? fun k => decide (s.tabGet (outSlot k) ≠ 0)

/-- Full outbound slots, BOOT.STATUS.HOSTQ (R339). -/
def State.hostQ (s : State) : Nat := ((List.range 4).filter fun k => decide (s.tabGet (outSlot k) ≠ 0)).length

end Sys2Proof.Machine
end

