-- ==== Sys2Proof/Machine/Peg.lean ====
section
/-! DEFINITION. The Peg unit: shadowed words and their groups (R167), the queue (R172 to R177), resolution of commits (R178 to R182), scenes (R186 to R188), the fixing of copies (R179), cancels (R189) and the log (R190). -/

namespace Sys2Proof.Machine

/-! ## Shadowed words (R167) -/

/-- A shadowed word: its commit group and the bits that hold state. -/
structure Shadowed where
  group : Nat
  mask : Word
deriving DecidableEq, Repr

/-- The bits of a selector code that are not reserved (R142). -/
def selMask : Word := 0x0000C7FF#32

/-- Shadowed words of the matrix, the equaliser array and the meters (R144, R145, R151, R158). -/
def State.shadowMix (s : State) (a : Nat) : Option Shadowed :=
  if a < 0x01100000 then
    match a % 16 with
    | 4 => some ⟨s.busGroup (s.entryBus ((a - 0x01000000) / 16)), 0xCFFF07FF#32⟩
    | 8 => some ⟨s.busGroup (s.entryBus ((a - 0x01000000) / 16)), 0xFFFFFFFF#32⟩
    | _ => none
  else if a < 0x01108000 then
    (if a % 8 = 4 then some ⟨s.busGroup (s.entryBus (65536 + (a - 0x01100000) / 8)), 0x800007FF#32⟩ else none)
  else if 0x01200000 ≤ a ∧ a < 0x01280000 then
    (if a % 32 < 20 then some ⟨s.secGroup ((a - 0x01200000) / 32), 0xFFFFFFFF#32⟩ else none)
  else if 0x01300000 ≤ a ∧ a < 0x01310000 then
    some ⟨s.rfld regMTR_CTRL 0 5, match a % 16 with | 0 => 0xCF00C7FF#32 | 12 => 0x00003FFF#32 | _ => 0xFFFFFFFF#32⟩
  else none

/-- Shadowed words of the delay tables (R120). -/
def State.shadowDelay (s : State) (a : Nat) : Option Shadowed :=
  match delayWord a with
  | none => none
  | some d =>
    let l := if d.isTap then s.tapLine d.course d.index else d.index
    if d.shadowed then some ⟨fld (s.tabGet (lineAddr d.course l 3)) 0 5, d.mask⟩ else none

/-- The coefficient pages (R171, R191). -/
def State.shadowPage (s : State) (a : Nat) : Option Shadowed :=
  let n := (a - 0x01400000) / 0x8000
  some ⟨if (a - 0x01400000) % 0x8000 < 0x4000 then s.rfld (regPEG_PAGEGRP n) 0 5 else s.rfld (regPEG_PAGEGRP n) 8 5, 0xFFFFFFFF#32⟩

/-- Shadowed words of the ASRC table, the output selectors and the network tables (R229, R237, R247). -/
def State.shadowNet (s : State) (a : Nat) : Option Shadowed :=
  if 0x01900000 ≤ a ∧ a < 0x01902000 then
    let g := fld (s.tabGet (a / 16 * 16)) 16 5
    match a % 16 with
    | 4 => some ⟨g, 0xE3000000#32⟩
    | 8 => some ⟨g, selMask⟩
    | _ => none
  else if 0x01910000 ≤ a ∧ a < 0x01910800 then some ⟨s.rfld (regTDM_CFG ((a - 0x01910000) / 128)) 8 5, selMask⟩
  else if 0x01A00000 ≤ a ∧ a < 0x01A02000 ∨ 0x01A10000 ≤ a ∧ a < 0x01A12000 then
    let g := fld (s.tabGet (a / 32 * 32)) 16 5
    let txd := decide (0x01A10000 ≤ a)
    match a % 32 with
    | 0 => none
    | 4 => some ⟨g, 0xFFE0FFFF#32⟩
    | 24 => some ⟨g, if txd then 0xFFFFFFFF#32 else 0xFFFF1FFF#32⟩
    | 28 => some ⟨g, if txd then 0xFC001FFF#32 else 0#32⟩
    | _ => some ⟨g, 0xFFFFFFFF#32⟩
  else if 0x01A20000 ≤ a ∧ a < 0x01A21000 then some ⟨s.rfld regNET_CTRL 0 5, selMask⟩
  else none

/-- Shadowed registers: group crossfade lengths, slot masks, AES3 selectors (R191, R236, R238). -/
def State.shadowReg (s : State) (a : Nat) : Option Shadowed :=
  if 0x50100 ≤ a ∧ a < 0x50180 then some ⟨(a - 0x50100) / 4, 0x00001FFF#32⟩
  else if 0xA0000 ≤ a ∧ a < 0xA0400 ∧ (a % 64 = 8 ∨ a % 64 = 12) then some ⟨s.rfld (regTDM_CFG ((a - 0xA0000) / 64)) 8 5, 0xFFFFFFFF#32⟩
  else if 0xB0800 ≤ a ∧ a < 0xB0C00 ∧ a % 256 = 4 then some ⟨s.rfld (regAES_TXCTRL ((a - 0xB0800) / 256)) 8 5, 0xC7FFC7FF#32⟩
  else none

/-- The shadowed word at a byte address, if there is one (R167). -/
def State.shadowed (s : State) (a : Nat) : Option Shadowed :=
  if a % 4 ≠ 0 then none
  else if a < 0x01000000 then s.shadowReg a
  else if a < 0x01400000 then s.shadowMix a
  else if a < 0x01440000 then s.shadowPage a
  else if a < 0x07000000 then s.shadowNet a
  else s.shadowDelay a

/-! ## The queue (R172 to R175) -/

/-- OP, LEN and ARG of a header (R172). -/
def hdrOp (h : Word) : Nat := fld h 28 4
/-- LEN of a header (R172). -/
def hdrLen (h : Word) : Nat := fld h 16 8
/-- ARG of a header (R172). -/
def hdrArg (h : Word) : Nat := fld h 0 16

/-- The payload words that a MODE needs beyond a group mask; none for the reserved mode (R173). -/
def modeLen (mode : Nat) : Option Nat :=
  match mode with
  | 0 => some 0
  | 1 => some 2
  | 2 => some 3
  | _ => none

/-- A header that R174 step 2 does not refuse. -/
def hdrOk (h : Word) : Bool :=
  let n := hdrLen h
  match hdrOp h with
  | 1 => decide (2 ≤ n) && decide (n ≤ 65)
  | 2 => decide ((modeLen (hdrArg h % 4)).map (· + 1) = some n)
  | 3 => if hdrArg h / 16384 % 2 = 1 then decide (n = 0) else decide (modeLen (hdrArg h / 1024 % 4) = some n)
  | 4 => decide (n = 1)
  | 5 => decide (n = 0)
  | _ => false

/-- The words that an entry with a header reserves (R174); a resolution record of R356 takes none. -/
def hdrSpace (h : Word) : Nat := if hdrOp h = 6 then 0 else hdrLen h + 1

/-- PEG.QFREE.FREE (R174). -/
def State.pegFree (s : State) : Nat :=
  2048 - ((s.pegOpen.map fun e => hdrSpace e.hdr).sum + (s.pegQueue.map fun e => hdrSpace e.hdr).sum)

/-- The open entry of a master. -/
def State.openEntry (s : State) (m : Nat) : Option PegOpen := s.pegOpen.find? fun e => decide (e.master = m)

/-- A complete entry joins the processing order; an active pair module forwards it (R174, R356). -/
def State.joinQueue (s : State) (m : Nat) (h : Word) (ws : List Word) (ack : Option (DelronSrc × BitVec 16)) : State :=
  let e : PegEntry := { master := m, hdr := h, words := ws, pos := 0, skipped := false, recA := 0, recLeft := 0, crc := 0xFFFFFFFF#32,
                        loading := false, loaded := false, failed := false, dir := [], ack := ack }
  ({ s with pegQueue := s.pegQueue ++ [e] } : State).forward

/-- A refused header: the status bit, PEG.DROP_CNT and EV33 (R174). -/
def State.pegRefuse (s : State) (m b : Nat) : State :=
  ((s.setRbit regPEG_STATUS b).count regPEG_DROP_CNT 1).raiseEvent 33 (BitVec.ofNat 32 m)

/-- The open entry of a master is closed; an incomplete one is discarded (R174 step 1). -/
def State.pegClose (s : State) (m : Nat) : State :=
  match s.openEntry m with
  | none => s
  | some _ => ((({ s with pegOpen := s.pegOpen.filter fun e => decide (e.master ≠ m) } : State).setRbit regPEG_STATUS 29).count regPEG_DROP_CNT 1)

/-- What becomes of a header: accepted, or the status bit of its refusal (R174, R349). -/
def State.pegVerdict (s : State) (m : Nat) (h : Word) : Option Nat :=
  if s.pegClosed ∧ m ≠ 11 then some 28 else if !hdrOk h then some 28 else if s.pegFree < hdrSpace h then some 30 else none

/-- A header from master `m` (R174, R349). -/
def State.pegHeader (s : State) (m : Nat) (h : Word) : State :=
  let s1 := s.pegClose m
  if s1.pegClosed ∧ m ≠ 11 then (s1.pegRefuse m 28).setRbit regPAIR_STATUS 23
  else match s1.pegVerdict m h with
    | some 30 => (s1.faultOccurs 3).pegRefuse m 30
    | some b => s1.pegRefuse m b
    | none =>
      if hdrLen h = 0 then s1.joinQueue m h [] none
      else { s1 with pegOpen := s1.pegOpen ++ [{ master := m, hdr := h, words := [] }] }

/-- A payload word from master `m`; discarded without an open entry (R174). -/
def State.pegData (s : State) (m : Nat) (v : Word) : State :=
  match s.openEntry m with
  | none => s
  | some e =>
    let ws := e.words ++ [v]
    if hdrLen e.hdr ≤ ws.length then
      ({ s with pegOpen := s.pegOpen.filter fun e => decide (e.master ≠ m) } : State).joinQueue m e.hdr ws none
    else { s with pegOpen := s.pegOpen.map fun o => if o.master = m then { o with words := ws } else o }

/-- PEG_QHDR_WRITE (R174, R349): the header closes the master's open entry and is accepted with its space reserved, or refused. -/
def execPegQhdrWrite (m : Master) (v : Word) (s : State) : Host.Outcome State Fault Refusal := .next (s.pegHeader m.val v)

/-- PEG_QDATA_WRITE (R172, R174): a payload word of the master's open entry; the last one completes the entry. -/
def execPegQdataWrite (m : Master) (v : Word) (s : State) : Host.Outcome State Fault Refusal := .next (s.pegData m.val v)

/-! ## Staging (R176, R177) -/

/-- The sealed groups (R177). -/
def State.sealed (s : State) : Word := (s.commits.filter fun c => c.fixed.isNone).foldl (fun w c => w ||| c.mask) 0

/-- Group `g` is sealed. -/
def State.isSealed (s : State) (g : Nat) : Bool := bit s.sealed g

/-- A value that a shadowed enumerated field does not define: a selector KIND, an ASRC MODE, a PTIME (R142, R229, R247). -/
def reservedShadow (a : Nat) (v : Word) : Bool :=
  if 0xB0800 ≤ a ∧ a < 0xB0C00 then decide (fld v 14 2 = 3) || decide (fld v 30 2 = 3)
  else if 0x01900000 ≤ a ∧ a < 0x01902000 then
    (if a % 16 = 4 then decide (2 ≤ fld v 29 2) else decide (fld v 14 2 = 3))
  else if 0x01910000 ≤ a ∧ a < 0x01910800 then decide (fld v 14 2 = 3)
  else if 0x01A00000 ≤ a ∧ a < 0x01A12000 ∧ a % 32 = 4 then decide (5 ≤ fld v 21 3)
  else if 0x01A20000 ≤ a ∧ a < 0x01A21000 then decide (fld v 14 2 = 3)
  else false

/-- A selector code without INDEX[10] where it names a bus: that bit is reserved then (R13, R142). `lo` is the lowest bit of the code in the word. -/
def selTrim (lo : Nat) (v : Word) : Word := if fld v (lo + 14) 2 = 1 then v &&& ~~~BitVec.ofNat 32 (2 ^ (lo + 10)) else v

/-- The value of a shadowed word without the bits that are reserved under the value itself: the top index bit of a selector that names a bus (R13, R142). -/
def shadowTrim (a : Nat) (v : Word) : Word :=
  if 0xB0800 ≤ a ∧ a < 0xB0C00 then selTrim 16 (selTrim 0 v)
  else if 0x01300000 ≤ a ∧ a < 0x01310000 then (if a % 16 = 0 then selTrim 0 v else v)
  else if 0x01900000 ≤ a ∧ a < 0x01902000 then (if a % 16 = 8 then selTrim 0 v else v)
  else if 0x01910000 ≤ a ∧ a < 0x01910800 then selTrim 0 v
  else if 0x01A20000 ≤ a ∧ a < 0x01A21000 then selTrim 0 v
  else v

/-- A value reaches the shadow copy of a word; a reserved one raises EV5 (R13, R176). -/
def State.stage (s : State) (a : Nat) (mask v : Word) : State :=
  let s1 := s.shadSet a (shadowTrim a (v &&& mask))
  if reservedShadow a v then s1.configError a else s1

/-- The entry at the head of the queue is replaced. -/
def State.setHead (s : State) (e : PegEntry) : State := { s with pegQueue := e :: s.pegQueue.drop 1 }

/-- The entry at the head of the queue is done with; one from the PAIR engine counts as applied (R346, R356). -/
def State.popHead (s : State) : State :=
  { s with
    pegQueue := s.pegQueue.drop 1
    fwdApplied := s.fwdApplied + (match s.pegQueue with | e :: _ => b2n (decide (e.master = 11)) | [] => 0) }

/-- The Peg unit has begun the entry at the head of the queue. -/
def State.headBusy (s : State) : Bool :=
  match s.pegQueue with
  | e :: _ => decide (0 < e.pos) || e.loading || e.loaded
  | [] => false

/-- A Course waits for its reload, and no entry is in progress: the queue processes nothing (R72). -/
def State.pegHalted (s : State) : Bool :=
  (courseIds.any fun n => decide ((s.course n).phase = .reset) && !(s.course n).reloaded) && !s.headBusy

/-- A word that is not shadowed is skipped: BADADDR, and PEG.DROP_CNT once per entry (R176). -/
def State.skipWord (s : State) (e : PegEntry) : State × PegEntry :=
  let s1 := s.setRbit regPEG_STATUS 27
  if e.skipped then (s1, e) else (s1.count regPEG_DROP_CNT 1, { e with skipped := true })

/-- The values of a WRITE from word `e.pos` on: written in order until one belongs to a sealed group (R176, R177). -/
def State.stageWords (s : State) (e : PegEntry) (base : Nat) : List Word → State × PegEntry
  | [] => (s, e)
  | v :: vs =>
    let a := base + 4 * e.pos
    match s.shadowed a with
    | some w =>
      if s.isSealed w.group then (s, e)
      else (s.stage a w.mask v).stageWords { e with pos := e.pos + 1 } base vs
    | none =>
      let r := s.skipWord e
      r.1.stageWords { r.2 with pos := e.pos + 1 } base vs

/-- PEG_WRITE (R176, R177): the WRITE entry at the head writes its values to shadow copies; a word of a sealed group stalls it. With another entry at the head nothing happens. -/
def execPegWrite (s : State) : Host.Outcome State Fault Refusal :=
  .next (match s.pegQueue with
    | e :: _ =>
      if hdrOp e.hdr = 1 ∧ !s.pegHalted then
        let r := s.stageWords e (nthD e.words 0 0).toNat (e.words.drop (e.pos + 1))
        if e.words.length ≤ r.2.pos + 1 then r.1.popHead else r.1.setHead r.2
      else s
    | [] => s)

/-! ## Resolution (R178 to R182) -/

/-- ceil(x / d). -/
def ceilDiv (x : Int) (d : Nat) : Int := -((-x) / (d : Int))

/-- The frame of the first tick at or after a time on a scale with an anchor (R181). -/
def State.frameAt (s : State) (anc : Int × Int) (t : Int) : Int := anc.2 + ceilDiv ((t - anc.1) * s.fi) 1000000000

/-- How a commit frame is fixed: refused (with the status bit), or a frame with LATE and HOLD. -/
inductive Verdict where
  | refused (statusBit : Nat)
  | frame (c : Nat) (late hold : Bool)
deriving DecidableEq, Repr

/-- A requested frame against j + 2 (R178). -/
def lateRule (j : Nat) (f : Int) (hold : Bool) : Verdict :=
  if f < (j : Int) + 2 then .frame (j + 2) true hold else .frame f.toNat false hold

/-- The commit frame of MODE and its words in frame `j` (R178, R181, R182). -/
def State.verdict (s : State) (j mode tb : Nat) (ws : List Word) : Verdict :=
  let w (i : Nat) : Nat := (nthD ws i 0).toNat
  match mode with
  | 0 => .frame (j + 2) false false
  | 1 => lateRule j ((w 0 + w 1 * 2 ^ 32 : Nat) : Int) false
  | _ =>
    if 1000000000 ≤ w 0 then .refused 28
    else
      let st := s.rfld (regTIME_STAT tb) 0 2
      match s.anchor tb with
      | none => .refused 24
      | some anc =>
        if st = 0 then .refused 24
        else
          let t : Nat := (w 1 + w 2 % 65536 * 2 ^ 32) * 1000000000 + w 0
          lateRule j (s.frameAt anc (t : Int)) (st ≠ 1 || !s.rbit (regTIME_STAT tb) 6)

/-- STATE codes of a log record (R190). -/
def logPending : Nat := 0

/-- The log record of a ticket (R190). -/
def State.writeLog (s : State) (ticket state : Nat) (late hold : Bool) (scene : Option Nat) (mode master tb : Nat) (mask : Word) (c : Nat) (ws : List Word) : State :=
  let r := ticket % 64
  let tbv := if mode = 2 then tb else 0
  let w0 := 2 ^ 31 + state * 2 ^ 29 + b2n late * 2 ^ 28 + b2n hold * 2 ^ 27 + b2n scene.isSome * 2 ^ 26 + mode * 2 ^ 24 + master * 2 ^ 20
    + tbv * 2 ^ 18 + scene.getD 0 * 256 + ticket
  let req (i : Nat) : Word := if mode = 0 then 0 else nthD ws i 0
  let set (t : State) (w : Nat) (v : Word) : State := t.setReg (regPEG_LOG r w) v
  let s1 := set (set (set (set s 0 (BitVec.ofNat 32 w0)) 1 mask) 2 (BitVec.ofNat 32 (c % 2 ^ 32))) 3 (BitVec.ofNat 32 (c / 2 ^ 32 % 2 ^ 32))
  set (set (set (set s1 4 (req 0)) 5 (req 1)) 6 (if mode = 2 then nthD ws 2 0 &&& 0xFFFF#32 else 0)) 7 (lo32 s.fc)

/-- The log record of its ticket is still that of commit `k` (R190). -/
def State.logHolds (s : State) (k : Commit) : Bool :=
  let w (i : Nat) : Word := s.reg (regPEG_LOG (k.ticket % 64) i)
  decide (fld (w 0) 0 8 = k.ticket) && decide (w 1 = k.mask) && decide ((w 2).toNat + (w 3).toNat * 2 ^ 32 = k.frame)

/-- STATE of the log record of a commit changes, while the log still has it (R190). -/
def State.logState (s : State) (k : Commit) (state : Nat) : State :=
  if s.logHolds k then s.setRfld (regPEG_LOG (k.ticket % 64) 0) 29 2 state else s

/-- The next ticket is assigned (R178). -/
def State.takeTicket (s : State) : Nat × State :=
  let t := (s.rfld regPEG_TICKET 0 8 + 1) % 256
  (t, s.setRfld regPEG_TICKET 0 8 t)

/-- A request that the entry answers gets its SCENE_ACK: STATUS, reserved, TICKET (R266). -/
def State.ackScene (s : State) (e : PegEntry) (ticket : Nat) : State :=
  match e.ack with
  | none => s
  | some (src, seq) => s.reply src 0x21 seq [0, 0, 0, BitVec.ofNat 8 ticket]

/-- A commit of `mask` is resolved in the current frame for an entry with its MODE, TB and words (R178 to R182, R190). -/
def State.resolve (s : State) (e : PegEntry) (mask : Word) (mode tb : Nat) (ws : List Word) (scene : Option Nat) : State :=
  let (t, s1) := s.takeTicket
  match s.verdict s.now mode tb ws with
  | .refused b =>
    let s2 := (s1.writeLog t 3 false false scene mode e.master tb mask 0 ws).setRbit regPEG_STATUS b
    (s2.raiseEvent 37 (BitVec.ofNat 32 t)).ackScene e t
  | .frame c late hold =>
    let s2 := s1.writeLog t logPending late hold scene mode e.master tb mask c ws
    let s3 : State := { s2 with commits := s2.commits ++ [{ ticket := t, mask := mask, frame := c, fixed := none }] }
    let s4 := if late then (s3.setRbit regPEG_STATUS 26).raiseEvent 34 (BitVec.ofNat 32 t) else s3
    let s5 := if hold then (s4.setRbit regPEG_STATUS 25).raiseEvent 36 (BitVec.ofNat 32 t) else s4
    s5.forward.ackScene e t

/-- A commit of a mask has to wait (R177). -/
def State.commitStalls (s : State) (mask : Word) : Bool := decide (mask &&& s.sealed ≠ 0) || decide (16 ≤ s.commits.length)

/-- A resolution record of the active is applied: the commit of `mask` with its ticket at frame `c` (R356). -/
def State.resolveForwarded (s : State) (ticket : Nat) (mask : Word) (c : Nat) : State :=
  let s1 := s.setRfld regPEG_TICKET 0 8 ticket
  let s2 := s1.writeLog ticket logPending false false none 1 11 0 mask c [BitVec.ofNat 32 c, BitVec.ofNat 32 (c / 2 ^ 32)]
  { s2 with commits := s2.commits ++ [{ ticket := ticket, mask := mask, frame := c, fixed := none }] }

/-- PEG_COMMIT (R178, R356): the COMMIT entry at the head is resolved, unless R177 stalls it; so is a resolution record that waits its turn. With another entry at the head nothing happens. -/
def execPegCommit (s : State) : Host.Outcome State Fault Refusal :=
  .next (match s.pegQueue with
    | e :: _ =>
      let mask := nthD e.words 0 0
      if s.pegHalted || s.commitStalls mask then s
      else if hdrOp e.hdr = 2 then s.popHead.resolve e mask (hdrArg e.hdr % 4) (hdrArg e.hdr / 16 % 4) (e.words.drop 1) none
      else if hdrOp e.hdr = 6 then
        s.popHead.resolveForwarded (hdrArg e.hdr % 256) mask ((nthD e.words 1 0).toNat + (nthD e.words 2 0).toNat * 2 ^ 32)
      else s
    | [] => s)

/-! ## Reverting, marking -/

/-- Every address with a listed active or shadow copy, or with a copy that is fixed for a later frame. -/
def State.shadowKeys (s : State) : List Nat :=
  let tabs := (s.tab.map (·.1)).filter fun a => (mapFind s.shad a).isNone
  let fixed := s.commits.flatMap fun c => (c.fixed.getD []).map (·.1)
  s.shad.map (·.1) ++ tabs ++ fixed.filter fun a => (mapFind s.shad a).isNone && (mapFind s.tab a).isNone

/-- The addresses of the groups in a mask. -/
def State.keysIn (s : State) (mask : Word) : List Nat :=
  s.shadowKeys.filter fun a => match s.shadowed a with | some w => bit mask w.group | none => false

/-- The shadow copies of the groups in a mask take the newest active copies (R173). -/
def State.revert (s : State) (mask : Word) : State :=
  (s.keysIn mask).foldl (fun (t : State) a => t.shadSet a (s.newest a)) s

/-- PEG_REVERT (R173, R177): the REVERT entry at the head; it waits while its mask names a sealed group. -/
def execPegRevert (s : State) : Host.Outcome State Fault Refusal :=
  .next (match s.pegQueue with
    | e :: _ =>
      if hdrOp e.hdr = 4 ∧ nthD e.words 0 0 &&& s.sealed = 0 ∧ !s.pegHalted then (s.revert (nthD e.words 0 0)).popHead else s
    | [] => s)

/-- PEG_MARK (R173): PEG.MARK takes the tag and EV32 occurs. -/
def execPegMark (s : State) : Host.Outcome State Fault Refusal :=
  .next (match s.pegQueue with
    | e :: _ =>
      if hdrOp e.hdr = 5 ∧ !s.pegHalted then
        (s.popHead.setReg regPEG_MARK (BitVec.ofNat 32 (hdrArg e.hdr))).raiseEvent 32 (BitVec.ofNat 32 (hdrArg e.hdr))
      else s
    | [] => s)

/-! ## Scenes (R186 to R188) -/

/-- Word `w` of the scene store (R186). -/
def State.sceneWord (s : State) (w : Nat) : Word := s.dramGet (s.regionBase 3 + w)

/-- Word `w` of the directory entry of a scene. -/
def State.sceneDir (s : State) (n w : Nat) : Word := s.sceneWord (4 * n + w)

/-- Scene number, MODE, TB and LOAD_ONLY of a SCENE header (R173). -/
def sceneNo (h : Word) : Nat := hdrArg h % 1024
/-- The four words of a directory entry. -/
def State.sceneEntry (s : State) (n : Nat) : List Word := [s.sceneDir n 0, s.sceneDir n 1, s.sceneDir n 2, s.sceneDir n 3]

/-- A directory entry admits its scene (R188 step 1). -/
def State.sceneDirOk (s : State) (d : List Word) : Bool :=
  let off := fld (nthD d 0 0) 0 31
  bit (nthD d 0 0) 31 && decide (4096 ≤ off) && decide (off + (nthD d 1 0).toNat ≤ s.regionSize 3)

/-- MASK of a scene whose directory entry has been read (R186). -/
def PegEntry.sceneMask (e : PegEntry) : Word := nthD e.dir 2 0

/-- A loaded scene fails: at its directory entry, at its records or at its CRC (R188). -/
def PegEntry.sceneBad (e : PegEntry) : Bool := e.failed || decide (~~~e.crc ≠ nthD e.dir 3 0)

/-- A SCENE entry that takes no ticket of its own: LOAD_ONLY, or forwarded by the PAIR engine (R188, R356). -/
def PegEntry.sceneQuiet (e : PegEntry) : Bool := decide (hdrArg e.hdr / 16384 % 2 = 1) || decide (e.master = 11)

/-- The body of a scene from word `e.pos` on: records are written as they are read, until the end, a sealed group, or a record that would run past LENGTH (R177, R187, R188). -/
def State.sceneLoad (s : State) (e : PegEntry) (off len : Nat) : Nat → State × PegEntry
  | 0 => (s, e)
  | fuel + 1 =>
    if len ≤ e.pos then (s, { e with loaded := true, failed := e.failed || decide (e.recLeft ≠ 0) })
    else
      let v := s.sceneWord (off + e.pos)
      let crc := (bytesLE v).foldl crcByte e.crc
      if 0 < e.recLeft then
        let next : PegEntry := { e with pos := e.pos + 1, crc := crc, recA := e.recA + 4, recLeft := e.recLeft - 1 }
        match s.shadowed e.recA with
        | some w => if s.isSealed w.group then (s, e) else (s.stage e.recA w.mask v).sceneLoad next off len fuel
        | none => let r := s.skipWord e; r.1.sceneLoad { next with skipped := r.2.skipped } off len fuel
      else
        let n := (s.sceneWord (off + e.pos + 1)).toNat
        if len < e.pos + 2 ∨ n = 0 ∨ 65535 < n ∨ len < e.pos + 2 + n then (s, { e with loaded := true, failed := true })
        else
          let crc2 := (bytesLE (s.sceneWord (off + e.pos + 1))).foldl crcByte crc
          s.sceneLoad { e with pos := e.pos + 2, crc := crc2, recA := v.toNat, recLeft := n } off len fuel

/-- Words of the scene store are read (R186, R369). -/
def State.sceneTouch (s : State) (w n : Nat) : State := s.dramTouch (s.regionBase 3 + w) n

/-- PEG_SCENE (R188 steps 1 and 2): the SCENE entry at the head has its directory entry read, once, and its records loaded, as far as no sealed group stalls it. With another entry at the head, or a load that is complete, nothing happens. -/
def execPegScene (s : State) : Host.Outcome State Fault Refusal :=
  .next (match s.pegQueue with
    | e :: _ =>
      if hdrOp e.hdr = 3 ∧ !e.loaded ∧ !s.pegHalted then
        let d := if e.loading then e.dir else s.sceneEntry (sceneNo e.hdr)
        let s := if e.loading then s else s.sceneTouch (4 * sceneNo e.hdr) 4
        if !s.sceneDirOk d then s.setHead { e with loaded := true, failed := true, dir := d }
        else
          let off := fld (nthD d 0 0) 0 31
          let len := (nthD d 1 0).toNat
          let r := s.sceneLoad { e with loading := true, dir := d } off len (2 * len + 2)
          (r.1.sceneTouch (off + e.pos) (r.2.pos - e.pos)).setHead r.2
      else s
    | [] => s)

/-- A refused scene: SCENEERR, EV39, the groups of MASK reverted, and with LOAD_ONLY = 0 a ticket with STATE refused and EV37 (R188); a forwarded entry takes no ticket of its own (R356). -/
def State.sceneRefuse (s : State) (e : PegEntry) (mask : Word) : State :=
  let n := sceneNo e.hdr
  let s1 := (s.revert (mask &&& ~~~s.sealed)).setRbit regPEG_STATUS 23
  if e.sceneQuiet then s1.raiseEvent 39 (BitVec.ofNat 32 n)
  else
    let (t, s2) := s1.takeTicket
    let s3 := s2.writeLog t 3 false false (some n) (hdrArg e.hdr / 1024 % 4) e.master (hdrArg e.hdr / 4096 % 4) mask 0 e.words
    ((s3.raiseEvent 37 (BitVec.ofNat 32 t)).raiseEvent 39 (BitVec.ofNat 32 n)).ackScene e t

/-- A loaded scene waits: one that fails for the groups of MASK that it reverts, any other for its resolution (R177). -/
def State.sceneStalls (s : State) (e : PegEntry) : Bool :=
  if e.sceneBad then decide (e.sceneMask &&& s.sealed ≠ 0) else s.commitStalls e.sceneMask

/-- SCENE_RESOLVE (R188 steps 3 and 4): after the load the scene is refused when its records or its CRC fail, and is otherwise resolved as a commit of MASK unless LOAD_ONLY = 1, or a forwarded entry, which the active's record resolves (R356); with LOAD_ONLY = 0 it waits under R177. Without a loaded scene at the head nothing happens. -/
def execSceneResolve (s : State) : Host.Outcome State Fault Refusal :=
  .next (match s.pegQueue with
    | e :: _ =>
      if hdrOp e.hdr = 3 ∧ e.loaded then
        let mask := e.sceneMask
        if e.sceneQuiet then (if e.sceneBad then s.popHead.sceneRefuse e mask else s.popHead)
        else if s.sceneStalls e then s
        else if e.sceneBad then s.popHead.sceneRefuse e mask
        else s.popHead.resolve e mask (hdrArg e.hdr / 1024 % 4) (hdrArg e.hdr / 4096 % 4) e.words (some (sceneNo e.hdr))
      else s
    | [] => s)

/-! ## The stall, the copies, cancels, the log -/

/-- PEG.STATUS.STALL: the first unprocessed entry meets a condition of R177. -/
def State.pegStall (s : State) : Bool :=
  match s.pegQueue with
  | [] => false
  | e :: _ =>
    match hdrOp e.hdr with
    | 1 => match s.shadowed ((nthD e.words 0 0).toNat + 4 * e.pos) with | some w => s.isSealed w.group | none => false
    | 2 => s.commitStalls (nthD e.words 0 0)
    | 6 => s.commitStalls (nthD e.words 0 0)
    | 3 =>
      if e.loaded then !e.sceneQuiet && s.sceneStalls e
      else decide (0 < e.recLeft) && match s.shadowed e.recA with | some w => s.isSealed w.group | none => false
    | 4 => decide (nthD e.words 0 0 &&& s.sealed ≠ 0)
    | _ => false

/-- PEG.STATUS.LOADING (R188). -/
def State.pegLoading (s : State) : Bool :=
  match s.pegQueue with
  | [] => false
  | e :: _ => e.loading && !e.loaded

/-- The words that a commit changes, by rising address (R170, R179). -/
def State.changedWords (s : State) (mask : Word) : List (Nat × Word) :=
  (s.keysIn mask).foldl (fun m a => if s.shadGet a = s.newest a then m else mapIns (mapDel m a) a (s.shadGet a)) []

/-- The first commit equal to `c` is replaced. -/
def replaceFirst (c d : Commit) : List Commit → List Commit
  | [] => []
  | h :: t => if h = c then d :: t else h :: replaceFirst c d t

/-- COMMIT_COPY_FIX (R178, R179): at the tick of frame c - 1 the sealed shadow copies of the oldest due commit become the copies for frame c, its groups are unsealed, and the tap prefetch of frame c uses the new delays. Without a due commit nothing happens. -/
def execCommitCopyFix (s : State) : Host.Outcome State Fault Refusal :=
  .next (match s.commits.find? fun c => c.fixed.isNone && s.ticking && decide (c.frame ≤ s.now + 1) with
    | none => s
    | some c =>
      let fixed := s.changedWords c.mask
      ({ s with commits := replaceFirst c { c with fixed := some fixed } s.commits } : State).delayFix fixed c.frame)

/-- The pending commit of a ticket that a cancel can still withdraw, the one resolved last (R189). -/
def State.cancelTarget (s : State) (ticket : Nat) : Option Commit :=
  s.commits.reverse.find? fun c => decide (c.ticket = ticket) && c.fixed.isNone && !(s.ticking && decide (c.frame ≤ s.now + 1))

/-- A commit is withdrawn: unsealed, logged as cancelled, EV38; a cancel without effect sets CXLATE (R189). -/
def State.cancel (s : State) (ticket : Nat) : State :=
  match s.cancelTarget ticket with
  | some k => ((({ s with commits := s.commits.erase k } : State).logState k 2).raiseEvent 38 (BitVec.ofNat 32 ticket))
  | none => s.setRbit regPEG_STATUS 22

/-- PEG_CANCEL_WRITE (R189, R356): the ticket's commit is withdrawn if it is pending and the tick of frame c - 1 is not seen; an active pair module forwards the cancel and applies it at the standby's acknowledgement. -/
def execPegCancelWrite (_m : Master) (v : Word) (s : State) : Host.Outcome State Fault Refusal :=
  .next (
    let t := fld v 0 8
    if s.forwards && (s.cancelTarget t).isSome then
      let s1 := s.forward
      { s1 with cancelWait := s1.cancelWait ++ [(t, s1.fwdSent)] }
    else s.cancel t)

/-- PEG_LOG_WORD0_READ (R190): word 0 is returned and words 1 to 7 are latched for the master. -/
def execPegLogWord0Read (m : Master) (r : Fin 64) (s : State) : Host.Outcome State Fault Refusal :=
  .next (
    let s1 := [1, 2, 3, 4, 5, 6, 7].foldl (fun (t : State) w => t.setLatch m.val (regPEG_LOG r.val w) (s.reg (regPEG_LOG r.val w))) s
    s1.returnTo m.val (s.reg (regPEG_LOG r.val 0)))

end Sys2Proof.Machine
end

