-- ==== Sys2Proof/Machine/Flows.lean ====
section
/-! DEFINITION. Network flows (R243 to R258): the flow tables and their check, media time, receiving and concealment, merge windows, transmit packets and launches. -/

namespace Sys2Proof.Machine

/-! ## The check (R245, R248) -/

/-- One enabled flow against the channels taken by those below it: their ranges and their weight (R248). -/
def flowBad (d : Nat) (ws : List Word) (taken : List (Nat × Nat)) (weight : Nat) : Bool :=
  let a := fwFirst ws
  let n := fwChans ws
  (taken.any fun t => decide (t.1 < a + n) && decide (a < t.1 + t.2)) || decide (1024 < weight + n * (1 + b2n (bit (fw ws 1) 26)))
    || decide (1024 < a + n) || decide (1440 < fwSamples ws * n * fwBytes ws)
    || (d == 1 && !fwAaf ws && decide (fld (fw ws 2) 28 4 ≠ 14))

/-- The flows of a direction that are held disabled (R248). -/
def State.flowsHeld (s : State) (d : Nat) : List Nat :=
  ((List.range 256).foldl (fun (acc : List Nat × List (Nat × Nat) × Nat) f =>
    let ws := s.flowWords d f
    if fwEn ws then
      if flowBad d ws acc.2.1 acc.2.2 then (acc.1 ++ [f], acc.2)
      else (acc.1, acc.2.1 ++ [(fwFirst ws, fwChans ws)], acc.2.2 + fwChans ws * (1 + b2n (bit (fw ws 1) 26)))
    else acc) ([], [], 0)).1

/-- A flow is enabled in the active copy and not held disabled (R248). -/
def State.flowEnabled (s : State) (d f : Nat) : Bool := fwEn (s.flowWords d f) && !s.flowErr.contains (256 * d + f)

/-- A receive flow that starts: level 0, counters cleared (R249). No frame has been taken, so its first concealed frame follows none (R254). -/
def rxStart (ws : List Word) : RxFlow :=
  { words := ws, run := true, level := 0, leaving := false, off := false, buf := [], last := [], concealed := true, waits := [], missRunA := 0, missRunB := 0,
    goodRun := 0, single := false, seenA := false, seenB := false, lost := 0, missA := 0, missB := 0, late := 0, discard := 0 }

/-- A transmit flow that starts (R249). -/
def txStart (ws : List Word) : TxFlow :=
  { words := ws, run := true, level := 0, leaving := false, off := false, hist := [], launched := none, sent := 0, lateLaunch := 0 }

/-- A receive flow is replaced. -/
def State.setRxFlow (s : State) (f : Nat) (v : RxFlow) : State := { s with rxFlows := mapIns (mapDel s.rxFlows f) f v }

/-- A transmit flow is replaced. -/
def State.setTxFlow (s : State) (f : Nat) (v : TxFlow) : State := { s with txFlows := mapIns (mapDel s.txFlows f) f v }

/-- The flow runs. -/
def State.flowRuns (s : State) (d f : Nat) : Bool :=
  if d = 0 then (match mapFind s.rxFlows f with | some v => v.run | none => false)
  else (match mapFind s.txFlows f with | some v => v.run | none => false)

/-- The flow starts with its active words. -/
def State.flowStart (s : State) (d f : Nat) : State :=
  if d = 0 then s.setRxFlow f (rxStart (s.flowWords 0 f)) else s.setTxFlow f (txStart (s.flowWords 1 f))

/-- A running flow begins to fade out, towards its stop where `off` (R249). -/
def State.flowLeave (s : State) (d f : Nat) (off : Bool) : State :=
  if d = 0 then (match mapFind s.rxFlows f with | some v => s.setRxFlow f { v with leaving := true, off := off } | none => s)
  else (match mapFind s.txFlows f with | some v => s.setTxFlow f { v with leaving := true, off := off } | none => s)

/-- The words in use of a running flow, and whether it fades out towards its stop. -/
def State.flowUse (s : State) (d f : Nat) : List Word × Bool :=
  if d = 0 then (match mapFind s.rxFlows f with | some v => (v.words, v.off) | none => ([], false))
  else (match mapFind s.txFlows f with | some v => (v.words, v.off) | none => ([], false))

/-- What a commit brings to a flow: one whose EN it sets starts at level 0, also from a fade towards its stop; one that it disables fades out; one whose words it changes plays out the old ones first (R249). -/
def State.flowFollow (s : State) (d f : Nat) : State :=
  let u := s.flowUse d f
  if !s.flowRuns d f then (if s.flowEnabled d f then s.flowStart d f else s)
  else if !s.flowEnabled d f then s.flowLeave d f true
  else if u.2 then s.flowStart d f
  else if s.flowWords d f ≠ u.1 then s.flowLeave d f false
  else s

/-- The check of R248 at a commit frame: CFGERR, NET.STATUS.CFG and EV5 for each flow held; then the flows follow the active copies, and the ASRC channels their flows (R235, R249). -/
def State.flowCheck (s : State) (d : Nat) : State :=
  let held := (s.flowsHeld d).map fun f => 256 * d + f
  let s1 : State := { s with flowErr := (s.flowErr.filter fun e => decide (e / 256 ≠ d)) ++ held }
  let s2 := held.foldl (fun (t : State) e => (t.setRbit regNET_STATUS 31).configError (flowAddr d (e % 256) 1)) s1
  ((List.range 256).foldl (fun (t : State) f => t.flowFollow d f) s2).asrcEndpoints onNet

/-- FLOW_FADE_END (R249): a flow whose level has reached 0 on the way out stops, or starts again with its changed words. Otherwise nothing happens. -/
def execFlowFadeEnd (d : Dir) (f : Fin 256) (s : State) : Host.Outcome State Fault Refusal :=
  .next (match d with
    | .rx => match mapFind s.rxFlows f.val with
      | some v =>
        if v.run && v.leaving && decide (v.level = 0) then
          (if s.flowEnabled 0 f.val then s.flowStart 0 f.val else s.setRxFlow f.val { v with run := false, buf := [] }).asrcEndpoints onNet
        else s
      | none => s
    | .tx => match mapFind s.txFlows f.val with
      | some v =>
        if v.run && v.leaving && decide (v.level = 0) then
          (if s.flowEnabled 1 f.val then s.flowStart 1 f.val else s.setTxFlow f.val { v with run := false, hist := [] }).asrcEndpoints onNet
        else s
      | none => s)

/-! ## Media time (R250, R251, R256) -/

/-- The anchor of a time base that R251 and R257 accept. -/
def State.flowAnchor (s : State) (t : Nat) : Option (Int × Int) := if s.tbAnchored t then s.anchor t else none

/-- The media sample number of the tick of frame `k`: ceil(τ(k) × rate / 10^9) (R256). -/
def State.mediaSample (s : State) (anc : Int × Int) (rate : Nat) (k : Nat) : Int :=
  ceilDiv ((anc.1 * s.fi + ((k : Int) - anc.2) * 1000000000) * rate) (s.fi * 1000000000)

/-- The integer congruent to `r` modulo 2^32 that lies nearest to `near` (R250). -/
def nearest32 (r : Nat) (near : Int) : Int :=
  let d := (((r : Int) - near) + 2 ^ 31) % 2 ^ 32 - 2 ^ 31
  near + d

/-! ## Receiving -/

/-- A packet of a flow: sequence number, timestamp, and the samples by time and channel; no samples where a field does not match the flow (R252). -/
structure Packet where
  seq : Nat
  ts : Nat
  samples : Option (List (List Word))
deriving DecidableEq, Repr

/-- `n` bytes of a list from `i` on. -/
def bytesAt (bs : List Byte) (i n : Nat) : List Byte := (bs.drop i).take n

/-- The big-endian number of `n` bytes from `i` on. -/
def numAt (bs : List Byte) (i n : Nat) : Nat := natBE (bytesAt bs i n)

/-- The samples of a payload: time first, then channel; a sample is left-aligned in its word (R243). -/
def paySamples (ws : List Word) (pay : List Byte) : List (List Word) :=
  let b := fwBytes ws
  (List.range (fwSamples ws)).map fun i => (List.range (fwChans ws)).map fun c =>
    BitVec.ofNat 32 (numAt pay ((i * fwChans ws + c) * b) b * 256 ^ (4 - b))

/-- The payload has the length of the flow's packets (R252). -/
def payFits (ws : List Word) (pay : List Byte) : Bool := decide (pay.length = fwSamples ws * fwChans ws * fwBytes ws)

/-- An RTP packet of an AES67 flow: CSRC entries and header extensions are skipped and padding is removed (R243; PRESUMED layout, log entry 24). -/
def rtpPacket (ws : List Word) (u : List Byte) : Packet :=
  let b0 := numAt u 0 1
  let hdr0 := 12 + 4 * (b0 % 16)
  let hdr := if b0 / 16 % 2 = 1 then hdr0 + 4 + 4 * numAt u (hdr0 + 2) 2 else hdr0
  let pad := if b0 / 32 % 2 = 1 then numAt u (u.length - 1) 1 else 0
  let pay := (u.drop hdr).take (u.length - hdr - pad)
  let ok := decide (b0 / 64 = 2) && decide (numAt u 1 1 % 128 = fld (fw ws 3) 0 7)
    && (!bit (fw ws 3) 7 || decide (numAt u 8 4 = (fw ws 4).toNat)) && payFits ws pay
  { seq := numAt u 2 2, ts := numAt u 4 4, samples := if ok then some (paySamples ws pay) else none }

/-- An AAF packet: tv = 1, and the format and nsr of the flow (R243; PRESUMED layout, log entry 24). -/
def aafPacket (ws : List Word) (u : List Byte) : Packet :=
  let pay := (u.drop 24).take (numAt u 20 2)
  let fmt := if fwFmt ws = 3 then 2 else 3
  let nsr := if bit (fw ws 1) 26 then 7 else 5
  let ok := decide (numAt u 1 1 % 2 = 1) && decide (numAt u 16 1 = fmt) && decide (numAt u 17 1 / 16 = nsr)
    && decide (numAt u 17 2 % 1024 = fwChans ws) && payFits ws pay
  { seq := numAt u 2 1, ts := numAt u 12 4, samples := if ok then some (paySamples ws pay) else none }

/-- The media times of a packet's samples in ns × rate (R250). -/
def State.packetTimes (s : State) (ws : List Word) (anc : Int × Int) (p : Packet) : List Int :=
  let rate := fwRate ws
  if fwAaf ws then
    let t := nearest32 p.ts (anc.1 + ((s.now : Int) - anc.2) * 1000000000 / s.fi)
    (List.range (fwSamples ws)).map fun (i : Nat) => t * rate + (i : Int) * 1000000000
  else
    let sn := nearest32 ((p.ts + 2 ^ 32 - (fw ws 5).toNat) % 2 ^ 32) (s.mediaSample anc rate s.now)
    (List.range (fwSamples ws)).map fun (i : Nat) => (sn + (i : Int)) * 1000000000

/-- The capture frame of a media time in ns × rate: F(t) + O (R251). -/
def State.captureFrame (s : State) (ws : List Word) (anc : Int × Int) (t : Int) : Int :=
  anc.2 + ceilDiv ((t - anc.1 * fwRate ws) * s.fi) (fwRate ws * 1000000000) + fld (fw ws 6) 0 13

/-- The frames for which a closed entry of the two-path bookkeeping is kept, so that a late or repeated copy is still known as one (R253; DESIGN CHOICE, log entry 94). -/
def copyMemory : Nat := 1048576

/-- The arrival of one copy on the two-path bookkeeping: the second copy of a packet within its window, a repeat or a second copy after it, or a first copy. With true where the copy is not the first (R253). -/
def State.copyArrives (s : State) (f : Nat) (v : RxFlow) (seq ts : Nat) (pathB : Bool) : (RxFlow × State) × Bool :=
  if fwPaths v.words ≠ 3 then ((v, s), false)
  else
    let is (w : CopyWait) : Bool := decide (w.seq = seq) && decide (w.ts = ts)
    let kept := v.waits.filter fun w => w.wanted || decide (s.now < w.frame + copyMemory)
    match kept.find? is with
    | none => (({ v with waits := kept ++ [{ seq := seq, ts := ts, pathB := pathB, wanted := true, frame := s.now }] }, s), false)
    | some w =>
      if w.wanted && w.pathB != pathB then
        let v1 := { v with waits := kept.map fun e => if is e then { e with wanted := false } else e, missRunA := 0, missRunB := 0, goodRun := v.goodRun + 1 }
        if v1.single && decide (64 ≤ v1.goodRun) then (({ v1 with single := false }, s.raiseEvent 61 (BitVec.ofNat 32 f)), true) else ((v1, s), true)
      else (({ v with waits := kept }, s), true)

/-- A packet's samples join those of the flow, by capture frame or media time (R251, R252). -/
def takeSamples (v : RxFlow) (keys : List Int) (seq : Nat) (samples : List (List Word)) : RxFlow :=
  { v with buf := v.buf ++ (keys.zip samples).map fun e => (e.1, seq, e.2) }

/-- The samples of a packet of a flow at another rate are handed to the channels in network-time ratio mode with their media time; an O of the flow is part of the instant that the conversion shows (R251, R233). -/
def State.handSamples (s : State) (ws : List Word) (times : List Int) (samples : List (List Word)) : State :=
  (times.zip samples).foldl (fun (t : State) e =>
    e.2.zipIdx.foldl (fun (t : State) c => (t.asrcTakers 4 (fwFirst ws + c.2)).foldl (fun (t : State) k => t.asrcPlace k e.1 c.1) t) t) s

/-- A packet of a running flow arrives on a path (R250 to R253). -/
def State.packetArrives (s : State) (f : Nat) (v : RxFlow) (p : Packet) (pathB : Bool) : State :=
  let v0 := if pathB then { v with seenB := true } else { v with seenA := true }
  match p.samples with
  | none => s.setRxFlow f { v0 with discard := Nat.min 65535 (v0.discard + 1) }
  | some smp =>
    let a := s.copyArrives f v0 p.seq p.ts pathB
    let r := a.1
    if a.2 then r.2.setRxFlow f r.1
    else match s.flowAnchor (fwTb v.words) with
      | none => r.2.setRxFlow f r.1
      | some anc =>
        let ts := s.packetTimes v.words anc p
        let fs := ts.map (s.captureFrame v.words anc)
        let first := fs.headD 0
        let atFi := decide (fwRate v.words = s.fi)
        let keys := if atFi then fs else ts
        let clash := keys.any fun k => r.1.buf.any fun e => decide (e.1 = k) && decide (e.2.1 ≠ p.seq)
        let again := keys.any fun k => r.1.buf.any fun e => decide (e.1 = k) && decide (e.2.1 = p.seq)
        if first ≤ s.now then r.2.setRxFlow f { r.1 with late := Nat.min 65535 (r.1.late + 1) }
        else if s.now + 8191 < first || clash then r.2.setRxFlow f { r.1 with discard := Nat.min 65535 (r.1.discard + 1) }
        else if again then r.2.setRxFlow f r.1
        else
          let t := r.2.setRxFlow f (takeSamples r.1 keys p.seq smp)
          if atFi then t else t.handSamples v.words ts smp

/-- MERGE_WINDOW_EXPIRY (R253): the oldest first copy whose second is awaited has none in its window: the missing path's count, and the single-path state after 64 in a row with EV61. Without an awaited copy nothing happens. -/
def execMergeWindowExpiry (f : Fin 256) (s : State) : Host.Outcome State Fault Refusal :=
  .next (match mapFind s.rxFlows f.val with
    | none => s
    | some v => match v.waits.find? fun w => w.wanted with
      | none => s
      | some w =>
        let ws := v.waits.map fun e => if e = w then { e with wanted := false } else e
        let v1 := if w.pathB then { v with waits := ws, missA := Nat.min 65535 (v.missA + 1), missRunA := v.missRunA + 1, missRunB := 0, goodRun := 0 }
          else { v with waits := ws, missB := Nat.min 65535 (v.missB + 1), missRunB := v.missRunB + 1, missRunA := 0, goodRun := 0 }
        if !v1.single && decide (64 ≤ Nat.max v1.missRunA v1.missRunB) then
          (s.setRxFlow f.val { v1 with single := true }).raiseEvent 61 (BitVec.ofNat 32 f.val)
        else s.setRxFlow f.val v1)

/-- The level of a flow steps towards 64, or towards 0 while it fades out or its frames are concealed (R249, R254). -/
def RxFlow.stepped (v : RxFlow) (concealed : Bool) : Nat := stepTo v.level (if v.leaving || concealed then 0 else 64)

/-- The media time of the tick of frame `k` in ns × rate (R251). -/
def State.tickTime (s : State) (ws : List Word) (anc : Int × Int) (k : Nat) : Int :=
  (anc.1 * s.fi + ((k : Int) - anc.2) * 1000000000) * fwRate ws / s.fi

/-- One receive flow at the capture of frame `k`: its samples are taken or the frame is concealed, and its level steps; without an anchor in force every frame is concealed (R249, R251, R254). A flow at another rate gives up the samples whose time has come to its ASRC channels. -/
def State.rxFlowTick (s : State) (k f : Nat) (v : RxFlow) : State :=
  if !v.run then s
  else
    let anc := s.flowAnchor (fwTb v.words)
    let atFi := decide (fwRate v.words = s.fi)
    let due (e : Int × Nat × List Word) : Bool := if atFi then decide (e.1 ≤ (k : Int)) else anc.elim false fun a => decide (e.1 ≤ s.tickTime v.words a k)
    let v0 := { v with buf := v.buf.filter fun e => !due e }
    let taken := if anc.isNone then none else if atFi then v.buf.find? (fun e => decide (e.1 = (k : Int))) else (v.buf.filter due).getLast?
    match taken with
    | some e => s.setRxFlow f { v0 with last := e.2.2, concealed := false, level := v.stepped false }
    | none =>
      if anc.isSome && !atFi && !v.buf.isEmpty then s.setRxFlow f { v0 with level := v.stepped false }
      else
        let s1 := s.setRxFlow f { v0 with concealed := true, lost := Nat.min 4294967295 (v.lost + 1), level := v.stepped true }
        if v.concealed then s1 else s1.raiseEvent 60 (BitVec.ofNat 32 f)

/-- The receive flows at the capture of frame `k` (R254). -/
def State.rxFlowsTick (s : State) (k : Nat) : State := s.rxFlows.foldl (fun t e => t.rxFlowTick k e.1 e.2) s

/-- The value of network receive channel `c` in the last captured frame; zero on a channel that no flow at Fi carries (R246, R249, R254). -/
def State.netInput (s : State) (c : Nat) : Word :=
  match s.rxFlows.find? fun e => e.2.run && decide (fwFirst e.2.words ≤ c) && decide (c < fwFirst e.2.words + fwChans e.2.words) && decide (fwRate e.2.words = s.fi) with
  | some e => levelled (nthD e.2.last (c - fwFirst e.2.words) 0) 64 e.2.level 64
  | none => 0

/-! ## Transmitting -/

/-- The selector word of network transmit channel `c` (R247). -/
def netSelAddr (c : Nat) : Nat := 0x01A20000 + 4 * c

/-- The sample presented in frame `k` on transmit channel `c` of a flow at level `v`: of a flow at Fi its selector or ASRC channel, of any other flow its ASRC channel or zero (R246, R249). -/
def State.netSample (s : State) (c k v : Nat) (atFi : Bool) : Word × State :=
  let r := match s.asrcDriver 5 c with
    | some d => s.asrcSample d k
    | none => (if atFi then s.selValue (netSelAddr c) k else 0, s)
  (s.outLevelled r.1 64 v, r.2)

/-- One transmit flow takes the samples presented in frame `k`, and its level steps (R249, R256). -/
def State.txFlowTick (s : State) (k f : Nat) (v : TxFlow) : State :=
  if !v.run then s
  else
    let lv := stepTo v.level (if v.leaving then 0 else 64)
    let atFi := decide (fwRate v.words = s.fi)
    let r := (List.range (fwChans v.words)).foldl (fun (acc : List Word × State) i =>
      let x := acc.2.netSample (fwFirst v.words + i) k lv atFi
      (acc.1 ++ [x.1], x.2)) ([], s)
    r.2.setTxFlow f { v with level := lv, hist := ((k, r.1) :: v.hist).take 384 }

/-- The transmit flows take the samples presented in frame `k`. -/
def State.txFlowsTick (s : State) (k : Nat) : State := s.txFlows.foldl (fun t e => t.txFlowTick k e.1 e.2) s

/-- The bytes of a sample rounded to a flow's word length (R214, R256). -/
def sampleBytes (ws : List Word) (x : Word) : List Byte :=
  let b := fwBytes ws
  (bytesBE (slotOut x (8 * b))).take b

/-- MAC address of a path as six bytes (R241, R271). -/
def State.macOf (s : State) (x : Nat) : List Byte := (bytesBE (s.reg (regNET_PMACHI x))).drop 2 ++ bytesBE (s.reg (regNET_PMACLO x))

/-- The internet checksum of a header (PRESUMED: IPv4, log entry 24). -/
def ipChecksum (bs : List Byte) : Nat :=
  let sum := ((List.range (bs.length / 2)).map fun i => numAt bs (2 * i) 2).sum
  let a := sum % 65536 + sum / 65536
  65535 - (a % 65536 + a / 65536)

/-- The 802.1Q tag of a transmit flow, if it sends one (R247). -/
def flowTag (ws : List Word) : List Byte :=
  if bit (fw ws 6) 12 then [0x81#8, 0x00#8] ++ beBytes 2 (fld (fw ws 6) 13 3 * 8192 + fld (fw ws 6) 0 12) else []

/-- An AES67 packet without FCS (R243, R256). -/
def State.aes67Frame (s : State) (x : Nat) (ws : List Word) (sn : Int) (pay : List Byte) : List Byte :=
  let seq := ((fld (fw ws 6) 16 16 : Int) + sn / fwSamples ws) % 65536
  let rtp := [0x80#8, BitVec.ofNat 8 (fld (fw ws 3) 0 7)] ++ beBytes 2 seq.toNat ++ beBytes 4 ((sn + (fw ws 5).toNat) % 2 ^ 32).toNat
    ++ bytesBE (fw ws 4) ++ pay
  let port := beBytes 2 (fld (fw ws 3) 16 16)
  let udp := port ++ port ++ beBytes 2 (8 + rtp.length) ++ [0, 0] ++ rtp
  let ip0 := [0x45#8, BitVec.ofNat 8 (fld (fw ws 7) 26 6 * 4)] ++ beBytes 2 (20 + udp.length) ++ [0, 0, 0x40#8, 0]
    ++ [BitVec.ofNat 8 (s.rfld regNET_CTRL 8 8), 17#8]
  let addrs := bytesBE (s.reg (regNET_PIP x)) ++ bytesBE (fw ws 2)
  let ip := ip0 ++ beBytes 2 (ipChecksum (ip0 ++ [0, 0] ++ addrs)) ++ addrs
  let dst := [0x01#8, 0x00#8, 0x5E#8] ++ beBytes 3 ((fw ws 2).toNat % 2 ^ 23)
  dst ++ s.macOf x ++ flowTag ws ++ [0x08#8, 0x00#8] ++ ip ++ udp

/-- An AAF packet without FCS (R243, R256). -/
def State.aafFrame (s : State) (x : Nat) (ws : List Word) (sn : Int) (pay : List Byte) : List Byte :=
  let seq := ((fld (fw ws 6) 16 16 : Int) + sn / fwSamples ws) % 256
  let ts := (sn * 1000000000 / fwRate ws + 1000 * (fld (fw ws 5) 0 16 : Int)) % 2 ^ 32
  let fmt : Byte := if fwFmt ws = 3 then 2 else 3
  let nsr : Nat := if bit (fw ws 1) 26 then 7 else 5
  let hdr := [0x02#8, 0x81#8, BitVec.ofNat 8 seq.toNat, 0#8] ++ bytesBE (fw ws 2) ++ bytesBE (fw ws 3) ++ beBytes 4 ts.toNat
    ++ [fmt] ++ beBytes 2 (nsr * 4096 + fwChans ws) ++ [BitVec.ofNat 8 (8 * fwBytes ws)] ++ beBytes 2 pay.length ++ [0, 0]
  let dst := bytesBE (fw ws 4) ++ (bytesBE (fw ws 5)).take 2
  dst ++ s.macOf x ++ flowTag ws ++ [0x22#8, 0xF0#8] ++ hdr ++ pay

/-- A frame leaves on a path with its link up: short ones are padded; a path that is down discards it (R242, R260). -/
def State.sendFrame (s : State) (x : Nat) (bs : List Byte) : State :=
  if s.rbit (regNET_PSTAT x) 31 then
    { s with wire := mapIns (mapDel s.wire x) x (bs ++ List.replicate (60 - bs.length) 0) }
  else s

/-- `n` free words (log entry 2). -/
def State.drawMany (s : State) : Nat → List Word × State
  | 0 => ([], s)
  | n + 1 => let r := s.draw; let t := r.2.drawMany n; (r.1 :: t.1, t.2)

/-- The next samples of an ASRC output channel for a flow at another rate, in turn; zero without a channel (R246, R256). -/
def State.flowSamples (s : State) (v : TxFlow) : Nat → List Word × State
  | 0 => ([], s)
  | i + 1 =>
    let n := fwChans v.words
    let t := s.flowSamples v i
    let r := match s.asrcDriver 5 (fwFirst v.words + i % n) with
      | some d => t.2.asrcSample d s.now
      | none => (0, t.2)
    (t.1 ++ [s.outLevelled r.1 64 v.level], r.2)

/-- The samples of the packet whose last sample was presented in frame `m`: by time and channel; of a flow at another rate those that its ASRC channels deliver, through the level (R246, R249, R256). -/
def State.packetSamples (s : State) (v : TxFlow) (m : Nat) : List Word × State :=
  let np := fwSamples v.words
  let n := fwChans v.words
  if fwRate v.words = s.fi then
    (((List.range np).flatMap fun i =>
      match v.hist.find? fun e => decide (e.1 + np = m + 1 + i) with
      | some e => (List.range n).map fun c => nthD e.2 c 0
      | none => List.replicate n 0), s)
  else s.flowSamples v (np * n)

/-- The first media sample of the packet that ends in frame `m`, if one ends there: its last sample lies after the media sample number of frame m - 1 and not after that of frame m (R256, R257). -/
def State.packetStart (s : State) (v : TxFlow) (m : Nat) : Option Int :=
  match s.flowAnchor (fwTb v.words) with
  | none => none
  | some anc =>
    let np : Int := fwSamples v.words
    let hi := s.mediaSample anc (fwRate v.words) m
    let last := (hi + 1) / np * np - 1
    if 0 < m ∧ s.mediaSample anc (fwRate v.words) (m - 1) < last then some (last - np + 1) else none

/-- A packet starts on a path: the flow names it and its link is up (R242, R257). -/
def State.pathSends (s : State) (ws : List Word) (x : Nat) : Bool := decide (fwPaths ws / 2 ^ x % 2 = 1) && s.rbit (regNET_PSTAT x) 31

/-- STREAM_PACKET_LAUNCH (R242, R255 to R258): the packet of a running flow whose last sample was presented in the frame before the tick is built and sent on its paths that are up, once; it is discarded when the module did not own that frame (R258, R352), and leaves no record when every path is down. `late` says that it started more than 8 ns after its launch time. Without an anchor in force, a packet that ends there, or a clock of the network block, nothing is sent. -/
def execStreamPacketLaunch (f : Fin 256) (late : Bool) (s : State) : Host.Outcome State Fault Refusal :=
  .next (match mapFind s.txFlows f.val with
    | none => s
    | some v =>
      if !v.run || s.now = 0 || s.gatedOff 14 then s
      else match s.packetStart v (s.now - 1) with
        | none => s
        | some sn =>
          if v.launched = some sn then s
          else
            let r := s.packetSamples v (s.now - 1)
            let v1 := { v with launched := some sn }
            if !s.ownPrev then r.2.setTxFlow f.val v1
            else
              let pay := r.1.flatMap (sampleBytes v.words)
              let build (x : Nat) := if fwAaf v.words then r.2.aafFrame x v.words sn pay else r.2.aes67Frame x v.words sn pay
              let s1 := if s.pathSends v.words 0 then r.2.sendFrame 0 (build 0) else r.2
              let s2 := if s.pathSends v.words 1 then s1.sendFrame 1 (build 1) else s1
              let n := b2n (s.pathSends v.words 0 || s.pathSends v.words 1)
              s2.setTxFlow f.val { v1 with
                sent := Nat.min 4294967295 (v.sent + n), lateLaunch := Nat.min 4294967295 (v.lateLaunch + b2n late * n) })

/-- The status entry of a flow (R255). -/
def State.flowStatus (s : State) (d f w : Nat) : Word :=
  let err := b2n (s.flowErr.contains (256 * d + f)) * 2 ^ 27
  if d = 0 then
    match mapFind s.rxFlows f with
    | none => if w = 0 then BitVec.ofNat 32 err else 0
    | some v =>
      BitVec.ofNat 32 (match w with
        | 0 => b2n v.run * 2 ^ 31 + b2n v.single * 2 ^ 30 + b2n v.seenA * 2 ^ 29 + b2n v.seenB * 2 ^ 28 + err + v.level
        | 1 => v.lost
        | 2 => v.missA * 65536 + v.missB
        | _ => v.late * 65536 + v.discard)
  else
    match mapFind s.txFlows f with
    | none => if w = 0 then BitVec.ofNat 32 err else 0
    | some v =>
      BitVec.ofNat 32 (match w with
        | 0 => b2n v.run * 2 ^ 31 + err + v.level
        | 1 => v.sent
        | 2 => v.lateLaunch
        | _ => 0)

end Sys2Proof.Machine
end

