-- ==== Sys2Proof/Machine/Commit.lean ====
section
/-! DEFINITION. The commit frame: the new active copies take force and every block starts its ramps, crossfades and resets (R170, R179, R184), and the start of changes that had to wait (R402). -/

namespace Sys2Proof.Machine

/-- A changed word: address, old and new value. -/
structure Change where
  a : Nat
  old : Word
  new : Word
deriving DecidableEq, Repr

/-- A list without repeats, first occurrences kept. -/
def dedup (l : List Nat) : List Nat := l.foldl (fun acc x => if acc.contains x then acc else acc ++ [x]) []

/-- The entry that a table word of the matrix belongs to. -/
def entryOfAddr (a : Nat) : Option Nat :=
  if 0x01000000 ≤ a ∧ a < 0x01100000 then some ((a - 0x01000000) / 16)
  else if 0x01100000 ≤ a ∧ a < 0x01108000 then some (65536 + (a - 0x01100000) / 8)
  else none

/-- The section that a table word belongs to. -/
def sectionOfAddr (a : Nat) : Option Nat := if 0x01200000 ≤ a ∧ a < 0x01280000 then some ((a - 0x01200000) / 32) else none

/-- The meter point that a settings word belongs to. -/
def meterOfAddr (a : Nat) : Option Nat := if 0x01300000 ≤ a ∧ a < 0x01310000 then some ((a - 0x01300000) / 16) else none

/-- The ASRC channel that a table word belongs to. -/
def asrcOfAddr (a : Nat) : Option Nat := if 0x01900000 ≤ a ∧ a < 0x01902000 then some ((a - 0x01900000) / 16) else none

/-- The selector halfwords of a word that consumers other than meter points use (R142, R194). -/
def State.selHalves (s : State) (a : Nat) : List Nat :=
  if 0xB0800 ≤ a ∧ a < 0xB0C00 then [a, a + 2]
  else if 0x01910000 ≤ a ∧ a < 0x01910800 then [a]
  else if 0x01A20000 ≤ a ∧ a < 0x01A21000 then [a]
  else match asrcOfAddr a with
    | some c => if a % 16 = 8 ∧ s.asrcDirOut c then [a] else []
    | none => []

/-- Sections and entries whose words change keep the members that their old words gave. -/
def State.keepOld (s : State) (ws : List Change) : State :=
  let s1 := (dedup (ws.filterMap fun w => sectionOfAddr w.a)).foldl (fun (t : State) x => t.setSec x (s.sec x)) s
  (dedup (ws.filterMap fun w => entryOfAddr w.a)).foldl (fun (t : State) x => t.setXent x (s.xent x)) s1

/-- A Course still in the work of an earlier frame keeps the coefficient words it began with (R50, R170). -/
def State.keepPages (s : State) (ws : List Change) (c : Nat) : State :=
  courseIds.foldl (fun (t : State) n =>
    let mine := ws.filter fun w => decide (0x01400000 + n.val * 0x8000 ≤ w.a) && decide (w.a < 0x01408000 + n.val * 0x8000)
    if (t.course n).frame < c then t.modCourse n fun k => { k with pageOld := k.pageOld ++ mine.map fun w => (c, w.a, w.old) } else t) s

/-- The selector changes of a changed word start (R143). -/
def State.selChanges (s : State) (w : Change) (c : Nat) : State :=
  let g := match s.shadowed w.a with | some x => x.group | none => 0
  (s.selHalves w.a).foldl (fun (t : State) h =>
    let o := fld w.old (h % 4 * 8) 16
    if o = fld w.new (h % 4 * 8) 16 then t else t.selChange h c g o) s

/-- Word 0 of a meter point changes in a way that resets it (R159). -/
def meterResets (old new : Word) : Bool :=
  bit old 31 != bit new 31 || decide (fld old 0 16 ≠ fld new 0 16) || decide (fld old 24 4 ≠ fld new 24 4)

/-- A changed meter settings word: the reset of R159, and the report of a HOLD_MS above 10,000 (R158). -/
def State.meterChange (s : State) (w : Change) : State :=
  match meterOfAddr w.a with
  | none => s
  | some p =>
    if w.a % 16 = 0 then (if meterResets w.old w.new then s.meterReset p else s)
    else if w.a % 16 = 12 ∧ 10000 < fld w.new 0 14 then (s.setRbit regMTR_STATUS 30).raiseEvent 45 (BitVec.ofNat 32 p)
    else s

/-- A committed crossfade length that is reserved raises EV5 (R191). -/
def State.xfadeChange (s : State) (w : Change) : State :=
  if 0x50100 ≤ w.a ∧ w.a < 0x50180 ∧ (fld w.new 0 13 = 0 ∨ 4096 < fld w.new 0 13) then s.configError w.a else s

/-- The waiting selectors, with their commit frames. -/
def State.selsWaiting (s : State) : List (Nat × Nat) := s.sels.filterMap fun e => e.2.waiting.map fun c => (c, e.1)

/-- The waiting entries, with their commit frames. -/
def State.entriesWaiting (s : State) : List (Nat × Nat) := s.xents.filterMap fun e => e.2.waiting.map fun c => (c, e.1)

/-- The waiting sections, with their commit frames. -/
def State.secsWaiting (s : State) : List (Nat × Nat) := s.secs.filterMap fun e => e.2.waiting.map fun c => (c, e.1)

/-- The group of the word that holds a selector. -/
def State.selGroup (s : State) (h : Nat) : Nat := match s.shadowed (h / 4 * 4) with | some x => x.group | none => 0

/-- The changes that wait from earlier commit frames take their turns in frame `c` before those of the commit, but for those that the commit replaces (R402). -/
def State.waitingTurns (s : State) (ws : List Change) (c : Nat) : State :=
  let due (l : List (Nat × Nat)) (gone : List Nat) := turnOrder (l.filter fun e => decide (e.1 < c) && !gone.contains e.2)
  let halves := ws.flatMap fun w => (s.selHalves w.a).filter fun h => decide (fld w.old (h % 4 * 8) 16 ≠ fld w.new (h % 4 * 8) 16)
  let s1 := (due s.selsWaiting halves).foldl (fun (t : State) a => if t.selRoom a c then t.selBegin a c (t.selGroup a) else t) s
  let s2 := (due s1.entriesWaiting (ws.filterMap fun w => entryOfAddr w.a)).foldl (fun (t : State) k => if t.entryRoom k c then t.routeBegin k c else t) s1
  (due s2.secsWaiting (ws.filterMap fun w => sectionOfAddr w.a)).foldl (fun (t : State) x => if t.secRoom x c then t.secBegin x c else t) s2

/-- The blocks take the changed words at commit frame `c`, block by block and by rising number, after the changes that wait from earlier commit frames (R143, R146, R155, R159, R230, R248, R402). -/
def State.startChanges (s : State) (ws : List Change) (c : Nat) : State :=
  let old1 (k : Nat) : Word := match ws.find? fun w => decide (w.a = entryAddr k 1) with | some w => w.old | none => s.tabGet (entryAddr k 1)
  let s1 := ws.foldl (fun (t : State) w => t.selChanges w c) (s.waitingTurns ws c)
  let s2 := (dedup (ws.filterMap fun w => entryOfAddr w.a)).foldl (fun (t : State) k => t.entryChange k c (old1 k)) s1
  let s3 := (dedup (ws.filterMap fun w => sectionOfAddr w.a)).foldl (fun (t : State) x => t.secChange x c) s2
  let s4 := ws.foldl (fun (t : State) w => ((t.meterChange w).xfadeChange w).checkDelayWord w.a) s3
  let s5 := (dedup (ws.filterMap fun w => asrcOfAddr w.a)).foldl State.asrcChanged s4
  (s5.flowCheck 0).flowCheck 1

/-- The commit `k`, whose copies are `fixed`, takes effect (R170, R179, R190). -/
def State.applyCommit (s : State) (k : Commit) (fixed : List (Nat × Word)) : State :=
  let ws := fixed.map fun e => ({ a := e.1, old := s.tabGet e.1, new := e.2 } : Change)
  let s1 := (s.keepOld ws).keepPages ws k.frame
  let s2 := ws.foldl (fun (t : State) w => t.tabSet w.a w.new) s1
  let s3 := (s2.setRfld regPEG_TICKET 8 8 k.ticket).logState k 1
  (({ s3 with commits := s3.commits.erase k } : State).raiseEvent 35 (BitVec.ofNat 32 k.ticket)).startChanges ws k.frame

/-- COMMIT_APPLIED (R179): at the tick of the commit frame of the oldest commit whose copies are fixed, they become the active copies in force and ramps and crossfades start; APPLIED takes the ticket and EV35 occurs. With no such commit nothing happens. -/
def execCommitApplied (s : State) : Host.Outcome State Fault Refusal :=
  .next (match s.commits.find? fun k => k.fixed.isSome && s.ticking && decide (k.frame ≤ s.now) with
    | none => s
    | some k => s.applyCommit k (k.fixed.getD []))

/-! ## Waiting changes (R402) -/

/-- Of the waiting changes (commit frame, number) with room, the one whose turn is first. -/
def firstTurn (l : List (Nat × Nat)) (room : Nat → Bool) : Option Nat := (turnOrder l).find? room

/-- The first frame whose matrix work has not run. -/
def State.matNext (s : State) : Nat := match s.matFrame with | some m => Nat.max s.now (m + 1) | none => s.now

/-- The frame in which a section change can start: that of the array, or of the Course's next work for a bound section. -/
def State.secStartFrame (s : State) (x : Nat) : Nat :=
  match s.bindOf x with
  | some n => if (s.course n).phase = .fore then (s.course n).frame + 1 else (s.course n).frame
  | none => s.now

/-- WAITING_CHANGE_START (R402): a waiting change whose turn it is, and which both limits now allow, starts; the frame in which it starts, later than its commit frame, acts as its commit frame. Otherwise nothing happens. -/
def execWaitingChangeStart (k : WaitKey) (s : State) : Host.Outcome State Fault Refusal :=
  .next (match k with
    | .tap n j =>
      let start (key : Nat) := (s.course (fin 7 (key / 2048))).nextPrefetch
      match (s.tap n.val j.val).waiting with
      | some w =>
        if firstTurn s.tapsWaiting (fun key => s.tapRoom (key / 2048) (key % 2048) (start key)) = some (tapKey n.val j.val) ∧ w.1 < (s.course n).nextPrefetch then
          s.tapBegin n.val j.val (s.course n).nextPrefetch w.2 (s.lineFade n.val (s.tapLine n.val j.val))
        else s
      | none => s
    | .sel a => if firstTurn s.selsWaiting (fun h => s.selRoom h s.now) = some a.toNat then s.selBegin a.toNat s.now (s.selGroup a.toNat) else s
    | .xpoint x => if firstTurn s.entriesWaiting (fun e => s.entryRoom e s.matNext) = some x.val then s.routeBegin x.val s.matNext else s
    | .patch q =>
      if firstTurn s.entriesWaiting (fun e => s.entryRoom e s.matNext) = some (65536 + q.val) then s.routeBegin (65536 + q.val) s.matNext else s
    | .sec x =>
      if firstTurn s.secsWaiting (fun e => s.secRoom e (s.secStartFrame e)) = some x.val then s.secBegin x.val (s.secStartFrame x.val) else s)

end Sys2Proof.Machine
end

