-- ==== Sys2Proof/Machine/Reserved.lean ====
section
/-! DEFINITION. Writes of registers by their field types (R12), the values that registers and table words call reserved (R13), and the values that they clamp. -/

namespace Sys2Proof.Machine

/-- Address `a` is element of an array of `n` words at stride `st` from `base`. -/
def inArr (a base st n : Nat) : Bool := decide (base ≤ a) && decide ((a - base) % st = 0) && decide ((a - base) / st < n)

/-- The RW bits of a register (R12). -/
def rwBits (a : Nat) : Word := BitVec.ofNat 32 ((regInfo a).map (·.rw) |>.getD 0)
/-- The RO bits of a register (R12). -/
def roBits (a : Nat) : Word := BitVec.ofNat 32 ((regInfo a).map (·.ro) |>.getD 0)
/-- The W1C bits of a register (R12). -/
def w1cBits (a : Nat) : Word := BitVec.ofNat 32 ((regInfo a).map (·.w1c) |>.getD 0)
/-- The RC bits of a register (R12). -/
def rcBits (a : Nat) : Word := BitVec.ofNat 32 ((regInfo a).map (·.rc) |>.getD 0)
/-- The bits of a register that Thatch loads (R328). -/
def thatchBits (a : Nat) : Word := BitVec.ofNat 32 ((regInfo a).map (·.thatch) |>.getD 0)
/-- The shadowed bits of a register (R167). -/
def shadowBits (a : Nat) : Word := BitVec.ofNat 32 ((regInfo a).map (·.shadow) |>.getD 0)

/-- A signed word clamped to ± a limit. -/
def clampSigned (lim : Nat) (v : Word) : Word :=
  if (lim : Int) < v.toInt then ofInt lim else if v.toInt < -(lim : Int) then ofInt (-(lim : Int)) else v

/-- The BW range of a reference slot type, in mHz (R283). -/
def slotBw (ty : Nat) : Option (Nat × Nat) :=
  match ty with
  | 0 => some (10, 1000)
  | 1 | 4 => some (1000, 20000)
  | 2 => some (100, 10000)
  | 3 => some (1, 100)
  | _ => none

/-- A slot configuration with BW clamped to the range of its type (R283). -/
def slotClamp (v : Word) : Word :=
  match slotBw (fld v 28 3) with
  | some (lo, hi) => setFld v 0 16 (clampNat lo hi (fld v 0 16))
  | none => v

/-- The value that a register keeps of a written value: RATE, ALIGN, FREE and OUTOFF within ±500,000,000, BW within its range (R274, R278, R283, R292, R294). -/
def clampReg (a : Nat) (v : Word) : Word :=
  if inArr a 0xD000C 256 4 || inArr a 0xD0024 256 4 || a == regREF_FREE || inArr a 0xE0204 16 4 then clampSigned 500000000 v
  else if inArr a 0xE0040 32 8 then slotClamp v
  else v

/-- A slot configuration that R283 calls an error: a reserved type, a BW outside its range, a port in master mode. -/
def State.slotError (s : State) (v : Word) : Bool :=
  decide (5 ≤ fld v 28 3) || decide (slotClamp v ≠ v) || (decide (fld v 28 3 = 4) && cfgMaster (s.reg (regTDM_CFG (fld v 24 4))))

/-- Reserved values in the registers of the TIME and REF blocks (R283, R294, R296, R297). -/
def State.reservedTimeRef (s : State) (a : Nat) (v : Word) : Bool :=
  if inArr a 0xD0000 256 4 then decide (fld v 29 2 = 3)
  else if inArr a 0xD0004 256 4 then decide (6 ≤ fld v 0 3)
  else if inArr a 0xD0024 256 4 || inArr a 0xE0204 16 4 then decide (clampSigned 500000000 v ≠ v)
  else if inArr a 0xD0410 16 4 then decide (fld v 0 16 = 0)
  else if a = regREF_HOCFG then
    decide (fld v 16 11 = 0) || decide (1024 < fld v 16 11) || decide (fld v 0 9 = 0) || decide (256 < fld v 0 9)
  else if a = regREF_LOCKCFG then decide (fld v 16 8 = 0) || decide (fld v 0 16 = 0)
  else if inArr a 0xE0040 32 8 then s.slotError v
  else if inArr a 0xE0044 32 8 then decide (3600 < fld v 16 12) || decide (fld v 0 8 = 0)
  else if inArr a 0xE0200 16 4 then decide (5 ≤ fld v 28 3) || decide (fld v 0 12 = 0)
  else false

/-- A value that a register calls reserved, or out of a range with a stated treatment and EV5 (R13). -/
def State.reservedReg (s : State) (a : Nat) (v : Word) : Bool :=
  if inArr a 0x100000 4 64 then decide (11 ≤ fld v 0 4) && decide (fld v 0 4 ≤ 14)
  else if a = regEVT_DIVIDER then decide (fld v 0 16 = 0)
  else if inArr a 0x40100 4 128 then decide (fld v 29 2 = 3)
  else if inArr a 0x50100 4 32 then decide (fld v 0 13 = 0) || decide (4096 < fld v 0 13)
  else if inArr a 0xA0000 64 16 then decide (fld v 28 2 = 3) || decide (fld v 21 2 = 3)
  else if inArr a 0xA0004 64 16 then decide (s.maxOffset < fld v 0 11)
  else if inArr a 0xB0800 256 4 then decide (fld v 28 2 = 1) && s.rbit regGLOBAL_RATE 0
  else if inArr a 0xC0000 32 2 then decide (fld v 0 2 = 3)
  else if inArr a 0xC1004 16 64 then decide (fld v 0 4 < 4) || decide (12 < fld v 0 4)
  else if a = regCLK_DIV then decide (fld v 8 4 = 0) || decide (fld v 0 3 = 0) || decide (5 ≤ fld v 0 3)
  else if a = regCLK_SSC then decide (20 < fld v 0 5) || decide (fld v 16 6 < 20) || decide (60 < fld v 16 6)
  else if a = regPAIR_CFG then decide (fld v 16 8 < 4)
  else if a = regFAULT_INJCTRL then decide (21 < fld v 16 5)
  else s.reservedTimeRef a v

/-- A value that a boot-only table word calls reserved (R139, R141, R229, R263). -/
def reservedTable (a : Nat) (v : Word) : Bool :=
  if 0x01110000 ≤ a ∧ a < 0x01110200 then decide (6 ≤ fld v 28 4)
  else if 0x01120000 ≤ a ∧ a < 0x01121000 then decide (4 < fld v 0 3)
  else if 0x01900000 ≤ a ∧ a < 0x01902000 ∧ a % 16 = 0 then decide (6 ≤ fld v 28 3)
  else reservedShadow a v

/-- A reserved value written to a register: EV5 (R13). -/
def State.checkReserved (s : State) (a : Nat) (v : Word) : State := if s.reservedReg a v then s.configError a else s

/-- The RW fields of a register take the written value, clamped where the register clamps, and its W1C bits clear where a 1 is written; a reserved value raises EV5 (R12, R13). -/
def State.regStore (s : State) (a : Nat) (v : Word) : State :=
  let old := s.reg a
  (s.setReg a (merge old (rwBits a) (clampReg a v) &&& ~~~(v &&& w1cBits a))).checkReserved a v

end Sys2Proof.Machine
end

