-- ==== Sys2Proof/Machine/Timebase.lean ====
section
/-! DEFINITION. The counters of the time bases and what follows from their time: their advance (R272), the alarms (R281), the value of ALIGN in force (R296), and the times that other blocks read (R261, R262, R277, R282). -/

namespace Sys2Proof.Machine

/-! ## States (R273) -/

/-- UNLOCKED (R273). -/
def tUNLOCKED : Nat := 0
/-- LOCKED (R273). -/
def tLOCKED : Nat := 1
/-- FREERUN (R273). -/
def tFREERUN : Nat := 2

/-- The state of a time base. -/
def State.tbState (s : State) (t : Nat) : Nat := s.rfld (regTIME_STAT t) 0 2

/-! ## Counters (R272) -/

/-- The counter wraps after 48 bits of seconds. -/
def tbModulus : Nat := 2 ^ 48 * 1000000000 * 2 ^ 32

/-- The counter of a time base is changed. -/
def State.setTb (s : State) (t : Fin 4) (v : Nat) : State := { s with tbCount := s.tbCount.set t.val (v % tbModulus) t.isLt }

/-- The advance of a counter in units of 2^-32 ns over a number of XO cycles at a rate in ppt; the fraction of a unit is dropped (R272; log entry 31). -/
def tbAdvance (xo : Nat) (rate : Int) : Nat :=
  (((xo : Int) * 1000000000 * 2 ^ 32 * (1000000000000 + rate)) / (49152000 * 1000000000000)).toNat

/-- Time of a time base in ns, as of the last command that gave its elapsed time. -/
def State.tbNs (s : State) (t : Fin 4) : Nat := s.tbCount.get t / 2 ^ 32

/-! ## Alarms (R281) -/

/-- The time of an alarm in ns. -/
def State.alarmNs (s : State) (t j : Nat) : Nat :=
  s.rfld (regTIME_ALM_NS t j) 0 30 + ((s.reg (regTIME_ALM_SEC_LO t j)).toNat + s.rfld (regTIME_ALM_SEC_HI t j) 0 16 * 2 ^ 32) * 1000000000

/-- A trigger waits for the next tick: its bit of SNAP.STATUS.CAUSE (R372). -/
def State.snapTrigger (s : State) (cause : Nat) : State := { s with snap := { s.snap with pend := s.snap.pend ||| cause } }

/-- An armed alarm fires: FIRED, EN clear, EV68 + t, and the snapshot trigger that names it (R281, R372). -/
def State.alarmFires (s : State) (t j : Nat) : State :=
  if s.rbit (regTIME_ALM_CTRL t j) 31 then
    let s1 := ((s.putRbit (regTIME_ALM_CTRL t j) 31 false).setRbit (regTIME_ALM_CTRL t j) 30).raiseEvent (68 + t) (BitVec.ofNat 32 j)
    if s1.rbit regSNAP_CTRL 1 ∧ s1.rfld regSNAP_CTRL 2 2 = t ∧ s1.rfld regSNAP_CTRL 4 1 = j then s1.snapTrigger 4 else s1
  else s

/-- An armed alarm whose time has passed fires (R281). -/
def State.alarmDue (s : State) (t : Fin 4) (j : Nat) : State :=
  if s.alarmNs t.val j ≤ s.tbNs t then s.alarmFires t.val j else s

/-- Both alarms of a time base after its time has moved on (R281). -/
def State.alarmsDue (s : State) (t : Fin 4) : State := (s.alarmDue t 0).alarmDue t 1

/-! ## The passage of time (R272) -/

/-- The time base counts (R272, R296). -/
def State.tbOn (s : State) (t : Nat) : Bool := s.rbit (regTIME_CFG t) 31

/-- A counting time base has advanced by a number of XO cycles at its rate, and its alarms follow (R272, R281). -/
def State.tbAdvanced (s : State) (t : Fin 4) (xo : Nat) : State :=
  if s.tbOn t.val then (s.setTb t (s.tbCount.get t + tbAdvance xo (s.reg (regTIME_RATE t.val)).toInt)).alarmsDue t else s

/-- The time up to a command that does not carry the cycles elapsed: a counting time base has advanced by an open number of XO cycles (R272; log entry 2). -/
def State.tbPass (s : State) (t : Fin 4) : State :=
  if s.tbOn t.val then
    let a := s.draw
    let b := a.2.draw
    b.2.tbAdvanced t (a.1.toNat + b.1.toNat * 2 ^ 32)
  else s

/-- A counting time base reaches an instant: within the XO cycle in which it does, its fraction is open (R272; log entry 2). -/
def State.tbReach (s : State) (t : Fin 4) (ns : Nat) : State :=
  if s.tbOn t.val && decide (s.tbNs t < ns) then
    let r := s.draw
    r.2.setTb t (ns * 2 ^ 32 + tbAdvance 1 (s.reg (regTIME_RATE t.val)).toInt * r.1.toNat / 2 ^ 32)
  else s

/-- The time of a time base shifted by a delay in ns (R277). -/
def State.tbShifted (s : State) (t : Fin 4) (d : Int) : Nat := (((s.tbNs t : Int) + d) % (2 ^ 48 * 1000000000 : Int)).toNat

/-- A time as nanoseconds, seconds [31:0] and seconds [47:32]. -/
def timeWords (ns : Nat) : Word × Word × Word :=
  (BitVec.ofNat 32 (ns % 1000000000), BitVec.ofNat 32 (ns / 1000000000), BitVec.ofNat 32 (ns / 1000000000 / 2 ^ 32 % 65536))

/-! ## ALIGN (R278, R296) -/

/-- ALIGN in force in a second of a time base: the value written before that second began (R296). -/
def State.alignFrom (s : State) (t sec : Nat) : Int :=
  (clampSigned 500000000 (((s.timing.aligns.find? fun e => decide (e.1 = t) && decide (e.2.1 ≤ sec)).map (·.2.2)).getD (s.reg (regTIME_ALIGN t)))).toInt

/-- ALIGN of the grid instant of second `sec`, which a negative value puts into the second before (R278, R296). -/
def State.alignAt (s : State) (t sec : Nat) : Int :=
  if 0 ≤ s.alignFrom t sec then s.alignFrom t sec else s.alignFrom t (sec - 1)

/-- A write of ALIGN applies from the next whole second of its time base (R296). -/
def State.alignWrite (s : State) (t : Fin 4) (v : Word) : State :=
  let s1 := s.tbPass t
  let sec := s1.tbNs t / 1000000000
  let old := s1.alignFrom t.val sec
  { s1.regStore (regTIME_ALIGN t.val) v with
    timing := { s1.timing with aligns := (t.val, sec + 1, v) :: (t.val, 0, ofInt old) :: s1.timing.aligns.filter fun e => decide (e.1 ≠ t.val) } }

end Sys2Proof.Machine
end

