-- ==== Sys2Proof/Machine/Rings.lean ====
section
/-! DEFINITION. Network paths (R240 to R242), received frames and the classifier (R241, R263), and the descriptor rings of the network ring DMA (R259 to R264). -/

namespace Sys2Proof.Machine

/-- The number of a path. -/
def pathNo : Path → Nat
  | .a => 0
  | .b => 1

/-- MODE of a path in force; the reserved 3 acts as 0 (R240). -/
def State.pathMode (s : State) (x : Nat) : Nat := let m := s.rfld (regNET_PCTRL x) 0 2; if m = 3 then 0 else m

/-- A link that is up goes down: LINK clears, FLAP is set, EV56 or EV57 with payload 0, and source 50 (R242). -/
def State.linkDown (s : State) (x : Nat) : State :=
  if s.rbit (regNET_PSTAT x) 31 then
    ((((s.putRbit (regNET_PSTAT x) 31 false).setRbit (regNET_PSTAT x) 29).faultOccurs 50).raiseEvent (56 + x) 0)
  else s

/-- PATH_MODE_WRITE (R240, R271): ANEG and MODE take the written value; a change of the mode takes the link down. The reserved mode raises EV5. -/
def execPathModeWrite (_m : Master) (x : Path) (v : Word) (s : State) : Host.Outcome State Fault Refusal :=
  .next (
    let n := pathNo x
    let s0 := if fld v 0 2 = 3 then s.configError (regNET_PCTRL n) else s
    let s1 := s0.setReg (regNET_PCTRL n) (v &&& 7#32)
    if s1.pathMode n = s.pathMode n then s1 else s1.linkDown n)

/-- LINK_CHANGE (R240, R242): the link of a path that is not off goes up, with EV56 or EV57, or down; with ANEG = 1 an SGMII partner of another speed or of half duplex holds it down and sets LINKERR. -/
def execLinkChange (x : Path) (up badPartner : Bool) (s : State) : Host.Outcome State Fault Refusal :=
  .next (
    let n := pathNo x
    if !up then s.linkDown n
    else if s.pathMode n = 0 then s
    else if s.pathMode n = 1 ∧ s.rbit (regNET_PCTRL n) 2 ∧ badPartner then (s.linkDown n).setRbit (regNET_PSTAT n) 30
    else if s.rbit (regNET_PSTAT n) 31 then s
    else (s.setRbit (regNET_PSTAT n) 31).raiseEvent (56 + n) 1)

/-! ## DMA accesses (R259, R264) -/

/-- The ring DMA may access a data-space word: the plain view of a bank it owns, or a DRAM region of R119. -/
def State.dmaMay (s : State) (a : Nat) (write : Bool) : Bool :=
  if 0x00400000 ≤ a ∧ a < 0x00800000 then s.scrMay 9 ((a - 0x00400000) / 65536)
  else decide (0x80000000 ≤ a) && (s.dramRefusal 9 (a - 0x80000000) write).isNone

/-- The record of a refused access of the ring DMA (R112, R119); a target without a path is refused as an unmapped access (R17, R130). -/
def State.dmaRefused (s : State) (a : Nat) (write : Bool) : State :=
  if 0x00400000 ≤ a ∧ a < 0x00800000 then s.scratchRefused 0 9 ((a - 0x00400000) / 65536) (BitVec.ofNat 32 a)
  else if 0x80000000 ≤ a then s.ridgeRefused ((s.dramRefusal 9 (a - 0x80000000) write).getD 1) 9 write (BitVec.ofNat 32 a)
  else (s.ridgeRecord 0 9 write (BitVec.ofNat 32 a)).unmapped

/-- The target port behind a data-space word of the ring DMA (R130). -/
def dmaPort (a : Nat) : Option RidgePort :=
  if 0x00400000 ≤ a ∧ a < 0x00800000 then some (.scratch (fin 63 ((a - 0x00400000) / 65536)))
  else if 0x80000000 ≤ a then some (.dram (dramChannel (a - 0x80000000)))
  else none

/-- The ring DMA reaches the ports of the first and the last of `n` words from `a`: a hold of the ports ends and a handover of a bank to it completes first (R114, R117, R131, R135; log entry 93). -/
def State.dmaReach (s : State) (a n : Nat) : State :=
  [a, a + n - 1].foldl (fun (t : State) w => match dmaPort w with
    | some (.scratch b) => ((t.awaitBank 9 b).scrTouch 9).servePort b.val 9
    | some p => t.servePort (portNo p) 9
    | none => t) s.unhold

/-- A word lies in a bank whose handover to the ring DMA still waits for an access of its old owner (R114). -/
def State.dmaWaits (s : State) (a : Nat) : Bool :=
  match dmaPort a with
  | some (.scratch b) => s.scrPend b.val && s.scrMay 9 b.val
  | _ => false

/-- The ring DMA reads `n` words from `a`, which pass the checker of their memory (R369, R370). -/
def State.dmaTouch (s : State) (a n : Nat) : State :=
  if a < 0x80000000 then s.memTouch 16 fun u => decide (a ≤ u + 0x00400000) && decide (u + 0x00400000 < a + n)
  else s.dramTouch (a - 0x80000000) n

/-- The word at a data-space address of the ring DMA. -/
def State.dmaWord (s : State) (a : Nat) : Word :=
  if a < 0x80000000 then s.scratchGet ((a - 0x00400000) / 65536) (a % 65536) else s.dramGet (a - 0x80000000)

/-- A word at such an address is written. -/
def State.dmaSet (s : State) (a : Nat) (v : Word) : State :=
  if a < 0x80000000 then s.scratchSet ((a - 0x00400000) / 65536) (a % 65536) v else s.dramSet (a - 0x80000000) v

/-- The first of `n` words from `a` that the ring DMA may not access. -/
def State.dmaBad (s : State) (a n : Nat) (write : Bool) : Option Nat := (List.range n).map (a + ·) |>.find? fun w => !s.dmaMay w write

/-- Words are written one after another. -/
def State.dmaSetMany (s : State) (a : Nat) : List Word → State
  | [] => s
  | v :: vs => (s.dmaSet a v).dmaSetMany (a + 1) vs

/-- A ring stops on an error response (R264). -/
def State.ringError (s : State) (r a : Nat) (write : Bool) : State :=
  let s1 := (s.dmaRefused a write).putRbit (regNET_RINGCFG r) 31 false
  let s2 := if s1.rbit regNET_STATUS 30 then s1 else (s1.setRbit regNET_STATUS 30).setRfld regNET_STATUS 0 6 r
  s2.faultOccurs 51

/-! ## Rings (R259) -/

/-- LOG2SIZE; values outside 4 to 12 act as 4 (R271). -/
def State.ringLog (s : State) (r : Nat) : Nat := let n := s.rfld (regNET_RINGCFG r) 0 4; if n < 4 ∨ 12 < n then 4 else n

/-- The number of descriptors of a ring. -/
def State.ringSize (s : State) (r : Nat) : Nat := 2 ^ s.ringLog r

/-- HEAD of a ring. -/
def State.ringHead (s : State) (r : Nat) : Nat := s.rfld (regNET_RINGHEAD r) 0 12

/-- TAIL of a ring. -/
def State.ringTail (s : State) (r : Nat) : Nat := s.rfld (regNET_RINGTAIL r) 0 12

/-- EN of a ring. -/
def State.ringOn (s : State) (r : Nat) : Bool := s.rbit (regNET_RINGCFG r) 31

/-- The data-space address of the descriptor at HEAD. -/
def State.ringDesc (s : State) (r : Nat) : Nat := (s.reg (regNET_RINGBASE r)).toNat + 8 * s.ringHead r

/-- HEAD advances (R259). -/
def State.ringAdvance (s : State) (r : Nat) : State := s.setRfld (regNET_RINGHEAD r) 0 12 ((s.ringHead r + 1) % s.ringSize r)

/-- A ring stops on a descriptor with OWN = 0 (R259). -/
def State.ringStop (s : State) (r : Nat) : State := (s.putRbit (regNET_RINGCFG r) 31 false).setRbit regNET_STATUS 29

/-- TB of a ring. -/
def State.ringTb (s : State) (r : Nat) : Fin 4 := fin 3 (s.rfld (regNET_RINGCFG r) 27 2)

/-- Where the PTP message of a frame begins, if it is a Sync message over Ethernet or over UDP and IPv4; with true for UDP (R261; PRESUMED layout, log entry 24). -/
def syncAt (bs : List Byte) : Option (Nat × Bool) :=
  let o := if numAt bs 12 2 = 0x8100 then 4 else 0
  if numAt bs (12 + o) 2 = 0x88F7 then (if numAt bs (14 + o) 1 % 16 = 0 then some (14 + o, false) else none)
  else if numAt bs (12 + o) 2 = 0x0800 ∧ numAt bs (14 + o + 9) 1 = 17 then
    let u := 14 + o + numAt bs (14 + o) 1 % 16 * 4
    if (numAt bs (u + 2) 2 = 319 ∨ numAt bs (u + 2) 2 = 320) ∧ numAt bs (u + 8) 1 % 16 = 0 then some (u + 8, true) else none
  else none

/-- Bytes of a list from `i` on are replaced. -/
def patch (bs : List Byte) (i : Nat) (new : List Byte) : List Byte := bs.take i ++ new ++ bs.drop (i + new.length)

/-- The launch instant in the originTimestamp of a Sync message, and a UDP checksum of zero (R261). -/
def oneStep (bs : List Byte) (ns sec secHi : Word) : List Byte :=
  match syncAt bs with
  | none => bs
  | some (i, udp) =>
    let b1 := patch bs (i + 34) ((bytesBE secHi).drop 2 ++ bytesBE sec ++ bytesBE ns)
    if udp then patch b1 (i - 2) [0, 0] else b1

/-- TXDLY of a path (R277). -/
def State.txDelay (s : State) (x : Nat) : Nat := s.rfld (regTIME_PHYDLY x) 16 16

/-- RXDLY of a path (R277). -/
def State.rxDelay (s : State) (x : Nat) : Nat := s.rfld (regTIME_PHYDLY x) 0 16

/-- The launch time of a descriptor in ns: words 2 and 3, with seconds [47:32] of the current time of its base (R260). -/
def State.launchTime (s : State) (d : Nat) (tb : Fin 4) : Nat :=
  ((s.dmaWord (d + 3)).toNat + s.tbNs tb / 1000000000 / 2 ^ 32 * 2 ^ 32) * 1000000000 + (s.dmaWord (d + 2)).toNat

/-- A transmit timestamp of a path: the pin instant plus TXDLY (R261, R277); of a path that sends nothing it is open (log entry 2). -/
def State.txStamp (s : State) (tb : Fin 4) (x : Nat) (sent : Bool) : (Word × Word) × State :=
  if sent then
    let t := s.tbPass tb
    let w := timeWords (t.tbShifted tb (t.txDelay x))
    ((w.1, w.2.1), t)
  else
    let a := s.draw
    let b := a.2.draw
    ((a.1, b.1), b.2)

/-- The bytes that a path sends: with ONESTEP the launch instant, with its PHY delay, is put into a Sync message (R261, R277). -/
def State.txBytes (s : State) (d x : Nat) (w0 : Word) (tb : Fin 4) (timed : Bool) (raw : List Byte) : List Byte :=
  if bit w0 27 then
    let w := timeWords (if timed then s.launchTime d tb else s.tbShifted tb (s.txDelay x))
    oneStep raw w.1 w.2.1 w.2.2
  else raw

/-- The frame of the descriptor at `d` is sent on its paths, the descriptor is written back, and HEAD leaves it (R260, R261): `late` for LATE. -/
def State.txSend (s : State) (r d : Nat) (late : Bool) : State :=
  let w0 := s.dmaWord d
  let len := fld w0 0 16
  let buf := (s.dmaWord (d + 1)).toNat
  let paths := s.rfld (regNET_RINGCFG r) 29 2
  let bad := decide (len < 14) || decide (1518 < len)
  let n := if bad then 0 else (len + 3) / 4
  let s := s.dmaReach buf n
  match s.dmaBad buf n false with
  | some a => s.ringError r a false
  | none =>
    match s.dmaBad d 8 true with
    | some a => s.ringError r a true
    | none =>
      let s := s.dmaTouch buf n
      let raw := ((List.range n).flatMap fun i => bytesLE (s.dmaWord (buf + i))).take len
      let tb := if bit w0 30 then fin 3 (fld w0 25 2) else s.ringTb r
      let timed := bit w0 30 && !late
      let s0 := if bit w0 27 then s.tbPass tb else s
      let named (x : Nat) : Bool := decide (paths / 2 ^ x % 2 = 1)
      let sends (x : Nat) : Bool := !bad && named x
      let sent (x : Nat) : Bool := sends x && s.rbit (regNET_PSTAT x) 31
      let s1 := if sends 0 then s0.sendFrame 0 (s0.txBytes d 0 w0 tb timed raw) else s0
      let s2 := if sends 1 then s1.sendFrame 1 (s0.txBytes d 1 w0 tb timed raw) else s1
      let w0' := setBit (setBit (setBit (setBit w0 31 false) 24 late) 23 (bad || (named 0 && !sent 0))) 22 (bad || (named 1 && !sent 1))
      let s3 := s2.dmaSet d w0'
      let s4 := if bit w0 29 then
          let a := s3.txStamp (s.ringTb r) 0 (sent 0)
          let b := a.2.txStamp (s.ringTb r) 1 (sent 1)
          b.2.dmaSetMany (d + 4) [a.1.1, a.1.2, b.1.1, b.1.2]
        else s3
      let s5 := if s4.ringDesc r = d then s4.ringAdvance r else s4
      if bit w0 28 then s5.raiseEvent 59 (BitVec.ofNat 32 r) else s5

/-- The launch time of a descriptor cannot be kept: its base was never LOCKED since boot, or the time is past (R261). -/
def State.launchLate (s : State) (d : Nat) (tb : Fin 4) : Bool := !s.timing.seen.contains tb.val || decide (s.launchTime d tb < s.tbNs tb)

/-- A ring holds a descriptor until its launch time. -/
def State.ringHeld (s : State) (r : Nat) : Option Nat := mapFind s.ringHold r

/-- The network block answers: it has its supply, and in SLEEP its clock (R306, R307). -/
def State.netOn (s : State) : Bool := !s.deep && !s.gatedOff 14

/-- TX_DESCRIPTOR_PROCESS (R259 to R261): the next posted descriptor of an enabled transmit ring: with LTEN = 1 it is held until its launch time, or sent at once with LATE where that time is past or its base was never LOCKED since boot; otherwise its frame is sent. With none posted, one held, or the block without a clock, nothing happens. -/
def execTxDescriptorProcess (r : Fin 32) (s : State) : Host.Outcome State Fault Refusal :=
  .next (
    if !s.netOn || !s.ringOn r.val || decide (s.ringHead r.val = s.ringTail r.val) || (s.ringHeld r.val).isSome then s
    else
      let d := s.ringDesc r.val
      let s := s.dmaReach d 8
      if s.dmaWaits d || s.dmaWaits (s.dmaWord (d + 1)).toNat then s
      else match s.dmaBad d 8 false with
        | some a => s.ringError r.val a false
        | none =>
          let s := s.dmaTouch d 8
          let w0 := s.dmaWord d
          if !bit w0 31 then s.ringStop r.val
          else if bit w0 30 ∧ 14 ≤ fld w0 0 16 ∧ fld w0 0 16 ≤ 1518 then
            let tb := fin 3 (fld w0 25 2)
            let t := s.tbPass tb
            if t.launchLate d tb then t.txSend r.val d true else { t with ringHold := mapIns t.ringHold r.val d }
          else s.txSend r.val d false)

/-- TX_LAUNCH_TIME (R261, R277): the launch time of the held descriptor of a ring comes, less the PHY delay, and its frame is sent; `late` when it starts more than 8 ns after that time. Without a held descriptor, or with a base that is held before that time, nothing happens. -/
def execTxLaunchTime (r : Fin 32) (late : Bool) (s : State) : Host.Outcome State Fault Refusal :=
  .next (match s.ringHeld r.val with
    | none => s
    | some d =>
      let tb := fin 3 (fld (s.dmaWord d) 25 2)
      let at_ := s.launchTime d tb - Nat.max (s.txDelay 0) (s.txDelay 1)
      if !s.netOn || (!s.tbOn tb.val && decide (s.tbNs tb < at_)) then s
      else ({ s.tbReach tb at_ with ringHold := mapDel s.ringHold r.val } : State).txSend r.val d late)

/-- RING_TAIL_WRITE (R259, R271): TAIL takes the written value modulo the ring size. -/
def execRingTailWrite (_m : Master) (r : Fin 64) (v : Word) (s : State) : Host.Outcome State Fault Refusal :=
  .next (s.setReg (regNET_RINGTAIL r.val) (BitVec.ofNat 32 (fld v 0 12 % s.ringSize r.val)))

/-- RING_CFG_WRITE (R271): the RW fields take the written value, LOG2SIZE only while EN = 0; EN from 0 to 1 sets HEAD and TAIL to 0. A LOG2SIZE outside 4 to 12 raises EV5. -/
def execRingCfgWrite (_m : Master) (r : Fin 64) (v : Word) (s : State) : Host.Outcome State Fault Refusal :=
  .next (
    let a := regNET_RINGCFG r.val
    let old := s.reg a
    let on := s.ringOn r.val
    let new := merge old (if on then 0xFC000000#32 else 0xFC00000F#32) v
    let s0 := if !on ∧ (fld v 0 4 < 4 ∨ 12 < fld v 0 4) then s.configError a else s
    let s1 := s0.setReg a new
    if !on && bit v 31 then (s1.setReg (regNET_RINGHEAD r.val) 0).setReg (regNET_RINGTAIL r.val) 0 else s1)

/-! ## Received frames -/

/-- Word 0 of a classifier rule (R263). -/
def State.ruleWord (s : State) (q : Nat) : Word := s.tabGet (0x01A40000 + 8 * q)

/-- CLASSIFIER_RULE_WRITE (R263): word 0 of a rule takes the written bits, from the next received frame on; an enabled rule of a reserved kind raises EV5. Word 1 is reserved. -/
def execClassifierRuleWrite (_m : Master) (q : Fin 64) (w1 : Bool) (v : Word) (s : State) : Host.Outcome State Fault Refusal :=
  .next (
    if w1 then s
    else
      let a := 0x01A40000 + 8 * q.val
      let s1 := s.tabLoad a (v &&& 0xFC1FFFFF#32)
      if bit v 31 ∧ 4 ≤ fld v 28 3 then s1.configError a else s1)

/-- What the classifier and the stream engine read of a frame: EtherType, the offset behind it, and the fields of an IPv4 header (R263; PRESUMED layout, log entry 24). -/
structure FrameView where
  etype : Nat
  body : Nat
  tag2 : Bool
  ipv4 : Bool
  proto : Nat
  plain : Bool
  dst : Nat
  udpPort : Nat
  udp : Nat
deriving DecidableEq, Repr

/-- The view of a frame. -/
def viewFrame (bs : List Byte) : FrameView :=
  let t1 := numAt bs 12 2
  let o := if t1 = 0x8100 then 16 else 12
  let e := numAt bs o 2
  let b := o + 2
  let ip := decide (e = 0x0800) && decide (numAt bs b 1 / 16 = 4)
  let ihl := numAt bs b 1 % 16 * 4
  { etype := e, body := b, tag2 := decide (t1 = 0x8100) && (decide (e = 0x8100) || decide (e = 0x88A8)), ipv4 := ip, proto := numAt bs (b + 9) 1
    plain := ip && decide (ihl = 20) && decide (numAt bs (b + 6) 2 % 16384 = 0), dst := numAt bs (b + 16) 4, udpPort := numAt bs (b + ihl + 2) 2
    udp := b + ihl }

/-- The running receive flow that a frame on a path matches, lowest first (R243, R247, R263). -/
def State.matchFlow (s : State) (v : FrameView) (bs : List Byte) (x : Nat) : Option (Nat × RxFlow) :=
  s.rxFlows.find? fun e =>
    let ws := e.2.words
    e.2.run && decide (fwPaths ws / 2 ^ x % 2 = 1) &&
      (if fwAaf ws then
        decide (v.etype = 0x22F0) && decide (numAt bs v.body 1 = 2) && decide (numAt bs (v.body + 4) 4 = (fw ws 2).toNat)
          && decide (numAt bs (v.body + 8) 4 = (fw ws 3).toNat)
      else v.plain && decide (v.proto = 17) && decide (v.dst = (fw ws 2).toNat) && decide (v.udpPort = fld (fw ws 3) 16 16))

/-- A frame of a flow reaches the stream engine. -/
def State.flowFrame (s : State) (f : Nat) (w : RxFlow) (v : FrameView) (bs : List Byte) (x : Nat) : State :=
  let p := if fwAaf w.words then aafPacket w.words (bs.drop v.body)
    else rtpPacket w.words ((bs.drop (v.udp + 8)).take (numAt bs (v.udp + 4) 2 - 8))
  s.packetArrives f w p (x == 1)

/-- An enabled classifier rule matches a frame (R263). -/
def State.ruleMatches (s : State) (q x : Nat) (v : FrameView) : Bool :=
  let w := s.ruleWord q
  let val := fld w 0 16
  bit w 31 && decide (fld w 26 2 / 2 ^ x % 2 = 1) &&
    match fld w 28 3 with
    | 0 => decide (v.etype = val)
    | 1 => v.ipv4 && decide (v.proto = 17) && decide (v.udpPort = val)
    | 2 => v.ipv4 && decide (v.proto = val % 256)
    | 3 => true
    | _ => false

/-- A frame with no descriptor to take it (R263). -/
def State.rxDrop (s : State) : State := (s.count regNET_RXDROP_CNT 1).setRbit regNET_STATUS 28

/-- A frame is stored by receive ring `r` and its descriptor written back, with the pin instant less RXDLY (R262, R263, R277). -/
def State.rxStore (s : State) (r rule x : Nat) (bs : List Byte) : State :=
  if !s.ringOn r || decide (s.ringHead r = s.ringTail r) then s.rxDrop
  else
    let d := s.ringDesc r
    let s := s.dmaReach d 8
    match s.dmaBad d 8 false with
    | some a => s.ringError r a false
    | none =>
      let s := s.dmaTouch d 8
      let w0 := s.dmaWord d
      if !bit w0 31 then (s.ringStop r).rxDrop
      else
        let buf := (s.dmaWord (d + 1)).toNat
        let size := fld (s.dmaWord (d + 2)) 0 16
        let stored := bs.take size
        let words := (List.range ((stored.length + 3) / 4)).map fun i => BitVec.ofNat 32 (natLE (bytesAt stored (4 * i) 4))
        let s := s.dmaReach buf words.length
        match s.dmaBad buf words.length true with
        | some a => s.ringError r a true
        | none => match s.dmaBad d 8 true with
          | some a => s.ringError r a true
          | none =>
            let t := s.tbPass (s.ringTb r)
            let w := timeWords (t.tbShifted (s.ringTb r) (-(s.rxDelay x : Int)))
            let s1 := t.dmaSetMany buf words
            let back := b2n (bit w0 30) * 2 ^ 30 + x * 2 ^ 29 + b2n (decide (size < bs.length)) * 2 ^ 28 + rule * 2 ^ 22 + bs.length
            let s2 := (s1.dmaSet d (BitVec.ofNat 32 back)).dmaSetMany (d + 4) [w.1, w.2.1]
            let s3 := (s2.dmaSet (d + 6) (merge (s2.dmaWord (d + 6)) 0xFFFF#32 w.2.2)).ringAdvance r
            if bit w0 30 then s3.raiseEvent (if s.rbit (regNET_RINGCFG r) 26 then 62 else 58) (BitVec.ofNat 32 r) else s3

/-- A frame is classified (R263). -/
def State.classify (s : State) (x : Nat) (v : FrameView) (bs : List Byte) : State :=
  match (List.range 64).find? fun q => s.ruleMatches q x v with
  | none => s.count regNET_UNCLASS_CNT 1
  | some q => s.rxStore (32 + fld (s.ruleWord q) 16 5) q x bs

/-- The frame is addressed to the path, or to a group (R241). -/
def State.addressed (s : State) (x : Nat) (bs : List Byte) : Bool :=
  decide (numAt bs 0 1 % 2 = 1) || decide (bytesAt bs 0 6 = s.macOf x)

/-- A PAUSE frame: MAC control with opcode 1 (R241; PRESUMED layout, log entry 24). -/
def isPause (v : FrameView) (bs : List Byte) : Bool := decide (v.etype = 0x8808) && decide (numAt bs v.body 2 = 1)

/-- The FCS of a frame is right (R241). -/
def fcsOk (frame : List Byte) : Bool :=
  decide (frame.drop (frame.length - 4) = bytesLE (crc32 (frame.take (frame.length - 4))))

/-- A frame on a path with its link up: an overlong, short or damaged one, or one with a second tag, is counted; a PAUSE frame or one for another address is dropped; one of a running flow goes to the stream engine, every other one to the classifier (R241, R252, R263). -/
def State.frameArrives (s : State) (n : Nat) (frame : List Byte) : State :=
  let bs := frame.take (frame.length - 4)
  let v := viewFrame bs
  if decide (1522 < frame.length) || decide (frame.length < 64) || !fcsOk frame || v.tag2 then s.count regNET_ERRFRAME_CNT 1
  else if isPause v bs ∨ !s.addressed n bs then s
  else match s.matchFlow v bs n with
    | some e => s.flowFrame e.1 e.2 v bs n
    | none => s.classify n v bs

end Sys2Proof.Machine
end

