-- ==== Sys2Proof/Machine/Time.lean ====
section
/-! DEFINITION. The time bases (R272 to R274), the frame grid and the anchors (R278 to R280), alarms and edge capture (R281, R282). -/

namespace Sys2Proof.Machine

/-! ## States (R273) -/

/-- A time base takes a state: ARMED follows UNLOCKED, and a change raises EV64 + t (R273, R296). -/
def State.tbGo (s : State) (t st : Nat) : State :=
  let s1 := (s.setRfld (regTIME_STAT t) 0 2 st).putRbit (regTIME_STAT t) 4 (decide (st = tUNLOCKED))
  let s2 : State := if st = tLOCKED ∧ !s1.timing.seen.contains t then { s1 with timing := { s1.timing with seen := s1.timing.seen ++ [t] } } else s1
  if s.tbState t = st then s2 else s2.raiseEvent (64 + t) (BitVec.ofNat 32 st)

/-- The anchor of a time base is invalid (R279); the conversions that it placed lose lock (R233). -/
def State.dropAnchor (s : State) (t : Nat) : State :=
  ({ s.putRbit (regTIME_STAT t) 7 false with anchors := mapDel s.anchors t, ancPend := mapDel s.ancPend t } : State).asrcAnchors

/-- ARM under R273: UNLOCKED, ARMED set, GM clear, the anchor invalid. -/
def State.tbArm (s : State) (t : Nat) : State := ((s.putRbit (regTIME_STAT t) 5 false).dropAnchor t).tbGo t tUNLOCKED

/-- EN written to 0 under R273: the counter is held, UNLOCKED, ARMED set, the anchor invalid. -/
def State.tbHold (s : State) (t : Nat) : State := (s.dropAnchor t).tbGo t tUNLOCKED

/-- LOSE under R273: FREERUN, GM clear; RATE is frozen, for its writes are refused there. -/
def State.tbLose (s : State) (t : Nat) : State := (s.putRbit (regTIME_STAT t) 5 false).tbGo t tFREERUN

/-! ## Alarms (R281) -/

/-- ALARM_CTRL_WRITE (R281): EN takes the written value and FIRED clears on a 1; an alarm armed for a time already past fires at once. -/
def execAlarmCtrlWrite (_m : Master) (t : Fin 4) (j : Fin 2) (v : Word) (s : State) : Host.Outcome State Fault Refusal :=
  .next (((s.tbPass t).regStore (regTIME_ALM_CTRL t.val j.val) v).alarmDue t j.val)

/-- ALARM_FIRE (R281): a counting time base reaches the time of an armed alarm, or stands past it, and the alarm fires, with the other one where that is due too. With none armed, or on a time base that is held before that time, nothing happens. -/
def execAlarmFire (t : Fin 4) (j : Fin 2) (s : State) : Host.Outcome State Fault Refusal :=
  .next (
    if s.rbit (regTIME_ALM_CTRL t.val j.val) 31 && (s.tbOn t.val || decide (s.alarmNs t.val j.val ≤ s.tbNs t)) then
      ((s.tbReach t (s.alarmNs t.val j.val)).alarmFires t.val j.val).alarmsDue t
    else s)

/-! ## Commands (R273, R274) -/

/-- The signed step of a time base in ns (R274). -/
def State.tbStep (s : State) (t : Nat) : Int := (s.reg (regTIME_STEP_HI t) ++ s.reg (regTIME_STEP_LO t)).toInt

/-- The counter moves by the step in one XO cycle (R273). -/
def State.tbStepped (s : State) (t : Fin 4) : State :=
  s.setTb t (((s.tbCount.get t : Int) + s.tbStep t.val * 2 ^ 32) % (tbModulus : Int)).toNat

/-- TB_CMD_STEP (R273, R274, R281): UNLOCKED steps the time and goes to LOCKED with STEPPED set, and the step fires the alarms it carries the time past; another state refuses it and sets STEPREF. -/
def execTbCmdStep (t : Fin 4) (s : State) : Host.Outcome State Fault Refusal :=
  .next (
    if s.tbState t.val = tUNLOCKED then
      ((((s.tbPass t).tbStepped t).setRbit (regTIME_STAT t.val) 28).tbGo t.val tLOCKED).alarmsDue t
    else s.setRbit (regTIME_STAT t.val) 31)

/-- TB_CMD_QUALIFY (R273): FREERUN goes to LOCKED without a step; LOCKED clears GM; UNLOCKED ignores it. -/
def execTbCmdQualify (t : Fin 4) (s : State) : Host.Outcome State Fault Refusal :=
  .next (
    if s.tbState t.val = tFREERUN then s.tbGo t.val tLOCKED
    else if s.tbState t.val = tLOCKED then s.putRbit (regTIME_STAT t.val) 5 false
    else s)

/-- TB_CMD_LOSE (R273): LOCKED goes to FREERUN; another state ignores it. -/
def execTbCmdLose (t : Fin 4) (s : State) : Host.Outcome State Fault Refusal :=
  .next (if s.tbState t.val = tLOCKED then s.tbLose t.val else s)

/-- TB_CMD_ARM (R273): UNLOCKED with ARMED set, GM clear and the anchor invalid. -/
def execTbCmdArm (t : Fin 4) (s : State) : Host.Outcome State Fault Refusal := .next (s.tbArm t.val)

/-- TB_CMD_GRANDMASTER (R273): UNLOCKED or FREERUN goes to LOCKED as grandmaster without a step; LOCKED keeps its state. -/
def execTbCmdGrandmaster (t : Fin 4) (s : State) : Host.Outcome State Fault Refusal :=
  .next (if s.tbState t.val = tLOCKED then s else (s.setRbit (regTIME_STAT t.val) 5).tbGo t.val tLOCKED)

/-- RATE_WATCHDOG_TRIP (R273): LOCKED without GM, with WDOG not 0 and no RATE write for WDOG seconds, goes to FREERUN and sets WDOGTRIP. Otherwise nothing happens. -/
def execRateWatchdogTrip (t : Fin 4) (s : State) : Host.Outcome State Fault Refusal :=
  .next (
    if s.tbState t.val = tLOCKED ∧ !s.rbit (regTIME_STAT t.val) 5 ∧ s.rfld (regTIME_CFG t.val) 0 8 ≠ 0 then
      (s.setRbit (regTIME_STAT t.val) 29).tbLose t.val
    else s)

/-- TB_RATE_WRITE (R272, R274): RATE takes the value, clamped, from the next XO cycle on; the cycles before count at the old rate. In FREERUN the write is refused and sets RATEREF. -/
def execTbRateWrite (_m : Master) (t : Fin 4) (v : Word) (s : State) : Host.Outcome State Fault Refusal :=
  .next (
    if s.tbState t.val = tFREERUN then s.setRbit (regTIME_STAT t.val) 30
    else (s.tbPass t).setReg (regTIME_RATE t.val) (clampSigned 500000000 v))

/-- TB_CFG_WRITE (R273, R296): the RW fields take the written value; with EN written to 0 the counter is held and the time base is UNLOCKED with ARMED set and its anchor invalid. A reserved PROFILE raises EV5. -/
def execTbCfgWrite (_m : Master) (t : Fin 4) (v : Word) (s : State) : Host.Outcome State Fault Refusal :=
  .next (
    if bit v 31 then s.regStore (regTIME_CFG t.val) v
    else ((s.tbPass t).regStore (regTIME_CFG t.val) v).tbHold t.val)

/-- TB_NS_READ (R272): the counter has advanced by the XO cycles elapsed since it was last settled, while it counts; NS is returned, and SEC_LO and SEC_HI take the seconds of that instant. -/
def execTbNsRead (m : Master) (t : Fin 4) (elapsedXo : BitVec 64) (s : State) : Host.Outcome State Fault Refusal :=
  .next (
    let s1 := s.tbAdvanced t elapsedXo.toNat
    let w := timeWords (s1.tbNs t)
    (((s1.setReg (regTIME_NS t.val) w.1).setReg (regTIME_SEC_LO t.val) w.2.1).setReg (regTIME_SEC_HI t.val) w.2.2).returnTo m.val w.1)

/-- TB_ANC_NS_READ (R296): τa in ns is returned, and the other anchor registers take the rest of the anchor in force; zeros before the first anchor. -/
def execTbAncNsRead (m : Master) (t : Fin 4) (s : State) : Host.Outcome State Fault Refusal :=
  .next (
    let a := (mapFind s.anchors t.val).getD { ns := 0, frame := 0 }
    let ns := BitVec.ofNat 32 (a.ns % 1000000000).toNat
    let sec := (a.ns / 1000000000 % 2 ^ 48).toNat
    (((((s.setReg (regTIME_ANC_NS t.val) ns).setReg (regTIME_ANC_SEC_LO t.val) (BitVec.ofNat 32 sec)).setReg (regTIME_ANC_SEC_HI t.val)
      (BitVec.ofNat 32 (sec / 2 ^ 32))).setReg (regTIME_ANC_FC_LO t.val) (BitVec.ofNat 32 a.frame)).setReg (regTIME_ANC_FC_HI t.val)
      (BitVec.ofNat 32 (a.frame / 2 ^ 32))).returnTo m.val ns)

/-! ## Anchors (R279) -/

/-- ANCHOR_ESTABLISH (R279, R296): the current tick is the one nearest to second `sec` of a LOCKED time base that counts: the anchor (sec × 10^9 + ALIGN, current frame) is fixed and comes into force with the next frame. Otherwise nothing happens. -/
def execAnchorEstablish (t : Fin 4) (sec : BitVec 48) (s : State) : Host.Outcome State Fault Refusal :=
  .next (
    if s.ticking && s.tbOn t.val && decide (s.tbState t.val = tLOCKED) then
      let ns : Int := (sec.toNat : Int) * 1000000000 + s.alignAt t.val sec.toNat
      { s with ancPend := mapIns (mapDel s.ancPend t.val) t.val { ns := ns, frame := s.now } }
    else s)

/-- No tick lies further from a grid instant than half a grid step; in ns (R278, R279). -/
def State.gridHalf (s : State) : Nat := (1000000000 + 2 * s.fi - 1) / (2 * s.fi)

/-- Every enabled time base reports the tick's place on its grid, which the commands alone do not give (R279; log entry 2). -/
def State.tickErrs (s : State) : State :=
  [0, 1, 2, 3].foldl (fun (t : State) b =>
    if t.tbOn b then
      let r := t.draw
      r.2.setReg (regTIME_TICKERR b) (ofInt ((r.1.toNat % (2 * t.gridHalf + 1) : Nat) - (t.gridHalf : Int)))
    else t) s

/-- The anchors fixed before come into force, and the tick is timestamped (R279). -/
def State.timeTick (s : State) : State :=
  let s1 := s.ancPend.foldl (fun (t : State) e =>
    { t.setRbit (regTIME_STAT e.1) 7 with anchors := mapIns (mapDel t.anchors e.1) e.1 e.2 }) s
  ({ s1 with ancPend := [] } : State).tickErrs

/-! ## Edge capture (R282) -/

/-- CAPTURE_EDGE (R282): an edge of the chosen polarity at an enabled input counts; every DIV-th is timestamped on time base TB, sets NEW, and OVR when NEW was still set, with EV72. -/
def execCaptureEdge (k : Fin 4) (falling : Bool) (s : State) : Host.Outcome State Fault Refusal :=
  .next (
    let c := s.reg (regTIME_CAPCFG k.val)
    if bit c 31 && bit c 30 == falling then
      let n := ((mapFind s.capCnt k.val).getD 0) + 1
      if n < Nat.max 1 (fld c 0 16) then { s with capCnt := mapIns (mapDel s.capCnt k.val) k.val n }
      else
        let b := fin 3 (fld c 28 2)
        let s0 := ({ s with capCnt := mapDel s.capCnt k.val } : State).tbPass b
        let w := timeWords (s0.tbNs b)
        let s1 := if s0.rbit regTIME_CAPSTAT k.val then s0.setRbit regTIME_CAPSTAT (4 + k.val) else s0
        let s2 : State := { s1 with capSec := mapIns (mapDel s1.capSec k.val) k.val (w.2.1.toNat + w.2.2.toNat * 2 ^ 32) }
        ((s2.setReg (regTIME_CAPNS k.val) w.1).setRbit regTIME_CAPSTAT k.val).raiseEvent 72 (BitVec.ofNat 32 k.val)
    else s)

/-- CAPNS_READ (R272, R282): the captured ns are returned, and CAPSECLO and CAPSECHI take the seconds of the same capture. -/
def execCapnsRead (m : Master) (k : Fin 4) (s : State) : Host.Outcome State Fault Refusal :=
  .next (
    let sec := (mapFind s.capSec k.val).getD 0
    ((s.setReg (regTIME_CAPSECLO k.val) (BitVec.ofNat 32 sec)).setReg (regTIME_CAPSECHI k.val) (BitVec.ofNat 32 (sec / 2 ^ 32))).returnTo m.val
      (s.reg (regTIME_CAPNS k.val)))

end Sys2Proof.Machine
end

