-- ==== Sys2Proof/Machine/Ref.lean ====
section
/-! DEFINITION. The reference selector: slots and their states (R283, R284), the choice (R287), the states of the selector (R286, R288, R289), disagreement (R290), the holdover average (R291), the control word (R292), and the pulse generators with their pins (R293 to R295). -/

namespace Sys2Proof.Machine

/-- Slot state codes (R297). -/
def slDISABLED : Nat := 0
/-- INVALID (R297). -/
def slINVALID : Nat := 1
/-- QUALIFYING (R297). -/
def slQUAL : Nat := 2
/-- WTR (R297). -/
def slWTR : Nat := 3
/-- VALID (R297). -/
def slVALID : Nat := 4

/-- Selector state codes (R288). -/
def rFREERUN : Nat := 0
/-- ACQUIRING (R288). -/
def rACQUIRING : Nat := 1
/-- LOCKED (R288). -/
def rLOCKED : Nat := 2
/-- HOLDOVER (R288). -/
def rHOLDOVER : Nat := 3
/-- FAULT (R288). -/
def rFAULT : Nat := 4

/-- The state of a slot. -/
def State.slotState (s : State) (i : Nat) : Nat := s.rfld (regREF_SLOTSTAT i) 29 3

/-- A slot takes a state, with RATEERR and WTR_LEFT cleared outside the states that show them. -/
def State.setSlot (s : State) (i st : Nat) : State := s.setRfld (regREF_SLOTSTAT i) 29 3 st

/-- TYPE of a slot. -/
def State.slotType (s : State) (i : Nat) : Nat := s.rfld (regREF_SLOTCFG i) 28 3
/-- INDEX of a slot. -/
def State.slotIndex (s : State) (i : Nat) : Nat := s.rfld (regREF_SLOTCFG i) 24 4
/-- RANK of a slot. -/
def State.slotRank (s : State) (i : Nat) : Nat := s.rfld (regREF_SLOTCFG i) 20 3

/-- The frequency offset of a slot: RATE of the time base for type 0, else REF.SLOTOFFs (R283). -/
def State.slotOffset (s : State) (i : Nat) : Int :=
  if s.slotType i = 0 then (s.reg (regTIME_RATE (s.slotIndex i % 4))).toInt else (s.reg (regREF_SLOTOFF i)).toInt

/-- The state of the selector (R288). -/
def State.refState (s : State) : Nat := s.rfld regREF_STATE 0 3

/-- The selected slot, if one is selected. -/
def State.refSel (s : State) : Option Nat := if s.rbit regREF_STATE 7 then some (s.rfld regREF_STATE 4 3) else none

/-- A slot is a candidate: in WTR or VALID, and the forced one while FORCE_EN = 1 (R284, R287). -/
def State.slotCandidate (s : State) (i : Nat) : Bool :=
  (decide (s.slotState i = slWTR) || decide (s.slotState i = slVALID)) &&
    (!s.rbit regREF_CTRL 30 || decide (s.rfld regREF_CTRL 0 3 = i))

/-- The slots, ascending. -/
def slotIds : List Nat := [0, 1, 2, 3, 4, 5, 6, 7]

/-- The candidates, ascending. -/
def State.candidates (s : State) : List Nat := slotIds.filter s.slotCandidate

/-- COUNT of the holdover average (R291). -/
def State.hoCount (s : State) : Nat := s.rfld regREF_HOCNT 0 11

/-- The offset that equal ranks are compared with (R287). -/
def State.refTarget (s : State) : Int := if 0 < s.hoCount then (s.reg regREF_HOAVG).toInt else (s.reg regREF_FREE).toInt

/-- Slot `a` is chosen before slot `b` of a higher number: lower RANK, then the nearer offset, then the lower number (R287). -/
def State.slotBefore (s : State) (a b : Nat) : Bool :=
  let d (i : Nat) : Nat := (s.slotOffset i - s.refTarget).natAbs
  decide (s.slotRank a < s.slotRank b) || (decide (s.slotRank a = s.slotRank b) && decide (d a ≤ d b))

/-- The choice of R287 among slots in ascending order. -/
def State.chooseSlot (s : State) (cands : List Nat) : Option Nat :=
  cands.foldl (fun (b : Option Nat) i => match b with
    | none => some i
    | some x => if s.slotBefore x i then some x else some i) none

/-! ## The holdover average (R291) -/

/-- WIN in seconds; reserved values act as 60 (R297). -/
def State.hoWin (s : State) : Nat := let w := s.rfld regREF_HOCFG 16 11; if w = 0 ∨ 1024 < w then 60 else w
/-- GAP in seconds; reserved values act as 10 (R297). -/
def State.hoGap (s : State) : Nat := let g := s.rfld regREF_HOCFG 0 9; if g = 0 ∨ 256 < g then 10 else g

/-- The recorded means that a loss in second `l` averages: seconds l - GAP - WIN to l - GAP - 1 (R291). -/
def State.hoWindow (s : State) (l : Nat) : List Int :=
  (s.refMeans.filter fun e => decide (l ≤ e.1 + s.hoGap + s.hoWin) && decide (e.1 + s.hoGap + 1 ≤ l)).map (·.2)

/-- HOAVG and COUNT take the value that a loss in the current second would use; without a recorded second HOAVG keeps its word (R291). -/
def State.hoUpdate (s : State) : State :=
  let ws := s.hoWindow s.refSec
  let s1 := s.setRfld regREF_HOCNT 0 11 ws.length
  if ws.isEmpty then s1 else s1.setReg regREF_HOAVG (ofInt (rconvDiv ws.sum ws.length))

/-! ## Transitions (R288) -/

/-- ALIGNED of every time base: the selector is LOCKED on a slot of it (R280). -/
def State.alignBits (s : State) : State :=
  [0, 1, 2, 3].foldl (fun (t : State) b =>
    t.putRbit (regTIME_STAT b) 6 (decide (s.refState = rLOCKED) && match s.refSel with
      | some i => decide (s.slotType i = 0) && decide (s.slotIndex i % 4 = b)
      | none => false)) s

/-- A slot is selected: REF.SWITCH_CNT and SWITCHED when it differs from the one selected before (R288). -/
def State.selectSlot (s : State) (i : Nat) : State :=
  if s.refSel = some i then s
  else ((s.setRbit regREF_STATE 7).setRfld regREF_STATE 4 3 i).count regREF_SWITCH_CNT 1 |>.setRbit regREF_HIST 6

/-- No slot is selected; SEL then holds a free value (R288, R297; log entry 2). -/
def State.deselect (s : State) : State :=
  if s.rbit regREF_STATE 7 then
    let r := s.draw
    (r.2.putRbit regREF_STATE 7 false).setRfld regREF_STATE 4 3 (fld r.1 0 3)
  else s

/-- The history bit of an entered state (R297). -/
def histBit (st : Nat) : Option Nat :=
  if st = rFREERUN then some 3 else if st = rLOCKED then some 1 else if st = rHOLDOVER then some 4 else if st = rFAULT then some 5 else none

/-- The selector takes a state: EV73 and the history bit of a change, the level causes of FAULT and HOLDOVER, FROZEN from leaving LOCKED until the next entry to it (R288, R291, R362). -/
def State.refGo (s : State) (st : Nat) : State :=
  let old := s.refState
  let s1 := s.setRfld regREF_STATE 0 3 st
  if old = st then s1.alignBits
  else
    let s2 := match histBit st with | some b => s1.setRbit regREF_HIST b | none => s1
    let s3 := if old = rLOCKED then s2.setRbit regREF_HOCNT 31 else if st = rLOCKED then (s2.putRbit regREF_HOCNT 31 false).hoUpdate else s2
    let s4 := (s3.setCause 47 (decide (st = rFAULT))).setCause 48 (decide (st = rHOLDOVER))
    (s4.raiseEvent 73 (BitVec.ofNat 32 st)).alignBits

/-- Entry to FREERUN: no slot, DCO on REF.FREE (R288). -/
def State.toFreerun (s : State) : State := (s.deselect.setReg regREF_DCO (s.reg regREF_FREE)).refGo rFREERUN

/-- Entry to ACQUIRING on a slot, with EV74 where it differs from the one selected before (R288). -/
def State.acquire (s : State) (i : Nat) : State :=
  let t := (s.selectSlot i).refGo rACQUIRING
  if s.refSel = some i then t else t.raiseEvent 74 (BitVec.ofNat 32 i)

/-- The selected slot is lost: another candidate, else HOLDOVER on the average, else FREERUN (R288). -/
def State.refLoss (s : State) : State :=
  match s.chooseSlot s.candidates with
  | some i => s.acquire i
  | none =>
    if 0 < s.hoCount then (s.deselect.setReg regREF_DCO (s.reg regREF_HOAVG)).refGo rHOLDOVER
    else s.toFreerun

/-- The slots in VALID with a lower RANK than the selected one, for a revertive switch (R288). -/
def State.revertTargets (s : State) (sel : Nat) : List Nat :=
  s.candidates.filter fun i => decide (s.slotState i = slVALID) && decide (s.slotRank i < s.slotRank sel)

/-- A pair stops disagreeing when one of its slots leaves the candidates (R290). -/
def State.disFollow (s : State) : State :=
  { s with disPairs := s.disPairs.filter fun k => s.slotCandidate (k / 8) && s.slotCandidate (k % 8) }

/-- The transitions of R288 that follow from the slots and REF.CTRL alone. -/
def State.refMove (s : State) : State :=
  let st := s.refState
  if st = rFAULT then s
  else if s.rbit regREF_CTRL 29 then (if st = rFREERUN then s.deselect else s.toFreerun)
  else if st = rFREERUN ∨ st = rHOLDOVER then
    match s.chooseSlot s.candidates with
    | some i => s.acquire i
    | none => s
  else match s.refSel with
    | none => s.refLoss
    | some sel =>
      if !s.slotCandidate sel then s.refLoss
      else if st = rLOCKED ∧ s.rbit regREF_CTRL 31 ∧ !s.rbit regREF_CTRL 30 then
        match s.chooseSlot (s.revertTargets sel) with
        | some i => s.acquire i
        | none => s
      else s

/-- What follows a change of the slots or of REF.CTRL (R288, R290). -/
def State.refEval (s : State) : State := s.disFollow.refMove

/-! ## Slots (R283, R284) -/

/-- A slot becomes INVALID; from WTR or VALID its LOST bit is set (R284). -/
def State.slotInvalid (s : State) (i : Nat) : State :=
  let s1 := if s.slotState i = slWTR ∨ s.slotState i = slVALID then s.setRbit regREF_HIST (24 + i) else s
  (s1.setSlot i slINVALID).setRfld (regREF_SLOTSTAT i) 16 12 0

/-- SLOT_CFG_WRITE (R283, R284, R287): the configuration takes the written value, with BW clamped and its errors reported by EV5; enabling, disabling or a change of TYPE or INDEX moves the slot, and the selector follows. -/
def execSlotCfgWrite (_m : Master) (i : Fin 8) (v : Word) (s : State) : Host.Outcome State Fault Refusal :=
  .next (
    let a := regREF_SLOTCFG i.val
    let old := s.reg a
    let s1 := s.regStore a v
    let moved := decide (fld old 24 7 ≠ fld v 24 7)
    let s2 :=
      if !bit v 31 then (s1.setSlot i.val slDISABLED).setRfld (regREF_SLOTSTAT i.val) 16 12 0
      else if !bit old 31 then s1.setSlot i.val slINVALID
      else if moved then s1.slotInvalid i.val
      else s1
    (if moved || bit v 31 != bit old 31 then s2.putRbit (regREF_SLOTSTAT i.val) 28 false else s2).refEval)

/-- The source that a slot names can be present: what the module itself knows of it (R283). -/
def State.slotSource (s : State) (i : Nat) : Bool :=
  let x := s.slotIndex i
  match s.slotType i with
  | 0 => decide (x ≤ 3) && decide (s.tbState x = tLOCKED)
  | 1 => decide (x ≤ 3) && s.rxValid (fin 3 x)
  | 2 => decide (x ≤ 1)
  | 3 => decide (x = 0)
  | 4 => !s.rbit (regTDM_CFG x) 30 && s.rbit (regTDM_STAT x) 31
  | _ => false

/-- A rate lies within 1 % of a nominal one (R283). -/
def nearRate (hz nominal : Nat) : Bool := decide (nominal * 99 ≤ hz * 100) && decide (hz * 100 ≤ nominal * 101)

/-- The nominal rates that a slot type accepts, in Hz (R283). -/
def slotRates (ty : Nat) : List Nat := if ty = 3 then [1] else [32000, 48000, 96000, 192000]

/-- The rate of a slot's source: AES3 receivers and ports measure it, of another input it comes with the command (R236, R283). -/
def State.slotHz (s : State) (i : Nat) (hz : Nat) : Nat :=
  match s.slotType i with
  | 1 => s.rfld (regAES_RXSTAT (s.slotIndex i)) 0 18
  | 4 => s.rfld (regTDM_RATE (s.slotIndex i)) 0 18
  | _ => hz

/-- The nominal rate of a slot's source is accepted; a time base has none (R283). -/
def State.slotRateOk (s : State) (i hz : Nat) : Bool :=
  decide (s.slotType i = 0) || (slotRates (s.slotType i)).any (nearRate (s.slotHz i hz))

/-- SOURCE_PRESENT (R283, R284): an INVALID slot finds its source present, with its rate in Hz and its offset: at a nominal rate that is not accepted RATEERR is set; with an offset of at most 490 ppm the slot enters QUALIFYING. Otherwise nothing happens. -/
def execSourcePresent (i : Fin 8) (hz : BitVec 18) (offset : Word) (s : State) : Host.Outcome State Fault Refusal :=
  .next (
    if s.slotState i.val = slINVALID ∧ s.slotSource i.val then
      if !s.slotRateOk i.val hz.toNat then s.setRbit (regREF_SLOTSTAT i.val) 28
      else
        let s1 := (s.putRbit (regREF_SLOTSTAT i.val) 28 false).setReg (regREF_SLOTOFF i.val) offset
        let s2 := s1.setReg (regREF_SLOTOFF i.val) (ofInt (s1.slotOffset i.val))
        if (s2.slotOffset i.val).natAbs ≤ 490000000 then s2.setSlot i.val slQUAL else s2
    else s)

/-- WTR in seconds; values above 3,600 act as 3,600 (R297). -/
def State.slotWtr (s : State) (i : Nat) : Nat := Nat.min 3600 (s.rfld (regREF_SLOTTMR i) 16 12)

/-- QUALIFICATION_TIMER_EXPIRY (R284, R288): a QUALIFYING slot becomes VALID, or WTR when it has been WTR or VALID since boot and its WTR is not 0; the selector follows. -/
def execQualificationTimerExpiry (i : Fin 8) (s : State) : Host.Outcome State Fault Refusal :=
  .next (
    if s.slotState i.val = slQUAL then
      let w := s.slotWtr i.val
      let s1 : State := { s with slotSeen := if s.slotSeen.contains i.val then s.slotSeen else s.slotSeen ++ [i.val] }
      if s.slotSeen.contains i.val ∧ w ≠ 0 then ((s1.setSlot i.val slWTR).setRfld (regREF_SLOTSTAT i.val) 16 12 w).refEval
      else (s1.setSlot i.val slVALID).refEval
    else s)

/-- WTR_EXPIRY (R284, R288): the last second of the wait-to-restore of a slot is over, WTR_LEFT reaches 0: VALID, with EV76, and a revertive switch where R288 has one. With more than a second left nothing happens. -/
def execWtrExpiry (i : Fin 8) (s : State) : Host.Outcome State Fault Refusal :=
  .next (
    if s.slotState i.val = slWTR ∧ s.rfld (regREF_SLOTSTAT i.val) 16 12 ≤ 1 then
      (((s.setSlot i.val slVALID).setRfld (regREF_SLOTSTAT i.val) 16 12 0).refEval).raiseEvent 76 (BitVec.ofNat 32 i.val)
    else s)

/-- The offset of a slot is beyond 495 ppm (R284). -/
def State.slotFar (s : State) (i : Nat) : Bool := decide (495000000 < (s.slotOffset i).natAbs)

/-- A slot can lose its source: a time base only by leaving LOCKED or by its rate, any other source by an edge that fails (R283, R284). -/
def State.slotCanLose (s : State) (i : Nat) : Bool :=
  decide (slQUAL ≤ s.slotState i) && (decide (s.slotType i ≠ 0) || !s.slotSource i || s.slotFar i)

/-- SLOT_LOST (R284, R288): a slot in QUALIFYING, WTR or VALID loses its source and becomes INVALID; the selector follows. A slot of a time base that stays LOCKED loses nothing. -/
def execSlotLost (i : Fin 8) (s : State) : Host.Outcome State Fault Refusal :=
  .next (if s.slotCanLose i.val then (s.slotInvalid i.val).refEval else s)

/-- PHASE_GLITCH (R284): a missing or extra edge of an enabled slot discards the phase measurement and increments GLITCH. A slot that is DISABLED, or whose source has no edges, measures none. -/
def execPhaseGlitch (i : Fin 8) (s : State) : Host.Outcome State Fault Refusal :=
  .next (
    if s.slotState i.val ≠ slDISABLED ∧ 1 ≤ s.slotType i.val ∧ s.slotType i.val ≤ 4 then
      s.setReg (regREF_SLOTSTAT i.val) (satAdd (s.reg (regREF_SLOTSTAT i.val)) 0 8 1)
    else s)

/-! ## Pulse generators (R293, R294) -/

/-- SRC of a generator; the reserved values act as 0 (R294). -/
def State.genSrc (s : State) (g : Nat) : Nat := let v := s.rfld (regREF_OUTCFG g) 28 3; if 5 ≤ v then 0 else v

/-- The source of a generator can be present: a time base that it names is LOCKED (R294). -/
def State.genSource (s : State) (g : Nat) : Bool :=
  decide (s.genSrc g ≠ 0) || decide (s.tbState (s.rfld (regREF_OUTCFG g) 26 2) = tLOCKED)

/-- An alignment of a generator is requested; a source known to be absent sets WAIT (R294). -/
def State.genRequest (s : State) (g : Nat) : State :=
  let s1 : State := if s.genReq.contains g then s else { s with genReq := s.genReq ++ [g] }
  if s.genSource g then s1 else s1.setRbit (regREF_OUTSTAT g) 30

/-- What the pin of a generator carries: nothing before frames run or while the module does not own the frame, edges once the generator has aligned, else its inactive level (R294, R295, R352, R382). -/
def State.genPin (s : State) (g : Nat) : PinDrive :=
  if !s.ticking || !s.ownCur then .highZ
  else if s.rbit (regREF_OUTCFG g) 31 && s.rbit (regREF_OUTSTAT g) 31 then .edges
  else .level (s.rbit (regREF_OUTCFG g) 25)

/-- The pulse outputs follow their generators (R295). -/
def State.genPins (s : State) : State := { s with timing := { s.timing with pins := [0, 1, 2, 3].map s.genPin } }

/-- The enabled generators, which an entry to LOCKED realigns (R294). -/
def State.genRequestAll (s : State) : State :=
  [0, 1, 2, 3].foldl (fun (t : State) g => if t.rbit (regREF_OUTCFG g) 31 then t.genRequest g else t) s

/-- REALIGN (R294, R297): the configuration takes the written value; EN from 0 to 1, or REALIGN of an enabled generator, requests an alignment; a generator that is disabled has none. -/
def execRealign (_m : Master) (g : Fin 4) (v : Word) (s : State) : Host.Outcome State Fault Refusal :=
  .next (
    let was := s.rbit (regREF_OUTCFG g.val) 31
    let s1 := s.regStore (regREF_OUTCFG g.val) v
    let s2 : State :=
      if !bit v 31 then
        { (s1.putRbit (regREF_OUTSTAT g.val) 31 false).putRbit (regREF_OUTSTAT g.val) 30 false with genReq := s1.genReq.filter fun x => decide (x ≠ g.val) }
      else if !was || bit v 24 then s1.genRequest g.val
      else s1
    s2.genPins)

/-- GENERATOR_ALIGN (R294): a requested alignment takes place: ALIGNED and REALIGNED; while its source is absent, or a time base it names is not LOCKED, the generator waits with WAIT set. Without a request nothing happens. -/
def execGeneratorAlign (g : Fin 4) (present : Bool) (s : State) : Host.Outcome State Fault Refusal :=
  .next (
    if s.genReq.contains g.val then
      if present && s.genSource g.val then
        ({ ((s.setRbit (regREF_OUTSTAT g.val) 31).putRbit (regREF_OUTSTAT g.val) 30 false).setRbit (regREF_OUTSTAT g.val) 29 with
          genReq := s.genReq.filter fun x => decide (x ≠ g.val) } : State).genPins
      else s.setRbit (regREF_OUTSTAT g.val) 30
    else s)

/-! ## Lock, fault and control (R286 to R292) -/

/-- The lock window in ns: 4 for a time base, else LOCKWIN, whose reserved 0 acts as 1,000 (R286, R297). -/
def State.lockWindow (s : State) : Nat :=
  match s.refSel with
  | some i => if s.slotType i = 0 then 4 else let w := s.rfld regREF_LOCKCFG 0 16; if w = 0 then 1000 else w
  | none => 0

/-- LOCK_ACHIEVED (R286, R288): ACQUIRING, with the phase error inside the window for the lock time, goes to LOCKED; the enabled generators realign. -/
def execLockAchieved (err : Word) (s : State) : Host.Outcome State Fault Refusal :=
  .next (
    if s.refState = rACQUIRING ∧ s.refSel.isSome ∧ err.toInt.natAbs ≤ s.lockWindow then
      (((s.setReg regREF_PHERR err).refGo rLOCKED).genRequestAll).refEval
    else s)

/-- LOCK_LOST (R286, R288): LOCKED, with a phase error beyond four times the window, goes to ACQUIRING on the same slot and sets LOCKLOSS. -/
def execLockLost (err : Word) (s : State) : Host.Outcome State Fault Refusal :=
  .next (
    if s.refState = rLOCKED ∧ 4 * s.lockWindow < err.toInt.natAbs then
      ((s.setReg regREF_PHERR err).setRbit regREF_HIST 2).refGo rACQUIRING
    else s)

/-- Entry to FAULT: DCO on the average, or on REF.FREE without one; no slot is selected (R288). -/
def State.refFault (s : State) : State :=
  if s.refState = rFAULT then s
  else (s.deselect.setReg regREF_DCO (if 0 < s.hoCount then s.reg regREF_HOAVG else s.reg regREF_FREE)).refGo rFAULT

/-- The loop of the selector moves the control word (R285, R288). -/
def State.refLoop (s : State) : Bool := decide (s.refState = rACQUIRING) || decide (s.refState = rLOCKED)

/-- A cause of R289 that the registers show: the limp clock, an APLL that lost lock, or a control word that stands at its limit. -/
def State.refCause (s : State) : Bool :=
  s.rbit regCLK_STATUS 21 || s.rbit (regFAULT_CAUSE 1) 12 || (!s.refLoop && decide ((s.reg regREF_DCO).toInt.natAbs = 500000000))

/-- REF_FAULT (R288, R289): a cause of R289 puts the selector in FAULT and raises the reference fault: one that the registers show, or a control word that the loop has held at its limit for 1 s. With neither nothing happens. -/
def execRefFault (s : State) : Host.Outcome State Fault Refusal := .next (if s.refCause || s.refLoop then s.refFault else s)

/-- REF_FAULT_CLEAR (R288): after 1 s without a cause FAULT goes to FREERUN; a candidate is then acquired. While a cause lasts nothing happens. -/
def execRefFaultClear (s : State) : Host.Outcome State Fault Refusal :=
  .next (if s.refState = rFAULT ∧ !s.refCause then s.toFreerun.refEval else s)

/-- REF_CTRL_WRITE (R287, R288): SUSPEND, FORCE and REVERT take the written values, and the selector follows. -/
def execRefCtrlWrite (_m : Master) (v : Word) (s : State) : Host.Outcome State Fault Refusal := .next (s.regStore regREF_CTRL v).refEval

/-- REF_FREE_WRITE (R292): FREE takes the value, clamped; in FREERUN the control word follows at once. -/
def execRefFreeWrite (_m : Master) (v : Word) (s : State) : Host.Outcome State Fault Refusal :=
  .next (
    let w := clampSigned 500000000 v
    let s1 := s.setReg regREF_FREE w
    if s.refState = rFREERUN then s1.setReg regREF_DCO w else s1)

/-! ## The second (R283, R290, R291) -/

/-- The pairs (higher, lower) of candidates of equal rank. -/
def State.rankPairs (s : State) : List (Nat × Nat) :=
  let c := s.candidates
  c.flatMap fun h => (c.filter fun l => decide (l < h) && decide (s.slotRank l = s.slotRank h)).map fun l => (h, l)

/-- The disagreement check of R290. -/
def State.disagree (s : State) : State :=
  let thr := (s.reg regREF_DISTHR).toNat
  let diff (p : Nat × Nat) : Nat := (s.slotOffset p.1 - s.slotOffset p.2).natAbs
  let still := s.disPairs.filter fun k =>
    s.slotCandidate (k / 8) && s.slotCandidate (k % 8) && decide (thr / 2 < diff (k / 8, k % 8))
  let fresh := s.rankPairs.filter fun p => decide (thr < diff p) && !still.contains (p.1 * 8 + p.2)
  fresh.foldl (fun (t : State) p => (t.setRbit regREF_HIST 7).raiseEvent 75 (BitVec.ofNat 32 (p.1 * 16 + p.2)))
    { s with disPairs := still ++ fresh.map fun p => p.1 * 8 + p.2 }

/-- REF.HOCFG is written: while LOCKED the average shows at once what a loss in this second would use (R291). -/
def State.hoWrite (s : State) (v : Word) : State :=
  let s1 := s.regStore regREF_HOCFG v
  if s1.refState = rLOCKED then s1.hoUpdate else s1

/-- SELECTOR_SECOND (R283, R284, R290, R291): a second of the XO ends: its mean is recorded when the selector was LOCKED throughout (`whole`), the slot offsets and the waits are updated, a slot whose offset is beyond 495 ppm becomes INVALID, the average follows while LOCKED, and the candidates of equal rank are compared. The last second of a wait ends by WTR_EXPIRY. -/
def execSelectorSecond (mean : Word) (whole : Bool) (offsets : List Word) (s : State) : Host.Outcome State Fault Refusal :=
  .next (
    let rec1 := if whole && decide (s.refState = rLOCKED) then (s.refSec, mean.toInt) :: s.refMeans else s.refMeans
    let s1 : State := { s with refMeans := rec1.take 1280, refSec := s.refSec + 1 }
    let s2 := slotIds.foldl (fun (t : State) i =>
      let t1 := if slQUAL ≤ t.slotState i then t.setReg (regREF_SLOTOFF i) (nthD offsets i 0) else t
      let t2 := t1.setReg (regREF_SLOTOFF i) (ofInt (t1.slotOffset i))
      let t3 := if t2.slotState i = slWTR then t2.setRfld (regREF_SLOTSTAT i) 16 12 (Nat.max 1 (t2.rfld (regREF_SLOTSTAT i) 16 12 - 1)) else t2
      if decide (slQUAL ≤ t3.slotState i) && t3.slotFar i then t3.slotInvalid i else t3) s1
    let s3 := s2.refEval
    let s4 := if s3.refState = rLOCKED then s3.hoUpdate else s3
    s4.disagree)

end Sys2Proof.Machine
end

