-- ==== Sys2Proof/Machine/Tap.lean ====
section
/-! DEFINITION. The test access port (R332, R396): the controller of IEEE 1149.1-2013, which R396 names and does not restate, its IDCODE, and the debug lock. No command of the table moves its pins: `State.tapEdge` is what a carrier that clocks them does to the state, and only the supply and the fuses act on it within a run (log entry 96). -/

namespace Sys2Proof.Machine

/-- The next state of the controller on a rising edge of TCK with TMS at `tms` (R396; the diagram of IEEE 1149.1, log entry 96). -/
def TapState.next (t : TapState) (tms : Bool) : TapState :=
  match t with
  | .testLogicReset => if tms then .testLogicReset else .runTestIdle
  | .runTestIdle => if tms then .selectDr else .runTestIdle
  | .selectDr => if tms then .selectIr else .captureDr
  | .captureDr => if tms then .exit1Dr else .shiftDr
  | .shiftDr => if tms then .exit1Dr else .shiftDr
  | .exit1Dr => if tms then .updateDr else .pauseDr
  | .pauseDr => if tms then .exit2Dr else .pauseDr
  | .exit2Dr => if tms then .updateDr else .shiftDr
  | .updateDr => if tms then .selectDr else .runTestIdle
  | .selectIr => if tms then .testLogicReset else .captureIr
  | .captureIr => if tms then .exit1Ir else .shiftIr
  | .shiftIr => if tms then .exit1Ir else .shiftIr
  | .exit1Ir => if tms then .updateIr else .pauseIr
  | .pauseIr => if tms then .exit2Ir else .pauseIr
  | .exit2Ir => if tms then .updateIr else .shiftIr
  | .updateIr => if tms then .selectDr else .runTestIdle

/-- The low `n` bits of a number, least significant first: the order in which a scan register leaves at TDO. -/
def bitsLow (n v : Nat) : List Bool := (List.range n).map v.testBit

/-- IDCODE (R396). -/
def tapIdcode : Nat := 0x1B09A0C1

/-- The data register that an instruction selects: a code of ones selects bypass, and which other codes select the boundary register or IDCODE is the implementation's (log entry 96). -/
def tapSelect (ir : List Bool) : TapReg :=
  if ir.all id then .bypass
  else match Config.tapDecode ir with
    | 0 => .boundary
    | 1 => .idcode
    | _ => .bypass

/-- What a data register loads in Capture-DR; `pins` are the levels of the pins that the boundary register covers. -/
def tapCapture (r : TapReg) (pins : List Bool) : List Bool :=
  match r with
  | .idcode => bitsLow 32 tapIdcode
  | .bypass => [false]
  | .boundary => pins

/-- One bit enters a scan register at the far end, and the nearest bit leaves it. -/
def tapShift (w : List Bool) (tdi : Bool) : List Bool := w.drop 1 ++ [tdi]

/-- The port after a rising edge of TCK, out of reset: the action of the state it leaves, then the next state; entering Test-Logic-Reset selects IDCODE (R396). -/
def TestPort.edge (t : TestPort) (tms tdi : Bool) (pins : List Bool) : TestPort :=
  let u : TestPort :=
    match t.state with
    | .captureDr => { t with scan := tapCapture t.sel pins }
    | .captureIr => { t with scan := true :: List.replicate (Config.tapIrLength - 1) false }
    | .shiftDr => { t with scan := tapShift t.scan tdi }
    | .shiftIr => { t with scan := tapShift t.scan tdi }
    | .updateDr => if t.sel = .boundary then { t with drive := t.scan } else t
    | .updateIr => { t with sel := tapSelect t.scan }
    | _ => t
  if t.state.next tms = .testLogicReset then TestPort.reset else { u with state := t.state.next tms }

/-- The debug lock closes the Course windows and holds the test access port (R332, R396). -/
def State.debugLock (s : State) : Bool := s.rbit regBOOT_STATUS 25

/-- The fused debug lock is in force: as DBGLOCK shows it, and while the module is held in reset, before that bit is read from the fuse (R332, R333). -/
def State.tapLocked (s : State) : Bool := s.debugLock || (s.fuseLock && decide (s.rfld regCLK_STATUS 29 3 = 0))

/-- The port is held in reset: TRST_N is low, which its pull-down makes it while open; the debug lock is fused; or logic power is absent (R332, R396). -/
def State.tapHeld (s : State) (trst : Bool) : Bool := !trst || s.tapLocked || !s.railsUp

/-- A rising edge of TCK with the given levels of TRST_N (low while open), TMS and TDI (R396). -/
def State.tapEdge (s : State) (trst tms tdi : Bool) (pins : List Bool) : State :=
  { s with testPort := if s.tapHeld trst then TestPort.reset else s.testPort.edge tms tdi pins }

/-- The port where the debug lock has just been read from its fuse (R332). -/
def State.tapLock (s : State) : State := if s.tapLocked then { s with testPort := TestPort.reset } else s

/-- TDO: driven in the two shift states, at high impedance in every other state and while the port is held in reset (R332, R396). -/
def State.tdo (s : State) : Option Bool :=
  if s.tapLocked || !s.railsUp then none
  else if s.testPort.state = .shiftDr ∨ s.testPort.state = .shiftIr then some (s.testPort.scan.headD false) else none

end Sys2Proof.Machine
end

