-- ==== Sys2Proof/Machine/Power.lean ====
section
/-! DEFINITION. Clocks (R298 to R304), power modes (R305 to R309), the supply and the hold-up store (R310, R311, R342), train lines (R312, R313), and the module reset (R334, R395). -/

namespace Sys2Proof.Machine

/-! ## The boot flash (R318, R342) -/

/-- An erased byte of flash. -/
def flashDefault (_ : Nat) : Byte := 0xFF#8

/-- A byte of the boot flash. -/
def State.flashByte (s : State) (a : Nat) : Byte := mapGet flashDefault s.flash a

/-- A byte of the boot flash takes a value. -/
def State.setFlash (s : State) (a : Nat) (b : Byte) : State := { s with flash := mapSet flashDefault s.flash a b }

/-- A word of the boot flash, least significant byte first (R320, R342). -/
def State.flashWord (s : State) (a : Nat) : Word :=
  s.flashByte (a + 3) ++ s.flashByte (a + 2) ++ s.flashByte (a + 1) ++ s.flashByte a

/-- The boot flash answers: its rail is not shut down (R388). -/
def State.flashOn (s : State) : Bool := !s.railsOff.contains 1 && !s.deep

/-- The size of the boot flash in bytes (R318; log entry 40). -/
def flashSize : Nat := if Config.bigFlash then 0x10000000 else 0x08000000

/-- The first byte of the hold-up log area (R318). -/
def logBase : Nat := flashSize - 0x100000

/-- Bytes of flash are erased. -/
def State.flashErase (s : State) (a n : Nat) : State := { s with flash := s.flash.filter fun e => decide (e.1 < a) || decide (a + n ≤ e.1) }

/-- Bytes are written one after another. -/
def State.flashPut (s : State) (a : Nat) : List Byte → State
  | [] => s
  | b :: bs => (s.setFlash a b).flashPut (a + 1) bs

/-- A range of flash is erased. -/
def State.flashBlank (s : State) (a n : Nat) : Bool := s.flash.all fun e => decide (e.1 < a) || decide (a + n ≤ e.1)

/-! ## The module reset (R334) -/

/-- The registers that show the supply and the strap at a reset: BROWN, DCIN and BULK (R316), ROLE (R395), and the live cause of a brown-out (R361). -/
def State.liveRegs (s : State) : List (Nat × Word) :=
  let p := s.reg regPWR_STATUS
  let t : State := ((({ State.reset with regs := [] } : State).setReg regPWR_STATUS (p &&& 0x880003FF#32)).setReg regPAIR_STATUS
    (s.reg regPAIR_STATUS &&& 0x20000000#32))
  (if bit p 31 then t.setRbit (regFAULT_CAUSE 1) 14 else t).regs

/-- What a module reset keeps: the flash, the fuses, the supply, the free-value counter and the waiting commands; KEYHASH shows the fuses, and RSTCAUSE the cause (R333, R334, R343). -/
def State.moduleReset (s : State) (cause : Word) : State :=
  let t : State := { State.reset with
    regs := s.liveRegs, flash := s.flash, fuseKey := s.fuseKey, fuseLock := s.fuseLock, railsUp := s.railsUp, testPort := s.testPort, freeCtr := s.freeCtr,
    pending := s.pending }
  let u := s.fuseKey.zipIdx.foldl (fun (t : State) e => t.setReg (regBOOT_KEYHASH e.2) e.1) t
  u.setReg regGLOBAL_RSTCAUSE cause

/-- GLOBAL_RESET_WRITE (R334): with KEY = 0xB01A and SYS = 1 a module reset; any other value does nothing. -/
def execGlobalResetWrite (_m : Master) (v : Word) (s : State) : Host.Outcome State Fault Refusal :=
  .next (if fld v 16 16 = 0xB01A ∧ bit v 0 then s.moduleReset 4#32 else s)

/-- RESET_PIN (R334, R395): a module reset; RST_OUT_N falls. -/
def execResetPin (s : State) : Host.Outcome State Fault Refusal := .next (s.moduleReset 2#32)

/-- RST_OUT_RISE (R395): after the release of the power-on reset RST_OUT_N rises. Before it nothing happens. -/
def execRstOutRise (s : State) : Host.Outcome State Fault Refusal :=
  .next (if s.railsUp && decide (s.rfld regCLK_STATUS 29 3 ≠ 0) then { s with rstOut := true } else s)

/-- POWER_GOOD (R310, R334): every logic rail reaches regulation: a module reset by power good, with the input and the bulk voltage. With the rails up already nothing happens. -/
def execPowerGood (bulk : BitVec 10) (dc : Bool) (s : State) : Host.Outcome State Fault Refusal :=
  .next (
    if s.railsUp then s
    else
      { (s.setReg regPWR_STATUS (BitVec.ofNat 32 (b2n dc * 2 ^ 27 + bulk.toNat))).moduleReset 1#32 with railsUp := true, testPort := TestPort.reset })

/-- RAILS_FALL (R311, R345, R395): the rails leave regulation: the module is held in reset with every output at high impedance, and DRAM loses its contents. -/
def execRailsFall (s : State) : Host.Outcome State Fault Refusal :=
  .next ({ (s.setReg regPWR_STATUS 0).moduleReset 0#32 with railsUp := false, testPort := TestPort.reset } : State)

/-! ## The clock supervisor (R301 to R304) -/

/-- CLK.STATUS.SUPSTATE (R303). -/
def State.supState (s : State) : Nat := s.rfld regCLK_STATUS 29 3

/-- The supervisor takes a state. -/
def State.setSup (s : State) (n : Nat) : State := s.setRfld regCLK_STATUS 29 3 n

/-- A supervisor action: EV77 with its code (R303). -/
def State.clkEvent (s : State) (code : Nat) : State := s.raiseEvent 77 (BitVec.ofNat 32 code)

/-- BOOT.STATUS.STAGE (R325). -/
def State.bootStage (s : State) : Nat := s.rfld regBOOT_STATUS 28 4

/-- The boot stage changes. -/
def State.setStage (s : State) (n : Nat) : State := s.setRfld regBOOT_STATUS 28 4 n

/-- RIDGE.CTRL.SLOW takes a value, and the slices start to switch where it changes (R135). -/
def State.ridgeSlow (s : State) (b : Bool) : State :=
  (s.putRbit regRIDGE_CTRL 0 b).putRbit regRIDGE_STATUS 1 (b != s.rbit regRIDGE_STATUS 0)

/-- On the limp clock the supervisor sets SLOW; it is set already where the module starts up on that clock (R135). -/
def State.limpClock (s : State) : State := if s.rbit regRIDGE_CTRL 0 then s else s.ridgeSlow true

/-- The boot stage becomes LIMP; NOIMAGE is left only by a module reset (R303, R327). -/
def State.limpStage (s : State) : State := if s.bootStage = 7 then s else s.setStage 8

/-- Entry to LIMP: limp clock with SLOW set, BATTEN released, boot stage LIMP, selector in FAULT (R135, R289, R303, R327, R345). -/
def State.enterLimp (s : State) : State :=
  { (((((s.setSup 4).setRbit regCLK_STATUS 21).limpClock).putRbit regPAIR_STATUS 30 false).limpStage).refFault with sup := { s.sup with muxDue := none } }

/-- POWER_ON_RESET_RELEASE (R303, R309, R325, R395): after power good, or a wake or a module reset, the supervisor enters XO_WAIT on the limp clock with ATTEMPT 1; SLOW is set, ROLE is sampled, the fuses are read, a fused debug lock resets the test access port (R332), and start-up is in CLOCKS. Otherwise nothing happens. -/
def execPowerOnResetRelease (roleGnd : Bool) (s : State) : Host.Outcome State Fault Refusal :=
  .next (
    if s.railsUp && decide (s.supState = 0) && decide (s.rfld regGLOBAL_MODE 4 2 = 0) then
      let s1 := ((s.setReg regCLK_STATUS 0x20200000#32).ridgeSlow true).putRbit regPAIR_STATUS 29 roleGnd
      let s2 := (s1.putRbit regBOOT_STATUS 25 s.fuseLock).putRbit regBOOT_STATUS 26 (s.fuseKey.all fun w => decide (w = 0))
      s2.setStage 1 |>.tapLock
    else s)

/-- XO_QUALIFIED (R302, R303): the XO qualifies in XO_WAIT: the PLLs start, or, after a loss in service, the supervisor enters LIMP. Otherwise nothing happens. -/
def execXoQualified (s : State) : Host.Outcome State Fault Refusal :=
  .next (
    if s.supState = 1 then
      let s1 := s.setRbit regCLK_STATUS 26
      if s.xoFromRun then s1.enterLimp else s1.setSup 2
    else s)

/-- XO_WAIT_TIMEOUT (R303): the 50 ms timer expires in XO_WAIT: the XO restarts with XORETRY and EV77 code 1, or at the fourth attempt source 41 is raised with EV77 code 2 and the supervisor enters LIMP. Otherwise nothing happens. -/
def execXoWaitTimeout (s : State) : Host.Outcome State Fault Refusal :=
  .next (
    if s.supState = 1 then
      let a := s.rfld regCLK_STATUS 27 2
      if a < 3 then ((s.setRfld regCLK_STATUS 27 2 (a + 1)).setRbit regCLK_HIST 3).clkEvent 1
      else (s.causeBegins 41).enterLimp.clkEvent 2
    else s)

/-- PLL_LOCK (R299, R303, R319): all PLLs lock in PLL_START: the early dividers and the early spread are loaded, both multiplexers are on the normal clocks, and the supervisor enters RUN. Otherwise nothing happens. -/
def execPllLock (s : State) : Host.Outcome State Fault Refusal :=
  .next (
    if s.supState = 2 then
      let d := s.earlyDiv &&& rwBits regCLK_DIV
      let s1 := ((s.setReg regCLK_DIV d).setReg regCLK_SSC (s.earlySsc &&& rwBits regCLK_SSC)).setSup 3
      { ((s1.setRfld regCLK_STATUS 22 2 3).setRbit regCLK_STATUS 25).putRbit regCLK_STATUS 21 false with divNow := d, divHold := false, sup := { s.sup with muxDue := some true } }
    else s)

/-- PLL_START_TIMEOUT (R303): a PLL has not locked after 1 ms: source 42, EV77 code 5, LIMP. Otherwise nothing happens. -/
def execPllStartTimeout (s : State) : Host.Outcome State Fault Refusal :=
  .next (if s.supState = 2 then (s.causeBegins 42).enterLimp.clkEvent 5 else s)

/-- MUX_ESCAPE (R301): the old clock of a pending multiplexer change shows no edge, or the new one stops during the change: ESCAPE and EV77 code 3. A change to the normal clocks whose new clock has stopped goes to the limp clock; whether it has is open (log entry 2). Without a pending change nothing happens. -/
def execMuxEscape (s : State) : Host.Outcome State Fault Refusal :=
  .next (match s.sup.muxDue with
    | none => s
    | some normal =>
      let s1 := ({ s with sup := { s.sup with muxDue := none } } : State).setRbit regCLK_HIST 5
      if normal then
        let r := s1.draw
        (if bit r.1 0 then (r.2.setRbit regCLK_STATUS 21).limpClock else r.2).clkEvent 3
      else s1.clkEvent 3)

/-- The CPLL coasts: CPLL_COAST in place of CPLL_LOCK, and CPLLLOSS; EV78 reports it (R304). -/
def State.cpllCoasts (s : State) : State := ((s.putRbit regCLK_STATUS 25 false).setRbit regCLK_STATUS 24).setRbit regCLK_HIST 2

/-- XO_LOSS (R302 to R304): the XO is lost in RUN: the CPLL coasts, APLL and DRAM PLL lose lock, frame tick and DRAM stop, the system multiplexer is on the limp clock with SLOW set, every time base is armed, the selector is in FAULT, source 41 and EV77 code 4 occur, and the supervisor is in XO_WAIT again with ATTEMPT 1. Otherwise nothing happens. -/
def execXoLoss (s : State) : Host.Outcome State Fault Refusal :=
  .next (
    if s.supState = 3 then
      let s1 := s.cpllCoasts.setReg regCLK_HIST (s.cpllCoasts.reg regCLK_HIST ||| 0x13#32)
      let s2 := (((s1.setRfld regCLK_STATUS 26 1 0).setRfld regCLK_STATUS 22 2 0).setRfld regCLK_STATUS 27 2 0).setRbit regCLK_STATUS 21
      let s3 := [0, 1, 2, 3].foldl State.dropAnchor (((s2.limpClock.setSup 1).causeBegins 41).causeBegins 47)
      let s4 := ((([0, 1, 2, 3].foldl State.tbArm s3).refFault).clkEvent 4).raiseEvent 78 0
      { s4 with ticking := false, xoFromRun := true, sup := { s.sup with muxDue := some false } }
    else s)

/-- CPLL_LOSS (R304): in RUN the CPLL loses reference or lock: it coasts, and source 43 is raised. With the CPLL coasting already, or outside RUN, nothing happens. -/
def execCpllLoss (s : State) : Host.Outcome State Fault Refusal :=
  .next (if s.supState = 3 ∧ s.rbit regCLK_STATUS 25 then (s.cpllCoasts.causeBegins 43).raiseEvent 78 0 else s)

/-- APLL_LOSS (R289, R304): in RUN the APLL loses lock: APLLLOSS, source 44, selector in FAULT. Otherwise nothing happens. -/
def execApllLoss (s : State) : Host.Outcome State Fault Refusal :=
  .next (
    if s.supState = 3 ∧ s.rbit regCLK_STATUS 23 then
      (((s.putRbit regCLK_STATUS 23 false).setRbit regCLK_HIST 1).causeBegins 44).refFault
    else s)

/-- APLL_RELOCK (R304): the APLL relocks from REF.FREE, which is its control word then: its lock shows again and the cause of source 44 ends. Without a loss nothing happens. -/
def execApllRelock (s : State) : Host.Outcome State Fault Refusal :=
  .next (
    if s.supState = 3 ∧ !s.rbit regCLK_STATUS 23 then ((s.setRbit regCLK_STATUS 23).setReg regREF_DCO (s.reg regREF_FREE)).causeEnds 44 else s)

/-- DRAM_PLL_LOSS (R304): in RUN the DRAM PLL loses lock: DPLLLOSS and source 45; DRAM stops. Otherwise nothing happens. -/
def execDramPllLoss (s : State) : Host.Outcome State Fault Refusal :=
  .next (
    if s.supState = 3 ∧ s.rbit regCLK_STATUS 22 then ((s.putRbit regCLK_STATUS 22 false).setRbit regCLK_HIST 0).causeBegins 45 else s)

/-! ## Dividers and spread (R299, R300) -/

/-- CLK_DIV_WRITE (R299, R315): CLK.DIV takes the written value and the master ports hold until the dividers change; a reserved value raises EV5. -/
def execClkDivWrite (_m : Master) (v : Word) (s : State) : Host.Outcome State Fault Refusal :=
  .next ({ s.regStore regCLK_DIV v with divHold := true } : State)

/-- DIVIDER_CHANGE (R135, R299): the dividers take the value of CLK.DIV and the held accesses proceed. Without a change pending nothing happens. -/
def execDividerChange (s : State) : Host.Outcome State Fault Refusal :=
  .next s.divChange

/-- SSC_WRITE (R300, R315): CLK.SSC takes the written value; a reserved one raises EV5. -/
def execSscWrite (_m : Master) (v : Word) (s : State) : Host.Outcome State Fault Refusal := .next (s.regStore regCLK_SSC v)

/-! ## Power modes (R305 to R308) -/

/-- GLOBAL.MODE.CUR (R314). -/
def State.modeCur (s : State) : Nat := s.rfld regGLOBAL_MODE 4 2

/-- The mode in force, with the request that names it; its EV82 (R305). -/
def State.modeSet (s : State) (m : Nat) : State := (s.setRfld regGLOBAL_MODE 4 2 m).raiseEvent 82 (BitVec.ofNat 32 m)

/-- The consumer of a selector lies in a block without a clock in SLEEP (R306). -/
def State.selStopped (s : State) (a : Nat) : Bool :=
  if a < 0x01000000 then s.gatedOff 12
  else if a < 0x01910000 then s.gatedOff 11
  else if a < 0x01A00000 then s.gatedOff 12
  else s.gatedOff 14

/-- The stopped blocks keep only the newest member of every crosspoint, section, tap and selector, at its target value (R306). -/
def State.collapse (s : State) : State :=
  { s with
    xents := if s.gatedOff 8 then [] else s.xents
    sels := s.sels.filter fun e => !s.selStopped e.1
    taps := if s.gatedOff 13 then [] else s.taps
    secs := if s.gatedOff 9 then
        s.secs.map fun e => (e.1, { fade := Fade.single (s.secCoef e.1 e.2.fade.newest.st), waiting := none })
      else s.secs }

/-- The fade-out is over: the outputs are at zero (R305). -/
def State.fadedOut (s : State) : Bool := decide (s.muteLevel 9 = 0)

/-- Exit from SLEEP: the mode is RUN, and every block restarts at the next tick (R306). -/
def State.sleepExit (s : State) : State := { (s.setRfld regGLOBAL_MODE 0 2 0).modeSet 0 with sup := { s.sup with exitDue := true } }

/-- The tick after an exit from SLEEP: commits taken meanwhile stand as final values, and the blocks restart (R306). -/
def State.restart (s : State) : State := if s.sup.exitDue then { s.collapse with sup := { s.sup with exitDue := false } } else s

/-- A request of mode `r` is acted on (R305). -/
def State.modeAct (s : State) (r : Nat) : State :=
  let cur := s.modeCur
  if r = 3 ∨ (r ≠ cur ∧ s.rbit regPAIR_STATUS 30) then (s.setRbit regGLOBAL_MODE 8).setRfld regGLOBAL_MODE 0 2 cur
  else
    let s1 := s.setRfld regGLOBAL_MODE 0 2 r
    if r = cur then s1
    else if r = 0 then s1.sleepExit
    else { s1 with modeStep := some r }

/-- The request written during a transition is acted on at its end (R305). -/
def State.modeDone (s : State) : State :=
  match s.modeQueued with
  | none => s
  | some r => ({ s with modeQueued := none } : State).modeAct r

/-- A write of GLOBAL.MODE (R305, R314): REFUSED clears on a 1; MAINT takes the value, but is refused while the module holds BATTEN; REQ starts, queues or refuses a transition. In DEEP no register can be written. -/
def State.modeWrite (s : State) (v : Word) : State :=
  if s.modeCur = 2 then s
  else
    let s1 := if bit v 8 then s.putRbit regGLOBAL_MODE 8 false else s
    let s2 := if bit v 16 && s1.rbit regPAIR_STATUS 30 then s1.setRbit regGLOBAL_MODE 8 else s1.putRbit regGLOBAL_MODE 16 (bit v 16)
    if s2.modeStep.isSome then { s2.setRfld regGLOBAL_MODE 0 2 (fld v 0 2) with modeQueued := some (fld v 0 2) }
    else s2.modeAct (fld v 0 2)

/-- MODE_REQ_WRITE (R305, R314). -/
def execModeReqWrite (_m : Master) (v : Word) (s : State) : Host.Outcome State Fault Refusal := .next (s.modeWrite v)

/-- MAINT_WRITE (R314). -/
def execMaintWrite (_m : Master) (v : Word) (s : State) : Host.Outcome State Fault Refusal := .next (s.modeWrite v)

/-- SLEEP_ENTRY (R305, R306): after the fade the module enters SLEEP: the stopped blocks keep their newest members, Courses stop as `courseSleepTick` says; a wake that came meanwhile follows at once. Otherwise nothing happens. -/
def execSleepEntry (s : State) : Host.Outcome State Fault Refusal :=
  .next (
    if s.modeStep = some 1 ∧ s.ticking ∧ s.fadedOut then
      let s1 : State := { s with modeStep := none, wakePend := false, sup := { s.sup with exitDue := false } }
      let s2 := ((s1.setRfld regGLOBAL_MODE 0 2 1).modeSet 1).collapse
      (if s.wakePend then s2.sleepExit else s2).modeDone
    else s)

/-! ## The hold-up store (R128, R311, R342) -/

/-- The recorder index record (R128). -/
def State.indexRecord (s : State) : List Word :=
  let ws := [0xB01A0001#32, lo32 s.fc, hi32 s.fc, s.reg regDLY_REC_HEAD, s.reg regDLY_REC_TAIL, s.reg regDLY_REC_WRAP, 0]
  ws ++ [crcWords ws]

/-- What a capture holds: the index record, the first-fault record, the fault count (R311, R342). -/
def State.holdupWords (s : State) : List Word :=
  s.indexRecord ++ [s.reg regFAULT_FFR0, s.reg (regFAULT_FFR1 0), s.reg (regFAULT_FFR1 1), s.reg (regFAULT_FFR1 2), s.reg regFAULT_COUNT]

/-- The words of a log entry with a sequence number (R342). -/
def logEntry (seq : Word) (ws : List Word) : List Word :=
  let e := [0xB01A0002#32, seq] ++ ws
  e ++ [crcWords e]

/-- A capture is stored in the next slot of the hold-up log: the slot must be erased, else LOGSKIP; a store that enters a sector has the one after it erased (R342). The first sequence number of an empty log is open (log entry 2). -/
def State.logStore (s : State) (ws : List Word) : State :=
  if !s.flashOn then s
  else
    let slot := s.rfld regBOOT_LOG 0 14
    if !s.flashBlank (logBase + 64 * slot) 64 then s.setRbit regBOOT_STATUS 23
    else
      let q : Word × State :=
        if s.rbit regBOOT_LOG 31 then (s.flashWord (logBase + 64 * s.rfld regBOOT_LOG 16 14 + 4) + 1, s) else s.draw
      let s1 := q.2.flashPut (logBase + 64 * slot) (wordsLE (logEntry q.1 ws))
      let s2 := s1.setReg regBOOT_LOG (BitVec.ofNat 32 (0x80000000 + slot * 65536 + (slot + 1) % 16384))
      let s3 := if slot % 1024 = 0 then s2.flashErase (logBase + 65536 * ((slot / 1024 + 1) % 16)) 65536 else s2
      s3.setRbit regPWR_STATUS 29

/-- BROWN_OUT (R311): the bulk voltage falls below 330 V: BROWN, BROWNSEEN, EV79 and source 46; a capture is due at the next tick, or before the first tick HOLDUP_SKIP is set. In DEEP nothing is stored, and the scheduler and the fault block have no supply (R307). Otherwise nothing happens. -/
def execBrownOut (bulk : BitVec 10) (s : State) : Host.Outcome State Fault Refusal :=
  .next (
    if s.railsUp ∧ bulk.toNat < 330 ∧ !s.rbit regPWR_STATUS 31 then
      let s1 := ((s.setRfld regPWR_STATUS 0 10 bulk.toNat).setRbit regPWR_STATUS 31).setRbit regPWR_STATUS 30
      if s.modeCur = 2 then s1
      else
        let s2 := (s1.causeBegins 46).raiseEvent 79 0
        if s.sup.ticked then { s2 with holdupDue := true } else s2.setRbit regPWR_STATUS 28
    else s)

/-- HOLDUP_CAPTURE (R128, R311): at the tick after a brown-out the index record, the first-fault record and the fault count are captured. Without a brown-out nothing happens. -/
def execHoldupCapture (s : State) : Host.Outcome State Fault Refusal :=
  .next (if s.holdupDue ∧ s.ticking then { s with holdupDue := false, holdup := s.holdup ++ [s.holdupWords] } else s)

/-- HOLDUP_STORE_DONE (R311, R342): the oldest capture is stored and HOLDUP_DONE set, or skipped. Without a capture nothing happens. -/
def execHoldupStoreDone (s : State) : Host.Outcome State Fault Refusal :=
  .next (match s.holdup with
    | [] => s
    | ws :: t => ({ s with holdup := t } : State).logStore ws)

/-- BULK_RECOVER (R311): the bulk voltage returns above 370 V: BROWN clears and the cause of source 46 ends. Otherwise nothing happens. -/
def execBulkRecover (bulk : BitVec 10) (s : State) : Host.Outcome State Fault Refusal :=
  .next (
    if s.railsUp ∧ 370 < bulk.toNat ∧ s.rbit regPWR_STATUS 31 then
      ((s.setRfld regPWR_STATUS 0 10 bulk.toNat).putRbit regPWR_STATUS 31 false).causeEnds 46
    else s)

/-! ## DEEP and wake (R307, R308) -/

/-- A module reset that keeps DRAM and some registers; an auxiliary rail that has shut down stays off, since neither DEEP nor a wake is a module reset (R307, R334, R388). -/
def State.resetKeeping (s : State) (cause : Word) (kept : List Nat) : State :=
  kept.foldl (fun (u : State) a => u.setReg a (s.reg a)) { s.moduleReset cause with dram := s.dram, railsOff := s.railsOff }

/-- What DEEP keeps beyond a module reset: DRAM, the wake settings and the LPO timer, the paths it keeps with their addresses, the train-line inputs, and the mode; RST_OUT_N stays as it is, for the module is not held in reset (R307, R308, R395). -/
def State.deepState (s : State) : State :=
  { (s.resetKeeping (s.reg regGLOBAL_RSTCAUSE) [regPWR_WAKE, regPWR_LPOTMR, regCLK_GATE_DEEP, regHVIO_TLCFG, regHVIO_TLSTAT,
    regNET_PMACLO 0, regNET_PMACHI 0, regNET_PMACLO 1, regNET_PMACHI 1]).setReg regGLOBAL_MODE 0x22#32 with rstOut := s.rstOut }

/-- A start-up out of DEEP (R307 to R309): a module reset that keeps DRAM, the LPO timer and the train-line inputs; RSTCAUSE.WAKE and BOOT.STATUS.WAKE, and the sources in CAUSE. -/
def State.deepWake (s : State) (causes : Nat) : State :=
  ((s.resetKeeping 8#32 [regPWR_LPOTMR, regHVIO_TLSTAT]).setRbit regBOOT_STATUS 24).setRfld regPWR_WAKE 16 12 causes

/-- The bit of a source in PWR.WAKE (R316). -/
def wakeBit : WakeSrc → Nat
  | .tl i => i.val
  | .pathA => 8
  | .pathB => 9
  | .spi => 10
  | .lpo => 11

/-- LEAVE on both paths, to the group of the roll-call; its SEQ is open (R265, R266, R307; log entry 2). -/
def State.sendLeave (s : State) : State :=
  let r := s.draw
  { r.2 with delronNet := some (0xEFC0B01A#32, 0xB01A#16, delronMsg s.devId 0x02 (r.1.extractLsb' 0 16) []) }

/-- A path bit of CLK.GATE_DEEP whose XO bit is 0 acts as 0, and EV5 occurs at the entry to DEEP (R308). -/
def State.gateDeepCheck (s : State) : State :=
  if fld (s.reg regCLK_GATE_DEEP) 0 2 ≠ 0 ∧ !s.rbit regCLK_GATE_DEEP 2 then s.configError regCLK_GATE_DEEP else s

/-- DEEP_ENTRY (R305, R307, R308, R345): after the fade LEAVE goes out, the index record is stored after the captures that still wait, DRAM is in self-refresh, and every block loses its state; a wake that came meanwhile follows at once. Otherwise nothing happens. -/
def execDeepEntry (s : State) : Host.Outcome State Fault Refusal :=
  .next (
    if s.modeStep = some 2 ∧ s.ticking ∧ s.fadedOut then
      let s1 := (s.holdup ++ [s.holdupWords]).foldl State.logStore s.gateDeepCheck.sendLeave
      let s2 : State := { s1.deepState with delronNet := s1.delronNet }
      if s.wakePend then s2.deepWake (s.rfld regPWR_WAKE 16 12) else s2
    else s)

/-- A path can receive: its link is up, or in DEEP it is kept powered with the XO; with MODE 0 it is off (R240, R307, R308). -/
def State.pathAwake (s : State) (x : Nat) : Bool :=
  if s.deep then s.rbit regCLK_GATE_DEEP x && s.rbit regCLK_GATE_DEEP 2 else s.rbit (regNET_PSTAT x) 31

/-- A wake source can act in the mode in force: a path must be up in SLEEP, and kept powered with the XO in DEEP (R308). -/
def State.wakeLive (s : State) (src : WakeSrc) : Bool :=
  s.rbit regPWR_WAKE (wakeBit src) && match src with
    | .pathA => s.pathAwake 0
    | .pathB => s.pathAwake 1
    | _ => true

/-- PWR.WAKE.CAUSE records a source, beside those active at the same wake where `more` (R308, R316). -/
def State.wakeCause (s : State) (b : Nat) (more : Bool) : State :=
  s.setRfld regPWR_WAKE 16 12 (if more then s.rfld regPWR_WAKE 16 12 ||| 2 ^ b else 2 ^ b)

/-- A wake has begun and not ended: the exit from SLEEP awaits its tick, or the start-up out of DEEP its reset release (R306, R308). -/
def State.waking (s : State) : Bool := s.sup.exitDue || (s.rbit regBOOT_STATUS 24 && decide (s.supState = 0))

/-- An active source, where it is enabled, ends SLEEP, starts the module up out of DEEP, reverses a fade-out, or is latched while an entry is under way (R305, R306, R308). -/
def State.wakeBy (s : State) (src : WakeSrc) : State :=
  if !s.wakeLive src then s
  else
    let b := wakeBit src
    match s.modeStep with
    | some _ =>
      if s.fadedOut then { s.wakeCause b s.wakePend with wakePend := true }
      else (((({ s with modeStep := none } : State).wakeCause b false).setRfld regGLOBAL_MODE 0 2 0).raiseEvent 82 0).modeDone
    | none =>
      if s.modeCur = 1 then (s.wakeCause b false).sleepExit
      else if s.modeCur = 2 then s.deepWake (2 ^ b)
      else if s.waking then s.wakeCause b true
      else s

/-- WAKE (R308): a source becomes active. -/
def execWake (src : WakeSrc) (s : State) : Host.Outcome State Fault Refusal := .next (s.wakeBy src)

/-- An event of a block that DEEP keeps awake; the scheduler has no supply there (R307). -/
def State.awakeEvent (s : State) (e : Nat) (pl : Word) : State := if s.deep then s else s.raiseEvent e pl

/-- A wake frame for a path: FCS right, EtherType 0x88B5, to the path's own address or to all, with the module's DEVID or eight bytes of 0xFF in front of its payload (R308). -/
def State.wakeFrame (s : State) (x : Nat) (frame : List Byte) : Bool :=
  let bs := frame.take (frame.length - 4)
  let v := viewFrame bs
  fcsOk frame && decide (v.etype = 0x88B5)
    && (decide (bytesAt bs 0 6 = s.macOf x) || decide (bytesAt bs 0 6 = List.replicate 6 0xFF#8))
    && (decide (bytesAt bs v.body 8 = beBytes 8 s.devId.toNat) || decide (bytesAt bs v.body 8 = List.replicate 8 0xFF#8))

/-- FRAME_RECEIVE (R241, R242, R252, R263, R306 to R308): `frame` is the Ethernet frame with its FCS. On a path that is down it is lost; a wake frame is an active wake source; in DEEP, or while the network block has no clock, every other frame is discarded. -/
def execFrameReceive (x : Path) (frame : List Byte) (s : State) : Host.Outcome State Fault Refusal :=
  .next (
    let n := pathNo x
    let s1 := if s.wakeFrame n frame then s.wakeBy (match x with | .a => .pathA | .b => .pathB) else s
    if s.pathAwake n ∧ s.netOn then s1.frameArrives n frame else s1)

/-- LPO_TIMER_EXPIRY (R308): PWR.LPOTMR reaches 0, raises EV81, stops, and is an active wake source. A stopped timer does nothing. -/
def execLpoTimerExpiry (s : State) : Host.Outcome State Fault Refusal :=
  .next (if s.reg regPWR_LPOTMR ≠ 0 then ((s.setReg regPWR_LPOTMR 0).awakeEvent 81 0).wakeBy .lpo else s)

/-! ## Train lines (R312, R313) -/

/-- TRAIN_LINE_INPUT_CHANGE (R308, R312): a new level of an input is taken: STATE, CHG, and EV80 with the eight states; the change is an active wake source. The level already taken changes nothing. -/
def execTrainLineInputChange (i : Fin 8) (level : Bool) (s : State) : Host.Outcome State Fault Refusal :=
  .next (
    if s.rbit regHVIO_TLSTAT i.val = level then s
    else
      let s1 := (s.putRbit regHVIO_TLSTAT i.val level).setRbit regHVIO_TLSTAT (8 + i.val)
      (s1.awakeEvent 80 (BitVec.ofNat 32 (s1.rfld regHVIO_TLSTAT 0 8))).wakeBy (.tl i))

/-- Both outputs are held open: no power, reset, LIMP, DEEP, no image, or standby in a pair (R313, R327). -/
def State.toForced (s : State) : Bool :=
  !s.railsUp || decide (s.supState = 0) || decide (s.supState = 4) || decide (s.bootStage = 7) || s.standby

/-- Output j is closed (R313). -/
def State.toClosed (s : State) (j : Nat) : Bool := s.rbit regHVIO_TOCTRL j && !s.toForced && !s.toOpen.contains j

/-- TRAIN_LINE_OUTPUT_WRITE (R313, R317): ON takes the written value; ON from 0 to 1 ends the opening of an overcurrent. -/
def execTrainLineOutputWrite (_m : Master) (v : Word) (s : State) : Host.Outcome State Fault Refusal :=
  .next ({ s.setReg regHVIO_TOCTRL (v &&& 3#32) with toOpen := s.toOpen.filter fun j => s.rbit regHVIO_TOCTRL j || !bit v j } : State)

/-- TRAIN_LINE_OVERCURRENT (R313): a closed output opens: OC and source 52. An open output carries no current: nothing happens. -/
def execTrainLineOvercurrent (j : Fin 2) (s : State) : Host.Outcome State Fault Refusal :=
  .next (
    if s.toClosed j.val then (({ s with toOpen := s.toOpen ++ [j.val] } : State).setRbit regHVIO_TOSTAT (4 + j.val)).faultOccurs 52 else s)

/-- CURRENT_LIMIT_SHUTDOWN (R388): an auxiliary rail is off until the next module reset; without V1P8_FL the boot flash cannot be read. -/
def execCurrentLimitShutdown (rail : AuxRail) (s : State) : Host.Outcome State Fault Refusal :=
  .next (
    let k := match rail with | .v3p3 => 0 | .v1p8 => 1
    if s.railsOff.contains k then s else { s with railsOff := s.railsOff ++ [k] })

end Sys2Proof.Machine
end

