-- ==== Sys2Proof/Machine/Connect.lean ====
section
/-! DEFINITION. The partner table (R269) and the connection rules (R270). -/

namespace Sys2Proof.Machine

/-! ## The partner table (R269) -/

/-- The address of word `w` of partner entry `p`. -/
def partnerAddr (p w : Nat) : Nat := 0x01A30000 + 32 * p + 4 * w

/-- VALID of a partner entry. -/
def State.partnerValid (s : State) (p : Nat) : Bool := bit (s.tabGet (partnerAddr p 0)) 31

/-- A partner table word is written; a change of VALID raises EV63 with the entry (R269). -/
def State.partnerSet (s : State) (p w : Nat) (v : Word) : State :=
  let s1 := s.tabSet (partnerAddr p w) v
  if w = 0 ∧ bit v 31 ≠ s.partnerValid p then s1.raiseEvent 63 (BitVec.ofNat 32 p) else s1

/-- The Course that runs GV_DELRON, which no rule fixes (log entry 2). -/
def State.delronMaster (s : State) : Master × State := let r := s.draw; (fin 12 (r.1.toNat % 8), r.2)

/-! ## Connection rules (R270) -/

/-- Word `w` of a connection rule. -/
def State.connRule (s : State) (u w : Nat) : Word := s.tabGet (0x01A50000 + 16 * u + 4 * w)

/-- RXFLOW of a rule. -/
def State.ruleFlow (s : State) (u : Nat) : Nat := fld (s.connRule u 0) 0 8

/-- A rule matches a record of a partner (R270). -/
def State.connMatches (s : State) (u p : Nat) (fr : FlowRec) : Bool :=
  let w := s.connRule u 0
  bit w 31 && s.partnerValid p && decide (fr.tag.toNat = fld w 16 8)
    && (decide (fld w 8 8 = 0xFF) || decide (fld w 8 8 = fld (s.tabGet (partnerAddr p 0)) 0 8))

/-- The records of a partner's last ANNOUNCE. -/
def State.flowsOf (s : State) (p : Nat) : List FlowRec := (mapFind s.partnerFlows p).getD []

/-- Words 1 to 7 of RXFLOW for a rule and a record (R270). -/
def State.connWords (s : State) (u : Nat) (fr : FlowRec) : List Word :=
  let r0 := s.connRule u 0
  let r1 := s.connRule u 1
  let r2 := s.connRule u 2
  let f := fr.fmt.toNat
  let aaf := decide (2 ≤ f / 64)
  [BitVec.ofNat 32 (0x80000000 + fld r0 29 2 * 2 ^ 29 + fld r2 28 2 * 2 ^ 27 + f / 32 % 2 * 2 ^ 26 + f / 64 * 2 ^ 24 + f / 4 % 8 * 2 ^ 21
      + fr.nch.toNat % 64 * 2 ^ 10 + fld r2 0 10),
   fr.addr,
   if aaf then fr.w8 else BitVec.ofNat 32 (fld fr.w8 16 16 * 65536 + fld fr.w8 8 7),
   0,
   if aaf then 0 else fr.w12,
   r1 &&& 0xFFFF1FFF#32,
   0]

/-- A unit that is not active follows the rules but stages nothing (R270). -/
def State.connActive (s : State) : Bool := !s.standby && !s.pegClosed

/-- The active unit stages words of RXFLOW through the Peg queue and commits its group NEXT (R173, R270). -/
def State.connStage (s : State) (f : Nat) (a : Nat) (ws : List Word) : State :=
  if s.connActive then
    let m := s.delronMaster
    let put (t : State) (h : Nat) (vs : List Word) : State :=
      vs.foldl (fun (t : State) v => t.pegData m.1.val v) (t.pegHeader m.1.val (BitVec.ofNat 32 h))
    let g := fld (m.2.tabGet (flowAddr 0 f 0)) 16 5
    put (put m.2 (0x10000000 + (ws.length + 1) * 65536) (BitVec.ofNat 32 a :: ws)) 0x20010000 [oneHot g]
  else s

/-- RXFLOW is taken out of use: EN = 0 is staged and committed (R270). -/
def State.connDrop (s : State) (f : Nat) : State :=
  s.connStage f (flowAddr 0 f 1) [s.tabGet (flowAddr 0 f 1) &&& 0x7FFFFFFF#32]

/-- A rule's hold after an announcement: kept, changed with its record, or given up (R270). -/
def State.connKeep (s : State) (c : Conn) : State :=
  let f := s.ruleFlow c.rule
  let rest := s.conns.filter fun d => d != c
  match (s.flowsOf c.partner).find? fun r => decide (r.num = c.fr.num) && s.connMatches c.rule c.partner r with
  | some r =>
    if r = c.fr then s
    else ({ s with conns := rest ++ [{ c with fr := r }] } : State).connStage f (flowAddr 0 f 1) (s.connWords c.rule r)
  | none => ({ s with conns := rest } : State).connDrop f

/-- The first match of a rule: the partner with the lowest entry number (R270). -/
def State.connFind (s : State) (u : Nat) : Option (Nat × FlowRec) :=
  (List.range 512).findSome? fun p => ((s.flowsOf p).find? fun r => s.connMatches u p r).map fun r => (p, r)

/-- A rule without a hold takes its first match while RXFLOW is disabled and no other rule holds it (R270). -/
def State.connMake (s : State) (u : Nat) : State :=
  let f := s.ruleFlow u
  if !bit (s.connRule u 0) 31 || bit (s.tabGet (flowAddr 0 f 1)) 31 || s.conns.any fun c => decide (s.ruleFlow c.rule = f) then s
  else match s.connFind u with
    | none => s
    | some (p, r) =>
      ({ s with conns := s.conns ++ [{ rule := u, partner := p, fr := r }] } : State).connStage f (flowAddr 0 f 1) (s.connWords u r)

/-- What GV_DELRON does after a change of the partners, once frames run; a standby keeps the same holds, for the flows come to it from the active (R270; DEDUCED, log entry 62). -/
def State.connect (s : State) : State :=
  if s.ticking then (List.range 256).foldl State.connMake (s.conns.foldl State.connKeep s) else s

end Sys2Proof.Machine
end

