-- ==== Sys2Proof/Machine/Tables.lean ====
section
/-! DEFINITION. The coefficient and table region (R18, R19): the kind and the state bits of every table word, direct writes (R78, R138, R168, R269), and reads of tables. -/

namespace Sys2Proof.Machine

/-- How a table word is written (R138): through the Peg queue, at boot only, by hardware only, or directly. -/
inductive TabKind where
  | shadow
  | boot
  | readOnly
  | direct
deriving DecidableEq, Repr

/-- The kind of a table word, with the bits that hold state where the word is not shadowed. -/
abbrev TabWord := TabKind × Word

/-- The ARG bits that an origin class of the feed map uses (R139). -/
def feedArg (origin : Nat) : Word :=
  match origin with
  | 1 => 0x1F#32
  | 3 => 0x3F#32
  | 4 => 0x1F#32
  | 5 => 0x7F#32
  | _ => 0#32

/-- A boot-only word as it is loaded: of the feed map, the class and the ARG bits that it uses (R13, R139). -/
def bootTrim (a : Nat) (v : Word) : Word :=
  if 0x01110000 ≤ a ∧ a < 0x01110200 then v &&& (0xF0000000#32 ||| feedArg (fld v 28 4)) else v

/-- Words of the matrix, the equaliser array and the meters (R139 to R162). -/
def tabMix (a : Nat) : Option TabWord :=
  if a < 0x01100000 then
    some (match a % 16 with | 0 => (.boot, 0x000003FF#32) | 12 => (.boot, 0#32) | _ => (.shadow, 0#32))
  else if a < 0x01108000 then some (if a % 8 = 0 then (.boot, 0x000003FF#32) else (.shadow, 0#32))
  else if 0x01110000 ≤ a ∧ a < 0x01110200 then some (.boot, 0xF00000FF#32)
  else if 0x01120000 ≤ a ∧ a < 0x01121000 then some (.boot, 0x00001F07#32)
  else if 0x01200000 ≤ a ∧ a < 0x01280000 then some (if a % 32 < 20 then (.shadow, 0#32) else (.boot, 0#32))
  else if 0x01280000 ≤ a ∧ a < 0x01284000 then some (.boot, if a % 8 = 0 then 0x9F3FFFFF#32 else 0x000003FF#32)
  else if 0x01300000 ≤ a ∧ a < 0x01310000 then some (.shadow, 0#32)
  else if 0x01310000 ≤ a ∧ a < 0x01320000 then some (.readOnly, 0#32)
  else none

/-- Words of the pages, the templates, the ASRC table and the output selectors (R171, R200, R229, R237). -/
def tabMid (a : Nat) : Option TabWord :=
  if 0x01400000 ≤ a ∧ a < 0x01440000 then some (.shadow, 0#32)
  else if 0x01800000 ≤ a ∧ a < 0x01801000 then
    some (.boot, match a % 16 with | 0 => 0xFC3F3FFF#32 | 4 => 0x00FF00FF#32 | 8 => 0xFFFFFFFF#32 | _ => 0#32)
  else if 0x01900000 ≤ a ∧ a < 0x01902000 then
    some (match a % 16 with | 0 => (.boot, 0xF01F03FF#32) | 12 => (.boot, 0#32) | _ => (.shadow, 0#32))
  else if 0x01910000 ≤ a ∧ a < 0x01910800 then some (.shadow, 0#32)
  else none

/-- Words of the network tables, the flash buffer and the message window (R247, R255, R263, R269, R270, R339, R341). -/
def tabNet (a : Nat) : Option TabWord :=
  if 0x01A00000 ≤ a ∧ a < 0x01A02000 ∨ 0x01A10000 ≤ a ∧ a < 0x01A12000 then
    some (if a % 32 = 0 then (.boot, 0x001F0000#32) else (.shadow, 0#32))
  else if 0x01A20000 ≤ a ∧ a < 0x01A21000 then some (.shadow, 0#32)
  else if 0x01A30000 ≤ a ∧ a < 0x01A34000 then
    some (.direct, match a % 32 with | 0 => 0xFC00FFFF#32 | 24 => 0x0000FFFF#32 | _ => 0xFFFFFFFF#32)
  else if 0x01A40000 ≤ a ∧ a < 0x01A40200 then some (.direct, if a % 8 = 0 then 0xFC1FFFFF#32 else 0#32)
  else if 0x01A50000 ≤ a ∧ a < 0x01A51000 then
    some (.boot, match a % 16 with | 0 => 0xE0FFFFFF#32 | 4 => 0xFFFF1FFF#32 | 8 => 0x300003FF#32 | _ => 0#32)
  else if 0x01A60000 ≤ a ∧ a < 0x01A62000 then some (.readOnly, 0#32)
  else if 0x01B00000 ≤ a ∧ a < 0x01B00100 ∨ 0x01B10000 ≤ a ∧ a < 0x01B12000 then some (.direct, 0xFFFFFFFF#32)
  else none

/-- The table word at a byte address of the windows behind the block table port, but for the delay tables; none where nothing is mapped (R19). -/
def tabWord (a : Nat) : Option TabWord :=
  if a % 4 ≠ 0 ∨ a < 0x01000000 then none
  else if a < 0x01400000 then tabMix a
  else if a < 0x01A00000 then tabMid a
  else tabNet a

/-- The HOSTREF bit of the block that owns a table word or a shadowed register (R120, R138, R168, R200, R239, R247); none for the selectors and masks of ports and transmitters, whose blocks have no such bit. -/
def hostRefBit (a : Nat) : Option (Nat × Nat) :=
  if 0x50100 ≤ a ∧ a < 0x50180 then some (regPEG_STATUS, 31)
  else if a < 0x01000000 then none
  else if a < 0x01200000 then some (regMIX_STATUS, 31)
  else if a < 0x01300000 then some (regEQ_STATUS, 31)
  else if a < 0x01400000 then some (regMTR_STATUS, 31)
  else if a < 0x01800000 then some (regPEG_STATUS, 31)
  else if a < 0x01900000 then some (regEVT_STATUS, 31)
  else if a < 0x01910000 then some (regASRC_STATUS, 31)
  else if a < 0x01A00000 then none
  else if a < 0x01B00000 then some (regNET_STATUS, 27)
  else if 0x07000000 ≤ a then some (regDLY_STATUS, 31)
  else none

/-- An ignored direct write is recorded. -/
def State.hostRef (s : State) (a : Nat) : State :=
  match hostRefBit a with
  | some (r, b) => s.setRbit r b
  | none => s

/-- BOOT_ONLY_WORD_WRITE (R138, R200, R247, R270): a direct write to a boot-only or read-only word is ignored and sets the HOSTREF of its block. Any other address is none of these words: nothing happens. -/
def execBootOnlyWordWrite (_m : Master) (a _v : Word) (s : State) : Host.Outcome State Fault Refusal :=
  .next (match tabWord a.toNat with
    | some (.boot, _) => s.hostRef a.toNat
    | some (.readOnly, _) => s.hostRef a.toNat
    | _ => s)

/-- SHADOWED_WORD_DIRECT_WRITE (R120, R138, R168): a direct write to a shadowed word is ignored and sets the HOSTREF of its block. Any other address is no shadowed word: nothing happens. -/
def execShadowedWordDirectWrite (_m : Master) (a _v : Word) (s : State) : Host.Outcome State Fault Refusal :=
  .next (if (s.shadowed a.toNat).isSome then s.hostRef a.toNat else s)

/-! ## The partner table (R269) -/

/-- PARTNER_TABLE_WRITE (R269, R270): a word of the partner table takes the value; a change of VALID raises EV63. An entry that loses VALID has no records any more, and the connection rules follow every write of word 0. Another address is no word of the table: nothing happens. -/
def execPartnerTableWrite (_m : Master) (a v : Word) (s : State) : Host.Outcome State Fault Refusal :=
  .next (
    if 0x01A30000 ≤ a.toNat ∧ a.toNat < 0x01A34000 ∧ a.toNat % 4 = 0 then
      let o := a.toNat - 0x01A30000
      let s1 := s.partnerSet (o / 32) (o % 32 / 4) (v &&& match tabWord a.toNat with | some t => t.2 | none => 0#32)
      let s2 : State := if s1.partnerValid (o / 32) then s1 else { s1 with partnerFlows := mapDel s1.partnerFlows (o / 32) }
      if o % 32 = 0 then s2.connect else s2
    else s)

/-! ## The Course memory windows (R78, R332) -/

/-- A word of a Course window: Course, program or data memory, and its index (R78). -/
def courseWindow (a : Nat) : Option (CourseId × Bool × Nat) :=
  if 0x02000000 ≤ a ∧ a < 0x02400000 ∧ a % 4 = 0 then
    let n := fin 7 ((a - 0x02000000) / 0x80000)
    let o := a % 0x80000
    if o < 0x10000 then some (n, true, o / 4) else if 0x40000 ≤ o then some (n, false, (o - 0x40000) / 4) else none
  else none

/-- A word of a Course memory takes a value. -/
def State.courseSet (s : State) (n : CourseId) (prog : Bool) (w : Nat) (v : Word) : State :=
  s.modCourse n fun c => if prog then { c with pmem := memSetWord c.pmem w v } else { c with lmem := memSetWord c.lmem w v }

/-- COURSE_MEMORY_WINDOW_WRITE (R78, R332): the host writes a word of a Course memory: program memory and the foreground region only while the Course is halted, else HOSTREF; under the debug lock, and outside the windows, it is an unmapped access; another master has no path, and its access is refused (R130). -/
def execCourseMemoryWindowWrite (m : Master) (a v : Word) (s : State) : Host.Outcome State Fault Refusal :=
  .next (
    if m.val ≠ 10 then s.pathless m a.toNat true
    else if s.debugLock then s.unmapped
    else match courseWindow a.toNat with
      | none => s.unmapped
      | some (n, prog, w) =>
        if (prog || decide (w < s.fgWords n)) && !(s.course n).isHalted then s.setRbit (regC_STATUS n.val) 20
        else s.courseSet n prog w v)

/-- A word of a Course memory as the host reads it; its checker reads the unit (R78, R369). -/
def State.courseGet (s : State) (n : CourseId) (prog : Bool) (w : Nat) : Word × State :=
  (memWord (if prog then (s.course n).pmem else (s.course n).lmem) w, s.memRead (if prog then n.val else 8 + n.val) w)

/-! ## Reads of tables -/

/-- The checker of a table word reads its unit (R369). -/
def State.tabChecked (s : State) (a : Nat) : State :=
  if a < 0x01121000 then s.memRead 18 a
  else if 0x01200000 ≤ a ∧ a < 0x01280000 then s.memRead 19 ((a - 0x01200000) / 32 * 16 + a % 32 / 4)
  else if 0x01800000 ≤ a ∧ a < 0x01801000 then s.memRead 20 ((a - 0x01800000) / 4)
  else s

/-- A table word as master `m` reads it: readings with their latch (R162), status entries (R255), the active copy of any other (R168). -/
def State.tabRead (s : State) (m a : Nat) : Word × State :=
  if 0x01310000 ≤ a ∧ a < 0x01320000 then
    let p := (a - 0x01310000) / 16
    if a % 16 = 0 then
      let t := [1, 2, 3].foldl (fun (t : State) w => t.setLatch m (readingAddr p w) (s.meterWord p w)) s
      (s.meterWord p 0, t)
    else (s.latched m a, s)
  else if 0x01A60000 ≤ a ∧ a < 0x01A62000 then
    (s.flowStatus ((a - 0x01A60000) / 0x1000) ((a % 0x1000) / 16) (a % 16 / 4), s)
  else (s.tabGet a, s.tabChecked a)

end Sys2Proof.Machine
end

