-- ==== Sys2Proof/Machine/Live.lean ====
section
/-! DEFINITION. What a register reads as: its stored bits, the RO fields that show the state of a block at the instant of the read, and the fields whose values the spec leaves to time (R12, R34, R77, R129, R136, R164 to R166, R191, R209, R236, R239, R297, R317, R343, R360, R378). -/

namespace Sys2Proof.Machine

/-- Some bits of a register that show state: their mask and value. -/
abbrev LiveBits := Word × Word

/-- A live field of `len` bits at bit `lo`. -/
def liveFld (lo len v : Nat) : LiveBits := (fmask lo len, BitVec.ofNat 32 (v % 2 ^ len * 2 ^ lo))

/-- Two live fields of one register. -/
def liveBoth (a b : LiveBits) : LiveBits := (a.1 ||| b.1, a.2 ||| b.2)

/-- Cn.STATUS.STATE codes (R77). -/
def phaseCode : Phase → Nat
  | .entry => 0
  | .fore => 1
  | .back => 2
  | .sleep => 3
  | .halted => 4
  | .reset => 5

/-- Live fields of the Course registers (R77). -/
def State.liveCourse (s : State) (n : CourseId) (o : Nat) : Option LiveBits :=
  let c := s.course n
  match o with
  | 0x4 => some (liveBoth (liveFld 0 3 (phaseCode c.phase))
      (liveBoth (liveFld 9 1 (b2n (c.task.isSome && decide (c.phase ≠ .back)))) (liveFld 10 1 (b2n c.isHalted))))
  | 0x30 => some (liveBoth (liveFld 0 14 c.fg.pc.toNat) (liveFld 16 14 c.bg.pc.toNat))
  | 0x34 => some (liveBoth (liveFld 31 1 (b2n c.task.isSome)) (liveFld 0 16 (match c.task with | some t => t.tag | none => 0)))
  | _ => none

/-- Bits set for the numbers below `n` that satisfy `p`. -/
def bitsWhere (n : Nat) (p : Nat → Bool) : Nat := ((List.range n).map fun i => if p i then 2 ^ i else 0).sum

/-- The ready instances of a priority (R209). -/
def State.readyAt (s : State) (p : Nat) : Nat :=
  (s.store.filter fun e => e.ready.isSome && decide (s.tmplPri e.tmplNo = p)).length

/-- Live fields of the scheduler registers (R209). -/
def State.liveEvt (s : State) (a : Nat) : Option LiveBits :=
  if a = regEVT_STATUS then some (liveFld 0 11 s.store.length)
  else if a = regEVT_DOMBUSY_LO then some (liveFld 0 32 (bitsWhere 32 s.domainBusy))
  else if a = regEVT_DOMBUSY_HI then some (liveFld 0 32 (bitsWhere 32 fun i => s.domainBusy (32 + i)))
  else if a = regEVT_INTSTAT then some (liveFld 0 4 (bitsWhere 4 s.intPin))
  else if 0x40020 ≤ a ∧ a < 0x40040 then some (liveFld 0 11 (s.readyAt ((a - 0x40020) / 4)))
  else none

/-- Live fields of the Peg registers (R174, R177, R180, R188, R191). -/
def State.livePeg (s : State) (a : Nat) : Option LiveBits :=
  if a = regPEG_QFREE then some (liveFld 0 12 s.pegFree)
  else if a = regPEG_STATUS then some (liveFld 0 2 (b2n s.pegLoading + 2 * b2n s.pegStall))
  else if a = regPEG_SEALED then some (liveFld 0 32 s.sealed.toNat)
  else if a = regPEG_PENDING then some (liveFld 0 5 s.commits.length)
  else none

/-- Live fields of the MIX, EQ, DLY and ASRC registers (R129, R164, R165, R239). -/
def State.liveMix (s : State) (a : Nat) : Option LiveBits :=
  if a = regMIX_STATUS then
    some (liveBoth (liveFld 28 1 (b2n ((s.xents.any fun e => e.2.waiting.isSome) || s.sels.any fun e => e.2.waiting.isSome))) (liveFld 0 14 (s.mixExtra s.now)))
  else if a = regMIX_SELECTORS then some (liveFld 0 12 (s.selExtra s.now))
  else if a = regEQ_STATUS then
    some (liveBoth (liveFld 28 1 (b2n (s.secs.any fun e => e.2.waiting.isSome))) (liveFld 0 12 (s.secExtra s.now)))
  else if a = regDLY_STATUS then
    some (liveBoth (liveFld 29 1 (b2n (s.taps.any fun e => e.2.waiting.isSome))) (liveFld 0 13 (s.tapExtra s.now)))
  else if a = regASRC_STATUS then some (liveFld 0 10 ((List.range 512).filter s.asrcLocked).length)
  else none

/-- Active slots of a port with `n` slots: those whose level is above 0 after the step of the current frame towards the mask; bits at or above the slot count are ignored (R220 to R222). -/
def activeSlots (n : Nat) (mask : Word) (lev : List Nat) : Nat :=
  ((List.range n).filter fun i => decide (0 < stepTo (nthD lev i 0) (if bit mask i then 64 else 0))).length

/-- Live fields of TDM.STATn: the input mask in force is that of the capture of the current frame (R220, R222, R236). -/
def State.livePort (s : State) (p : Fin 16) : LiveBits :=
  let q := s.port p
  liveBoth (liveFld 31 1 (b2n (s.portValid p)))
    (liveBoth (liveFld 16 6 (activeSlots (cfgSlots q.cfg) (s.tabGet (regTDM_MASKOUT p.val)) q.levOut)) (liveFld 8 6 (activeSlots (cfgSlots q.cfg) q.inMask q.levIn)))

/-- Live fields of TDM.RATEn of a working master: its TDM frames end at OFFSET, at Fi (R212, R213, R236). -/
def State.liveRate (s : State) (p : Fin 16) : Option LiveBits :=
  if s.portOn p && cfgMaster (s.port p).cfg then some (liveBoth (liveFld 21 11 (s.port p).offset) (liveFld 0 18 s.fi)) else none

/-- The run length N of R355. -/
def State.pairNeed (s : State) : Nat :=
  let lmax := (courseIds.flatMap fun n => ((List.range (s.declLines n)).filter fun l => s.lineOn n.val l).map fun l => s.lineLen n.val l).foldl Nat.max 0
  let words := 16384 * 16 + (courseIds.map fun n => 128 + s.fgWords n).sum + 4096 * 32
  Nat.max 4096 (Nat.max (lmax + 1) (2 * ((words + 1023) / 1024)))

/-- Live fields of the BOOT, SNAP, HVIO, PAIR and REF registers (R297, R317, R339, R343, R360, R378). -/
def State.liveBoot (s : State) (a : Nat) : Option LiveBits :=
  if a = regBOOT_STATUS then some (liveBoth (liveFld 8 3 s.hostQ) (liveFld 0 1 (b2n (decide (s.tabGet 0x01B10000 ≠ 0)))))
  else if a = regSNAP_STATUS then some (liveFld 29 1 (b2n (decide (s.snap.pend ≠ 0))))
  else if a = regHVIO_TOSTAT then some (liveFld 0 4 (bitsWhere 2 s.toClosed + 4 * (if s.toForced then 3 else 0)))
  else if a = regPAIR_NEED then some (liveFld 0 32 s.pairNeed)
  else if a = regREF_PHERR ∧ s.refSel = none then some (liveFld 0 32 0)
  else none

/-- The live fields of the register at a byte address. -/
def State.live (s : State) (a : Nat) : Option LiveBits :=
  if a = regGLOBAL_FC_LO then some (liveFld 0 32 s.now)
  else if a = regGLOBAL_PIPE_STAT then some (liveFld 0 8 (bitsWhere 8 fun i => s.backlog (fin 7 i)))
  else
    let w := a / 0x10000
    if w = 4 then s.liveEvt a
    else if w = 5 then s.livePeg a
    else if w = 10 ∧ a % 64 = 28 then s.liveRate (fin 15 ((a - 0xA0000) / 64))
    else if w = 10 ∧ a % 64 = 16 then some (s.livePort (fin 15 ((a - 0xA0000) / 64)))
    else if 32 ≤ w ∧ w ≤ 39 then s.liveCourse (fin 7 (w - 32)) (a % 0x10000)
    else if w = 6 ∨ w = 7 ∨ w = 9 ∨ w = 17 then s.liveMix a
    else s.liveBoot a

/-- The fields of a register that only time or the hardware decides at the instant of the read: the phase error of a running loop, a timer's count, the waiting cycles of a master that has reached a scratch bank since they were last read (R117), the bulk voltage (R310), the rate that a channel in measured ratio mode tracks (R232), the phase of a port, whether the forwarding buffer is full (R236, R285, R297, R356; log entry 2). -/
def State.openBits (s : State) (a : Nat) : Word :=
  if a = regREF_PHERR then (if s.refLoop then 0xFFFFFFFF#32 else 0)
  else if a = regPEG_STATUS then (if s.forwards && !s.pegQueue.isEmpty && !s.pegStall then 2#32 else 0)
  else if inArr a 0x100200 4 13 then (if s.scrUsed.contains ((a - 0x100200) / 4) then 0xFFFFFFFF#32 else 0)
  else if a = regPWR_STATUS then (if s.railsUp then 0x000003FF#32 else 0)
  else if inArr a 0x90400 4 512 then (if s.asrcLocked ((a - 0x90400) / 4) && decide (s.asrcMode ((a - 0x90400) / 4) = 0) then 0x0003FFFF#32 else 0)
  else if 0xA0000 ≤ a ∧ a < 0xA0400 ∧ a % 64 = 28 then
    (if s.portSlave (fin 15 ((a - 0xA0000) / 64)) && s.portValid (fin 15 ((a - 0xA0000) / 64)) then 0xFFE00000#32 else 0)
  else 0

/-- The control word that a running loop has reached: some word of its range (R285, R292; log entry 2). -/
def State.openDco (s : State) : Word × State :=
  let r := s.draw
  (ofInt ((r.1.toNat % 1000000001 : Nat) - 500000000), r.2)

/-- Some number below `n`: the progress of a running test in percent (R376, R377), or what is left of a running timer (R308; log entry 2). -/
def State.openBelow (s : State) (n : Nat) : Word × State := let r := s.draw; (BitVec.ofNat 32 (r.1.toNat % n), r.2)

/-- What a read of a register returns, before any side effect: WO fields read zero, shadowed fields the active copy (R12, R168). -/
def State.regValue (s : State) (a : Nat) : Word × State :=
  if a = regREF_DCO ∧ s.refLoop then s.openDco
  else if a = regFAULT_TESTSTAT ∧ s.rbit a 31 then let r := s.openBelow 101; (merge (s.reg a) 0x000000FF#32 r.1, r.2)
  else if a = regPWR_LPOTMR ∧ s.reg a ≠ 0 then s.openBelow ((s.reg a).toNat + 1)
  else
  let stored := if shadowBits a ≠ 0 then s.tabGet a else s.reg a
  let v := match s.live a with | some l => merge stored l.1 l.2 | none => stored
  let o := s.openBits a
  if o = 0 then (v, s) else let r := s.draw; (merge v o r.1, r.2)

end Sys2Proof.Machine
end

