-- ==== Sys2Proof/Machine/Fault.lean ====
section
/-! DEFINITION. Faults as software handles them (R365 to R368), injection (R370), snapshots (R372 to R374), and self-test (R375, R376). -/

namespace Sys2Proof.Machine

/-! ## Latches and the first-fault record (R365, R367, R377) -/

/-- FAULT_LATCH_CLEAR (R365): the written latch bits clear; whether a level cause raises a source again, and the end of the reactions, is found at the next frame tick. -/
def execFaultLatchClear (_m : Master) (k : Fin 8) (v : Word) (s : State) : Host.Outcome State Fault Refusal :=
  .next (s.setReg (regFAULT_LATCH k.val) (s.reg (regFAULT_LATCH k.val) &&& ~~~v))

/-- The one holding register of a counter or record that is not latched for each master (R15, R377). -/
def holdMaster : Nat := 31

/-- The words of the first-fault record that a read of FFR0 latches (R377). -/
def ffrRest : List Nat := [regFAULT_FFR1 0, regFAULT_FFR1 1, regFAULT_FFR1 2, regFAULT_FFDET, regFAULT_FFSYN]

/-- FIRST_FAULT_ACK (R367): the whole record clears, so that its words read zero. -/
def execFirstFaultAck (_m : Master) (s : State) : Host.Outcome State Fault Refusal :=
  .next (ffrRest.foldl (fun (t : State) a => (t.setReg a 0).setLatch holdMaster a 0) (s.setReg regFAULT_FFR0 0))

/-- FFR0_READ (R377): FFR0 is returned, and the rest of the record is latched. -/
def execFfr0Read (m : Master) (s : State) : Host.Outcome State Fault Refusal :=
  .next ((ffrRest.foldl (fun (t : State) a => t.setLatch holdMaster a (s.reg a)) s).returnTo m.val (s.reg regFAULT_FFR0))

/-! ## Injection (R370) -/

/-- INJECTION_ARM (R370): FAULT.INJCTRL takes the written value; while armed, a write that changes CHECKER is ignored unless it writes ARM = 0. A reserved checker raises EV5 (R13). -/
def execInjectionArm (_m : Master) (v : Word) (s : State) : Host.Outcome State Fault Refusal :=
  .next (
    let old := s.reg regFAULT_INJCTRL
    if bit old 31 && bit v 31 && decide (fld v 16 5 ≠ fld old 16 5) then s else s.regStore regFAULT_INJCTRL v)

/-! ## Snapshots (R372 to R374) -/

/-- A write of SNAP.CTRL: the settings take the value, and TRIG triggers (R372, R378). -/
def State.snapWrite (s : State) (v : Word) : State :=
  let s1 := s.regStore regSNAP_CTRL v
  if bit v 31 then s1.snapTrigger 1 else s1

/-- TRIG (R372): a write of SNAP.CTRL whose TRIG is 1 triggers a snapshot at the next tick. -/
def execTrig (_m : Master) (v : Word) (s : State) : Host.Outcome State Fault Refusal := .next (s.snapWrite v)

/-- SNAP_IN_EDGE (R372): with PINEN = 1, an edge of the polarity of TIME.CAPCFG3.EDGE triggers a snapshot at the next tick. -/
def execSnapInEdge (falling : Bool) (s : State) : Host.Outcome State Fault Refusal :=
  .next (if s.rbit regSNAP_CTRL 0 && s.rbit (regTIME_CAPCFG 3) 30 == falling then s.snapTrigger 2 else s)

/-- The registers that a snapshot copies, in word order from word 2; a word with no register is none (R373). -/
def snapRegs : List (Option Nat) :=
  [some regGLOBAL_PIPE_STAT] ++ ((List.range 8).map fun n => some (regC_PC n)) ++ ((List.range 8).map fun n => some (regC_CYCLES n))
    ++ ((List.range 8).map fun n => some (regC_STALL_LAST n))
    ++ [some regMIX_STATUS, some regEQ_STATUS, some regDLY_STATUS, some regPEG_STATUS, some regPEG_TICKET, some regEVT_STATUS,
        some regREF_STATE, some regREF_PHERR, some regREF_DCO]
    ++ ((List.range 4).map fun t => some (regTIME_TICKERR t)) ++ [none, none, some regPAIR_STATUS, some regPAIR_SKEW, some regCLK_STATUS, some regPWR_STATUS]
    ++ ((List.range 16).map fun p => some (regTDM_STAT p)) ++ [some regFAULT_FFR0, some regFAULT_COUNT]

/-- The word that a snapshot takes of a register: none reads as zero here (R373). -/
def State.snapWord (s : State) (src : Option Nat) : Word × State :=
  match src with
  | none => (0, s)
  | some a => s.regValue a

/-- The 64 words of a snapshot at this tick, in order (R373). -/
def State.snapWords (s : State) : List Word × State :=
  let t := s.tb0Words
  let r := snapRegs.foldl (fun (acc : List Word × State) src => let w := acc.2.snapWord src; (acc.1 ++ [w.1], w.2)) ([], t.2)
  (([lo32 s.fc, hi32 s.fc] ++ r.1).zipIdx.map fun e => if e.2 = 40 then t.1.1 else if e.2 = 41 then t.1.2 else e.1, r.2)

/-- The words of a snapshot stand in SNAP.D0 to SNAP.D63 (R373). -/
def State.snapStore (s : State) (ws : List Word) : State :=
  ws.zipIdx.foldl (fun (t : State) e => t.setReg (regSNAP_D e.2) e.1) s

/-- The snapshot that a tick has taken is stored: CAUSE shows its triggers, NEW is set and EV7 occurs with the frame; a held snapshot is overwritten with OVR, or under LOCK the new one is dropped and counted (R372 to R374). -/
def State.snapDone (s : State) : State :=
  match s.snap.held with
  | none => s
  | some h =>
    let s1 : State := { s with snap := { s.snap with held := none } }
    let held := s.rbit regSNAP_STATUS 31
    if held && s.rbit regSNAP_CTRL 5 then s1.count regSNAP_DROP_CNT 1
    else
      let s2 := ((s1.snapStore h.2).setRfld regSNAP_STATUS 0 3 h.1).setRbit regSNAP_STATUS 31
      (if held then s2.setRbit regSNAP_STATUS 30 else s2).raiseEvent 7 (nthD h.2 0 0)

/-- The first tick after the triggers `pend` takes the words of the snapshot (R372, R373). -/
def State.snapTick (s : State) (pend : Nat) : State :=
  if pend = 0 then s else let r := s.snapWords; { r.2 with snap := { r.2.snap with held := some (pend, r.1) } }

/-- SNAPSHOT_TAKE (R372 to R374): the snapshot that the last tick has taken is stored or dropped. While none waits nothing happens. -/
def execSnapshotTake (s : State) : Host.Outcome State Fault Refusal := .next s.snapDone

/-! ## Self-test (R375, R376) -/

/-- The test word of R375. -/
def testWord (test target result : Nat) : Word := BitVec.ofNat 32 (test % 256 * 2 ^ 24 + target % 256 * 2 ^ 16 + result % 4)

/-- A unit is armed for injection (R370). -/
def State.armedUnit (s : State) (k : Nat) (u : Word) : Bool :=
  let c := s.reg regFAULT_INJCTRL
  bit c 31 && decide ((if fld c 16 5 > 21 then 0 else fld c 16 5) = k) && decide (s.reg regFAULT_INJADDR = u)

/-- An error that a scrub finds: the checker, the unit, the syndrome, and whether it cannot be corrected; the armed unit is skipped, and any error of the armed checker carries INJ (R369 to R371, R375). -/
def State.scrubError (s : State) (dram : Bool) (e : Fin 22 × Word × Byte × Bool) : State :=
  let k := e.1.val
  if (decide (k = 17) != dram) || s.armedUnit k e.2.1 then s
  else
    let c := s.reg regFAULT_INJCTRL
    let inj := bit c 31 && decide ((if fld c 16 5 > 21 then 0 else fld c 16 5) = k)
    if e.2.2.2 then s.uncorrectable k inj e.2.1 (synWord k e.2.2.1.toNat) else s.corrected inj e.2.1 (synWord k e.2.2.1.toNat)

/-- SCRUB_PASS_COMPLETE (R375): with the scrubber enabled, the errors it found in the pass are reported and EV90 occurs. With it disabled nothing happens. -/
def execScrubPassComplete (dram : Bool) (errs : List (Fin 22 × Word × Byte × Bool)) (s : State) : Host.Outcome State Fault Refusal :=
  .next (
    if s.rbit regFAULT_SCRUB (b2n dram) then
      (errs.foldl (fun (t : State) e => t.scrubError dram e) s).raiseEvent 90 (testWord 9 (b2n dram) 1)
    else s)

/-- MAC_CHECK_COMPLETE (R375): with the check enabled and the Course in SLEEP, a wrong signature begins the cause of source 128 + n with EV90, and a right one ends it. Otherwise nothing happens. -/
def execMacCheckComplete (n : CourseId) (pass : Bool) (s : State) : Host.Outcome State Fault Refusal :=
  .next (
    if s.rbit regFAULT_SCRUB 2 && decide ((s.course n).phase = .sleep) then
      if pass then s.causeEnds (128 + n.val) else (s.causeBegins (128 + n.val)).raiseEvent 90 (testWord 8 n.val 2)
    else s)

/-- A test and target that the table of R376 lists. -/
def testListed (test target : Nat) : Bool :=
  (decide (test = 1) && decide (target ≤ 7)) || (decide (test = 2) && (decide (target ≤ 4) || decide (target = 7)))

/-- An intrusive test is permitted: in maintenance, or in a standby state other than CLAIM (R376). -/
def State.testPermitted (s : State) : Bool :=
  s.rbit regGLOBAL_MODE 16 || (decide (pJOIN ≤ s.pairState) && decide (s.pairState ≤ pHELD))

/-- A GO is refused, or the test starts: RUN, source 53 at its level, and for a Course BIST a halt (R376). -/
def State.testGo (s : State) (test target : Nat) : State :=
  if !testListed test target then s.setRfld regFAULT_TESTSTAT 28 3 4
  else if s.test.isSome || !s.testPermitted then s.setRfld regFAULT_TESTSTAT 28 3 3
  else
    let wasHalted := s.rbit (regC_CTRL target) 0
    let s1 : State := { s with test := some (test, target, wasHalted) }
    let s2 := (s1.setReg regFAULT_TESTSTAT 0x80000000#32).causeBegins 53
    if test = 1 then s2.setRbit (regC_CTRL target) 0 else s2

/-- The running test ends with RESULT and the [1:0] of its test word: EV91, the cause of source 53 ends, and a tested Course is reset with its halt released unless it was set before (R376). -/
def State.testEnd (s : State) (t : Nat × Nat × Bool) (result code : Nat) : State :=
  let s1 := ((({ s with test := none } : State).setReg regFAULT_TESTSTAT (BitVec.ofNat 32 (result * 2 ^ 28))).causeEnds 53)
  let s2 := if t.1 = 1 then
      (s1.putRbit (regC_CTRL t.2.1) 0 t.2.2).modCourse (fin 7 t.2.1) fun c => { c with resetReq := true }
    else s1
  s2.raiseEvent 91 (testWord t.1 t.2.1 code)

/-- An abort ends the running test (R376). -/
def State.testAbort (s : State) : State :=
  match s.test with
  | none => s
  | some t => s.testEnd t 5 3

/-- A write of FAULT.TESTCTRL: ABORT, then GO (R376, R377). -/
def State.testWrite (s : State) (v : Word) : State :=
  let s1 := if bit v 30 then s.testAbort else s
  if bit v 31 then s1.testGo (fld v 0 4) (fld v 8 8) else s1

/-- TEST_REQUEST (R376): a write of FAULT.TESTCTRL; GO = 1 requests a test. -/
def execTestRequest (_m : Master) (v : Word) (s : State) : Host.Outcome State Fault Refusal := .next (s.testWrite v)

/-- TEST_ABORT (R376): ABORT ends the running test. Without one nothing happens. -/
def execTestAbort (_m : Master) (s : State) : Host.Outcome State Fault Refusal := .next s.testAbort

/-- TEST_COMPLETE (R376): the running test ends: RESULT 1, or 2 with source 136 + n or 144. Without a test nothing happens. -/
def execTestComplete (pass : Bool) (s : State) : Host.Outcome State Fault Refusal :=
  .next (match s.test with
    | none => s
    | some t =>
      let s1 := if pass then s else s.faultOccurs (if t.1 = 1 then 136 + t.2.1 % 8 else 144)
      s1.testEnd t (if pass then 1 else 2) (if pass then 1 else 2))

end Sys2Proof.Machine
end

