-- ==== Sys2Proof/Machine/Pair.lean ====
section
/-! DEFINITION. Pairing: the states of R350, BATTEN (R345, R351), the heartbeat (R346, R347), lockstep (R353, R355), forwarded commits (R356), epochs (R357) and the release (R358, R359). The hashes themselves are in Machine/Frame.lean. -/

namespace Sys2Proof.Machine

/-! ## States (R350) -/

/-- A FAIL source that is configured for release is latched (R350, R363). -/
def State.failHeld (s : State) : Bool :=
  (List.range 256).any fun n => s.faultLatched n && decide (faultClass n = 3) && s.rbit (regFAULT_CFG n) 2

/-- An epoch that is in progress or being received is discarded: ABORTED (R357). -/
def State.epochAbort (s : State) : State :=
  if s.epochRun.isSome || s.epochRx.isSome then
    ({ s with epochRun := none, epochRx := none } : State).putRbit regPAIR_ESTAT 31 false |>.setRbit regPAIR_ESTAT 29
  else s

/-- The steps of R353 start afresh: no epoch is held, and the counts are zero (R353, R357). -/
def State.joinStart (s : State) : State :=
  { s.epochAbort with joinStep := 0, skewGood := 0, skewBad := 0, matched := [], sceneNeed := [], liveStart := 0 }.setReg regPAIR_EPOCH 0

/-- A pairing state is entered: STATE, EV86 on a change to or from READY, and what JOIN and MIRROR start with (R350, R353, R355). -/
def State.pairGo (s : State) (st : Nat) : State :=
  let old := s.pairState
  let s1 := s.setRfld regPAIR_STATUS 0 4 st
  let s2 := if old = pREADY ∧ st ≠ pREADY then s1.raiseEvent 86 0 else if st = pREADY ∧ old ≠ pREADY then s1.raiseEvent 86 1 else s1
  if st = pJOIN then s2.joinStart
  else if st = pMIRROR then { s2 with matched := [] }.setReg regPAIR_MATCH 0
  else s2

/-- FCOFF as a signed number (R353). -/
def State.fcOff (s : State) : Int := (s.reg regPAIR_FCOFF_HI ++ s.reg regPAIR_FCOFF_LO).toInt

/-- The records of a takeover by a READY standby at tick `m`: TAKEN, the live epoch, and its staleness (R359). -/
def State.takeover (s : State) (m : Nat) : State :=
  let start : Int := (s.liveStart : Int) - s.fcOff
  let stale : Nat := if s.reg regPAIR_EPOCH = 0 then 0 else Nat.min 0xFFFFFFFF ((m : Int) - start).toNat
  ((s.setRbit regPAIR_STATUS 24).setReg regPAIR_TAKEOVER (s.reg regPAIR_EPOCH)).setReg regPAIR_STALE (BitVec.ofNat 32 stale)

/-- ACTIVE is entered at tick `m`: BATTEN is driven low; a claim out of CLAIM fades its outputs in; the first epoch continues PAIR.EPOCH; forwarding starts afresh (R350, R352, R357). -/
def State.claim (s : State) (m : Nat) : State :=
  let fresh := decide (s.pairState ≠ pREADY)
  let s1 := if fresh then s else s.takeover m
  let s2 := (s1.epochAbort.pairGo pACTIVE).setRbit regPAIR_STATUS 30
  { s2 with
    epochLast := (s.reg regPAIR_EPOCH).toNat, epochReq := false, finalEpoch := none, relDue := none, relDone := none, relArmed := false, syncSent := false
    mute := if fresh then mapSet (fun _ => 64) s2.mute 9 0 else s2.mute }

/-- CLAIM is entered with window count 1 (R350). -/
def State.toClaim (s : State) : State := { s.pairGo pCLAIM with claimCount := 1 }

/-- The claim window W (R350). -/
def State.claimWindow (s : State) : Nat := if s.rbit regPAIR_STATUS 29 then 6 else 2

/-- The rows of R350 that a pre-tick sample decides for the coming tick `m`; a row to HELD comes first. -/
def State.sampleStep (s : State) (high : Bool) (m : Nat) : State :=
  let st := s.pairState
  if st = pSINGLE ∨ st = pACTIVE then s
  else if st = pHELD then (if s.failHeld then s else if high then s.toClaim else s.pairGo pJOIN)
  else if s.failHeld then s.pairGo pHELD
  else if st = pCLAIM then
    (if !high then s.pairGo pJOIN
     else if s.claimWindow ≤ s.claimCount + 1 then s.claim m
     else { s with claimCount := s.claimCount + 1 })
  else if !high then s
  else if st = pREADY then s.claim m
  else s.toClaim

/-- BATTEN_SAMPLE (R345, R350, R352, R359): the level is recorded, EV83 marks a change, and once ticks run the claim, back-off and claim-window rows of R350 act for the coming tick. Without pairing nothing happens. -/
def execBattenSample (high : Bool) (s : State) : Host.Outcome State Fault Refusal :=
  .next (
    if !s.pairEn && !(s.rbit regPAIR_CFG 31 && !s.ticking) then s
    else
      let s1 := if s.rbit regPAIR_STATUS 31 = high then s
        else (s.putRbit regPAIR_STATUS 31 high).raiseEvent 83 (BitVec.ofNat 32 (b2n high))
      if s.ticking then s1.sampleStep high (s.now + 1) else s1)

/-- BATTEN_RELEASE (R351): 1 µs after the first tick that follows its cause a due release lets go of BATTEN; the state changes at the next tick. Otherwise nothing happens. -/
def execBattenRelease (s : State) : Host.Outcome State Fault Refusal :=
  .next (match s.relDue with
    | some st => if s.relArmed then { s.putRbit regPAIR_STATUS 30 false with relDue := none, relArmed := false, relDone := some st } else s
    | none => s)

/-- What the tick does to the pairing state: a released module becomes standby, a due release is armed, and a RELEASE reaction acts (R350, R351, R363). -/
def State.pairTick (s : State) : State :=
  let s1 : State := match s.relDone with
    | some st => { s.epochAbort.pairGo st with relDone := none, syncSent := false }
    | none => s
  let s2 : State := if s1.releaseReq then
      let t : State := { s1 with releaseReq := false }
      let st := t.pairState
      if st = pACTIVE then { t with relDue := some pHELD, finalEpoch := none }
      else if st = pSINGLE ∨ st = pHELD then t
      else t.epochAbort.pairGo pHELD
    else s1
  { s2 with relArmed := s2.relDue.isSome }

/-! ## The heartbeat (R346, R347) -/

/-- The heartbeat of a frame; values of frames that have not been are open (R346; log entry 2). -/
def State.heartbeat (s : State) : Heartbeat × State :=
  let k := s.now
  let pick (t : State) (l : List (Nat × Word)) (d : Nat) : Word × State :=
    match (if d ≤ k then mapFind l (k - d) else none) with
    | some w => (w, t)
    | none => t.draw
  let h := pick s s.hashes 1
  let d := pick h.2 s.digests 2
  ({ fc := s.fc, state := BitVec.ofNat 4 s.pairState, hash := h.1, digest := d.1, epoch := s.reg regPAIR_EPOCH, pegAck := BitVec.ofNat 32 s.fwdApplied }, d.2)

/-- HEARTBEAT_SEND (R346): the heartbeat of the current frame goes out. Without pairing, or before the first tick, nothing happens. -/
def execHeartbeatSend (s : State) : Host.Outcome State Fault Refusal :=
  .next (if s.pairEn && s.ticking then let r := s.heartbeat; { r.2 with hbSent := some r.1 } else s)

/-- A frame without a valid heartbeat ends every count of consecutive frames: of the link, of the skew and of the match run (R347, R353, R355; DEDUCED, log entry 80). -/
def State.hbGap (s : State) : State :=
  let t : State := { s with hbFrame := s.now }
  if s.now ≤ s.hbFrame + 1 then t
  else
    let u : State := { t with linkRun := 0, skewGood := 0, skewBad := 0, matched := [] }
    if s.pairState = pMIRROR ∨ s.pairState = pREADY then u.setReg regPAIR_MATCH 0 else u

/-- The link counts a heartbeat: LINK after 64 in a row; then SKEW shows the skew (R347, R353). -/
def State.hbLink (s : State) (hb : Heartbeat) (skew : Word) : State :=
  let s1 : State := { s with linkRun := s.linkRun + 1 }
  let s2 := (if 64 ≤ s1.linkRun then s1.setRbit regPAIR_STATUS 28 else s1).setRfld regPAIR_STATUS 16 4 hb.state.toNat
  let s3 := s2.setReg regPAIR_SKEW (if s2.rbit regPAIR_STATUS 28 then skew else 0)
  if s.rfld regPAIR_STATUS 16 4 ≠ hb.state.toNat ∧ hb.state.toNat = pJOIN then { s3 with syncSent := false } else s3

/-- The acknowledgements in a heartbeat: cancels that the standby has applied, and the epoch in progress, whose end can start a release (R356 to R358). -/
def State.hbAcks (s : State) (hb : Heartbeat) : State :=
  if s.pairState ≠ pACTIVE then s
  else
    let ready := s.cancelWait.filter fun e => decide (e.2 ≤ hb.pegAck.toNat)
    let s1 := ready.foldl (fun (t : State) e => t.cancel e.1) { s with cancelWait := s.cancelWait.filter fun e => decide (hb.pegAck.toNat < e.2) }
    match s1.epochRun with
    | none => s1
    | some (n, _) =>
      if hb.epoch.toNat = n then
        let s2 := (({ s1 with epochRun := none } : State).putRbit regPAIR_ESTAT 31 false).setReg regPAIR_EPOCH hb.epoch
        let s3 := s2.raiseEvent 85 hb.epoch
        if s3.finalEpoch = some n then { s3 with finalEpoch := none, relDue := some pMIRROR } else s3
      else s1

/-- The skew is at most 100 ns. -/
def skewOk (skew : Word) : Bool := decide (skew.toInt.natAbs ≤ 100)

/-- Steps 1 and 2 of R353 in JOIN, and the return to JOIN after 16 frames of more than 100 ns. -/
def State.hbAlign (s : State) (hb : Heartbeat) (skew : Word) : State :=
  let st := s.pairState
  if !s.ticking || !(decide (st = pJOIN) || decide (st = pMIRROR) || decide (st = pREADY)) then s
  else if s.joinStep < 2 ∧ st = pJOIN then
    if !(s.rbit regPAIR_STATUS 28 && decide (hb.state.toNat = pACTIVE)) then { s with joinStep := 0, skewGood := 0 }
    else
      let g := if skewOk skew then s.skewGood + 1 else 0
      if 64 ≤ g then
        let off := hb.fc - s.fc
        { (s.setReg regPAIR_FCOFF_LO (lo32 off)).setReg regPAIR_FCOFF_HI (hi32 off) with joinStep := 2, skewGood := g, skewBad := 0 }
      else { s with joinStep := 1, skewGood := g }
  else
    let b := if skewOk skew then 0 else s.skewBad + 1
    if 16 ≤ b then s.pairGo pJOIN else { s with skewBad := b }

/-- The comparison of one hash of one frame: the run, the mismatch counts, and in READY the return to MIRROR (R350, R355). `key` is 2 × frame for the output hash, 2 × frame + 1 for the state digest. -/
def State.compared (s : State) (key : Nat) (ok : Bool) : State :=
  let other := if key % 2 = 0 then key + 1 else key - 1
  let s1 := if ok then s else
    let a := regPAIR_MISCNT
    s.setReg a (if key % 2 = 0 then satAdd (s.reg a) 16 16 1 else satAdd (s.reg a) 0 16 1)
  let s2 := match mapFind s1.matched other with
    | none => if ok then s1 else s1.setReg regPAIR_MATCH 0
    | some o => if ok && o then s1.count regPAIR_MATCH 1 else s1.setReg regPAIR_MATCH 0
  let s3 : State := { s2 with matched := (mapIns (mapDel s2.matched key) key ok).filter fun e => decide (key ≤ e.1 + 8) }
  if !ok && decide (s3.pairState = pREADY) then ((s3.setRbit regPAIR_STATUS 25).pairGo pMIRROR).raiseEvent 87 (lo32 s3.fc) else s3

/-- A received hash of the partner's frame `f` is compared with the module's own of frame f - FCOFF, where it has one (R355). -/
def State.compareWith (s : State) (own : List (Nat × Word)) (f : Int) (theirs : Word) (half : Nat) : State :=
  let k := f - s.fcOff
  if k < 0 then s
  else match mapFind own k.toNat with
    | some w => s.compared (2 * k.toNat + half) (decide (w = theirs))
    | none => s

/-- Both hashes of a heartbeat are compared in MIRROR and READY (R346, R355). -/
def State.hbCompare (s : State) (hb : Heartbeat) : State :=
  if s.pairState = pMIRROR ∨ s.pairState = pREADY then
    let s1 := s.compareWith s.hashes ((hb.fc.toNat : Int) - 1) hb.hash 0
    if s1.pairState = pMIRROR ∨ s1.pairState = pREADY then s1.compareWith s.digests ((hb.fc.toNat : Int) - 2) hb.digest 1 else s1
  else s

/-- Both modules report ACTIVE: ROLE B sets DUALCLAIM and gives way, and the pair-link fault's cause lasts while they do; it also ends with the link's return (R347, R350). -/
def State.hbDual (s : State) (hb : Heartbeat) : State :=
  let dual := decide (s.pairState = pACTIVE) && decide (hb.state.toNat = pACTIVE) && s.rbit regPAIR_STATUS 29
  let s1 := if dual then s.causeBegins 49 else if s.rbit regPAIR_STATUS 28 then s.causeEnds 49 else s
  if dual then
    let s2 := s1.setRbit regPAIR_STATUS 26
    if s2.relDue.isSome || s2.relDone.isSome then s2 else { s2 with relDue := some pJOIN }
  else s1

/-- HEARTBEAT_RECEIVE (R346, R347, R350, R353, R355 to R357): a valid heartbeat updates link, skew, partner state, acknowledgements, alignment and match run. Without pairing nothing happens. -/
def execHeartbeatReceive (hb : Heartbeat) (skew : Word) (s : State) : Host.Outcome State Fault Refusal :=
  .next (if s.pairEn then (((((s.hbGap).hbLink hb skew).hbAcks hb).hbAlign hb skew).hbCompare hb).hbDual hb else s)

/-- The heartbeat is lost: HBLOSS frames have passed since the last valid one, a value below 4 acting as 16, and this loss has not been reported (R347, R360). -/
def State.hbLost (s : State) : Bool :=
  let n := s.rfld regPAIR_CFG 16 8
  decide (s.hbFrame + (if n < 4 then 16 else n) ≤ s.now) &&
    !(!s.rbit regPAIR_STATUS 28 && decide (s.linkRun = 0) && s.rbit (regFAULT_CAUSE 1) 17)

/-- HEARTBEAT_LOSS (R347, R350, R357): after HBLOSS frames without a valid heartbeat LINK clears, UNREACH is set, EV84 and source 49 occur; MIRROR and READY return to JOIN, JOIN starts afresh, and an epoch in progress is discarded. Cancels that wait for the partner have no effect. Without pairing, or while the state shows no loss, nothing happens. -/
def execHeartbeatLoss (s : State) : Host.Outcome State Fault Refusal :=
  .next (
    if s.pairEn && s.hbLost then
      let s1 : State := { (s.putRbit regPAIR_STATUS 28 false).setRbit regPAIR_STATUS 27 with linkRun := 0, syncSent := false }
      let s2 := ((s1.setReg regPAIR_SKEW 0).causeBegins 49).raiseEvent 84 0
      let s3 : State := if s2.cancelWait.isEmpty then s2 else { s2.setRbit regPEG_STATUS 22 with cancelWait := [] }
      let s4 : State := { s3.epochAbort with finalEpoch := if s3.finalEpoch.isSome then some 0 else none }
      if s4.pairState = pJOIN ∨ s4.pairState = pMIRROR ∨ s4.pairState = pREADY then s4.pairGo pJOIN else s4
    else s)

/-- MIRROR_READY (R350, R355): in MIRROR, with a match run of at least N, the standby enters READY with EV86. Otherwise nothing happens. -/
def execMirrorReady (s : State) : Host.Outcome State Fault Refusal :=
  .next (if s.pairState = pMIRROR ∧ s.pairNeed ≤ (s.reg regPAIR_MATCH).toNat then s.pairGo pREADY else s)

/-! ## Parameter sync and forwarded records (R353, R356) -/

/-- SYNC_RECORD (R353): the active, with its partner in JOIN, processes the sync record: every active copy and a resolution of all groups go out in a number of records that the spec leaves open, and from then on it forwards its entries (log entry 2). Otherwise nothing happens. -/
def execSyncRecord (s : State) : Host.Outcome State Fault Refusal :=
  .next (
    if s.pairState = pACTIVE ∧ s.rbit regPAIR_STATUS 28 ∧ s.rfld regPAIR_STATUS 16 4 = pJOIN ∧ !s.syncSent then
      let r := s.draw
      { r.2 with syncSent := true, fwdSent := r.2.fwdSent + r.1.toNat + 1 }
    else s)

/-- A module that takes forwarded records: JOIN after its alignment, MIRROR or READY (R353, R356). -/
def State.follows (s : State) : Bool :=
  s.pairEn && ((decide (s.pairState = pJOIN) && decide (2 ≤ s.joinStep)) || decide (s.pairState = pMIRROR) || decide (s.pairState = pREADY))

/-- FORWARDED_ENTRY_RECEIVE (R356): the standby takes an entry through master 11; a COMMIT is resolved by its record alone and only counts as applied. A module that does not follow ignores it. -/
def execForwardedEntryReceive (hdr : Word) (payload : List Word) (s : State) : Host.Outcome State Fault Refusal :=
  .next (
    if !s.follows then s
    else if hdrOp hdr = 2 then { s with fwdApplied := s.fwdApplied + 1 }
    else payload.foldl (fun (t : State) v => t.pegData 11 v) (s.pegHeader 11 hdr))

/-- RESOLUTION_RECORD_RECEIVE (R353, R356): the standby resolves a commit with the active's ticket and commit frame c - FCOFF, behind the entries that wait; the record of all groups ends the parameter sync. A module that does not follow ignores it. -/
def execResolutionRecordReceive (ticket : Byte) (mask : Word) (c : BitVec 64) (s : State) : Host.Outcome State Fault Refusal :=
  .next (
    if !s.follows then s
    else
      let f : Nat := ((c.toNat : Int) - s.fcOff).toNat
      let e : PegEntry := { master := 11, hdr := BitVec.ofNat 32 (0x60000000 + ticket.toNat), words := [mask, BitVec.ofNat 32 f, BitVec.ofNat 32 (f / 2 ^ 32)],
                            pos := 0, skipped := false, recA := 0, recLeft := 0, crc := 0xFFFFFFFF#32, loading := false, loaded := false, failed := false, dir := [], ack := none }
      let s1 : State := if s.pegQueue.isEmpty && !s.commitStalls mask && !s.pegHalted then
          { s.resolveForwarded ticket.toNat mask f with fwdApplied := s.fwdApplied + 1 }
        else { s with pegQueue := s.pegQueue ++ [e] }
      if mask = 0xFFFFFFFF#32 ∧ s1.pairState = pJOIN ∧ s1.joinStep = 2 then { s1 with joinStep := 3 } else s1)

/-- FORWARDED_CANCEL_RECEIVE (R189, R356): the standby withdraws the commit, and its next heartbeat acknowledges the record. A module that does not follow ignores it. -/
def execForwardedCancelReceive (ticket : Byte) (s : State) : Host.Outcome State Fault Refusal :=
  .next (if s.follows then { s.cancel ticket.toNat with fwdApplied := s.fwdApplied + 1 } else s)

/-- SCENE_DIRECTORY_RECEIVE (R353): the joining module requests every valid scene whose LENGTH or CRC differs from its own; with none, step 4 is complete. Outside step 4 nothing happens. -/
def execSceneDirectoryReceive (dir : List (Fin 1024 × Word × Word × Word × Word)) (s : State) : Host.Outcome State Fault Refusal :=
  .next (
    if s.pairState = pJOIN ∧ s.joinStep = 3 then
      let need := dir.filter fun e => bit e.2.1 31 &&
        !(bit (s.sceneDir e.1.val 0) 31 && decide (s.sceneDir e.1.val 1 = e.2.2.1) && decide (s.sceneDir e.1.val 3 = e.2.2.2.2))
      { s with sceneNeed := need.map fun e => (e.1.val, [e.2.1, e.2.2.1, e.2.2.2.1, e.2.2.2.2]), joinStep := if need.isEmpty then 4 else 3 }
    else s)

/-- Successive DRAM words are written. -/
def State.dramSetMany (s : State) (w : Nat) : List Word → State
  | [] => s
  | v :: vs => (s.dramSet w v).dramSetMany (w + 1) vs

/-- SCENE_BODY_RECEIVE (R353): a requested body is copied into the scene store with its directory entry, where it lies inside the region; after the last one step 4 is complete. A body that was not requested changes nothing. -/
def execSceneBodyReceive (n : Fin 1024) (ws : List Word) (s : State) : Host.Outcome State Fault Refusal :=
  .next (
    match (if s.pairState = pJOIN ∧ s.joinStep = 3 then s.sceneNeed.find? fun e => decide (e.1 = n.val) else none) with
    | none => s
    | some e =>
      let off := fld (nthD e.2 0 0) 0 31
      let len := (nthD e.2 1 0).toNat
      let base := s.regionBase 3
      let s1 := if 4096 ≤ off ∧ off + len ≤ s.regionSize 3 then (s.dramSetMany (base + off) (ws.take len)).dramSetMany (base + 4 * n.val) e.2 else s
      let rest := s1.sceneNeed.filter fun d => decide (d.1 ≠ n.val)
      { s1 with sceneNeed := rest, joinStep := if rest.isEmpty then 4 else 3 })

/-! ## Epochs (R357) -/

/-- The registers of an epoch region: SRC 0, LEN 1, RXA 2, RXB 3. -/
def State.ereg (s : State) (r w : Nat) : Nat := (s.reg (0xF0100 + 16 * r + 4 * w)).toNat

/-- A range of DRAM words lies in one of the given regions. -/
def State.inRegions (s : State) (rs : List Nat) (w n : Nat) : Bool :=
  rs.any fun r => decide (s.regionBase r ≤ w) && decide (w + n ≤ s.regionBase r + s.regionSize r)

/-- An epoch region lies in the regions that R357 names. -/
def State.eregOk (s : State) (r : Nat) : Bool :=
  let n := s.ereg r 1
  s.inRegions [1, 4] (s.ereg r 0) n && s.inRegions [4] (s.ereg r 2) n && s.inRegions [4] (s.ereg r 3) n

/-- EPOCH_START (R357, R358): on the active with no epoch in progress, an epoch that is requested, final or periodic starts: the next number, BUSY, EV5 for each region outside its place, and the reads of the others pass the DRAM checker. Without a link it is interrupted at once. Otherwise nothing happens. -/
def execEpochStart (s : State) : Host.Outcome State Fault Refusal :=
  .next (
    if s.ticking ∧ s.pairState = pACTIVE ∧ s.epochRun = none ∧ (s.epochReq ∨ s.finalEpoch = some 0 ∨ 0 < s.rfld regPAIR_CFG 0 16) then
      let n := (s.epochLast + 1) % 2 ^ 32
      let regions := (List.range 16).filter fun r => decide (0 < s.ereg r 1)
      let s1 := regions.foldl (fun (t : State) r =>
        if s.eregOk r then t.dramTouch (s.ereg r 0) (s.ereg r 1)
        else t.configError (0xF0100 + 16 * r)) s
      let s2 : State := { s1.setRbit regPAIR_ESTAT 31 with
        epochLast := n, epochRun := some (n, s.now), epochReq := false, finalEpoch := if s.finalEpoch = some 0 then some n else s.finalEpoch }
      if s.rbit regPAIR_STATUS 28 then s2
      else { s2.epochAbort with finalEpoch := if s2.finalEpoch.isSome then some 0 else none }
    else s)

/-- EPOCH_DATA_RECEIVE (R357): the standby writes a block into the receive buffer that is not live, where it lies inside its region, and takes it into the CRC. Outside JOIN, MIRROR and READY nothing happens. -/
def execEpochDataReceive (num : Word) (region : Fin 16) (off : Nat) (ws : List Word) (s : State) : Host.Outcome State Fault Refusal :=
  .next (
    if s.follows then
      let start := match s.epochRx with | some (n, c) => if n = num.toNat then c else 0xFFFFFFFF#32 | none => 0xFFFFFFFF#32
      let crc := (wordsLE ws).foldl crcByte start
      let base := s.ereg region.val (if s.rbit regPAIR_ESTAT 30 then 2 else 3)
      let fits := s.eregOk region.val && decide (off + ws.length ≤ s.ereg region.val 1)
      { (if fits then s.dramSetMany (base + off) ws else s) with epochRx := some (num.toNat, crc) }
    else s)

/-- A complete epoch becomes live: LIVE flips, PAIR.EPOCH and EV85; in JOIN after step 4 it completes R353 (R350, R353, R357). -/
def State.epochLive (s : State) (num : Word) (startFc : Nat) : State :=
  let s1 : State := { (s.putRbit regPAIR_ESTAT 30 (!s.rbit regPAIR_ESTAT 30)).setReg regPAIR_EPOCH num with liveStart := startFc }
  let s2 := s1.raiseEvent 85 num
  if s2.pairState = pJOIN ∧ s2.joinStep = 4 then ({ s2 with joinStep := 5 } : State).pairGo pMIRROR else s2

/-- EPOCH_COMMIT_MARKER (R357): a marker with the right CRC and a number above PAIR.EPOCH, or any number while none is held, makes the epoch live; a wrong CRC discards it and sets CRCERR. Outside JOIN, MIRROR and READY nothing happens. -/
def execEpochCommitMarker (num : Word) (startFc : BitVec 64) (crc : Word) (s : State) : Host.Outcome State Fault Refusal :=
  .next (
    if s.follows then
      let got : Word := match s.epochRx with | some (n, c) => if n = num.toNat then ~~~c else ~~~0xFFFFFFFF#32 | none => ~~~0xFFFFFFFF#32
      let s1 : State := { s with epochRx := none }
      if got ≠ crc then s1.setRbit regPAIR_ESTAT 28
      else if s1.reg regPAIR_EPOCH = 0 ∨ (s1.reg regPAIR_EPOCH).toNat < num.toNat then s1.epochLive num startFc.toNat
      else s1
    else s)

/-! ## Commands of software (R350, R357, R358) -/

/-- The partner's heartbeat reports READY (R358). -/
def State.partnerReady (s : State) : Bool := s.rbit regPAIR_STATUS 28 && decide (s.rfld regPAIR_STATUS 16 4 = pREADY)

/-- RELEASE, with FORCE or without it: ignored unless ACTIVE; accepted with a READY partner, whose final epoch comes first; forced without one it is due at once; else RELREF (R358). -/
def State.release (s : State) (force : Bool) : State :=
  if s.pairState ≠ pACTIVE then s
  else if s.partnerReady then (if s.finalEpoch.isSome then s else { s with finalEpoch := some 0 })
  else if force then { s with relDue := some pMIRROR, finalEpoch := none }
  else s.setRbit regPAIR_STATUS 22

/-- PAIR_RELEASE (R358). -/
def execPairRelease (_m : Master) (s : State) : Host.Outcome State Fault Refusal := .next (s.release false)

/-- FORCE_RELEASE (R358). -/
def execForceRelease (_m : Master) (s : State) : Host.Outcome State Fault Refusal := .next (s.release true)

/-- ESTART (R357, R360): on an ACTIVE module an epoch is requested; one written during an epoch acts at its end. Otherwise ignored. -/
def execEstart (_m : Master) (s : State) : Host.Outcome State Fault Refusal :=
  .next (if s.pairState = pACTIVE then { s with epochReq := true } else s)

/-- RESYNC (R350, R360): JOIN, MIRROR or READY returns to JOIN and the steps of R353 restart. Otherwise ignored. -/
def execResync (_m : Master) (s : State) : Host.Outcome State Fault Refusal :=
  .next (if s.pairState = pJOIN ∨ s.pairState = pMIRROR ∨ s.pairState = pREADY then s.pairGo pJOIN else s)

/-- A write of PAIR.CTRL: its commands, RELEASE first (R360). -/
def State.pairCtrl (s : State) (v : Word) : State :=
  let s1 := if bit v 0 then s.release (bit v 3) else s
  let s2 : State := if bit v 1 && decide (s1.pairState = pACTIVE) then { s1 with epochReq := true } else s1
  if bit v 2 && (decide (s2.pairState = pJOIN) || decide (s2.pairState = pMIRROR) || decide (s2.pairState = pREADY)) then s2.pairGo pJOIN else s2

end Sys2Proof.Machine
end

