-- ==== Sys2Proof/Machine/Tick.lean ====
section
/-! DEFINITION. What a frame tick does in the FAULT block and to the mute levels and output fades (R305, R306, R361, R364, R365). -/

namespace Sys2Proof.Machine

/-- The sources whose level cause persists at a tick while their latch is clear (R361, R365). -/
def State.causesClear (s : State) : List Nat :=
  (List.range 256).filter fun n => s.rbit (regFAULT_CAUSE (n / 32)) (n % 32) && !s.faultLatched n

/-- The tick in the FAULT block: the reactions of cleared sources end, then every persisting level cause whose latch is clear is raised, in one Ridge cycle (R361, R364, R365). -/
def State.faultTick (s : State) : State :=
  let s1 : State := { s with reactMute := s.reactMute.filter s.faultLatched }
  let srcs := s1.causesClear
  srcs.foldl (fun (t : State) n => t.creset n) (s1.raiseAll srcs none)

/-- A source's latch covers a mute scope, numbered as `State.mute` numbers them (R362, R364, R369). -/
def covers (src scope : Nat) : Bool :=
  if scope < 8 then faultCourse src == some scope
  else if scope = 8 then faultScopeAll src
  else if scope < 32 then decide (src = scope + 40)
  else if scope < 36 then decide (src = scope + 40)
  else decide (src = 76)

/-- The scopes whose level the faults step (R364). -/
def muteScopes : List Nat := [0, 1, 2, 3, 4, 5, 6, 7, 8, 36] ++ (List.range 16).map (16 + ·) ++ [32, 33, 34, 35]

/-- The level of a scope for the coming frame: port and receiver scopes step both ways, the others carry zero at once; all fade in over 64 frames (R364). -/
def State.muteNext (s : State) (scope : Nat) : Nat :=
  let m := s.muteLevel scope
  let stepped := decide (16 ≤ scope) && decide (scope < 36)
  if s.reactMute.any fun n => covers n scope then (if stepped then stepTo m 0 else 0) else stepTo m 64

/-- A level is stored. -/
def State.setMute (s : State) (scope m : Nat) : State := { s with mute := mapSet (fun _ => 64) s.mute scope m }

/-- The output fade of R305, R306 and R352: towards 0 on the way to a mode other than RUN and in it, else towards 64. -/
def State.outFade (s : State) : State :=
  s.setMute 9 (stepTo (s.muteLevel 9) (if s.modeStep.isSome || decide (s.modeCur ≠ 0) then 0 else 64))

/-- The levels of the coming frame; once the ASRC scope carries its full level again with source 76 clear, the channels that had lost lock are forgotten (R364). -/
def State.muteTick (s : State) : State :=
  let s1 := (muteScopes.foldl (fun (t : State) c => t.setMute c (s.muteNext c)) s).outFade
  if decide (s1.muteLevel 36 = 64) && !s1.faultLatched 76 then { s1 with asrcLost := [] } else s1

end Sys2Proof.Machine
end

