-- ==== Sys2Proof/Machine/Image.lean ====
section
/-! DEFINITION. The Thatch image in the boot flash: its areas (R318), header (R320), directory (R321), records (R322), and the loads of registers, tables, Course contexts and DRAM (R328 to R330). -/

namespace Sys2Proof.Machine

/-! ## Header and directory (R318 to R321) -/

/-- The first flash byte of copy A (false) or B (true). -/
def copyBase (b : Bool) : Nat := if b then 0x04000000 else 0

/-- The size of the area of a copy (R318). -/
def copyArea (b : Bool) : Nat := if b && !Config.bigFlash then 0x03F00000 else 0x04000000

/-- `n` flash bytes from an address. -/
def State.flashBytes (s : State) (a n : Nat) : List Byte := (List.range n).map fun i => s.flashByte (a + i)

/-- A little-endian field of `n` bytes at offset `o` of a copy (R320). -/
def State.imgField (s : State) (b : Bool) (o n : Nat) : Nat := natLE (s.flashBytes (copyBase b + o) n)

/-- LENGTH of a copy. -/
def State.imgLength (s : State) (b : Bool) : Nat := s.imgField b 16 4

/-- NSECT of a copy. -/
def State.imgSections (s : State) (b : Bool) : Nat := s.imgField b 14 2

/-- HDRCRC is that of bytes 0 to 251 (R320). -/
def State.imgHdrCrc (s : State) (b : Bool) : Bool := decide ((crc32 (s.flashBytes (copyBase b) 252)).toNat = s.imgField b 252 4)

/-- MAGIC of a copy is right. -/
def State.imgMagic (s : State) (b : Bool) : Bool := decide (s.imgField b 0 4 = 0xB01A5448)

/-- FAMILY and MEMBER are those of GLOBAL.ID (R320). -/
def State.imgMember (s : State) (b : Bool) : Bool :=
  decide (s.imgField b 8 2 = s.rfld regGLOBAL_ID 16 16) && decide (s.imgField b 10 1 = s.rfld regGLOBAL_ID 8 8)

/-- DIE_ISSUE and MODULE_ISSUE are those of GLOBAL.ISSUE (R320). -/
def State.imgIssue (s : State) (b : Bool) : Bool :=
  decide (s.imgField b 11 1 = s.rfld regGLOBAL_ISSUE 16 8) && decide (s.imgField b 12 1 = s.rfld regGLOBAL_ISSUE 8 8)

/-- The header of a copy has the form of R320, but for its member and issue fields. -/
def State.imgHeader (s : State) (b : Bool) : Bool :=
  s.imgMagic b && decide (s.imgField b 4 2 = 1) && decide (s.imgField b 6 2 = 256) && s.imgHdrCrc b && decide (s.imgField b 13 1 ≤ 1)
    && decide (1 ≤ s.imgSections b) && decide (s.imgSections b ≤ 64) && decide (s.imgLength b % 4 = 0) && decide (s.imgLength b ≤ 0x04000000)
    && (s.flashBytes (copyBase b + 40) 212).all (· == 0#8)

/-- A directory entry (R321). -/
structure Sect where
  typ : Nat
  arg : Nat
  rsv : Nat
  off : Nat
  size : Nat
  crc : Nat
deriving DecidableEq, Repr

/-- Directory entry `e` of a copy. -/
def State.imgSect (s : State) (b : Bool) (e : Nat) : Sect :=
  let o := 256 + 16 * e
  { typ := s.imgField b o 1, arg := s.imgField b (o + 1) 1, rsv := s.imgField b (o + 2) 2,
    off := s.imgField b (o + 4) 4, size := s.imgField b (o + 8) 4, crc := s.imgField b (o + 12) 4 }

/-- The directory of a copy. -/
def State.imgDir (s : State) (b : Bool) : List Sect := (List.range (s.imgSections b)).map (s.imgSect b)

/-- An entry by itself: type, ARG, reserved bytes, and the multiples of 4 (R321, R322). -/
def sectForm (x : Sect) : Bool :=
  decide (1 ≤ x.typ) && decide (x.typ ≤ 5) && (if x.typ = 3 then decide (x.arg ≤ 7) else decide (x.arg = 0)) && decide (x.rsv = 0)
    && decide (x.off % 4 = 0) && decide (x.size % 4 = 0) && decide (4 ≤ x.size)

/-- The entries ascend in TYPE and their sections follow one another up to `limit` (R321). -/
def dirOk (limit : Nat) : Nat → Nat → List Sect → Bool
  | _, _, [] => true
  | typ, low, x :: t =>
    sectForm x && decide (typ ≤ x.typ) && decide (low ≤ x.off) && decide (x.off + x.size ≤ limit) && dirOk limit x.typ (x.off + x.size) t

/-- The directory of a copy obeys R321 and R322. -/
def State.imgDirOk (s : State) (b : Bool) : Bool :=
  dirOk (s.imgLength b - 128) 0 (256 + 16 * s.imgSections b) (s.imgDir b)

/-- The words of a section. -/
def State.sectWords (s : State) (b : Bool) (x : Sect) : List Word :=
  (List.range (x.size / 4)).map fun i => s.flashWord (copyBase b + x.off + 4 * i)

/-- A record: its destination and its value words (R187, R322). -/
abbrev ImgRecord := Nat × List Word

/-- The records that exactly fill a section, at most `k` of them; none where they do not (R322). -/
def parseRecords : Nat → List Word → Option (List ImgRecord)
  | 0, ws => if ws.isEmpty then some [] else none
  | k + 1, ws =>
    match ws with
    | [] => some []
    | d :: c :: t =>
      if 1 ≤ c.toNat ∧ c.toNat ≤ 65535 ∧ c.toNat ≤ t.length then
        (parseRecords k (t.drop c.toNat)).map fun rs => (d.toNat, t.take c.toNat) :: rs
      else none
    | _ => none

/-- The records of a section. -/
def State.sectRecords (s : State) (b : Bool) (x : Sect) : Option (List ImgRecord) :=
  parseRecords (x.size / 4) (s.sectWords b x)

/-! ## Register and table loads (R328) -/

/-- The bits of a register that a load sets: those that the register table marks, and of FAULT.CFGn those that are permitted and not fixed (R328, R362, R363). -/
def loadBits (a : Nat) : Word :=
  if 0x30100 ≤ a ∧ a < 0x30500 ∧ a % 4 = 0 then
    let n := (a - 0x30100) / 4
    BitVec.ofNat 32 (256 + (if faultListed n then faultPermitted n - faultFixed n else 0))
  else thatchBits a

/-- The loaded word at an address has, or no longer has, a reserved value (R328). -/
def State.noteReserved (s : State) (a : Nat) (bad : Bool) : State :=
  { s with bootEv := (s.bootEv.filter fun e => e != a) ++ (if bad then [a] else []) }

/-- The rate that the loads are read under: the one of the image (R23, R331). -/
def State.atRate (s : State) (slow : Bool) : State := s.setReg regGLOBAL_RATE (if slow then 0x4B000001#32 else 0x25800000#32)

/-- One register word is loaded; none where the register is not loadable (R328). `slow` is the rate that the image selects. -/
def State.loadReg (s : State) (slow : Bool) (a : Nat) (v : Word) : Option State :=
  let m := loadBits a
  if m = 0 then none
  else
    let s1 := s.noteReserved a ((s.atRate slow).reservedReg a (v &&& m))
    some (
      if shadowBits a ≠ 0 then s1.tabLoad a (shadowTrim a (merge (s1.tabGet a) m v))
      else if 0x100000 ≤ a ∧ a < 0x100100 then { s1 with bootOwn := mapSet wordDefault (mapDel s1.bootOwn a) a (v &&& m) }
      else if a = regCLK_DIV then { s1.setReg a (merge (s1.reg a) m v) with divHold := decide (merge (s1.reg a) m v ≠ s1.divNow) }
      else s1.setReg a (merge (s1.reg a) m (clampReg a v)))

/-- One word of the delay tables is loaded (R120, R328). -/
def State.loadDelay (s : State) (a : Nat) (d : DelayWord) (v : Word) : State :=
  if d.shadowed then s.tabLoad a (v &&& d.mask) else s.tabSet a (v &&& d.mask)

/-- One word of a table window other than the delay tables is loaded (R328). -/
def State.loadTab (s : State) (a : Nat) (t : TabWord) (v : Word) : Option State :=
  match t.1 with
  | .readOnly => none
  | .shadow =>
    let m := match s.shadowed a with | some h => h.mask | none => 0#32
    some ((s.noteReserved a (reservedTable a (v &&& m))).tabLoad a (shadowTrim a (v &&& m)))
  | .boot => some ((s.noteReserved a (reservedTable a (v &&& t.2))).tabSet a (bootTrim a (v &&& t.2)))
  | .direct => some (s.tabSet a (v &&& t.2))

/-- The bank and word behind a host address of the plain scratch view (R116). -/
def hostScratch (a : Nat) : Option (Nat × Nat) :=
  if 0x04000000 ≤ a ∧ a < 0x05000000 ∧ a % 4 = 0 then some ((a - 0x04000000) / 0x40000, (a - 0x04000000) % 0x40000 / 4) else none

/-- One word of the table and memory windows is loaded; none where nothing loadable lies at the address (R328). -/
def State.loadTable (s : State) (a : Nat) (v : Word) : Option State :=
  match tabWord a with
  | some t => s.loadTab a t v
  | none =>
    match delayWord a with
    | some d => some (s.loadDelay a d v)
    | none =>
      match courseWindow a with
      | some (n, prog, w) => some (s.courseSet n prog w v)
      | none => (hostScratch a).map fun e => s.scratchSet e.1 e.2 v

/-! ## DRAM loads (R322, R329, R330) -/

/-- The words of the reset store (R329). -/
def resetWords : Nat := 1048576

/-- The first DRAM word of the reset store of Course `n` (R329). -/
def State.resetStore (s : State) (n : Nat) : Nat := s.regionBase 3 + (s.regionSize 3 - resetWords) + n * 131072

/-- A DRAM word lies in the first `size` words of region `r`. -/
def State.inRegion (s : State) (r size w : Nat) : Bool := decide (s.regionBase r ≤ w) && decide (w < s.regionBase r + size)

/-- One DRAM word is loaded by a section of type 4 or 5; none outside its regions. A wake keeps the announcement library (R322, R330). -/
def State.loadDram (s : State) (typ w : Nat) (v : Word) : Option State :=
  if typ = 4 then
    (if s.inRegion 3 (s.regionSize 3 - resetWords) w || s.inRegion 4 (s.regionSize 4) w then some (s.dramSet w v) else none)
  else if s.inRegion 1 (s.regionSize 1) w then some (if s.rbit regBOOT_STATUS 24 then s else s.dramSet w v)
  else none

/-! ## Records and sections -/

/-- Loads that have run so far: the state, and the rejection code that ended them, if any (R343). -/
abbrev Loaded := State × Option Nat

/-- One word of a record of a section of type `typ`. -/
def State.loadWord (s : State) (slow : Bool) (typ a : Nat) (v : Word) : Option State :=
  if typ = 1 then s.loadReg slow a v else if typ = 2 then s.loadTable a v else s.loadDram typ a v

/-- The words of a record, at successive addresses; the first word without a place ends them with code 10 (R328). -/
def State.loadWords (s : State) (slow : Bool) (typ step : Nat) : Nat → List Word → Loaded
  | _, [] => (s, none)
  | a, v :: vs =>
    match s.loadWord slow typ a v with
    | none => (s, some 10)
    | some t => t.loadWords slow typ step (a + step) vs

/-- The records of a section in order. -/
def State.loadRecords (s : State) (slow : Bool) (typ : Nat) : List ImgRecord → Loaded
  | [] => (s, none)
  | r :: rs =>
    match s.loadWords slow typ (if typ ≤ 2 then 4 else 1) r.1 r.2 with
    | (t, none) => t.loadRecords slow typ rs
    | (t, some c) => (t, some c)

/-- The registers of a context in the word order of R329, but for the accumulators. -/
def ctxRegs : List CReg :=
  ((List.range 16).map fun i => CReg.p (fin 15 i)) ++ ((List.range 16).map fun i => CReg.n (fin 15 i)) ++ ((List.range 16).map fun i => CReg.l (fin 15 i))
    ++ ((List.range 16).map fun i => CReg.k (fin 15 i)) ++ ((List.range 4).map fun i => CReg.lc (fin 3 i)) ++ [.rot, .mode, .flags]

/-- The three words of an accumulator (R62). -/
def accWords (v : Acc) : List Word := [v.extractLsb' 0 32, v.extractLsb' 32 32, (v.extractLsb' 64 16).signExtend 32]

/-- The 128 words of a context (R329). -/
def ctxWords (c : Ctx) : List Word := c.d.toList ++ c.acc.toList.flatMap accWords ++ (ctxRegs.map c.get) ++ [0]

/-- The accumulator that three words give (R62). -/
def accOf (ws : List Word) (i : Nat) : Acc := (nthD ws (32 + 3 * i + 2) 0).extractLsb' 0 16 ++ nthD ws (32 + 3 * i + 1) 0 ++ nthD ws (32 + 3 * i) 0

/-- The context that 128 words give, idle (R329). -/
def ctxOf (ws : List Word) : Ctx :=
  let c := (List.range 32).foldl (fun (c : Ctx) i => c.put (.d (fin 31 i)) 0xFFFFFFFF#32 (nthD ws i 0)) Ctx.reset
  let c1 := ctxRegs.zipIdx.foldl (fun (c : Ctx) e => c.put e.1 0xFFFFFFFF#32 (nthD ws (56 + e.2) 0)) c
  (List.range 8).foldl (fun (c : Ctx) i => (c.apply (.acc (fin 7 i) (accOf ws i))).apply (.accOut (fin 7 i) (accOf ws i))) c1

/-- Successive words of a memory. -/
def memSetWords (m : List (Nat × Byte)) : Nat → List Word → List (Nat × Byte)
  | _, [] => m
  | w, v :: vs => memSetWords (memSetWord m w v) (w + 1) vs

/-- Course `n` takes a foreground context and the words of its foreground region (R329). -/
def State.courseInit (s : State) (n : CourseId) (ws : List Word) : State :=
  s.modCourse n fun c => { c with fg := ctxOf ws, lmem := memSetWords c.lmem 0 (ws.drop 128) }

/-- A section of type 3: its size must be that of the context and the region; both are loaded, and kept in the reset store (R329). -/
def State.loadCourse (s : State) (n : CourseId) (ws : List Word) : Loaded :=
  if ws.length ≠ 128 + s.fgWords n then (s, some 6)
  else
    let s1 := s.courseInit n ws
    (if s.regionSize 3 < resetWords then s1 else s1.dramSetMany (s.resetStore n.val) ws, none)

/-- One section: its words are loaded, then its CRC is checked (R325, R328, R329). -/
def State.loadSection (s : State) (b : Bool) (x : Sect) : Loaded :=
  let ws := s.sectWords b x
  let slow := decide (s.imgField b 13 1 = 1)
  let r : Loaded :=
    if x.typ = 3 then s.loadCourse (fin 7 x.arg) ws
    else match s.sectRecords b x with
      | none => (s, some 6)
      | some rs => s.loadRecords slow x.typ rs
  if r.2.isNone && decide ((crcWords ws).toNat ≠ x.crc) then (r.1, some 5) else r

/-- The value words of a section of type 5. -/
def State.annWords (s : State) (b : Bool) (x : Sect) : Nat :=
  if x.typ = 5 then (((s.sectRecords b x).getD []).map fun r => r.2.length).sum else 0

/-- The sections of a copy in order; the announcements hold at most 32 MiB of value words (R322). `n` words of announcements have been loaded. -/
def State.loadSections (s : State) (b : Bool) : Nat → List Sect → Loaded
  | _, [] => (s, none)
  | n, x :: t =>
    let m := n + s.annWords b x
    if 8388608 < m then (s, some 6)
    else match s.loadSection b x with
      | (u, none) => u.loadSections b m t
      | (u, some c) => (u, some c)

/-- PASS2 of a copy: every section loaded and checked (R325, R328). -/
def State.loadImage (s : State) (b : Bool) : Loaded := s.loadSections b 0 (s.imgDir b)

/-- A table word that some record of the copy's table loads covers. -/
def State.imgCovers (s : State) (b : Bool) (a : Nat) : Bool :=
  (s.imgDir b).any fun x => decide (x.typ = 2) && ((s.sectRecords b x).getD []).any fun r =>
    decide (r.1 ≤ a) && decide (a < r.1 + 4 * r.2.length) && decide ((a - r.1) % 4 = 0)

/-! ## Signature (R323, R324) -/

/-- A 32-byte big-endian integer of the signature block. -/
def State.sigInt (s : State) (b : Bool) (i : Nat) : Nat := natBE (s.flashBytes (copyBase b + (s.imgLength b - 128) + 32 * i) 32)

/-- The key hash is unfused (R324). -/
def State.unfused (s : State) : Bool := s.fuseKey.all (· == 0#32)

/-- The public key of a copy has the fused hash (R323). -/
def State.keyOk (s : State) (b : Bool) : Bool :=
  s.unfused || decide (sha256 (s.flashBytes (copyBase b + (s.imgLength b - 128)) 64) = s.fuseKey)

/-- The signature of a copy is valid (R323). -/
def State.sigOk (s : State) (b : Bool) : Bool :=
  ecdsaOk (s.sigInt b 0) (s.sigInt b 1) (s.sigInt b 2) (s.sigInt b 3) (shaNat (sha256 (s.flashBytes (copyBase b) (s.imgLength b - 64))))

end Sys2Proof.Machine
end

