-- ==== Sys2Proof/Machine/Boot.lean ====
section
/-! DEFINITION. Start-up from the Thatch image: early words (R319), the passes and checks of a copy (R118, R154, R200, R325), rejection and the block reset (R326, R327), the release of the first frame tick (R331), and the fuses (R332, R333). -/

namespace Sys2Proof.Machine

/-! ## Early words and the flash (R318, R319, R342) -/

/-- The header of a copy gives early words (R319). -/
def State.earlyOk (s : State) (b : Bool) : Bool := s.imgMagic b && s.imgMember b && s.imgHdrCrc b

/-- EARLY_HEADER_READ (R319): in XO_WAIT of a start-up the early words are those of copy A, else of copy B, where the header passes; else the reset values. Otherwise nothing happens. -/
def execEarlyHeaderRead (s : State) : Host.Outcome State Fault Refusal :=
  .next (
    if s.supState = 1 ∧ s.bootStage = 1 then
      let words (b : Bool) : State :=
        { s with earlyDiv := BitVec.ofNat 32 (s.imgField b 32 4), earlySsc := BitVec.ofNat 32 (s.imgField b 36 4) }
      if s.flashOn && s.earlyOk false then words false
      else if s.flashOn && s.earlyOk true then words true
      else { s with earlyDiv := regReset regCLK_DIV, earlySsc := regReset regCLK_SSC }
    else s)

/-- A slot of the hold-up log holds an entry with its tag and a valid CRC (R342). -/
def State.logValid (s : State) (slot : Nat) : Bool :=
  let ws := (List.range 16).map fun i => s.flashWord (logBase + 64 * slot + 4 * i)
  decide (nthD ws 0 0 = 0xB01A0002#32) && decide (crcWords (ws.take 15) = nthD ws 15 0)

/-- The sequence number in a slot. -/
def State.logSeq (s : State) (slot : Nat) : Nat := (s.flashWord (logBase + 64 * slot + 4)).toNat

/-- The slots of the log that hold a byte that is not erased. -/
def State.logSlots (s : State) : List Nat :=
  s.flash.filterMap fun e => if logBase ≤ e.1 ∧ e.1 < logBase + 0x100000 then some ((e.1 - logBase) / 64) else none

/-- BOOT.LOG as start-up finds it: the valid entry with the highest sequence number is the newest (R342). -/
def State.logScan (s : State) : Word :=
  let best := (s.logSlots.filter s.logValid).foldl (fun (b : Option Nat) k => match b with
    | none => some k
    | some j => if s.logSeq j < s.logSeq k then some k else some j) none
  match best with
  | none => 0
  | some k => BitVec.ofNat 32 (0x80000000 + k * 65536 + (k + 1) % 16384)

/-- DRAM_TRAINING_COMPLETE (R309, R318, R325, R342): DRAM is ready and start-up leaves CLOCKS: with a device that answers, PASS1 of copy A begins with the log position known; else FLASHERR. Outside CLOCKS nothing happens. -/
def execDramTrainingComplete (sfdpOk : Bool) (s : State) : Host.Outcome State Fault Refusal :=
  .next (
    if s.supState = 3 ∧ s.bootStage = 1 then
      if sfdpOk && s.flashOn then
        ({ ((s.setReg regBOOT_LOG s.logScan).setStage 2).putRbit regBOOT_STATUS 27 false with flashPart := true, loading := false } : State)
      else ({ s with flashPart := false } : State).setStage 9
    else s)

/-! ## Rejection (R326, R327) -/

/-- The copy in work: false is A. -/
def State.bootCopy (s : State) : Bool := s.rbit regBOOT_STATUS 27

/-- NOIMAGE: both copies are rejected; source 6 lasts (R327). -/
def State.noImage (s : State) : State := ((s.setStage 7).putRbit regPAIR_STATUS 30 false).causeBegins 6

/-- The sequencer turns to copy B, or to NOIMAGE after it (R326, R327). -/
def State.nextCopy (s : State) : State :=
  if s.bootCopy then s.noImage else (s.setRbit regBOOT_STATUS 27).setStage 2

/-- A copy is rejected with a reason: BOOT.REJECT and source 5; after the start of PASS2 the block reset comes first (R326). -/
def State.copyReject (s : State) (code : Nat) : State :=
  let s1 := (s.setRfld regBOOT_REJECT (if s.bootCopy then 8 else 0) 8 code).faultOccurs 5
  if s.loading then { s1 with resetDue := true } else s1.nextCopy

/-- The registers that the block reset keeps: those of CLK and BOOT, the cause of the reset, what the supply and the strap show, and the live causes of the clock supervisor (R326, R361). -/
def State.blockRegs (s : State) : List (Nat × Word) :=
  let kept := s.regs.filter fun e => decide (e.1 / 0x10000 = 1) || decide (e.1 / 0x10000 = 21) || decide (e.1 = regGLOBAL_RSTCAUSE)
  let t : State := kept.foldl (fun (t : State) e => t.setReg e.1 e.2) { State.reset with regs := s.liveRegs }
  (t.setReg (regFAULT_CAUSE 1) (s.reg (regFAULT_CAUSE 1) &&& 0x00007E00#32)).regs

/-- The block reset: every block but the clock supervisor, the DRAM controller, the flash interface and BOOT; DRAM, the flash buffer and the message window keep their contents, and `freeCtr` and the queue are the model's own (R326). -/
def State.blockReset (s : State) : State :=
  { State.reset with
    regs := s.blockRegs, dram := s.dram, flash := s.flash, flashPart := s.flashPart, flCmd := s.flCmd, fuseKey := s.fuseKey, fuseLock := s.fuseLock,
    tab := s.tab.filter fun e => decide (0x01B00000 ≤ e.1) && decide (e.1 < 0x01B12000),
    spiResp := s.spiResp, testPort := s.testPort, otpRun := s.otpRun, sup := s.sup, railsOff := s.railsOff, railsUp := s.railsUp, rstOut := s.rstOut, divNow := s.divNow, divHold := s.divHold,
    earlyDiv := s.earlyDiv, earlySsc := s.earlySsc, xoFromRun := s.xoFromRun, freeCtr := s.freeCtr, pending := s.pending }

/-- BLOCK_RESET_COMPLETE (R326): the blocks are at reset, source 5 is raised again, and the sequencer turns to copy B, or to NOIMAGE after it. Without a block reset under way nothing happens. -/
def execBlockResetComplete (s : State) : Host.Outcome State Fault Refusal :=
  .next (if s.resetDue then (s.blockReset.faultOccurs 5).nextCopy else s)

/-! ## The passes (R325) -/

/-- Why PASS1 rejects a copy, if it does (R343). -/
def State.pass1Reject (s : State) (b readOk : Bool) : Option Nat :=
  if !readOk || !s.flashOn then some 11
  else if !s.imgHeader b then some 1
  else if !(s.imgMember b && s.imgIssue b) then some 2
  else if copyArea b < s.imgLength b then some 12
  else if !s.imgDirOk b then some 6
  else none

/-- PASS1_COMPLETE (R320, R321, R325): the first read of a copy ends: it is rejected, or VERIFY begins. Outside PASS1 nothing happens. -/
def execPass1Complete (readOk : Bool) (s : State) : Host.Outcome State Fault Refusal :=
  .next (
    if s.bootStage = 2 ∧ !s.resetDue then
      match s.pass1Reject s.bootCopy readOk with
      | some c => s.copyReject c
      | none => s.setStage 3
    else s)

/-- VERIFY_COMPLETE (R323, R324): the key hash, unless unfused, and the signature are checked; then PASS2 begins. Outside VERIFY nothing happens. -/
def execVerifyComplete (s : State) : Host.Outcome State Fault Refusal :=
  .next (
    if s.bootStage = 3 then
      if !s.keyOk s.bootCopy then s.copyReject 3
      else if !s.sigOk s.bootCopy then s.copyReject 4
      else { s.setStage 4 with loading := true }
    else s)

/-- PASS2_COMPLETE (R325, R328 to R330): the records are loaded and each section's CRC is checked; then CHECKS begins. Outside PASS2 nothing happens. -/
def execPass2Complete (readOk : Bool) (s : State) : Host.Outcome State Fault Refusal :=
  .next (
    if s.bootStage = 4 ∧ !s.resetDue then
      if !readOk || !s.flashOn then s.copyReject 11
      else match s.loadImage s.bootCopy with
        | (t, some c) => t.copyReject c
        | (t, none) => t.setStage 5
    else s)

/-! ## The checks (R118, R154, R200, R329) -/

/-- Two regions of the partition overlap. -/
def State.partOverlap (s : State) : Bool :=
  (List.range 5).any fun i => (List.range i).any fun j =>
    decide (0 < s.regionSize i) && decide (0 < s.regionSize j)
      && decide (s.regionBase i < s.regionBase j + s.regionSize j) && decide (s.regionBase j < s.regionBase i + s.regionSize i)

/-- The partition and the scene store obey R118 and R329. -/
def State.partitionOk (s : State) (b : Bool) : Bool :=
  !s.partOverlap && ((List.range 5).all fun r => decide (s.regionBase r + s.regionSize r ≤ 8192 * 262144)) && decide (0 < s.regionSize 0)
    && decide (((s.imgDir b).map (s.annWords b)).sum ≤ s.regionSize 1) && decide (resetWords + 4096 ≤ s.regionSize 3)

/-- Two ranges of sections share one. -/
def rangesMeet (f1 n1 f2 n2 : Nat) : Bool := decide (0 < n1) && decide (0 < n2) && decide (f1 < f2 + n2) && decide (f2 < f1 + n1)

/-- The first and count of the binding of a Course, COUNT as loaded (R154, R165). -/
def State.bindLoaded (s : State) (n : CourseId) : Nat × Nat := (s.rfld (regEQ_BIND n.val) 0 14, s.rfld (regEQ_BIND n.val) 14 9)

/-- The equaliser array obeys R154. -/
def State.equalisersOk (s : State) : Bool :=
  let ch := s.chainsOn.map fun c => (s.chainFirst c, s.chainCount c)
  let bd := courseIds.map s.bindLoaded
  (ch.all fun e => decide (1 ≤ e.2) && decide (e.2 ≤ 128) && decide (e.1 + e.2 ≤ 16384))
    && (bd.all fun e => decide (e.2 ≤ 256) && decide (e.1 + e.2 ≤ 16384))
    && (ch.zipIdx.all fun e => (ch.take e.2).all fun o => !rangesMeet e.1.1 e.1.2 o.1 o.2)
    && (ch.all fun e => bd.all fun o => !rangesMeet e.1 e.2 o.1 o.2)
    && decide ((ch.map (·.2)).sum + (bd.map (·.2)).sum ≤ 16384)

/-- Template `t` obeys R200: affinity, and code of the image at ENTRY on each Course of it. -/
def State.templateOk (s : State) (b : Bool) (t : Nat) : Bool :=
  !bit (s.tmpl t 0) 31 || (decide (fld (s.tmpl t 1) 0 8 ≠ 0) && (List.range 8).all fun n =>
    !bit (s.tmpl t 1) n || s.imgCovers b (0x02000000 + n * 0x80000 + 4 * fld (s.tmpl t 0) 0 14))

/-- Why CHECKS rejects a copy, if it does (R343). -/
def State.checksReject (s : State) (b : Bool) : Option Nat :=
  if !s.partitionOk b then some 7
  else if !s.equalisersOk then some 8
  else if !((List.range 256).all (s.templateOk b)) then some 9
  else none

/-! ## The first frame tick (R331) -/

/-- The loaded owners of the scratch banks come into force (R328). A reserved code acts as 0x9 (R113). -/
def State.ownersIn (s : State) : State :=
  s.bootOwn.foldl (fun (t : State) e => t.setReg e.1 (if 11 ≤ fld e.2 0 4 ∧ fld e.2 0 4 ≤ 14 then 9#32 else e.2 &&& 15#32)) { s with bootOwn := [] }

/-- The delay-configuration checks of the loaded entries (R121, R328). -/
def State.delayChecks (s : State) : State :=
  (s.tab.filterMap fun e => delayWord e.1).foldl (fun (t : State) d =>
    if d.word ≠ 0 then t else if d.isTap then t.checkTap d.course d.index else t.checkLine d.course d.index) s

/-- The events of the loaded words with reserved values, then the delay checks (R328). -/
def State.bootEvents (s : State) : State := (s.bootEv.foldl State.configError { s with bootEv := [] }).delayChecks

/-- The blocks that start from their loaded settings: ports, ASRC channels, flows, reference slots, generators, the control word (R212, R221, R230, R248, R284, R292, R294). -/
def State.blocksStart (s : State) : State :=
  let s1 := portIds.foldl (fun (t : State) p => (t.portFirst p).portCfgCheck p) s
  let s2 := s1.asrcEnabled.foldl State.asrcChanged s1
  let s3 := (s2.flowCheck 0).flowCheck 1
  let s4 := slotIds.foldl (fun (t : State) i => if t.rbit (regREF_SLOTCFG i) 31 then t.setSlot i slINVALID else t) s3
  let s5 := s4.genRequestAll
  if s5.refState = rFREERUN then s5.setReg regREF_DCO (s5.reg regREF_FREE) else s5

/-- Pairing at the first tick: CLAIM or JOIN by the pre-tick sample, or SINGLE (R344, R350). -/
def State.pairFirst (s : State) : State :=
  let t : State := { s with pairEn := s.rbit regPAIR_CFG 31 }
  let u := if !t.pairEn then t else if t.rbit regPAIR_STATUS 31 then t.toClaim else t.pairGo pJOIN
  ({ u with ownPrev := false, ownCur := !u.standby } : State).genPins

/-- The first frame tick is released: RATE, SLOW, STAGE, FC = 0, and what the image brings into force; it completes a start-up out of DEEP, with EV82 (R305, R328, R331). -/
def State.firstTick (s : State) : State :=
  let s1 := ((s.atRate (decide (s.imgField s.bootCopy 13 1 = 1))).ridgeSlow false).setReg regBOOT_IMAGE (BitVec.ofNat 32 (s.imgField s.bootCopy 20 4))
  let s2 : State := { s1.setStage 6 with ticking := true, fc := 0, loading := false, snap := { pend := 0, held := none }, sup := { s1.sup with ticked := true, muxDue := none } }
  let s3 := s2.ownersIn.bootEvents.blocksStart
  let s4 := if s3.unfused then s3.faultOccurs 4 else s3
  let s5 := (if s4.rbit regBOOT_STATUS 24 then s4.raiseEvent 82 0 else s4).tickErrs
  s5.pairFirst.muteTick.faultTick.snapTick s.snap.pend

/-- CHECKS_COMPLETE (R325, R331): the copy is rejected, or the first frame tick is released. Outside CHECKS nothing happens. -/
def execChecksComplete (s : State) : Host.Outcome State Fault Refusal :=
  .next (
    if s.bootStage = 5 ∧ !s.resetDue then
      match s.checksReject s.bootCopy with
      | some c => s.copyReject c
      | none => s.firstTick
    else s)

/-! ## The fuses (R333) -/

/-- KEYHASHi can be written: unfused, and in maintenance (R333). -/
def State.keyWritable (s : State) : Bool := s.unfused && s.rbit regGLOBAL_MODE 16

/-- A flash command or a burn runs (R333, R341). -/
def State.flashBusy (s : State) : Bool := s.flCmd.isSome || s.otpRun.isSome

/-- A write of BOOT.OTPCTRL (R333, R343): with KEY right in maintenance a burn starts and FLBUSY is set; a wrong KEY, no maintenance, BURNKEY on a fused hash, or a burn or command already under way is ignored with FLERR. A keyed write that asks for nothing does nothing. -/
def State.otpWrite (s : State) (v : Word) : State :=
  if fld v 16 16 ≠ 0xB01A ∨ !s.rbit regGLOBAL_MODE 16 ∨ (bit v 0 ∧ !s.unfused) ∨ s.flashBusy then s.setRbit regBOOT_STATUS 21
  else if !bit v 0 && !bit v 1 then s
  else
    let dig := (List.range 8).map fun i => s.reg (regBOOT_KEYHASH i)
    { s.setRbit regBOOT_STATUS 22 with otpRun := some (bit v 0, bit v 1, dig) }

/-- OTP_BURN (R333). -/
def execOtpBurn (_m : Master) (v : Word) (s : State) : Host.Outcome State Fault Refusal := .next (s.otpWrite v)

/-- OTP_BURN_COMPLETE (R333): the fuses hold what the burn wrote, seen from the next module reset on; FLBUSY clears. Without a burn nothing happens. -/
def execOtpBurnComplete (s : State) : Host.Outcome State Fault Refusal :=
  .next (match s.otpRun with
    | none => s
    | some (key, lock, dig) =>
      { s.putRbit regBOOT_STATUS 22 false with otpRun := none, fuseKey := if key then dig else s.fuseKey, fuseLock := s.fuseLock || lock })

end Sys2Proof.Machine
end

