-- ==== Sys2Proof/Machine/Bus.lean ====
section
/-! DEFINITION. The address map of R18 as its masters reach it: writes and reads of register blocks (R12, R15), of the table windows (R19, R138), of the Course windows (R78), the scratch views (R116) and the DRAM window (R340); the paths of R130; transfers under a violated clock ratio (R134); and the grant of a target port (R131, R401). -/

namespace Sys2Proof.Machine

/-- The state that a command with an effect leaves. -/
def outState (s : State) (o : Host.Outcome State Fault Refusal) : State :=
  match o with
  | .next t => t
  | _ => s

/-- What became of an access: 0 done, 1 an address error, 5 no answer (R337). -/
abbrev BusCode := Nat

/-! ## The flash commands (R341) -/

/-- FLADDR suits a command: aligned, on the device, and clear of the hold-up log for a program or an erase (R341). -/
def flashAddrOk (cmd a : Nat) : Bool :=
  decide (a % (if cmd = 3 then 65536 else 256) = 0) && decide (a < flashSize)
    && (decide (cmd = 1) || decide (a + (if cmd = 3 then 65536 else 256) ≤ logBase))

/-- A flash command: it starts and FLBUSY is set, or it is ignored and FLERR set (R341). -/
def State.flashStart (s : State) (cmd : Nat) : State :=
  let a := s.rfld regBOOT_FLADDR 0 28
  if s.flashBusy || !flashAddrOk cmd a then s.setRbit regBOOT_STATUS 21
  else { s.setRbit regBOOT_STATUS 22 with flCmd := some (cmd, a) }

/-- A write of BOOT.FLCMD (R341, R343). -/
def State.flashWrite (s : State) (v : Word) : State := if fld v 0 2 = 0 then s else s.flashStart (fld v 0 2)

/-! ## Writes of register blocks -/

/-- FAULT registers (R365, R367, R370, R376, R377). -/
def State.writeFault (s : State) (m : Master) (a : Nat) (v : Word) : State :=
  if inArr a 0x30040 4 8 then outState s (execFaultLatchClear m (fin 7 ((a - 0x30040) / 4)) v s)
  else if a = regFAULT_FFR0 then (if bit v 31 then outState s (execFirstFaultAck m s) else s)
  else if a = regFAULT_INJCTRL then outState s (execInjectionArm m v s)
  else if a = regFAULT_INJADDR then (if s.rbit regFAULT_INJCTRL 31 then s else s.regStore a v)
  else if a = regFAULT_TESTCTRL then s.testWrite v
  else if inArr a 0x30100 4 256 then s.setReg a (merge (s.reg a) (loadBits a) v)
  else s.regStore a v

/-- EVT and PEG registers (R174, R189, R195, R206, R207). -/
def State.writeEvt (s : State) (m : Master) (a : Nat) (v : Word) : State :=
  if a = regEVT_PURGE then outState s (execPurge m v s)
  else if inArr a 0x40080 4 4 then outState s (execEvtPendClear m (fin 3 ((a - 0x40080) / 4)) v s)
  else if inArr a 0x40500 4 32 then outState s (execSoftwareEventWrite m (fin 31 ((a - 0x40500) / 4)) v s)
  else if a = regPEG_QHDR then outState s (execPegQhdrWrite m v s)
  else if a = regPEG_QDATA then outState s (execPegQdataWrite m v s)
  else if a = regPEG_CANCEL then outState s (execPegCancelWrite m v s)
  else s.regStore a v

/-- A command of a time base by its code; 0 is none, and 6 and 7 are reserved (R273, R296). -/
def State.tbCommand (s : State) (t : Fin 4) (v : Word) : State :=
  match fld v 0 3 with
  | 0 => s
  | 1 => outState s (execTbCmdStep t s)
  | 2 => outState s (execTbCmdQualify t s)
  | 3 => outState s (execTbCmdLose t s)
  | 4 => outState s (execTbCmdArm t s)
  | 5 => outState s (execTbCmdGrandmaster t s)
  | _ => s.configError (regTIME_CMD t.val)

/-- TIME and REF registers (R273, R274, R281, R284, R287, R292, R294). -/
def State.writeTime (s : State) (m : Master) (a : Nat) (v : Word) : State :=
  let t := fin 3 (a / 256)
  if inArr a 0xD0000 256 4 then outState s (execTbCfgWrite m t v s)
  else if inArr a 0xD0004 256 4 then s.tbCommand t v
  else if inArr a 0xD000C 256 4 then outState s (execTbRateWrite m t v s)
  else if inArr a 0xD0024 256 4 then s.alignWrite t v
  else if inArr a 0xD004C 256 4 then outState s (execAlarmCtrlWrite m t 0 v s)
  else if inArr a 0xD005C 256 4 then outState s (execAlarmCtrlWrite m t 1 v s)
  else if a = regREF_CTRL then outState s (execRefCtrlWrite m v s)
  else if a = regREF_HOCFG then s.hoWrite v
  else if a = regREF_FREE then outState s (execRefFreeWrite m v s)
  else if inArr a 0xE0040 32 8 then outState s (execSlotCfgWrite m (fin 7 ((a - 0xE0040) / 32)) v s)
  else if inArr a 0xE0200 16 4 then outState s (execRealign m (fin 3 ((a - 0xE0200) / 16)) v s)
  else s.regStore a v

/-- NET registers (R240, R259, R271). -/
def State.writeNet (s : State) (m : Master) (a : Nat) (v : Word) : State :=
  if a = regNET_PCTRL 0 then outState s (execPathModeWrite m .a v s)
  else if a = regNET_PCTRL 1 then outState s (execPathModeWrite m .b v s)
  else if inArr a 0xC1000 16 64 then (if s.ringOn ((a - 0xC1000) / 16) then s else s.regStore a v)
  else if inArr a 0xC1004 16 64 then outState s (execRingCfgWrite m (fin 63 ((a - 0xC1004) / 16)) v s)
  else if inArr a 0xC100C 16 64 then outState s (execRingTailWrite m (fin 63 ((a - 0xC100C) / 16)) v s)
  else s.regStore a v

/-- BOOT registers (R333, R341, R343). -/
def State.writeBoot (s : State) (a : Nat) (v : Word) : State :=
  if a = regBOOT_OTPCTRL then s.otpWrite v
  else if a = regBOOT_FLCMD then s.flashWrite v
  else if inArr a 0x150020 4 8 then (if s.keyWritable then s.setReg a v else s)
  else s.regStore a v

/-- A write of Cn.CTRL: SRESET, BGEN and HALT (R72, R73, R77). -/
def State.courseCtrl (s : State) (n : CourseId) (v : Word) : State :=
  let s1 := s.putRbit (regC_CTRL n.val) 1 (bit v 1)
  let s2 := s1.putRbit (regC_CTRL n.val) 0 (bit v 0)
  let s3 := if bit v 0 then s2 else s2.modCourse n fun c => { c with haltDue := false }
  if bit v 31 then s3.modCourse n fun c => { c with resetReq := true } else s3

/-- Registers of the Course windows, SCR, DLY and RIDGE (R77, R113, R129, R135). -/
def State.writeEngine (s : State) (m : Master) (a : Nat) (v : Word) : State :=
  let n := fin 7 ((a - 0x200000) / 0x10000)
  if 0x200000 ≤ a then
    if a % 0x10000 = 0 then s.courseCtrl n v
    else match haltedReg a with
      | some _ => outState s (execCourseHaltedRegisterWrite m (BitVec.ofNat 32 a) v s)
      | none => s.regStore a v
  else if inArr a 0x100000 4 64 then outState s (execScrOwnWrite m (fin 63 ((a - 0x100000) / 4)) v s)
  else if inArr a 0x110040 4 8 then outState s (execDlyDeclWrite m (fin 7 ((a - 0x110040) / 4)) v s)
  else if a = regRIDGE_CTRL then outState s (execRidgeSlowWrite m v s)
  else s.regStore a v

/-- A write of a listed register by a master: a register with a rule of its own follows it, any other takes its RW fields and clears its W1C bits (R12). -/
def State.writeListed (s : State) (m : Master) (a : Nat) (v : Word) : State :=
  match a / 0x10000 with
  | 0 => if a = regGLOBAL_RESET then outState s (execGlobalResetWrite m v s) else if a = regGLOBAL_MODE then s.modeWrite v else s.regStore a v
  | 1 => if a = regCLK_DIV then outState s (execClkDivWrite m v s) else s.regStore a v
  | 3 => s.writeFault m a v
  | 4 => s.writeEvt m a v
  | 5 => s.writeEvt m a v
  | 10 => if a % 64 = 0 then outState s (execTdmCfgWrite m (fin 15 ((a - 0xA0000) / 64)) v s) else s.regStore a v
  | 12 => s.writeNet m a v
  | 13 => s.writeTime m a v
  | 14 => s.writeTime m a v
  | 15 => if a = regPAIR_CTRL then s.pairCtrl v else s.regStore a v
  | 19 => if a = regSNAP_CTRL then s.snapWrite v else s.regStore a v
  | 20 => if a = regHVIO_TOCTRL then outState s (execTrainLineOutputWrite m v s) else s.regStore a v
  | 21 => s.writeBoot a v
  | _ => s.writeEngine m a v

/-- A write of a register address: unlisted or misaligned it is unmapped; a shadowed register ignores it (R11, R13, R17, R168). -/
def State.regWrite (s : State) (m : Master) (a : Nat) (v : Word) : State × BusCode :=
  if a % 4 ≠ 0 ∨ (regInfo a).isNone then (s.unmapped, 1)
  else if shadowBits a ≠ 0 then (s.hostRef a, 1)
  else (s.writeListed m a v, 0)

/-! ## Reads of register blocks -/

/-- The data of a master's read command. -/
def State.taken (s : State) (m : Master) : Word := wmGet s.rdata m.val

/-- A read command of a master as a value and a state. -/
def readVia (s : State) (m : Master) (o : Host.Outcome State Fault Refusal) : Word × State := let t := outState s o; (t.taken m, t)

/-- A read of FC_LO latches FC_HI (R15, R22). -/
def State.readFc (s : State) : Word × State := (lo32 s.fc, s.setReg regGLOBAL_FC_HI (hi32 s.fc))

/-- A read of FCOFF_LO latches the high word (R15, R360). -/
def State.readFcOff (s : State) : Word × State := (s.reg regPAIR_FCOFF_LO, s.setLatch holdMaster regPAIR_FCOFF_HI (s.reg regPAIR_FCOFF_HI))

/-- A read of TIME.TBt_NS that names no elapsed time: that time is open (R272; log entry 2). -/
def State.readTbNs (s : State) (m : Master) (t : Fin 4) : Word × State :=
  let a := s.draw
  let b := a.2.draw
  readVia b.2 m (execTbNsRead m t (a.1 ++ b.1) b.2)

/-- A read of a register with RC fields: they clear, but for the events `ev` that meet the read (R12, R14). -/
def State.readClear (s : State) (a : Nat) (ev : Word) : Word × State :=
  let r := s.regValue a
  if rcBits a = 0 then r
  else
    let t := r.2.setReg a (merge (r.2.reg a) (rcBits a) ev)
    (r.1, if inArr a 0x100200 4 13 then { t with scrUsed := t.scrUsed.filter fun m => decide (m ≠ (a - 0x100200) / 4) } else t)

/-- The high words and record words that a read takes from a holding register (R15, R190, R360, R377). -/
def latchedFor (m : Master) (a : Nat) : Option Nat :=
  if ffrRest.contains a ∨ a = regPAIR_FCOFF_HI then some holdMaster
  else if 0x51000 ≤ a ∧ a < 0x51800 ∧ a % 32 ≠ 0 then some m.val
  else none

/-- A read of a listed register by a master. -/
def State.readListed (s : State) (m : Master) (a : Nat) : Word × State :=
  match latchedFor m a with
  | some h => (s.latched h a, s)
  | none =>
    if a = regGLOBAL_FC_LO then s.readFc
    else if a = regPAIR_FCOFF_LO then s.readFcOff
    else if a = regFAULT_FFR0 then readVia s m (execFfr0Read m s)
    else if inArr a 0xD0018 256 4 then s.readTbNs m (fin 3 (a / 256))
    else if inArr a 0xD0028 256 4 then readVia s m (execTbAncNsRead m (fin 3 (a / 256)) s)
    else if inArr a 0xD0414 16 4 then readVia s m (execCapnsRead m (fin 3 ((a - 0xD0414) / 16)) s)
    else if inArr a 0x51000 32 64 then readVia s m (execPegLogWord0Read m (fin 63 ((a - 0x51000) / 32)) s)
    else s.readClear a 0

/-- A read of a register address (R11, R13, R17). -/
def State.regRead (s : State) (m : Master) (a : Nat) : (Word × State) × BusCode :=
  if a % 4 ≠ 0 ∨ (regInfo a).isNone then ((0, s.unmapped), 1) else (s.readListed m a, 0)

/-! ## Table windows -/

/-- A write of a table window other than the delay tables (R138, R168, R263, R269). Waiting replies move up where it empties an outbound slot (R339). -/
def State.writeTab (s : State) (m : Master) (a : Nat) (t : TabWord) (v : Word) : State × BusCode :=
  match t.1 with
  | .shadow => (s.hostRef a, 1)
  | .boot => (s.hostRef a, 0)
  | .readOnly => (s.hostRef a, 0)
  | .direct =>
    if 0x01A30000 ≤ a ∧ a < 0x01A34000 then (outState s (execPartnerTableWrite m (BitVec.ofNat 32 a) v s), 0)
    else if 0x01A40000 ≤ a ∧ a < 0x01A40200 then
      (outState s (execClassifierRuleWrite m (fin 63 ((a - 0x01A40000) / 8)) (decide (a % 8 = 4)) v s), 0)
    else
      let t1 := s.tabSet a (v &&& t.2)
      (if 0x01B10800 ≤ a then t1.fillSlots 16 else t1, 0)

/-- A write through the block table port (R19, R120, R138). -/
def State.tableWrite (s : State) (m : Master) (a : Nat) (v : Word) : State × BusCode :=
  match tabWord a with
  | some t => s.writeTab m a t v
  | none =>
    match delayWord a with
    | some d => (outState s (execDelayTableWrite m (BitVec.ofNat 32 a) v s), if d.shadowed then 1 else 0)
    | none => (s.unmapped, 1)

/-- A read through the block table port (R19, R120, R162, R168). -/
def State.tableRead (s : State) (m : Master) (a : Nat) : (Word × State) × BusCode :=
  if (tabWord a).isSome then (s.tabRead m.val a, 0)
  else if a % 4 = 0 && (delayWord a).isSome then ((s.tabGet a, s), 0)
  else ((0, s.unmapped), 1)

/-! ## Views of memories that the host alone reaches -/

/-- The view, bank and word behind a host address of a scratch view (R116). -/
def scratchHost (a : Nat) : Option (RidgeView × Nat × Nat) :=
  let v : RidgeView := if a < 0x05000000 then .plain else if a < 0x06000000 then .setAlias else .clrAlias
  if 0x04000000 ≤ a ∧ a < 0x07000000 ∧ a % 4 = 0 then some (v, a % 0x01000000 / 0x40000, a % 0x40000 / 4) else none

/-- A scratch word is written in a view (R115). -/
def State.scratchStore (s : State) (v : RidgeView) (b w : Nat) (x : Word) : State :=
  match v with
  | .setAlias => (s.memRead 16 (b * 65536 + w)).scratchSet b w (s.scratchGet b w ||| x)
  | .clrAlias => (s.memRead 16 (b * 65536 + w)).scratchSet b w (s.scratchGet b w &&& ~~~x)
  | _ => s.scratchSet b w x

/-- The host, as the new owner of a bank, waits for its handover (R114). -/
def State.hostBank (s : State) (b : Nat) : State := s.awaitBank 10 (fin 63 b)

/-- A host write of a scratch view, checked as master 10 (R112, R116); while an earlier access keeps the handover to the host open, it does not answer (R114). -/
def State.hostScratchWrite (s : State) (a : Nat) (x : Word) : State × BusCode :=
  match scratchHost a with
  | none => (s.unmapped, 1)
  | some (v, b, w) =>
    let s := s.hostBank b
    if !s.scrMay 10 b then (s.scratchRefused 0 10 b (BitVec.ofNat 32 a), 1)
    else if s.scrPend b then (s, 5)
    else ((s.scrTouch 10).scratchStore v b w x, 0)

/-- A host read of a scratch view (R112, R114, R116). -/
def State.hostScratchRead (s : State) (a : Nat) : (Word × State) × BusCode :=
  match scratchHost a with
  | none => ((0, s.unmapped), 1)
  | some (_, b, w) =>
    let s := s.hostBank b
    if !s.scrMay 10 b then ((0, s.scratchRefused 0 10 b (BitVec.ofNat 32 a)), 1)
    else if s.scrPend b then ((0, s), 5)
    else ((s.scratchGet b w, (s.scrTouch 10).memRead 16 (b * 65536 + w)), 0)

/-- The DRAM word behind an address of the DRAM window (R340). -/
def State.windowWord (s : State) (a : Nat) : Nat := s.rfld regBOOT_DRAMWIN 0 9 * 4194304 + (a - 0x08000000) / 4

/-- A host write through the DRAM window (R119, R340); without a clock the DRAM does not answer (R303). -/
def State.hostDramWrite (s : State) (a : Nat) (x : Word) : State × BusCode :=
  if a % 4 ≠ 0 then (s.unmapped, 1)
  else match s.dramRefusal 10 (s.windowWord a) true with
    | some c => (s.ridgeRefused c 10 true (BitVec.ofNat 32 a), 1)
    | none => if s.dramOn then (s.dramSet (s.windowWord a) x, 0) else (s, 5)

/-- A host read through the DRAM window (R119, R340). -/
def State.hostDramRead (s : State) (a : Nat) : (Word × State) × BusCode :=
  if a % 4 ≠ 0 then ((0, s.unmapped), 1)
  else match s.dramRefusal 10 (s.windowWord a) false with
    | some c => ((0, s.ridgeRefused c 10 false (BitVec.ofNat 32 a)), 1)
    | none => if s.dramOn then ((s.dramGet (s.windowWord a), s.memRead 17 (s.windowWord a / 2 * 2)), 0) else ((0, s), 5)

/-- A host read of a Course window; under the debug lock, and outside the windows, it is unmapped (R78, R332). -/
def State.hostCourseRead (s : State) (a : Nat) : (Word × State) × BusCode :=
  match (if s.debugLock then none else courseWindow a) with
  | none => ((0, s.unmapped), 1)
  | some (n, prog, w) => (s.courseGet n prog w, 0)

/-- A host write of a Course window (R78, R332). -/
def State.hostCourseWrite (s : State) (a : Nat) (v : Word) : State × BusCode :=
  (outState s (execCourseMemoryWindowWrite 10 (BitVec.ofNat 32 a) v s), if s.debugLock || (courseWindow a).isNone then 1 else 0)

/-! ## Clock ratios (R134) -/

/-- The peripheral bus clock is not the Ridge clock divided by 2 to 8; the reserved PDIV 0 acts as 4 (R134, R299, R315). On the limp clock the bus runs at half of it (R303). -/
def State.periphRatioBad (s : State) : Bool := let d := fld s.divNow 8 4; s.courseClock && (decide (d = 1) || decide (8 < d))

/-- The transfers of master `m` to an address cross a converter whose ratio is violated (R133, R134). -/
def State.ratioBad (s : State) (m : Master) (a : Nat) : Bool :=
  (decide (m.val ≤ 7) && s.courseRatioBad) || ((decide (a / 0x10000 = 20) || decide (a / 0x10000 = 21)) && s.periphRatioBad)

/-- Some word of the target that `a` lies in, chosen by an open word: one of the two peripheral blocks, the register blocks behind the CSR bridge, the tables behind the block table port, a memory of a Course window, a scratch bank, or the DRAM window (R130, R133, R134). -/
def wildAddr (m : Master) (a : Nat) (r : Word) : Nat :=
  let within (base span : Nat) : Nat := base + 4 * (r.toNat % (span / 4))
  if a < 0x01000000 then (if m.val ≤ 7 then within 0 0x01000000 else within (a / 0x10000 * 0x10000) 0x10000)
  else if 0x02000000 ≤ a ∧ a < 0x02400000 then within (a / 0x80000 * 0x80000) 0x80000
  else if 0x04000000 ≤ a ∧ a < 0x07000000 then within (a / 0x40000 * 0x40000) 0x40000
  else if a < 0x08000000 then within 0x01000000 0x07000000
  else within 0x08000000 0x01000000

/-! ## The map (R18, R130) -/

/-- A master has a path to the register blocks (R130). -/
def csrPath (m : Master) : Bool := decide (m.val ≤ 7) || decide (m.val = 10) || decide (m.val = 11)

/-- A master has a path to the block tables (R130). -/
def tablePath (m : Master) : Bool := decide (m.val ≤ 7) || decide (m.val = 10)

/-- The kinds of target in the map: 0 register blocks, 1 block tables, 2 Course windows, 3 scratch views, 4 the DRAM window, 5 nothing (R18, R78, R116). -/
def mapKind (a : Nat) : Nat :=
  if a < 0x01000000 then 0
  else if 0x02000000 ≤ a ∧ a < 0x02400000 then 2
  else if 0x04000000 ≤ a ∧ a < 0x07000000 then 3
  else if a < 0x08000000 then 1
  else if a < 0x09000000 then 4
  else 5

/-- A master has a path to a kind of target (R130). -/
def kindPath (m : Master) (k : Nat) : Bool := if k = 0 then csrPath m else if k = 1 then tablePath m else decide (k = 5) || decide (m.val = 10)

/-- The target port behind an address of the map (R130). -/
def State.mapPort (s : State) (a : Nat) : Option RidgePort :=
  match mapKind a with
  | 0 => some .csr
  | 1 => some .table
  | 2 => some (.course (fin 7 ((a - 0x02000000) / 0x80000)))
  | 3 => some (.scratch (fin 63 (a % 0x01000000 / 0x40000)))
  | 4 => some (.dram (dramChannel (s.windowWord a)))
  | _ => none

/-- The port behind an address serves master `m` (R131). -/
def State.serve (s : State) (m : Master) (a : Nat) : State :=
  match s.mapPort a with
  | some p => s.servePort (portNo p) m.val
  | none => s

/-- A write that reaches its target. -/
def State.kindWrite (s : State) (m : Master) (a : Nat) (v : Word) : State × BusCode :=
  match mapKind a with
  | 0 => s.regWrite m a v
  | 1 => s.tableWrite m a v
  | 2 => s.hostCourseWrite a v
  | 3 => s.hostScratchWrite a v
  | 4 => s.hostDramWrite a v
  | _ => (s.unmapped, 1)

/-- A read that reaches its target. -/
def State.kindRead (s : State) (m : Master) (a : Nat) : (Word × State) × BusCode :=
  match mapKind a with
  | 0 => s.regRead m a
  | 1 => s.tableRead m a
  | 2 => s.hostCourseRead a
  | 3 => s.hostScratchRead a
  | 4 => s.hostDramRead a
  | _ => ((0, s.unmapped), 1)

/-- A write under a violated ratio: lost, or some word of the target takes some value (R134; log entry 2). -/
def State.wildWrite (s : State) (m : Master) (a : Nat) : State :=
  let l := s.draw
  let p := l.2.draw
  let v := p.2.draw
  if bit l.1 0 then v.2 else (v.2.kindWrite m (wildAddr m a p.1) v.1).1

/-- A write of the map by a master. In DEEP the blocks have no supply and nothing answers (R307); a hold of the ports comes to its end first (R135, R299). -/
def State.busWrite (s : State) (m : Master) (a : Nat) (v : Word) : State × BusCode :=
  if s.deep then (s, 5)
  else if !kindPath m (mapKind a) then (s.pathless m a true, 1)
  else
    let s := s.unhold.serve m a
    if s.ratioBad m a then (s.wildWrite m a, 0) else s.kindWrite m a v

/-- What a read of the map brings back: under a violated ratio its value is open (R134; log entry 2). -/
def State.readBack (s : State) (m : Master) (a : Nat) (r : Word × State) : Word × State := if s.ratioBad m a then r.2.draw else r

/-- A read of the map by a master. -/
def State.busRead (s : State) (m : Master) (a : Nat) : (Word × State) × BusCode :=
  if s.deep then ((0, s), 5)
  else if !kindPath m (mapKind a) then ((0, s.pathless m a false), 1)
  else
    let s := s.unhold.serve m a
    let r := s.kindRead m a
    (s.readBack m a r.1, r.2)

/-! ## Accesses to registers without a row of their own -/

/-- REGISTER_WRITE (R11 to R13, R17): a master writes a register: RW fields take the value, W1C bits clear, WO fields act; an unlisted or misaligned address is unmapped, a shadowed register ignores the write (R168). An address outside the register blocks is written as the map has it. -/
def execRegisterWrite (m : Master) (a v : Word) (s : State) : Host.Outcome State Fault Refusal :=
  .next (s.busWrite m a.toNat v).1

/-- RC_FIELD_READ (R12, R14): a master reads a register; its RC fields clear, but for the events `ev` of the same cycle. Another address is read as the map has it. -/
def execRcFieldRead (m : Master) (a : Word) (ev : Word) (s : State) : Host.Outcome State Fault Refusal :=
  .next (
    let r := if rcBits a.toNat = 0 ∨ !csrPath m ∨ s.deep then (s.busRead m a.toNat).1
      else
        let s := s.unhold.serve m a.toNat
        s.readBack m a.toNat (s.readClear a.toNat ev)
    r.2.returnTo m.val r.1)

/-- GLOBAL_FC_LO_READ (R15, R22): FC [31:0] is returned and FC [63:32] latched into GLOBAL.FC_HI. -/
def execGlobalFcLoRead (m : Master) (s : State) : Host.Outcome State Fault Refusal :=
  .next (let r := s.readFc; r.2.returnTo m.val r.1)

/-- PAIR_FCOFF_LO_READ (R15, R360): the low word is returned and the high word latched. -/
def execPairFcoffLoRead (m : Master) (s : State) : Host.Outcome State Fault Refusal :=
  .next (let r := s.readFcOff; r.2.returnTo m.val r.1)

/-! ## The grant of a target port (R51, R106, R127, R131, R401) -/

/-- What a Course asks of a port: its oldest posted write, or the read of a stalled context. -/
inductive PortAsk where
  | store (q : Posted)
  | load (x : CtxId) (r : RidgeReq)
deriving DecidableEq, Repr

/-- The read that a stalled context waits with on the Ridge, not yet granted. -/
def Ctx.ridgeRead (c : Ctx) : Option RidgeReq :=
  match c.stall with
  | none => none
  | some st => match openSlot (st.reads.getD []) with
    | some (.ridge r none) => some r
    | _ => none

/-- The request that a Course brings to a port. -/
def PortAsk.req : PortAsk → RidgeReq
  | .store q => q.req
  | .load _ r => r

/-- What Course `n` asks of port `t`: writes leave the buffer in order, and a read waits while a posted write to a port that one of its words reaches is in the buffer (R51). -/
def State.portAsk (s : State) (t : RidgePort) (n : CourseId) : Option PortAsk :=
  let c := s.course n
  let load (x : CtxId) : Option PortAsk :=
    match (c.ctx x).ridgeRead with
    | some r => if r.port = t ∧ !(c.posted.any fun q => q.req.ports.any r.ports.contains) then some (.load x r) else none
    | none => none
  match c.posted with
  | q :: _ => if !q.granted ∧ q.req.port = t then some (.store q) else (load .fg).orElse fun _ => load .bg
  | [] => (load .fg).orElse fun _ => load .bg

/-- The port can grant: no change of dividers or slices holds the masters, the DRAM has its clock, and an access of the new owner of a bank waits for the handover (R114, R135, R299, R303). -/
def State.portOpen (s : State) (t : RidgePort) (n : CourseId) : Bool :=
  !s.held && match t with
    | .dram _ => s.dramOn
    | .scratch b => !(s.scrPend b.val && s.scrMay n.val b.val)
    | _ => true

/-- The Course that the round robin grants: the first after the pointer that asks (R131). -/
def State.portWinner (s : State) (t : RidgePort) : Option (CourseId × PortAsk) :=
  let ptr := (mapFind s.rr (portNo t)).getD 12
  let order := (courseIds.filter fun n => decide (ptr < n.val)) ++ courseIds.filter fun n => decide (n.val ≤ ptr)
  order.findSome? fun n => match s.portAsk t n with
    | some q => if q.req.ports.all fun p => s.portOpen p n then some (n, q) else none
    | none => none

/-- A store in a view of a scratch bank, by data-space word address (R115). -/
def State.scratchPut (s : State) (a : Nat) (x : Word) : State :=
  match scratchView a with
  | some (.rotate, b, o) => s.scratchSet b (o / 4) (rotlB x (o % 4))
  | some (v, b, w) => s.scratchStore v b w x
  | none => s

/-- A scratch write under a violated ratio: lost, or some word of the bank takes some value (R134; log entry 2). -/
def State.wildScratch (s : State) (a : Nat) : State :=
  let l := s.draw
  let p := l.2.draw
  let v := p.2.draw
  if bit l.1 0 then v.2 else v.2.scratchSet ((scratchView a).map (·.2.1) |>.getD 0) (p.1.toNat % 65536) v.1

/-- A DRAM write under a violated ratio (R134; log entry 2). -/
def State.wildDram (s : State) : State :=
  let l := s.draw
  let p := l.2.draw
  let v := p.2.draw
  if bit l.1 0 then v.2 else v.2.dramSet (p.1.toNat % 2147483648) v.1

/-- One word of a granted write takes effect at its target (R401). -/
def State.grantStore (s : State) (n : CourseId) (r : RidgeReq) (a : Nat) (x : Word) : State :=
  let m : Master := fin 12 n.val
  match r.port with
  | .scratch _ => if s.courseRatioBad then (s.scrTouch n.val).wildScratch a else (s.scrTouch n.val).scratchPut a x
  | .dram _ => if s.courseRatioBad then s.wildDram else s.dramSet (a - 0x80000000) x
  | _ => (s.busWrite m a x).1

/-- The words of a granted write. -/
def State.grantStores (s : State) (n : CourseId) (r : RidgeReq) : List Nat → List Word → State
  | a :: as, x :: xs => (s.grantStore n r a x).grantStores n r as xs
  | _, _ => s

/-- One word of a granted read as its target holds it (R115, R401). -/
def State.grantLoad (s : State) (n : CourseId) (r : RidgeReq) (a : Nat) : Word × State :=
  let m : Master := fin 12 n.val
  let got : Word × State := match r.port with
    | .scratch _ =>
      match scratchView a with
      | some (.rotate, b, o) => (rotrB (s.scratchGet b (o / 4)) (o % 4), (s.scrTouch n.val).memRead 16 (b * 65536 + o / 4))
      | some (_, b, w) => (s.scratchGet b w, (s.scrTouch n.val).memRead 16 (b * 65536 + w))
      | none => (0, s)
    | .dram _ => (s.dramGet (a - 0x80000000), if a % 2 = 1 ∧ r.addrs.contains (a - 1) then s else s.memRead 17 ((a - 0x80000000) / 2 * 2))
    | _ => (s.busRead m a).1
  match r.port with
  | .scratch _ => if s.courseRatioBad then got.2.draw else got
  | .dram _ => if s.courseRatioBad then got.2.draw else got
  | _ => got

/-- The words of a granted read, in order. -/
def State.grantLoads (s : State) (n : CourseId) (r : RidgeReq) : List Nat → List Word × State
  | [] => ([], s)
  | a :: as =>
    let h := s.grantLoad n r a
    let t := h.2.grantLoads n r as
    (h.1 :: t.1, t.2)

/-- The first open slot takes the data of its grant. -/
def markGot (ws : List Word) : List ReadSlot → List ReadSlot
  | [] => []
  | .done v l r :: t => .done v l r :: markGot ws t
  | .ridge r none :: t => .ridge r (some ws) :: t
  | e :: t => e :: t

/-- The granted access of a Course takes effect. -/
def State.grant (s : State) (n : CourseId) (q : PortAsk) : State :=
  match q with
  | .store p =>
    let s1 := s.grantStores n p.req p.req.addrs p.data
    s1.modCourse n fun c => { c with posted := match c.posted with | h :: t => (if h = p then { h with granted := true } else h) :: t | [] => [] }
  | .load x r =>
    let g := s.grantLoads n r r.addrs
    g.2.modCourse n fun c => c.setCtx x (match (c.ctx x).stall with
      | some st => { c.ctx x with stall := some { st with reads := st.reads.map (markGot g.1) } }
      | none => c.ctx x)

/-- RIDGE_ACCESS_GRANT (R51, R115, R131, R401): the port grants the requesting Course that comes first after its pointer, the access takes effect, and the pointer moves. With no request that can be granted nothing happens. -/
def execRidgeAccessGrant (t : RidgePort) (s : State) : Host.Outcome State Fault Refusal :=
  .next (match s.portWinner t with
    | none => s
    | some (n, q) => { s with rr := mapSet (fun _ => 12) s.rr (portNo t) n.val }.grant n q)

/-! ## The reload of a Course (R72) -/

/-- COURSE_RESET_RELOAD_COMPLETE (R72, R329): in reset, with DRAM on and no entry of the Peg queue half processed, the Peg unit loads the foreground context and region from the reset store; the program restarts at the next tick. Otherwise nothing happens. -/
def execCourseResetReloadComplete (n : CourseId) (s : State) : Host.Outcome State Fault Refusal :=
  .next (
    let c := s.course n
    if c.phase = .reset ∧ !c.reloaded ∧ s.dramOn ∧ !s.headBusy then
      let base := s.resetStore n.val
      let len := 128 + s.fgWords n
      let s1 := s.dramTouch base len
      (s1.courseInit n ((List.range len).map fun i => s.dramGet (base + i))).modCourse n fun c => { c with reloaded := true }
    else s)

end Sys2Proof.Machine
end

