-- ==== Sys2Proof/Machine/CourseAgu.lean ====
section
/-! DEFINITION. The commands of the AGU and IO classes (R89 to R92): each offers its syllable to the bundle that its Course and context are issuing. -/

namespace Sys2Proof.Machine

/-- LD (R89): A load of 1, 2 or 4 words from data space into data registers, followed by the pointer update of the address form. -/
def execLd (h : SylHdr) (ch : Fin 16) (f : Form) (r : Fin 32) (sz : Size) (s : State) : Host.Outcome State Fault Refusal :=
  .next (s.syllable h .agu (!(Instr.ld h ch f r sz).wf) (.ld h ch f r sz))

/-- ST (R89): A store of data registers, or of a rounded accumulator, to data space, followed by the pointer update. -/
def execSt (h : SylHdr) (ch : Fin 16) (f : Form) (src : StSrc) (s : State) : Host.Outcome State Fault Refusal :=
  .next (s.syllable h .agu (!(Instr.st h ch f src).wf) (.st h ch f src))

/-- MODP (R89): The pointer of an address channel is updated by the address form without an access. -/
def execModp (h : SylHdr) (ch : Fin 16) (f : Form) (s : State) : Host.Outcome State Fault Refusal :=
  .next (s.syllable h .agu (!(Instr.modp h ch f).wf) (.modp h ch f))

/-- MVA (R89): A move between a data register and the P, N, L or K register of an address channel. -/
def execMva (h : SylHdr) (ch : Fin 16) (kind : AddrKind) (toData : Bool) (r : Fin 32) (s : State) : Host.Outcome State Fault Refusal :=
  .next (s.syllable h .agu false (.mva h ch kind toData r))

/-- SETLO (R89): An address register takes a sign-extended 16-bit immediate. -/
def execSetlo (h : SylHdr) (ch : Fin 16) (kind : AddrKind) (imm : BitVec 16) (s : State) : Host.Outcome State Fault Refusal :=
  .next (s.syllable h .agu false (.setlo h ch kind imm))

/-- SETHI (R89): The upper half of an address register takes a 16-bit immediate. -/
def execSethi (h : SylHdr) (ch : Fin 16) (kind : AddrKind) (imm : BitVec 16) (s : State) : Host.Outcome State Fault Refusal :=
  .next (s.syllable h .agu false (.sethi h ch kind imm))

/-- IN (R92): A read of I/O-space words into data registers, followed by the pointer update. -/
def execInp (h : SylHdr) (ch : Fin 16) (f : Form) (r : Fin 32) (sz : Size) (s : State) : Host.Outcome State Fault Refusal :=
  .next (s.syllable h .agu (!(Instr.inp h ch f r sz).wf) (.inp h ch f r sz))

/-- OUT (R92): A write of data registers, or of a rounded accumulator, to I/O space: the feed window directly, or the control and status window as a posted write. -/
def execOut (h : SylHdr) (ch : Fin 16) (f : Form) (src : StSrc) (s : State) : Host.Outcome State Fault Refusal :=
  .next (s.syllable h .agu (!(Instr.out h ch f src).wf) (.out h ch f src))

end Sys2Proof.Machine
end

