-- ==== Sys2Proof/Machine/CourseAlu.lean ====
section
/-! DEFINITION. The commands of the ALU class (R93, R94): each offers its syllable to the bundle that its Course and context are issuing. -/

namespace Sys2Proof.Machine

/-- ADD (R93): Modular 32-bit addition of two data registers. -/
def execAdd (h : SylHdr) (f : Bool) (dd da db : Fin 32) (s : State) : Host.Outcome State Fault Refusal :=
  .next (s.syllable h .alu false (.add h f dd da db))

/-- SUB (R93): Modular 32-bit subtraction of two data registers. -/
def execSub (h : SylHdr) (f : Bool) (dd da db : Fin 32) (s : State) : Host.Outcome State Fault Refusal :=
  .next (s.syllable h .alu false (.sub h f dd da db))

/-- ADDS (R93): Saturating addition of two data registers. -/
def execAdds (h : SylHdr) (f : Bool) (dd da db : Fin 32) (s : State) : Host.Outcome State Fault Refusal :=
  .next (s.syllable h .alu false (.adds h f dd da db))

/-- SUBS (R93): Saturating subtraction of two data registers. -/
def execSubs (h : SylHdr) (f : Bool) (dd da db : Fin 32) (s : State) : Host.Outcome State Fault Refusal :=
  .next (s.syllable h .alu false (.subs h f dd da db))

/-- AND (R93): Bitwise and of two data registers. -/
def execAnd (h : SylHdr) (f : Bool) (dd da db : Fin 32) (s : State) : Host.Outcome State Fault Refusal :=
  .next (s.syllable h .alu false (.and h f dd da db))

/-- OR (R93): Bitwise or of two data registers. -/
def execOr (h : SylHdr) (f : Bool) (dd da db : Fin 32) (s : State) : Host.Outcome State Fault Refusal :=
  .next (s.syllable h .alu false (.or h f dd da db))

/-- XOR (R93): Bitwise exclusive or of two data registers. -/
def execXor (h : SylHdr) (f : Bool) (dd da db : Fin 32) (s : State) : Host.Outcome State Fault Refusal :=
  .next (s.syllable h .alu false (.xor h f dd da db))

/-- ANDN (R93): Bitwise and of one data register with the complement of another. -/
def execAndn (h : SylHdr) (f : Bool) (dd da db : Fin 32) (s : State) : Host.Outcome State Fault Refusal :=
  .next (s.syllable h .alu false (.andn h f dd da db))

/-- ASR (R93): Arithmetic right shift by a register amount. -/
def execAsr (h : SylHdr) (f : Bool) (dd da db : Fin 32) (s : State) : Host.Outcome State Fault Refusal :=
  .next (s.syllable h .alu false (.asr h f dd da db))

/-- LSR (R93): Logical right shift by a register amount. -/
def execLsr (h : SylHdr) (f : Bool) (dd da db : Fin 32) (s : State) : Host.Outcome State Fault Refusal :=
  .next (s.syllable h .alu false (.lsr h f dd da db))

/-- LSL (R93): Left shift by a register amount. -/
def execLsl (h : SylHdr) (f : Bool) (dd da db : Fin 32) (s : State) : Host.Outcome State Fault Refusal :=
  .next (s.syllable h .alu false (.lsl h f dd da db))

/-- ASRI (R93): Arithmetic right shift by an immediate amount. -/
def execAsri (h : SylHdr) (f : Bool) (dd da : Fin 32) (k : BitVec 5) (s : State) : Host.Outcome State Fault Refusal :=
  .next (s.syllable h .alu false (.asri h f dd da k))

/-- LSRI (R93): Logical right shift by an immediate amount. -/
def execLsri (h : SylHdr) (f : Bool) (dd da : Fin 32) (k : BitVec 5) (s : State) : Host.Outcome State Fault Refusal :=
  .next (s.syllable h .alu false (.lsri h f dd da k))

/-- LSLI (R93): Left shift by an immediate amount. -/
def execLsli (h : SylHdr) (f : Bool) (dd da : Fin 32) (k : BitVec 5) (s : State) : Host.Outcome State Fault Refusal :=
  .next (s.syllable h .alu false (.lsli h f dd da k))

/-- ABS (R93): Saturating absolute value of a data register. -/
def execAbs (h : SylHdr) (f : Bool) (dd da : Fin 32) (s : State) : Host.Outcome State Fault Refusal :=
  .next (s.syllable h .alu false (.abs h f dd da))

/-- NEG (R93): Saturating negation of a data register. -/
def execNeg (h : SylHdr) (f : Bool) (dd da : Fin 32) (s : State) : Host.Outcome State Fault Refusal :=
  .next (s.syllable h .alu false (.neg h f dd da))

/-- MIN (R93): Signed minimum of two data registers. -/
def execMin (h : SylHdr) (f : Bool) (dd da db : Fin 32) (s : State) : Host.Outcome State Fault Refusal :=
  .next (s.syllable h .alu false (.min h f dd da db))

/-- MAX (R93): Signed maximum of two data registers. -/
def execMax (h : SylHdr) (f : Bool) (dd da db : Fin 32) (s : State) : Host.Outcome State Fault Refusal :=
  .next (s.syllable h .alu false (.max h f dd da db))

/-- CMPEQ (R93): A predicate bit takes the equality of two data registers, optionally inverted. -/
def execCmpeq (h : SylHdr) (pd : Fin 8) (da db : Fin 32) (pn : Bool) (s : State) : Host.Outcome State Fault Refusal :=
  .next (s.syllable h .alu false (.cmpeq h pd da db pn))

/-- CMPLT (R93): A predicate bit takes the signed less-than comparison, optionally inverted. -/
def execCmplt (h : SylHdr) (pd : Fin 8) (da db : Fin 32) (pn : Bool) (s : State) : Host.Outcome State Fault Refusal :=
  .next (s.syllable h .alu false (.cmplt h pd da db pn))

/-- CMPLE (R93): A predicate bit takes the signed less-or-equal comparison, optionally inverted. -/
def execCmple (h : SylHdr) (pd : Fin 8) (da db : Fin 32) (pn : Bool) (s : State) : Host.Outcome State Fault Refusal :=
  .next (s.syllable h .alu false (.cmple h pd da db pn))

/-- CMPLTU (R93): A predicate bit takes the unsigned less-than comparison, optionally inverted. -/
def execCmpltu (h : SylHdr) (pd : Fin 8) (da db : Fin 32) (pn : Bool) (s : State) : Host.Outcome State Fault Refusal :=
  .next (s.syllable h .alu false (.cmpltu h pd da db pn))

/-- CMPLEU (R93): A predicate bit takes the unsigned less-or-equal comparison, optionally inverted. -/
def execCmpleu (h : SylHdr) (pd : Fin 8) (da db : Fin 32) (pn : Bool) (s : State) : Host.Outcome State Fault Refusal :=
  .next (s.syllable h .alu false (.cmpleu h pd da db pn))

/-- SEL (R93): A data register takes one of two sources chosen by a predicate. -/
def execSel (h : SylHdr) (dd da db : Fin 32) (p : Fin 8) (pn : Bool) (s : State) : Host.Outcome State Fault Refusal :=
  .next (s.syllable h .alu false (.sel h dd da db p pn))

/-- MOVP (R93): A data register takes a source only when a predicate holds. -/
def execMovp (h : SylHdr) (dd da : Fin 32) (p : Fin 8) (pn : Bool) (s : State) : Host.Outcome State Fault Refusal :=
  .next (s.syllable h .alu false (.movp h dd da p pn))

/-- MOV (R93): A data register takes the value of another. -/
def execMov (h : SylHdr) (dd da : Fin 32) (s : State) : Host.Outcome State Fault Refusal :=
  .next (s.syllable h .alu false (.mov h dd da))

/-- MOVI (R93): A data register takes a sign-extended 16-bit immediate. -/
def execMovi (h : SylHdr) (dd : Fin 32) (imm : BitVec 16) (s : State) : Host.Outcome State Fault Refusal :=
  .next (s.syllable h .alu false (.movi h dd imm))

/-- MOVHI (R93): The upper half of a data register takes a 16-bit immediate. -/
def execMovhi (h : SylHdr) (dd : Fin 32) (imm : BitVec 16) (s : State) : Host.Outcome State Fault Refusal :=
  .next (s.syllable h .alu false (.movhi h dd imm))

/-- MFS (R93): A data register takes a special register: LCn, ROT, MODE or FLAGS. -/
def execMfs (h : SylHdr) (dd : Fin 32) (r : Spr) (s : State) : Host.Outcome State Fault Refusal :=
  .next (s.syllable h .alu false (.mfs h dd r))

/-- MTS (R94): A special register takes a data register, with the sticky-bit rules for FLAGS. -/
def execMts (h : SylHdr) (r : Spr) (da : Fin 32) (s : State) : Host.Outcome State Fault Refusal :=
  .next (s.syllable h .alu false (.mts h r da))

/-- CLS (R93): A data register takes the count of leading sign bits of another. -/
def execCls (h : SylHdr) (dd da : Fin 32) (s : State) : Host.Outcome State Fault Refusal :=
  .next (s.syllable h .alu false (.cls h dd da))

/-- LCI (R93): A loop counter takes a 16-bit immediate. -/
def execLci (h : SylHdr) (i : Fin 4) (imm : BitVec 16) (s : State) : Host.Outcome State Fault Refusal :=
  .next (s.syllable h .alu false (.lci h i imm))

end Sys2Proof.Machine
end

