-- ==== Sys2Proof/Machine/CourseCtl.lean ====
section
/-! DEFINITION. The commands of the CTL class (R95 to R102): each offers its syllable to the bundle that its Course and context are issuing. -/

namespace Sys2Proof.Machine

/-- NOP (R95): No operation. -/
def execNop (h : SylHdr) (s : State) : Host.Outcome State Fault Refusal :=
  .next (s.syllable h .ctl false (.nop h))

/-- BR (R96): A branch, taken when its predicate holds, after its delay slot. -/
def execBr (h : SylHdr) (p : Fin 8) (pn : Bool) (target : BitVec 14) (s : State) : Host.Outcome State Fault Refusal :=
  .next (s.syllable h .ctl false (.br h p pn target))

/-- DBNZ (R97): Decrements a loop counter, branches while it is not zero and, with .R, makes a rotate step. -/
def execDbnz (h : SylHdr) (rt : Bool) (i : Fin 4) (target : BitVec 14) (s : State) : Host.Outcome State Fault Refusal :=
  .next (s.syllable h .ctl false (.dbnz h rt i target))

/-- REP (R98): Latches a count and issues the next bundle that many times in consecutive cycles without interruption. -/
def execRep (h : SylHdr) (c : RepCount) (s : State) : Host.Outcome State Fault Refusal :=
  .next (s.syllable h .ctl false (.rep h c))

/-- ROTS (R65): A rotate step sets ROT to (ROT - 1) mod 16. -/
def execRots (h : SylHdr) (s : State) : Host.Outcome State Fault Refusal :=
  .next (s.syllable h .ctl false (.rots h))

/-- JAL (R95): Writes a link register and transfers to a target after the delay slot. -/
def execJal (h : SylHdr) (dd : Fin 32) (target : BitVec 14) (s : State) : Host.Outcome State Fault Refusal :=
  .next (s.syllable h .ctl false (.jal h dd target))

/-- JMP (R95): Transfers to the address in a data register after the delay slot. -/
def execJmp (h : SylHdr) (da : Fin 32) (s : State) : Host.Outcome State Fault Refusal :=
  .next (s.syllable h .ctl false (.jmp h da))

/-- FEND (R102): Frame end: ends the foreground work of the frame once the Course drains. -/
def execFend (h : SylHdr) (s : State) : Host.Outcome State Fault Refusal :=
  .next (s.syllable h .ctl false (.fend h))

/-- TEND (R102): Task end: ends the background instance once the Course drains. -/
def execTend (h : SylHdr) (s : State) : Host.Outcome State Fault Refusal :=
  .next (s.syllable h .ctl false (.tend h))

end Sys2Proof.Machine
end

