-- ==== Sys2Proof/Machine/CourseExt.lean ====
section
/-! DEFINITION. The commands of the extension block (R103 to R106) and undefined syllables (R107): each offers its syllable to the bundle that its Course and context are issuing. -/

namespace Sys2Proof.Machine

/-- EQ_SOS (R105): Steps a bound equaliser section once on an input and returns its output after 6 bundles. -/
def execEqSos (h : SylHdr) (dd da : Fin 32) (sec : BitVec 8) (s : State) : Host.Outcome State Fault Refusal :=
  .next (s.syllable h .alu false (.eqSos h dd da sec))

/-- ASRC_RATIO (R235): Returns the measured ratio of an ASRC channel to a background register. -/
def execAsrcRatio (h : SylHdr) (dd : Fin 32) (c : Fin 512) (s : State) : Host.Outcome State Fault Refusal :=
  .next (s.syllable h .alu false (.asrcRatio h dd c))

/-- ASRC_STAT (R235): Returns the status word of an ASRC channel to a background register. -/
def execAsrcStat (h : SylHdr) (dd : Fin 32) (c : Fin 512) (s : State) : Host.Outcome State Fault Refusal :=
  .next (s.syllable h .alu false (.asrcStat h dd c))

/-- MTR_GET (R103): Returns one reading of a meter point from the most recent complete meter work. -/
def execMtrGet (h : SylHdr) (dd da : Fin 32) (f : Fin 4) (s : State) : Host.Outcome State Fault Refusal :=
  .next (s.syllable h .alu false (.mtrGet h dd da f))

/-- DLY_MOVE (R106): Starts a block move described by a local descriptor and returns a ticket or a refusal code. -/
def execDlyMove (h : SylHdr) (dd da : Fin 32) (s : State) : Host.Outcome State Fault Refusal :=
  .next (s.syllable h .alu false (.dlyMove h dd da))

/-- DLY_POLL (R106): Returns the state of a move ticket. -/
def execDlyPoll (h : SylHdr) (dd da : Fin 32) (s : State) : Host.Outcome State Fault Refusal :=
  .next (s.syllable h .alu false (.dlyPoll h dd da))

/-- The unit whose place a syllable takes, by its class bits [30:27], whatever its other fields (R80, R84). -/
def classUnit (w : Word) : SylUnit :=
  match fld w 27 4 with
  | 0 => .mac
  | 1 | 4 => .agu
  | 2 | 8 | 9 | 10 | 11 => .alu
  | 3 => .ctl
  | _ => .none

/-- UNDEFINED_SYLLABLE (R107): the syllable with word `w` executes as a NOP in its place; its bundle sets ILLEGAL (R109). A word that spells a defined syllable is no undefined syllable, and nothing happens (log entry 10). -/
def execUndefinedSyllable (h : SylHdr) (w : Word) (s : State) : Host.Outcome State Fault Refusal :=
  .next (if undefinedWord w then s.syllable h (classUnit w) true (.undefinedSyllable h w) else s)

end Sys2Proof.Machine
end

