-- ==== Sys2Proof/Machine/CourseMac.lean ====
section
/-! DEFINITION. The commands of the MAC class (R87, R88): each offers its syllable to the bundle that its Course and context are issuing. -/

namespace Sys2Proof.Machine

/-- MAC (R87): Multiply-accumulate of two data registers into an accumulator, with a modular wrap that sets AV. -/
def execMac (h : SylHdr) (a : Fin 8) (dx dy : Fin 32) (s : State) : Host.Outcome State Fault Refusal :=
  .next (s.syllable h .mac false (.mac h a dx dy))

/-- MSU (R87): Multiply-subtract of two data registers from an accumulator, with a modular wrap that sets AV. -/
def execMsu (h : SylHdr) (a : Fin 8) (dx dy : Fin 32) (s : State) : Host.Outcome State Fault Refusal :=
  .next (s.syllable h .mac false (.msu h a dx dy))

/-- MUL (R87): An accumulator takes the exact product of two data registers. -/
def execMul (h : SylHdr) (a : Fin 8) (dx dy : Fin 32) (s : State) : Host.Outcome State Fault Refusal :=
  .next (s.syllable h .mac false (.mul h a dx dy))

/-- MULN (R87): An accumulator takes the negated exact product of two data registers. -/
def execMuln (h : SylHdr) (a : Fin 8) (dx dy : Fin 32) (s : State) : Host.Outcome State Fault Refusal :=
  .next (s.syllable h .mac false (.muln h a dx dy))

/-- CLR (R87): An accumulator is cleared to zero. -/
def execClr (h : SylHdr) (a : Fin 8) (s : State) : Host.Outcome State Fault Refusal :=
  .next (s.syllable h .mac false (.clr h a))

/-- LDA (R87): An accumulator takes a data register lifted to bits [62:31]. -/
def execLda (h : SylHdr) (a : Fin 8) (dx : Fin 32) (s : State) : Host.Outcome State Fault Refusal :=
  .next (s.syllable h .mac false (.lda h a dx))

/-- ADDA (R87): A lifted data register is added to an accumulator, with a modular wrap that sets AV. -/
def execAdda (h : SylHdr) (a : Fin 8) (dx : Fin 32) (s : State) : Host.Outcome State Fault Refusal :=
  .next (s.syllable h .mac false (.adda h a dx))

/-- ACCADD (R87): One accumulator is added to another, with a modular wrap that sets AV. -/
def execAccadd (h : SylHdr) (a y : Fin 8) (s : State) : Host.Outcome State Fault Refusal :=
  .next (s.syllable h .mac false (.accadd h a y))

/-- ACCSUB (R87): One accumulator is subtracted from another, with a modular wrap that sets AV. -/
def execAccsub (h : SylHdr) (a y : Fin 8) (s : State) : Host.Outcome State Fault Refusal :=
  .next (s.syllable h .mac false (.accsub h a y))

/-- MOVA (R61): An accumulator is moved to a data register with a scaling shift, convergent rounding and saturation that sets SV. -/
def execMova (h : SylHdr) (dx : Fin 32) (a : Fin 8) (sh : Option (BitVec 5)) (s : State) : Host.Outcome State Fault Refusal :=
  .next (s.syllable h .mac false (.mova h dx a sh))

/-- RDR (R87): A raw read of the L, H or X part of an accumulator into a data register. -/
def execRdr (h : SylHdr) (dx : Fin 32) (a : Fin 8) (part : AccPart) (s : State) : Host.Outcome State Fault Refusal :=
  .next (s.syllable h .mac false (.rdr h dx a part))

/-- WRR (R87): A raw write of a data register into the L, H or X part of an accumulator. -/
def execWrr (h : SylHdr) (a : Fin 8) (part : AccPart) (dx : Fin 32) (s : State) : Host.Outcome State Fault Refusal :=
  .next (s.syllable h .mac false (.wrr h a part dx))

end Sys2Proof.Machine
end

