-- ==== Sys2Proof/Machine/Spi.lean ====
section
/-! DEFINITION. The SPI host port (R335 to R339) and the flash commands of the host (R341). -/

namespace Sys2Proof.Machine

/-- The port answers at all: powered and not in DEEP (R307, R338). -/
def State.spiAlive (s : State) : Bool := s.railsUp && decide (s.modeCur ≠ 2)

/-- The commands other than STATUS are served: RUNNING, NOIMAGE, LIMP and FLASHERR (R338). -/
def State.spiServed (s : State) : Bool := s.spiAlive && decide (6 ≤ s.bootStage) && decide (s.bootStage ≤ 9)

/-- A response: STATUS, its fields, and the CRC-32 over both, most significant byte first (R335). -/
def spiFrame (code : Nat) (fields : List Byte) : List Byte :=
  let b := BitVec.ofNat 8 code :: fields
  b ++ bytesBE (crc32 b)

/-- A response is sent; a module that the request itself has reset sends none. -/
def State.respond (s : State) (code : Nat) (fields : List Byte) : State :=
  if s.spiAlive then { s with spiResp := spiFrame code fields } else s

/-- The assertion of the chip select is an active wake source (R308). -/
def State.spiSelect (s : State) : State := if s.railsUp then s.wakeBy .spi else s

/-- What every request but STATUS meets first: a CRC error, then Busy; else it is served by `f` (R337, R338). Its chip select can wake the module; out of DEEP the transaction that does is not executed (R308). -/
def State.spiRequest (s : State) (crcOk : Bool) (f : State → State) : State :=
  if !s.spiAlive then s.spiSelect
  else
    let s := s.spiSelect
    if !crcOk then s.respond 2 []
    else if !s.spiServed then s.respond 3 []
    else f s

/-- The first error of a request with several accesses (R336). -/
def firstCode (a b : BusCode) : BusCode := if a = 0 then b else a

/-- Successive words are read as master 10; every one is attempted (R336). -/
def State.spiReads (s : State) (a : Nat) : Nat → (List Word × State) × BusCode
  | 0 => (([], s), 0)
  | n + 1 =>
    let h := s.busRead 10 (a % 2 ^ 32)
    let t := h.1.2.spiReads (a + 4) n
    ((h.1.1 :: t.1.1, t.1.2), firstCode h.2 t.2)

/-- Successive words are written as master 10; every one is attempted while the port is served; with the number of words written (R336). -/
def State.spiWrites (s : State) (a : Nat) : List Word → (Nat × State) × BusCode
  | [] => ((0, s), 0)
  | v :: vs =>
    if s.spiServed then
      let h := s.busWrite 10 (a % 2 ^ 32) v
      let t := h.1.spiWrites (a + 4) vs
      (((if h.2 = 0 then 1 else 0) + t.1.1, t.1.2), firstCode h.2 t.2)
    else ((0, s), 0)

/-- COUNT is in range (R336). -/
def countOk (count : BitVec 16) : Bool := decide (1 ≤ count.toNat) && decide (count.toNat ≤ 256)

/-- The response fields of an access that got an answer; TIMEOUT replaces STATUS and carries none (R335). -/
def answered (code : BusCode) (fields : List Byte) : List Byte := if code = 5 then [] else fields

/-- SPI_READ (R335 to R338): COUNT words from ADDR are read as master 10 and returned with the first error. -/
def execSpiRead (a : Word) (count : BitVec 16) (crcOk : Bool) (s : State) : Host.Outcome State Fault Refusal :=
  .next (s.spiRequest crcOk fun s =>
    if !countOk count then s.respond 6 []
    else
      let r := s.spiReads a.toNat count.toNat
      r.1.2.respond r.2 (answered r.2 (r.1.1.flatMap bytesBE)))

/-- SPI_WRITE (R335 to R338): COUNT words are written from ADDR as master 10; the response carries the number written and the first error. A COUNT that is not the number of words sent is a length error. -/
def execSpiWrite (a : Word) (ws : List Word) (count : BitVec 16) (crcOk : Bool) (s : State) : Host.Outcome State Fault Refusal :=
  .next (s.spiRequest crcOk fun s =>
    if !countOk count || decide (ws.length ≠ count.toNat) then s.respond 6 []
    else
      let r := s.spiWrites a.toNat ws
      r.1.2.respond r.2 (answered r.2 (beBytes 2 r.1.1)))

/-- The inbound slot (R339). -/
def inSlot : Nat := 0x01B10000

/-- DELRON_SEND (R336 to R339): a message of 20 to 1,420 bytes is placed in the inbound slot and EV88 occurs with LEN; while the slot is full the request is refused with Busy. -/
def execDelronSend (len : BitVec 16) (msg : List Byte) (crcOk : Bool) (s : State) : Host.Outcome State Fault Refusal :=
  .next (s.spiRequest crcOk fun s =>
    if s.tabGet inSlot ≠ 0 then s.respond 3 []
    else if len.toNat < 20 ∨ 1420 < len.toNat ∨ msg.length ≠ len.toNat then s.respond 6 []
    else ((s.writeSlot inSlot msg).raiseEvent 88 (BitVec.ofNat 32 len.toNat)).respond 0 [])

/-- DELRON_RECV (R336, R339): the oldest full outbound slot is returned and emptied, and replies that wait move up; LEN 0 when none is full. -/
def execDelronRecv (crcOk : Bool) (s : State) : Host.Outcome State Fault Refusal :=
  .next (s.spiRequest crcOk fun s =>
    match s.outOldest with
    | none => s.respond 0 (beBytes 2 0)
    | some k =>
      let m := s.slotBytes (outSlot k)
      ((s.tabSet (outSlot k) 0).fillSlots 16).respond 0 (beBytes 2 m.length ++ m))

/-- SPI_STATUS (R336 to R338): BOOT.STATUS is returned, in every stage. A request whose CMD is none of R336 takes the same way and is refused as unknown (R337); one with the CMD of another row is that row's command. -/
def execSpiStatus (cmd : Option Byte) (s : State) : Host.Outcome State Fault Refusal :=
  .next (match cmd with
    | none => if s.spiAlive then s.spiSelect.respond 2 [] else s.spiSelect
    | some c =>
      if c ≠ 5#8 ∧ 1 ≤ c.toNat ∧ c.toNat ≤ 6 then s
      else
        let t := s.spiSelect
        if !s.spiAlive then t
        else if c ≠ 5#8 then t.respond 4 []
        else let r := t.regValue regBOOT_STATUS; r.2.respond 0 (bytesBE r.1))

/-- DOORBELL (R336 to R338): EV89 occurs with VALUE. -/
def execDoorbell (v : Word) (crcOk : Bool) (s : State) : Host.Outcome State Fault Refusal :=
  .next (s.spiRequest crcOk fun s => (s.raiseEvent 89 v).respond 0 [])

/-- SPI_TRANSACTION_ABANDON (R335): no response is sent; a WRITE already begun completes. -/
def execSpiTransactionAbandon (write : Option (Word × List Word)) (s : State) : Host.Outcome State Fault Refusal :=
  .next (
    let u := s.spiSelect
    let t := match write with
      | some (a, ws) => if s.spiServed then (u.spiWrites a.toNat ws).1.2 else u
      | none => u
    { t with spiResp := [] })

/-! ## Flash commands (R341) -/

/-- FLASH_READ (R341): command 1 at FLADDR starts, or is ignored with FLERR. -/
def execFlashRead (_m : Master) (s : State) : Host.Outcome State Fault Refusal := .next (s.flashStart 1)

/-- FLASH_PROGRAM (R341): command 2 at FLADDR starts, or is ignored with FLERR. -/
def execFlashProgram (_m : Master) (s : State) : Host.Outcome State Fault Refusal := .next (s.flashStart 2)

/-- FLASH_ERASE (R341): command 3 at FLADDR starts, or is ignored with FLERR. -/
def execFlashErase (_m : Master) (s : State) : Host.Outcome State Fault Refusal := .next (s.flashStart 3)

/-- The words of the flash buffer take values (R341). -/
def State.bufferSet (s : State) (ws : List Word) : State :=
  ws.zipIdx.foldl (fun (t : State) e => t.tabSet (0x01B00000 + 4 * e.2) e.1) s

/-- One byte is programmed: an erased byte takes the value; what a byte that is not erased becomes is open (R341; log entry 2). -/
def State.programByte (s : State) (a : Nat) (b : Byte) : State :=
  if s.flashByte a = 0xFF#8 then s.setFlash a b else let r := s.draw; r.2.setFlash a (r.1.extractLsb' 0 8)

/-- A page takes the buffer, the lowest byte of a word first (R341, R400). -/
def State.programPage (s : State) (a : Nat) : State :=
  (wordsLE ((List.range 64).map fun i => s.tabGet (0x01B00000 + 4 * i))).zipIdx.foldl (fun (t : State) e => t.programByte (a + e.2) e.1) s

/-- What a command that ends well does (R341). -/
def State.flashDone (s : State) (cmd a : Nat) : State :=
  if cmd = 1 then s.bufferSet ((List.range 64).map fun i => s.flashWord (a + 4 * i))
  else if cmd = 2 then s.programPage a
  else s.flashErase a 65536

/-- What a command that fails leaves: the buffer, the page, or the sector with open contents (R341; log entry 2). -/
def State.flashFailed (s : State) (cmd a : Nat) : State :=
  let w := if cmd = 3 then 16384 else 64
  let r := s.drawMany w
  if cmd = 1 then r.2.bufferSet r.1 else r.2.flashPut a (wordsLE r.1)

/-- FLASH_COMMAND_COMPLETE (R341): the running command ends and FLBUSY clears; a device error, or a device without power, sets FLERR. Without a command nothing happens. -/
def execFlashCommandComplete (deviceErr : Bool) (s : State) : Host.Outcome State Fault Refusal :=
  .next (match s.flCmd with
    | none => s
    | some (cmd, a) =>
      let s1 : State := { s.putRbit regBOOT_STATUS 22 false with flCmd := none }
      if deviceErr || !s.flashOn then (s1.setRbit regBOOT_STATUS 21).flashFailed cmd a else s1.flashDone cmd a)

end Sys2Proof.Machine
end

