-- ==== Sys2Proof/Machine/Delron.lean ====
section
/-! DEFINITION. Delron (R265 to R270): the messages received, the requests that GV_DELRON answers, and the roll-call. -/

namespace Sys2Proof.Machine

/-! ## Requests (R266, R268) -/

/-- A sender from which WRITE, PEG and SCENE_COMMIT are accepted: the SPI host port, or a control source (R268; log entry 60). -/
def delronAllowed : DelronSrc → Bool
  | .spi => true
  | .net ip _ => Config.delronControl.any fun e => ip &&& e.2 == e.1 &&& e.2

/-- GV_DELRON takes a message; one from the SPI host port empties the inbound slot (R339). -/
def State.delronTake (s : State) (src : DelronSrc) : State :=
  match src with
  | .spi => s.tabSet inSlot 0
  | .net _ _ => s

/-- A received message (R265). -/
structure DelronMsg where
  type : Nat
  seq : BitVec 16
  sender : BitVec 64
  body : List Byte
deriving DecidableEq, Repr

/-- The message in a list of bytes; none with a wrong MAGIC, VERSION, length or CRC (R265). -/
def delronParse (bs : List Byte) : Option DelronMsg :=
  let n := numAt bs 4 2
  if numAt bs 0 2 = 0xDE1A ∧ numAt bs 2 1 = 1 ∧ n ≤ 1400 ∧ bs.length = n + 20 ∧ bs.drop (16 + n) = bytesBE (crc32 (bs.take (16 + n))) then
    some { type := numAt bs 3 1, seq := BitVec.ofNat 16 (numAt bs 6 2), sender := BitVec.ofNat 64 (numAt bs 8 8), body := bytesAt bs 16 n }
  else none

/-- The types of R266. -/
def delronTypes : List Nat := [0x01, 0x02, 0x10, 0x11, 0x12, 0x13, 0x14, 0x15, 0x20, 0x21, 0x30, 0x31, 0x7F]

/-- A 32-bit word of a body. -/
def DelronMsg.word (m : DelronMsg) (i : Nat) : Word := BitVec.ofNat 32 (numAt m.body i 4)

/-- The words of a body from byte `i` on. -/
def DelronMsg.words (m : DelronMsg) (i : Nat) : List Word := (List.range ((m.body.length - i) / 4)).map fun k => m.word (i + 4 * k)

/-- The message is at the module: one from the SPI host port lies in the inbound slot (R339). -/
def State.delronHere (s : State) (src : DelronSrc) (msg : List Byte) : Bool :=
  match src with
  | .spi => decide (s.slotBytes inSlot = msg)
  | .net _ _ => true

/-- A message of type `type` is served by `f` once frames run; before, no task runs (R268). A damaged one is discarded without a reply (R265), one of an unknown type is refused with code 1 (R266); one of another type is another command. -/
def State.delronRequest (s : State) (src : DelronSrc) (type : Nat) (msg : List Byte) (f : DelronMsg → State → State) : State :=
  if s.ticking && s.delronHere src msg then
    match delronParse msg with
    | none => s.delronTake src
    | some m =>
      if m.type = type then f m (s.delronTake src)
      else if delronTypes.contains m.type then s
      else (s.delronTake src).nak src m.seq m.type 1
  else s

/-- Successive words are read for a request (R266). -/
def State.delronReads (s : State) (m : Master) (a : Nat) : Nat → (List Word × State) × BusCode
  | 0 => (([], s), 0)
  | n + 1 =>
    let h := s.busRead m (a % 2 ^ 32)
    let t := h.1.2.delronReads m (a + 4) n
    ((h.1.1 :: t.1.1, t.1.2), firstCode h.2 t.2)

/-- Successive words are written for a request, while frames run; with the number written (R266). -/
def State.delronWrites (s : State) (m : Master) (a : Nat) : List Word → (Nat × State) × BusCode
  | [] => ((0, s), 0)
  | v :: vs =>
    if s.ticking then
      let h := s.busWrite m (a % 2 ^ 32) v
      let t := h.1.delronWrites m (a + 4) vs
      (((if h.2 = 0 then 1 else 0) + t.1.1, t.1.2), firstCode h.2 t.2)
    else ((0, s), 0)

/-- STATUS of a reply: 0, or the address error 4 (R266). -/
def delronStatus (code : BusCode) : List Byte := beBytes 2 (if code = 0 then 0 else 4)

/-- DELRON_READ (R266, R268): COUNT words of the map, as the control and status window of a Course reaches it, come back in READ_REPLY; a COUNT out of range, or a body of another length, is refused. -/
def execDelronRead (src : DelronSrc) (head body crc : List Byte) (s : State) : Host.Outcome State Fault Refusal :=
  .next (s.delronRequest src 0x10 (head ++ body ++ crc) fun m s =>
    let count := numAt m.body 4 2
    if m.body.length ≠ 8 ∨ count < 1 ∨ 256 < count then s.nak src m.seq 0x10 2
    else
      let c := s.delronMaster
      let r := c.2.delronReads c.1 (m.word 0).toNat count
      r.1.2.reply src 0x11 m.seq (bytesAt m.body 0 6 ++ delronStatus r.2 ++ r.1.1.flatMap bytesBE))

/-- DELRON_WRITE (R266, R268): the words are written from ADDR on and WRITE_ACK carries the number written; another sender than a control source is refused, and so is a COUNT out of range or one that is not the number of words. A module that the write resets sends no reply. -/
def execDelronWrite (src : DelronSrc) (head body crc : List Byte) (s : State) : Host.Outcome State Fault Refusal :=
  .next (s.delronRequest src 0x12 (head ++ body ++ crc) fun m s =>
    let count := numAt m.body 4 2
    if !delronAllowed src then s.nak src m.seq 0x12 3
    else if m.body.length ≠ 8 + 4 * count ∨ count < 1 ∨ 256 < count then s.nak src m.seq 0x12 2
    else
      let c := s.delronMaster
      let r := c.2.delronWrites c.1 (m.word 0).toNat (m.words 8)
      if r.1.2.ticking then r.1.2.reply src 0x13 m.seq (bytesAt m.body 0 4 ++ beBytes 2 r.1.1 ++ delronStatus r.2) else r.1.2)

/-- DELRON_PEG (R172, R266, R268): the entry is placed in the Peg queue and PEG_ACK carries QFREE after it; refused from another sender, on a standby, when it does not match R173, or when the queue has no room. -/
def execDelronPeg (src : DelronSrc) (covered crc : List Byte) (s : State) : Host.Outcome State Fault Refusal :=
  .next (s.delronRequest src 0x14 (covered ++ crc) fun m s =>
    let h := m.word 0
    if !delronAllowed src then s.nak src m.seq 0x14 3
    else if s.standby || s.pegClosed then s.nak src m.seq 0x14 6
    else if m.body.length ≠ 4 * (hdrLen h + 1) ∨ !hdrOk h then s.nak src m.seq 0x14 2
    else if s.pegFree < hdrSpace h then s.nak src m.seq 0x14 5
    else
      let c := s.delronMaster
      let t := (m.words 4).foldl (fun (t : State) v => t.pegData c.1.val v) (c.2.pegHeader c.1.val h)
      t.reply src 0x15 m.seq (beBytes 2 0 ++ beBytes 2 t.pegFree))

/-- The words of a SCENE entry for a MODE: none, a frame, which the message does not carry by name and is open, or nanoseconds and seconds (R173, R266; log entry 2). -/
def State.sceneWords (s : State) (mode : Nat) (ns : Word) (sec : BitVec 48) : List Word × State :=
  match mode with
  | 0 => ([], s)
  | 1 => s.drawMany 2
  | _ => ([ns, sec.extractLsb' 0 32, (sec.extractLsb' 32 16).zeroExtend 32], s)

/-- DELRON_SCENE_COMMIT (R266, R268): the SCENE entry with the given MODE and TB is placed in the Peg queue, and SCENE_ACK follows its resolution; refused as DELRON_PEG is. -/
def execDelronSceneCommit (src : DelronSrc) (head scene mode ns sec crc : List Byte) (s : State) : Host.Outcome State Fault Refusal :=
  .next (s.delronRequest src 0x20 (head ++ (scene ++ mode ++ ns ++ sec) ++ crc) fun m s =>
    let scene := numAt m.body 0 2
    let mode := numAt m.body 2 1
    let tb := numAt m.body 3 1
    if !delronAllowed src then s.nak src m.seq 0x20 3
    else if s.standby || s.pegClosed then s.nak src m.seq 0x20 6
    else if m.body.length ≠ 16 ∨ 1024 ≤ scene ∨ 3 ≤ mode ∨ 4 ≤ tb then s.nak src m.seq 0x20 2
    else
      let w := s.sceneWords mode (m.word 4) (BitVec.ofNat 48 (numAt m.body 8 6))
      let h := BitVec.ofNat 32 (0x30000000 + w.1.length * 65536 + tb * 4096 + mode * 1024 + scene)
      if w.2.pegFree < hdrSpace h then w.2.nak src m.seq 0x20 5
      else
        let c := w.2.delronMaster
        (c.2.pegClose c.1.val).joinQueue c.1.val h w.1 (some (src, m.seq)))

/-- The time base states of STATUS and ANNOUNCE: two bits per base, TB0 lowest (R266, R273). -/
def State.tbStates (s : State) : Byte := BitVec.ofNat 8 (s.tbState 0 + 4 * s.tbState 1 + 16 * s.tbState 2 + 64 * s.tbState 3)

/-- Valid partner entries (R266, R269). -/
def State.validPartners (s : State) : Nat := ((List.range 512).filter s.partnerValid).length

/-- DELRON_STATUS_REQ (R266, R268): STATUS is sent to any sender; a body that is not empty is refused. -/
def execDelronStatusReq (src : DelronSrc) (msg : List Byte) (s : State) : Host.Outcome State Fault Refusal :=
  .next (s.delronRequest src 0x30 msg fun m s =>
    if m.body ≠ [] then s.nak src m.seq 0x30 2
    else
      let p := s.regValue regGLOBAL_PIPE_STAT
      p.2.reply src 0x31 m.seq (bytesBE p.1 ++ beBytes 8 s.fc.toNat ++ bytesBE (s.reg regNET_STATUS) ++ beBytes 2 s.validPartners
        ++ beBytes 2 s.partnersRefused ++ [s.tbStates, BitVec.ofNat 8 s.delronPair, 0, 0]))

/-! ## The roll-call (R265, R267, R269) -/

/-- The entry of a sender that is known (R269). -/
def State.partnerOf (s : State) (sender : BitVec 64) : Option Nat :=
  (List.range 512).find? fun p =>
    s.partnerValid p && decide (s.tabGet (partnerAddr p 1) = hi32 sender) && decide (s.tabGet (partnerAddr p 2) = lo32 sender)

/-- Word 0 of an entry (R269). -/
def partnerWord0 (b : Announce) (paths : Nat) : Word :=
  BitVec.ofNat 32 (0x80000000 + b.pairState.toNat * 2 ^ 29 + b2n b.roleB * 2 ^ 28 + paths * 2 ^ 26 + b.flows.length * 256 + b.carNo.toNat)

/-- An entry takes an announcement; its VALID comes last (R269). -/
def State.partnerUpdate (s : State) (p : Nat) (x : Path) (b : Announce) (paths : Nat) : State :=
  let heard := match x with | .a => if paths % 2 = 1 then paths else paths + 1 | .b => if paths / 2 = 1 then paths else paths + 2
  let s1 := ([hi32 b.sender, lo32 b.sender, b.ipA, b.ipB, lo32 s.fc, b.period.zeroExtend 32, b.gid].zipIdx).foldl
    (fun (t : State) e => t.partnerSet p (e.2 + 1) e.1) s
  let s2 := s1.partnerSet p 0 (partnerWord0 b heard)
  { s2 with partnerFlows := mapIns (mapDel s2.partnerFlows p) p b.flows }

/-- A flow record in a body (R267). -/
def DelronMsg.flowRec (m : DelronMsg) (i : Nat) : FlowRec :=
  let b (k : Nat) : Byte := nthD m.body (i + k) 0
  { num := b 0, fmt := b 1, nch := b 2, tag := b 3, addr := m.word (i + 4), w8 := m.word (i + 8), w12 := m.word (i + 12) }

/-- What an ANNOUNCE says; none where the length of its body is not that of its NFLOW, or NFLOW is above 64 (R267). -/
def DelronMsg.announce (m : DelronMsg) : Option Announce :=
  let n := numAt m.body 54 1
  if n ≤ 64 ∧ m.body.length = 56 + 16 * n then
    some { sender := m.sender, gid := m.word 0, pairState := BitVec.ofNat 2 (numAt m.body 8 1), roleB := decide (numAt m.body 9 1 = 1),
           carNo := nthD m.body 11 0, period := BitVec.ofNat 16 (numAt m.body 12 2), ipA := m.word 46, ipB := m.word 50,
           flows := (List.range n).map fun k => m.flowRec (56 + 16 * k) }
  else none

/-- An announcement of another module (R269, R270): the entry of the sender is updated, or the lowest free one made; with the table full the partner is only counted; the connection rules follow. -/
def State.announced (s : State) (x : Path) (b : Announce) : State :=
  match s.partnerOf b.sender with
  | some p => (s.partnerUpdate p x b (fld (s.tabGet (partnerAddr p 0)) 26 2)).connect
  | none => match (List.range 512).find? fun p => !s.partnerValid p with
    | some p => (s.partnerUpdate p x b 0).connect
    | none => { s with partnersRefused := s.partnersRefused + 1 }

/-- DELRON_ANNOUNCE (R265, R267, R269, R270): an announcement received on a path enters the roll-call. The module's own, and one that is damaged, are ignored. -/
def execDelronAnnounce (x : Path) (msg : List Byte) (s : State) : Host.Outcome State Fault Refusal :=
  .next (
    if !s.ticking then s
    else match delronParse msg with
      | none => s
      | some m => match (if m.type = 0x01 ∧ m.sender ≠ s.devId then m.announce else none) with
        | none => s
        | some b => s.announced x b)

/-- VALID of an entry clears, and the connection rules follow (R269, R270). -/
def State.partnerGone (s : State) (p : Nat) : State :=
  let s1 := s.partnerSet p 0 (s.tabGet (partnerAddr p 0) &&& 0x7FFFFFFF#32)
  ({ s1 with partnerFlows := mapDel s1.partnerFlows p } : State).connect

/-- DELRON_LEAVE (R265, R266, R269): from the network the sender's entry loses VALID; an unknown sender changes nothing. From the SPI host port it is the request of the host to send LEAVE on both paths (DEDUCED, log entry 60). -/
def execDelronLeave (msg : DelronSrc × List Byte) (s : State) : Host.Outcome State Fault Refusal :=
  .next (s.delronRequest msg.1 0x02 msg.2 fun m s =>
    match msg.1 with
    | .spi => s.sendLeave
    | .net _ _ => match s.partnerOf m.sender with
      | some p => s.partnerGone p
      | none => s)

/-- PARTNER_TIMEOUT (R269): the entry of a partner that has been silent for 3 × PERIOD loses VALID. An entry that is not valid changes nothing. -/
def execPartnerTimeout (p : Fin 512) (s : State) : Host.Outcome State Fault Refusal :=
  .next (if s.ticking ∧ s.partnerValid p.val then s.partnerGone p.val else s)

/-- The transmit flows that ANNOUNCE lists: the first 64 that are enabled (R267; log entry 61). -/
def State.announcedFlows (s : State) : List Nat := ((List.range 256).filter fun f => s.flowEnabled 1 f).take 64

/-- A flow record of the module's own (R267). -/
def State.flowRecord (s : State) (f : Nat) : List Byte :=
  let ws := s.flowWords 1 f
  let w1 := fw ws 1
  [BitVec.ofNat 8 f, BitVec.ofNat 8 (fld w1 24 2 * 64 + fld w1 26 1 * 32 + fld w1 21 3 * 4 + fld w1 27 2), BitVec.ofNat 8 (fld w1 10 6), Config.delronTag f]
    ++ bytesBE (fw ws 2)
    ++ (if fwAaf ws then bytesBE (fw ws 3) else beBytes 2 (fld (fw ws 3) 16 16) ++ [BitVec.ofNat 8 (fld (fw ws 3) 0 7), 0])
    ++ (if fwAaf ws then beBytes 2 (fld (fw ws 5) 0 16) ++ [0, 0] else bytesBE (fw ws 5))

/-- PERIOD within its range (R269). -/
def delronPeriodMs : Nat := clampNat 100 10000 Config.delronPeriod.toNat

/-- The body of ANNOUNCE (R267). -/
def State.announceBody (s : State) : List Byte :=
  let fs := s.announcedFlows
  bytesBE (s.reg regGLOBAL_ID) ++ bytesBE (s.reg regGLOBAL_ISSUE)
    ++ [BitVec.ofNat 8 s.delronPair, BitVec.ofNat 8 (s.rfld regPAIR_STATUS 29 1), s.tbStates, Config.delronCar] ++ beBytes 2 delronPeriodMs
    ++ ((List.range 32).map Config.delronName) ++ bytesBE (s.reg (regNET_PIP 0)) ++ bytesBE (s.reg (regNET_PIP 1))
    ++ [BitVec.ofNat 8 fs.length, 0] ++ fs.flatMap s.flowRecord

/-- ANNOUNCE_SEND (R265, R267, R269): ANNOUNCE goes to the group of the roll-call on every path with its link up; its SEQ is open (log entry 2). Before the first tick, or without a link, nothing happens. -/
def execAnnounceSend (s : State) : Host.Outcome State Fault Refusal :=
  .next (
    if s.ticking ∧ (s.rbit (regNET_PSTAT 0) 31 ∨ s.rbit (regNET_PSTAT 1) 31) then
      let r := s.draw
      { r.2 with delronNet := some (0xEFC0B01A#32, 0xB01A#16, delronMsg s.devId 0x01 (r.1.extractLsb' 0 16) s.announceBody) }
    else s)

end Sys2Proof.Machine
end

