-- ==== Sys2Proof/Machine/Frame.lean ====
section
/-! DEFINITION. The frame tick (R22): what every block does at the tick of frame k, where its work of frame k - 1 is taken as complete (R24, R25, R36), with the output hash and the state digest of R355. -/

namespace Sys2Proof.Machine

/-! ## The end of the work of a frame -/

/-- The mix matrix has not done its work of the frame that ends (R36); stopped in SLEEP it owes none (R306). -/
def State.matrixOverran (s : State) : Bool := !s.gatedOff 8 && decide (s.matFrame ≠ some s.now)

/-- Bus and feed values that no matrix work has delivered are open (R36; log entry 2). -/
def State.overrunValues (s : State) : State :=
  let b := s.drawMany 1024
  let f := b.2.drawMany 2048
  { f.2 with bus := wmSetMany f.2.bus (s.now % 2 * 1024) b.1, mixFeeds := wmSetMany [] 0 f.1 }

/-- The presentation of the frame that ends: transmit flows and AES3 transmitters keep its samples (R25, R228, R256); blocks without a clock in SLEEP do not (R306). -/
def State.presented (s : State) : State :=
  let s1 := if s.gatedOff 14 then s else s.txFlowsTick s.now
  if s1.gatedOff 12 then s1 else aesIds.foldl (fun (t : State) x => t.txPresent x t.now) s1

/-- A clock condition is violated under which a fixed block may miss its bound: the CPLL coasts, or the Course ratio is wrong (R36). -/
def State.clockOdd (s : State) : Bool := s.rbit regCLK_STATUS 24 || s.courseRatioBad

/-- Whether the equaliser array, and the meters, have overrun the frame that ends: open while a clock condition is violated (R36; log entry 2). -/
def State.fixedLate (s : State) : (Bool × Bool) × State :=
  if s.clockOdd then let r := s.draw; ((bit r.1 0 && !s.gatedOff 9, bit r.1 1 && !s.gatedOff 10), r.2) else ((false, false), s)

/-- The chain outputs that an overrun of the array leaves open (R36; log entry 2). -/
def State.chainsOpen (s : State) : State := let r := s.drawMany 1024; { r.2 with chainOut := wmSetMany [] 0 r.1 }

/-- The readings that an overrun of the meters leaves open (R36; log entry 2). -/
def State.metersOpen (s : State) : State :=
  s.meters.foldl (fun (t : State) e =>
    let r := t.drawMany 4
    { r.2 with meters := mapIns (mapDel r.2.meters e.1) e.1 { e.2 with sp := (nthD r.1 0 0).toNat, tp := (nthD r.1 1 0).toNat, hp := (nthD r.1 2 0).toNat, r := (nthD r.1 3 0).toNat * 2 ^ 32 } }) s

/-- The equaliser array's and the meters' work of the frame that ends (R25, R153, R160); a block without a clock delivers zero (R306). -/
def State.fixedWork (s : State) : State :=
  let s1 : State := if s.gatedOff 9 then { s with chainOut := [] } else s.eqWork s.now
  if s1.gatedOff 10 then s1 else s1.meterWork s1.now

/-- The captured value of feed `f` (R139, R140): the origin channel that the feed map names, zero where there is none; a Course's feeds are taken by the matrix work itself. -/
def State.captureValue (s : State) (f : Nat) : Word :=
  let e := s.feedMap (f / 16)
  let i := f % 16
  match fld e 28 4 with
  | 1 =>
    let p := fin 15 (fld e 0 4)
    if s.gatedOff 12 || bit (s.port p).cfg 16 then 0 else s.portInput p (16 * fld e 4 1 + i)
  | 2 => if s.gatedOff 12 || decide (8 ≤ i) then 0 else s.rxInput (fin 3 (i / 2)) (i % 2)
  | 3 => if s.gatedOff 14 then 0 else s.netInput (16 * fld e 0 6 + i)
  | 4 => if s.gatedOff 11 then 0 else wmGet s.asrcOut (16 * fld e 0 5 + i)
  | _ => 0

/-- The stream engine reads its buffers in the work of a frame: the spec numbers the words of a buffer and does not place samples in them (R369, R370; log entry 2). -/
def State.flowReads (s : State) : State := s.memMay 21 fun _ => !(s.rxFlows.isEmpty && s.txFlows.isEmpty)

/-- The input blocks' work of the frame that ends: receivers and flows are captured, ASRC channels deliver, and the feed values stand in the feed slots (R25, R139). -/
def State.captureFrames (s : State) : State :=
  let s1 := if s.gatedOff 12 then s else aesIds.foldl (fun (t : State) r => t.rxCapture r (t.now + 1)) s
  let s2 := if s1.gatedOff 14 then s1 else s1.flowReads.rxFlowsTick s1.now
  let s3 : State := if s2.gatedOff 11 then { s2 with asrcOut := [] } else s2.asrcTick
  { s3 with captured := (List.range 2048).foldl (fun m f => wmSet m f (s3.captureValue f)) [] }

/-- The levels of ports, slots and receivers step (R221). -/
def State.levelTick (s : State) : State :=
  if s.gatedOff 12 then s
  else aesIds.foldl (fun (t : State) r => t.rxLevel r) (portIds.foldl State.portTick s)

/-! ## The output hash (R355) -/

/-- The words of a port's output slots in the presentation frame that ends; a masked slot is a zero word, and a port that is not enabled has none. -/
def State.portWords (s : State) (p : Fin 16) : List Word :=
  if s.portOn p then (List.range (cfgSlots (s.port p).cfg)).map fun i => ((s.slotPin p i s.now).1).getD 0 else []

/-- The two subframes of an enabled transmitter at Fi. -/
def State.txWords (s : State) (t : Fin 4) : List Word :=
  if s.rbit (regAES_TXCTRL t.val) 31 then [slotOut (s.tx t).next.1 24, slotOut (s.tx t).next.2 24] else []

/-- The rounded sample of network transmit channel `c`, if a flow presents one. -/
def State.netWords (s : State) (c : Nat) : List Word :=
  match s.txFlows.find? fun e => e.2.run && decide (fwFirst e.2.words ≤ c) && decide (c < fwFirst e.2.words + fwChans e.2.words) with
  | some e => [slotOut (nthD ((e.2.hist.head?.map (·.2)).getD []) (c - fwFirst e.2.words) 0) (8 * fwBytes e.2.words)]
  | none => []

/-- The two bytes of the sequence number of the packet of a flow that ends in the frame, if one does, least significant first (R256, R355, R400). -/
def State.seqBytes (s : State) (v : TxFlow) : List Byte :=
  if !v.run then []
  else match s.packetStart v s.now with
    | none => []
    | some sn =>
      let w := ofInt (((fld (fw v.words 6) 16 16 : Int) + sn / fwSamples v.words) % 65536)
      [lane w 0, lane w 1]

/-- An enabled output runs at a rate other than Fi: its samples that begin in the frame are open, for no command gives them. -/
def State.hashOpen (s : State) : Bool :=
  (portIds.any fun p => s.portSlave p && bit (s.port p).cfg 16)
    || (aesIds.any fun t => s.rbit (regAES_TXCTRL t.val) 31 && decide (s.txRate t ≠ 0))
    || (s.txFlows.any fun e => e.2.run && decide (fwRate e.2.words ≠ s.fi))

/-- The output hash of the frame that ends, in the order of R355. -/
def State.outputHash (s : State) : Word × State :=
  if s.hashOpen then s.draw
  else
    let ws := portIds.flatMap s.portWords ++ aesIds.flatMap s.txWords ++ (List.range 1024).flatMap s.netWords
    (crc32 (wordsLE ws ++ s.txFlows.flatMap fun e => s.seqBytes e.2), s)

/-! ## The state digest (R355) -/

/-- Words of the sections in the state image. -/
def digestSections : Nat := 16384 * 16

/-- Words of one Course in the state image. -/
def State.imgCourse (s : State) (n : CourseId) : Nat := 128 + s.fgWords n

/-- The word count W of the state image. -/
def State.imgWords (s : State) : Nat := digestSections + (courseIds.map s.imgCourse).sum + 4096 * 32

/-- The number Q of slices. -/
def State.imgSlices (s : State) : Nat := (s.imgWords + 1023) / 1024

/-- Word `w` of the four of a member slot: s1 and s2, low word first; zero for a slot not in use. -/
def memberWord (m : Option SecMember) (w : Nat) : Word :=
  let z := (m.bind (·.st)).getD (0, 0)
  let v := if w < 2 then z.1 else z.2
  if w % 2 = 0 then ofInt v else ofInt (v / 2 ^ 32)

/-- Word `i` of the sections' part. -/
def State.imgSection (s : State) (i : Nat) : Word :=
  memberWord ((s.sec (i / 16)).fade.members[i / 4 % 4]?) (i % 4)

/-- Word `i` of a Course's part: the foreground context, then the foreground region. -/
def Course.imgWord (c : Course) (i : Nat) : Word := if i < 128 then nthD (ctxWords c.fg) i 0 else memWord c.lmem (i - 128)

/-- Word `i` of a meter point: its followers, the power, and the observed values, newest first (log entry 71). -/
def Meter.imgWord (m : Meter) (i : Nat) : Word :=
  match i with
  | 0 => BitVec.ofNat 32 m.sp
  | 1 => BitVec.ofNat 32 m.tp
  | 2 => BitVec.ofNat 32 m.hp
  | 3 => BitVec.ofNat 32 m.th
  | 4 => BitVec.ofNat 32 m.r
  | 5 => BitVec.ofNat 32 (m.r / 2 ^ 32)
  | _ => if i < 18 then nthD m.hist (i - 6) 0 else 0

/-- Word `i` of the Courses' part and, behind it, of the meters' part. -/
def State.imgRest (s : State) : List CourseId → Nat → Word
  | n :: ns, i => if i < s.imgCourse n then (s.course n).imgWord i else s.imgRest ns (i - s.imgCourse n)
  | [], i => if i < 4096 * 32 then ((mapFind s.meters (i / 32)).getD meterZero).imgWord (i % 32) else 0

/-- Word `i` of the state image. -/
def State.imageWord (s : State) (i : Nat) : Word := if i < digestSections then s.imgSection i else s.imgRest courseIds (i - digestSections)

/-- The frame number k_a of the frame that ends, in the active's numbering. -/
def State.activeFrame (s : State) : Nat := if s.standby then ((s.now : Int) + s.fcOff).toNat else s.now

/-- The state digest of the frame that ends; open while a Course is still in the work of a frame that has ended, whose end no command has reached (R355; log entry 2). -/
def State.stateDigest (s : State) : Word × State :=
  if courseIds.any fun n => decide ((s.course n).frame ≤ s.now) && decide ((s.course n).phase ≠ .halted) && decide ((s.course n).phase ≠ .reset)
      && !s.asleep then s.draw
  else (crcWords ((List.range 1024).map fun i => s.imageWord (1024 * (s.activeFrame % s.imgSlices) + i)), s)

/-- One value for frame `k`, with those of the four frames before it. -/
def keepFrames (m : List (Nat × Word)) (k : Nat) (w : Word) : List (Nat × Word) :=
  mapIns ((mapDel m k).filter fun e => decide (k ≤ e.1 + 4)) k w

/-- The output hash of the frame that ends, on a module of a pair. -/
def State.hashTick (s : State) : State :=
  if s.pairEn then let h := s.outputHash; { h.2 with hashes := keepFrames h.2.hashes s.now h.1 } else s

/-- The state digest of the frame that ends, on a module of a pair. -/
def State.digestTick (s : State) : State :=
  if s.pairEn then let d := s.stateDigest; { d.2 with digests := keepFrames d.2.digests s.now d.1 } else s

/-! ## The tick -/

/-- The work of the frame that ends is complete in every block but the Courses (R25, R36). -/
def State.endFrame (s : State) : State :=
  let s1 := if s.matrixOverran then s.overrunValues else s
  s1.presented.hashTick.fixedWork.captureFrames.digestTick.levelTick

/-- What the overruns of the array and of the meters leave open (R36). -/
def State.lateWork (s : State) (late : Bool × Bool) : State :=
  let s1 := if late.1 then s.chainsOpen else s
  if late.2 then s1.metersOpen else s1

/-- The Courses at the tick of frame `k` (R35, R71 to R73, R306). -/
def State.coursesTick (s : State) (k : Nat) : State :=
  courseIds.foldl (fun (t : State) n => if t.asleep then t.courseSleepTick n k else t.courseTick n k) s

/-- Ownership of the presentation frame that begins, and the pulse outputs with it (R295, R352). -/
def State.ownTick (s : State) : State := ({ s with ownPrev := s.ownCur, ownCur := !s.standby } : State).genPins

/-- What begins with the new frame: anchors, pairing, Courses, faults and levels (R279, R350, R363 to R365). -/
def State.beginFrame (s : State) : State :=
  (((s.timeTick).pairTick.ownTick).coursesTick s.now).faultTick.muteTick

/-- The first frame's tick is released by CHECKS_COMPLETE; from then on FRAME_TICK (R22) ends the frame in progress, increments FC and begins the next. The fixed-block overrun is an occurrence of this tick (R36), and triggers that came before it take a snapshot (R372). Before the first tick nothing happens. -/
def execFrameTick (s : State) : Host.Outcome State Fault Refusal :=
  .next (
    if s.ticking then
      let s0 : State := { s.snapDone with snap := { pend := 0, held := none } }
      let late := s0.fixedLate
      let s1 := late.2.endFrame.lateWork late.1
      let s2 := ({ s1 with fc := s1.fc + 1 } : State).restart.beginFrame
      (if s0.matrixOverran || late.1.1 || late.1.2 then s2.faultOccurs 40 else s2).snapTick s.snap.pend
    else s)

end Sys2Proof.Machine
end

