-- ==== Sys2Proof/Machine/Dispatch.lean ====
section
/-! DEFINITION. The effect of a command: one arm per command, in the order of Syntax.lean, each one call of its meaning. -/

namespace Sys2Proof.Machine

/-- A command's effect on everything but the queue. -/
def exec (i : Instr) (s : State) : Host.Outcome State Fault Refusal :=
  match i with
  | .registerWrite m a v => Sys2Proof.Machine.execRegisterWrite m a v s
  | .rcFieldRead m a ev => Sys2Proof.Machine.execRcFieldRead m a ev s
  | .globalFcLoRead m => Sys2Proof.Machine.execGlobalFcLoRead m s
  | .pairFcoffLoRead m => Sys2Proof.Machine.execPairFcoffLoRead m s
  | .frameTick => Sys2Proof.Machine.execFrameTick s
  | .matrixWorkStart => Sys2Proof.Machine.execMatrixWorkStart s
  | .foregroundStart n => Sys2Proof.Machine.execForegroundStart n s
  | .foregroundWorkComplete n cycles behind => Sys2Proof.Machine.execForegroundWorkComplete n cycles behind s
  | .slackMiss n => Sys2Proof.Machine.execSlackMiss n s
  | .backlogLimit n => Sys2Proof.Machine.execBacklogLimit n s
  | .sreset m n => Sys2Proof.Machine.execSreset m n s
  | .courseResetReloadComplete n => Sys2Proof.Machine.execCourseResetReloadComplete n s
  | .halt m n on => Sys2Proof.Machine.execHalt m n on s
  | .courseHalted n => Sys2Proof.Machine.execCourseHalted n s
  | .courseHaltedRegisterWrite m a v => Sys2Proof.Machine.execCourseHaltedRegisterWrite m a v s
  | .courseMemoryWindowWrite m a v => Sys2Proof.Machine.execCourseMemoryWindowWrite m a v s
  | .ridgeReadReturn n x => Sys2Proof.Machine.execRidgeReadReturn n x s
  | .postedWriteAccept n => Sys2Proof.Machine.execPostedWriteAccept n s
  | .ridgeAccessGrant t => Sys2Proof.Machine.execRidgeAccessGrant t s
  | .mac h a dx dy => Sys2Proof.Machine.execMac h a dx dy s
  | .msu h a dx dy => Sys2Proof.Machine.execMsu h a dx dy s
  | .mul h a dx dy => Sys2Proof.Machine.execMul h a dx dy s
  | .muln h a dx dy => Sys2Proof.Machine.execMuln h a dx dy s
  | .clr h a => Sys2Proof.Machine.execClr h a s
  | .lda h a dx => Sys2Proof.Machine.execLda h a dx s
  | .adda h a dx => Sys2Proof.Machine.execAdda h a dx s
  | .accadd h a y => Sys2Proof.Machine.execAccadd h a y s
  | .accsub h a y => Sys2Proof.Machine.execAccsub h a y s
  | .mova h dx a sh => Sys2Proof.Machine.execMova h dx a sh s
  | .rdr h dx a part => Sys2Proof.Machine.execRdr h dx a part s
  | .wrr h a part dx => Sys2Proof.Machine.execWrr h a part dx s
  | .ld h ch f r sz => Sys2Proof.Machine.execLd h ch f r sz s
  | .st h ch f src => Sys2Proof.Machine.execSt h ch f src s
  | .modp h ch f => Sys2Proof.Machine.execModp h ch f s
  | .mva h ch kind toData r => Sys2Proof.Machine.execMva h ch kind toData r s
  | .setlo h ch kind imm => Sys2Proof.Machine.execSetlo h ch kind imm s
  | .sethi h ch kind imm => Sys2Proof.Machine.execSethi h ch kind imm s
  | .inp h ch f r sz => Sys2Proof.Machine.execInp h ch f r sz s
  | .out h ch f src => Sys2Proof.Machine.execOut h ch f src s
  | .add h f dd da db => Sys2Proof.Machine.execAdd h f dd da db s
  | .sub h f dd da db => Sys2Proof.Machine.execSub h f dd da db s
  | .adds h f dd da db => Sys2Proof.Machine.execAdds h f dd da db s
  | .subs h f dd da db => Sys2Proof.Machine.execSubs h f dd da db s
  | .and h f dd da db => Sys2Proof.Machine.execAnd h f dd da db s
  | .or h f dd da db => Sys2Proof.Machine.execOr h f dd da db s
  | .xor h f dd da db => Sys2Proof.Machine.execXor h f dd da db s
  | .andn h f dd da db => Sys2Proof.Machine.execAndn h f dd da db s
  | .asr h f dd da db => Sys2Proof.Machine.execAsr h f dd da db s
  | .lsr h f dd da db => Sys2Proof.Machine.execLsr h f dd da db s
  | .lsl h f dd da db => Sys2Proof.Machine.execLsl h f dd da db s
  | .asri h f dd da k => Sys2Proof.Machine.execAsri h f dd da k s
  | .lsri h f dd da k => Sys2Proof.Machine.execLsri h f dd da k s
  | .lsli h f dd da k => Sys2Proof.Machine.execLsli h f dd da k s
  | .abs h f dd da => Sys2Proof.Machine.execAbs h f dd da s
  | .neg h f dd da => Sys2Proof.Machine.execNeg h f dd da s
  | .min h f dd da db => Sys2Proof.Machine.execMin h f dd da db s
  | .max h f dd da db => Sys2Proof.Machine.execMax h f dd da db s
  | .cmpeq h pd da db pn => Sys2Proof.Machine.execCmpeq h pd da db pn s
  | .cmplt h pd da db pn => Sys2Proof.Machine.execCmplt h pd da db pn s
  | .cmple h pd da db pn => Sys2Proof.Machine.execCmple h pd da db pn s
  | .cmpltu h pd da db pn => Sys2Proof.Machine.execCmpltu h pd da db pn s
  | .cmpleu h pd da db pn => Sys2Proof.Machine.execCmpleu h pd da db pn s
  | .sel h dd da db p pn => Sys2Proof.Machine.execSel h dd da db p pn s
  | .movp h dd da p pn => Sys2Proof.Machine.execMovp h dd da p pn s
  | .mov h dd da => Sys2Proof.Machine.execMov h dd da s
  | .movi h dd imm => Sys2Proof.Machine.execMovi h dd imm s
  | .movhi h dd imm => Sys2Proof.Machine.execMovhi h dd imm s
  | .mfs h dd r => Sys2Proof.Machine.execMfs h dd r s
  | .mts h r da => Sys2Proof.Machine.execMts h r da s
  | .cls h dd da => Sys2Proof.Machine.execCls h dd da s
  | .lci h ix imm => Sys2Proof.Machine.execLci h ix imm s
  | .nop h => Sys2Proof.Machine.execNop h s
  | .br h p pn target => Sys2Proof.Machine.execBr h p pn target s
  | .dbnz h rt ix target => Sys2Proof.Machine.execDbnz h rt ix target s
  | .rep h c => Sys2Proof.Machine.execRep h c s
  | .rots h => Sys2Proof.Machine.execRots h s
  | .jal h dd target => Sys2Proof.Machine.execJal h dd target s
  | .jmp h da => Sys2Proof.Machine.execJmp h da s
  | .fend h => Sys2Proof.Machine.execFend h s
  | .tend h => Sys2Proof.Machine.execTend h s
  | .eqSos h dd da is => Sys2Proof.Machine.execEqSos h dd da is s
  | .asrcRatio h dd c => Sys2Proof.Machine.execAsrcRatio h dd c s
  | .asrcStat h dd c => Sys2Proof.Machine.execAsrcStat h dd c s
  | .mtrGet h dd da f => Sys2Proof.Machine.execMtrGet h dd da f s
  | .dlyMove h dd da => Sys2Proof.Machine.execDlyMove h dd da s
  | .dlyPoll h dd da => Sys2Proof.Machine.execDlyPoll h dd da s
  | .undefinedSyllable h w => Sys2Proof.Machine.execUndefinedSyllable h w s
  | .delayMoveComplete n ticket => Sys2Proof.Machine.execDelayMoveComplete n ticket s
  | .delayMoveAbort n ticket => Sys2Proof.Machine.execDelayMoveAbort n ticket s
  | .scrOwnWrite m b v => Sys2Proof.Machine.execScrOwnWrite m b v s
  | .handoverComplete b => Sys2Proof.Machine.execHandoverComplete b s
  | .delayTableWrite m a v => Sys2Proof.Machine.execDelayTableWrite m a v s
  | .dlyDeclWrite m n v => Sys2Proof.Machine.execDlyDeclWrite m n v s
  | .tapPrefetch n => Sys2Proof.Machine.execTapPrefetch n s
  | .delayBlockWrite n line => Sys2Proof.Machine.execDelayBlockWrite n line s
  | .tapCrossfadeEnd n j => Sys2Proof.Machine.execTapCrossfadeEnd n j s
  | .lengthFold n line => Sys2Proof.Machine.execLengthFold n line s
  | .waitingChangeStart k => Sys2Proof.Machine.execWaitingChangeStart k s
  | .ridgeSlowWrite m v => Sys2Proof.Machine.execRidgeSlowWrite m v s
  | .ridgeSliceSwitch => Sys2Proof.Machine.execRidgeSliceSwitch s
  | .bootOnlyWordWrite m a v => Sys2Proof.Machine.execBootOnlyWordWrite m a v s
  | .shadowedWordDirectWrite m a v => Sys2Proof.Machine.execShadowedWordDirectWrite m a v s
  | .memberRetire k => Sys2Proof.Machine.execMemberRetire k s
  | .selectorCrossfadeEnd a => Sys2Proof.Machine.execSelectorCrossfadeEnd a s
  | .sectionCrossfadeEnd is => Sys2Proof.Machine.execSectionCrossfadeEnd is s
  | .eqSatRecord => Sys2Proof.Machine.execEqSatRecord s
  | .meterReadingWord0Read m p => Sys2Proof.Machine.execMeterReadingWord0Read m p s
  | .pegQhdrWrite m v => Sys2Proof.Machine.execPegQhdrWrite m v s
  | .pegQdataWrite m v => Sys2Proof.Machine.execPegQdataWrite m v s
  | .pegWrite => Sys2Proof.Machine.execPegWrite s
  | .pegCommit => Sys2Proof.Machine.execPegCommit s
  | .pegScene => Sys2Proof.Machine.execPegScene s
  | .sceneResolve => Sys2Proof.Machine.execSceneResolve s
  | .pegRevert => Sys2Proof.Machine.execPegRevert s
  | .pegMark => Sys2Proof.Machine.execPegMark s
  | .commitCopyFix => Sys2Proof.Machine.execCommitCopyFix s
  | .commitApplied => Sys2Proof.Machine.execCommitApplied s
  | .pegCancelWrite m v => Sys2Proof.Machine.execPegCancelWrite m v s
  | .pegLogWord0Read m r => Sys2Proof.Machine.execPegLogWord0Read m r s
  | .softwareEventWrite m ix v => Sys2Proof.Machine.execSoftwareEventWrite m ix v s
  | .tokenOffer => Sys2Proof.Machine.execTokenOffer s
  | .frameDividerTick => Sys2Proof.Machine.execFrameDividerTick s
  | .dispatch => Sys2Proof.Machine.execDispatch s
  | .taskEnd n => Sys2Proof.Machine.execTaskEnd n s
  | .taskOvertime n => Sys2Proof.Machine.execTaskOvertime n s
  | .purge m v => Sys2Proof.Machine.execPurge m v s
  | .evtPendClear m k v => Sys2Proof.Machine.execEvtPendClear m k v s
  | .tdmFrameEnd p slots => Sys2Proof.Machine.execTdmFrameEnd p slots s
  | .captureDeadline p => Sys2Proof.Machine.execCaptureDeadline p s
  | .tdmFrameStart p => Sys2Proof.Machine.execTdmFrameStart p s
  | .resyncSlip k => Sys2Proof.Machine.execResyncSlip k s
  | .portClockLoss p => Sys2Proof.Machine.execPortClockLoss p s
  | .portQualified p rateHz => Sys2Proof.Machine.execPortQualified p rateHz s
  | .portRateChange k => Sys2Proof.Machine.execPortRateChange k s
  | .tdmCfgWrite m p v => Sys2Proof.Machine.execTdmCfgWrite m p v s
  | .masterPortRestart p => Sys2Proof.Machine.execMasterPortRestart p s
  | .aesFrameReceive r sa sb => Sys2Proof.Machine.execAesFrameReceive r sa sb s
  | .nonAudioClear r => Sys2Proof.Machine.execNonAudioClear r s
  | .channelStatusBlock r sub block => Sys2Proof.Machine.execChannelStatusBlock r sub block s
  | .aesReceiverQualified r rateHz => Sys2Proof.Machine.execAesReceiverQualified r rateHz s
  | .aesReceiverLost r => Sys2Proof.Machine.execAesReceiverLost r s
  | .aesFrameTransmit t => Sys2Proof.Machine.execAesFrameTransmit t s
  | .asrcLock c ratio rateHz => Sys2Proof.Machine.execAsrcLock c ratio rateHz s
  | .asrcUnlock c why => Sys2Proof.Machine.execAsrcUnlock c why s
  | .pathModeWrite m x v => Sys2Proof.Machine.execPathModeWrite m x v s
  | .linkChange x up badPartner => Sys2Proof.Machine.execLinkChange x up badPartner s
  | .frameReceive x frame => Sys2Proof.Machine.execFrameReceive x frame s
  | .mergeWindowExpiry f => Sys2Proof.Machine.execMergeWindowExpiry f s
  | .flowFadeEnd d f => Sys2Proof.Machine.execFlowFadeEnd d f s
  | .streamPacketLaunch f late => Sys2Proof.Machine.execStreamPacketLaunch f late s
  | .txDescriptorProcess r => Sys2Proof.Machine.execTxDescriptorProcess r s
  | .txLaunchTime r late => Sys2Proof.Machine.execTxLaunchTime r late s
  | .ringTailWrite m r v => Sys2Proof.Machine.execRingTailWrite m r v s
  | .ringCfgWrite m r v => Sys2Proof.Machine.execRingCfgWrite m r v s
  | .classifierRuleWrite m q w1 v => Sys2Proof.Machine.execClassifierRuleWrite m q w1 v s
  | .delronAnnounce x msg => Sys2Proof.Machine.execDelronAnnounce x msg s
  | .delronLeave msg => Sys2Proof.Machine.execDelronLeave msg s
  | .delronRead src head body crc => Sys2Proof.Machine.execDelronRead src head body crc s
  | .delronWrite src head body crc => Sys2Proof.Machine.execDelronWrite src head body crc s
  | .delronPeg src covered crc => Sys2Proof.Machine.execDelronPeg src covered crc s
  | .delronSceneCommit src head scene mode ns sec crc => Sys2Proof.Machine.execDelronSceneCommit src head scene mode ns sec crc s
  | .delronStatusReq src msg => Sys2Proof.Machine.execDelronStatusReq src msg s
  | .announceSend => Sys2Proof.Machine.execAnnounceSend s
  | .partnerTimeout p => Sys2Proof.Machine.execPartnerTimeout p s
  | .partnerTableWrite m a v => Sys2Proof.Machine.execPartnerTableWrite m a v s
  | .tbCmdStep t => Sys2Proof.Machine.execTbCmdStep t s
  | .tbCmdQualify t => Sys2Proof.Machine.execTbCmdQualify t s
  | .tbCmdLose t => Sys2Proof.Machine.execTbCmdLose t s
  | .tbCmdArm t => Sys2Proof.Machine.execTbCmdArm t s
  | .tbCmdGrandmaster t => Sys2Proof.Machine.execTbCmdGrandmaster t s
  | .rateWatchdogTrip t => Sys2Proof.Machine.execRateWatchdogTrip t s
  | .tbRateWrite m t v => Sys2Proof.Machine.execTbRateWrite m t v s
  | .tbCfgWrite m t v => Sys2Proof.Machine.execTbCfgWrite m t v s
  | .tbNsRead m t elapsedXo => Sys2Proof.Machine.execTbNsRead m t elapsedXo s
  | .tbAncNsRead m t => Sys2Proof.Machine.execTbAncNsRead m t s
  | .anchorEstablish t is => Sys2Proof.Machine.execAnchorEstablish t is s
  | .alarmCtrlWrite m t j v => Sys2Proof.Machine.execAlarmCtrlWrite m t j v s
  | .alarmFire t j => Sys2Proof.Machine.execAlarmFire t j s
  | .captureEdge k falling => Sys2Proof.Machine.execCaptureEdge k falling s
  | .capnsRead m k => Sys2Proof.Machine.execCapnsRead m k s
  | .slotCfgWrite m is v => Sys2Proof.Machine.execSlotCfgWrite m is v s
  | .sourcePresent is hz offset => Sys2Proof.Machine.execSourcePresent is hz offset s
  | .qualificationTimerExpiry is => Sys2Proof.Machine.execQualificationTimerExpiry is s
  | .wtrExpiry is => Sys2Proof.Machine.execWtrExpiry is s
  | .slotLost is => Sys2Proof.Machine.execSlotLost is s
  | .phaseGlitch is => Sys2Proof.Machine.execPhaseGlitch is s
  | .lockAchieved err => Sys2Proof.Machine.execLockAchieved err s
  | .lockLost err => Sys2Proof.Machine.execLockLost err s
  | .refFault => Sys2Proof.Machine.execRefFault s
  | .refFaultClear => Sys2Proof.Machine.execRefFaultClear s
  | .refCtrlWrite m v => Sys2Proof.Machine.execRefCtrlWrite m v s
  | .refFreeWrite m v => Sys2Proof.Machine.execRefFreeWrite m v s
  | .selectorSecond mean whole offsets => Sys2Proof.Machine.execSelectorSecond mean whole offsets s
  | .realign m g v => Sys2Proof.Machine.execRealign m g v s
  | .generatorAlign g present => Sys2Proof.Machine.execGeneratorAlign g present s
  | .powerGood bulk dc => Sys2Proof.Machine.execPowerGood bulk dc s
  | .powerOnResetRelease roleGnd => Sys2Proof.Machine.execPowerOnResetRelease roleGnd s
  | .earlyHeaderRead => Sys2Proof.Machine.execEarlyHeaderRead s
  | .xoQualified => Sys2Proof.Machine.execXoQualified s
  | .xoWaitTimeout => Sys2Proof.Machine.execXoWaitTimeout s
  | .pllLock => Sys2Proof.Machine.execPllLock s
  | .pllStartTimeout => Sys2Proof.Machine.execPllStartTimeout s
  | .muxEscape => Sys2Proof.Machine.execMuxEscape s
  | .xoLoss => Sys2Proof.Machine.execXoLoss s
  | .cpllLoss => Sys2Proof.Machine.execCpllLoss s
  | .apllLoss => Sys2Proof.Machine.execApllLoss s
  | .dramPllLoss => Sys2Proof.Machine.execDramPllLoss s
  | .clkDivWrite m v => Sys2Proof.Machine.execClkDivWrite m v s
  | .dividerChange => Sys2Proof.Machine.execDividerChange s
  | .sscWrite m v => Sys2Proof.Machine.execSscWrite m v s
  | .modeReqWrite m v => Sys2Proof.Machine.execModeReqWrite m v s
  | .maintWrite m v => Sys2Proof.Machine.execMaintWrite m v s
  | .sleepEntry => Sys2Proof.Machine.execSleepEntry s
  | .deepEntry => Sys2Proof.Machine.execDeepEntry s
  | .wake src => Sys2Proof.Machine.execWake src s
  | .lpoTimerExpiry => Sys2Proof.Machine.execLpoTimerExpiry s
  | .brownOut bulk => Sys2Proof.Machine.execBrownOut bulk s
  | .holdupCapture => Sys2Proof.Machine.execHoldupCapture s
  | .holdupStoreDone => Sys2Proof.Machine.execHoldupStoreDone s
  | .bulkRecover bulk => Sys2Proof.Machine.execBulkRecover bulk s
  | .railsFall => Sys2Proof.Machine.execRailsFall s
  | .trainLineInputChange ix level => Sys2Proof.Machine.execTrainLineInputChange ix level s
  | .trainLineOutputWrite m v => Sys2Proof.Machine.execTrainLineOutputWrite m v s
  | .trainLineOvercurrent j => Sys2Proof.Machine.execTrainLineOvercurrent j s
  | .pass1Complete readOk => Sys2Proof.Machine.execPass1Complete readOk s
  | .verifyComplete => Sys2Proof.Machine.execVerifyComplete s
  | .pass2Complete readOk => Sys2Proof.Machine.execPass2Complete readOk s
  | .blockResetComplete => Sys2Proof.Machine.execBlockResetComplete s
  | .checksComplete => Sys2Proof.Machine.execChecksComplete s
  | .otpBurn m v => Sys2Proof.Machine.execOtpBurn m v s
  | .otpBurnComplete => Sys2Proof.Machine.execOtpBurnComplete s
  | .globalResetWrite m v => Sys2Proof.Machine.execGlobalResetWrite m v s
  | .resetPin => Sys2Proof.Machine.execResetPin s
  | .rstOutRise => Sys2Proof.Machine.execRstOutRise s
  | .spiRead a count crcOk => Sys2Proof.Machine.execSpiRead a count crcOk s
  | .spiWrite a ws count crcOk => Sys2Proof.Machine.execSpiWrite a ws count crcOk s
  | .delronSend len msg crcOk => Sys2Proof.Machine.execDelronSend len msg crcOk s
  | .delronRecv crcOk => Sys2Proof.Machine.execDelronRecv crcOk s
  | .spiStatus cmd => Sys2Proof.Machine.execSpiStatus cmd s
  | .doorbell v crcOk => Sys2Proof.Machine.execDoorbell v crcOk s
  | .spiTransactionAbandon write => Sys2Proof.Machine.execSpiTransactionAbandon write s
  | .flashRead m => Sys2Proof.Machine.execFlashRead m s
  | .flashProgram m => Sys2Proof.Machine.execFlashProgram m s
  | .flashErase m => Sys2Proof.Machine.execFlashErase m s
  | .flashCommandComplete deviceErr => Sys2Proof.Machine.execFlashCommandComplete deviceErr s
  | .battenSample high => Sys2Proof.Machine.execBattenSample high s
  | .battenRelease => Sys2Proof.Machine.execBattenRelease s
  | .heartbeatSend => Sys2Proof.Machine.execHeartbeatSend s
  | .heartbeatReceive hb skew => Sys2Proof.Machine.execHeartbeatReceive hb skew s
  | .heartbeatLoss => Sys2Proof.Machine.execHeartbeatLoss s
  | .mirrorReady => Sys2Proof.Machine.execMirrorReady s
  | .syncRecord => Sys2Proof.Machine.execSyncRecord s
  | .sceneDirectoryReceive dir => Sys2Proof.Machine.execSceneDirectoryReceive dir s
  | .forwardedEntryReceive hdr payload => Sys2Proof.Machine.execForwardedEntryReceive hdr payload s
  | .resolutionRecordReceive ticket mask c => Sys2Proof.Machine.execResolutionRecordReceive ticket mask c s
  | .epochStart => Sys2Proof.Machine.execEpochStart s
  | .epochDataReceive num region off ws => Sys2Proof.Machine.execEpochDataReceive num region off ws s
  | .epochCommitMarker num startFc crc => Sys2Proof.Machine.execEpochCommitMarker num startFc crc s
  | .pairRelease m => Sys2Proof.Machine.execPairRelease m s
  | .forceRelease m => Sys2Proof.Machine.execForceRelease m s
  | .estart m => Sys2Proof.Machine.execEstart m s
  | .resync m => Sys2Proof.Machine.execResync m s
  | .faultLatchClear m k v => Sys2Proof.Machine.execFaultLatchClear m k v s
  | .firstFaultAck m => Sys2Proof.Machine.execFirstFaultAck m s
  | .ffr0Read m => Sys2Proof.Machine.execFfr0Read m s
  | .injectionArm m v => Sys2Proof.Machine.execInjectionArm m v s
  | .trig m v => Sys2Proof.Machine.execTrig m v s
  | .snapInEdge falling => Sys2Proof.Machine.execSnapInEdge falling s
  | .snapshotTake => Sys2Proof.Machine.execSnapshotTake s
  | .scrubPassComplete dram errs => Sys2Proof.Machine.execScrubPassComplete dram errs s
  | .macCheckComplete n pass => Sys2Proof.Machine.execMacCheckComplete n pass s
  | .testRequest m v => Sys2Proof.Machine.execTestRequest m v s
  | .testAbort m => Sys2Proof.Machine.execTestAbort m s
  | .testComplete pass => Sys2Proof.Machine.execTestComplete pass s
  | .apllRelock => Sys2Proof.Machine.execApllRelock s
  | .dramTrainingComplete sfdpOk => Sys2Proof.Machine.execDramTrainingComplete sfdpOk s
  | .sceneBodyReceive is ws => Sys2Proof.Machine.execSceneBodyReceive is ws s
  | .forwardedCancelReceive ticket => Sys2Proof.Machine.execForwardedCancelReceive ticket s
  | .currentLimitShutdown rail => Sys2Proof.Machine.execCurrentLimitShutdown rail s

end Sys2Proof.Machine
end

