-- ==== Sys2Proof/Safety.lean ====
section
/-! DEFINITION. The terms in which claims are made: a safe step, what a change leaves alone, a syllable that issues alone, and the canonical form of the memories. -/

namespace Sys2Proof.Machine

/-- A safe outcome: a next state. Every command of the module answers one; a fault or a refusal is not among its effects (log entry 10). -/
def Safe (o : Host.Outcome State Fault Refusal) : Prop := ∃ t, o = .next t

/-- Nothing but registers changed, and of these only those listed. -/
def OnlyRegs (l : List Nat) (s t : State) : Prop := t = { s with regs := t.regs } ∧ ∀ a, a ∉ l → t.reg a = s.reg a

/-- Nothing but Course `n` changed. -/
def OnlyCourse (n : CourseId) (s t : State) : Prop := t = { s with courses := t.courses } ∧ ∀ m, m ≠ n → t.course m = s.course m

/-- No error injection is armed (R370). -/
def Unarmed (s : State) : Prop := s.rbit regFAULT_INJCTRL 31 = false

/-- The registers and every memory of the module are in their canonical form: the scratch banks, the DRAM, the boot flash, and the program and local memory of every Course. -/
def Canon (s : State) : Prop :=
  mapWf regReset s.regs = true ∧ Memory.wf s.scratch = true ∧ Memory.wf s.dram = true ∧ mapWf flashDefault s.flash = true ∧
  ∀ n : CourseId, Memory.wf (s.course n).pmem = true ∧ Memory.wf (s.course n).lmem = true

/-- The fuses hold eight words of key hash, and a burn that runs has eight words and burns the hash only while it is unfused (R333). -/
def FuseForm (s : State) : Prop :=
  s.fuseKey.length = 8 ∧ ∀ k l d, s.otpRun = some (k, l, d) → d.length = 8 ∧ (k = true → s.unfused = true)

/-- A syllable with its stop bit and zero reserved bits, offered to a context that may issue, whose bundle is empty and to which no REP applies, while its Course has its clock and no error injection is armed: it issues alone (R35, R79, R98, R303, R370). -/
def Solo (s : State) (h : SylHdr) : Prop :=
  h.stop = true ∧ h.rsv = false ∧ s.courseClock = true ∧ (s.course h.n).mayIssue h.x = true ∧
  ((s.course h.n).ctx h.x).bundle = [] ∧ ((s.course h.n).ctx h.x).rep = none ∧ Unarmed s

/-- A context after a bundle of one syllable with the results `fl`: results in flight come one bundle nearer, `fl` among them; the program counter goes to the next bundle, or to the target of a transfer whose delay slot this bundle is. `slot`, `rep` and `ended` are what a transfer, a REP or the end of the work leaves (R66, R67, R79, R96, R98, R102). -/
def Ctx.issuedAs (c : Ctx) (fl : List Flight) (slot : Option (BitVec 14)) (rep : Option Nat) (ended : Bool) : Ctx :=
  { ({ c with bundle := [], flight := c.flight ++ fl } : Ctx).advance with
    pc := if ended then c.pc + 1#14 else c.slot.getD (c.pc + 1#14), slot := slot, rep := rep, stall := none, ended := ended }

/-- A context after a bundle of one syllable that leaves only results. -/
def Ctx.issued (c : Ctx) (fl : List Flight) : Ctx := c.issuedAs fl none none false

/-- The state after a syllable that issued alone, with what it leaves in its context. -/
def State.issuedAs (s : State) (h : SylHdr) (fl : List Flight) (slot : Option (BitVec 14)) (rep : Option Nat) (ended : Bool) : State :=
  s.modCourse h.n fun k => k.setCtx h.x ((k.ctx h.x).issuedAs fl slot rep ended)

/-- The state after a syllable that issued alone with the results `fl` and did nothing else. -/
def State.issued (s : State) (h : SylHdr) (fl : List Flight) : State := s.modCourse h.n fun k => k.setCtx h.x ((k.ctx h.x).issued fl)

/-- The state after the use of an address channel: where its mode is the reserved one and its first use has not been reported, the configuration-error event with the address of the mode register (R13, R56). -/
def State.firstUse (s : State) (h : SylHdr) (ch : Fin 16) : State :=
  let a := match h.x with | .fg => regC_AMODE_FG h.n | .bg => regC_AMODE_BG h.n
  let k := h.n.val * 32 + (match h.x with | .fg => 0 | .bg => 16) + ch.val
  if s.rfld a (2 * ch.val) 2 = 3 ∧ k ∉ s.modeUsed then ({ s with modeUsed := s.modeUsed ++ [k] } : State).raiseEvent 5 (BitVec.ofNat 32 a) else s

/-- A result into a register after `left` bundles. -/
def toReg (left : Nat) (r : CReg) (v : Word) : Flight := { left := left, w := .reg r 0xFFFFFFFF#32 v }

/-- A result into the register that Dk names now. -/
def toD (c : Ctx) (left : Nat) (k : Fin 32) (v : Word) : Flight := toReg left (.d (c.phys k)) v

/-- A value into an accumulator: after 1 bundle for accumulating operations, after 3 for moves out (R66, R88). -/
def toAcc (a : Fin 8) (v : Acc) : List Flight := [{ left := 1, w := .acc a v }, { left := 3, w := .accOut a v }]

/-- A flag that hardware sets and software clears, seen with the next bundle (R63). -/
def stickyFlag (m : Word) : Flight := { left := 1, w := .reg .flags m m }

end Sys2Proof.Machine
end

