-- ==== Sys2Proof/Certificates/Slice0/Obligations.lean ====
section
/-! DEFINITION. The statements for the provers: what each command of the module does, what it leaves alone, and what every step keeps. -/

open Sys2Proof Sys2Proof.Machine

/-! ## The step, the queue and what every step keeps -/

/-- A step takes the command at the front of the queue and gives it the rest of the queue; with no command waiting the module idles (the model's choice, log entry 1). -/
def Obligations.StepRunsFront : Prop :=
  (∀ (c : Instr) (s : State), step (s.push c) = exec c s) ∧
  (∀ (c : Instr) (cs : List Instr) (s : State), s.pending = c :: cs → step s = exec c { s with pending := cs }) ∧
  (∀ s : State, s.pending = [] → step s = .next s)

/-- Every command answers a next state in every state: none of them ends in a fault or a refusal (the model's choice for commands without effect, log entry 10). -/
def Obligations.EveryCommandAnswers : Prop :=
  ∀ (c : Instr) (s : State), Safe (exec c s)

/-- No command touches the queue of waiting commands: a reset of the module keeps it too (the model's own field, log entry 1). -/
def Obligations.QueueKept : Prop :=
  ∀ (c : Instr) (s t : State), exec c s = .next t → t.pending = s.pending

/-- Every step keeps the canonical form of the registers and of every memory of the module, so that equal memories are equal data. -/
def Obligations.MemoryFormKept : Prop :=
  ∀ s t : State, Canon s → step s = .next t → Canon t

/-- A burn cannot be undone (R333): whatever a step does, a burnt debug lock stays, a fused key hash keeps its value, and a burn never runs against a fused hash. -/
def Obligations.FusesOnlyBurn : Prop :=
  ∀ s t : State, FuseForm s → step s = .next t → FuseForm t ∧ (s.fuseLock = true → t.fuseLock = true) ∧ (s.unfused = false → t.fuseKey = s.fuseKey)

/-- The state after reset (R131, R135, R191, R272, R333): canonical memories with nothing listed and unburnt fuses, every register at its reset value, SLOW = 1, the pointers of the Ridge at master 12, crossfades of 256 steps, time bases at zero, UNLOCKED with RATE = 0, the frame tick stopped, no command waiting. -/
def Obligations.ResetState : Prop :=
  Canon State.reset ∧ FuseForm State.reset ∧ State.reset.pending = [] ∧ State.reset.ticking = false ∧
  State.reset.dram = [] ∧ State.reset.scratch = [] ∧ State.reset.flash = [] ∧ State.reset.unfused = true ∧ State.reset.fuseLock = false ∧
  (∀ a, State.reset.reg a = regReset a) ∧ State.reset.rbit regRIDGE_CTRL 0 = true ∧ (∀ p, (mapFind State.reset.rr p).getD 12 = 12) ∧
  (∀ g, g < 32 → State.reset.tabGet (0x50100 + 4 * g) = 0x100) ∧
  (∀ t : Fin 4, State.reset.tbNs t = 0 ∧ State.reset.tbState t.val = 0 ∧ State.reset.reg (regTIME_RATE t.val) = 0) ∧ State.reset.pairState = pSINGLE

/-! ## Syllables that issue alone (R60 to R67, R79, R87 to R110) -/

/-- The MAC class (R60 to R62, R87, R88): the accumulator takes the exact result wrapped to 80 bits, seen by accumulating operations after one bundle and by moves out after three; AV records an accumulation outside the range; MOVA shifts, rounds and saturates with SV; RDR and WRR read and write one part. Nothing else changes but the program counter and the results already in flight. -/
def Obligations.MacClassResults : Prop :=
  ∀ (s : State) (h : SylHdr), Solo s h →
    let c := (s.course h.n).ctx h.x
    let av (x : Int) : List Flight := if x < -(2 ^ 79) ∨ 2 ^ 79 - 1 < x then [stickyFlag flagAV] else []
    let sv (b : Bool) : List Flight := if b then [stickyFlag flagSV] else []
    (∀ a dx dy, let x := (c.acc.get a).toInt + (c.dget dx).toInt * (c.dget dy).toInt
      exec (.mac h a dx dy) s = .next (s.issued h (toAcc a (BitVec.ofInt 80 x) ++ av x))) ∧
    (∀ a dx dy, let x := (c.acc.get a).toInt - (c.dget dx).toInt * (c.dget dy).toInt
      exec (.msu h a dx dy) s = .next (s.issued h (toAcc a (BitVec.ofInt 80 x) ++ av x))) ∧
    (∀ a dx dy, exec (.mul h a dx dy) s = .next (s.issued h (toAcc a (BitVec.ofInt 80 ((c.dget dx).toInt * (c.dget dy).toInt))))) ∧
    (∀ a dx dy, exec (.muln h a dx dy) s = .next (s.issued h (toAcc a (BitVec.ofInt 80 (-((c.dget dx).toInt * (c.dget dy).toInt)))))) ∧
    (∀ a, exec (.clr h a) s = .next (s.issued h (toAcc a 0))) ∧
    (∀ a dx, exec (.lda h a dx) s = .next (s.issued h (toAcc a (BitVec.ofInt 80 ((c.dget dx).toInt * 2 ^ 31))))) ∧
    (∀ a dx, let x := (c.acc.get a).toInt + (c.dget dx).toInt * 2 ^ 31
      exec (.adda h a dx) s = .next (s.issued h (toAcc a (BitVec.ofInt 80 x) ++ av x))) ∧
    (∀ a y, let x := (c.acc.get a).toInt + (c.acc.get y).toInt
      exec (.accadd h a y) s = .next (s.issued h (toAcc a (BitVec.ofInt 80 x) ++ av x))) ∧
    (∀ a y, let x := (c.acc.get a).toInt - (c.acc.get y).toInt
      exec (.accsub h a y) s = .next (s.issued h (toAcc a (BitVec.ofInt 80 x) ++ av x))) ∧
    (∀ dx a (sh : BitVec 5), let r := convAcc (c.accOut.get a) sh.toInt
      exec (.mova h dx a (some sh)) s = .next (s.issued h (toD c 2 dx r.1 :: sv r.2))) ∧
    (∀ dx a, let r := convAcc (c.accOut.get a) (c.mode.extractLsb' 0 5).toInt
      exec (.mova h dx a none) s = .next (s.issued h (toD c 2 dx r.1 :: sv r.2))) ∧
    (∀ dx a, exec (.rdr h dx a .l) s = .next (s.issued h [toD c 2 dx ((c.accOut.get a).extractLsb' 0 32)])) ∧
    (∀ dx a, exec (.rdr h dx a .h) s = .next (s.issued h [toD c 2 dx ((c.accOut.get a).extractLsb' 32 32)])) ∧
    (∀ dx a, exec (.rdr h dx a .x) s = .next (s.issued h [toD c 2 dx (((c.accOut.get a).extractLsb' 64 16).signExtend 32)])) ∧
    (∀ a dx, exec (.wrr h a .l dx) s = .next (s.issued h (toAcc a ((c.acc.get a).extractLsb' 32 48 ++ c.dget dx)))) ∧
    (∀ a dx, exec (.wrr h a .h dx) s =
      .next (s.issued h (toAcc a ((c.acc.get a).extractLsb' 64 16 ++ c.dget dx ++ (c.acc.get a).extractLsb' 0 32)))) ∧
    (∀ a dx, exec (.wrr h a .x dx) s =
      .next (s.issued h (toAcc a ((c.dget dx).extractLsb' 0 16 ++ (c.acc.get a).extractLsb' 0 64))))

/-- The arithmetic, logic and shift operations of the ALU class (R93, R94): Dd takes the result with the next bundle, and N, Z, C and V follow it where F = 1; no other flag or register changes. The results of the saturating and overflowing operations as numbers (R93): sums and differences modulo 2^32 or saturated to the signed range, C as the carry or the borrow, V as signed overflow; ABS and NEG of the most negative number give the largest one and set V. -/
def Obligations.AluClassResults : Prop :=
  (∀ (s : State) (h : SylHdr) (f : Bool) (dd da db : Fin 32) (k : BitVec 5), Solo s h →
     let c := (s.course h.n).ctx h.x
     let a := c.dget da
     let b := c.dget db
     let n := fld b 0 5
     let res (r : AluOut) : List Flight := toD c 1 dd r.d :: if f then [{ left := 1, w := .reg .flags flagNZCV (nzcv r) }] else []
     exec (.add h f dd da db) s = .next (s.issued h (res (aluAdd a b))) ∧
     exec (.sub h f dd da db) s = .next (s.issued h (res (aluSub a b))) ∧
     exec (.adds h f dd da db) s = .next (s.issued h (res (aluAdds a b))) ∧
     exec (.subs h f dd da db) s = .next (s.issued h (res (aluSubs a b))) ∧
     exec (.and h f dd da db) s = .next (s.issued h (res { d := a &&& b, c := false, v := false })) ∧
     exec (.or h f dd da db) s = .next (s.issued h (res { d := a ||| b, c := false, v := false })) ∧
     exec (.xor h f dd da db) s = .next (s.issued h (res { d := a ^^^ b, c := false, v := false })) ∧
     exec (.andn h f dd da db) s = .next (s.issued h (res { d := a &&& ~~~b, c := false, v := false })) ∧
     exec (.asr h f dd da db) s = .next (s.issued h (res { d := a.sshiftRight n, c := decide (n ≠ 0) && bit a (n - 1), v := false })) ∧
     exec (.lsr h f dd da db) s = .next (s.issued h (res { d := a >>> n, c := decide (n ≠ 0) && bit a (n - 1), v := false })) ∧
     exec (.lsl h f dd da db) s = .next (s.issued h (res { d := a <<< n, c := decide (n ≠ 0) && bit a (32 - n), v := false })) ∧
     exec (.asri h f dd da k) s =
       .next (s.issued h (res { d := a.sshiftRight k.toNat, c := decide (k.toNat ≠ 0) && bit a (k.toNat - 1), v := false })) ∧
     exec (.lsri h f dd da k) s =
       .next (s.issued h (res { d := a >>> k.toNat, c := decide (k.toNat ≠ 0) && bit a (k.toNat - 1), v := false })) ∧
     exec (.lsli h f dd da k) s =
       .next (s.issued h (res { d := a <<< k.toNat, c := decide (k.toNat ≠ 0) && bit a (32 - k.toNat), v := false })) ∧
     exec (.abs h f dd da) s = .next (s.issued h (res (aluAbs a))) ∧
     exec (.neg h f dd da) s = .next (s.issued h (res (aluNeg a))) ∧
     exec (.min h f dd da db) s = .next (s.issued h (res { d := if a.toInt ≤ b.toInt then a else b, c := false, v := false })) ∧
     exec (.max h f dd da db) s = .next (s.issued h (res { d := if a.toInt ≤ b.toInt then b else a, c := false, v := false }))) ∧
  ((∀ a b : Word, (aluAdd a b).d = a + b ∧ ((aluAdd a b).c = true ↔ 2 ^ 32 ≤ a.toNat + b.toNat) ∧
     ((aluAdd a b).v = true ↔ (a.toInt + b.toInt < -(2 ^ 31) ∨ 2 ^ 31 ≤ a.toInt + b.toInt))) ∧
   (∀ a b : Word, (aluSub a b).d = a - b ∧ ((aluSub a b).c = true ↔ a.toNat < b.toNat) ∧
     ((aluSub a b).v = true ↔ (a.toInt - b.toInt < -(2 ^ 31) ∨ 2 ^ 31 ≤ a.toInt - b.toInt))) ∧
   (∀ a b : Word, (aluAdds a b).d.toInt = max (-(2 ^ 31)) (min (2 ^ 31 - 1) (a.toInt + b.toInt)) ∧
     (aluAdds a b).c = (aluAdd a b).c ∧ (aluAdds a b).v = (aluAdd a b).v) ∧
   (∀ a b : Word, (aluSubs a b).d.toInt = max (-(2 ^ 31)) (min (2 ^ 31 - 1) (a.toInt - b.toInt)) ∧
     (aluSubs a b).c = (aluSub a b).c ∧ (aluSubs a b).v = (aluSub a b).v) ∧
   (∀ a : Word, (aluAbs a).d.toInt = min (2 ^ 31 - 1) |a.toInt| ∧ (aluAbs a).c = false ∧ ((aluAbs a).v = true ↔ a.toInt = -(2 ^ 31))) ∧
   (∀ a : Word, (aluNeg a).d.toInt = min (2 ^ 31 - 1) (-a.toInt) ∧ (aluNeg a).c = false ∧ ((aluNeg a).v = true ↔ a.toInt = -(2 ^ 31))))

/-- Compares, selections and moves (R63, R93, R94): a compare writes the predicate it names, except PR0, inverted where PN = 1; the others write their register, with the latency of R66. A result that arrives writes its register and nothing else; PR0 reads 1 whatever is written, and reserved bits keep their value (R43, R63, R64, R66). -/
def Obligations.CompareMoveResults : Prop :=
  (∀ (s : State) (h : SylHdr) (dd da db : Fin 32) (p : Fin 8) (pn : Bool) (imm : BitVec 16) (i : Fin 4), Solo s h →
     let c := (s.course h.n).ctx h.x
     let a := c.dget da
     let b := c.dget db
     let cmp (q : Prop) [Decidable q] : List Flight :=
       [{ left := 1, w := .reg .flags (oneHot (8 + p.val)) (if decide q != pn then oneHot (8 + p.val) else 0) }]
     let pr : Bool := bit c.flags (8 + p.val) != pn
     exec (.cmpeq h p da db pn) s = .next (s.issued h (cmp (a = b))) ∧
     exec (.cmplt h p da db pn) s = .next (s.issued h (cmp (a.toInt < b.toInt))) ∧
     exec (.cmple h p da db pn) s = .next (s.issued h (cmp (a.toInt ≤ b.toInt))) ∧
     exec (.cmpltu h p da db pn) s = .next (s.issued h (cmp (a.toNat < b.toNat))) ∧
     exec (.cmpleu h p da db pn) s = .next (s.issued h (cmp (a.toNat ≤ b.toNat))) ∧
     exec (.sel h dd da db p pn) s = .next (s.issued h [toD c 1 dd (if pr then a else b)]) ∧
     exec (.movp h dd da p pn) s = .next (s.issued h (if pr then [toD c 1 dd a] else [])) ∧
     exec (.mov h dd da) s = .next (s.issued h [toD c 1 dd a]) ∧
     exec (.movi h dd imm) s = .next (s.issued h [toD c 1 dd (imm.signExtend 32)]) ∧
     exec (.movhi h dd imm) s =
       .next (s.issued h [{ left := 1, w := .reg (.d (c.phys dd)) 0xFFFF0000#32 (imm.zeroExtend 32 <<< 16) }]) ∧
     exec (.mfs h dd (.lc i)) s = .next (s.issued h [toD c 1 dd (c.lc.get i)]) ∧
     exec (.mfs h dd .rot) s = .next (s.issued h [toD c 1 dd c.rot]) ∧
     exec (.mfs h dd .mode) s = .next (s.issued h [toD c 1 dd c.mode]) ∧
     exec (.mfs h dd .flags) s = .next (s.issued h [toD c 1 dd c.flags]) ∧
     exec (.mts h (.lc i) da) s = .next (s.issued h [toReg 2 (.lc i) a]) ∧
     exec (.mts h .rot da) s = .next (s.issued h [toReg 2 .rot a]) ∧
     exec (.mts h .mode da) s = .next (s.issued h [toReg 2 .mode a]) ∧
     exec (.mts h .flags da) s = .next (s.issued h [toReg 1 .flags a]) ∧
     exec (.cls h dd da) s = .next (s.issued h [toD c 1 dd (BitVec.ofNat 32 (clsCount a))]) ∧
     exec (.lci h i imm) s = .next (s.issued h [toReg 2 (.lc i) (imm.zeroExtend 32)])) ∧
  ((∀ (c : Ctx) (r : CReg) (m v : Word), let t := c.put r m v
     t.get r = (c.get r &&& ~~~(m &&& r.mask)) ||| (v &&& (m &&& r.mask)) ∧ (∀ q, q ≠ r → t.get q = c.get q) ∧
     t.acc = c.acc ∧ t.accOut = c.accOut ∧ t.pc = c.pc ∧ t.flight = c.flight) ∧
   (∀ (c : Ctx) (m v : Word), bit (c.put .flags m v).flags 8 = bit c.flags 8) ∧
   (∀ (c : Ctx) (a : Fin 8) (v : Acc), (c.apply (.acc a v)).acc.get a = v ∧ (∀ b, b ≠ a → (c.apply (.acc a v)).acc.get b = c.acc.get b) ∧
     (c.apply (.acc a v)).accOut = c.accOut) ∧
   (∀ (c : Ctx) (r : CReg) (v : Word), c.flight = [] →
     (c.issued [toReg 1 r v]).get r = (c.get r &&& ~~~r.mask) ||| (v &&& r.mask) ∧ ∀ q, q ≠ r → (c.issued [toReg 1 r v]).get q = c.get q))

/-- The address registers (R57, R66, R89): MODP updates the pointer of its channel by the form; MVA, SETLO and SETHI write P, N, L or K after two bundles, or a data register after one. A reserved address mode acts as linear, with the configuration-error event at its first use (R13, R56); `State.firstUse` is the state with that event. -/
def Obligations.AddressRegisterResults : Prop :=
  ∀ (s : State) (h : SylHdr) (ch : Fin 16) (kd : AddrKind) (r : Fin 32) (imm : BitVec 16), Solo s h →
    let c := (s.course h.n).ctx h.x
    let m := addrMode (s.amode h.n h.x) ch
    let step (o : Int) : List Flight := [toReg 1 (.p ch) (nextPtr m (c.k.get ch) (fld (c.l.get ch) 0 24) (c.p.get ch) o)]
    let u := s.firstUse h ch
    exec (.modp h ch .postInc) s = .next (u.issued h (step 1)) ∧
    exec (.modp h ch .postDec) s = .next (u.issued h (step (-1))) ∧
    exec (.modp h ch .postAddN) s = .next (u.issued h (step (c.n.get ch).toInt)) ∧
    exec (.modp h ch .postSubN) s = .next (u.issued h (step (-(c.n.get ch).toInt))) ∧
    exec (.mva h ch kd true r) s = .next (s.issued h [toD c 1 r (c.get (kindReg ch kd))]) ∧
    exec (.mva h ch kd false r) s = .next (s.issued h [toReg 2 (kindReg ch kd) (c.dget r)]) ∧
    exec (.setlo h ch kd imm) s = .next (s.issued h [toReg 2 (kindReg ch kd) (imm.signExtend 32)]) ∧
    exec (.sethi h ch kd imm) s = .next (s.issued h [{ left := 2, w := .reg (kindReg ch kd) 0xFFFF0000#32 (imm.zeroExtend 32 <<< 16) }])

/-- The CTL class (R65, R95 to R98, R102), for a context that stands in no delay slot: a transfer that is made leaves its target to the bundle after the next one; DBNZ decrements its counter and transfers while it is not 0; REP leaves its count to the next bundle; FEND and TEND end the work of their context. A transfer of control in a delay slot is suppressed: the target of the first one stands, and the control-sequence event occurs with the address of the bundle (R96, R194). -/
def Obligations.ControlResults : Prop :=
  (∀ (s : State) (h : SylHdr) (p : Fin 8) (pn : Bool) (target : BitVec 14) (i : Fin 4) (dd da : Fin 32) (n : BitVec 16), Solo s h →
     let c := (s.course h.n).ctx h.x
     let left : Nat := (fld (c.lc.get i) 0 16 + 65535) % 65536
     let rot : Flight := toReg 1 .rot (BitVec.ofNat 32 ((fld c.rot 0 4 + 15) % 16))
     let dec : Flight := toReg 1 (.lc i) (BitVec.ofNat 32 left)
     exec (.nop h) s = .next (s.issued h []) ∧
     exec (.rots h) s = .next (s.issued h [rot]) ∧
     exec (.rep h (.imm n)) s = .next (s.issuedAs h [] none (some n.toNat) false) ∧
     exec (.rep h (.lc i)) s = .next (s.issuedAs h [] none (some (fld (c.lc.get i) 0 16)) false) ∧
     (h.x = .fg → exec (.fend h) s = .next (s.issuedAs h [] none none true)) ∧
     (h.x = .bg → exec (.tend h) s = .next (s.issuedAs h [] none none true)) ∧
     (c.slot = none →
       exec (.br h p pn target) s = .next (s.issuedAs h [] (if c.pred p pn then some target else none) none false) ∧
       exec (.dbnz h false i target) s = .next (s.issuedAs h [dec] (if left ≠ 0 then some target else none) none false) ∧
       exec (.dbnz h true i target) s = .next (s.issuedAs h [dec, rot] (if left ≠ 0 then some target else none) none false) ∧
       exec (.jal h dd target) s = .next (s.issuedAs h
         [toD c 1 dd ((c.pc + 1#14 + BitVec.ofNat 14 (bundleLen (s.course h.n) (c.pc + 1#14))).zeroExtend 32)] (some target) none false) ∧
       exec (.jmp h da) s = .next (s.issuedAs h [] (some ((c.dget da).extractLsb' 0 14)) none false))) ∧
  (∀ (s : State) (h : SylHdr) (p : Fin 8) (pn : Bool) (target a : BitVec 14) (da : Fin 32), Solo s h →
     let c := (s.course h.n).ctx h.x
     c.slot = some a →
     (s.issued h []).course h.n = (s.course h.n).setCtx h.x (c.issued []) ∧ (c.issued []).pc = a ∧
     (c.pred p pn = true → exec (.br h p pn target) s = .next ((s.issued h []).ctlSequence h.n h.x c.pc)) ∧
     (c.pred p pn = false → exec (.br h p pn target) s = .next (s.issued h [])) ∧
     exec (.jmp h da) s = .next ((s.issued h []).ctlSequence h.n h.x c.pc))

/-- An undefined syllable does nothing but set FLAGS.ILLEGAL, the ILLEGAL bit of STATUS, EV8 + n with the context, and source 16 + n (R107, R109, R194): `State.illegalSyllable` makes the last three. A word that spells a defined syllable is no undefined one, and nothing happens (the model's choice, log entry 10). The place of a syllable in its bundle (R79; the model's choice for a context that may not issue, log entry 10): without a stop bit it joins a bundle of fewer than seven syllables and changes nothing else; a context that may not issue, or a Course without a clock, takes none. -/
def Obligations.SyllablesAndTraps : Prop :=
  (∀ (s : State) (h : SylHdr) (w : Word), Solo s h →
     let k : Nat := match h.x with | .fg => 0 | .bg => 1
     let t := (s.issued h [stickyFlag flagILLEGAL]).illegalSyllable h.n h.x
     (undefinedWord w = true → exec (.undefinedSyllable h w) s = .next t) ∧
     (undefinedWord w = false → exec (.undefinedSyllable h w) s = .next s) ∧
     t.faultLatched (16 + h.n.val) = true ∧ t.rbit (regEVT_PEND 0) (8 + h.n.val) = true ∧ t.reg (regEVT_PAYLOAD (8 + h.n.val)) = BitVec.ofNat 32 k ∧
     (s.faultLatched (16 + h.n.val) = true →
       (t.course h.n).ctx h.x = ((s.course h.n).ctx h.x).issued [stickyFlag flagILLEGAL] ∧
       t.rbit (regC_STATUS h.n) (16 + k) = true ∧ t.dram = s.dram ∧ t.scratch = s.scratch ∧ t.tab = s.tab ∧
       (t.course h.n).pmem = (s.course h.n).pmem ∧ (t.course h.n).lmem = (s.course h.n).lmem)) ∧
  (∀ (s : State) (h : SylHdr) (u : SylUnit) (bad : Bool) (op : Instr),
     let c := (s.course h.n).ctx h.x
     ((s.course h.n).mayIssue h.x = true → s.courseClock = true → h.stop = false → c.bundle.length < 7 →
       s.syllable h u bad op = s.setCourse h.n ((s.course h.n).setCtx h.x
         { c with bundle := c.bundle ++ [{ op := op, unit := u, bad := bad, rsv := h.rsv }] })) ∧
     (((s.course h.n).mayIssue h.x = false ∨ s.courseClock = false) → s.syllable h u bad op = s))

/-- Extension operations (R103 to R106, R235): EQ.SOS steps a bound section on the input and returns its output after 6 bundles; ASRC.RATIO, ASRC.STAT, MTR.GET and DLY.POLL return their value to a background register and change nothing else (a ratio in measured mode is a free value, log entry 2; with four moves in flight and a bad descriptor together DLY.MOVE answers 0xFFFF_FFFF, the model's choice, log entry 90); DLY.MOVE starts its move; one that its context or binding does not admit returns zero with DERR and the refusal of R55. One step of an equaliser member (R152): output and next state as exact sums, rounded, and saturated. -/
def Obligations.ExtensionResults : Prop :=
  (∀ (s : State) (h : SylHdr) (dd da : Fin 32) (k : BitVec 8) (ch : Fin 512) (f : Fin 4), Solo s h →
     let c := (s.course h.n).ctx h.x
     let refused (lat : Nat) : State := (s.derr h.n h.x .plain false).issued h [toD c lat dd 0, stickyFlag flagDERR]
     (h.x = .fg → k.toNat < s.bindCount h.n →
       let r := s.stepSection (s.bindFirst h.n + k.toNat) (s.course h.n).frame (c.dget da).toInt
       exec (.eqSos h dd da k) s = .next (r.2.issued h [toD c 6 dd (BitVec.ofInt 32 r.1)])) ∧
     ((h.x = .bg ∨ s.bindCount h.n ≤ k.toNat) → exec (.eqSos h dd da k) s = .next (refused 6)) ∧
     (h.x = .bg →
       (let r := s.ratioNow ch.val
        exec (.asrcRatio h dd ch) s = .next (r.2.issued h [toD c 4 dd r.1]) ∧
        (s.rbit (regASRC_CHSTAT ch.val) 31 = false → r = (0, s)) ∧
        (s.rbit (regASRC_CHSTAT ch.val) 31 = true → fld (s.tabGet (0x01900004 + 16 * ch.val)) 29 2 = 1 → r = (wmGet s.asrcRatio ch.val, s)) ∧
        r.2 = { s with freeCtr := r.2.freeCtr }) ∧
       exec (.asrcStat h dd ch) s = .next (s.issued h [toD c 4 dd (s.reg (regASRC_CHSTAT ch.val))]) ∧
       exec (.mtrGet h dd da f) s = .next (s.issued h [toD c 8 dd (s.meterWord (fld (c.dget da) 0 12) f.val)]) ∧
       exec (.dlyPoll h dd da) s = .next (s.issued h [toD c 4 dd ((s.course h.n).movePoll (fld (c.dget da) 0 4))]) ∧
       (let r := s.moveStart h.n (fld (c.dget da) 0 16)
        exec (.dlyMove h dd da) s = .next (r.2.issued h [toD c 4 dd r.1]))) ∧
     (h.x = .fg →
       exec (.asrcRatio h dd ch) s = .next (refused 4) ∧ exec (.asrcStat h dd ch) s = .next (refused 4) ∧
       exec (.mtrGet h dd da f) s = .next (refused 8) ∧ exec (.dlyPoll h dd da) s = .next (refused 4) ∧
       exec (.dlyMove h dd da) s = .next (refused 4)) ∧
     (∀ a, let w (i : Nat) : Word := (s.course h.n).local ((a + i) % 65536)
       let len := fld (w 2) 0 17
       let r := s.moveStart h.n a
       (4 ≤ (s.course h.n).movesRunning → r = (0xFFFFFFFF#32, s)) ∧
       ((s.course h.n).movesRunning < 4 → (len = 0 ∨ 65536 < len ∨ moveRangeOk (w 0).toNat len = false ∨ moveRangeOk (w 1).toNat len = false) →
         r = (0xFFFFFFFE#32, s)) ∧
       ((s.course h.n).movesRunning < 4 → len ≠ 0 → len ≤ 65536 → moveRangeOk (w 0).toNat len = true → moveRangeOk (w 1).toNat len = true →
         r.1 = BitVec.ofNat 32 (s.course h.n).nextTicket ∧ OnlyCourse h.n s r.2 ∧ (r.2.course h.n).nextTicket = ((s.course h.n).nextTicket + 1) % 16 ∧
         { ticket := (s.course h.n).nextTicket, src := (w 0).toNat, dst := (w 1).toNat, len := len, event := bit (w 3) 0, st := .running, fresh := true : Move }
           ∈ (r.2.course h.n).moves))) ∧
  ((∀ (m : SecMember) (x s1 s2 : Int), m.st = some (s1, s2) →
     let w := rconv (m.b0.toInt * x + s1) 29
     let y := max (-(2 ^ 31)) (min (2 ^ 31 - 1) w)
     let z1 := m.b1.toInt * x - m.a1.toInt * y + s2
     let z2 := m.b2.toInt * x - m.a2.toInt * y
     let cl (z : Int) : Int := max (-(2 ^ 63)) (min (2 ^ 63 - 1) z)
     let r := secStep m x
     r.y = y ∧ r.m = { m with st := some (cl z1, cl z2) } ∧ (r.ysat = true ↔ w ≠ y) ∧ (r.ssat = true ↔ cl z1 ≠ z1 ∨ cl z2 ≠ z2)) ∧
   (∀ (s : State) (k frame : Nat) (x : Int) (m : SecMember), Unarmed s → s.sec k = { fade := Fade.single m, waiting := none } →
     let r := secStep m x
     let t := (s.stepSection k frame x).2
     (s.stepSection k frame x).1 = r.y ∧ t = { s with secs := t.secs, regs := t.regs, eqSat := t.eqSat } ∧
     t.sec k = { fade := Fade.single r.m, waiting := none } ∧ (∀ j, j ≠ k → t.sec j = s.sec j) ∧
     (r.ysat = false → r.ssat = false → t.regs = s.regs ∧ t.eqSat = s.eqSat) ∧
     (r.ysat = true → t.rbit regEQ_STATUS 30 = true) ∧ (r.ssat = true → t.rbit regEQ_STATUS 29 = true) ∧
     (r.ysat = true ∨ r.ssat = true → t.reg regEQ_SAT_CNT = satAdd (s.reg regEQ_SAT_CNT) 0 32 1)))

/-- Loads and input from what the Course itself serves (R50 to R54, R89): Dr and the registers after it take the words at the addresses of the form, with the latency of R66, and the pointer takes its update. Stores into local memory and the feed window (R50 to R54, R89, R92): the words at the addresses of the form take the data registers from Dr on, or the rounded accumulator, with SV where it saturates; the pointer takes its update. What `nearStore` and `feedStore` change is said by the two statements after this one. A store of several words takes effect word by word (R55, R90): in local memory every permitted address of the list takes its word, the last word given to an address stands, and every other byte keeps its value; nothing but the local memory of the Course changes. A store to the feed window gives each slot of the list its word and leaves the other slots and everything else as they are (R53, R54). A memory word that is written reads as written, and no other byte of the memory changes (R11, R115, R400). -/
def Obligations.NearAccesses : Prop :=
  (∀ (s : State) (h : SylHdr) (ch : Fin 16) (f : Form) (r : Fin 32) (sz : Size), Solo s h → r.val + sz.count ≤ 32 →
     let c := (s.course h.n).ctx h.x
     let am := s.amode h.n h.x
     let addrs := accessAddrs c (addrMode am ch) ch f sz.count
     let u := s.firstUse h ch
     ((∀ a ∈ addrs, a < 0x10000 ∧ s.nearReadOk h.n h.x a = true) →
       exec (.ld h ch f r sz) s = .next (u.issued h
         (flights (effPost c am ch f ++ effWords c 3 r (addrs.map (s.course h.n).local))))) ∧
     ((∀ a ∈ addrs, a < 0x400) →
       let fl := flights (effPost c am ch f ++ effWords c 1 r (addrs.map (s.busWord h.n h.x)))
       (h.x = .bg → exec (.inp h ch f r sz) s = .next (u.issued h fl)) ∧
       (h.x = .fg → exec (.inp h ch f r sz) s =
         .next ((u.setCourse h.n { s.course h.n with ioStall := (s.course h.n).ioStall + 8 }).issued h fl)))) ∧
  (∀ (s : State) (h : SylHdr) (ch : Fin 16) (f : Form) (r : Fin 32) (sz : Size) (a : Fin 8), Solo s h → r.val + sz.count ≤ 32 →
     let c := (s.course h.n).ctx h.x
     let am := s.amode h.n h.x
     let addrs (n : Nat) : List Nat := accessAddrs c (addrMode am ch) ch f n
     let ws := (List.range sz.count).map fun j => c.dget (fin 31 (r.val + j))
     let v := convAcc (c.accOut.get a) (c.mode.extractLsb' 0 5).toInt
     let post := effPost c am ch f
     let sv : List Eff := if v.2 then [.stick flagSV] else []
     let u := s.firstUse h ch
     ((∀ w ∈ addrs sz.count, w < 0x10000 ∧ s.nearWriteOk h.n h.x w = true) →
       exec (.st h ch f (.regs r sz)) s = .next ((u.nearStore h.n h.x (addrs sz.count) ws).issued h (flights post))) ∧
     ((∀ w ∈ addrs 1, w < 0x10000 ∧ s.nearWriteOk h.n h.x w = true) →
       exec (.st h ch f (.acc a)) s = .next ((u.nearStore h.n h.x (addrs 1) [v.1]).issued h (flights (post ++ sv)))) ∧
     ((∀ w ∈ addrs sz.count, 0x1000 ≤ w ∧ w ≤ 0x10FF) → h.x = .fg →
       exec (.out h ch f (.regs r sz)) s = .next ((u.feedStore h.n h.x (addrs sz.count) ws).issued h (flights post))) ∧
     ((∀ w ∈ addrs 1, 0x1000 ≤ w ∧ w ≤ 0x10FF) → h.x = .fg →
       exec (.out h ch f (.acc a)) s = .next ((u.feedStore h.n h.x (addrs 1) [v.1]).issued h (flights (post ++ sv))))) ∧
  (∀ (s : State) (n : CourseId) (x : CtxId) (addrs : List Nat) (ws : List Word), addrs.length = ws.length →
     (∀ a ∈ addrs, a < 0x10000 ∧ s.nearWriteOk n x a = true) →
     let t := s.nearStore n x addrs ws
     OnlyCourse n s t ∧ t.course n = { s.course n with lmem := (t.course n).lmem } ∧
     (∀ b, b / 4 ∉ addrs → byteGet (t.course n).lmem b = byteGet (s.course n).lmem b) ∧
     (∀ (i : Nat) (hi : i < addrs.length) (hw : i < ws.length), (∀ j, i < j → (hj : j < addrs.length) → addrs[j] ≠ addrs[i]) →
       (t.course n).local addrs[i] = ws[i])) ∧
  (∀ (s : State) (n : CourseId) (x : CtxId) (addrs : List Nat) (ws : List Word), addrs.length = ws.length →
     (∀ a ∈ addrs, 0x1000 ≤ a ∧ a ≤ 0x10FF) →
     let t := s.feedStore n x addrs ws
     OnlyCourse n s t ∧ t.course n = { s.course n with feedCur := (t.course n).feedCur } ∧
     (∀ j, j + 0x1000 ∉ addrs → wmGet (t.course n).feedCur j = wmGet (s.course n).feedCur j) ∧
     (∀ (i : Nat) (hi : i < addrs.length) (hw : i < ws.length), (∀ j, i < j → (hj : j < addrs.length) → addrs[j] ≠ addrs[i]) →
       wmGet (t.course n).feedCur (addrs[i] - 0x1000) = ws[i])) ∧
  (∀ (m : List (Nat × Byte)) (w : Nat) (v : Word), memWord (memSetWord m w v) w = v ∧
     (∀ b, b / 4 ≠ w → byteGet (memSetWord m w v) b = byteGet m b) ∧ (∀ i, i < 4 → byteGet (memSetWord m w v) (4 * w + i) = lane v i))

/-! ## The Ridge, moves and handovers (R72, R111 to R136) -/

/-- Accesses of a Course that go through the Ridge (R51, R66, R90): a store whose posted-write buffer has room enters it, with the data read now, and the program goes on; a load stalls its bundle with nothing else done; and once the data of the grant are there, the returned words go to Dr and the registers after it and the bundle is finished, with the preemption that a tick may have asked for behind it (R71; `State.settle`). A granted posted write leaves the buffer; with no bundle of the Course stalled nothing else changes (R51). -/
def Obligations.RidgeAccesses : Prop :=
  (∀ (s : State) (h : SylHdr) (ch : Fin 16) (f : Form) (r : Fin 32) (sz : Size) (q : RidgeReq) (xs : List Word), h.stop = true → h.rsv = false →
     r.val + sz.count ≤ 32 →
     let k := s.course h.n
     let c := k.ctx h.x
     let am := s.amode h.n h.x
     let addrs := accessAddrs c (addrMode am ch) ch f sz.count
     let ws := (List.range sz.count).map fun j => c.dget (fin 31 (r.val + j))
     let u := s.firstUse h ch
     let p : Posted := { x := h.x, req := q, data := ws, granted := false }
     let ldSyl : Syl := { op := .ld h ch f r sz, unit := .agu, bad := false, rsv := false }
     let waiting (o : Option (List Word)) : Stall := { syls := [ldSyl], noStop := false, first := true, reps := 0, reads := some [.ridge q o] }
     (Solo s h → s.storeTarget h.n h.x false addrs = .ridge q → k.posted.length < 8 →
       exec (.st h ch f (.regs r sz)) s =
         .next ((u.setCourse h.n { k with posted := k.posted ++ [p] }).issued h (flights (effPost c am ch f)))) ∧
     (Solo s h → s.storeTarget h.n h.x true addrs = .ridge q → k.posted.length < 8 →
       exec (.out h ch f (.regs r sz)) s =
         .next ((u.setCourse h.n { k with posted := k.posted ++ [p] }).issued h (flights (effPost c am ch f)))) ∧
     (Solo s h → s.readTarget h.n h.x false addrs = .ridge q →
       exec (.ld h ch f r sz) s = .next (u.setCourse h.n (k.setCtx h.x { c with bundle := [], stall := some (waiting none) }))) ∧
     (c.stall = some (waiting (some xs)) → c.bundle = [] → c.rep = none → Unarmed s →
       exec (.ridgeReadReturn h.n h.x) s = .next ((s.issued h (flights (effPost c am ch f ++ effWords c 1 r xs))).settle h.n))) ∧
  (∀ (s : State) (n : CourseId) (p : Posted) (ps : List Posted), (s.course n).posted = p :: ps → p.granted = true →
     (s.course n).fg.stall = none → (s.course n).bg.stall = none →
     exec (.postedWriteAccept n) s = .next (s.setCourse n { s.course n with posted := ps }))

/-- The grant of a write (R115, R131, R401): the port's pointer moves to the Course that won, the DRAM word takes the data, or the scratch word takes them in its view, and the write is marked as granted; no other word of either memory changes. A port serves the requesting Courses round robin: of those whose request finds every port that it reaches open, the one that comes first in the order after the pointer is granted (R131); a port is open while no change holds the masters (R135, R299), and a bank to its new owner once its handover is complete (R114). -/
def Obligations.GrantedAccesses : Prop :=
  (∀ (s : State) (n : CourseId) (p : Posted) (ps : List Posted) (a : Nat) (x : Word), s.courseRatioBad = false → Unarmed s →
     (s.course n).posted = p :: ps → p.req.addrs = [a] → p.data = [x] →
     let mark (t : State) : State := t.setCourse n { s.course n with posted := { p with granted := true } :: ps }
     (∀ c : Fin 2, p.req.port = .dram c → s.portWinner (.dram c) = some (n, .store p) → 0x80000000 ≤ a →
       ∃ t, exec (.ridgeAccessGrant (.dram c)) s = .next t ∧ t = mark { s with rr := t.rr, dram := memSetWord s.dram (a - 0x80000000) x, raced := s.raceAt a } ∧
         (mapFind t.rr (64 + c.val)).getD 12 = n.val) ∧
     (∀ b : Fin 64, p.req.port = .scratch b → s.portWinner (.scratch b) = some (n, .store p) →
       ∃ t, exec (.ridgeAccessGrant (.scratch b)) s = .next t ∧ t = mark { s with rr := t.rr, scratch := t.scratch, raced := t.raced, scrUsed := t.scrUsed } ∧ n.val ∈ t.scrUsed ∧
         (∀ w : Nat, scratchView a = some (.plain, b.val, w) → t.scratch = memSetWord s.scratch (b.val * 65536 + w) x) ∧
         (∀ w : Nat, scratchView a = some (.setAlias, b.val, w) →
           t.scratch = memSetWord s.scratch (b.val * 65536 + w) (s.scratchGet b.val w ||| x)) ∧
         (∀ w : Nat, scratchView a = some (.clrAlias, b.val, w) →
           t.scratch = memSetWord s.scratch (b.val * 65536 + w) (s.scratchGet b.val w &&& ~~~x)))) ∧
  (∀ (s : State) (t : RidgePort) (n : CourseId) (q : PortAsk), s.portWinner t = some (n, q) →
     let open' (k : CourseId) (p : PortAsk) : Prop := ∀ u ∈ p.req.ports, s.portOpen u k = true
     s.portAsk t n = some q ∧ open' n q ∧
     let ptr := (mapFind s.rr (portNo t)).getD 12
     let rank (k : CourseId) : Nat := if ptr < k.val then k.val else k.val + 8
     ∀ k p, s.portAsk t k = some p → open' k p → rank n ≤ rank k)

/-- A move copies its words as if it read them all before it wrote any, also where its ranges overlap: the order of R106 sees to it. A move waits for a hold of the ports, a handover, the DRAM clock, and the DRAM requests of the Courses (R106, R114, R127). The end of a move (R106, R112, R119, R194): a completed one has copied its words, its ticket reads complete, and EV24 + n occurs where its descriptor asked for it; an aborted one has copied the words before the refused one, its ticket reads aborted, and the refusal is recorded for the engine, master 8. What the end of a move leaves (R106): the copied words, but for those that another master wrote in either range during the move and the copies of such words, which hold free values (log entries 2 and 82); with none of them it leaves exactly the copy. The writes noted for the move are forgotten. -/
def Obligations.Moves : Prop :=
  (∀ (s : State) (m : Move), moveRangeOk m.src m.len = true → moveRangeOk m.dst m.len = true → 0 < m.len →
     let t := s.moveCopy m m.len
     t = { s with dram := t.dram, scratch := t.scratch } ∧
     (∀ i, i < m.len → t.moveGet (m.dst + i) = s.moveGet (m.src + i)) ∧
     (∀ a, 0x00400000 ≤ a → (a < m.dst ∨ m.dst + m.len ≤ a) → (moveSpace a).isSome = true → t.moveGet a = s.moveGet a)) ∧
  (∀ (s : State) (n : CourseId) (ticket : Fin 16) (m : Move), (s.course n).runningMove ticket.val = some m →
     (s.moveWaits m = true → exec (.delayMoveComplete n ticket) s = .next s) ∧
     (s.moveBlock n m = none → s.moveWaits m = false → Unarmed s →
       let t := (s.moveResult n m m.len).moveEnd n m .complete
       exec (.delayMoveComplete n ticket) s = .next (if m.event then t.raiseEvent (24 + n.val) (BitVec.ofNat 32 m.ticket) else t)) ∧
     (∀ i c a w, s.moveBlock n m = some (i, .dram c a, w) →
       exec (.delayMoveAbort n ticket) s = .next (((s.moveResult n m i).moveEnd n m .aborted).ridgeRefused c 8 w (BitVec.ofNat 32 a))) ∧
     (∀ i b a w, s.moveBlock n m = some (i, .scratch b a, w) →
       exec (.delayMoveAbort n ticket) s = .next (((s.moveResult n m i).moveEnd n m .aborted).scratchRefused 0 8 b (BitVec.ofNat 32 a)))) ∧
  (∀ (s : State) (n : CourseId) (m : Move) (count : Nat), moveRangeOk m.src m.len = true → moveRangeOk m.dst m.len = true → 0 < m.len →
     let u := s.moveCopy m count
     let t := s.moveResult n m count
     let hit (a : Nat) : Prop := (n.val, m.ticket, a) ∈ s.raced
     t = { s with dram := t.dram, scratch := t.scratch, raced := t.raced, freeCtr := t.freeCtr } ∧
     (∀ e, e ∈ t.raced ↔ e ∈ s.raced ∧ ¬ (e.1 = n.val ∧ e.2.1 = m.ticket)) ∧
     ((∀ a, ¬ hit a) → t = u) ∧
     (∀ i, i < m.len → hit (m.dst + i) ∨ (hit (m.src + i) ∧ count = m.len) → ∃ k, t.moveGet (m.dst + i) = Config.freeWord k) ∧
     (∀ a, 0x00400000 ≤ a → (moveSpace a).isSome = true → ¬ hit a → (∀ i, i < m.len → a = m.dst + i → ¬ hit (m.src + i)) → t.moveGet a = u.moveGet a))

/-- Handovers of scratch banks (R112 to R114): an accepted request of another owner sets PEND, and from then on the ports hold the new owner; the completion waits for the accesses that the old owner has outstanding, gives OWN the new owner, clears PEND, sets HO_DONE and raises EV40; a request that may not be made is recorded and changes no owner. The slow Ridge (R135, R136): a write of SLOW in maintenance mode starts the switch where SLOW_ACT does not show it yet, and outside that mode has no effect (log entry 93); and the switch makes SLOW_ACT follow. -/
def Obligations.HandoversAndSlow : Prop :=
  (∀ (s : State) (m : Master) (b : Fin 64) (v : Word),
     let o := fld v 0 4
     let lo := if b.val < 32 then regSCR_HO_DONE_LO else regSCR_HO_DONE_HI
     (s.scrPend b.val = false → s.mayHandOver m.val b.val = true → (o < 11 ∨ o = 15) → o ≠ s.rfld (regSCR_OWN b.val) 0 4 →
       ∃ t, exec (.scrOwnWrite m b v) s = .next t ∧ t = { s with regs := t.regs, newOwner := t.newOwner } ∧
         t.reg (regSCR_OWN b.val) = s.reg (regSCR_OWN b.val) ||| 0x80000000#32 ∧ t.scrPend b.val = true ∧ t.scrOwner b.val = o ∧
         (∀ a, a ≠ regSCR_OWN b.val → t.reg a = s.reg a) ∧ (∀ d, d ≠ b.val → mapFind t.newOwner d = mapFind s.newOwner d)) ∧
     (s.scrPend b.val = false → s.mayHandOver m.val b.val = false → (o < 11 ∨ o = 15) →
       exec (.scrOwnWrite m b v) s = .next (s.scratchRefused 1 m.val b.val 0)) ∧
     (s.bankBusy b = true → exec (.handoverComplete b) s = .next s) ∧
     (s.scrPend b.val = true → s.bankBusy b = false → s.scrOwner b.val < 16 →
       ∃ (t u : State), exec (.handoverComplete b) s = .next t ∧ t = u.raiseEvent 40 (BitVec.ofNat 32 b.val) ∧
         u = { s with regs := u.regs, newOwner := u.newOwner } ∧
         u.reg (regSCR_OWN b.val) = BitVec.ofNat 32 (s.scrOwner b.val) ∧ u.scrPend b.val = false ∧ u.rbit lo (b.val % 32) = true ∧
         (∀ a, a ≠ regSCR_OWN b.val → a ≠ lo → u.reg a = s.reg a))) ∧
  (∀ (s : State) (m : Master) (v : Word),
     (s.rbit regGLOBAL_MODE 16 = false → exec (.ridgeSlowWrite m v) s = .next s) ∧
     (s.rbit regGLOBAL_MODE 16 = true → ∃ t, exec (.ridgeSlowWrite m v) s = .next t ∧ OnlyRegs [regRIDGE_CTRL, regRIDGE_STATUS] s t ∧ t.reg regRIDGE_CTRL = v &&& 1#32 ∧
       t.rbit regRIDGE_STATUS 0 = s.rbit regRIDGE_STATUS 0 ∧ t.rbit regRIDGE_STATUS 1 = (bit v 0 != s.rbit regRIDGE_STATUS 0)) ∧
     (s.rbit regRIDGE_STATUS 1 = true →
       ∃ t, exec .ridgeSliceSwitch s = .next t ∧ OnlyRegs [regRIDGE_STATUS] s t ∧
         t.rbit regRIDGE_STATUS 0 = s.rbit regRIDGE_CTRL 0 ∧ t.rbit regRIDGE_STATUS 1 = false))

/-! ## Courses and the frame (R21 to R59) -/

/-- The frame tick (R22, R36): once frames run, FC steps by one, the commands that wait stay as they are, and a matrix whose work of the frame that ends is not done raises source 40; before the first tick nothing happens. What the tick of frame k does to a Course (R35, R69, R71 to R73, R77, R100): SLEEP goes to ENTRY, and so does BACK unless a REP or a stalled read of the control window must finish first (then the preemption is due, and takes place with its end: `State.settle`); a preempted background keeps its task, has its results in flight written and a stalled bundle to issue again, a Course of FORE stays there with its backlog counted, a halted one stays halted while HALT is set and starts at ENTRY of frame k otherwise, a reloaded one starts too; a requested reset resets the background, aborts its task with EV3 and drops the feeds. Other Courses do not change. -/
def Obligations.FrameTick : Prop :=
  (∀ s : State,
     (s.ticking = true → ∃ t, exec .frameTick s = .next t ∧ t.fc = s.fc + 1 ∧ t.ticking = true ∧ t.pending = s.pending ∧
       t.dram = s.dram ∧ t.scratch = s.scratch ∧ t.flash = s.flash ∧
       (s.gatedOff 8 = false → s.matFrame ≠ some s.now → t.faultLatched 40 = true)) ∧
     (s.ticking = false → exec .frameTick s = .next s)) ∧
  (∀ (s : State) (n : CourseId) (k : Nat), let c := s.course n
     let t := s.courseTick n k
     let d := t.course n
     (∀ m, m ≠ n → t.course m = s.course m) ∧
     (c.resetReq = false →
       ((c.phase = .sleep ∨ c.phase = .back) → d.frame = c.frame ∧ d.fg = c.fg ∧ d.lmem = c.lmem ∧ (d.task.map Task.tag) = (c.task.map Task.tag)) ∧
       (c.phase = .sleep → d.phase = .entry ∧ d.bg = c.bg) ∧
       (c.phase = .back → c.bg.mustFinish (s.amode n .bg) = false → d.phase = .entry ∧ d.bg = c.bg.preempt) ∧
       (c.phase = .back → c.bg.mustFinish (s.amode n .bg) = true → d.phase = .back ∧ d.bg = c.bg ∧ d.preemptDue = true) ∧
       (c.phase = .fore → d.phase = .fore ∧ d.frame = c.frame ∧ d.fg = c.fg ∧ d.bg = c.bg) ∧
       (c.phase = .halted → s.rbit (regC_CTRL n.val) 0 = true → d.phase = .halted ∧ d.frame = k) ∧
       (c.phase = .halted → s.rbit (regC_CTRL n.val) 0 = false → d.phase = .entry ∧ d.frame = k ∧ d.fg = c.fg ∧ d.bg = c.bg) ∧
       (c.phase = .reset → c.reloaded = true → d.frame = k ∧ (s.rbit (regC_CTRL n.val) 0 = false → d.phase = .entry) ∧
         (s.rbit (regC_CTRL n.val) 0 = true → d.phase = .halted)) ∧ (c.phase = .reset → c.reloaded = false → d.phase = .reset) ∧
       (c.phase ≠ .halted → c.phase ≠ .reset → s.rbit (regC_CTRL n.val) 0 = true → d.haltDue = true) ∧
       (c.frame < k → c.phase ≠ .halted → c.phase ≠ .reset → t.reg (regC_BACKLOG_CNT n.val) = satAdd (s.reg (regC_BACKLOG_CNT n.val)) 0 32 1)) ∧
     (c.resetReq = true → d.phase = .reset ∧ d.resetReq = false ∧ d.reloaded = false ∧ d.bg = Ctx.reset ∧ d.task = none ∧ d.frame = k ∧
       d.feedOut = [] ∧ d.feedFrame = none ∧ d.pmem = c.pmem ∧ d.lmem = c.lmem ∧ d.fg.d = c.fg.d ∧
       (∀ w, c.task = some w → t.reg (regEVT_PAYLOAD 3) = BitVec.ofNat 32 (w.tag + n.val * 65536) ∧ t.rbit (regEVT_PEND 0) 3 = true))) ∧
  (∀ (s : State) (n : CourseId), let c := s.course n
     (c.preemptDue = true → c.phase = .back → c.bg.stall = none → c.bg.rep = none →
       s.settle n = s.setCourse n { c with phase := .entry, preemptDue := false, bg := c.bg.drain }) ∧
     ((c.preemptDue = false ∨ c.phase ≠ .back ∨ c.bg.stall.isSome = true ∨ c.bg.rep.isSome = true) → s.settle n = s))

/-- The start of the foreground work (R29, R35, R45): PC takes FG_ENTRY, every other register of the context keeps its value, and the frame starts without feed or tap writes; nothing outside the Course changes. The completion of the foreground work of frame k (R31, R33, R70, R77, R102): results in flight are written, the feeds of the frame pass on unless the slack was missed, CYCLES and FG_MAX take the cycles, and the Course goes to SLEEP, or straight on to the next frame when the work ran late, which sets LATE. A missed deadline (R31, R32): MISS and LATE are set, the overrun is counted, the Course's feeds are zero from here, and source 24 + n occurs; a Course still in the work of frame k two ticks later raises source 32 + n. -/
def Obligations.ForegroundFrames : Prop :=
  (∀ (s : State) (n : CourseId), let c := s.course n
     s.ticking = true → s.asleep = false → c.phase = .entry → c.frame ≤ s.now → s.matrixDone c.frame = true → c.haltDue = false →
     ∃ t, exec (.foregroundStart n) s = .next t ∧ OnlyCourse n s t ∧ (t.course n).phase = .fore ∧ (t.course n).frame = c.frame ∧
       (t.course n).fg = { c.fg with pc := BitVec.ofNat 14 (s.rfld (regC_FG_ENTRY n.val) 0 14), slot := none, rep := none, bundle := [], stall := none, ended := false } ∧
       (t.course n).bg = c.bg ∧ (t.course n).pmem = c.pmem ∧ (t.course n).lmem = c.lmem ∧ (t.course n).feedCur = [] ∧ (t.course n).tapCur = [] ∧
       (t.course n).mayIssue .fg = true) ∧
  (∀ (s : State) (n : CourseId) (cycles behind : BitVec 16), let c := s.course n
     c.phase = .fore → c.fg.ended = true → (∀ p ∈ c.posted, p.x = .bg) → c.task = none → c.haltDue = false → c.ioOpen = false → c.mboxOpen = false →
     ∃ t, exec (.foregroundWorkComplete n cycles behind) s = .next t ∧
       t = { s with regs := t.regs, courses := t.courses, lines := t.lines } ∧
       (∀ m, m ≠ n → t.course m = s.course m) ∧
       (∀ a, a ∉ [regC_CYCLES n.val, regC_STALL_LAST n.val, regC_FG_MAX n.val, regC_BACKLOG_MAX n.val, regGLOBAL_PIPE_STAT] → t.reg a = s.reg a) ∧
       t.rfld (regC_CYCLES n.val) 16 16 = cycles.toNat ∧
       t.reg (regC_FG_MAX n.val) = BitVec.ofNat 32 (max (s.rfld (regC_FG_MAX n.val) 0 16) cycles.toNat) ∧
       (t.course n).fg = c.fg.drain ∧ (t.course n).frame = c.frame + 1 ∧
       ((∀ m, c.missed = some m → m < c.frame) → (t.course n).feedOut = c.feedCur ∧ (t.course n).feedFrame = some c.frame) ∧
       ((∃ m, c.missed = some m ∧ c.frame ≤ m) → (t.course n).feedOut = [] ∧ (t.course n).feedFrame = none) ∧
       (s.now ≤ c.frame → (t.course n).phase = .sleep ∧ t.reg regGLOBAL_PIPE_STAT = s.reg regGLOBAL_PIPE_STAT) ∧
       (c.frame < s.now → (t.course n).phase = .entry ∧ t.rbit regGLOBAL_PIPE_STAT (8 + n.val) = true ∧
         t.reg (regC_BACKLOG_MAX n.val) = BitVec.ofNat 32 (max (s.rfld (regC_BACKLOG_MAX n.val) 0 16) behind.toNat))) ∧
  (∀ (s : State) (n : CourseId), let c := s.course n
     s.ticking = true →
     (1 ≤ s.now → c.frame ≤ s.now - 1 → (c.phase = .fore ∨ c.phase = .entry) → (∀ m, c.missed = some m → m < s.now - 1) →
       ∃ u : State, exec (.slackMiss n) s = .next (u.faultOccurs (24 + n.val)) ∧
         u = { s with regs := u.regs, courses := u.courses } ∧ u.rbit regGLOBAL_PIPE_STAT (16 + n.val) = true ∧
         u.rbit regGLOBAL_PIPE_STAT (8 + n.val) = true ∧ u.reg (regC_OVERRUN_CNT n.val) = satAdd (s.reg (regC_OVERRUN_CNT n.val)) 0 32 1 ∧
         u.course n = { c with missed := some (s.now - 1) } ∧ (∀ m, m ≠ n → u.course m = s.course m) ∧
         (∀ a, a ≠ regGLOBAL_PIPE_STAT → a ≠ regC_OVERRUN_CNT n.val → u.reg a = s.reg a)) ∧
     (c.phase = .fore → c.frame + 2 ≤ s.now → exec (.backlogLimit n) s = .next (s.faultOccurs (32 + n.val))))

/-- Control of a Course (R72, R73, R77, R129): SRESET requests the reset of the next tick and nothing else; HALT takes the written bit; a Course whose halt a tick has seen stops with its feeds at zero and both contexts kept; FG_ENTRY, DMEM_SPLIT, AMODE_FG and the declared delay counts change only while it is halted, and any other write of them only sets HOSTREF (a tap that new counts leave out starts anew, log entry 92). The Course memories as the host writes them (R78, R332): a word of program memory or of the foreground region changes while the Course is halted, otherwise HOSTREF is set; a word above the foreground region changes at any time; the word written takes the value and no other byte changes. The reload of a reset Course (R72, R329): the foreground context and region come from the reset store of its scene region, and the background and the memories of other Courses are left alone. -/
def Obligations.CourseControl : Prop :=
  (∀ (s : State) (m : Master) (n : CourseId) (v : Word), let c := s.course n
     exec (.sreset m n) s = .next (s.setCourse n { c with resetReq := true }) ∧
     exec (.halt m n true) s = .next (s.setReg (regC_CTRL n.val) (setBit (s.reg (regC_CTRL n.val)) 0 true)) ∧
     exec (.halt m n false) s =
       .next ((s.setReg (regC_CTRL n.val) (setBit (s.reg (regC_CTRL n.val)) 0 false)).setCourse n { c with haltDue := false }) ∧
     (c.haltDue = true → c.preemptDue = false → (c.phase = .entry ∨ c.phase = .sleep ∨ c.phase = .back) → exec (.courseHalted n) s =
       .next (s.setCourse n { c with bg := if c.phase = .back then c.bg.preempt else c.bg, phase := .halted, haltDue := false,
                                     feedFrame := none, feedOut := [], feedLevel := 0 })) ∧
     (∀ r : Nat × Word, r ∈ [(regC_FG_ENTRY n.val, 0x00003FFF#32), (regC_DMEM_SPLIT n.val, 0x0000007F#32), (regC_AMODE_FG n.val, 0xFFFFFFFF#32)] →
       (c.phase = .halted → exec (.courseHaltedRegisterWrite m (BitVec.ofNat 32 r.1) v) s = .next (s.setReg r.1 (v &&& r.2))) ∧
       (c.phase ≠ .halted → exec (.courseHaltedRegisterWrite m (BitVec.ofNat 32 r.1) v) s =
         .next (s.setReg (regC_STATUS n.val) (s.reg (regC_STATUS n.val) ||| oneHot 20)))) ∧
     (c.phase = .halted → ∃ t, exec (.dlyDeclWrite m n v) s = .next t ∧
       t = { s.setReg (regDLY_DECL n.val) (v &&& 0x0FFF07FF#32) with taps := t.taps } ∧
       ∀ j, j / 2048 ≠ n.val → mapFind t.taps j = mapFind s.taps j) ∧
     (c.phase ≠ .halted → exec (.dlyDeclWrite m n v) s = .next (s.setReg regDLY_STATUS (s.reg regDLY_STATUS ||| oneHot 31)))) ∧
  (∀ (s : State) (n : CourseId) (w : Nat) (v : Word), s.debugLock = false → w < 65536 → let c := s.course n
     let prog : Word := BitVec.ofNat 32 (0x02000000 + n.val * 0x80000 + 4 * w)
     let data : Word := BitVec.ofNat 32 (0x02040000 + n.val * 0x80000 + 4 * w)
     let ref : State := s.setReg (regC_STATUS n.val) (s.reg (regC_STATUS n.val) ||| oneHot 20)
     (w < 16384 → c.phase = .halted → exec (.courseMemoryWindowWrite 10 prog v) s = .next (s.setCourse n { c with pmem := memSetWord c.pmem w v })) ∧
     (w < 16384 → c.phase ≠ .halted → exec (.courseMemoryWindowWrite 10 prog v) s = .next ref) ∧
     (c.phase = .halted ∨ s.fgWords n ≤ w →
       exec (.courseMemoryWindowWrite 10 data v) s = .next (s.setCourse n { c with lmem := memSetWord c.lmem w v })) ∧
     (c.phase ≠ .halted → w < s.fgWords n → exec (.courseMemoryWindowWrite 10 data v) s = .next ref)) ∧
  (∀ (s : State) (n : CourseId), let c := s.course n
     c.phase = .reset → c.reloaded = false → s.dramOn = true → s.headBusy = false → Unarmed s →
     let base := s.resetStore n.val
     ∃ t, exec (.courseResetReloadComplete n) s = .next t ∧ OnlyCourse n s t ∧ (t.course n).reloaded = true ∧ (t.course n).phase = .reset ∧
       (∀ k : Fin 32, (t.course n).fg.d.get k = s.dramGet (base + k.val)) ∧
       (∀ w, w < s.fgWords n → (t.course n).local w = s.dramGet (base + 128 + w)) ∧
       (∀ w, s.fgWords n ≤ w → (t.course n).local w = c.local w) ∧
       (t.course n).bg = c.bg ∧ (t.course n).pmem = c.pmem)

/-! ## The delay memory and the mixing fabric (R118 to R166) -/

/-- The prefetch of a frame (R74, R75): once it may run, the bank belongs to the frame, entries without a working tap hold zero, and only the Course and its taps change. A sample is held for a member of delay d in frame k while d is at most every ring length since it was written, and is read as written; otherwise the member reads zero (R122). -/
def Obligations.TapsAndHeldSamples : Prop :=
  (∀ (s : State) (n : CourseId), let c := s.course n
     let k := c.nextPrefetch
     s.dramOn = true → s.gatedOff 13 = false → k ≤ s.now + 1 → c.mboxFrame.get (fin 1 (k % 2)) ≠ some k → c.fg.stall = none → Unarmed s →
     ∃ t, exec (.tapPrefetch n) s = .next t ∧ t = { s with courses := t.courses, taps := t.taps } ∧ (∀ m, m ≠ n → t.course m = s.course m) ∧
       (t.course n).mboxFrame.get (fin 1 (k % 2)) = some k ∧ (t.course n).fg = c.fg ∧ (t.course n).bg = c.bg ∧
       (∀ j, j < 2048 → j ∉ s.tapsOn n.val → wmGet (t.course n).mbox (k % 2 * 2048 + j) = 0) ∧
       (∀ j, j < 2048 → wmGet (t.course n).mbox ((k + 1) % 2 * 2048 + j) = wmGet c.mbox ((k + 1) % 2 * 2048 + j))) ∧
  ((∀ (ln : Line) (k d : Nat) (v : Word) (r : Nat) (m : TapMember), ln.hist.find? (fun e => decide (e.1 + d = k ∧ d ≤ e.2.2)) = some (k - d, v, r) →
     d ≤ ln.ring → d ≤ k → m.delay = d → m.held = true → m.fadeAt = none → m.read ln k = ({ m with held := true }, v.toInt)) ∧
   (∀ (ln : Line) (k : Nat) (m : TapMember), ln.sample k m.delay = none → (m.read ln k).2 = 0 ∧ (m.read ln k).1.held = false) ∧
   (∀ (ln : Line) (k : Nat) (v : Word) (e : Nat × Word × Nat), e ∈ (ln.post k v).hist → k + 1 - e.1 ≤ e.2.2 ∧ e.2.2 ≤ ln.ring) ∧
   (∀ (ln : Line) (k : Nat) (v : Word), (ln.post k v).posted = ln.posted ++ [(k, ln.pos, v)] ∧ (ln.post k v).pos = (ln.pos + 1) % ln.ring))

/-- What the delay controller does between prefetches (R122 to R124): replaced members retire after their crossfade, a length change folds the write position once the line is quiet, and the oldest posted samples of one block of 16 ring positions reach their DRAM words, or are refused and recorded where they would leave the delay region (R119). Direct writes to the delay tables (R120): an aligned word that is not shadowed changes while its Course is halted, with the checks of R121 (taps whose tables then give another line or delay start anew, log entry 92), and LEN, DELAY or a running Course only sets DLY.STATUS.HOSTREF; any other address is unmapped (R11, R17). -/
def Obligations.DelayMemory : Prop :=
  (∀ (s : State) (n : CourseId) (j : Fin 2048) (l : Fin 1024),
     let tp := s.tap n.val j.val
     let ln := s.line n.val l.val
     let l2 := s.lineLen n.val l.val
     (tp.fade.over (s.course n).nextPrefetch = true →
       exec (.tapCrossfadeEnd n j) s = .next (s.setTap n.val j.val { tp with fade := Fade.single tp.fade.newest })) ∧
     (l2 ≠ ln.ring → s.lineQuiet n.val l.val (s.course n).frame = true → ln.oldUntil ≤ (s.course n).frame →
       exec (.lengthFold n l) s = .next (s.setLine n.val l.val { ln with ring := l2, pos := ln.pos % l2, oldUntil := (s.course n).frame + l2 })) ∧
     (∀ (e : Nat × Nat × Word) (rest : List (Nat × Nat × Word)), s.dramOn = true → ln.posted = e :: rest →
       let blk := ln.posted.takeWhile fun p => p.2.1 / 16 == e.2.1 / 16
       let base := s.lineBase n.val l.val
       1 ≤ blk.length ∧
       ((blk.map fun p => p.2.1).Nodup → (∀ p ∈ blk, s.dramRegion (base + p.2.1) = some 0) →
         ∃ t, exec (.delayBlockWrite n l) s = .next t ∧ t = { s with dram := t.dram, lines := t.lines } ∧
           (∀ p ∈ blk, t.dramGet (base + p.2.1) = p.2.2) ∧
           (∀ w, (∀ p ∈ blk, w ≠ base + p.2.1) → t.dramGet w = s.dramGet w) ∧
           (t.line n.val l.val).posted = ln.posted.drop blk.length) ∧
       ((∀ p ∈ blk, s.dramRegion (base + p.2.1) ≠ some 0) →
         ∃ t, exec (.delayBlockWrite n l) s = .next t ∧ t.dram = s.dram ∧ t.rbit regRIDGE_ERR 31 = true ∧
           (t.line n.val l.val).posted = ln.posted.drop blk.length))) ∧
  (∀ (s : State) (m : Master) (a v : Word), delayWord a.toNat = none → exec (.delayTableWrite m a v) s = .next s.unmapped) ∧
  (∀ (s : State) (m : Master) (a v : Word) (d : DelayWord), delayWord a.toNat = some d → a.toNat % 4 = 0 ∧
     ((d.shadowed = true ∨ (s.course (fin 7 d.course)).phase ≠ .halted) →
       exec (.delayTableWrite m a v) s = .next (s.setReg regDLY_STATUS (s.reg regDLY_STATUS ||| oneHot 31))) ∧
     (d.shadowed = false → (s.course (fin 7 d.course)).phase = .halted →
       ∃ u : State, exec (.delayTableWrite m a v) s = .next (u.checkDelayWord a.toNat) ∧
         u = { (s.tabSet a.toNat (v &&& d.mask)).shadSet a.toNat (v &&& d.mask) with taps := u.taps } ∧
         ∀ j, j / 2048 ≠ d.course → mapFind u.taps j = mapFind s.taps j))

/-- Changes that had to wait start when their turn comes, with the crossfade length of their group: of those with room the one with the earliest commit frame, then the lowest number (R402). A crossfade that starts at frame c leaves the values of the frames before it as they are (R33, R37, R126). The crossfade arithmetic (R125, R126): the weight of frame c + t rises from below 1 to 2^31, a pair combined with weight 2^31 is the new value and one with weight 0 the old one, and every combination of two Q1.31 values lies between them. Crossfades of selectors and sections end, and members whose ramp to 0 is over retire; the other members stay as they are (R143, R146, R155). -/
def Obligations.Crossfades : Prop :=
  (∀ (s : State) (n : CourseId) (j : Fin 2048) (a : Word) (x : Fin 65536) (p : Fin 4096) (sec : Fin 16384),
     (∀ w, firstTurn s.tapsWaiting (fun k => s.tapRoom (k / 2048) (k % 2048) (s.course (fin 7 (k / 2048))).nextPrefetch) = some (tapKey n.val j.val) →
       (s.tap n.val j.val).waiting = some w → w.1 < (s.course n).nextPrefetch →
       exec (.waitingChangeStart (.tap n j)) s = .next (s.tapBegin n.val j.val (s.course n).nextPrefetch w.2 (s.lineFade n.val (s.tapLine n.val j.val)))) ∧
     (∀ y, firstTurn s.selsWaiting (fun k => s.selRoom k s.now) = some a.toNat → s.shadowed (a.toNat / 4 * 4) = some y →
       exec (.waitingChangeStart (.sel a)) s = .next (s.setSelector a.toNat
         { fade := (s.selector a.toNat).fade.begin s.now (s.selCode a.toNat) (s.xfadeLen y.group), waiting := none })) ∧
     (firstTurn s.entriesWaiting (fun k => s.entryRoom k s.matNext) = some x.val → exec (.waitingChangeStart (.xpoint x)) s = .next (s.routeBegin x.val s.matNext)) ∧
     (firstTurn s.entriesWaiting (fun k => s.entryRoom k s.matNext) = some (65536 + p.val) → exec (.waitingChangeStart (.patch p)) s = .next (s.routeBegin (65536 + p.val) s.matNext)) ∧
     (firstTurn s.secsWaiting (fun k => s.secRoom k (s.secStartFrame k)) = some sec.val →
       exec (.waitingChangeStart (.sec sec)) s = .next (s.secBegin sec.val (s.secStartFrame sec.val)))) ∧
  (∀ (l : List (Nat × Nat)) (room : Nat → Bool) (x : Nat), firstTurn l room = some x →
     room x = true ∧ ∃ c, (c, x) ∈ l ∧ ∀ e ∈ l, room e.2 = true → c < e.1 ∨ (c = e.1 ∧ x ≤ e.2)) ∧
  (∀ (f : Fade Int) (k c : Nat) (m : Int) (len : Nat), k < c → (f.begin c m len).value id k = f.value id k) ∧
  ((∀ t f, t < f → fadeWeight t f = (t + 1) * 2 ^ 31 / f ∧ fadeWeight t f ≤ 2 ^ 31) ∧ (∀ f, 0 < f → fadeWeight (f - 1) f = 2 ^ 31) ∧
   (∀ x y : Word, fadePair x.toInt y.toInt (2 ^ 31) = y.toInt ∧ fadePair x.toInt y.toInt 0 = x.toInt) ∧
   (∀ (x y : Word) (g : Nat), g ≤ 2 ^ 31 → min x.toInt y.toInt ≤ fadePair x.toInt y.toInt g ∧ fadePair x.toInt y.toInt g ≤ max x.toInt y.toInt) ∧
   (∀ t1 t2 f, t1 ≤ t2 → fadeWeight t1 f ≤ fadeWeight t2 f)) ∧
  (∀ (s : State) (k : EntryKey) (a : Word) (sec : Fin 16384),
     let e := s.xent (entryKey k)
     let kept := e.members.filter fun m => !(m.dying && decide (m.start + m.len ≤ s.now))
     ((kept ≠ [] ∨ e.waiting.isSome) → exec (.memberRetire k) s = .next (s.setXent (entryKey k) { e with members := kept })) ∧
     (kept = [] → e.waiting = none → exec (.memberRetire k) s = .next { s with xents := mapDel s.xents (entryKey k) }) ∧
     ((s.selector a.toNat).fade.over s.now = true → exec (.selectorCrossfadeEnd a) s =
       .next (s.setSelector a.toNat { s.selector a.toNat with fade := Fade.single (s.selector a.toNat).fade.newest })) ∧
     ((s.sec sec.val).fade.over (s.secFrame sec.val) = true → exec (.sectionCrossfadeEnd sec) s =
       .next (s.setSec sec.val { s.sec sec.val with fade := Fade.single (s.sec sec.val).fade.newest })))

/-- The matrix work of a frame (R30, R149): every bus takes the rounded and saturated exact sum of the gain-weighted feeds of its members, the buses of the frame before are kept, and the frame is marked as done. The records of the array and the meters (R152, R162): the oldest complete frame with a saturating step goes into EQ.SAT_SEC while that holds no valid record; a read of word 0 of a meter point returns it and latches words 1 to 3 for the master. -/
def Obligations.MatrixAndArrays : Prop :=
  (∀ s : State, s.ticking = true → (∀ m, s.matFrame = some m → m < s.now) → s.matrixDue s.now = true → s.gatedOff 8 = false → Unarmed s →
     let k := s.now
     ∃ t, exec .matrixWorkStart s = .next t ∧
       t = { s with regs := t.regs, courses := t.courses, bus := t.bus, mixFeeds := t.mixFeeds, matFrame := some k } ∧
       (∀ b, b < 1024 → wmGet t.bus (k % 2 * 1024 + b) =
         (busOut (((s.entryKeys.filter fun x => s.entryBus x == b).map fun x => t.entrySum x k).sum) (s.busShift b)).1) ∧
       (∀ b, b < 1024 → wmGet t.bus ((k + 1) % 2 * 1024 + b) = wmGet s.bus ((k + 1) % 2 * 1024 + b)) ∧
       (∀ f, f < 2048 → fld (s.tabGet (0x01110000 + 4 * (f / 16))) 28 4 ≠ 5 → wmGet t.mixFeeds f = wmGet s.captured f) ∧
       (∀ a, a ∉ [regMIX_STATUS, regMIX_AV_CNT, regMIX_AV_BUS, regMIX_SAT_CNT, regMIX_ACTIVE] → t.reg a = s.reg a)) ∧
  ((∀ (s : State) (e : Nat × Nat) (rest : List (Nat × Nat)), s.eqSat = e :: rest → s.eqFrameDone e.1 = true →
     (s.rbit regEQ_SAT_SEC 31 = false →
       exec .eqSatRecord s = .next ({ s with eqSat := rest }.setReg regEQ_SAT_SEC (BitVec.ofNat 32 (0x80000000 + e.2)))) ∧
     (s.rbit regEQ_SAT_SEC 31 = true → exec .eqSatRecord s = .next { s with eqSat := rest })) ∧
   (∀ (s : State) (m : Master) (p : Fin 4096),
     ∃ t, exec (.meterReadingWord0Read m p) s = .next t ∧ t = { s with latch := t.latch, rdata := t.rdata } ∧
       wmGet t.rdata m.val = s.meterWord p.val 0 ∧ (∀ k, k ≠ m.val → wmGet t.rdata k = wmGet s.rdata k) ∧
       (∀ w, 1 ≤ w → w ≤ 3 → t.latched m.val (readingAddr p.val w) = s.meterWord p.val w)))

/-! ## Scenes, shadow sets and commit (R167 to R191) -/

/-- Direct writes that are ignored (R138, R168): a boot-only, read-only or shadowed word keeps its value; only the HOSTREF bit of its block is set. The partner table takes a written word, and a change of VALID raises EV63 with the entry (R269); an entry without VALID has no records, and once frames run the connection rules follow a write of word 0 (R270). Headers and payload words (R172, R174): an accepted header opens an entry of its master, or completes it when it has no payload; a refused one sets its status bit, counts and raises EV33, and for want of room source 3; a payload word joins the open entry and the last one completes it; without an open entry it is discarded. -/
def Obligations.TableAndQueueWrites : Prop :=
  (∀ (s : State) (m : Master) (a v : Word),
     (∀ k mask, tabWord a.toNat = some (k, mask) → (k = .boot ∨ k = .readOnly) →
       ∃ t, exec (.bootOnlyWordWrite m a v) s = .next t ∧ (∀ r b, hostRefBit a.toNat = some (r, b) → t = s.setReg r (s.reg r ||| oneHot b)) ∧
         (hostRefBit a.toNat = none → t = s)) ∧
     ((s.shadowed a.toNat).isSome = true →
       ∃ t, exec (.shadowedWordDirectWrite m a v) s = .next t ∧ (∀ r b, hostRefBit a.toNat = some (r, b) → t = s.setReg r (s.reg r ||| oneHot b)) ∧
         (hostRefBit a.toNat = none → t = s)) ∧
     (∀ p w : Nat, a.toNat = 0x01A30000 + 32 * p + 4 * w → p < 512 → w < 8 →
       let mask : Word := if w = 0 then 0xFC00FFFF#32 else if w = 6 then 0x0000FFFF#32 else 0xFFFFFFFF#32
       let t := s.tabSet a.toNat (v &&& mask)
       let u : State := if bit v 31 = s.partnerValid p then t else t.raiseEvent 63 (BitVec.ofNat 32 p)
       let u' : State := if bit v 31 = true then u else { u with partnerFlows := mapDel u.partnerFlows p }
       (w ≠ 0 → s.partnerValid p = true → exec (.partnerTableWrite m a v) s = .next t) ∧
       (w ≠ 0 → s.partnerValid p = false → exec (.partnerTableWrite m a v) s = .next { t with partnerFlows := mapDel t.partnerFlows p }) ∧
       (w = 0 → exec (.partnerTableWrite m a v) s = .next u'.connect) ∧ (s.ticking = false → u'.connect = u'))) ∧
  (∀ (s : State) (m : Master) (v : Word),
     (s.openEntry m.val = none → s.pegVerdict m.val v = none → hdrLen v ≠ 0 → exec (.pegQhdrWrite m v) s =
       .next { s with pegOpen := s.pegOpen ++ [{ master := m.val, hdr := v, words := [] }] }) ∧
     (s.openEntry m.val = none → s.pegVerdict m.val v = none → hdrLen v = 0 → exec (.pegQhdrWrite m v) s = .next (s.joinQueue m.val v [] none)) ∧
     (s.openEntry m.val = none → s.pegClosed = false → s.pegVerdict m.val v = some 28 → exec (.pegQhdrWrite m v) s = .next (s.pegRefuse m.val 28)) ∧
     (s.openEntry m.val = none → s.pegClosed = false → s.pegVerdict m.val v = some 30 →
       exec (.pegQhdrWrite m v) s = .next ((s.faultOccurs 3).pegRefuse m.val 30)) ∧
     (∀ e, s.openEntry m.val = some e → e.words.length + 1 < hdrLen e.hdr → exec (.pegQdataWrite m v) s =
       .next { s with pegOpen := s.pegOpen.map fun o => if o.master = m.val then { o with words := e.words ++ [v] } else o }) ∧
     (∀ e, s.openEntry m.val = some e → hdrLen e.hdr ≤ e.words.length + 1 → exec (.pegQdataWrite m v) s =
       .next ({ s with pegOpen := s.pegOpen.filter fun o => decide (o.master ≠ m.val) }.joinQueue m.val e.hdr (e.words ++ [v]) none)) ∧
     (s.openEntry m.val = none → exec (.pegQdataWrite m v) s = .next s))

/-- A WRITE entry whose words are all shadowed, unsealed and defined reaches the shadow copies in order, without their reserved bits (R13, R142), and only those; the active copies do not change (R167, R176). A word of a sealed group stalls the queue: the copies stay as they are and the entry stays at the head (R177). -/
def Obligations.PegWrites : Prop :=
  (∀ (s : State) (e : PegEntry) (rest : List PegEntry) (base : Word) (vs : List Word), s.pegQueue = e :: rest → hdrOp e.hdr = 1 → s.pegHalted = false →
     e.words = base :: vs → e.pos = 0 →
     (∀ i, i < vs.length → ∃ w, s.shadowed (base.toNat + 4 * i) = some w ∧ s.isSealed w.group = false ∧
       reservedShadow (base.toNat + 4 * i) (nthD vs i 0) = false) →
     ∃ t, exec .pegWrite s = .next t ∧ t = { s with shad := t.shad, pegQueue := rest, fwdApplied := t.fwdApplied } ∧
       (∀ i w, i < vs.length → s.shadowed (base.toNat + 4 * i) = some w → t.shadGet (base.toNat + 4 * i) = shadowTrim (base.toNat + 4 * i) (nthD vs i 0 &&& w.mask)) ∧
       (∀ a, (∀ i, i < vs.length → a ≠ base.toNat + 4 * i) → t.shadGet a = s.shadGet a)) ∧
  (∀ (s : State) (e : PegEntry) (rest : List PegEntry) (base v : Word) (vs : List Word) (w : Shadowed), s.pegQueue = e :: rest → hdrOp e.hdr = 1 →
     e.words = base :: v :: vs → e.pos = 0 → s.shadowed base.toNat = some w → s.isSealed w.group = true →
     exec .pegWrite s = .next s ∧ s.pegStall = true)

/-- A COMMIT entry of MODE NEXT resolved in frame j (R178, R180, R190): it takes the next ticket, its commit frame is j + 2, its groups are sealed, and its log record says so; no active or shadow copy changes. A resolution record of the active (R356) is applied with its ticket, groups and commit frame. -/
def Obligations.CommitResolution : Prop :=
  (∀ (s : State) (e : PegEntry) (rest : List PegEntry), s.pegQueue = e :: rest → hdrOp e.hdr = 2 → hdrArg e.hdr % 4 = 0 →
     s.pegHalted = false → s.commitStalls (nthD e.words 0 0) = false → e.ack = none → s.forwards = false →
     let mask := nthD e.words 0 0
     let tk := (s.rfld regPEG_TICKET 0 8 + 1) % 256
     ∃ t, exec .pegCommit s = .next t ∧
       t = { s with regs := t.regs, pegQueue := rest, fwdApplied := t.fwdApplied, commits := s.commits ++ [{ ticket := tk, mask := mask, frame := s.now + 2, fixed := none }] } ∧
       t.rfld regPEG_TICKET 0 8 = tk ∧ t.sealed = s.sealed ||| mask ∧
       t.reg (regPEG_LOG (tk % 64) 1) = mask ∧ t.reg (regPEG_LOG (tk % 64) 2) = BitVec.ofNat 32 (s.now + 2) ∧
       t.reg (regPEG_LOG (tk % 64) 7) = lo32 s.fc ∧
       (∀ a, a ≠ regPEG_TICKET → (∀ i, i < 8 → a ≠ regPEG_LOG (tk % 64) i) → t.reg a = s.reg a)) ∧
  (∀ (s : State) (e : PegEntry) (rest : List PegEntry), s.pegQueue = e :: rest → hdrOp e.hdr = 6 → s.pegHalted = false →
     s.commitStalls (nthD e.words 0 0) = false →
     let c := (nthD e.words 1 0).toNat + (nthD e.words 2 0).toNat * 2 ^ 32
     ∃ t, exec .pegCommit s = .next t ∧ t.commits = s.commits ++ [{ ticket := hdrArg e.hdr % 256, mask := nthD e.words 0 0, frame := c, fixed := none }] ∧
       t.rfld regPEG_TICKET 0 8 = hdrArg e.hdr % 256 ∧ t.tab = s.tab ∧ t.shad = s.shad ∧ t.pegQueue = rest)

/-- REVERT and MARK (R173, R177): REVERT gives the shadow copy of every word of its groups the newest active copy and leaves every other copy; with a sealed group among them it waits; MARK writes its tag to PEG.MARK and raises EV32. Scenes (R187, R188): a directory entry that does not admit the scene fails it at once; a load touches no active copy, no commit and no word that is sealed or not shadowed; a loaded scene that fails its records or its CRC sets SCENEERR and raises EV39, and with LOAD_ONLY = 0 takes a ticket that is refused with EV37, and leaves the active copies alone; a good one with LOAD_ONLY = 1 is only taken off the queue, and with LOAD_ONLY = 0 it resolves as a commit of its mask, or waits under R177. -/
def Obligations.RevertMarkAndScenes : Prop :=
  (∀ (s : State) (e : PegEntry) (rest : List PegEntry), s.pegQueue = e :: rest → s.pegHalted = false →
     (hdrOp e.hdr = 4 → nthD e.words 0 0 &&& s.sealed ≠ 0 → exec .pegRevert s = .next s) ∧
     (hdrOp e.hdr = 4 → nthD e.words 0 0 &&& s.sealed = 0 →
       let named (a : Nat) : Prop := ∃ w, s.shadowed a = some w ∧ bit (nthD e.words 0 0) w.group = true
       ∃ t, exec .pegRevert s = .next t ∧ t = { s with shad := t.shad, pegQueue := rest, fwdApplied := t.fwdApplied } ∧
         (∀ a, named a → t.shadGet a = s.newest a) ∧ (∀ a, ¬ named a → t.shadGet a = s.shadGet a)) ∧
     (hdrOp e.hdr = 5 → ∃ u : State, exec .pegMark s = .next (u.raiseEvent 32 (BitVec.ofNat 32 (hdrArg e.hdr))) ∧
       u = { s with regs := u.regs, pegQueue := rest, fwdApplied := u.fwdApplied } ∧ u.reg regPEG_MARK = BitVec.ofNat 32 (hdrArg e.hdr) ∧
       ∀ a, a ≠ regPEG_MARK → u.reg a = s.reg a)) ∧
  (∀ (s : State) (e : PegEntry) (rest : List PegEntry), s.pegQueue = e :: rest → hdrOp e.hdr = 3 → e.loaded = false → s.pegHalted = false → Unarmed s →
     let d := if e.loading then e.dir else s.sceneEntry (sceneNo e.hdr)
     (s.sceneDirOk d = false → exec .pegScene s = .next { s with pegQueue := { e with loaded := true, failed := true, dir := d } :: rest }) ∧
     (s.sceneDirOk d = true → e.recLeft = 0 → (nthD d 1 0).toNat ≤ e.pos →
       exec .pegScene s = .next { s with pegQueue := { e with loading := true, dir := d, loaded := true } :: rest }) ∧
     (∃ t, exec .pegScene s = .next t ∧ t.tab = s.tab ∧ t.commits = s.commits ∧ t.dram = s.dram ∧ t.courses = s.courses ∧
       (∀ a, (∀ w, s.shadowed a = some w → s.isSealed w.group = true) → t.shadGet a = s.shadGet a) ∧
       ∃ e', t.pegQueue = e' :: rest ∧ e'.hdr = e.hdr ∧ e'.dir = d)) ∧
  (∀ (s : State) (e : PegEntry) (rest : List PegEntry), s.pegQueue = e :: rest → hdrOp e.hdr = 3 → e.loaded = true →
     let n := sceneNo e.hdr
     let mask := nthD e.dir 2 0
     let quiet := hdrArg e.hdr / 16384 % 2 = 1 ∨ e.master = 11
     let good := e.failed = false ∧ ~~~e.crc = nthD e.dir 3 0
     let tk := (s.rfld regPEG_TICKET 0 8 + 1) % 256
     (quiet → good → exec .sceneResolve s = .next s.popHead) ∧
     (¬ quiet → good → s.commitStalls mask = false → exec .sceneResolve s =
       .next (s.popHead.resolve e mask (hdrArg e.hdr / 1024 % 4) (hdrArg e.hdr / 4096 % 4) e.words (some n))) ∧
     (¬ quiet → (good → s.commitStalls mask = true) → (¬ good → mask &&& s.sealed ≠ 0) → exec .sceneResolve s = .next s) ∧
     (¬ good → (quiet ∨ mask &&& s.sealed = 0) → e.ack = none →
       ∃ t, exec .sceneResolve s = .next t ∧ t.tab = s.tab ∧ t.commits = s.commits ∧ t.pegQueue = rest ∧ t.rbit regPEG_STATUS 23 = true ∧
         t.reg (regEVT_PAYLOAD 39) = BitVec.ofNat 32 n ∧ t.rbit (regEVT_PEND 1) 7 = true ∧
         (¬ quiet → t.rfld regPEG_TICKET 0 8 = tk ∧ t.reg (regEVT_PAYLOAD 37) = BitVec.ofNat 32 tk ∧ t.rbit (regEVT_PEND 1) 5 = true ∧
           (e.master < 16 → t.rfld (regPEG_LOG (tk % 64) 0) 29 2 = 3))))

/-- The tick of frame c - 1 (R178, R179): the words of the oldest due commit that differ from the newest active copies are fixed for frame c, which unseals its groups; no active copy changes yet. The commit frame (R170, R179): every fixed word becomes the active copy, no other active copy changes, the commit leaves the pending list, and EV35 occurs with its ticket. -/
def Obligations.CommitTicks : Prop :=
  (∀ (s : State) (c : Commit), s.commits.find? (fun k => k.fixed.isNone && s.ticking && decide (k.frame ≤ s.now + 1)) = some c →
     ∃ t, exec .commitCopyFix s = .next t ∧ t.tab = s.tab ∧ t.shad = s.shad ∧
       t.commits = replaceFirst c { c with fixed := some (s.changedWords c.mask) } s.commits ∧
       (∀ a v, mapFind (s.changedWords c.mask) a = some v → v = s.shadGet a ∧ v ≠ s.newest a ∧ a ∈ s.keysIn c.mask) ∧
       (∀ a w, s.shadowed a = some w → bit c.mask w.group = true → s.shadGet a ≠ s.newest a →
         mapFind (s.changedWords c.mask) a = some (s.shadGet a))) ∧
  (∀ (s : State) (k : Commit) (fixed : List (Nat × Word)),
     s.commits.find? (fun c => c.fixed.isSome && s.ticking && decide (c.frame ≤ s.now)) = some k → k.fixed = some fixed → (fixed.map (·.1)).Nodup →
     ∃ t, exec .commitApplied s = .next t ∧ (∀ a, t.tabGet a = (mapFind fixed a).getD (s.tabGet a)) ∧ t.shad = s.shad ∧
       t.commits = s.commits.erase k ∧ t.reg (regEVT_PAYLOAD 35) = BitVec.ofNat 32 k.ticket ∧
       t.rbit (regEVT_PEND 1) 3 = true)

/-- A cancel (R189): a pending commit that no tick has fixed is withdrawn, logged as cancelled while its record is still in the log, and reported with EV38; any other cancel sets CXLATE and changes nothing else. A read of word 0 of a log record returns it and latches the other seven words for the master (R190). -/
def Obligations.CancelAndLog : Prop :=
  ∀ (s : State) (m : Master) (v : Word) (r : Fin 64), let tk := fld v 0 8
    ((s.cancelTarget tk).isSome = true ↔ ∃ c ∈ s.commits, c.ticket = tk ∧ c.fixed = none ∧ (s.ticking = false ∨ s.now + 1 < c.frame)) ∧
    (∀ k, s.forwards = false → s.cancelTarget tk = some k →
      ∃ u : State, exec (.pegCancelWrite m v) s = .next (u.raiseEvent 38 (BitVec.ofNat 32 tk)) ∧ u = { s with regs := u.regs, commits := u.commits } ∧
        u.commits = s.commits.erase k ∧ k ∈ s.commits ∧ (s.logHolds k = true → u.rfld (regPEG_LOG (tk % 64) 0) 29 2 = 2) ∧
        (s.logHolds k = false → u.regs = s.regs) ∧ ∀ a, a ≠ regPEG_LOG (tk % 64) 0 → u.reg a = s.reg a) ∧
    (s.cancelTarget tk = none → exec (.pegCancelWrite m v) s = .next (s.setReg regPEG_STATUS (s.reg regPEG_STATUS ||| oneHot 22))) ∧
    (∃ t, exec (.pegLogWord0Read m r) s = .next t ∧ t = { s with latch := t.latch, rdata := t.rdata } ∧
      wmGet t.rdata m.val = s.reg (regPEG_LOG r.val 0) ∧ (∀ k, k ≠ m.val → wmGet t.rdata k = wmGet s.rdata k) ∧
      (∀ w, 1 ≤ w → w ≤ 7 → t.latched m.val (regPEG_LOG r.val w) = s.reg (regPEG_LOG r.val w)))

/-! ## Events, tasks and faults (R192 to R209, R361 to R378) -/

/-- An occurrence of an event source (R192 to R197, R207): its pending bit is set and its payload kept; where its routing has TEN = 1 a token with the number of IMODE joins the queue, or is lost and counted when 16 tokens of the source wait; no other pending bit or payload changes. A software event write is such an occurrence, and a written 1 clears a pending bit. Tokens and the matching store (R197 to R199, R206, R209): EV0 occurs at every frame that the divider divides; an offered token opens an entry, joins the incomplete entry of its template and number, or is rejected or dropped with its counter, status bit and event; a purge removes the incomplete entries of a template and counts them. -/
def Obligations.EventsAndTokens : Prop :=
  (∀ (s : State) (m : Master) (e : Nat) (pl : Word) (i : Fin 32) (k : Fin 4) (v : Word), e < 128 →
     let t := s.raiseEvent e pl
     let r := s.reg (regEVT_ROUTE e)
     let queued := (s.tokens.filter fun q => q.src == e).length
     let num : Nat := if fld r 29 2 = 1 then fld pl 0 8 else if fld r 29 2 = 2 then (mapFind s.seq e).getD 0 else fld r 8 8
     t = { s with regs := t.regs, tokens := t.tokens, seq := t.seq } ∧
     t.rbit (regEVT_PEND (e / 32)) (e % 32) = true ∧ t.reg (regEVT_PAYLOAD e) = pl ∧
     (∀ f, f < 128 → f ≠ e → t.rbit (regEVT_PEND (f / 32)) (f % 32) = s.rbit (regEVT_PEND (f / 32)) (f % 32) ∧
       t.reg (regEVT_PAYLOAD f) = s.reg (regEVT_PAYLOAD f)) ∧
     (∀ a, a ∉ [regEVT_PEND (e / 32), regEVT_PAYLOAD e, regEVT_LOST_CNT, regEVT_STATUS] → t.reg a = s.reg a) ∧
     (bit r 31 = false → t.tokens = s.tokens ∧ t.seq = s.seq ∧ t.reg regEVT_LOST_CNT = s.reg regEVT_LOST_CNT ∧ t.reg regEVT_STATUS = s.reg regEVT_STATUS) ∧
     (bit r 31 = true → queued < 16 →
       t.tokens = s.tokens ++ [{ src := e, tmpl := fld r 16 8, num := num, slot := fld r 27 2, val := pl }]) ∧
     (bit r 31 = true → 16 ≤ queued →
       t.tokens = s.tokens ∧ t.rbit regEVT_STATUS 28 = true ∧ t.reg regEVT_LOST_CNT = satAdd (s.reg regEVT_LOST_CNT) 0 32 1) ∧
     (bit r 31 = true → fld r 29 2 = 2 → (mapFind t.seq e).getD 0 = ((mapFind s.seq e).getD 0 + 1) % 256) ∧
     exec (.softwareEventWrite m i v) s = .next (s.raiseEvent (96 + i.val) v) ∧
     exec (.evtPendClear m k v) s = .next (s.setReg (regEVT_PEND k.val) (s.reg (regEVT_PEND k.val) &&& ~~~v))) ∧
  (∀ (s : State) (m : Master) (v : Word) (t : Token) (ts : List Token),
     let w := s.tmpl t.tmpl 0
     let key := t.tmpl * 256 + t.num
     let nops := fld w 26 2 + 1
     let u : State := { s with tokens := ts }
     let own : Prop := t.src = 1 ∨ t.src = 2
     let isOpen (e : StoreEntry) : Bool := decide (e.key = key) && e.ready.isNone
     let gone (e : StoreEntry) : Bool := e.ready.isNone && decide (e.key / 256 = fld v 0 8)
     let rejected : State := (u.count regEVT_DROP_CNT 1).setRbit regEVT_STATUS 29
     let dropped : State := (u.count regEVT_FULL_CNT 1).setRbit regEVT_STATUS 30
     let n : Nat := if s.rfld regEVT_DIVIDER 0 16 = 0 then 96 else s.rfld regEVT_DIVIDER 0 16
     (s.ticking = true → s.now % n = 0 → exec .frameDividerTick s = .next (s.raiseEvent 0 (lo32 s.fc))) ∧
     exec (.purge m v) s = .next ({ s with store := s.store.filter fun e => !gone e }.count regEVT_DROP_CNT (s.store.filter gone).length) ∧
     (s.tokens = t :: ts → Unarmed s →
       ((bit w 31 = false ∨ nops ≤ t.slot ∨ ∃ e x, s.store.find? isOpen = some e ∧ e.ops[t.slot]? = some (some x)) →
         (own → exec .tokenOffer s = .next rejected) ∧ (¬ own → exec .tokenOffer s = .next (rejected.raiseEvent 2 (BitVec.ofNat 32 key)))) ∧
       (bit w 31 = true → t.slot < nops →
         (∀ e, s.store.find? isOpen = some e → e.ops[t.slot]? = some none →
           let ops := e.ops.set t.slot (some t.val)
           let e' : StoreEntry := { e with ops := ops, ready := if ops.all Option.isSome then some s.readyCtr else none }
           exec .tokenOffer s = .next { u with store := s.store.map (fun d => if isOpen d then e' else d),
                                               readyCtr := if ops.all Option.isSome then s.readyCtr + 1 else s.readyCtr }) ∧
         (s.store.find? isOpen = none → s.storeRoom (fld w 28 3) = true →
           exec .tokenOffer s = .next { u with
             store := s.store ++ [{ key := key, ops := (List.replicate nops none).set t.slot (some t.val), ready := if nops = 1 then some s.readyCtr else none }],
             readyCtr := if nops = 1 then s.readyCtr + 1 else s.readyCtr }) ∧
         (s.store.find? isOpen = none → s.storeRoom (fld w 28 3) = false →
           (own → exec .tokenOffer s = .next dropped) ∧ (¬ own → exec .tokenOffer s = .next (dropped.raiseEvent 1 (BitVec.ofNat 32 key)))))))

/-- Dispatch (R46, R201 to R203): the offering Course of the lowest number that has a candidate takes the one of highest PRI, the one that became ready first among equals; its background context starts from reset values at ENTRY with the operands in D0 and on, AMODE_BG takes template word 2, and nothing of its foreground or of another Course changes. The ends of a task (R102, R205): after TEND, with its posted writes accepted, it leaves its Course, which goes from BACK to SLEEP; a preempted task that has outlived its LIMIT, or one that runs on in SLEEP past it (R306), is discarded, counted and reported with EV4. -/
def Obligations.Tasks : Prop :=
  (∀ (s : State) (n : CourseId) (e : StoreEntry), s.offers n = true → s.bestFor n = some e →
     (∀ k, k < n → s.offers k = true → s.bestFor k = none) →
     let t0 := e.key / 256
     (e ∈ s.store ∧ s.isCandidate n e = true ∧ ∀ d ∈ s.store, s.isCandidate n d = true →
       s.tmplPri (d.key / 256) ≤ s.tmplPri t0 ∧ (s.tmplPri (d.key / 256) = s.tmplPri t0 → e.ready.getD 0 ≤ d.ready.getD 0)) ∧
     ∃ t, exec .dispatch s = .next t ∧ t = { s with regs := t.regs, courses := t.courses, store := t.store } ∧
       t.store = s.store.filter (fun d => d.ready != e.ready) ∧
       (∀ a, a ≠ regC_AMODE_BG n.val → a ≠ regEVT_DISPATCH_CNT → t.reg a = s.reg a) ∧
       t.reg (regC_AMODE_BG n.val) = s.tmpl t0 2 ∧ t.reg regEVT_DISPATCH_CNT = satAdd (s.reg regEVT_DISPATCH_CNT) 0 32 1 ∧
       (∀ m, m ≠ n → t.course m = s.course m) ∧ (t.course n).fg = (s.course n).fg ∧ (t.course n).pmem = (s.course n).pmem ∧ (t.course n).lmem = (s.course n).lmem ∧
       (t.course n).task = some { tag := e.key, ticks := 0 } ∧ (t.course n).phase = .back ∧ (t.course n).mayIssue .bg = true ∧
       (t.course n).bg.pc = BitVec.ofNat 14 (fld (s.tmpl t0 0) 0 14) ∧
       (e.ops.length ≤ 4 → ∀ j : Fin 32, (t.course n).bg.d.get j = ((e.ops[j.val]?).join).getD 0) ∧
       (t.course n).bg = { Ctx.reset with d := (t.course n).bg.d, pc := (t.course n).bg.pc }) ∧
  (∀ (s : State) (n : CourseId) (k : Task), let c := s.course n
     c.task = some k →
     (c.bg.ended = true → (∀ p ∈ c.posted, p.x = .fg) →
       exec (.taskEnd n) s = .next (s.setCourse n { c with task := none, bg := c.bg.drain, phase := if c.phase = .back then .sleep else c.phase })) ∧
     (let limit := fld (s.tmpl (k.tag / 256) 1) 16 8
      limit ≠ 0 → limit < k.ticks → (c.phase ≠ .back ∨ s.asleep = true) → exec (.taskOvertime n) s =
        .next ((((s.setCourse n { c with task := none, bg := Ctx.reset, phase := if c.phase = .back then .sleep else c.phase }).count regEVT_ABORT_CNT 1).setRbit regEVT_STATUS 26).raiseEvent 4
          (BitVec.ofNat 32 (k.tag + n.val * 65536)))))

/-- A raising of a fault source (R361, R363, R366, R367): its latch and its class count; MUTE and RELEASE where its configuration selects them; the first-fault record where it is free and REC = 1, with EV6, and FAULT.COUNT where it holds a record; no other latch changes. An occurrence of a latched source raises nothing, and CRESET asks for the reset of its Course at every occurrence. -/
def Obligations.FaultRaising : Prop :=
  ∀ (s : State) (src : Nat), src < 256 →
    let t := s.faultOccurs src
    let cfg := s.reg (regFAULT_CFG src)
    (s.faultLatched src = true → (faultCourse src = none ∨ bit cfg 1 = false) → t = s) ∧
    (∀ n, faultCourse src = some n → bit cfg 1 = true → (t.course (fin 7 n)).resetReq = true) ∧
    (faultCourse src = none ∨ bit cfg 1 = false → t.courses = s.courses) ∧
    (s.faultLatched src = false →
      t = { s with regs := t.regs, courses := t.courses, tokens := t.tokens, seq := t.seq, reactMute := t.reactMute, releaseReq := t.releaseReq, freeCtr := t.freeCtr } ∧
      (∀ f, f < 256 → t.faultLatched f = (s.faultLatched f || decide (f = src))) ∧
      t.reg regFAULT_CLASSCNT = satAdd (s.reg regFAULT_CLASSCNT) (8 * faultClass src) 8 1 ∧
      (bit cfg 0 = true → src ∈ t.reactMute) ∧ (bit cfg 0 = false → t.reactMute = s.reactMute.filter fun r => r != src) ∧
      t.releaseReq = (s.releaseReq || bit cfg 2) ∧
      (s.rbit regFAULT_FFR0 31 = true →
        t.reg regFAULT_COUNT = satAdd (s.reg regFAULT_COUNT) 0 32 1 ∧ (∀ a, a ∈ ffrRest → t.reg a = s.reg a) ∧ t.reg regFAULT_FFR0 = s.reg regFAULT_FFR0) ∧
      (s.rbit regFAULT_FFR0 31 = false → bit cfg 8 = false → t.reg regFAULT_FFR0 = s.reg regFAULT_FFR0 ∧ t.reg regFAULT_COUNT = s.reg regFAULT_COUNT) ∧
      (s.rbit regFAULT_FFR0 31 = false → bit cfg 8 = true →
        t.rbit regFAULT_FFR0 31 = true ∧ t.rbit regFAULT_FFR0 30 = false ∧ t.rfld regFAULT_FFR0 0 8 = src ∧ t.rfld regFAULT_FFR0 28 2 = faultClass src ∧
        t.rfld regFAULT_FFR0 8 16 = s.now / 2 ^ 32 % 2 ^ 16 ∧ t.reg (regFAULT_FFR1 0) = lo32 s.fc ∧ t.reg regFAULT_FFDET = 0 ∧ t.reg regFAULT_FFSYN = 0 ∧
        t.reg (regEVT_PAYLOAD 6) = BitVec.ofNat 32 src ∧ t.rbit (regEVT_PEND 0) 6 = true))

/-- Faults as software handles them (R365, R367, R370, R377): written latch bits clear; an acknowledgement clears the whole first-fault record; a read of FFR0 returns it and latches the other words; the injection control takes a written value but for a write that would change CHECKER while armed. Register accesses (R11 to R17, R22, R130, R360): a write of a plain register gives its RW bits the value and clears its W1C bits where a 1 is written, and nothing else; a read of a register with RC fields returns it and clears them but for the events of the same cycle; the low words of the long counters latch their high words; an access to an address without a register is unmapped, reads zero and raises source 0, and so does one for lack of a path, which is recorded too; the register port serves its master (R131), and in DEEP nothing answers (R307). -/
def Obligations.FaultsAndRegisters : Prop :=
  (∀ (s : State) (m : Master) (k : Fin 8) (v : Word),
     let arm : Word := (s.reg regFAULT_INJCTRL &&& ~~~0x801F00FF#32) ||| (v &&& 0x801F00FF#32)
     exec (.faultLatchClear m k v) s = .next (s.setReg (regFAULT_LATCH k.val) (s.reg (regFAULT_LATCH k.val) &&& ~~~v)) ∧
     (∃ t, exec (.firstFaultAck m) s = .next t ∧ t = { s with regs := t.regs, latch := t.latch } ∧ t.reg regFAULT_FFR0 = 0 ∧
       (∀ a, a ∈ ffrRest → t.reg a = 0 ∧ t.latched holdMaster a = 0) ∧ (∀ a, a ∉ ffrRest → a ≠ regFAULT_FFR0 → t.reg a = s.reg a)) ∧
     (∃ t, exec (.ffr0Read m) s = .next t ∧ t = { s with latch := t.latch, rdata := t.rdata } ∧ wmGet t.rdata m.val = s.reg regFAULT_FFR0 ∧
       (∀ a, a ∈ ffrRest → t.latched holdMaster a = s.reg a)) ∧
     (s.rbit regFAULT_INJCTRL 31 = false ∨ bit v 31 = false ∨ fld v 16 5 = s.rfld regFAULT_INJCTRL 16 5 →
       (fld v 16 5 ≤ 21 → exec (.injectionArm m v) s = .next (s.setReg regFAULT_INJCTRL arm)) ∧
       (21 < fld v 16 5 → exec (.injectionArm m v) s =
         .next ((s.setReg regFAULT_INJCTRL arm).raiseEvent 5 (BitVec.ofNat 32 regFAULT_INJCTRL)))) ∧
     (s.rbit regFAULT_INJCTRL 31 = true → bit v 31 = true → fld v 16 5 ≠ s.rfld regFAULT_INJCTRL 16 5 → exec (.injectionArm m v) s = .next s)) ∧
  (∀ (s : State) (m : Master) (a v ev : Word),
     let u := s.servePort 66 m.val
     u = { s with rr := u.rr } ∧ (mapFind u.rr 66).getD 12 = m.val ∧
     (s.deep = true → exec (.registerWrite m a v) s = .next s ∧ exec (.rcFieldRead m a ev) s = .next (s.returnTo m.val 0)) ∧
     (csrPath m = true → (m.val ≤ 7 → s.courseRatioBad = false) → s.deep = false → s.held = false →
       (a.toNat / 0x10000 ∈ [2, 6, 7, 8, 9, 11] → a.toNat % 4 = 0 → (regInfo a.toNat).isSome = true → shadowBits a.toNat = 0 → s.reservedReg a.toNat v = false →
         exec (.registerWrite m a v) s = .next (u.setReg a.toNat
           (((s.reg a.toNat &&& ~~~(rwBits a.toNat)) ||| (v &&& rwBits a.toNat)) &&& ~~~(v &&& w1cBits a.toNat)))) ∧
       (a.toNat < 0x140000 → (a.toNat % 4 ≠ 0 ∨ regInfo a.toNat = none) → exec (.registerWrite m a v) s = .next (u.faultOccurs 0)) ∧
       (a.toNat < 0x140000 → regInfo a.toNat = none → exec (.rcFieldRead m a ev) s = .next ((u.faultOccurs 0).returnTo m.val 0))) ∧
     (csrPath m = false → s.deep = false → a.toNat < 0x01000000 →
       exec (.registerWrite m a v) s = .next ((s.ridgeRecord 0 m.val true (BitVec.ofNat 32 a.toNat)).faultOccurs 0) ∧
       exec (.rcFieldRead m a ev) s = .next (((s.ridgeRecord 0 m.val false (BitVec.ofNat 32 a.toNat)).faultOccurs 0).returnTo m.val 0)) ∧
     (csrPath m = true → s.deep = false → s.held = false → rcBits a.toNat ≠ 0 → ∃ t, exec (.rcFieldRead m a ev) s = .next t ∧
       t = { s with regs := t.regs, rdata := t.rdata, freeCtr := t.freeCtr, rr := t.rr, scrUsed := t.scrUsed } ∧
       t.reg a.toNat = (s.reg a.toNat &&& ~~~(rcBits a.toNat)) ||| (ev &&& rcBits a.toNat) ∧ (∀ b, b ≠ a.toNat → t.reg b = s.reg b) ∧
       (∀ k, k ≠ m.val → wmGet t.rdata k = wmGet s.rdata k) ∧
       (s.ratioBad m a.toNat = false → s.live a.toNat = none → s.openBits a.toNat = 0 → shadowBits a.toNat = 0 → wmGet t.rdata m.val = s.reg a.toNat ∧ t.freeCtr = s.freeCtr)) ∧
     exec (.globalFcLoRead m) s = .next ((s.setReg regGLOBAL_FC_HI (hi32 s.fc)).returnTo m.val (lo32 s.fc)) ∧
     exec (.pairFcoffLoRead m) s =
       .next ((s.setLatch holdMaster regPAIR_FCOFF_HI (s.reg regPAIR_FCOFF_HI)).returnTo m.val (s.reg regPAIR_FCOFF_LO)))

/-- Snapshots (R372 to R374): a trigger by software or by an edge of SNAP_IN of the selected polarity waits for the next tick; that tick takes the words, the frame counter of the frame that it begins and the cycle counts of the Courses among them; SNAPSHOT_TAKE stores them: CAUSE shows the triggers, NEW is set, OVR marks an overwritten one, and EV7 occurs with the frame; under LOCK a held snapshot is kept and the new one is counted as dropped; with no snapshot taken nothing happens. Background and intrusive tests (R375, R376): a scrub pass without errors raises EV90; the signature check of a sleeping Course ends or begins the cause of its source; a test of the list starts where it is permitted and none runs, a Course BIST halting its Course; it ends with its result and EV91, or by an abort, and a tested Course is reset. -/
def Obligations.SnapshotsAndTests : Prop :=
  (∀ (s : State) (m : Master) (v : Word) (falling : Bool),
     let held := s.rbit regSNAP_STATUS 31
     (bit v 31 = true → ∃ t, exec (.trig m v) s = .next t ∧ t = { s with regs := t.regs, snap := { s.snap with pend := t.snap.pend } } ∧ t.snap.pend % 2 = 1 ∧
       (∀ a, a ≠ regSNAP_CTRL → t.reg a = s.reg a)) ∧
     (s.rbit regSNAP_CTRL 0 = true → s.rbit (regTIME_CAPCFG 3) 30 = falling →
       ∃ t, exec (.snapInEdge falling) s = .next t ∧ t = { s with snap := { s.snap with pend := t.snap.pend } } ∧ t.snap.pend / 2 % 2 = 1) ∧
     (s.ticking = true → s.snap.pend ≠ 0 →
       ∃ t w, exec .frameTick s = .next t ∧ t.snap.held = some (s.snap.pend, w) ∧ w.length = 64 ∧ nthD w 0 0 = lo32 t.fc ∧ nthD w 1 0 = hi32 t.fc ∧
         (∀ c : Nat, c < 8 → nthD w (11 + c) 0 = t.reg (regC_CYCLES c))) ∧
     (s.snap.held = none → exec .snapshotTake s = .next s) ∧
     (∀ (causes : Nat) (w : List Word), s.snap.held = some (causes, w) →
       (held = true → s.rbit regSNAP_CTRL 5 = true →
         exec .snapshotTake s = .next (({ s with snap := { s.snap with held := none } } : State).count regSNAP_DROP_CNT 1)) ∧
       ((held = false ∨ s.rbit regSNAP_CTRL 5 = false) → w.length = 64 →
         ∃ t, exec .snapshotTake s = .next t ∧ t = { s with regs := t.regs, tokens := t.tokens, seq := t.seq, snap := { s.snap with held := none } } ∧
           t.rbit regSNAP_STATUS 31 = true ∧ t.rfld regSNAP_STATUS 0 3 = causes % 8 ∧
           (held = true → t.rbit regSNAP_STATUS 30 = true) ∧ (∀ i : Nat, i < 64 → t.reg (regSNAP_D i) = nthD w i 0) ∧
           t.rbit (regEVT_PEND 0) 7 = true ∧ t.reg (regEVT_PAYLOAD 7) = nthD w 0 0))) ∧
  (∀ (s : State) (m : Master) (n : CourseId) (dram pass : Bool) (v : Word),
     (s.rbit regFAULT_SCRUB (b2n dram) = true → exec (.scrubPassComplete dram []) s =
       .next (s.raiseEvent 90 (BitVec.ofNat 32 (9 * 2 ^ 24 + b2n dram * 2 ^ 16 + 1)))) ∧
     (∀ (k : Fin 22) (a : Word) (y : Byte) (hard : Bool), s.rbit regFAULT_SCRUB (b2n dram) = true → Unarmed s → (k.val = 17 ↔ dram = true) →
       let syn := BitVec.ofNat 32 (k.val * 2 ^ 24 + y.toNat)
       exec (.scrubPassComplete dram [(k, a, y, hard)]) s =
         .next ((if hard then s.uncorrectable k.val false a syn else s.corrected false a syn).raiseEvent 90 (BitVec.ofNat 32 (9 * 2 ^ 24 + b2n dram * 2 ^ 16 + 1)))) ∧
     (s.rbit regFAULT_SCRUB 2 = true → (s.course n).phase = .sleep →
       exec (.macCheckComplete n true) s = .next (s.causeEnds (128 + n.val)) ∧
       exec (.macCheckComplete n false) s =
         .next ((s.causeBegins (128 + n.val)).raiseEvent 90 (BitVec.ofNat 32 (8 * 2 ^ 24 + n.val * 2 ^ 16 + 2)))) ∧
     (bit v 31 = true → bit v 30 = false → testListed (fld v 0 4) (fld v 8 8) = true →
       ((s.test.isSome = true ∨ s.testPermitted = false) → exec (.testRequest m v) s = .next (s.setRfld regFAULT_TESTSTAT 28 3 3)) ∧
       (s.test = none → s.testPermitted = true →
         let u := (({ s with test := some (fld v 0 4, fld v 8 8, s.rbit (regC_CTRL (fld v 8 8)) 0) } : State).setReg regFAULT_TESTSTAT 0x80000000#32).causeBegins 53
         exec (.testRequest m v) s = .next (if fld v 0 4 = 1 then u.setRbit (regC_CTRL (fld v 8 8)) 0 else u))) ∧
     (bit v 31 = true → bit v 30 = false → testListed (fld v 0 4) (fld v 8 8) = false →
       exec (.testRequest m v) s = .next (s.setRfld regFAULT_TESTSTAT 28 3 4)) ∧
     (∀ k c halted, s.test = some (k, c, halted) → c < 8 →
       (∃ t, exec (.testComplete pass) s = .next t ∧ t.test = none ∧ t.rfld regFAULT_TESTSTAT 28 3 = (if pass then 1 else 2) ∧
         t.rbit regFAULT_TESTSTAT 31 = false ∧ (k = 1 → (t.course (fin 7 c)).resetReq = true ∧ t.rbit (regC_CTRL c) 0 = halted) ∧
         t.reg (regEVT_PAYLOAD 91) = BitVec.ofNat 32 (k % 256 * 2 ^ 24 + c * 2 ^ 16 + (if pass then 1 else 2)) ∧
         (pass = false → t.faultLatched (if k = 1 then 136 + c else 144) = true)) ∧
       (∃ t, exec (.testAbort m) s = .next t ∧ t.test = none ∧ t.rfld regFAULT_TESTSTAT 28 3 = 5 ∧ t.rbit regFAULT_TESTSTAT 31 = false ∧
         (k = 1 → (t.course (fin 7 c)).resetReq = true ∧ t.rbit (regC_CTRL c) 0 = halted) ∧
         t.reg (regEVT_PAYLOAD 91) = BitVec.ofNat 32 (k % 256 * 2 ^ 24 + c * 2 ^ 16 + 3))))

/-! ## Ports (R210 to R239) -/

/-- Slot words (R8, R214): an input slot keeps its leading bits and the bits below them are zero; an output slot holds the sample rounded to the nearest value of its word length, saturated at the largest one, with zeros below. Frames of serial ports (R213 to R216, R220, R348): a completed frame is the capture of a master and is held by a valid slave with ASRC = 0, a third held one replacing the oldest with a slip, while with ASRC = 1 none is held; its slots reach the rate-conversion channels in network-time ratio mode that take them and change nothing else; at its deadline a slave takes its oldest held frame, or repeats the last one with a slip; a resync slip repeats the frame before; a frame start sends the newest presented frame, at high impedance where the module does not own it, with the clocks of a master driven while it does; a port that is off does nothing. What a port sends in a slot (R220, R221, R230, R237): a slot at or above the slot count, or at level 0, is zero or high impedance by OUTZ; any other shows the channel that drives it, else its selector (zero on a port with ASRC = 1), through its levels, rounded to the word length. The place of a channel's sample in time is the model's choice (log entry 95). -/
def Obligations.PortSamples : Prop :=
  (∀ (w : Word) (len : Nat), len ∈ [16, 24, 32] →
     (slotIn w len).toNat = w.toNat / 2 ^ (32 - len) * 2 ^ (32 - len) ∧
     ∃ v : Int, (slotOut w len).toInt = v * 2 ^ (32 - len) ∧ -(2 ^ (len - 1)) ≤ v ∧ v ≤ 2 ^ (len - 1) - 1 ∧
       2 * (v * 2 ^ (32 - len) - w.toInt) ≤ 2 ^ (32 - len) ∧ (v < 2 ^ (len - 1) - 1 → 2 * (w.toInt - v * 2 ^ (32 - len)) ≤ 2 ^ (32 - len))) ∧
  (∀ (s : State) (p : Fin 16) (slots : List Word), s.portOn p = false → exec (.tdmFrameEnd p slots) s = .next s ∧ exec (.tdmFrameStart p) s = .next s) ∧
  (∀ (u : State) (p : Fin 16) (ws : List Word), ws.length = 32 →
     u.portSamples p ws = { u with conv := (u.portSamples p ws).conv } ∧
     (∀ i c, i < 32 → (u.asrcTakers 1 (32 * p.val + i)).count c = 1 →
       (u.portSamples p ws).asrcPlaced c =
         ((match u.asrcPlaced c with | e :: _ => e.1 + u.fi | [] => (u.now * u.asrcRateHz c : Nat)), nthD ws i 0) :: u.asrcPlaced c) ∧
     (∀ c, (∀ i, i < 32 → c ∉ u.asrcTakers 1 (32 * p.val + i)) → (u.portSamples p ws).asrcPlaced c = u.asrcPlaced c)) ∧
  (∀ (s : State) (p : Fin 16) (slots : List Word), s.portOn p = true →
     let q := s.port p
     let ws := (List.range 32).map fun i => if i < cfgSlots q.cfg then slotIn (nthD slots i 0) (cfgWlen q.cfg) else 0
     let setBuf (b : InBuf) (sl : Bool) : State := s.setPort p { q with buf := b, slipped := sl }
     (cfgMaster q.cfg = true → exec (.tdmFrameEnd p slots) s = .next ((s.setPort p { q with buf := { q.buf with taken := ws, cap := ws } }).portSamples p ws)) ∧
     (cfgMaster q.cfg = false → s.portValid p = false → exec (.tdmFrameEnd p slots) s = .next (s.setRbit (regTDM_STAT p.val) 30)) ∧
     (cfgMaster q.cfg = false → s.portValid p = true →
       (bit q.cfg 16 = true → exec (.tdmFrameEnd p slots) s = .next (s.portSamples p ws)) ∧
       (bit q.cfg 16 = false → q.buf.held.length < 2 →
         exec (.tdmFrameEnd p slots) s = .next ((setBuf { q.buf with held := q.buf.held ++ [(s.now, ws)] } q.slipped).portSamples p ws)) ∧
       (bit q.cfg 16 = false → 2 ≤ q.buf.held.length → exec (.tdmFrameEnd p slots) s =
         .next ((((setBuf { q.buf with held := q.buf.held.tail ++ [(s.now, ws)] } true).portSlip p true).putRbit (regTDM_STAT p.val) 24 false).portSamples p ws)) ∧
       (bit q.cfg 16 = false →
         (∀ e rest, q.buf.held = e :: rest → exec (.captureDeadline p) s =
           .next ((setBuf { q.buf with held := rest, taken := e.2, begun := true, cap := e.2 } q.slipped).putRbit (regTDM_STAT p.val) 24 (q.slipped && decide (e.1 < s.now)))) ∧
         (q.buf.held = [] → q.buf.begun = true →
           exec (.captureDeadline p) s = .next ((setBuf { q.buf with cap := q.buf.taken } true).portSlip p true)))) ∧
     (cfgMaster q.cfg = false →
       (let u := (s.setReg (regTDM_RESYNC p.val) (satAdd (s.reg (regTDM_RESYNC p.val)) 0 16 1)).setRbit (regTDM_STAT p.val) 26
        exec (.resyncSlip (.port p)) s = .next ((u.setPort p { q with buf := q.buf.resync s.now }).raiseEvent 49 (BitVec.ofNat 32 p.val)))) ∧
     (s.portValid p = true → s.ticking = true →
       let r := s.slotPins p s.now
       let sent : State := r.2.modPort p fun q => { q with pins := r.1, sent := some s.now, clk := cfgMaster q.cfg && s.ownCur }
       let slips : Prop := cfgMaster q.cfg = false ∧ bit q.cfg 16 = false
       (q.sent = none → exec (.tdmFrameStart p) s = .next sent) ∧
       (∀ j, q.sent = some j → (j < s.now ∨ bit q.cfg 16 = true) → (¬ slips ∨ j + 1 = s.now) → exec (.tdmFrameStart p) s = .next sent) ∧
       (∀ j, q.sent = some j → j + 1 < s.now → slips → exec (.tdmFrameStart p) s = .next (sent.portSlip p false)) ∧
       (∀ j, q.sent = some j → s.now ≤ j → slips → exec (.tdmFrameStart p) s = .next (s.portSlip p false)) ∧
       (∀ j, q.sent = some j → s.now ≤ j → cfgMaster q.cfg = true → bit q.cfg 16 = false → exec (.tdmFrameStart p) s = .next s) ∧
       (s.ownCur = false → r = (List.replicate 32 none, s)))) ∧
  (∀ (s : State) (p : Fin 16) (i k : Nat), let q := s.port p
     let l := stepTo (nthD q.levOut i 0) (if bit (s.tabGet (regTDM_MASKOUT p.val)) i then 64 else 0)
     ((cfgSlots q.cfg ≤ i ∨ l = 0) → s.slotPin p i k = (if bit q.cfg 15 then none else some 0, s)) ∧
     (i < cfgSlots q.cfg → l ≠ 0 → s.asrcDriver 1 (32 * p.val + i) = none →
       s.slotPin p i k = (some (slotOut (s.outLevelled (if bit q.cfg 16 then 0 else s.selValue (slotSelAddr p.val i) k) l q.lev) (cfgWlen q.cfg)), s)) ∧
     (∀ c, i < cfgSlots q.cfg → l ≠ 0 → s.asrcDriver 1 (32 * p.val + i) = some c →
       s.slotPin p i k = (some (slotOut (s.outLevelled (s.asrcSample c k).1 l q.lev) (cfgWlen q.cfg)), (s.asrcSample c k).2)) ∧
     (∀ (x : Word) (f m : Nat), levelled x 64 64 m = levelled x m 64 64 ∧ levelled x 64 64 64 = x ∧ levelled x f m 0 = 0 ∧ levelled x f 0 m = 0 ∧ levelled x 0 f m = 0) ∧
     (∀ m t : Nat, m ≤ 64 → t ≤ 64 → (stepTo m t = t ∨ stepTo m t = m + 1 ∨ stepTo m t + 1 = m) ∧ stepTo m t ≤ 64))

/-- Clock supervision of ports (R212, R217 to R219, R221, R223, R236): a slave that qualifies becomes valid with EV50 and ends its port-clock fault, one off the frame rate without conversion is marked RATEERR and invalid; a loss or a change of rate marks a valid slave invalid, drops its held frames, begins the fault and raises EV50, a change of rate also EV51; each time the rate-conversion channels of the port follow it; a configuration takes effect at once on a slave, which begins its qualification anew, and on a master at the restart of the next tick. -/
def Obligations.PortClocks : Prop :=
  ∀ (s : State) (m : Master) (p : Fin 16) (rate : BitVec 18) (v : Word),
    let q := s.port p
    let st := regTDM_STAT p.val
    let follow (u : State) : State := u.asrcEndpoints (onPort p)
    let invalid (u : State) : State :=
      ((((u.putRbit st 31 false).setRbit st 25).modPort p fun q => { q with buf := { q.buf with held := [], begun := false } }).causeBegins
        (56 + p.val)).raiseEvent 50 (BitVec.ofNat 32 p.val)
    (s.portSlave p = true → s.portValid p = true →
      exec (.portClockLoss p) s = .next (follow (invalid (s.putRbit st 30 false))) ∧
      exec (.portRateChange (.port p)) s = .next ((follow ((invalid s).raiseEvent 51 (BitVec.ofNat 32 p.val))).setRbit st 30)) ∧
    ((s.portSlave p = false ∨ s.portValid p = false) →
      exec (.portClockLoss p) s = .next (s.putRbit st 30 false) ∧ exec (.portRateChange (.port p)) s = .next s) ∧
    (s.portSlave p = true → s.portValid p = false →
      let s1 := (s.setRfld (regTDM_RATE p.val) 0 18 rate.toNat).putRbit st 30 false
      (bit q.cfg 16 = false → s.nearFi rate.toNat = false → exec (.portQualified p rate) s = .next (follow (invalid (s1.setRbit st 29)))) ∧
      ((bit q.cfg 16 = true ∨ s.nearFi rate.toNat = true) → ∃ t, exec (.portQualified p rate) s = .next (follow t) ∧
        t = { s with regs := t.regs, ports := t.ports, tokens := t.tokens, seq := t.seq } ∧ t.rbit st 31 = true ∧ t.rbit st 29 = false ∧ t.rbit st 24 = false ∧
        t.rfld (regTDM_RATE p.val) 0 18 = rate.toNat ∧ t.port p = { q with slipped := false, buf := { q.buf with held := [], begun := false } } ∧
        (∀ o, o ≠ p → t.port o = s.port o) ∧ t.rbit (regEVT_PEND 1) 18 = true ∧ t.reg (regEVT_PAYLOAD 50) = BitVec.ofNat 32 p.val ∧
        t.rbit (regFAULT_CAUSE ((56 + p.val) / 32)) ((56 + p.val) % 32) = false)) ∧
    (let a := regTDM_CFG p.val
     let new := (s.reg a &&& ~~~0xFFFF8000#32) ||| (v &&& 0xFFFF8000#32)
     let s0 := if fld v 28 2 = 3 ∨ fld v 21 2 = 3 then s.raiseEvent 5 (BitVec.ofNat 32 a) else s
     let chk (u : State) : State := (if s.cfgRefused new then (u.setRbit st 28).raiseEvent 5 (BitVec.ofNat 32 a) else u).putRbit st 30 false
     let take (u : State) : State :=
       if bit new 30 then u.modPort p fun q => { q with restart := true }
       else follow (u.modPort p fun q => { q with cfg := new, restart := false, clk := false })
     (new = s.reg a → exec (.tdmCfgWrite m p v) s = .next (s0.setReg a new)) ∧
     (new ≠ s.reg a → (s.portSlave p = false ∨ s.portValid p = false) → exec (.tdmCfgWrite m p v) s = .next (take (chk (s0.setReg a new)))) ∧
     (new ≠ s.reg a → s.portSlave p = true → s.portValid p = true → exec (.tdmCfgWrite m p v) s = .next (take (chk (follow (invalid (s0.setReg a new))))))) ∧
    (q.restart = true → exec (.masterPortRestart p) s = .next (follow (s.setPort p
      { q with cfg := s.reg (regTDM_CFG p.val), restart := false, lev := 0, buf := bufReset, slipped := false, sent := none, clk := false }))) ∧
    (q.restart = false → exec (.masterPortRestart p) s = .next s)

/-- AES3 receivers (R224 to R227): a frame gives its samples, or repeats one after a parity error, and is held for its capture on a valid receiver used directly; a receiver qualifies and is lost with EV52 and its fault, a change of its rate also raises EV51; a changed channel-status block is kept with EV54, a professional one with a wrong CRC is only counted; the non-audio state clears with EV53; a resync slip repeats the frame before. AES3 transmitters and the locks of rate-conversion channels (R228 to R235): an enabled transmitter at the frame rate sends the samples of the frame before in 24 bits, with validity and user bit 0 and the parity bit, or nothing where the module did not own it, and steps its place in the block; a channel in use with a valid endpoint and an admitted rate locks with its ratio and EV55; an unlock whose cause holds clears the lock, counts and raises EV55, and a drift of network time also source 76; a channel follows its endpoint: a locked one unlocks where it is lost, any other shows its state. -/
def Obligations.AesAndConverters : Prop :=
  (∀ (s : State) (r : Fin 4) (sa sb : Subframe) (rate : BitVec 18) (sub : Bool) (block : BitVec 192),
     let v := s.rx r
     let st := regAES_RXSTAT r.val
     let err := regAES_RXERR r.val
     let xa := if sa.parityErr then nthD v.last 0 0 else sa.data ++ 0#8
     let xb := if sb.parityErr then nthD v.last 1 0 else sb.data ++ 0#8
     (s.rxOn r = true →
       (∃ t, exec (.aesFrameReceive r sa sb) s = .next t ∧ t = { s with regs := t.regs, rxs := t.rxs, tokens := t.tokens, seq := t.seq, conv := t.conv } ∧
         (s.rxValid r = false → t.conv = s.conv) ∧ (∀ o, o ≠ r → t.rx o = s.rx o) ∧ (t.rx r).last = [xa, xb] ∧ (t.rx r).lev = v.lev ∧ t.rbit st 26 = sb.v ∧
         (s.rxValid r = true → s.rxDirect = true → (t.rx r).buf = v.buf.complete s.now [xa, xb]) ∧
         ((s.rxValid r = false ∨ s.rxDirect = false) → (t.rx r).buf = v.buf) ∧ (s.rxValid r = false → t.rbit st 30 = true) ∧
         t.rfld err 16 16 = min 65535 (s.rfld err 16 16 + b2n sa.parityErr + b2n sb.parityErr)) ∧
       (bit (block.extractLsb' 0 32) 0 = true → csCrc (blockBytes block) ≠ block.extractLsb' 184 8 →
         exec (.channelStatusBlock r sub block) s = .next (s.setReg err (satAdd (s.reg err) 0 16 1))) ∧
       ((bit (block.extractLsb' 0 32) 0 = false ∨ csCrc (blockBytes block) = block.extractLsb' 184 8) →
         let base := if sub then 6 else 0
         ∃ t, exec (.channelStatusBlock r sub block) s = .next t ∧ t = { s with regs := t.regs, rxs := t.rxs, tokens := t.tokens, seq := t.seq } ∧
           (∀ w, w < 6 → t.reg (regAES_RXCS r.val (base + w)) = block.extractLsb' (32 * w) 32 ∧
             t.reg (regAES_RXCS r.val (6 - base + w)) = s.reg (regAES_RXCS r.val (6 - base + w))) ∧
           ((∃ w, w < 6 ∧ s.reg (regAES_RXCS r.val (base + w)) ≠ block.extractLsb' (32 * w) 32) →
             t.rbit (regEVT_PEND 1) 22 = true ∧ t.reg (regEVT_PAYLOAD 54) = BitVec.ofNat 32 r.val)) ∧
       (s.rxValid r = false →
         ((aesRateOk rate.toNat = false ∨ (s.rxDirect = true ∧ s.nearFi rate.toNat = false)) →
           ∃ t, exec (.aesReceiverQualified r rate) s = .next t ∧ OnlyRegs [st] s t ∧ t.rbit st 29 = true ∧ t.rbit st 31 = false) ∧
         (aesRateOk rate.toNat = true → (s.rxDirect = true → s.nearFi rate.toNat = true) →
           ∃ t : State, exec (.aesReceiverQualified r rate) s = .next (t.asrcEndpoints (onRx r)) ∧
             t = { s with regs := t.regs, rxs := t.rxs, tokens := t.tokens, seq := t.seq } ∧ t.rbit st 31 = true ∧ t.rfld st 0 18 = rate.toNat ∧ t.rx r = { v with buf := { v.buf with held := [], begun := false } } ∧
             t.reg (regEVT_PAYLOAD 52) = BitVec.ofNat 32 r.val ∧ t.rbit (regEVT_PEND 1) 20 = true))) ∧
     (s.rxValid r = true →
       let bare (u : State) : State := (((u.putRbit st 31 false).setRbit st 25).modRx r fun v => { v with buf := { v.buf with held := [], begun := false } }).causeBegins (72 + r.val)
       let ev (n : Nat) (u : State) : State := u.raiseEvent n (BitVec.ofNat 32 r.val)
       exec (.aesReceiverLost r) s = .next ((ev 52 (bare (s.putRbit st 30 false))).asrcEndpoints (onRx r)) ∧
       exec (.portRateChange (.rx r)) s = .next (((ev 52 (ev 51 (bare s))).asrcEndpoints (onRx r)).setRbit st 30)) ∧
     (s.rxValid r = false → exec (.aesReceiverLost r) s = .next (s.putRbit st 30 false) ∧ exec (.portRateChange (.rx r)) s = .next s) ∧
     (s.rxOn r = false → exec (.aesFrameReceive r sa sb) s = .next s ∧ exec (.resyncSlip (.rx r)) s = .next s) ∧
     (s.rxOn r = true →
       (let u := (s.setReg (regAES_RXSLIP r.val) (satAdd (s.reg (regAES_RXSLIP r.val)) 16 16 1)).setRbit st 24
        exec (.resyncSlip (.rx r)) s = .next ((u.modRx r fun v => { v with buf := v.buf.resync s.now }).raiseEvent 49 (BitVec.ofNat 32 r.val)))) ∧
     (s.rbit st 28 = true → s.csNonAudio r = false → s.burstNonAudio r = false → 8192 ≤ v.absent →
       exec (.nonAudioClear r) s = .next ((s.putRbit st 28 false).raiseEvent 53 (BitVec.ofNat 32 r.val)))) ∧
  (∀ (s : State) (t : Fin 4) (c : Fin 512) (ratio : Word) (rate : BitVec 18) (why : UnlockCause),
     let v := s.tx t
     let a := regASRC_CHSTAT c.val
     (s.rbit (regAES_TXCTRL t.val) 31 = true → s.txRate t = 0 →
       let tmpl := if v.pos = 0 then (List.range 6).map fun w => s.reg (regAES_TXCS t.val w) else v.tmpl
       exec (.aesFrameTransmit t) s = .next (s.modTx t fun v => { v with
         pos := (v.pos + 1) % 192, tmpl := tmpl, sent := if s.ownPrev then some (slotOut v.next.1 24, slotOut v.next.2 24) else none
         csBit := csBitOf tmpl (s.rbit (regAES_TXCTRL t.val) 30) v.pos, vBit := false, uBit := false
         parity := (subParity (slotOut v.next.1 24) false false (csBitOf tmpl (s.rbit (regAES_TXCTRL t.val) 30) v.pos),
           subParity (slotOut v.next.2 24) false false (csBitOf tmpl (s.rbit (regAES_TXCTRL t.val) 30) v.pos)) })) ∧
     (s.rbit (regAES_TXCTRL t.val) 31 = true → s.txRate t ≠ 0 →
       ∃ u, exec (.aesFrameTransmit t) s = .next u ∧ u = { s with txs := u.txs, freeCtr := u.freeCtr, conv := u.conv } ∧ (u.tx t).pos = (v.pos + 1) % 192 ∧
         (u.tx t).vBit = false ∧ (u.tx t).uBit = false ∧ ((u.tx t).sent = none ↔ s.ownPrev = false) ∧ (∀ o, o ≠ t → u.tx o = s.tx o)) ∧
     (s.asrcUsed c.val = true → s.asrcLocked c.val = false → s.asrcEndpointValid c.val = true → s.asrcRateOk rate.toNat = true →
       (s.asrcMode c.val = 1 → s.tbAnchored (fld (s.asrcWord c.val 1) 24 2) = true) →
       ∃ w, bit w 31 = true ∧ bit w 30 = false ∧ bit w 29 = false ∧ bit w 28 = false ∧ fld w 0 18 = rate.toNat ∧
         exec (.asrcLock c ratio rate) s = .next
           (({ s.setReg a w with asrcRatio := wmSet s.asrcRatio c.val ratio } : State).raiseEvent 55 (BitVec.ofNat 32 c.val))) ∧
     (s.asrcUsed c.val = true → s.asrcLocked c.val = false → s.asrcEndpointValid c.val = true → s.asrcRateOk rate.toNat = false →
       ∃ w, bit w 31 = false ∧ bit w 29 = true ∧ exec (.asrcLock c ratio rate) s = .next (s.setReg a w)) ∧
     (s.asrcLocked c.val = true → s.unlockDue c.val why = true →
       ∃ u, exec (.asrcUnlock c why) s = .next u ∧ u.asrcLocked c.val = false ∧ u.asrcPlaced c.val = [] ∧ wmGet u.asrcRatio c.val = 0 ∧ c.val ∈ u.asrcLost ∧
         u.rbit regASRC_STATUS 29 = true ∧ u.reg regASRC_UNLOCK_CNT = satAdd (s.reg regASRC_UNLOCK_CNT) 0 32 1 ∧
         u.reg (regEVT_PAYLOAD 55) = BitVec.ofNat 32 c.val ∧ (why = .drift → u.faultLatched 76 = true) ∧
         (∀ k, k ≠ c.val → wmGet u.asrcRatio k = wmGet s.asrcRatio k)) ∧
     ((s.asrcLocked c.val = false ∨ s.unlockDue c.val why = false) → exec (.asrcUnlock c why) s = .next s) ∧
     (s.unlockDue c.val .endpoint = !s.asrcEndpointValid c.val) ∧
     (s.unlockDue c.val .anchor = true ↔ s.asrcMode c.val = 1 ∧ s.tbAnchored (s.asrcTb c.val) = false) ∧
     (s.asrcLocked c.val = true → s.asrcEndpointValid c.val = false →
       let u := s.asrcFollow c.val
       u.asrcLocked c.val = false ∧ u.rbit a 30 = true ∧ u.rbit a 28 = true ∧ u.rfld a 0 18 = 0 ∧ c.val ∈ u.asrcLost ∧
         u.reg regASRC_UNLOCK_CNT = satAdd (s.reg regASRC_UNLOCK_CNT) 0 32 1 ∧ u.reg (regEVT_PAYLOAD 55) = BitVec.ofNat 32 c.val) ∧
     ((s.asrcLocked c.val = false ∨ s.asrcEndpointValid c.val = true) →
       let u := s.asrcFollow c.val
       u = { s with regs := u.regs, conv := u.conv } ∧ (∀ b, b ≠ a → u.reg b = s.reg b) ∧ u.asrcLocked c.val = s.asrcLocked c.val ∧
         u.rbit a 28 = !s.asrcEndpointValid c.val ∧ u.rbit a 30 = !s.asrcLocked c.val ∧ u.rfld a 0 18 = s.asrcRateHz c.val % 2 ^ 18))

/-! ## The network (R240 to R271) -/

/-- Paths and links (R240, R242, R271): a link comes up with EV56 or EV57 and goes down with the FLAP bit, the event and source 50; a partner of another speed holds an SGMII link down with LINKERR; a write takes ANEG and MODE, and a change of the mode in force takes the link down. Received frames (R241, R242, R263): a wake frame acts as a wake source first, and on a path that is down, or with the network block without supply or clock, that is all; otherwise a damaged, short, overlong or doubly tagged frame is counted; a PAUSE frame and one for another address are dropped; one of a running flow reaches the stream engine; any other goes to the ring of the first rule that matches, or is counted as unclassified. -/
def Obligations.PathsAndFrames : Prop :=
  (∀ (s : State) (m : Master) (x : Path) (v : Word) (bad : Bool),
     let n := pathNo x
     let st := regNET_PSTAT n
     let down (u : State) : State := (((u.putRbit st 31 false).setRbit st 29).faultOccurs 50).raiseEvent (56 + n) 0
     (s.rbit st 31 = true → exec (.linkChange x false bad) s = .next (down s)) ∧
     (s.rbit st 31 = false → exec (.linkChange x false bad) s = .next s) ∧
     (s.pathMode n = 0 → exec (.linkChange x true bad) s = .next s) ∧
     (s.rbit st 31 = false → s.pathMode n ≠ 0 → (bad = false ∨ s.pathMode n ≠ 1 ∨ s.rbit (regNET_PCTRL n) 2 = false) →
       exec (.linkChange x true bad) s = .next ((s.setRbit st 31).raiseEvent (56 + n) 1)) ∧
     (s.pathMode n = 1 → s.rbit (regNET_PCTRL n) 2 = true →
       exec (.linkChange x true true) s = .next ((if s.rbit st 31 then down s else s).setRbit st 30)) ∧
     (let s0 := if fld v 0 2 = 3 then s.raiseEvent 5 (BitVec.ofNat 32 (regNET_PCTRL n)) else s
      let u := s0.setReg (regNET_PCTRL n) (v &&& 7#32)
      (u.pathMode n = s.pathMode n → exec (.pathModeWrite m x v) s = .next u) ∧
      (u.pathMode n ≠ s.pathMode n → exec (.pathModeWrite m x v) s = .next (if s.rbit st 31 then down u else u)))) ∧
  (∀ (s : State) (x : Path) (frame : List Byte),
     let n := pathNo x
     let bs := frame.take (frame.length - 4)
     let v := viewFrame bs
     let good : Prop := 64 ≤ frame.length ∧ frame.length ≤ 1522 ∧ frame.drop (frame.length - 4) = bytesLE (crc32 bs) ∧ v.tag2 = false
     let u := if s.wakeFrame n frame then s.wakeBy (match x with | .a => .pathA | .b => .pathB) else s
     ((s.pathAwake n = false ∨ s.netOn = false) → exec (.frameReceive x frame) s = .next u) ∧
     (s.pathAwake n = true → s.netOn = true →
       (¬ good → exec (.frameReceive x frame) s = .next (u.count regNET_ERRFRAME_CNT 1)) ∧
       (good → (isPause v bs = true ∨ u.addressed n bs = false) → exec (.frameReceive x frame) s = .next u) ∧
       (good → isPause v bs = false → u.addressed n bs = true →
         (∀ f w, u.matchFlow v bs n = some (f, w) → exec (.frameReceive x frame) s = .next (u.packetArrives f w
           (if fwAaf w.words then aafPacket w.words (bs.drop v.body) else rtpPacket w.words ((bs.drop (v.udp + 8)).take (numAt bs (v.udp + 4) 2 - 8))) (n == 1))) ∧
         (u.matchFlow v bs n = none → (∀ q, q < 64 → u.ruleMatches q n v = false) → exec (.frameReceive x frame) s = .next (u.count regNET_UNCLASS_CNT 1)) ∧
         (∀ q, u.matchFlow v bs n = none → q < 64 → u.ruleMatches q n v = true → (∀ r, r < q → u.ruleMatches r n v = false) →
           exec (.frameReceive x frame) s = .next (u.rxStore (32 + fld (u.ruleWord q) 16 5) q n bs)))) ∧
     (isPause v bs = true ↔ v.etype = 0x8808 ∧ numAt bs v.body 2 = 1))

/-- A packet of a running flow (R251 to R254): one whose fields do not match the flow is counted as discarded; without an anchor in force it leaves no samples; one whose first sample belongs to a past frame is counted as late, one too far ahead as discarded; otherwise, when no sample of it meets another packet's, its samples wait in the buffer for their capture frames, or, at another rate, by media time, and reach the conversion channels; the second copy of a packet on the other path within its window only ends the wait of the first, and a copy after it is dropped. At the capture of frame k a flow at the frame rate takes its sample, or the frame is concealed and counted, with EV60 at the first after a taken one; without an anchor in force it is concealed. Merging and the ends of flows (R249, R253): a first copy without a second counts as missing on the other path, and after 64 in a row the flow is single-path, with EV61; 64 packets with both copies end that; a flow that has faded out stops, or starts again with its changed words, and one that a commit enables during its fade-out starts at once at level 0. How long a copy is known is the model's choice (log entry 94). -/
def Obligations.Flows : Prop :=
  (∀ (s : State) (f : Nat) (v : RxFlow) (p : Packet) (pathB : Bool),
     let seen : RxFlow := if pathB then { v with seenB := true } else { v with seenA := true }
     let kept := v.waits.filter fun w => w.wanted || decide (s.now < w.frame + copyMemory)
     let same (w : CopyWait) : Bool := decide (w.seq = p.seq) && decide (w.ts = p.ts)
     let first : RxFlow :=
       if fwPaths v.words = 3 then { seen with waits := kept ++ [{ seq := p.seq, ts := p.ts, pathB := pathB, wanted := true, frame := s.now }] } else seen
     (p.samples = none → s.packetArrives f v p pathB = s.setRxFlow f { seen with discard := min 65535 (v.discard + 1) }) ∧
     (∀ smp, p.samples = some smp → (fwPaths v.words ≠ 3 ∨ kept.find? same = none) →
       (s.flowAnchor (fwTb v.words) = none → s.packetArrives f v p pathB = s.setRxFlow f first) ∧
       (∀ anc, s.flowAnchor (fwTb v.words) = some anc →
         let ts := s.packetTimes v.words anc p
         let fs := ts.map (s.captureFrame v.words anc)
         let keys := if fwRate v.words = s.fi then fs else ts
         (fs.headD 0 ≤ s.now → s.packetArrives f v p pathB = s.setRxFlow f { first with late := min 65535 (v.late + 1) }) ∧
         ((s.now : Int) + 8191 < fs.headD 0 → s.packetArrives f v p pathB = s.setRxFlow f { first with discard := min 65535 (v.discard + 1) }) ∧
         ((s.now : Int) < fs.headD 0 → fs.headD 0 ≤ s.now + 8191 → (∀ k ∈ keys, ∀ e ∈ v.buf, e.1 ≠ k) →
           let t := s.setRxFlow f { first with buf := v.buf ++ (keys.zip smp).map fun e => (e.1, p.seq, e.2) }
           (fwRate v.words = s.fi → s.packetArrives f v p pathB = t) ∧
           (fwRate v.words ≠ s.fi → s.packetArrives f v p pathB = t.handSamples v.words ts smp)))) ∧
     (∀ smp w, p.samples = some smp → fwPaths v.words = 3 → kept.find? same = some w →
       (w.wanted = true → w.pathB ≠ pathB →
         let ended : RxFlow := { seen with waits := kept.map (fun e => if same e then { e with wanted := false } else e)
                                           missRunA := 0, missRunB := 0, goodRun := v.goodRun + 1 }
         ((v.single = false ∨ v.goodRun < 63) → s.packetArrives f v p pathB = s.setRxFlow f ended) ∧
         (v.single = true → 63 ≤ v.goodRun →
           s.packetArrives f v p pathB = (s.raiseEvent 61 (BitVec.ofNat 32 f)).setRxFlow f { ended with single := false })) ∧
       ((w.wanted = false ∨ w.pathB = pathB) → s.packetArrives f v p pathB = s.setRxFlow f { seen with waits := kept })) ∧
     (∀ k : Nat, v.run = true → fwRate v.words = s.fi →
       let kept := v.buf.filter fun e => decide ((k : Int) < e.1)
       (∀ e, s.flowAnchor (fwTb v.words) ≠ none → v.buf.find? (fun e => decide (e.1 = (k : Int))) = some e → s.rxFlowTick k f v =
         s.setRxFlow f { v with buf := kept, last := e.2.2, concealed := false, level := stepTo v.level (if v.leaving then 0 else 64) }) ∧
       ((s.flowAnchor (fwTb v.words) = none ∨ v.buf.find? (fun e => decide (e.1 = (k : Int))) = none) →
         let u := s.setRxFlow f { v with buf := kept, concealed := true, lost := min 4294967295 (v.lost + 1), level := stepTo v.level 0 }
         s.rxFlowTick k f v = if v.concealed then u else u.raiseEvent 60 (BitVec.ofNat 32 f)))) ∧
  (∀ (s : State) (f : Fin 256),
     (∀ v w, mapFind s.rxFlows f.val = some v → v.waits.find? (fun w => w.wanted) = some w →
       let rest := v.waits.map fun e => if e = w then { e with wanted := false } else e
       let u : RxFlow := if w.pathB then { v with waits := rest, missA := min 65535 (v.missA + 1), missRunA := v.missRunA + 1, missRunB := 0, goodRun := 0 }
         else { v with waits := rest, missB := min 65535 (v.missB + 1), missRunB := v.missRunB + 1, missRunA := 0, goodRun := 0 }
       ((v.single = true ∨ (u.missRunA < 64 ∧ u.missRunB < 64)) → exec (.mergeWindowExpiry f) s = .next (s.setRxFlow f.val u)) ∧
       (v.single = false → (64 ≤ u.missRunA ∨ 64 ≤ u.missRunB) →
         exec (.mergeWindowExpiry f) s = .next ((s.setRxFlow f.val { u with single := true }).raiseEvent 61 (BitVec.ofNat 32 f.val)))) ∧
     (∀ v, mapFind s.rxFlows f.val = some v → v.run = true →
       (v.level = 0 → v.leaving = true →
         (s.flowEnabled 0 f.val = false → exec (.flowFadeEnd .rx f) s = .next ((s.setRxFlow f.val { v with run := false, buf := [] }).asrcEndpoints onNet)) ∧
         (s.flowEnabled 0 f.val = true → exec (.flowFadeEnd .rx f) s = .next ((s.setRxFlow f.val (rxStart (s.flowWords 0 f.val))).asrcEndpoints onNet))) ∧
       ((v.level ≠ 0 ∨ v.leaving = false) → exec (.flowFadeEnd .rx f) s = .next s) ∧
       (s.flowEnabled 0 f.val = false → s.flowFollow 0 f.val = s.setRxFlow f.val { v with leaving := true, off := true }) ∧
       (s.flowEnabled 0 f.val = true → v.off = true → s.flowFollow 0 f.val = s.setRxFlow f.val (rxStart (s.flowWords 0 f.val)))) ∧
     (∀ v, mapFind s.txFlows f.val = some v → v.run = true →
       (v.level = 0 → v.leaving = true →
         (s.flowEnabled 1 f.val = false → exec (.flowFadeEnd .tx f) s = .next ((s.setTxFlow f.val { v with run := false, hist := [] }).asrcEndpoints onNet)) ∧
         (s.flowEnabled 1 f.val = true → exec (.flowFadeEnd .tx f) s = .next ((s.setTxFlow f.val (txStart (s.flowWords 1 f.val))).asrcEndpoints onNet))) ∧
       ((v.level ≠ 0 ∨ v.leaving = false) → exec (.flowFadeEnd .tx f) s = .next s) ∧
       (s.flowEnabled 1 f.val = false → s.flowFollow 1 f.val = s.setTxFlow f.val { v with leaving := true, off := true }) ∧
       (s.flowEnabled 1 f.val = true → v.off = true → s.flowFollow 1 f.val = s.setTxFlow f.val (txStart (s.flowWords 1 f.val)))))

/-- The launch of a stream packet (R242, R255 to R258, R352): the packet that ends in the frame before leaves once on every path of the flow whose link is up and is counted where one is, a late one twice; a module that did not own that frame sends and counts nothing. -/
def Obligations.StreamLaunch : Prop :=
  ∀ (s : State) (f : Fin 256) (late : Bool) (v : TxFlow), mapFind s.txFlows f.val = some v →
    ((v.run = false ∨ s.now = 0 ∨ s.gatedOff 14 = true ∨ s.packetStart v (s.now - 1) = none ∨ s.packetStart v (s.now - 1) = v.launched) →
      exec (.streamPacketLaunch f late) s = .next s) ∧
    (∀ sn : Int, v.run = true → s.now ≠ 0 → s.gatedOff 14 = false → s.packetStart v (s.now - 1) = some sn → v.launched ≠ some sn →
      let pay := (s.packetSamples v (s.now - 1)).1.flatMap (sampleBytes v.words)
      let packet (x : Nat) : List Byte := if fwAaf v.words then s.aafFrame x v.words sn pay else s.aes67Frame x v.words sn pay
      let onPath (x : Nat) : Bool := decide (fwPaths v.words / 2 ^ x % 2 = 1) && s.rbit (regNET_PSTAT x) 31
      let n := b2n (onPath 0 || onPath 1)
      ∃ t, exec (.streamPacketLaunch f late) s = .next t ∧ t = { s with wire := t.wire, txFlows := t.txFlows, freeCtr := t.freeCtr, conv := t.conv } ∧
        (fwRate v.words = s.fi → t.freeCtr = s.freeCtr ∧ t.conv = s.conv) ∧
        (∀ g, g ≠ f.val → mapFind t.txFlows g = mapFind s.txFlows g) ∧
        (s.ownPrev = false → t.wire = s.wire ∧ mapFind t.txFlows f.val = some { v with launched := some sn }) ∧
        (s.ownPrev = true →
          mapFind t.txFlows f.val =
            some { v with launched := some sn, sent := min 4294967295 (v.sent + n), lateLaunch := min 4294967295 (v.lateLaunch + b2n late * n) } ∧
          (∀ x, x < 2 → onPath x = true → mapFind t.wire x = some (packet x ++ List.replicate (60 - (packet x).length) 0)) ∧
          (∀ x, (2 ≤ x ∨ onPath x = false) → mapFind t.wire x = mapFind s.wire x)))

/-- Transmit rings (R259 to R261): a descriptor that the ring does not own stops the ring; one with a launch time holds it, or is sent at once with LATE where that time is past or its base was never LOCKED; otherwise, or at its launch time, its frame leaves on the paths that are up, the descriptor is written back without OWN and with LATE and the paths' errors, and HEAD advances; no other word changes. Receive rings and their registers (R259, R262, R263, R271): without a posted descriptor a frame is dropped and counted; with one its bytes go to the buffer, the descriptor is written back, HEAD advances and the event of the ring occurs where asked for; TAIL is taken modulo the ring size; LOG2SIZE changes only while the ring is off, and EN from 0 to 1 clears HEAD and TAIL; a classifier rule takes its bits. -/
def Obligations.StreamRings : Prop :=
  (∀ (s : State) (r : Fin 32) (late : Bool),
     let d := s.ringDesc r.val
     let w0 := s.dmaWord d
     let len := fld w0 0 16
     let buf := (s.dmaWord (d + 1)).toNat
     let sized : Prop := 14 ≤ len ∧ len ≤ 1518
     let tb : Fin 4 := fin 3 (fld w0 25 2)
     (s.netOn = true → s.ringOn r.val = true → s.ringHead r.val ≠ s.ringTail r.val → s.ringHeld r.val = none →
       let u := s.dmaReach d 8
       ((u.dmaWaits d = true ∨ u.dmaWaits buf = true) → exec (.txDescriptorProcess r) s = .next u) ∧
       (u.dmaWaits d = false → u.dmaWaits buf = false →
         (∀ a, u.dmaBad d 8 false = some a → exec (.txDescriptorProcess r) s = .next (u.ringError r.val a false)) ∧
         (u.dmaBad d 8 false = none →
           let f := u.dmaTouch d 8
           (bit w0 31 = false → exec (.txDescriptorProcess r) s = .next ((f.putRbit (regNET_RINGCFG r.val) 31 false).setRbit regNET_STATUS 29)) ∧
           (bit w0 31 = true → bit w0 30 = true → sized →
             ((f.tbPass tb).launchLate d tb = false →
               ∃ t, exec (.txDescriptorProcess r) s = .next t ∧ t.ringHeld r.val = some d ∧ (∀ q, q ≠ r.val → t.ringHeld q = s.ringHeld q) ∧
                 t = { f.tbPass tb with ringHold := t.ringHold }) ∧
             ((f.tbPass tb).launchLate d tb = true → exec (.txDescriptorProcess r) s = .next ((f.tbPass tb).txSend r.val d true))) ∧
           (bit w0 31 = true → (bit w0 30 = false ∨ ¬ sized) → exec (.txDescriptorProcess r) s = .next (f.txSend r.val d false))) ∧
         (Unarmed u → u.dmaTouch d 8 = u))) ∧
     ((s.netOn = false ∨ s.ringOn r.val = false ∨ s.ringHead r.val = s.ringTail r.val ∨ s.ringHeld r.val ≠ none) → exec (.txDescriptorProcess r) s = .next s) ∧
     (∀ h, s.ringHeld r.val = some h →
       let tb : Fin 4 := fin 3 (fld (s.dmaWord h) 25 2)
       let at_ := s.launchTime h tb - max (s.txDelay 0) (s.txDelay 1)
       (s.netOn = true → (s.tbOn tb.val = true ∨ at_ ≤ s.tbNs tb) → exec (.txLaunchTime r late) s =
         .next (({ s.tbReach tb at_ with ringHold := mapDel s.ringHold r.val } : State).txSend r.val h late)) ∧
       ((s.netOn = false ∨ (s.tbOn tb.val = false ∧ s.tbNs tb < at_)) → exec (.txLaunchTime r late) s = .next s)) ∧
     (s.ringHeld r.val = none → exec (.txLaunchTime r late) s = .next s) ∧
     (sized → bit w0 27 = false → bit w0 29 = false → Unarmed s →
       let u := s.dmaReach buf ((len + 3) / 4)
       u.dmaBad buf ((len + 3) / 4) false = none → u.dmaBad d 8 true = none →
       let raw := ((List.range ((len + 3) / 4)).flatMap fun i => bytesLE (s.dmaWord (buf + i))).take len
       let paths := u.rfld (regNET_RINGCFG r.val) 29 2
       let onPath (x : Nat) : Bool := decide (paths / 2 ^ x % 2 = 1)
       let up (x : Nat) : Bool := u.rbit (regNET_PSTAT x) 31
       let t := s.txSend r.val d late
       t = { u with regs := t.regs, wire := t.wire, scratch := t.scratch, dram := t.dram, raced := t.raced, tokens := t.tokens, seq := t.seq } ∧
       (∀ x, x < 2 → onPath x = true → up x = true → mapFind t.wire x = some (raw ++ List.replicate (60 - raw.length) 0)) ∧
       (∀ x, (2 ≤ x ∨ onPath x = false ∨ up x = false) → mapFind t.wire x = mapFind u.wire x) ∧
       bit (t.dmaWord d) 31 = false ∧ bit (t.dmaWord d) 24 = late ∧ bit (t.dmaWord d) 23 = (onPath 0 && !up 0) ∧ bit (t.dmaWord d) 22 = (onPath 1 && !up 1) ∧
       fld (t.dmaWord d) 0 16 = len ∧ (∀ a, 0x00400000 ≤ a → (a < 0x00800000 ∨ 0x80000000 ≤ a) → a ≠ d → t.dmaWord a = s.dmaWord a) ∧
       (s.ringDesc r.val = d → t.ringHead r.val = (s.ringHead r.val + 1) % s.ringSize r.val) ∧
       (bit w0 28 = true → t.rbit (regEVT_PEND 1) 27 = true ∧ t.reg (regEVT_PAYLOAD 59) = BitVec.ofNat 32 r.val))) ∧
  (∀ (s : State) (m : Master) (r : Fin 64) (rule x : Nat) (bs : List Byte) (q : Fin 64) (v : Word),
     let d := s.ringDesc r.val
     let w0 := s.dmaWord d
     let buf := (s.dmaWord (d + 1)).toNat
     let stored := bs.take (fld (s.dmaWord (d + 2)) 0 16)
     let n := (stored.length + 3) / 4
     ((s.ringOn r.val = false ∨ s.ringHead r.val = s.ringTail r.val) → s.rxStore r.val rule x bs = (s.count regNET_RXDROP_CNT 1).setRbit regNET_STATUS 28) ∧
     (let u := (s.dmaReach d 8).dmaReach buf n
      Unarmed s → s.ringOn r.val = true → s.ringHead r.val ≠ s.ringTail r.val → (s.dmaReach d 8).dmaBad d 8 false = none → bit w0 31 = true →
       u.dmaBad buf n true = none → u.dmaBad d 8 true = none → (∀ i, i < n → buf + i < d ∨ d + 8 ≤ buf + i) → rule < 64 → x < 2 → bs.length < 2 ^ 16 →
       let t := s.rxStore r.val rule x bs
       t = { u with regs := t.regs, scratch := t.scratch, dram := t.dram, raced := t.raced, tokens := t.tokens, seq := t.seq, freeCtr := t.freeCtr, tbCount := t.tbCount,
                    snap := { s.snap with pend := t.snap.pend } } ∧
       (∀ i, i < n → t.dmaWord (buf + i) = BitVec.ofNat 32 (natLE (bytesAt stored (4 * i) 4))) ∧
       bit (t.dmaWord d) 31 = false ∧ fld (t.dmaWord d) 29 1 = x ∧ fld (t.dmaWord d) 22 6 = rule ∧ fld (t.dmaWord d) 0 16 = bs.length ∧
       bit (t.dmaWord d) 28 = decide (stored.length < bs.length) ∧
       t.dmaWord (d + 1) = s.dmaWord (d + 1) ∧ t.dmaWord (d + 2) = s.dmaWord (d + 2) ∧
       (∀ a, 0x00400000 ≤ a → (a < 0x00800000 ∨ 0x80000000 ≤ a) → (a < d ∨ d + 8 ≤ a) → (a < buf ∨ buf + n ≤ a) → t.dmaWord a = s.dmaWord a) ∧
       t.ringHead r.val = (s.ringHead r.val + 1) % s.ringSize r.val ∧
       (bit w0 30 = true → t.reg (regEVT_PAYLOAD (if s.rbit (regNET_RINGCFG r.val) 26 then 62 else 58)) = BitVec.ofNat 32 r.val)) ∧
     exec (.ringTailWrite m r v) s = .next (s.setReg (regNET_RINGTAIL r.val) (BitVec.ofNat 32 (fld v 0 12 % s.ringSize r.val))) ∧
     (let a := regNET_RINGCFG r.val
      (s.ringOn r.val = true → exec (.ringCfgWrite m r v) s = .next (s.setReg a ((s.reg a &&& ~~~0xFC000000#32) ||| (v &&& 0xFC000000#32)))) ∧
      (s.ringOn r.val = false →
        let s0 := if 4 ≤ fld v 0 4 ∧ fld v 0 4 ≤ 12 then s else s.raiseEvent 5 (BitVec.ofNat 32 a)
        let u := s0.setReg a ((s.reg a &&& ~~~0xFC00000F#32) ||| (v &&& 0xFC00000F#32))
        exec (.ringCfgWrite m r v) s =
          .next (if bit v 31 then (u.setReg (regNET_RINGHEAD r.val) 0).setReg (regNET_RINGTAIL r.val) 0 else u))) ∧
     (let a := 0x01A40000 + 8 * q.val
      let u := s.tabLoad a (v &&& 0xFC1FFFFF#32)
      exec (.classifierRuleWrite m q false v) s = .next (if bit v 31 ∧ 4 ≤ fld v 28 3 then u.raiseEvent 5 (BitVec.ofNat 32 a) else u) ∧
      exec (.classifierRuleWrite m q true v) s = .next s))

/-- Delron requests (R265, R266, R268): before the first tick none is answered; a damaged message is discarded, one of an unknown type refused with code 1; a sender that is no control source is refused WRITE, PEG and SCENE_COMMIT with code 3, a standby refuses the last two with code 6, a COUNT out of range is refused with code 2, a queue without room refuses with code 5; READ, WRITE, PEG and STATUS are answered by their replies, and an accepted SCENE_COMMIT joins the Peg queue with its reply pending. A message is its bytes in order, in whatever parts a command carries them. A well-formed message is read as it was built. Replies (R265, R339): one to the network leaves to the address and port of the request; one to the SPI host port is written to the next outbound slot, waits behind fewer than 16 others while that slot is full, or is counted as dropped. A known type that another command carries changes nothing; that is the model's choice (log entry 60). -/
def Obligations.DelronRequests : Prop :=
  (∀ (s : State) (src : DelronSrc) (p0 p1 p2 p3 p4 p5 : List Byte),
     let msg := p0 ++ (p1 ++ p2 ++ p3 ++ p4) ++ p5
     let all (t : State) : Prop := exec (.delronRead src p0 (p1 ++ p2 ++ p3 ++ p4) p5) s = .next t ∧ exec (.delronWrite src p0 (p1 ++ p2 ++ p3 ++ p4) p5) s = .next t ∧ exec (.delronPeg src (p0 ++ (p1 ++ p2 ++ p3 ++ p4)) p5) s = .next t ∧
       exec (.delronSceneCommit src p0 p1 p2 p3 p4 p5) s = .next t ∧ exec (.delronStatusReq src msg) s = .next t ∧ exec (.delronLeave (src, msg)) s = .next t
     ((s.ticking = false ∨ s.delronHere src msg = false) → all s) ∧
     (s.ticking = true → s.delronHere src msg = true → delronParse msg = none → all (s.delronTake src)) ∧
     (∀ m, s.ticking = true → s.delronHere src msg = true → delronParse msg = some m → m.type ∉ delronTypes → all ((s.delronTake src).nak src m.seq m.type 1))) ∧
  (∀ (s : State) (src : DelronSrc) (p0 p1 p2 p3 p4 p5 : List Byte) (m : DelronMsg),
     let msg := p0 ++ (p1 ++ p2 ++ p3 ++ p4) ++ p5
     s.ticking = true → s.delronHere src msg = true → delronParse msg = some m →
     let u := s.delronTake src
     let c := u.delronMaster
     let b := m.body
     let count := numAt b 4 2
     (m.type = 0x10 →
       ((b.length ≠ 8 ∨ count = 0 ∨ 256 < count) → exec (.delronRead src p0 (p1 ++ p2 ++ p3 ++ p4) p5) s = .next (u.nak src m.seq 0x10 2)) ∧
       (b.length = 8 → 1 ≤ count → count ≤ 256 →
         let r := c.2.delronReads c.1 (numAt b 0 4) count
         exec (.delronRead src p0 (p1 ++ p2 ++ p3 ++ p4) p5) s = .next (r.1.2.reply src 0x11 m.seq (bytesAt b 0 6 ++ beBytes 2 (if r.2 = 0 then 0 else 4) ++ r.1.1.flatMap bytesBE)))) ∧
     (m.type = 0x12 →
       (delronAllowed src = false → exec (.delronWrite src p0 (p1 ++ p2 ++ p3 ++ p4) p5) s = .next (u.nak src m.seq 0x12 3)) ∧
       (delronAllowed src = true → (b.length ≠ 8 + 4 * count ∨ count = 0 ∨ 256 < count) → exec (.delronWrite src p0 (p1 ++ p2 ++ p3 ++ p4) p5) s = .next (u.nak src m.seq 0x12 2)) ∧
       (delronAllowed src = true → b.length = 8 + 4 * count → 1 ≤ count → count ≤ 256 →
         let r := c.2.delronWrites c.1 (numAt b 0 4) ((List.range count).map fun k => BitVec.ofNat 32 (numAt b (8 + 4 * k) 4))
         exec (.delronWrite src p0 (p1 ++ p2 ++ p3 ++ p4) p5) s = .next
           (if r.1.2.ticking then r.1.2.reply src 0x13 m.seq (bytesAt b 0 4 ++ beBytes 2 r.1.1 ++ beBytes 2 (if r.2 = 0 then 0 else 4)) else r.1.2))) ∧
     (m.type = 0x14 →
       let h : Word := BitVec.ofNat 32 (numAt b 0 4)
       (delronAllowed src = false → exec (.delronPeg src (p0 ++ (p1 ++ p2 ++ p3 ++ p4)) p5) s = .next (u.nak src m.seq 0x14 3)) ∧
       (delronAllowed src = true → (u.standby = true ∨ u.pegClosed = true) → exec (.delronPeg src (p0 ++ (p1 ++ p2 ++ p3 ++ p4)) p5) s = .next (u.nak src m.seq 0x14 6)) ∧
       (delronAllowed src = true → u.standby = false → u.pegClosed = false →
         ((b.length ≠ 4 * (hdrLen h + 1) ∨ hdrOk h = false) → exec (.delronPeg src (p0 ++ (p1 ++ p2 ++ p3 ++ p4)) p5) s = .next (u.nak src m.seq 0x14 2)) ∧
         (b.length = 4 * (hdrLen h + 1) → hdrOk h = true →
           (u.pegFree < hdrSpace h → exec (.delronPeg src (p0 ++ (p1 ++ p2 ++ p3 ++ p4)) p5) s = .next (u.nak src m.seq 0x14 5)) ∧
           (hdrSpace h ≤ u.pegFree →
             let t := ((List.range (hdrLen h)).map fun k => BitVec.ofNat 32 (numAt b (4 + 4 * k) 4)).foldl (fun (t : State) v => t.pegData c.1.val v) (c.2.pegHeader c.1.val h)
             exec (.delronPeg src (p0 ++ (p1 ++ p2 ++ p3 ++ p4)) p5) s = .next (t.reply src 0x15 m.seq (beBytes 2 0 ++ beBytes 2 t.pegFree)))))) ∧
     (m.type = 0x20 →
       let scene := numAt b 0 2
       let mode := numAt b 2 1
       let tb := numAt b 3 1
       (delronAllowed src = false → exec (.delronSceneCommit src p0 p1 p2 p3 p4 p5) s = .next (u.nak src m.seq 0x20 3)) ∧
       (delronAllowed src = true → (u.standby = true ∨ u.pegClosed = true) → exec (.delronSceneCommit src p0 p1 p2 p3 p4 p5) s = .next (u.nak src m.seq 0x20 6)) ∧
       (delronAllowed src = true → u.standby = false → u.pegClosed = false →
         ((b.length ≠ 16 ∨ 1024 ≤ scene ∨ 3 ≤ mode ∨ 4 ≤ tb) → exec (.delronSceneCommit src p0 p1 p2 p3 p4 p5) s = .next (u.nak src m.seq 0x20 2)) ∧
         (b.length = 16 → scene < 1024 → mode < 3 → tb < 4 →
           let w := u.sceneWords mode (BitVec.ofNat 32 (numAt b 4 4)) (BitVec.ofNat 48 (numAt b 8 6))
           let k := w.2.delronMaster
           let h := BitVec.ofNat 32 (0x30000000 + w.1.length * 65536 + tb * 4096 + mode * 1024 + scene)
           (w.2.pegFree < hdrSpace h → exec (.delronSceneCommit src p0 p1 p2 p3 p4 p5) s = .next (w.2.nak src m.seq 0x20 5)) ∧
           (hdrSpace h ≤ w.2.pegFree →
             exec (.delronSceneCommit src p0 p1 p2 p3 p4 p5) s = .next ((k.2.pegClose k.1.val).joinQueue k.1.val h w.1 (some (src, m.seq))))))) ∧
     (m.type = 0x30 →
       (b ≠ [] → exec (.delronStatusReq src msg) s = .next (u.nak src m.seq 0x30 2)) ∧
       (b = [] →
         let p := u.regValue regGLOBAL_PIPE_STAT
         exec (.delronStatusReq src msg) s = .next (p.2.reply src 0x31 m.seq (bytesBE p.1 ++ beBytes 8 u.fc.toNat ++ bytesBE (u.reg regNET_STATUS) ++
           beBytes 2 u.validPartners ++ beBytes 2 u.partnersRefused ++ [u.tbStates, BitVec.ofNat 8 u.delronPair, 0, 0]))))) ∧
  (∀ (s : State) (dev : BitVec 64) (type : Nat) (seq : BitVec 16) (body : List Byte), body.length ≤ 1400 → type < 256 →
     let msg := delronMsg s.devId type seq body
     let slot := outSlot s.outFill
     delronParse (delronMsg dev type seq body) = some { type := type, seq := seq, sender := dev, body := body } ∧
     (∀ ip port, s.reply (.net ip port) type seq body = { s with delronNet := some (ip, port, msg) }) ∧
     (s.outWait = [] → s.tabGet slot = 0 →
       let t := s.reply .spi type seq body
       t = { s with tab := t.tab, outFill := (s.outFill + 1) % 4 } ∧ t.slotBytes slot = msg ∧
       (∀ a, (a < slot ∨ slot + 0x600 ≤ a) → t.tabGet a = s.tabGet a)) ∧
     ((s.outWait ≠ [] ∨ s.tabGet slot ≠ 0) → s.outWait.length < 16 → s.reply .spi type seq body = { s with outWait := s.outWait ++ [msg] }) ∧
     (16 ≤ s.outWait.length → s.reply .spi type seq body = s.count regBOOT_HOSTDROP 1))

/-- The roll-call (R265, R266, R267, R269): an announcement updates the entry of its sender or makes the lowest free one, with EV63 where VALID changes; a damaged one, the module's own, and any before the first tick are ignored; a leave or a silence clears VALID; the table full only counts; the module announces itself to the group where a link is up, and its host has LEAVE sent. With no connection rule enabled and none in use, nothing follows from a change of the partners. LEAVE at the request of the host comes in as a message of the SPI host port; that is the model's reading (log entry 60). -/
def Obligations.DelronRollCall : Prop :=
  ∀ (s : State) (x : Path) (msg : List Byte) (p : Fin 512),
    let gone : State := { s.partnerSet p.val 0 (s.tabGet (partnerAddr p.val 0) &&& 0x7FFFFFFF#32) with partnerFlows := mapDel s.partnerFlows p.val }
    (s.conns = [] → (∀ u, u < 256 → bit (s.connRule u 0) 31 = false) → s.connect = s) ∧
    ((s.ticking = false ∨ delronParse msg = none) → exec (.delronAnnounce x msg) s = .next s) ∧
    (∀ m, s.ticking = true → delronParse msg = some m →
      ((m.type ≠ 0x01 ∨ m.sender = s.devId ∨ m.announce = none) → exec (.delronAnnounce x msg) s = .next s) ∧
      (∀ b, m.type = 0x01 → m.sender ≠ s.devId → m.announce = some b →
        b.sender = m.sender ∧ b.flows.length = numAt m.body 54 1 ∧ b.flows.length ≤ 64 ∧ b.ipA.toNat = numAt m.body 46 4 ∧ b.ipB.toNat = numAt m.body 50 4 ∧
        (s.partnerOf m.sender = some p.val →
          exec (.delronAnnounce x msg) s = .next ((s.partnerUpdate p.val x b (fld (s.tabGet (partnerAddr p.val 0)) 26 2)).connect)) ∧
        (s.partnerOf m.sender = none → s.partnerValid p.val = false → (∀ q, q < p.val → s.partnerValid q = true) →
          exec (.delronAnnounce x msg) s = .next ((s.partnerUpdate p.val x b 0).connect)) ∧
        (s.partnerOf m.sender = none → (∀ q, q < 512 → s.partnerValid q = true) →
          exec (.delronAnnounce x msg) s = .next { s with partnersRefused := s.partnersRefused + 1 })) ∧
      (m.type = 0x02 → s.delronHere .spi msg = true → exec (.delronLeave (.spi, msg)) s = .next (s.delronTake .spi).sendLeave) ∧
      (∀ ip port, m.type = 0x02 →
        (s.partnerOf m.sender = some p.val → exec (.delronLeave (.net ip port, msg)) s = .next gone.connect) ∧
        (s.partnerOf m.sender = none → exec (.delronLeave (.net ip port, msg)) s = .next s))) ∧
    (∀ b paths, paths < 4 → b.flows.length ≤ 64 →
      let t := s.partnerUpdate p.val x b paths
      t = { s with tab := t.tab, partnerFlows := t.partnerFlows, regs := t.regs, tokens := t.tokens, seq := t.seq } ∧ t.partnerValid p.val = true ∧
      t.tabGet (partnerAddr p.val 1) = hi32 b.sender ∧ t.tabGet (partnerAddr p.val 2) = lo32 b.sender ∧ t.tabGet (partnerAddr p.val 3) = b.ipA ∧
      t.tabGet (partnerAddr p.val 4) = b.ipB ∧ t.tabGet (partnerAddr p.val 5) = lo32 s.fc ∧ fld (t.tabGet (partnerAddr p.val 0)) 8 8 = b.flows.length ∧
      mapFind t.partnerFlows p.val = some b.flows ∧ (∀ q, q ≠ p.val → mapFind t.partnerFlows q = mapFind s.partnerFlows q) ∧
      (∀ a, (a < partnerAddr p.val 0 ∨ partnerAddr p.val 7 < a) → t.tabGet a = s.tabGet a) ∧
      (s.partnerValid p.val = false → t.rbit (regEVT_PEND 1) 31 = true ∧ t.reg (regEVT_PAYLOAD 63) = BitVec.ofNat 32 p.val)) ∧
    (s.ticking = true → s.partnerValid p.val = true → exec (.partnerTimeout p) s = .next gone.connect) ∧
    ((s.ticking = false ∨ s.partnerValid p.val = false) → exec (.partnerTimeout p) s = .next s) ∧
    (∃ q : BitVec 16,
      s.sendLeave = { s with freeCtr := s.freeCtr + 1, delronNet := some (0xEFC0B01A#32, 0xB01A#16, delronMsg s.devId 0x02 q []) } ∧
      (s.ticking = true → (s.rbit (regNET_PSTAT 0) 31 = true ∨ s.rbit (regNET_PSTAT 1) 31 = true) →
        exec .announceSend s = .next { s with freeCtr := s.freeCtr + 1, delronNet := some (0xEFC0B01A#32, 0xB01A#16, delronMsg s.devId 0x01 q s.announceBody) })) ∧
    ((s.ticking = false ∨ (s.rbit (regNET_PSTAT 0) 31 = false ∧ s.rbit (regNET_PSTAT 1) 31 = false)) → exec .announceSend s = .next s)

/-! ## Time and references (R272 to R297) -/

/-- The commands of a time base and its settings (R273, R274): a step moves the counter only from UNLOCKED and goes to LOCKED, and is refused elsewhere; qualify, lose, arm and grandmaster change the state as the table of R273 has them; the watchdog drops a LOCKED base; RATE is refused in FREERUN; EN = 0 holds the counter, unlocks the base and drops its anchor. Each change of state raises EV64 + t. The readings of the time bases (R272, R278 to R282, R296): a read of NS advances a counting base by the elapsed XO cycles at its rate, fires the alarms it passes and latches the seconds; before a command that carries no elapsed cycles a counting base has advanced by an open number of them; the anchor registers show the anchor in force; an anchor fixed at a tick stands at its second plus the ALIGN in force, and a written ALIGN is in force from the next whole second; a reached alarm fires once with EV68 + t; a captured edge is counted, and every DIV-th sets NEW, or OVR, with EV72. -/
def Obligations.TimeBases : Prop :=
  (∀ (s : State) (m : Master) (t : Fin 4) (v : Word),
     let st := regTIME_STAT t.val
     let go (u : State) (k : Nat) (changed : Bool) : State :=
       let w := (u.setRfld st 0 2 k).putRbit st 4 (decide (k = 0))
       let x : State := if k = 1 ∧ t.val ∉ w.timing.seen then { w with timing := { w.timing with seen := w.timing.seen ++ [t.val] } } else w
       if changed then x.raiseEvent (64 + t.val) (BitVec.ofNat 32 k) else x
     let drop (u : State) : State :=
       ({ u.putRbit st 7 false with anchors := mapDel u.anchors t.val, ancPend := mapDel u.ancPend t.val } : State).asrcAnchors
     let unlock (u : State) : State := go (drop u) 0 (decide (s.tbState t.val ≠ 0))
     let n := s.tbPass t
     (s.rbit (regTIME_CFG t.val) 31 = false → n = s) ∧
     (s.rbit (regTIME_CFG t.val) 31 = true → ∃ xo, n = ({ s with freeCtr := s.freeCtr + 2 } : State).tbAdvanced t xo) ∧
     (s.tbState t.val = 0 →
       let moved := n.setTb t (((n.tbCount.get t : Int) + (s.reg (regTIME_STEP_HI t.val) ++ s.reg (regTIME_STEP_LO t.val)).toInt * 2 ^ 32) % (tbModulus : Int)).toNat
       exec (.tbCmdStep t) s = .next (((go (moved.setRbit st 28) 1 true).alarmDue t 0).alarmDue t 1)) ∧
     (s.tbState t.val ≠ 0 → exec (.tbCmdStep t) s = .next (s.setRbit st 31)) ∧
     (s.tbState t.val = 2 → exec (.tbCmdQualify t) s = .next (go s 1 true)) ∧
     (s.tbState t.val = 1 → exec (.tbCmdQualify t) s = .next (s.putRbit st 5 false) ∧ exec (.tbCmdLose t) s = .next (go (s.putRbit st 5 false) 2 true)) ∧
     (s.tbState t.val ≠ 1 → exec (.tbCmdLose t) s = .next s) ∧
     exec (.tbCmdArm t) s = .next (unlock (s.putRbit st 5 false)) ∧
     (s.tbState t.val ≠ 1 → exec (.tbCmdGrandmaster t) s = .next (go (s.setRbit st 5) 1 true)) ∧
     (s.tbState t.val = 1 → exec (.tbCmdGrandmaster t) s = .next s) ∧
     (s.tbState t.val = 1 → s.rbit st 5 = false → s.rfld (regTIME_CFG t.val) 0 8 ≠ 0 →
       exec (.rateWatchdogTrip t) s = .next (go ((s.setRbit st 29).putRbit st 5 false) 2 true)) ∧
     (s.tbState t.val = 2 → exec (.tbRateWrite m t v) s = .next (s.setRbit st 30)) ∧
     (s.tbState t.val ≠ 2 → ∃ w, exec (.tbRateWrite m t v) s = .next (n.setReg (regTIME_RATE t.val) w) ∧
       w.toInt = max (-500000000) (min 500000000 v.toInt)) ∧
     (let a := regTIME_CFG t.val
      let store (u : State) : State :=
        let w := u.setReg a ((s.reg a &&& ~~~(rwBits a)) ||| (v &&& rwBits a))
        if fld v 29 2 = 3 then w.raiseEvent 5 (BitVec.ofNat 32 a) else w
      (bit v 31 = true → exec (.tbCfgWrite m t v) s = .next (store s)) ∧
      (bit v 31 = false → exec (.tbCfgWrite m t v) s = .next (unlock (store n)))) ∧
     (let w := s.alignWrite t v
      let sec := n.tbNs t / 1000000000
      w.alignFrom t.val sec = n.alignFrom t.val sec ∧
      (∀ k, sec < k → w.alignFrom t.val k = max (-500000000) (min 500000000 v.toInt)) ∧
      ((∀ e ∈ s.timing.aligns, e.1 ≠ t.val) → ∀ k, s.alignAt t.val k = max (-500000000) (min 500000000 (s.reg (regTIME_ALIGN t.val)).toInt)))) ∧
  (∀ (s : State) (m : Master) (t k : Fin 4) (j : Fin 2) (xo : BitVec 64) (sec : BitVec 48) (v : Word) (falling : Bool),
     let adv : Nat := (((xo.toNat : Int) * 1000000000 * 2 ^ 32 * (1000000000000 + (s.reg (regTIME_RATE t.val)).toInt)) / (49152000 * 1000000000000)).toNat
     let on := s.rbit (regTIME_CFG t.val) 31
     let cnt : Nat := if on then (s.tbCount.get t + adv) % tbModulus else s.tbCount.get t
     let capCfg := s.reg (regTIME_CAPCFG k.val)
     let div := max 1 (fld capCfg 0 16)
     let seen := (mapFind s.capCnt k.val).getD 0 + 1
     let ctrl (i : Nat) : Nat := regTIME_ALM_CTRL t.val i
     (∃ u, exec (.tbNsRead m t xo) s = .next u ∧
       u = { s with regs := u.regs, tbCount := u.tbCount, rdata := u.rdata, tokens := u.tokens, seq := u.seq, snap := { s.snap with pend := u.snap.pend } } ∧ u.tbCount.get t = cnt ∧
       (∀ o, o ≠ t → u.tbCount.get o = s.tbCount.get o) ∧ wmGet u.rdata m.val = BitVec.ofNat 32 (cnt / 2 ^ 32 % 1000000000) ∧
       u.reg (regTIME_SEC_LO t.val) = BitVec.ofNat 32 (cnt / 2 ^ 32 / 1000000000) ∧ u.reg (regTIME_SEC_HI t.val) = BitVec.ofNat 32 (cnt / 2 ^ 32 / 1000000000 / 2 ^ 32 % 65536) ∧
       (∀ i, i < 2 → on = true → s.rbit (ctrl i) 31 = true → s.alarmNs t.val i ≤ cnt / 2 ^ 32 → u.rbit (ctrl i) 31 = false ∧ u.rbit (ctrl i) 30 = true) ∧
       (∀ i, i < 2 → (on = false ∨ cnt / 2 ^ 32 < s.alarmNs t.val i) → u.reg (ctrl i) = s.reg (ctrl i))) ∧
     (∃ u, exec (.tbAncNsRead m t) s = .next u ∧ u = { s with regs := u.regs, rdata := u.rdata } ∧
       (∀ a, mapFind s.anchors t.val = some a → wmGet u.rdata m.val = BitVec.ofNat 32 (a.ns % 1000000000).toNat ∧
         u.reg (regTIME_ANC_SEC_LO t.val) = BitVec.ofNat 32 (a.ns / 1000000000 % 2 ^ 48).toNat ∧ u.reg (regTIME_ANC_FC_LO t.val) = BitVec.ofNat 32 a.frame ∧
         u.reg (regTIME_ANC_FC_HI t.val) = BitVec.ofNat 32 (a.frame / 2 ^ 32)) ∧
       (mapFind s.anchors t.val = none → wmGet u.rdata m.val = 0 ∧ u.reg (regTIME_ANC_FC_LO t.val) = 0)) ∧
     (s.ticking = true → on = true → s.tbState t.val = 1 → ∃ u, exec (.anchorEstablish t sec) s = .next u ∧ u = { s with ancPend := u.ancPend } ∧
       mapFind u.ancPend t.val = some { ns := (sec.toNat : Int) * 1000000000 + s.alignAt t.val sec.toNat, frame := s.now } ∧
       ∀ o, o ≠ t.val → mapFind u.ancPend o = mapFind s.ancPend o) ∧
     ((s.ticking = false ∨ on = false ∨ s.tbState t.val ≠ 1) → exec (.anchorEstablish t sec) s = .next s) ∧
     (s.rbit (ctrl j.val) 31 = true →
       let u := ((s.putRbit (ctrl j.val) 31 false).setRbit (ctrl j.val) 30).raiseEvent (68 + t.val) (BitVec.ofNat 32 j.val)
       s.alarmFires t.val j.val = if s.rbit regSNAP_CTRL 1 = true ∧ s.rfld regSNAP_CTRL 2 2 = t.val ∧ s.rfld regSNAP_CTRL 4 1 = j.val
         then { u with snap := { u.snap with pend := u.snap.pend ||| 4 } } else u) ∧
     (s.rbit (ctrl j.val) 31 = false → s.alarmFires t.val j.val = s) ∧
     (s.rbit (ctrl j.val) 31 = true → (on = true ∨ s.alarmNs t.val j.val ≤ s.tbNs t) → exec (.alarmFire t j) s =
       .next ((((s.tbReach t (s.alarmNs t.val j.val)).alarmFires t.val j.val).alarmDue t 0).alarmDue t 1)) ∧
     ((s.rbit (ctrl j.val) 31 = false ∨ (on = false ∧ s.tbNs t < s.alarmNs t.val j.val)) → exec (.alarmFire t j) s = .next s) ∧
     (s.alarmNs t.val j.val ≤ s.tbNs t → s.alarmDue t j.val = s.alarmFires t.val j.val) ∧ (s.tbNs t < s.alarmNs t.val j.val → s.alarmDue t j.val = s) ∧
     (let n := s.tbPass t
      (n.tbNs t < s.alarmNs t.val j.val → ∃ u, exec (.alarmCtrlWrite m t j v) s = .next u ∧ OnlyRegs [ctrl j.val] n u ∧
        u.rbit (ctrl j.val) 31 = bit v 31 ∧ u.rbit (ctrl j.val) 30 = (n.rbit (ctrl j.val) 30 && !bit v 30)) ∧
      (s.alarmNs t.val j.val ≤ n.tbNs t → bit v 31 = true → ∃ u, exec (.alarmCtrlWrite m t j v) s = .next u ∧
        u.rbit (ctrl j.val) 31 = false ∧ u.rbit (ctrl j.val) 30 = true ∧ u.reg (regEVT_PAYLOAD (68 + t.val)) = BitVec.ofNat 32 j.val)) ∧
     (bit capCfg 31 = true → bit capCfg 30 = falling →
       (seen < div → ∃ u, exec (.captureEdge k falling) s = .next u ∧ u = { s with capCnt := u.capCnt } ∧ mapFind u.capCnt k.val = some seen) ∧
       (div ≤ seen → ∃ u, exec (.captureEdge k falling) s = .next u ∧ mapFind u.capCnt k.val = none ∧ u.rbit regTIME_CAPSTAT k.val = true ∧
         (s.rbit regTIME_CAPSTAT k.val = true → u.rbit regTIME_CAPSTAT (4 + k.val) = true) ∧
         (let b : Fin 4 := fin 3 (fld capCfg 28 2)
          u.reg (regTIME_CAPNS k.val) = BitVec.ofNat 32 ((s.tbPass b).tbNs b % 1000000000)) ∧
         u.rbit (regEVT_PEND 2) 8 = true ∧ u.reg (regEVT_PAYLOAD 72) = BitVec.ofNat 32 k.val)) ∧
     ((bit capCfg 31 = false ∨ bit capCfg 30 ≠ falling) → exec (.captureEdge k falling) s = .next s) ∧
     (∃ u, exec (.capnsRead m k) s = .next u ∧ u = { s with regs := u.regs, rdata := u.rdata } ∧ wmGet u.rdata m.val = s.reg (regTIME_CAPNS k.val) ∧
       u.reg (regTIME_CAPSECLO k.val) = BitVec.ofNat 32 ((mapFind s.capSec k.val).getD 0) ∧
       u.reg (regTIME_CAPSECHI k.val) = BitVec.ofNat 32 ((mapFind s.capSec k.val).getD 0 / 2 ^ 32)))

/-- Reference slots (R283, R284): a present source with an admitted rate and an offset of at most 490 ppm starts to qualify, one at another rate sets RATEERR; a qualified slot becomes VALID, or waits to restore when it was valid before; an expired wait makes it VALID with EV76; a lost one becomes INVALID with its LOST bit; a missing or extra edge of an enabled slot with edges is counted; a configuration enables, disables or moves a slot. The selector then follows. -/
def Obligations.ReferenceSlots : Prop :=
  ∀ (s : State) (m : Master) (i : Fin 8) (hz : BitVec 18) (off v : Word),
    let st := regREF_SLOTSTAT i.val
    let a := regREF_SLOTCFG i.val
    let go (u : State) (k : Nat) : State := u.setRfld st 29 3 k
    let lost (u : State) : State :=
      (go (if s.slotState i.val = 3 ∨ s.slotState i.val = 4 then u.setRbit regREF_HIST (24 + i.val) else u) 1).setRfld st 16 12 0
    (s.slotState i.val = 1 → s.slotSource i.val = true →
      (s.slotType i.val ≠ 0 → s.slotRateOk i.val hz.toNat = false → exec (.sourcePresent i hz off) s = .next (s.setRbit st 28)) ∧
      (s.slotType i.val ≠ 0 → s.slotRateOk i.val hz.toNat = true →
        let u := (s.putRbit st 28 false).setReg (regREF_SLOTOFF i.val) off
        exec (.sourcePresent i hz off) s = .next (if off.toInt.natAbs ≤ 490000000 then go u 2 else u)) ∧
      (s.slotType i.val = 0 →
        let rate := s.reg (regTIME_RATE (s.slotIndex i.val % 4))
        ∃ t, exec (.sourcePresent i hz off) s = .next t ∧ OnlyRegs [st, regREF_SLOTOFF i.val] s t ∧ t.reg (regREF_SLOTOFF i.val) = rate ∧
          t.slotState i.val = (if rate.toInt.natAbs ≤ 490000000 then 2 else 1))) ∧
    ((s.slotState i.val ≠ 1 ∨ s.slotSource i.val = false) → exec (.sourcePresent i hz off) s = .next s) ∧
    (∀ n, s.slotType i.val = 2 →
      (s.slotRateOk i.val n = true ↔ ∃ f ∈ [32000, 48000, 96000, 192000], f * 99 ≤ n * 100 ∧ n * 100 ≤ f * 101)) ∧
    (∀ n, s.slotType i.val = 3 → (s.slotRateOk i.val n = true ↔ n = 1)) ∧
    (s.slotState i.val = 2 →
      let w := min 3600 (s.rfld (regREF_SLOTTMR i.val) 16 12)
      (i.val ∈ s.slotSeen → w ≠ 0 → exec (.qualificationTimerExpiry i) s = .next ((go s 3).setRfld st 16 12 w).refEval) ∧
      (i.val ∈ s.slotSeen → w = 0 → exec (.qualificationTimerExpiry i) s = .next (go s 4).refEval) ∧
      (i.val ∉ s.slotSeen → exec (.qualificationTimerExpiry i) s = .next (go { s with slotSeen := s.slotSeen ++ [i.val] } 4).refEval)) ∧
    (s.slotState i.val = 3 →
      (s.rfld st 16 12 ≤ 1 → exec (.wtrExpiry i) s = .next ((((go s 4).setRfld st 16 12 0).refEval).raiseEvent 76 (BitVec.ofNat 32 i.val))) ∧
      (1 < s.rfld st 16 12 → exec (.wtrExpiry i) s = .next s)) ∧
    (s.slotCanLose i.val = true → exec (.slotLost i) s = .next (lost s).refEval) ∧
    (s.slotCanLose i.val = false → exec (.slotLost i) s = .next s) ∧
    (s.slotCanLose i.val = true ↔ 2 ≤ s.slotState i.val ∧ (s.slotType i.val ≠ 0 ∨ s.slotSource i.val = false ∨ 495000000 < (s.slotOffset i.val).natAbs)) ∧
    (s.slotState i.val ≠ 0 → 1 ≤ s.slotType i.val → s.slotType i.val ≤ 4 → exec (.phaseGlitch i) s = .next (s.setReg st (satAdd (s.reg st) 0 8 1))) ∧
    ((s.slotState i.val = 0 ∨ s.slotType i.val = 0 ∨ 4 < s.slotType i.val) → exec (.phaseGlitch i) s = .next s) ∧
    (let u := s.regStore a v
     let same : Prop := fld (s.reg a) 24 7 = fld v 24 7
     (bit v 31 = false → s.rbit a 31 = false → same → exec (.slotCfgWrite m i v) s = .next ((go u 0).setRfld st 16 12 0).refEval) ∧
     (bit v 31 = false → (s.rbit a 31 = true ∨ ¬ same) → exec (.slotCfgWrite m i v) s = .next (((go u 0).setRfld st 16 12 0).putRbit st 28 false).refEval) ∧
     (bit v 31 = true → s.rbit a 31 = false → exec (.slotCfgWrite m i v) s = .next ((go u 1).putRbit st 28 false).refEval) ∧
     (bit v 31 = true → s.rbit a 31 = true → same → exec (.slotCfgWrite m i v) s = .next u.refEval) ∧
     (bit v 31 = true → s.rbit a 31 = true → ¬ same → exec (.slotCfgWrite m i v) s = .next ((lost u).putRbit st 28 false).refEval))

/-- The choice among candidates (R284, R287): the chosen slot is one of them, none has a lower rank, none of its rank has a nearer offset, and none of equal rank and distance has a lower number; only slots in WTR or VALID are candidates, and only the forced one while FORCE_EN = 1. What the selector does after a change of the slots (R288, R291): it stays in FAULT; SUSPEND takes it to FREERUN; a candidate takes it from FREERUN or HOLDOVER to ACQUIRING on the chosen slot; a lost slot gives way to the chosen candidate, to HOLDOVER on the average, or to FREERUN on REF.FREE; LOCKED with REVERT follows a VALID slot of lower rank. A pair of slots stops disagreeing when one of them leaves the candidates (R290). A change of state raises EV73 and a change of slot EV74. -/
def Obligations.SelectorFollows : Prop :=
  (∀ s : State,
     let d (i : Nat) : Nat := (s.slotOffset i - s.refTarget).natAbs
     (∀ i, i ∈ s.candidates ↔ i < 8 ∧ (s.slotState i = 3 ∨ s.slotState i = 4) ∧ (s.rbit regREF_CTRL 30 = true → s.rfld regREF_CTRL 0 3 = i)) ∧
     (s.candidates = [] → s.chooseSlot s.candidates = none) ∧
     (∀ i, s.chooseSlot s.candidates = some i → i ∈ s.candidates ∧ ∀ j ∈ s.candidates,
       s.slotRank i ≤ s.slotRank j ∧ (s.slotRank i = s.slotRank j → d i ≤ d j ∧ (d i = d j → i ≤ j))) ∧
     (s.candidates ≠ [] → (s.chooseSlot s.candidates).isSome = true)) ∧
  (∀ s : State, let t := s.refEval
     let suspended := s.rbit regREF_CTRL 29
     let on (t : State) (i : Nat) : Prop := t.refState = 1 ∧ t.refSel = some i ∧
       (s.refState ≠ 1 → t.reg (regEVT_PAYLOAD 73) = 1 ∧ t.rbit (regEVT_PEND 2) 9 = true) ∧
       (s.refSel ≠ some i → t.reg (regEVT_PAYLOAD 74) = BitVec.ofNat 32 i ∧ t.rbit (regEVT_PEND 2) 10 = true ∧
         t.reg regREF_SWITCH_CNT = satAdd (s.reg regREF_SWITCH_CNT) 0 32 1)
     (s.refState = 4 → t = s.disFollow) ∧
     (s.disFollow = { s with disPairs := s.disPairs.filter fun k => s.slotCandidate (k / 8) && s.slotCandidate (k % 8) }) ∧
     (s.refState ≠ 4 → suspended = true → t.refState = 0 ∧ t.refSel = none ∧ (s.refState ≠ 0 → t.reg regREF_DCO = s.reg regREF_FREE)) ∧
     (suspended = false → (s.refState = 0 ∨ s.refState = 3) →
       (∀ i, i < 8 → s.chooseSlot s.candidates = some i → on t i) ∧ (s.candidates = [] → t = s.disFollow)) ∧
     (suspended = false → (s.refState = 1 ∨ s.refState = 2) → ∀ k, s.refSel = some k →
       (s.slotCandidate k = false →
         (∀ i, i < 8 → s.chooseSlot s.candidates = some i → on t i) ∧
         (s.candidates = [] → 0 < s.hoCount → t.refState = 3 ∧ t.refSel = none ∧ t.reg regREF_DCO = s.reg regREF_HOAVG ∧ t.rbit (regFAULT_CAUSE 1) 16 = true) ∧
         (s.candidates = [] → s.hoCount = 0 → t.refState = 0 ∧ t.refSel = none ∧ t.reg regREF_DCO = s.reg regREF_FREE)) ∧
       (s.slotCandidate k = true →
         ((s.refState = 1 ∨ s.rbit regREF_CTRL 31 = false ∨ s.rbit regREF_CTRL 30 = true ∨ s.revertTargets k = []) → t = s.disFollow) ∧
         (∀ i, i < 8 → s.refState = 2 → s.rbit regREF_CTRL 31 = true → s.rbit regREF_CTRL 30 = false → s.chooseSlot (s.revertTargets k) = some i → on t i))))

/-- Lock, fault and control of the selector (R286 to R292): a phase error inside the window locks an acquired slot and realigns the generators, one beyond four windows takes a locked one back to ACQUIRING; a cause of R289, or a loop that may have held the control word at its limit, goes to FAULT without a slot, and its end to FREERUN; a write of REF.CTRL is followed at once; REF.FREE is clamped, and the control word follows it in FREERUN; each second of LOCKED is recorded, the slot offsets are taken, and a slot beyond 495 ppm becomes INVALID. The pulse generators (R294, R297): a generator is enabled or realigned by its configuration, aligns once its source is present, with ALIGNED and REALIGNED, and waits with WAIT from the request until then; a disabled one has no alignment; its pin is at high impedance while no frame is sent, carries edges once aligned, and is at its inactive level else (R295). -/
def Obligations.SelectorAndGenerators : Prop :=
  (∀ (s : State) (m : Master) (err v mean : Word) (whole : Bool) (offs : List Word),
     (s.refState = 1 → s.refSel.isSome = true → err.toInt.natAbs ≤ s.lockWindow →
       exec (.lockAchieved err) s = .next (((s.setReg regREF_PHERR err).refGo 2).genRequestAll).refEval ∧
       (((s.setReg regREF_PHERR err).refGo 2).genRequestAll).refState = 2) ∧
     (s.refState = 2 → 4 * s.lockWindow < err.toInt.natAbs →
       ∃ t, exec (.lockLost err) s = .next t ∧ t.refState = 1 ∧ t.refSel = s.refSel ∧ t.rbit regREF_HIST 2 = true ∧ t.reg regREF_PHERR = err ∧
         t.rbit regREF_HOCNT 31 = true ∧ t.reg (regEVT_PAYLOAD 73) = 1) ∧
     (s.refState ≠ 4 → (s.refCause = true ∨ s.refLoop = true) → ∃ t, exec .refFault s = .next t ∧ t.refState = 4 ∧ t.refSel = none ∧ t.rbit (regFAULT_CAUSE 1) 15 = true ∧
       t.reg regREF_DCO = (if 0 < s.hoCount then s.reg regREF_HOAVG else s.reg regREF_FREE)) ∧
     ((s.refState = 4 ∨ (s.refCause = false ∧ s.refLoop = false)) → exec .refFault s = .next s) ∧
     (s.refCause = true ↔ s.rbit regCLK_STATUS 21 = true ∨ s.rbit (regFAULT_CAUSE 1) 12 = true ∨ (s.refLoop = false ∧ (s.reg regREF_DCO).toInt.natAbs = 500000000)) ∧
     (s.refState = 4 → s.refCause = false → exec .refFaultClear s = .next s.toFreerun.refEval ∧ s.toFreerun.refState = 0 ∧ s.toFreerun.refSel = none ∧
       s.toFreerun.reg regREF_DCO = s.reg regREF_FREE) ∧
     (s.refCause = true → exec .refFaultClear s = .next s) ∧
     (let u := s.setReg regREF_CTRL ((s.reg regREF_CTRL &&& ~~~(rwBits regREF_CTRL)) ||| (v &&& rwBits regREF_CTRL))
      exec (.refCtrlWrite m v) s = .next u.refEval) ∧
     (∃ w : Word, w.toInt = max (-500000000) (min 500000000 v.toInt) ∧
       (s.refState = 0 → exec (.refFreeWrite m v) s = .next ((s.setReg regREF_FREE w).setReg regREF_DCO w)) ∧
       (s.refState ≠ 0 → exec (.refFreeWrite m v) s = .next (s.setReg regREF_FREE w))) ∧
     (∃ t, exec (.selectorSecond mean whole offs) s = .next t ∧ t.refSec = s.refSec + 1 ∧
       (whole = true → s.refState = 2 → t.refMeans = ((s.refSec, mean.toInt) :: s.refMeans).take 1280) ∧
       ((whole = false ∨ s.refState ≠ 2) → t.refMeans = s.refMeans.take 1280) ∧
       (∀ i, i < 8 →
         let off : Int := if s.slotType i = 0 then (s.reg (regTIME_RATE (s.slotIndex i % 4))).toInt else (nthD offs i 0).toInt
         (s.slotState i < 2 → t.slotState i = s.slotState i) ∧
         (2 ≤ s.slotState i → (t.reg (regREF_SLOTOFF i)).toInt = off ∧
           (off.natAbs ≤ 495000000 → t.slotState i = s.slotState i) ∧ (495000000 < off.natAbs → t.slotState i = 1)) ∧
         (s.slotState i = 3 → off.natAbs ≤ 495000000 → t.rfld (regREF_SLOTSTAT i) 16 12 = max 1 (s.rfld (regREF_SLOTSTAT i) 16 12 - 1))))) ∧
  (∀ (s : State) (m : Master) (g : Fin 4) (v : Word),
     let cfg := s.reg (regREF_OUTCFG g.val)
     let st := regREF_OUTSTAT g.val
     let src := if 5 ≤ fld cfg 28 3 then 0 else fld cfg 28 3
     let done (u : State) : State := { u with genReq := u.genReq.filter fun x => decide (x ≠ g.val) }
     let u := s.regStore (regREF_OUTCFG g.val) v
     let present : Bool := decide (src ≠ 0) || decide (s.tbState (fld cfg 26 2) = 1)
     (bit v 31 = false → exec (.realign m g v) s = .next (done ((u.putRbit st 31 false).putRbit st 30 false)).genPins) ∧
     (bit v 31 = true → bit cfg 31 = true → bit v 24 = false → exec (.realign m g v) s = .next u.genPins) ∧
     (bit v 31 = true → (bit cfg 31 = false ∨ bit v 24 = true) → ∃ t : State, exec (.realign m g v) s = .next t.genPins ∧ t = { u with genReq := t.genReq, regs := t.regs } ∧
       g.val ∈ t.genReq ∧ (∀ x, x ≠ g.val → (x ∈ t.genReq ↔ x ∈ s.genReq)) ∧ OnlyRegs [st] u { t with genReq := u.genReq } ∧
       t.rbit st 30 = (u.rbit st 30 || !u.genSource g.val)) ∧
     (g.val ∈ s.genReq →
       (present = true → exec (.generatorAlign g true) s = .next (done (((s.setRbit st 31).putRbit st 30 false).setRbit st 29)).genPins) ∧
       (present = false → exec (.generatorAlign g true) s = .next (s.setRbit st 30)) ∧
       exec (.generatorAlign g false) s = .next (s.setRbit st 30)) ∧
     (g.val ∉ s.genReq → exec (.generatorAlign g true) s = .next s ∧ exec (.generatorAlign g false) s = .next s) ∧
     (∃ d, s.genPins.timing.pins[g.val]? = some d ∧
       ((s.ticking = false ∨ s.ownCur = false) → d = .highZ) ∧
       (s.ticking = true → s.ownCur = true →
         (bit cfg 31 = true → s.rbit st 31 = true → d = .edges) ∧ ((bit cfg 31 = false ∨ s.rbit st 31 = false) → d = .level (bit cfg 25)))) ∧
     s.genPins = { s with timing := s.genPins.timing } ∧ s.genPins.timing = { s.timing with pins := s.genPins.timing.pins })

/-! ## Clocks, power and resets (R298 to R317, R334) -/

/-- Module resets (R333, R334, R343, R361, R395): a reset by power good, by RESET_N or by the keyed GLOBAL.RESET, and the fall of the rails, bring every part of the module to its reset value but for the flash, the fuses, the supply and the waiting commands; RSTCAUSE names the cause, KEYHASH shows the fuses, and RST_OUT_N is low until the release. Any other write of GLOBAL.RESET does nothing. The test access port (R332, R396): held, by TRST_N, the debug lock or missing power, it is at reset whatever its pins do; five edges with TMS at 1 reset it; from reset it shifts IDCODE out, bit 0 first; the reset of the module leaves it alone. Its states are taken from IEEE 1149.1, which the rule names (log entry 96). -/
def Obligations.ModuleResets : Prop :=
  ∀ (s : State) (m : Master) (v : Word) (bulk : BitVec 10) (dc : Bool), s.fuseKey.length = 8 →
    let shown : List Nat := regPWR_STATUS :: regPAIR_STATUS :: regFAULT_CAUSE 1 :: regGLOBAL_RSTCAUSE :: (List.range 8).map regBOOT_KEYHASH
    let atReset (t : State) : Prop :=
      t = { State.reset with regs := t.regs, flash := s.flash, fuseKey := s.fuseKey, fuseLock := s.fuseLock, railsUp := t.railsUp, testPort := t.testPort, freeCtr := s.freeCtr, pending := s.pending } ∧
      (∀ a, a ∉ shown → t.reg a = State.reset.reg a) ∧ (∀ i w, i < 8 → s.fuseKey[i]? = some w → t.reg (regBOOT_KEYHASH i) = w)
    let warm (t : State) : Prop := atReset t ∧ t.railsUp = s.railsUp ∧ t.testPort = s.testPort ∧ t.reg regPWR_STATUS = s.reg regPWR_STATUS &&& 0x880003FF#32 ∧
      t.reg regPAIR_STATUS = s.reg regPAIR_STATUS &&& 0x20000000#32 ∧ t.rbit (regFAULT_CAUSE 1) 14 = s.rbit regPWR_STATUS 31
    (fld v 16 16 = 0xB01A → bit v 0 = true → ∃ t, exec (.globalResetWrite m v) s = .next t ∧ warm t ∧ t.reg regGLOBAL_RSTCAUSE = 4) ∧
    ((fld v 16 16 ≠ 0xB01A ∨ bit v 0 = false) → exec (.globalResetWrite m v) s = .next s) ∧
    (∃ t, exec .resetPin s = .next t ∧ warm t ∧ t.reg regGLOBAL_RSTCAUSE = 2 ∧ t.rstOut = false) ∧
    (s.railsUp = false → ∃ t, exec (.powerGood bulk dc) s = .next t ∧ atReset t ∧ t.railsUp = true ∧ t.testPort = TestPort.reset ∧ t.reg regGLOBAL_RSTCAUSE = 1 ∧
      t.rfld regPWR_STATUS 0 10 = bulk.toNat ∧ t.rbit regPWR_STATUS 27 = dc ∧ t.rbit (regFAULT_CAUSE 1) 14 = false) ∧
    (s.railsUp = true → exec (.powerGood bulk dc) s = .next s) ∧
    (∃ t, exec .railsFall s = .next t ∧ atReset t ∧ t.railsUp = false ∧ t.testPort = TestPort.reset ∧ t.dram = [] ∧ t.reg regPWR_STATUS = 0 ∧ t.rbit (regFAULT_CAUSE 1) 14 = false) ∧
    (s.railsUp = true → s.supState ≠ 0 → exec .rstOutRise s = .next { s with rstOut := true }) ∧
    (s.railsUp = false ∨ s.supState = 0 → exec .rstOutRise s = .next s) ∧
    (∀ trst tms tdi pins, (trst = false ∨ s.railsUp = false ∨ s.rbit regBOOT_STATUS 25 = true) →
      s.tapEdge trst tms tdi pins = { s with testPort := TestPort.reset } ∧ ((s.railsUp = false ∨ s.rbit regBOOT_STATUS 25 = true) → s.tdo = none)) ∧
    (s.tapLocked = false → s.railsUp = true → ∀ tdi pins,
      let edge (u : State) (tms : Bool) : State := u.tapEdge true tms tdi pins
      ([true, true, true, true, true].foldl edge s).testPort = TestPort.reset ∧
      (s.testPort = TestPort.reset → ∀ k, k < 32 →
        (([false, true, false, false] ++ List.replicate k false).foldl edge s).tdo = some ((0x1B09A0C1 : Nat).testBit k)))

/-- The clock supervisor (R299, R301 to R304, R309, R319): the release of the reset starts it on the limp clock in XO_WAIT; a qualified XO starts the PLLs; their lock brings RUN on the normal clocks with the early dividers and spread; the timers retry the XO or end in LIMP with source 41 or 42; a pending multiplexer change escapes with EV77 code 3, to the limp clock where its new clock stopped, which is open for a change to the normal clocks (log entry 2); SLOW is set on the limp clock (R135), and NOIMAGE stays; a lost XO goes back to XO_WAIT with every time base ARMED and the selector in FAULT, and its return then ends in LIMP. Losses of single PLLs (R289, R304) in RUN: the CPLL coasts with EV78 and source 43; the APLL takes the selector to FAULT with source 44, which ends when it relocks from REF.FREE; the DRAM PLL stops the DRAM with source 45. Dividers and spread (R299, R300): a write of CLK.DIV holds the master ports until the change, which brings the written dividers into force; CLK.SSC takes the written value; a reserved value raises EV5. -/
def Obligations.ClocksAndDividers : Prop :=
  (∀ (s : State) (roleGnd : Bool),
     let cs := regCLK_STATUS
     let limp (t : State) : Prop := t.supState = 4 ∧ t.rbit cs 21 = true ∧ t.rbit regRIDGE_CTRL 0 = true ∧ t.rbit regPAIR_STATUS 30 = false ∧
       t.bootStage = (if s.bootStage = 7 then 7 else 8) ∧ t.refState = 4
     let source (t : State) (k : Nat) : Prop := t.rbit (regFAULT_CAUSE 1) (k % 32) = true ∧ (s.rbit (regFAULT_CAUSE 1) (k % 32) = false → t.faultLatched k = true)
     (s.railsUp = true → s.supState = 0 → s.modeCur = 0 →
       ∃ t, exec (.powerOnResetRelease roleGnd) s = .next t ∧ t = { s with regs := t.regs, testPort := if s.fuseLock then TestPort.reset else s.testPort } ∧ t.supState = 1 ∧ t.rfld cs 27 2 = 0 ∧ t.rbit cs 21 = true ∧
         t.rbit regRIDGE_CTRL 0 = true ∧ t.rbit regPAIR_STATUS 29 = roleGnd ∧ t.bootStage = 1 ∧ t.rbit regBOOT_STATUS 25 = s.fuseLock ∧
         (t.rbit regBOOT_STATUS 26 = true ↔ ∀ w ∈ s.fuseKey, w = 0)) ∧
     (s.supState = 1 → s.xoFromRun = false → exec .xoQualified s = .next ((s.setRbit cs 26).setRfld cs 29 3 2)) ∧
     (s.supState = 1 → s.xoFromRun = true → ∃ t, exec .xoQualified s = .next t ∧ limp t ∧ t.rbit cs 26 = true) ∧
     (s.supState = 1 → s.rfld cs 27 2 < 3 →
       exec .xoWaitTimeout s = .next (((s.setRfld cs 27 2 (s.rfld cs 27 2 + 1)).setRbit regCLK_HIST 3).raiseEvent 77 1)) ∧
     (s.supState = 1 → s.rfld cs 27 2 = 3 → ∃ t, exec .xoWaitTimeout s = .next t ∧ limp t ∧ source t 41 ∧ t.reg (regEVT_PAYLOAD 77) = 2) ∧
     (s.supState = 2 → ∃ t, exec .pllLock s = .next t ∧
       t = { s with regs := t.regs, divNow := t.reg regCLK_DIV, divHold := false, sup := { s.sup with muxDue := some true } } ∧ t.supState = 3 ∧
       t.rbit cs 25 = true ∧ t.rbit cs 23 = true ∧ t.rbit cs 22 = true ∧ t.rbit cs 21 = false ∧
       t.reg regCLK_DIV = s.earlyDiv &&& rwBits regCLK_DIV ∧ t.reg regCLK_SSC = s.earlySsc &&& rwBits regCLK_SSC) ∧
     (s.supState = 2 → ∃ t, exec .pllStartTimeout s = .next t ∧ limp t ∧ source t 42 ∧ t.reg (regEVT_PAYLOAD 77) = 5) ∧
     (s.sup.muxDue = none → exec .muxEscape s = .next s) ∧
     (∀ normal, s.sup.muxDue = some normal →
       let u := ({ s with sup := { s.sup with muxDue := none } } : State).setRbit regCLK_HIST 5
       let v := u.draw.2
       let stopped := bit u.draw.1 0
       (normal = false → exec .muxEscape s = .next (u.raiseEvent 77 3)) ∧
       (normal = true → stopped = false → exec .muxEscape s = .next (v.raiseEvent 77 3)) ∧
       (normal = true → stopped = true → ∃ t, exec .muxEscape s = .next t ∧ t = { v with regs := t.regs, tokens := t.tokens, seq := t.seq } ∧
         t.rbit cs 21 = true ∧ t.rbit regRIDGE_CTRL 0 = true ∧ t.rbit regCLK_HIST 5 = true ∧ t.reg (regEVT_PAYLOAD 77) = 3)) ∧
     (s.supState = 3 → ∃ t, exec .xoLoss s = .next t ∧ t.supState = 1 ∧ t.rfld cs 27 2 = 0 ∧ t.rbit cs 26 = false ∧ t.rbit cs 25 = false ∧ t.rbit cs 24 = true ∧
       t.rbit cs 23 = false ∧ t.rbit cs 22 = false ∧ t.rbit cs 21 = true ∧ t.rbit regRIDGE_CTRL 0 = true ∧ t.rbit regCLK_HIST 4 = true ∧ t.rbit regCLK_HIST 2 = true ∧
       t.rbit regCLK_HIST 1 = true ∧ t.rbit regCLK_HIST 0 = true ∧ t.sup.muxDue = some false ∧ t.ticking = false ∧
       t.xoFromRun = true ∧ t.refState = 4 ∧ source t 41 ∧ t.reg (regEVT_PAYLOAD 77) = 4 ∧ t.reg (regEVT_PAYLOAD 78) = 0 ∧
       (∀ i, i < 4 → t.tbState i = 0 ∧ t.rbit (regTIME_STAT i) 4 = true))) ∧
  (∀ s : State, s.supState = 3 →
     let cs := regCLK_STATUS
     (s.rbit cs 25 = true →
       exec .cpllLoss s = .next (((((s.putRbit cs 25 false).setRbit cs 24).setRbit regCLK_HIST 2).causeBegins 43).raiseEvent 78 0)) ∧
     (s.rbit cs 25 = false → exec .cpllLoss s = .next s) ∧
     (s.rbit cs 23 = true → ∃ t, exec .apllLoss s = .next t ∧ t.rbit cs 23 = false ∧ t.rbit regCLK_HIST 1 = true ∧ t.refState = 4 ∧ t.rbit (regFAULT_CAUSE 1) 12 = true ∧
       (s.rbit (regFAULT_CAUSE 1) 12 = false → t.faultLatched 44 = true)) ∧
     (s.rbit cs 23 = false → exec .apllLoss s = .next s ∧ exec .apllRelock s =
       .next (((s.setRbit cs 23).setReg regREF_DCO (s.reg regREF_FREE)).putRbit (regFAULT_CAUSE 1) 12 false)) ∧
     (s.rbit cs 23 = true → exec .apllRelock s = .next s) ∧
     (s.rbit cs 22 = true → exec .dramPllLoss s = .next (((s.putRbit cs 22 false).setRbit regCLK_HIST 0).causeBegins 45) ∧
       ∃ t, exec .dramPllLoss s = .next t ∧ t.dramOn = false ∧ t.dram = s.dram) ∧
     (s.rbit cs 22 = false → exec .dramPllLoss s = .next s)) ∧
  (∀ (s : State) (m : Master) (v : Word),
     let put (a : Nat) : State := s.setReg a ((s.reg a &&& ~~~(rwBits a)) ||| (v &&& rwBits a))
     let bad (a : Nat) : Bool := s.reservedReg a v
     exec (.clkDivWrite m v) s = .next { (if bad regCLK_DIV then (put regCLK_DIV).raiseEvent 5 (BitVec.ofNat 32 regCLK_DIV) else put regCLK_DIV) with divHold := true } ∧
     exec (.sscWrite m v) s = .next (if bad regCLK_SSC then (put regCLK_SSC).raiseEvent 5 (BitVec.ofNat 32 regCLK_SSC) else put regCLK_SSC) ∧
     (s.divHold = true → exec .dividerChange s = .next { s with divNow := s.reg regCLK_DIV, divHold := false }) ∧
     (s.divHold = false → exec .dividerChange s = .next s))

/-- Requests of GLOBAL.MODE (R305, R314): a write of REQ starts a transition out of the mode in force, waits for the end of one under way, or is refused for the reserved mode and while the module holds BATTEN; a return to RUN from SLEEP is taken at once with EV82; MAINT takes its value but is refused while the module holds BATTEN; in DEEP nothing is written. Entries and wakes (R305 to R308): after the fade SLEEP is entered with EV82, stopped consumers keep one member, and a wake that came meanwhile leaves it again; DEEP is entered with a LEAVE on both paths, DRAM, flash, fuses and wake settings kept and every block at reset; an enabled wake ends SLEEP, whose stopped blocks restart at the next tick, starts the module up out of DEEP with its cause, turns a fade-out back, or is latched until the entry under way is complete; an expired LPO timer raises EV81, but for DEEP, and is an active wake source. -/
def Obligations.PowerModes : Prop :=
  (∀ (s : State) (m : Master) (v : Word) (c : Instr), (c = .modeReqWrite m v ∨ c = .maintWrite m v) →
     let a := regGLOBAL_MODE
     let r := fld v 0 2
     let cur := s.modeCur
     let batten := s.rbit regPAIR_STATUS 30
     (cur = 2 → exec c s = .next s) ∧
     (cur ≠ 2 → ∃ t, exec c s = .next t ∧
       ((bit v 16 = false ∨ batten = false) → t.rbit a 16 = bit v 16) ∧
       (bit v 16 = true → batten = true → t.rbit a 16 = s.rbit a 16 ∧ t.rbit a 8 = true) ∧
       (s.modeStep.isSome = true → t.modeStep = s.modeStep ∧ t.modeQueued = some r ∧ t.rfld a 0 2 = r ∧ t.modeCur = cur) ∧
       (s.modeStep = none → t.modeQueued = s.modeQueued ∧
         ((r = 3 ∨ (r ≠ cur ∧ batten = true)) → t.rbit a 8 = true ∧ t.rfld a 0 2 = cur ∧ t.modeCur = cur ∧ t.modeStep = none) ∧
         (r ≠ 3 → (r = cur ∨ batten = false) → t.rfld a 0 2 = r ∧
           (bit v 8 = true → (bit v 16 = false ∨ batten = false) → t.rbit a 8 = false) ∧
           (r = cur → t.modeStep = none ∧ t.modeCur = cur) ∧
           (r ≠ cur → r ≠ 0 → t.modeStep = some r ∧ t.modeCur = cur) ∧
           (r ≠ cur → r = 0 → t.modeStep = none ∧ t.modeCur = 0 ∧ t.sup.exitDue = true ∧ t.reg (regEVT_PAYLOAD 82) = 0 ∧ t.rbit (regEVT_PEND 2) 18 = true))))) ∧
  (∀ (s : State) (i : Fin 8),
     let a := regGLOBAL_MODE
     (s.modeStep = some 1 → s.ticking = true → s.fadedOut = true → s.modeQueued = none →
       ∃ t, exec .sleepEntry s = .next t ∧ t.modeStep = none ∧ t.wakePend = false ∧ t.rfld a 0 2 = t.modeCur ∧ t.modeCur = (if s.wakePend then 0 else 1) ∧
         t.reg (regEVT_PAYLOAD 82) = BitVec.ofNat 32 t.modeCur ∧ t.rbit (regEVT_PEND 2) 18 = true ∧
         t.sup.exitDue = s.wakePend ∧
         (s.wakePend = false → (t.gatedOff 8 = true → t.xents = []) ∧ (t.gatedOff 13 = true → t.taps = []) ∧
           (∀ e, e ∈ t.sels ↔ e ∈ s.sels ∧ t.selStopped e.1 = false))) ∧
     ((s.modeStep ≠ some 1 ∨ s.ticking = false ∨ s.fadedOut = false) → exec .sleepEntry s = .next s) ∧
     (s.modeStep = some 2 → s.ticking = true → s.fadedOut = true →
       ∃ t, exec .deepEntry s = .next t ∧ t.courses = State.reset.courses ∧ t.tab = State.reset.tab ∧ t.dram = s.dram ∧ t.fuseKey = s.fuseKey ∧
         t.fuseLock = s.fuseLock ∧ t.railsOff = s.railsOff ∧ t.ticking = false ∧ t.modeStep = none ∧ t.reg regPWR_LPOTMR = s.reg regPWR_LPOTMR ∧
         (s.wakePend = false → t.modeCur = 2 ∧ t.reg regPWR_WAKE = s.reg regPWR_WAKE ∧ t.rstOut = s.rstOut ∧
           ∃ q, t.delronNet = some (0xEFC0B01A#32, 0xB01A#16, delronMsg s.devId 0x02 q [])) ∧
         (s.wakePend = true → t.modeCur = 0 ∧ t.rfld regPWR_WAKE 16 12 = s.rfld regPWR_WAKE 16 12 ∧ t.reg regGLOBAL_RSTCAUSE = 8 ∧ t.rbit regBOOT_STATUS 24 = true)) ∧
     ((s.modeStep ≠ some 2 ∨ s.ticking = false ∨ s.fadedOut = false) → exec .deepEntry s = .next s) ∧
     (s.rbit regPWR_WAKE i.val = true → s.modeStep = none → s.modeCur = 1 → ∃ t, exec (.wake (.tl i)) s = .next t ∧ t.modeCur = 0 ∧ t.rfld a 0 2 = 0 ∧
       t.sup.exitDue = true ∧ t.rfld regPWR_WAKE 16 12 = 2 ^ i.val ∧ t.reg (regEVT_PAYLOAD 82) = 0 ∧ t.rbit (regEVT_PEND 2) 18 = true) ∧
     (s.rbit regPWR_WAKE i.val = true → s.modeStep = none → s.modeCur = 2 → ∃ t, exec (.wake (.tl i)) s = .next t ∧ t.dram = s.dram ∧ t.flash = s.flash ∧
       t.fuseKey = s.fuseKey ∧ t.railsOff = s.railsOff ∧ t.pending = s.pending ∧ t.courses = State.reset.courses ∧
       t.reg regPWR_LPOTMR = s.reg regPWR_LPOTMR ∧ t.reg regHVIO_TLSTAT = s.reg regHVIO_TLSTAT ∧
       t.modeCur = 0 ∧ t.rfld regPWR_WAKE 16 12 = 2 ^ i.val ∧ t.reg regGLOBAL_RSTCAUSE = 8 ∧ t.rbit regBOOT_STATUS 24 = true) ∧
     (∀ r, s.rbit regPWR_WAKE i.val = true → s.modeStep = some r →
       (s.fadedOut = true → ∃ t, exec (.wake (.tl i)) s = .next t ∧ t = { s with regs := t.regs, wakePend := true } ∧ t.rbit regPWR_WAKE (16 + i.val) = true) ∧
       (s.fadedOut = false → s.modeQueued = none → ∃ t, exec (.wake (.tl i)) s = .next t ∧ t.modeStep = none ∧ t.modeCur = s.modeCur ∧ t.rfld a 0 2 = 0 ∧
         t.rfld regPWR_WAKE 16 12 = 2 ^ i.val ∧ t.reg (regEVT_PAYLOAD 82) = 0)) ∧
     (∀ src, exec (.wake src) s = .next (s.wakeBy src) ∧ (s.rbit regPWR_WAKE (wakeBit src) = false → s.wakeBy src = s)) ∧
     (s.reg regPWR_LPOTMR ≠ 0 →
       let u := s.setReg regPWR_LPOTMR 0
       exec .lpoTimerExpiry s = .next ((if s.modeCur = 2 then u else u.raiseEvent 81 0).wakeBy .lpo)) ∧
     (s.reg regPWR_LPOTMR = 0 → exec .lpoTimerExpiry s = .next s))

/-- The supply and the hold-up store (R128, R311, R342): a bulk voltage below 330 V raises EV79 and source 46 once, and asks for a capture at the next tick, or counts it as skipped before the first; the capture holds the recorder index, the first-fault record and the fault count; it is stored in the next slot of the log when that slot is erased, else skipped; above 370 V the cause ends. Train lines and auxiliary rails (R312, R313, R388): a changed input is shown, marked, raises EV80 with all eight but for DEEP, and is an active wake source; the outputs take the written ON bits, and one that is written from 0 to 1 leaves its opening; an overcurrent opens a closed output with OC and source 52; a shut-down rail stays off. -/
def Obligations.SupplyAndLines : Prop :=
  (∀ (s : State) (bulk : BitVec 10),
     let ps := regPWR_STATUS
     let index : List Word := [0xB01A0001#32, lo32 s.fc, hi32 s.fc, s.reg regDLY_REC_HEAD, s.reg regDLY_REC_TAIL, s.reg regDLY_REC_WRAP, 0]
     let fault : List Word := [s.reg regFAULT_FFR0, s.reg (regFAULT_FFR1 0), s.reg (regFAULT_FFR1 1), s.reg (regFAULT_FFR1 2), s.reg regFAULT_COUNT]
     (s.railsUp = true → bulk.toNat < 330 → s.rbit ps 31 = false → s.modeCur ≠ 2 →
       ∃ t, exec (.brownOut bulk) s = .next t ∧ t.rfld ps 0 10 = bulk.toNat ∧ t.rbit ps 31 = true ∧ t.rbit ps 30 = true ∧ t.reg (regEVT_PAYLOAD 79) = 0 ∧
         t.rbit (regEVT_PEND 2) 15 = true ∧ t.rbit (regFAULT_CAUSE 1) 14 = true ∧ (s.rbit (regFAULT_CAUSE 1) 14 = false → t.faultLatched 46 = true) ∧
         (s.sup.ticked = true → t.holdupDue = true ∧ t.rbit ps 28 = s.rbit ps 28) ∧ (s.sup.ticked = false → t.holdupDue = s.holdupDue ∧ t.rbit ps 28 = true)) ∧
     (s.railsUp = true → bulk.toNat < 330 → s.rbit ps 31 = false → s.modeCur = 2 →
       exec (.brownOut bulk) s = .next (((s.setRfld ps 0 10 bulk.toNat).setRbit ps 31).setRbit ps 30)) ∧
     ((s.railsUp = false ∨ 330 ≤ bulk.toNat ∨ s.rbit ps 31 = true) → exec (.brownOut bulk) s = .next s) ∧
     (s.holdupDue = true → s.ticking = true →
       exec .holdupCapture s = .next { s with holdupDue := false, holdup := s.holdup ++ [index ++ [crcWords index] ++ fault] }) ∧
     ((s.holdupDue = false ∨ s.ticking = false) → exec .holdupCapture s = .next s) ∧
     (s.holdup = [] → exec .holdupStoreDone s = .next s) ∧
     (∀ ws rest, s.holdup = ws :: rest → s.flashOn = true → ws.length = 13 →
       let slot := s.rfld regBOOT_LOG 0 14
       let at64 := logBase + 64 * slot
       (s.flashBlank at64 64 = true → ∃ t seq, exec .holdupStoreDone s = .next t ∧ t.holdup = rest ∧ t.rbit ps 29 = true ∧
         (∀ i, i < 64 → t.flashByte (at64 + i) = nthD (wordsLE (logEntry seq ws)) i 0) ∧
         (s.rbit regBOOT_LOG 31 = true → seq = s.flashWord (logBase + 64 * s.rfld regBOOT_LOG 16 14 + 4) + 1) ∧
         t.rbit regBOOT_LOG 31 = true ∧ t.rfld regBOOT_LOG 16 14 = slot ∧ t.rfld regBOOT_LOG 0 14 = (slot + 1) % 16384 ∧
         (∀ b, (b < logBase ∨ logBase + 0x100000 ≤ b) → t.flashByte b = s.flashByte b)) ∧
       (s.flashBlank at64 64 = false → exec .holdupStoreDone s = .next (({ s with holdup := rest } : State).setRbit regBOOT_STATUS 23))) ∧
     (s.railsUp = true → 370 < bulk.toNat → s.rbit ps 31 = true →
       exec (.bulkRecover bulk) s = .next (((s.setRfld ps 0 10 bulk.toNat).putRbit ps 31 false).putRbit (regFAULT_CAUSE 1) 14 false)) ∧
     ((bulk.toNat ≤ 370 ∨ s.rbit ps 31 = false) → exec (.bulkRecover bulk) s = .next s)) ∧
  (∀ (s : State) (m : Master) (v : Word) (i : Fin 8) (j : Fin 2) (level : Bool),
     let a := regHVIO_TLSTAT
     (s.rbit a i.val = level → exec (.trainLineInputChange i level) s = .next s) ∧
     (s.rbit a i.val ≠ level → ∃ t : State, OnlyRegs [a] s t ∧ t.rbit a i.val = level ∧ t.rbit a (8 + i.val) = true ∧
       (∀ k, k < 32 → k ≠ i.val → k ≠ 8 + i.val → t.rbit a k = s.rbit a k) ∧
       exec (.trainLineInputChange i level) s =
         .next ((if s.modeCur = 2 then t else t.raiseEvent 80 (BitVec.ofNat 32 (t.rfld a 0 8))).wakeBy (.tl i))) ∧
     (∃ t, exec (.trainLineOutputWrite m v) s = .next t ∧ t.reg regHVIO_TOCTRL = v &&& 3 ∧
       (∀ k, k < 2 → (k ∈ t.toOpen ↔ k ∈ s.toOpen ∧ ¬(s.rbit regHVIO_TOCTRL k = false ∧ bit v k = true)))) ∧
     (s.toClosed j.val = true → ∃ t, exec (.trainLineOvercurrent j) s = .next t ∧ t.toClosed j.val = false ∧ t.rbit regHVIO_TOSTAT (4 + j.val) = true ∧
       t.faultLatched 52 = true ∧ ∀ k, k ≠ j.val → t.toClosed k = s.toClosed k) ∧
     (s.toClosed j.val = false → exec (.trainLineOvercurrent j) s = .next s) ∧
     (1 ∉ s.railsOff → exec (.currentLimitShutdown .v1p8) s = .next { s with railsOff := s.railsOff ++ [1] }) ∧
     (0 ∉ s.railsOff → exec (.currentLimitShutdown .v3p3) s = .next { s with railsOff := s.railsOff ++ [0] }) ∧
     (∃ t, exec (.currentLimitShutdown .v1p8) s = .next t ∧ t.flashOn = false))

/-! ## Start-up and the host port (R318 to R343) -/

/-- The start of the image (R309, R318, R319, R325, R342): in XO_WAIT of a start-up the early words come from the first copy whose header passes, else they are the reset values; with DRAM trained and a device that answers, the first pass of copy A begins with the position of the log that start-up finds; without one the sequencer stops in FLASHERR. The passes of a copy (R320, R321, R323 to R327, R331): each stage goes on to the next, or rejects the copy with the first reason of R343 and source 5; a rejected copy A gives way to copy B, a rejected copy B to NOIMAGE with source 6; after the start of PASS2 the block reset comes first, which keeps DRAM, flash, fuses, the flash buffer and the message window; after the checks the first frame tick is released with the frame counter at zero. -/
def Obligations.ImageStart : Prop :=
  (∀ (s : State) (sfdp : Bool),
     let from' (b : Bool) : State := { s with earlyDiv := BitVec.ofNat 32 (s.imgField b 32 4), earlySsc := BitVec.ofNat 32 (s.imgField b 36 4) }
     (∀ b, s.earlyOk b = true ↔ s.imgField b 0 4 = 0xB01A5448 ∧ s.imgField b 8 2 = s.rfld regGLOBAL_ID 16 16 ∧ s.imgField b 10 1 = s.rfld regGLOBAL_ID 8 8 ∧
       (crc32 (s.flashBytes (copyBase b) 252)).toNat = s.imgField b 252 4) ∧
     (s.supState = 1 → s.bootStage = 1 →
       (s.flashOn = true → s.earlyOk false = true → exec .earlyHeaderRead s = .next (from' false)) ∧
       (s.flashOn = true → s.earlyOk false = false → s.earlyOk true = true → exec .earlyHeaderRead s = .next (from' true)) ∧
       ((s.flashOn = false ∨ (s.earlyOk false = false ∧ s.earlyOk true = false)) →
         exec .earlyHeaderRead s = .next { s with earlyDiv := regReset regCLK_DIV, earlySsc := regReset regCLK_SSC })) ∧
     ((s.supState ≠ 1 ∨ s.bootStage ≠ 1) → exec .earlyHeaderRead s = .next s) ∧
     (s.supState = 3 → s.bootStage = 1 →
       (sfdp = true → s.flashOn = true → ∃ t, exec (.dramTrainingComplete sfdp) s = .next t ∧ t.bootStage = 2 ∧ t.bootCopy = false ∧ t.flashPart = true ∧
         ((∀ k ∈ s.logSlots, s.logValid k = false) → t.reg regBOOT_LOG = 0) ∧
         (∀ k ∈ s.logSlots, s.logValid k = true → ∃ j ∈ s.logSlots, s.logValid j = true ∧ s.logSeq k ≤ s.logSeq j ∧
           t.reg regBOOT_LOG = BitVec.ofNat 32 (0x80000000 + j * 65536 + (j + 1) % 16384))) ∧
       ((sfdp = false ∨ s.flashOn = false) → ∃ t, exec (.dramTrainingComplete sfdp) s = .next t ∧ t.bootStage = 9 ∧ t.flashPart = false)) ∧
     ((s.supState ≠ 3 ∨ s.bootStage ≠ 1) → exec (.dramTrainingComplete sfdp) s = .next s)) ∧
  (∀ (s : State) (ok : Bool),
     let b := s.bootCopy
     let stage (n : Nat) : State := s.setRfld regBOOT_STATUS 28 4 n
     let turned (t : State) : Prop := (b = false → t.bootStage = 2 ∧ t.bootCopy = true) ∧
       (b = true → t.bootStage = 7 ∧ t.rbit (regFAULT_CAUSE 0) 6 = true ∧ t.rbit regPAIR_STATUS 30 = false)
     let rejected (code : Nat) (t : State) : Prop := t.rfld regBOOT_REJECT (if b then 8 else 0) 8 = code ∧ t.faultLatched 5 = true ∧
       (s.loading = true → t.resetDue = true ∧ t.bootStage = s.bootStage) ∧ (s.loading = false → turned t)
     (s.bootStage = 2 → s.resetDue = false →
       let out (code : Nat) : Prop := ∃ t, exec (.pass1Complete ok) s = .next t ∧ rejected code t
       let readable : Prop := ok = true ∧ s.flashOn = true
       let same : Prop := s.imgMember b = true ∧ s.imgIssue b = true
       (¬ readable → out 11) ∧ (readable → s.imgHeader b = false → out 1) ∧ (readable → s.imgHeader b = true → ¬ same → out 2) ∧
       (readable → s.imgHeader b = true → same → copyArea b < s.imgLength b → out 12) ∧
       (readable → s.imgHeader b = true → same → s.imgLength b ≤ copyArea b → s.imgDirOk b = false → out 6) ∧
       (readable → s.imgHeader b = true → same → s.imgLength b ≤ copyArea b → s.imgDirOk b = true → exec (.pass1Complete ok) s = .next (stage 3))) ∧
     (s.bootStage = 3 →
       (s.keyOk b = false → ∃ t, exec .verifyComplete s = .next t ∧ rejected 3 t) ∧
       (s.keyOk b = true → s.sigOk b = false → ∃ t, exec .verifyComplete s = .next t ∧ rejected 4 t) ∧
       (s.keyOk b = true → s.sigOk b = true → exec .verifyComplete s = .next { stage 4 with loading := true })) ∧
     (s.bootStage = 4 → s.resetDue = false →
       ((ok = false ∨ s.flashOn = false) → ∃ t, exec (.pass2Complete ok) s = .next t ∧ rejected 11 t) ∧
       (ok = true → s.flashOn = true → ∀ u code, s.loadImage b = (u, some code) → exec (.pass2Complete ok) s = .next (u.copyReject code)) ∧
       (ok = true → s.flashOn = true → ∀ u, s.loadImage b = (u, none) → exec (.pass2Complete ok) s = .next (u.setRfld regBOOT_STATUS 28 4 5))) ∧
     (s.bootStage = 5 → s.resetDue = false →
       let out (code : Nat) : Prop := ∃ t, exec .checksComplete s = .next t ∧ rejected code t
       let tmpls : Prop := ∀ k, k < 256 → s.templateOk b k = true
       (s.partitionOk b = false → out 7) ∧ (s.partitionOk b = true → s.equalisersOk = false → out 8) ∧
       (s.partitionOk b = true → s.equalisersOk = true → ¬ tmpls → out 9) ∧
       (s.partitionOk b = true → s.equalisersOk = true → tmpls → ∃ t, exec .checksComplete s = .next t ∧ t.ticking = true ∧ t.fc = 0 ∧ t.loading = false ∧ t.sup.ticked = true ∧
         (s.bootOwn = [] → t.bootStage = 6) ∧ (s.unfused = true → t.faultLatched 4 = true))) ∧
     (s.resetDue = true → mapWf regReset s.regs = true → ∃ t, exec .blockResetComplete s = .next t ∧ turned t ∧ t.faultLatched 5 = true ∧ t.resetDue = false ∧
       t.dram = s.dram ∧ t.flash = s.flash ∧ t.fuseKey = s.fuseKey ∧ t.fuseLock = s.fuseLock ∧ t.courses = State.reset.courses ∧
       (∀ a, t.tabGet a = if 0x01B00000 ≤ a ∧ a < 0x01B12000 then s.tabGet a else State.reset.tabGet a)) ∧
     (s.resetDue = false → exec .blockResetComplete s = .next s))

/-- The fuses (R333): a keyed write of OTPCTRL in maintenance starts a burn of what it asks for, unless the hash to burn is fused or a flash command or burn runs; any other sets FLERR. The burn ends with the fuses written and FLBUSY clear. Flash commands (R341): a command starts and sets FLBUSY, or, while one or a burn runs, at an address that is misaligned, beyond the device, or in the hold-up log for a program or an erase, is ignored with FLERR. A read ends with the page in the buffer, a program with the erased bytes of the page at the buffer's values, an erase with the sector erased; no other byte changes. A device error sets FLERR. -/
def Obligations.FusesAndFlash : Prop :=
  (∀ (s : State) (m : Master) (v : Word),
     let refused : Prop := fld v 16 16 ≠ 0xB01A ∨ s.rbit regGLOBAL_MODE 16 = false ∨ (bit v 0 = true ∧ ∃ w ∈ s.fuseKey, w ≠ 0) ∨ s.flCmd.isSome = true ∨ s.otpRun.isSome = true
     let hash := (List.range 8).map fun i => s.reg (regBOOT_KEYHASH i)
     (refused → exec (.otpBurn m v) s = .next (s.setRbit regBOOT_STATUS 21)) ∧
     (¬ refused → (bit v 0 = true ∨ bit v 1 = true) →
       exec (.otpBurn m v) s = .next { s.setRbit regBOOT_STATUS 22 with otpRun := some (bit v 0, bit v 1, hash) }) ∧
     (¬ refused → bit v 0 = false → bit v 1 = false → exec (.otpBurn m v) s = .next s) ∧
     (s.otpRun = none → exec .otpBurnComplete s = .next s) ∧
     (∀ k l d, s.otpRun = some (k, l, d) → ∃ t, exec .otpBurnComplete s = .next t ∧ t = { s with regs := t.regs, otpRun := none, fuseKey := t.fuseKey, fuseLock := t.fuseLock } ∧
       t.rbit regBOOT_STATUS 22 = false ∧ t.fuseKey = (if k then d else s.fuseKey) ∧ t.fuseLock = (s.fuseLock || l))) ∧
  (∀ (s : State) (m : Master) (dev : Bool) (k : Nat) (c : Instr), ((k = 1 ∧ c = .flashRead m) ∨ (k = 2 ∧ c = .flashProgram m) ∨ (k = 3 ∧ c = .flashErase m)) →
     let a := s.rfld regBOOT_FLADDR 0 28
     let len := if k = 3 then 65536 else 256
     let ignored : Prop := s.flCmd.isSome = true ∨ s.otpRun.isSome = true ∨ a % len ≠ 0 ∨ flashSize ≤ a ∨ (k ≠ 1 ∧ logBase < a + len)
     (ignored → exec c s = .next (s.setRbit regBOOT_STATUS 21)) ∧
     (¬ ignored → exec c s = .next { s.setRbit regBOOT_STATUS 22 with flCmd := some (k, a) }) ∧
     (s.flCmd = none → exec (.flashCommandComplete dev) s = .next s) ∧
     (∀ at', s.flCmd = some (k, at') → ∃ t, exec (.flashCommandComplete dev) s = .next t ∧ t.flCmd = none ∧ t.rbit regBOOT_STATUS 22 = false ∧
       (∀ b, (k = 1 ∨ b < at' ∨ at' + len ≤ b) → (dev = false → s.flashOn = true → t.flashByte b = s.flashByte b) ∧ (k ≠ 1 → t.flashByte b = s.flashByte b)) ∧
       ((dev = true ∨ s.flashOn = false) → t.rbit regBOOT_STATUS 21 = true) ∧
       (dev = false → s.flashOn = true → t.rbit regBOOT_STATUS 21 = s.rbit regBOOT_STATUS 21 ∧
         (k = 1 → ∀ i, i < 64 → t.tabGet (0x01B00000 + 4 * i) = s.flashWord (at' + 4 * i)) ∧
         (k = 2 → ∀ i, i < 256 → s.flashByte (at' + i) = 0xFF → t.flashByte (at' + i) = lane (s.tabGet (0x01B00000 + 4 * (i / 4))) (i % 4)) ∧
         (k = 3 → ∀ i, i < 65536 → t.flashByte (at' + i) = 0xFF))))

/-- Requests of the host port (R308, R335 to R339): the assertion of its chip select is a wake source, and a request in DEEP or without power is not executed; a CRC error answers 2 and a request before the served stages 3, STATUS apart; an unknown CMD answers 4 and a wrong COUNT or length 6; reads and writes are those of master 10 in order with the first error; a doorbell raises EV89; a message fills the inbound slot with EV88 or answers Busy; the oldest full outbound slot is the first one from the next to be filled on, and taking its message empties it; an abandoned transaction has no answer. A CMD that another row carries does nothing in SPI_STATUS; that is the model's choice (log entry 43). -/
def Obligations.HostRequests : Prop :=
  ∀ (s : State) (a v : Word) (ws : List Word) (count len : BitVec 16) (msg : List Byte) (ok : Bool),
    let u := s.spiSelect
    let answer (x : State) (code : Nat) (fields : List Byte) : State := { x with spiResp := spiFrame code fields }
    let counted : Prop := 1 ≤ count.toNat ∧ count.toNat ≤ 256
    (s.railsUp = false → u = s) ∧ (s.railsUp = true → u = s.wakeBy .spi) ∧
    (∀ c, (c = .spiRead a count ok ∨ c = .spiWrite a ws count ok ∨ c = .delronSend len msg ok ∨ c = .delronRecv ok ∨ c = .doorbell v ok) →
      (s.spiAlive = false → exec c s = .next u) ∧
      (s.spiAlive = true → ok = false → exec c s = .next (answer u 2 [])) ∧
      (s.spiAlive = true → ok = true → s.spiServed = false → exec c s = .next (answer u 3 []))) ∧
    (s.spiAlive = false → exec (.spiStatus none) s = .next u) ∧
    (s.spiAlive = true → exec (.spiStatus none) s = .next (answer u 2 [])) ∧
    (∀ cmd : Byte,
      (1 ≤ cmd.toNat → cmd.toNat ≤ 6 → cmd ≠ 5 → exec (.spiStatus (some cmd)) s = .next s) ∧
      ((cmd = 5 ∨ cmd = 0 ∨ 7 ≤ cmd.toNat) →
        (s.spiAlive = false → exec (.spiStatus (some cmd)) s = .next u) ∧
        (s.spiAlive = true → cmd ≠ 5 → exec (.spiStatus (some cmd)) s = .next (answer u 4 [])) ∧
        (s.spiAlive = true → cmd = 5 → let r := u.regValue regBOOT_STATUS; exec (.spiStatus (some cmd)) s = .next (answer r.2 0 (bytesBE r.1))))) ∧
    (exec (.spiTransactionAbandon none) s = .next { u with spiResp := [] }) ∧
    (s.spiServed = true → exec (.spiTransactionAbandon (some (a, ws))) s = .next { (u.spiWrites a.toNat ws).1.2 with spiResp := [] }) ∧
    (s.spiServed = false → exec (.spiTransactionAbandon (some (a, ws))) s = .next { u with spiResp := [] }) ∧
    (s.spiServed = true → ok = true →
      (¬ counted → exec (.spiRead a count ok) s = .next (answer u 6 [])) ∧
      (counted → ∃ vs w code, u.spiReads a.toNat count.toNat = ((vs, w), code) ∧ vs.length = count.toNat ∧
        exec (.spiRead a count ok) s = .next (w.respond code (if code = 5 then [] else vs.flatMap bytesBE))) ∧
      ((¬ counted ∨ ws.length ≠ count.toNat) → exec (.spiWrite a ws count ok) s = .next (answer u 6 [])) ∧
      (counted → ws.length = count.toNat → ∃ n w code, u.spiWrites a.toNat ws = ((n, w), code) ∧ n ≤ count.toNat ∧
        exec (.spiWrite a ws count ok) s = .next (w.respond code (if code = 5 then [] else beBytes 2 n))) ∧
      exec (.doorbell v ok) s = .next (answer (u.raiseEvent 89 v) 0 []) ∧
      (u.tabGet 0x01B10000 ≠ 0 → exec (.delronSend len msg ok) s = .next (answer u 3 [])) ∧
      (u.tabGet 0x01B10000 = 0 → (len.toNat < 20 ∨ 1420 < len.toNat ∨ msg.length ≠ len.toNat) → exec (.delronSend len msg ok) s = .next (answer u 6 [])) ∧
      (u.tabGet 0x01B10000 = 0 → 20 ≤ len.toNat → len.toNat ≤ 1420 → msg.length = len.toNat →
        ∃ t, exec (.delronSend len msg ok) s = .next t ∧ t.tabGet 0x01B10000 = BitVec.ofNat 32 len.toNat ∧ t.slotBytes 0x01B10000 = msg ∧
          t.reg (regEVT_PAYLOAD 88) = BitVec.ofNat 32 len.toNat ∧ t.rbit (regEVT_PEND 2) 24 = true ∧ t.spiResp = spiFrame 0 []) ∧
      (u.outOldest = none → exec (.delronRecv ok) s = .next (answer u 0 [0, 0])) ∧
      (∀ k, u.outOldest = some k → ∃ t, exec (.delronRecv ok) s = .next t ∧
        t.spiResp = spiFrame 0 (beBytes 2 (u.slotBytes (outSlot k)).length ++ u.slotBytes (outSlot k)) ∧ (u.outWait = [] → t.tabGet (outSlot k) = 0))) ∧
    (s.outOldest = none ↔ ∀ k, k < 4 → s.tabGet (outSlot k) = 0) ∧
    (∀ k, s.outOldest = some k → s.outFill ≤ k ∧ k < s.outFill + 4 ∧ s.tabGet (outSlot k) ≠ 0 ∧ ∀ i, s.outFill ≤ i → i < k → s.tabGet (outSlot i) = 0) ∧
    (∀ n, (s.spiReads a.toNat 0).1.1 = [] ∧
      (s.spiReads a.toNat (n + 1)).1.1 = (s.busRead 10 (a.toNat % 2 ^ 32)).1.1 :: ((s.busRead 10 (a.toNat % 2 ^ 32)).1.2.spiReads (a.toNat + 4) n).1.1)

/-! ## Pairing (R344 to R360) -/

/-- BATTEN (R345, R350 to R352, R359): a sample is shown, a changed level raises EV83, and once ticks run it decides the coming tick: a FAIL source held for release takes every standby state to HELD; a high level takes HELD, JOIN and MIRROR to CLAIM, counts in CLAIM to the claim window and then drives BATTEN as ACTIVE, and takes READY to ACTIVE at once with TAKEN; a low level takes CLAIM and HELD to JOIN. An armed release lets go of BATTEN. -/
def Obligations.BattenRules : Prop :=
  ∀ (s : State) (high : Bool),
    let ps := regPAIR_STATUS
    let u := if s.rbit ps 31 = high then s else (s.putRbit ps 31 high).raiseEvent 83 (BitVec.ofNat 32 (b2n high))
    let c := Instr.battenSample high
    let goes (st : Nat) : Prop := ∃ t, exec c s = .next t ∧ t.pairState = st ∧ t.rbit ps 31 = high
    let claimed (t : State) : Prop := exec c s = .next t ∧ t.pairState = pACTIVE ∧ t.rbit ps 30 = true ∧ t.rbit ps 31 = high ∧ t.epochRun = none ∧ t.relDue = none
    let window := if s.rbit ps 29 then 6 else 2
    (s.pairEn = false → (s.rbit regPAIR_CFG 31 = false ∨ s.ticking = true) → exec c s = .next s) ∧
    (s.pairEn = true → s.ticking = false → exec c s = .next u) ∧
    (s.pairEn = true → s.ticking = true →
      ((s.pairState = pSINGLE ∨ s.pairState = pACTIVE) → exec c s = .next u) ∧
      (s.failHeld = true → s.pairState = pHELD → exec c s = .next u) ∧
      (s.failHeld = true → (s.pairState = pCLAIM ∨ s.pairState = pJOIN ∨ s.pairState = pMIRROR ∨ s.pairState = pREADY) → goes pHELD) ∧
      (s.failHeld = false →
        (high = true → (s.pairState = pHELD ∨ s.pairState = pJOIN ∨ s.pairState = pMIRROR) →
          ∃ t, exec c s = .next t ∧ t.pairState = pCLAIM ∧ t.claimCount = 1) ∧
        (high = false → (s.pairState = pCLAIM ∨ s.pairState = pHELD) → goes pJOIN) ∧
        (high = false → (s.pairState = pJOIN ∨ s.pairState = pMIRROR ∨ s.pairState = pREADY) → exec c s = .next u) ∧
        (high = true → s.pairState = pCLAIM → s.claimCount + 1 < window → exec c s = .next { u with claimCount := s.claimCount + 1 }) ∧
        (high = true → s.pairState = pCLAIM → window ≤ s.claimCount + 1 → ∃ t, claimed t ∧ t.muteLevel 9 = 0) ∧
        (high = true → s.pairState = pREADY → ∃ t, claimed t ∧ t.rbit ps 24 = true ∧ t.reg regPAIR_TAKEOVER = s.reg regPAIR_EPOCH ∧
          t.muteLevel 9 = s.muteLevel 9 ∧ t.reg (regEVT_PAYLOAD 86) = 0))) ∧
    (∀ st, s.relDue = some st → s.relArmed = true →
      exec .battenRelease s = .next { s.putRbit ps 30 false with relDue := none, relArmed := false, relDone := some st }) ∧
    ((s.relDue = none ∨ s.relArmed = false) → exec .battenRelease s = .next s)

/-- Heartbeats (R346, R347, R350, R353, R355 to R358): one goes out with the frame, the state, the hash of the frame before and the digest of the one before that; a received one counts to LINK at 64, which a frame without one starts afresh with the other counts of consecutive frames, shows the partner's state and the skew, and acts on the epoch in progress, the alignment of JOIN, a long skew, a hash mismatch of READY, and a double claim. A loss, which HBLOSS frames without one bring, clears LINK, raises EV84 and source 49, and sends MIRROR and READY back to JOIN. -/
def Obligations.Heartbeats : Prop :=
  ∀ (s : State) (hb : Heartbeat) (skew : Word), s.pairEn = true →
    let ps := regPAIR_STATUS
    let es := regPAIR_ESTAT
    let near := skew.toInt.natAbs ≤ 100
    let g := s.hbGap
    let linked : Prop := 64 ≤ g.linkRun + 1 ∨ s.rbit ps 28 = true
    let frame := (hb.fc.toNat : Int) - 1 - s.fcOff
    let lost : Prop := s.hbFrame + (if s.rfld regPAIR_CFG 16 8 < 4 then 16 else s.rfld regPAIR_CFG 16 8) ≤ s.now ∧
      ¬(s.rbit ps 28 = false ∧ s.linkRun = 0 ∧ s.rbit (regFAULT_CAUSE 1) 17 = true)
    (s.ticking = true → ∃ t, exec .heartbeatSend s = .next t ∧ t = { s with hbSent := t.hbSent, freeCtr := t.freeCtr } ∧
      ∃ b, t.hbSent = some b ∧ b.fc = s.fc ∧ b.state = BitVec.ofNat 4 s.pairState ∧ b.epoch = s.reg regPAIR_EPOCH ∧ b.pegAck = BitVec.ofNat 32 s.fwdApplied ∧
        (∀ w, 1 ≤ s.now → mapFind s.hashes (s.now - 1) = some w → b.hash = w) ∧ (∀ w, 2 ≤ s.now → mapFind s.digests (s.now - 2) = some w → b.digest = w)) ∧
    (s.now ≤ s.hbFrame + 1 → g = { s with hbFrame := s.now }) ∧
    (s.hbFrame + 1 < s.now → g.linkRun = 0 ∧ g.skewGood = 0 ∧ g.skewBad = 0 ∧ g.matched = [] ∧ g.hbFrame = s.now ∧
      ((s.pairState = pMIRROR ∨ s.pairState = pREADY) → g.reg regPAIR_MATCH = 0)) ∧
    (∃ t, exec (.heartbeatReceive hb skew) s = .next t ∧ t.linkRun = g.linkRun + 1 ∧ t.rfld ps 16 4 = hb.state.toNat ∧
      (linked → t.rbit ps 28 = true ∧ t.reg regPAIR_SKEW = skew) ∧ (¬ linked → t.rbit ps 28 = false ∧ t.reg regPAIR_SKEW = 0) ∧
      (∀ c, s.pairState = pACTIVE → s.epochRun = some (hb.epoch.toNat, c) → t.epochRun = none ∧ t.reg regPAIR_EPOCH = hb.epoch ∧ t.rbit es 31 = false ∧
        t.reg (regEVT_PAYLOAD 85) = hb.epoch) ∧
      (s.pairState = pJOIN → s.ticking = true → s.joinStep < 2 →
        (linked → hb.state.toNat = pACTIVE → near → 64 ≤ g.skewGood + 1 → t.joinStep = 2 ∧ t.reg regPAIR_FCOFF_LO = lo32 (hb.fc - s.fc) ∧
          t.reg regPAIR_FCOFF_HI = hi32 (hb.fc - s.fc)) ∧
        (linked → hb.state.toNat = pACTIVE → near → g.skewGood + 1 < 64 → t.joinStep = 1 ∧ t.skewGood = g.skewGood + 1) ∧
        (linked → hb.state.toNat = pACTIVE → ¬ near → t.joinStep = 1 ∧ t.skewGood = 0) ∧
        ((¬ linked ∨ hb.state.toNat ≠ pACTIVE) → t.joinStep = 0 ∧ t.skewGood = 0)) ∧
      ((s.pairState = pMIRROR ∨ s.pairState = pREADY) → s.ticking = true → ¬ near → 16 ≤ g.skewBad + 1 → t.pairState = pJOIN ∧ t.joinStep = 0) ∧
      (s.pairState = pREADY → near → 0 ≤ frame → ∀ w, mapFind s.hashes frame.toNat = some w → w ≠ hb.hash →
        t.pairState = pMIRROR ∧ t.rbit ps 25 = true ∧ t.reg (regEVT_PAYLOAD 87) = lo32 s.fc ∧ t.reg (regEVT_PAYLOAD 86) = 0) ∧
      (s.pairState = pACTIVE → hb.state.toNat = pACTIVE → s.rbit ps 29 = true → s.epochRun = none → t.rbit ps 26 = true ∧ t.rbit (regFAULT_CAUSE 1) 17 = true ∧
        (s.relDue = none → s.relDone = none → t.relDue = some pJOIN))) ∧
    (¬ lost → exec .heartbeatLoss s = .next s) ∧
    (lost → ∃ t, exec .heartbeatLoss s = .next t ∧ t.rbit ps 28 = false ∧ t.rbit ps 27 = true ∧ t.linkRun = 0 ∧ t.reg regPAIR_SKEW = 0 ∧ t.reg (regEVT_PAYLOAD 84) = 0 ∧
      t.rbit (regFAULT_CAUSE 1) 17 = true ∧ t.epochRun = none ∧ t.cancelWait = [] ∧ (s.cancelWait ≠ [] → t.rbit regPEG_STATUS 22 = true) ∧
      ((s.pairState = pJOIN ∨ s.pairState = pMIRROR ∨ s.pairState = pREADY) → t.pairState = pJOIN ∧ t.joinStep = 0 ∧ t.reg regPAIR_EPOCH = 0) ∧
      (s.pairState ≠ pJOIN → s.pairState ≠ pMIRROR → s.pairState ≠ pREADY → t.pairState = s.pairState)) ∧
    (s.pairState = pMIRROR → s.pairNeed ≤ (s.reg regPAIR_MATCH).toNat → ∃ t, exec .mirrorReady s = .next t ∧ t.pairState = pREADY ∧ t.reg (regEVT_PAYLOAD 86) = 1) ∧
    ((s.pairState ≠ pMIRROR ∨ (s.reg regPAIR_MATCH).toNat < s.pairNeed) → exec .mirrorReady s = .next s)

/-- Parameter sync and forwarded records (R353, R356): the active sends a JOIN partner the sync record once; a module that follows takes an entry as master 11, counts a forwarded COMMIT, resolves a record with the active's ticket at its own frame or queues it behind waiting entries, and withdraws a cancelled ticket; a module that does not follow ignores them. A joining module asks for the scenes that differ and copies a requested body with its directory entry. -/
def Obligations.ParameterSync : Prop :=
  ∀ (s : State) (hdr mask : Word) (ws : List Word) (ticket : Byte) (c : BitVec 64) (n : Fin 1024) (dir : List (Fin 1024 × Word × Word × Word × Word)),
    (s.pairState = pACTIVE → s.rbit regPAIR_STATUS 28 = true → s.rfld regPAIR_STATUS 16 4 = pJOIN → s.syncSent = false →
      ∃ t, exec .syncRecord s = .next t ∧ t = { s with syncSent := true, fwdSent := t.fwdSent, freeCtr := t.freeCtr } ∧ s.fwdSent < t.fwdSent) ∧
    (s.syncSent = true → exec .syncRecord s = .next s) ∧
    (s.follows = false → ∀ i, (i = .forwardedEntryReceive hdr ws ∨ i = .resolutionRecordReceive ticket mask c ∨ i = .forwardedCancelReceive ticket) → exec i s = .next s) ∧
    (s.follows = true →
      (hdrOp hdr = 2 → exec (.forwardedEntryReceive hdr ws) s = .next { s with fwdApplied := s.fwdApplied + 1 }) ∧
      (hdrOp hdr ≠ 2 → exec (.forwardedEntryReceive hdr ws) s = .next (ws.foldl (fun t v => t.pegData 11 v) (s.pegHeader 11 hdr))) ∧
      exec (.forwardedCancelReceive ticket) s = .next { s.cancel ticket.toNat with fwdApplied := s.fwdApplied + 1 } ∧
      (∃ t, exec (.resolutionRecordReceive ticket mask c) s = .next t ∧
        let f := ((c.toNat : Int) - s.fcOff).toNat
        let direct : Prop := s.pegQueue = [] ∧ mask &&& s.sealed = 0 ∧ s.commits.length < 16 ∧ s.pegHalted = false
        (direct → t.commits = s.commits ++ [{ ticket := ticket.toNat, mask := mask, frame := f, fixed := none }] ∧ t.pegQueue = s.pegQueue ∧
          t.fwdApplied = s.fwdApplied + 1) ∧
        (¬ direct → t.commits = s.commits ∧ t.fwdApplied = s.fwdApplied ∧
          ∃ e, t.pegQueue = s.pegQueue ++ [e] ∧ e.master = 11 ∧ e.words = [mask, BitVec.ofNat 32 f, BitVec.ofNat 32 (f / 2 ^ 32)]) ∧
        t.joinStep = (if mask = 0xFFFFFFFF ∧ s.pairState = pJOIN ∧ s.joinStep = 2 then 3 else s.joinStep))) ∧
    (s.pairState = pJOIN → s.joinStep = 3 →
      (∃ t, exec (.sceneDirectoryReceive dir) s = .next t ∧ t = { s with sceneNeed := t.sceneNeed, joinStep := t.joinStep } ∧
        (∀ k l, (k, l) ∈ t.sceneNeed ↔ ∃ e ∈ dir, bit e.2.1 31 = true ∧ k = e.1.val ∧ l = [e.2.1, e.2.2.1, e.2.2.2.1, e.2.2.2.2] ∧
          ¬(bit (s.sceneDir k 0) 31 = true ∧ s.sceneDir k 1 = e.2.2.1 ∧ s.sceneDir k 3 = e.2.2.2.2)) ∧
        t.joinStep = (if t.sceneNeed = [] then 4 else 3)) ∧
      (∀ w0 w1 w2 w3, (s.sceneNeed.find? fun e => decide (e.1 = n.val)) = some (n.val, [w0, w1, w2, w3]) → ws.length = w1.toNat →
        let off := fld w0 0 31
        let at' := s.regionBase 3 + off
        let entry := s.regionBase 3 + 4 * n.val
        let inside : Prop := 4096 ≤ off ∧ off + ws.length ≤ s.regionSize 3
        ∃ t, exec (.sceneBodyReceive n ws) s = .next t ∧ t = { s with dram := t.dram, raced := t.raced, sceneNeed := t.sceneNeed, joinStep := t.joinStep } ∧
          (∀ e, e ∈ t.sceneNeed ↔ e ∈ s.sceneNeed ∧ e.1 ≠ n.val) ∧ t.joinStep = (if t.sceneNeed = [] then 4 else 3) ∧ (¬ inside → t.dram = s.dram) ∧
          (inside → (∀ i, i < ws.length → t.dramGet (at' + i) = nthD ws i 0) ∧ (∀ i, i < 4 → t.dramGet (entry + i) = nthD [w0, w1, w2, w3] i 0) ∧
            ∀ u, (u < at' ∨ at' + ws.length ≤ u) → (u < entry ∨ entry + 4 ≤ u) → t.dramGet u = s.dramGet u))) ∧
    ((s.pairState ≠ pJOIN ∨ s.joinStep ≠ 3) → exec (.sceneDirectoryReceive dir) s = .next s ∧ exec (.sceneBodyReceive n ws) s = .next s)

/-- Epochs, release and resync (R350, R357, R358, R360): the active starts a requested, final or periodic epoch with the next number, and without a link it is interrupted; the standby stores a block in the buffer that is not live and takes it into the CRC; a marker with the right CRC and a higher number makes the epoch live with EV85, and a wrong CRC discards it; a release waits for the final epoch with a READY partner, is due at once when forced without one, and is refused otherwise. -/
def Obligations.EpochsAndRelease : Prop :=
  ∀ (s : State) (m : Master) (num crc : Word) (start : BitVec 64) (r : Fin 16) (off : Nat) (ws : List Word),
    let es := regPAIR_ESTAT
    let number := (s.epochLast + 1) % 2 ^ 32
    let standby : Prop := s.pairState = pJOIN ∨ s.pairState = pMIRROR ∨ s.pairState = pREADY
    (s.ticking = true → s.pairState = pACTIVE → s.epochRun = none → (s.epochReq = true ∨ s.finalEpoch = some 0 ∨ 0 < s.rfld regPAIR_CFG 0 16) →
      ∃ t, exec .epochStart s = .next t ∧ t.epochLast = number ∧ t.epochReq = false ∧ t.dram = s.dram ∧
        (s.rbit regPAIR_STATUS 28 = true → t.epochRun = some (number, s.now) ∧ t.rbit es 31 = true ∧
          t.finalEpoch = (if s.finalEpoch = some 0 then some number else s.finalEpoch)) ∧
        (s.rbit regPAIR_STATUS 28 = false → t.epochRun = none ∧ t.rbit es 31 = false ∧ t.rbit es 29 = true)) ∧
    (s.follows = true →
      let old := match s.epochRx with | some (k, c) => if k = num.toNat then c else 0xFFFFFFFF#32 | none => 0xFFFFFFFF#32
      let base := s.ereg r.val (if s.rbit es 30 then 2 else 3) + off
      let fits : Prop := s.eregOk r.val = true ∧ off + ws.length ≤ s.ereg r.val 1
      let u : State := { s with epochRx := none }
      (∃ t, exec (.epochDataReceive num r off ws) s = .next t ∧ t = { s with dram := t.dram, raced := t.raced, epochRx := some (num.toNat, (wordsLE ws).foldl crcByte old) } ∧
        (¬ fits → t.dram = s.dram) ∧
        (fits → (∀ i, i < ws.length → t.dramGet (base + i) = nthD ws i 0) ∧ ∀ w, (w < base ∨ base + ws.length ≤ w) → t.dramGet w = s.dramGet w)) ∧
      (~~~old ≠ crc → exec (.epochCommitMarker num start crc) s = .next (u.setRbit es 28)) ∧
      (~~~old = crc → s.reg regPAIR_EPOCH ≠ 0 → num.toNat ≤ (s.reg regPAIR_EPOCH).toNat → exec (.epochCommitMarker num start crc) s = .next u) ∧
      (~~~old = crc → (s.reg regPAIR_EPOCH = 0 ∨ (s.reg regPAIR_EPOCH).toNat < num.toNat) →
        ∃ t, exec (.epochCommitMarker num start crc) s = .next t ∧ t.rbit es 30 = !s.rbit es 30 ∧ t.reg regPAIR_EPOCH = num ∧ t.liveStart = start.toNat ∧
          t.epochRx = none ∧ t.reg (regEVT_PAYLOAD 85) = num ∧ t.pairState = (if s.pairState = pJOIN ∧ s.joinStep = 4 then pMIRROR else s.pairState))) ∧
    (s.follows = false → exec (.epochDataReceive num r off ws) s = .next s ∧ exec (.epochCommitMarker num start crc) s = .next s) ∧
    (s.pairState ≠ pACTIVE → exec (.pairRelease m) s = .next s ∧ exec (.forceRelease m) s = .next s ∧ exec (.estart m) s = .next s ∧ exec .epochStart s = .next s) ∧
    (s.pairState = pACTIVE →
      exec (.estart m) s = .next { s with epochReq := true } ∧
      (s.partnerReady = true → s.finalEpoch = none →
        exec (.pairRelease m) s = .next { s with finalEpoch := some 0 } ∧ exec (.forceRelease m) s = .next { s with finalEpoch := some 0 }) ∧
      (s.partnerReady = true → s.finalEpoch.isSome = true → exec (.pairRelease m) s = .next s ∧ exec (.forceRelease m) s = .next s) ∧
      (s.partnerReady = false → exec (.pairRelease m) s = .next (s.setRbit regPAIR_STATUS 22) ∧
        exec (.forceRelease m) s = .next { s with relDue := some pMIRROR, finalEpoch := none })) ∧
    (standby → ∃ t, exec (.resync m) s = .next t ∧ t.pairState = pJOIN ∧ t.joinStep = 0 ∧ t.skewGood = 0 ∧ t.reg regPAIR_EPOCH = 0 ∧ t.epochRun = none ∧
      (s.pairState = pREADY → t.reg (regEVT_PAYLOAD 86) = 0)) ∧
    (¬ standby → exec (.resync m) s = .next s)
end

