-- ==== Sys2Proof/Laws/Map.lean ====
section
/-! SUPPORT. The laws of the sparse maps: a write is read back, other keys keep their values, and every operation keeps the canonical form. -/

namespace Sys2Proof.Machine

variable {α : Type}

theorem mapFind_del_self (m : List (Nat × α)) (k : Nat) : mapFind (mapDel m k) k = none := by
  induction m with
  | nil => rfl
  | cons e t ih => by_cases h : e.1 = k <;> simp [mapDel, mapFind, h, ih]

theorem mapFind_del_ne (m : List (Nat × α)) {k j : Nat} (h : j ≠ k) : mapFind (mapDel m k) j = mapFind m j := by
  induction m with
  | nil => rfl
  | cons e t ih =>
    by_cases hk : e.1 = k
    · simp [mapDel, mapFind, hk, ih, Ne.symm h]
    · simp [mapDel, mapFind, hk, ih]

theorem mapFind_ins_self (m : List (Nat × α)) (k : Nat) (v : α) (h : mapFind m k = none) : mapFind (mapIns m k v) k = some v := by
  induction m with
  | nil => simp [mapIns, mapFind]
  | cons e t ih =>
    by_cases hk : e.1 = k
    · simp [mapFind, hk] at h
    · by_cases hl : k < e.1
      · simp [mapIns, mapFind, hl]
      · simp [mapIns, mapFind, hl, hk]
        exact ih (by simpa [mapFind, hk] using h)

theorem mapFind_ins_ne (m : List (Nat × α)) {k j : Nat} (v : α) (h : j ≠ k) : mapFind (mapIns m k v) j = mapFind m j := by
  induction m with
  | nil => simp [mapIns, mapFind, Ne.symm h]
  | cons e t ih =>
    by_cases hl : k < e.1
    · simp [mapIns, mapFind, hl, Ne.symm h]
    · simp [mapIns, mapFind, hl, ih]

/-- A write is read back. -/
@[simp] theorem mapGet_set_self [DecidableEq α] (d : Nat → α) (m : List (Nat × α)) (k : Nat) (v : α) : mapGet d (mapSet d m k v) k = v := by
  unfold mapGet mapSet
  split
  · rename_i h; simp [mapFind_del_self, h]
  · simp [mapFind_ins_self, mapFind_del_self]

/-- A write leaves every other key alone. -/
theorem mapGet_set_ne [DecidableEq α] (d : Nat → α) (m : List (Nat × α)) {k j : Nat} (v : α) (h : j ≠ k) :
    mapGet d (mapSet d m k v) j = mapGet d m j := by
  unfold mapGet mapSet
  split
  · simp [mapFind_del_ne m h]
  · simp [mapFind_ins_ne _ v h, mapFind_del_ne m h]

/-- What a key reads after a write. -/
theorem mapGet_set [DecidableEq α] (d : Nat → α) (m : List (Nat × α)) (k j : Nat) (v : α) :
    mapGet d (mapSet d m k v) j = if j = k then v else mapGet d m j := by
  split
  · rename_i h; subst h; simp
  · rename_i h; exact mapGet_set_ne d m v h

/-! ## The canonical form -/

theorem mapWfFrom_mono [DecidableEq α] (d : Nat → α) (m : List (Nat × α)) {i j : Nat} (h : i ≤ j) (w : mapWfFrom d j m = true) :
    mapWfFrom d i m = true := by
  cases m with
  | nil => rfl
  | cons e t =>
    simp only [mapWfFrom, Bool.and_eq_true, decide_eq_true_eq] at *
    exact ⟨⟨by omega, w.1.2⟩, w.2⟩

theorem mapWfFrom_del [DecidableEq α] (d : Nat → α) (m : List (Nat × α)) (i k : Nat) (w : mapWfFrom d i m = true) :
    mapWfFrom d i (mapDel m k) = true := by
  induction m generalizing i with
  | nil => rfl
  | cons e t ih =>
    simp only [mapWfFrom, Bool.and_eq_true, decide_eq_true_eq] at w
    by_cases hk : e.1 = k
    · simp only [mapDel, hk, if_true]; exact mapWfFrom_mono d _ (by omega) (ih _ w.2)
    · simp only [mapDel, hk, if_false, mapWfFrom, Bool.and_eq_true, decide_eq_true_eq]; exact ⟨w.1, ih _ w.2⟩

theorem mapWfFrom_ins [DecidableEq α] (d : Nat → α) (m : List (Nat × α)) (i k : Nat) (v : α) (w : mapWfFrom d i m = true)
    (hi : i ≤ k) (hv : v ≠ d k) (hf : mapFind m k = none) : mapWfFrom d i (mapIns m k v) = true := by
  induction m generalizing i with
  | nil => simp [mapIns, mapWfFrom, hi, hv]
  | cons e t ih =>
    simp only [mapWfFrom, Bool.and_eq_true, decide_eq_true_eq] at w
    have hk : e.1 ≠ k := by intro h; simp [mapFind, h] at hf
    by_cases hl : k < e.1
    · simp only [mapIns, hl, if_true, mapWfFrom, Bool.and_eq_true, decide_eq_true_eq]; exact ⟨⟨hi, hv⟩, ⟨by omega, w.1.2⟩, w.2⟩
    · simp only [mapIns, hl, if_false, mapWfFrom, Bool.and_eq_true, decide_eq_true_eq]
      exact ⟨w.1, ih _ w.2 (by omega) (by simpa [mapFind, hk] using hf)⟩

/-- A write keeps the canonical form. -/
theorem mapWf_set [DecidableEq α] (d : Nat → α) (m : List (Nat × α)) (k : Nat) (v : α) (w : mapWf d m = true) :
    mapWf d (mapSet d m k v) = true := by
  unfold mapWf mapSet at *
  split
  · exact mapWfFrom_del d m 0 k w
  · rename_i h; exact mapWfFrom_ins d _ 0 k v (mapWfFrom_del d m 0 k w) (Nat.zero_le _) h (mapFind_del_self m k)

/-- Successive writes keep the canonical form. -/
theorem mapWf_setMany [DecidableEq α] (d : Nat → α) (vs : List α) (m : List (Nat × α)) (k : Nat) (w : mapWf d m = true) :
    mapWf d (mapSetMany d m k vs) = true := by
  induction vs generalizing m k with
  | nil => exact w
  | cons v vs ih => exact ih _ _ (mapWf_set d m k v w)

/-- A byte write keeps the canonical form of a memory. -/
theorem Memory.wf_byteSet (m : List (Nat × Byte)) (a : Nat) (b : Byte) (w : Memory.wf m = true) : Memory.wf (byteSet m a b) = true :=
  mapWf_set byteDefault m a b w

/-- A word write keeps the canonical form of a memory. -/
theorem Memory.wf_setWord (m : List (Nat × Byte)) (k : Nat) (v : Word) (w : Memory.wf m = true) : Memory.wf (memSetWord m k v) = true := by
  unfold memSetWord
  exact wf_byteSet _ _ _ (wf_byteSet _ _ _ (wf_byteSet _ _ _ (wf_byteSet _ _ _ w)))

/-! ## Bytes and words -/

theorem byteGet_set (m : List (Nat × Byte)) (a c : Nat) (b : Byte) : byteGet (byteSet m a b) c = if c = a then b else byteGet m c :=
  mapGet_set byteDefault m a c b

/-- The bytes after a word write: the four lanes, and no other byte. -/
theorem byteGet_setWord (m : List (Nat × Byte)) (w c : Nat) (v : Word) :
    byteGet (memSetWord m w v) c = if c / 4 = w then lane v (c % 4) else byteGet m c := by
  unfold memSetWord
  simp only [byteGet_set]
  by_cases h : c / 4 = w
  · have : c = 4 * w ∨ c = 4 * w + 1 ∨ c = 4 * w + 2 ∨ c = 4 * w + 3 := by omega
    rcases this with h1 | h1 | h1 | h1 <;> subst h1 <;> simp <;> omega
  · have h0 : c ≠ 4 * w := by omega
    have h1 : c ≠ 4 * w + 1 := by omega
    have h2 : c ≠ 4 * w + 2 := by omega
    have h3 : c ≠ 4 * w + 3 := by omega
    simp [h, h0, h1, h2, h3]

theorem lanes_join (v : Word) : lane v 3 ++ lane v 2 ++ lane v 1 ++ lane v 0 = v := by
  unfold lane
  apply BitVec.eq_of_getLsbD_eq
  intro i hi
  simp only [BitVec.getLsbD_append, BitVec.getLsbD_extractLsb', decide_eq_true_eq]
  rcases (by omega : i < 8 ∨ (8 ≤ i ∧ i < 16) ∨ (16 ≤ i ∧ i < 24) ∨ (24 ≤ i ∧ i < 32)) with h | h | h | h
  · simp [h]
  · simp [show ¬ i < 8 by omega, show i - 8 < 8 by omega]; congr 1; omega
  · simp [show ¬ i < 8 by omega, show ¬ i - 8 < 8 by omega, show i - 8 - 8 < 8 by omega]; congr 1; omega
  · simp [show ¬ i < 8 by omega, show ¬ i - 8 < 8 by omega, show ¬ i - 8 - 8 < 8 by omega, show i - 8 - 8 - 8 < 8 by omega]; congr 1; omega

/-- A word write is read back. -/
@[simp] theorem memWord_set_self (m : List (Nat × Byte)) (w : Nat) (v : Word) : memWord (memSetWord m w v) w = v := by
  unfold memWord
  simp only [byteGet_setWord]
  rw [if_pos (by omega), if_pos (by omega), if_pos (by omega), if_pos (by omega)]
  have e3 : (4 * w + 3) % 4 = 3 := by omega
  have e2 : (4 * w + 2) % 4 = 2 := by omega
  have e1 : (4 * w + 1) % 4 = 1 := by omega
  have e0 : (4 * w) % 4 = 0 := by omega
  rw [e3, e2, e1, e0]
  exact lanes_join v

/-- A word write leaves every other word alone. -/
theorem memWord_set_ne (m : List (Nat × Byte)) {w u : Nat} (v : Word) (h : u ≠ w) : memWord (memSetWord m w v) u = memWord m u := by
  unfold memWord
  simp only [byteGet_setWord]
  rw [if_neg (by omega), if_neg (by omega), if_neg (by omega), if_neg (by omega)]

end Sys2Proof.Machine
end

