-- ==== Sys2Proof/Laws/State.lean ====
section
/-! SUPPORT. What each update of the state leaves alone, field by field, and what the observers read after it. -/

namespace Sys2Proof.Machine

variable (s : State)

/-! ### setReg -/

@[simp] theorem State.setReg_latch (a : Nat) (v : Word) : (s.setReg a v).latch = s.latch := rfl
@[simp] theorem State.setReg_rdata (a : Nat) (v : Word) : (s.setReg a v).rdata = s.rdata := rfl
@[simp] theorem State.setReg_fc (a : Nat) (v : Word) : (s.setReg a v).fc = s.fc := rfl
@[simp] theorem State.setReg_ticking (a : Nat) (v : Word) : (s.setReg a v).ticking = s.ticking := rfl
@[simp] theorem State.setReg_matFrame (a : Nat) (v : Word) : (s.setReg a v).matFrame = s.matFrame := rfl
@[simp] theorem State.setReg_tab (a : Nat) (v : Word) : (s.setReg a v).tab = s.tab := rfl
@[simp] theorem State.setReg_shad (a : Nat) (v : Word) : (s.setReg a v).shad = s.shad := rfl
@[simp] theorem State.setReg_courses (a : Nat) (v : Word) : (s.setReg a v).courses = s.courses := rfl
@[simp] theorem State.setReg_scratch (a : Nat) (v : Word) : (s.setReg a v).scratch = s.scratch := rfl
@[simp] theorem State.setReg_newOwner (a : Nat) (v : Word) : (s.setReg a v).newOwner = s.newOwner := rfl
@[simp] theorem State.setReg_dram (a : Nat) (v : Word) : (s.setReg a v).dram = s.dram := rfl
@[simp] theorem State.setReg_raced (a : Nat) (v : Word) : (s.setReg a v).raced = s.raced := rfl
@[simp] theorem State.setReg_scrUsed (a : Nat) (v : Word) : (s.setReg a v).scrUsed = s.scrUsed := rfl
@[simp] theorem State.setReg_rr (a : Nat) (v : Word) : (s.setReg a v).rr = s.rr := rfl
@[simp] theorem State.setReg_lines (a : Nat) (v : Word) : (s.setReg a v).lines = s.lines := rfl
@[simp] theorem State.setReg_taps (a : Nat) (v : Word) : (s.setReg a v).taps = s.taps := rfl
@[simp] theorem State.setReg_captured (a : Nat) (v : Word) : (s.setReg a v).captured = s.captured := rfl
@[simp] theorem State.setReg_mixFeeds (a : Nat) (v : Word) : (s.setReg a v).mixFeeds = s.mixFeeds := rfl
@[simp] theorem State.setReg_bus (a : Nat) (v : Word) : (s.setReg a v).bus = s.bus := rfl
@[simp] theorem State.setReg_xents (a : Nat) (v : Word) : (s.setReg a v).xents = s.xents := rfl
@[simp] theorem State.setReg_sels (a : Nat) (v : Word) : (s.setReg a v).sels = s.sels := rfl
@[simp] theorem State.setReg_secs (a : Nat) (v : Word) : (s.setReg a v).secs = s.secs := rfl
@[simp] theorem State.setReg_eqSat (a : Nat) (v : Word) : (s.setReg a v).eqSat = s.eqSat := rfl
@[simp] theorem State.setReg_chainOut (a : Nat) (v : Word) : (s.setReg a v).chainOut = s.chainOut := rfl
@[simp] theorem State.setReg_meters (a : Nat) (v : Word) : (s.setReg a v).meters = s.meters := rfl
@[simp] theorem State.setReg_pegOpen (a : Nat) (v : Word) : (s.setReg a v).pegOpen = s.pegOpen := rfl
@[simp] theorem State.setReg_pegQueue (a : Nat) (v : Word) : (s.setReg a v).pegQueue = s.pegQueue := rfl
@[simp] theorem State.setReg_commits (a : Nat) (v : Word) : (s.setReg a v).commits = s.commits := rfl
@[simp] theorem State.setReg_tokens (a : Nat) (v : Word) : (s.setReg a v).tokens = s.tokens := rfl
@[simp] theorem State.setReg_seq (a : Nat) (v : Word) : (s.setReg a v).seq = s.seq := rfl
@[simp] theorem State.setReg_store (a : Nat) (v : Word) : (s.setReg a v).store = s.store := rfl
@[simp] theorem State.setReg_readyCtr (a : Nat) (v : Word) : (s.setReg a v).readyCtr = s.readyCtr := rfl
@[simp] theorem State.setReg_mute (a : Nat) (v : Word) : (s.setReg a v).mute = s.mute := rfl
@[simp] theorem State.setReg_reactMute (a : Nat) (v : Word) : (s.setReg a v).reactMute = s.reactMute := rfl
@[simp] theorem State.setReg_asrcLost (a : Nat) (v : Word) : (s.setReg a v).asrcLost = s.asrcLost := rfl
@[simp] theorem State.setReg_test (a : Nat) (v : Word) : (s.setReg a v).test = s.test := rfl
@[simp] theorem State.setReg_snap (a : Nat) (v : Word) : (s.setReg a v).snap = s.snap := rfl
@[simp] theorem State.setReg_tbCount (a : Nat) (v : Word) : (s.setReg a v).tbCount = s.tbCount := rfl
@[simp] theorem State.setReg_releaseReq (a : Nat) (v : Word) : (s.setReg a v).releaseReq = s.releaseReq := rfl
@[simp] theorem State.setReg_asrcRatio (a : Nat) (v : Word) : (s.setReg a v).asrcRatio = s.asrcRatio := rfl
@[simp] theorem State.setReg_modeUsed (a : Nat) (v : Word) : (s.setReg a v).modeUsed = s.modeUsed := rfl
@[simp] theorem State.setReg_ports (a : Nat) (v : Word) : (s.setReg a v).ports = s.ports := rfl
@[simp] theorem State.setReg_rxs (a : Nat) (v : Word) : (s.setReg a v).rxs = s.rxs := rfl
@[simp] theorem State.setReg_txs (a : Nat) (v : Word) : (s.setReg a v).txs = s.txs := rfl
@[simp] theorem State.setReg_asrcLev (a : Nat) (v : Word) : (s.setReg a v).asrcLev = s.asrcLev := rfl
@[simp] theorem State.setReg_conv (a : Nat) (v : Word) : (s.setReg a v).conv = s.conv := rfl
@[simp] theorem State.setReg_asrcOut (a : Nat) (v : Word) : (s.setReg a v).asrcOut = s.asrcOut := rfl
@[simp] theorem State.setReg_rxFlows (a : Nat) (v : Word) : (s.setReg a v).rxFlows = s.rxFlows := rfl
@[simp] theorem State.setReg_txFlows (a : Nat) (v : Word) : (s.setReg a v).txFlows = s.txFlows := rfl
@[simp] theorem State.setReg_flowErr (a : Nat) (v : Word) : (s.setReg a v).flowErr = s.flowErr := rfl
@[simp] theorem State.setReg_wire (a : Nat) (v : Word) : (s.setReg a v).wire = s.wire := rfl
@[simp] theorem State.setReg_ringHold (a : Nat) (v : Word) : (s.setReg a v).ringHold = s.ringHold := rfl
@[simp] theorem State.setReg_partnerFlows (a : Nat) (v : Word) : (s.setReg a v).partnerFlows = s.partnerFlows := rfl
@[simp] theorem State.setReg_conns (a : Nat) (v : Word) : (s.setReg a v).conns = s.conns := rfl
@[simp] theorem State.setReg_partnersRefused (a : Nat) (v : Word) : (s.setReg a v).partnersRefused = s.partnersRefused := rfl
@[simp] theorem State.setReg_delronNet (a : Nat) (v : Word) : (s.setReg a v).delronNet = s.delronNet := rfl
@[simp] theorem State.setReg_outFill (a : Nat) (v : Word) : (s.setReg a v).outFill = s.outFill := rfl
@[simp] theorem State.setReg_outWait (a : Nat) (v : Word) : (s.setReg a v).outWait = s.outWait := rfl
@[simp] theorem State.setReg_pairEn (a : Nat) (v : Word) : (s.setReg a v).pairEn = s.pairEn := rfl
@[simp] theorem State.setReg_fwdSent (a : Nat) (v : Word) : (s.setReg a v).fwdSent = s.fwdSent := rfl
@[simp] theorem State.setReg_fwdApplied (a : Nat) (v : Word) : (s.setReg a v).fwdApplied = s.fwdApplied := rfl
@[simp] theorem State.setReg_cancelWait (a : Nat) (v : Word) : (s.setReg a v).cancelWait = s.cancelWait := rfl
@[simp] theorem State.setReg_anchors (a : Nat) (v : Word) : (s.setReg a v).anchors = s.anchors := rfl
@[simp] theorem State.setReg_ancPend (a : Nat) (v : Word) : (s.setReg a v).ancPend = s.ancPend := rfl
@[simp] theorem State.setReg_capCnt (a : Nat) (v : Word) : (s.setReg a v).capCnt = s.capCnt := rfl
@[simp] theorem State.setReg_capSec (a : Nat) (v : Word) : (s.setReg a v).capSec = s.capSec := rfl
@[simp] theorem State.setReg_slotSeen (a : Nat) (v : Word) : (s.setReg a v).slotSeen = s.slotSeen := rfl
@[simp] theorem State.setReg_refMeans (a : Nat) (v : Word) : (s.setReg a v).refMeans = s.refMeans := rfl
@[simp] theorem State.setReg_refSec (a : Nat) (v : Word) : (s.setReg a v).refSec = s.refSec := rfl
@[simp] theorem State.setReg_disPairs (a : Nat) (v : Word) : (s.setReg a v).disPairs = s.disPairs := rfl
@[simp] theorem State.setReg_genReq (a : Nat) (v : Word) : (s.setReg a v).genReq = s.genReq := rfl
@[simp] theorem State.setReg_timing (a : Nat) (v : Word) : (s.setReg a v).timing = s.timing := rfl
@[simp] theorem State.setReg_divNow (a : Nat) (v : Word) : (s.setReg a v).divNow = s.divNow := rfl
@[simp] theorem State.setReg_divHold (a : Nat) (v : Word) : (s.setReg a v).divHold = s.divHold := rfl
@[simp] theorem State.setReg_earlyDiv (a : Nat) (v : Word) : (s.setReg a v).earlyDiv = s.earlyDiv := rfl
@[simp] theorem State.setReg_earlySsc (a : Nat) (v : Word) : (s.setReg a v).earlySsc = s.earlySsc := rfl
@[simp] theorem State.setReg_xoFromRun (a : Nat) (v : Word) : (s.setReg a v).xoFromRun = s.xoFromRun := rfl
@[simp] theorem State.setReg_modeStep (a : Nat) (v : Word) : (s.setReg a v).modeStep = s.modeStep := rfl
@[simp] theorem State.setReg_modeQueued (a : Nat) (v : Word) : (s.setReg a v).modeQueued = s.modeQueued := rfl
@[simp] theorem State.setReg_sup (a : Nat) (v : Word) : (s.setReg a v).sup = s.sup := rfl
@[simp] theorem State.setReg_wakePend (a : Nat) (v : Word) : (s.setReg a v).wakePend = s.wakePend := rfl
@[simp] theorem State.setReg_railsUp (a : Nat) (v : Word) : (s.setReg a v).railsUp = s.railsUp := rfl
@[simp] theorem State.setReg_rstOut (a : Nat) (v : Word) : (s.setReg a v).rstOut = s.rstOut := rfl
@[simp] theorem State.setReg_holdupDue (a : Nat) (v : Word) : (s.setReg a v).holdupDue = s.holdupDue := rfl
@[simp] theorem State.setReg_holdup (a : Nat) (v : Word) : (s.setReg a v).holdup = s.holdup := rfl
@[simp] theorem State.setReg_flash (a : Nat) (v : Word) : (s.setReg a v).flash = s.flash := rfl
@[simp] theorem State.setReg_flashPart (a : Nat) (v : Word) : (s.setReg a v).flashPart = s.flashPart := rfl
@[simp] theorem State.setReg_flCmd (a : Nat) (v : Word) : (s.setReg a v).flCmd = s.flCmd := rfl
@[simp] theorem State.setReg_fuseKey (a : Nat) (v : Word) : (s.setReg a v).fuseKey = s.fuseKey := rfl
@[simp] theorem State.setReg_fuseLock (a : Nat) (v : Word) : (s.setReg a v).fuseLock = s.fuseLock := rfl
@[simp] theorem State.setReg_otpRun (a : Nat) (v : Word) : (s.setReg a v).otpRun = s.otpRun := rfl
@[simp] theorem State.setReg_loading (a : Nat) (v : Word) : (s.setReg a v).loading = s.loading := rfl
@[simp] theorem State.setReg_resetDue (a : Nat) (v : Word) : (s.setReg a v).resetDue = s.resetDue := rfl
@[simp] theorem State.setReg_bootEv (a : Nat) (v : Word) : (s.setReg a v).bootEv = s.bootEv := rfl
@[simp] theorem State.setReg_bootOwn (a : Nat) (v : Word) : (s.setReg a v).bootOwn = s.bootOwn := rfl
@[simp] theorem State.setReg_railsOff (a : Nat) (v : Word) : (s.setReg a v).railsOff = s.railsOff := rfl
@[simp] theorem State.setReg_toOpen (a : Nat) (v : Word) : (s.setReg a v).toOpen = s.toOpen := rfl
@[simp] theorem State.setReg_claimCount (a : Nat) (v : Word) : (s.setReg a v).claimCount = s.claimCount := rfl
@[simp] theorem State.setReg_linkRun (a : Nat) (v : Word) : (s.setReg a v).linkRun = s.linkRun := rfl
@[simp] theorem State.setReg_hbFrame (a : Nat) (v : Word) : (s.setReg a v).hbFrame = s.hbFrame := rfl
@[simp] theorem State.setReg_skewGood (a : Nat) (v : Word) : (s.setReg a v).skewGood = s.skewGood := rfl
@[simp] theorem State.setReg_skewBad (a : Nat) (v : Word) : (s.setReg a v).skewBad = s.skewBad := rfl
@[simp] theorem State.setReg_joinStep (a : Nat) (v : Word) : (s.setReg a v).joinStep = s.joinStep := rfl
@[simp] theorem State.setReg_hashes (a : Nat) (v : Word) : (s.setReg a v).hashes = s.hashes := rfl
@[simp] theorem State.setReg_digests (a : Nat) (v : Word) : (s.setReg a v).digests = s.digests := rfl
@[simp] theorem State.setReg_matched (a : Nat) (v : Word) : (s.setReg a v).matched = s.matched := rfl
@[simp] theorem State.setReg_hbSent (a : Nat) (v : Word) : (s.setReg a v).hbSent = s.hbSent := rfl
@[simp] theorem State.setReg_epochRun (a : Nat) (v : Word) : (s.setReg a v).epochRun = s.epochRun := rfl
@[simp] theorem State.setReg_epochLast (a : Nat) (v : Word) : (s.setReg a v).epochLast = s.epochLast := rfl
@[simp] theorem State.setReg_epochReq (a : Nat) (v : Word) : (s.setReg a v).epochReq = s.epochReq := rfl
@[simp] theorem State.setReg_finalEpoch (a : Nat) (v : Word) : (s.setReg a v).finalEpoch = s.finalEpoch := rfl
@[simp] theorem State.setReg_relDue (a : Nat) (v : Word) : (s.setReg a v).relDue = s.relDue := rfl
@[simp] theorem State.setReg_relDone (a : Nat) (v : Word) : (s.setReg a v).relDone = s.relDone := rfl
@[simp] theorem State.setReg_epochRx (a : Nat) (v : Word) : (s.setReg a v).epochRx = s.epochRx := rfl
@[simp] theorem State.setReg_liveStart (a : Nat) (v : Word) : (s.setReg a v).liveStart = s.liveStart := rfl
@[simp] theorem State.setReg_sceneNeed (a : Nat) (v : Word) : (s.setReg a v).sceneNeed = s.sceneNeed := rfl
@[simp] theorem State.setReg_ownCur (a : Nat) (v : Word) : (s.setReg a v).ownCur = s.ownCur := rfl
@[simp] theorem State.setReg_ownPrev (a : Nat) (v : Word) : (s.setReg a v).ownPrev = s.ownPrev := rfl
@[simp] theorem State.setReg_relArmed (a : Nat) (v : Word) : (s.setReg a v).relArmed = s.relArmed := rfl
@[simp] theorem State.setReg_syncSent (a : Nat) (v : Word) : (s.setReg a v).syncSent = s.syncSent := rfl
@[simp] theorem State.setReg_spiResp (a : Nat) (v : Word) : (s.setReg a v).spiResp = s.spiResp := rfl
@[simp] theorem State.setReg_testPort (a : Nat) (v : Word) : (s.setReg a v).testPort = s.testPort := rfl
@[simp] theorem State.setReg_freeCtr (a : Nat) (v : Word) : (s.setReg a v).freeCtr = s.freeCtr := rfl
@[simp] theorem State.setReg_pending (a : Nat) (v : Word) : (s.setReg a v).pending = s.pending := rfl

/-! ### setCourse -/

@[simp] theorem State.setCourse_regs (n : CourseId) (c : Course) : (s.setCourse n c).regs = s.regs := rfl
@[simp] theorem State.setCourse_latch (n : CourseId) (c : Course) : (s.setCourse n c).latch = s.latch := rfl
@[simp] theorem State.setCourse_rdata (n : CourseId) (c : Course) : (s.setCourse n c).rdata = s.rdata := rfl
@[simp] theorem State.setCourse_fc (n : CourseId) (c : Course) : (s.setCourse n c).fc = s.fc := rfl
@[simp] theorem State.setCourse_ticking (n : CourseId) (c : Course) : (s.setCourse n c).ticking = s.ticking := rfl
@[simp] theorem State.setCourse_matFrame (n : CourseId) (c : Course) : (s.setCourse n c).matFrame = s.matFrame := rfl
@[simp] theorem State.setCourse_tab (n : CourseId) (c : Course) : (s.setCourse n c).tab = s.tab := rfl
@[simp] theorem State.setCourse_shad (n : CourseId) (c : Course) : (s.setCourse n c).shad = s.shad := rfl
@[simp] theorem State.setCourse_scratch (n : CourseId) (c : Course) : (s.setCourse n c).scratch = s.scratch := rfl
@[simp] theorem State.setCourse_newOwner (n : CourseId) (c : Course) : (s.setCourse n c).newOwner = s.newOwner := rfl
@[simp] theorem State.setCourse_dram (n : CourseId) (c : Course) : (s.setCourse n c).dram = s.dram := rfl
@[simp] theorem State.setCourse_raced (n : CourseId) (c : Course) : (s.setCourse n c).raced = s.raced := rfl
@[simp] theorem State.setCourse_scrUsed (n : CourseId) (c : Course) : (s.setCourse n c).scrUsed = s.scrUsed := rfl
@[simp] theorem State.setCourse_rr (n : CourseId) (c : Course) : (s.setCourse n c).rr = s.rr := rfl
@[simp] theorem State.setCourse_lines (n : CourseId) (c : Course) : (s.setCourse n c).lines = s.lines := rfl
@[simp] theorem State.setCourse_taps (n : CourseId) (c : Course) : (s.setCourse n c).taps = s.taps := rfl
@[simp] theorem State.setCourse_captured (n : CourseId) (c : Course) : (s.setCourse n c).captured = s.captured := rfl
@[simp] theorem State.setCourse_mixFeeds (n : CourseId) (c : Course) : (s.setCourse n c).mixFeeds = s.mixFeeds := rfl
@[simp] theorem State.setCourse_bus (n : CourseId) (c : Course) : (s.setCourse n c).bus = s.bus := rfl
@[simp] theorem State.setCourse_xents (n : CourseId) (c : Course) : (s.setCourse n c).xents = s.xents := rfl
@[simp] theorem State.setCourse_sels (n : CourseId) (c : Course) : (s.setCourse n c).sels = s.sels := rfl
@[simp] theorem State.setCourse_secs (n : CourseId) (c : Course) : (s.setCourse n c).secs = s.secs := rfl
@[simp] theorem State.setCourse_eqSat (n : CourseId) (c : Course) : (s.setCourse n c).eqSat = s.eqSat := rfl
@[simp] theorem State.setCourse_chainOut (n : CourseId) (c : Course) : (s.setCourse n c).chainOut = s.chainOut := rfl
@[simp] theorem State.setCourse_meters (n : CourseId) (c : Course) : (s.setCourse n c).meters = s.meters := rfl
@[simp] theorem State.setCourse_pegOpen (n : CourseId) (c : Course) : (s.setCourse n c).pegOpen = s.pegOpen := rfl
@[simp] theorem State.setCourse_pegQueue (n : CourseId) (c : Course) : (s.setCourse n c).pegQueue = s.pegQueue := rfl
@[simp] theorem State.setCourse_commits (n : CourseId) (c : Course) : (s.setCourse n c).commits = s.commits := rfl
@[simp] theorem State.setCourse_tokens (n : CourseId) (c : Course) : (s.setCourse n c).tokens = s.tokens := rfl
@[simp] theorem State.setCourse_seq (n : CourseId) (c : Course) : (s.setCourse n c).seq = s.seq := rfl
@[simp] theorem State.setCourse_store (n : CourseId) (c : Course) : (s.setCourse n c).store = s.store := rfl
@[simp] theorem State.setCourse_readyCtr (n : CourseId) (c : Course) : (s.setCourse n c).readyCtr = s.readyCtr := rfl
@[simp] theorem State.setCourse_mute (n : CourseId) (c : Course) : (s.setCourse n c).mute = s.mute := rfl
@[simp] theorem State.setCourse_reactMute (n : CourseId) (c : Course) : (s.setCourse n c).reactMute = s.reactMute := rfl
@[simp] theorem State.setCourse_asrcLost (n : CourseId) (c : Course) : (s.setCourse n c).asrcLost = s.asrcLost := rfl
@[simp] theorem State.setCourse_test (n : CourseId) (c : Course) : (s.setCourse n c).test = s.test := rfl
@[simp] theorem State.setCourse_snap (n : CourseId) (c : Course) : (s.setCourse n c).snap = s.snap := rfl
@[simp] theorem State.setCourse_tbCount (n : CourseId) (c : Course) : (s.setCourse n c).tbCount = s.tbCount := rfl
@[simp] theorem State.setCourse_releaseReq (n : CourseId) (c : Course) : (s.setCourse n c).releaseReq = s.releaseReq := rfl
@[simp] theorem State.setCourse_asrcRatio (n : CourseId) (c : Course) : (s.setCourse n c).asrcRatio = s.asrcRatio := rfl
@[simp] theorem State.setCourse_modeUsed (n : CourseId) (c : Course) : (s.setCourse n c).modeUsed = s.modeUsed := rfl
@[simp] theorem State.setCourse_ports (n : CourseId) (c : Course) : (s.setCourse n c).ports = s.ports := rfl
@[simp] theorem State.setCourse_rxs (n : CourseId) (c : Course) : (s.setCourse n c).rxs = s.rxs := rfl
@[simp] theorem State.setCourse_txs (n : CourseId) (c : Course) : (s.setCourse n c).txs = s.txs := rfl
@[simp] theorem State.setCourse_asrcLev (n : CourseId) (c : Course) : (s.setCourse n c).asrcLev = s.asrcLev := rfl
@[simp] theorem State.setCourse_conv (n : CourseId) (c : Course) : (s.setCourse n c).conv = s.conv := rfl
@[simp] theorem State.setCourse_asrcOut (n : CourseId) (c : Course) : (s.setCourse n c).asrcOut = s.asrcOut := rfl
@[simp] theorem State.setCourse_rxFlows (n : CourseId) (c : Course) : (s.setCourse n c).rxFlows = s.rxFlows := rfl
@[simp] theorem State.setCourse_txFlows (n : CourseId) (c : Course) : (s.setCourse n c).txFlows = s.txFlows := rfl
@[simp] theorem State.setCourse_flowErr (n : CourseId) (c : Course) : (s.setCourse n c).flowErr = s.flowErr := rfl
@[simp] theorem State.setCourse_wire (n : CourseId) (c : Course) : (s.setCourse n c).wire = s.wire := rfl
@[simp] theorem State.setCourse_ringHold (n : CourseId) (c : Course) : (s.setCourse n c).ringHold = s.ringHold := rfl
@[simp] theorem State.setCourse_partnerFlows (n : CourseId) (c : Course) : (s.setCourse n c).partnerFlows = s.partnerFlows := rfl
@[simp] theorem State.setCourse_conns (n : CourseId) (c : Course) : (s.setCourse n c).conns = s.conns := rfl
@[simp] theorem State.setCourse_partnersRefused (n : CourseId) (c : Course) : (s.setCourse n c).partnersRefused = s.partnersRefused := rfl
@[simp] theorem State.setCourse_delronNet (n : CourseId) (c : Course) : (s.setCourse n c).delronNet = s.delronNet := rfl
@[simp] theorem State.setCourse_outFill (n : CourseId) (c : Course) : (s.setCourse n c).outFill = s.outFill := rfl
@[simp] theorem State.setCourse_outWait (n : CourseId) (c : Course) : (s.setCourse n c).outWait = s.outWait := rfl
@[simp] theorem State.setCourse_pairEn (n : CourseId) (c : Course) : (s.setCourse n c).pairEn = s.pairEn := rfl
@[simp] theorem State.setCourse_fwdSent (n : CourseId) (c : Course) : (s.setCourse n c).fwdSent = s.fwdSent := rfl
@[simp] theorem State.setCourse_fwdApplied (n : CourseId) (c : Course) : (s.setCourse n c).fwdApplied = s.fwdApplied := rfl
@[simp] theorem State.setCourse_cancelWait (n : CourseId) (c : Course) : (s.setCourse n c).cancelWait = s.cancelWait := rfl
@[simp] theorem State.setCourse_anchors (n : CourseId) (c : Course) : (s.setCourse n c).anchors = s.anchors := rfl
@[simp] theorem State.setCourse_ancPend (n : CourseId) (c : Course) : (s.setCourse n c).ancPend = s.ancPend := rfl
@[simp] theorem State.setCourse_capCnt (n : CourseId) (c : Course) : (s.setCourse n c).capCnt = s.capCnt := rfl
@[simp] theorem State.setCourse_capSec (n : CourseId) (c : Course) : (s.setCourse n c).capSec = s.capSec := rfl
@[simp] theorem State.setCourse_slotSeen (n : CourseId) (c : Course) : (s.setCourse n c).slotSeen = s.slotSeen := rfl
@[simp] theorem State.setCourse_refMeans (n : CourseId) (c : Course) : (s.setCourse n c).refMeans = s.refMeans := rfl
@[simp] theorem State.setCourse_refSec (n : CourseId) (c : Course) : (s.setCourse n c).refSec = s.refSec := rfl
@[simp] theorem State.setCourse_disPairs (n : CourseId) (c : Course) : (s.setCourse n c).disPairs = s.disPairs := rfl
@[simp] theorem State.setCourse_genReq (n : CourseId) (c : Course) : (s.setCourse n c).genReq = s.genReq := rfl
@[simp] theorem State.setCourse_timing (n : CourseId) (c : Course) : (s.setCourse n c).timing = s.timing := rfl
@[simp] theorem State.setCourse_divNow (n : CourseId) (c : Course) : (s.setCourse n c).divNow = s.divNow := rfl
@[simp] theorem State.setCourse_divHold (n : CourseId) (c : Course) : (s.setCourse n c).divHold = s.divHold := rfl
@[simp] theorem State.setCourse_earlyDiv (n : CourseId) (c : Course) : (s.setCourse n c).earlyDiv = s.earlyDiv := rfl
@[simp] theorem State.setCourse_earlySsc (n : CourseId) (c : Course) : (s.setCourse n c).earlySsc = s.earlySsc := rfl
@[simp] theorem State.setCourse_xoFromRun (n : CourseId) (c : Course) : (s.setCourse n c).xoFromRun = s.xoFromRun := rfl
@[simp] theorem State.setCourse_modeStep (n : CourseId) (c : Course) : (s.setCourse n c).modeStep = s.modeStep := rfl
@[simp] theorem State.setCourse_modeQueued (n : CourseId) (c : Course) : (s.setCourse n c).modeQueued = s.modeQueued := rfl
@[simp] theorem State.setCourse_sup (n : CourseId) (c : Course) : (s.setCourse n c).sup = s.sup := rfl
@[simp] theorem State.setCourse_wakePend (n : CourseId) (c : Course) : (s.setCourse n c).wakePend = s.wakePend := rfl
@[simp] theorem State.setCourse_railsUp (n : CourseId) (c : Course) : (s.setCourse n c).railsUp = s.railsUp := rfl
@[simp] theorem State.setCourse_rstOut (n : CourseId) (c : Course) : (s.setCourse n c).rstOut = s.rstOut := rfl
@[simp] theorem State.setCourse_holdupDue (n : CourseId) (c : Course) : (s.setCourse n c).holdupDue = s.holdupDue := rfl
@[simp] theorem State.setCourse_holdup (n : CourseId) (c : Course) : (s.setCourse n c).holdup = s.holdup := rfl
@[simp] theorem State.setCourse_flash (n : CourseId) (c : Course) : (s.setCourse n c).flash = s.flash := rfl
@[simp] theorem State.setCourse_flashPart (n : CourseId) (c : Course) : (s.setCourse n c).flashPart = s.flashPart := rfl
@[simp] theorem State.setCourse_flCmd (n : CourseId) (c : Course) : (s.setCourse n c).flCmd = s.flCmd := rfl
@[simp] theorem State.setCourse_fuseKey (n : CourseId) (c : Course) : (s.setCourse n c).fuseKey = s.fuseKey := rfl
@[simp] theorem State.setCourse_fuseLock (n : CourseId) (c : Course) : (s.setCourse n c).fuseLock = s.fuseLock := rfl
@[simp] theorem State.setCourse_otpRun (n : CourseId) (c : Course) : (s.setCourse n c).otpRun = s.otpRun := rfl
@[simp] theorem State.setCourse_loading (n : CourseId) (c : Course) : (s.setCourse n c).loading = s.loading := rfl
@[simp] theorem State.setCourse_resetDue (n : CourseId) (c : Course) : (s.setCourse n c).resetDue = s.resetDue := rfl
@[simp] theorem State.setCourse_bootEv (n : CourseId) (c : Course) : (s.setCourse n c).bootEv = s.bootEv := rfl
@[simp] theorem State.setCourse_bootOwn (n : CourseId) (c : Course) : (s.setCourse n c).bootOwn = s.bootOwn := rfl
@[simp] theorem State.setCourse_railsOff (n : CourseId) (c : Course) : (s.setCourse n c).railsOff = s.railsOff := rfl
@[simp] theorem State.setCourse_toOpen (n : CourseId) (c : Course) : (s.setCourse n c).toOpen = s.toOpen := rfl
@[simp] theorem State.setCourse_claimCount (n : CourseId) (c : Course) : (s.setCourse n c).claimCount = s.claimCount := rfl
@[simp] theorem State.setCourse_linkRun (n : CourseId) (c : Course) : (s.setCourse n c).linkRun = s.linkRun := rfl
@[simp] theorem State.setCourse_hbFrame (n : CourseId) (c : Course) : (s.setCourse n c).hbFrame = s.hbFrame := rfl
@[simp] theorem State.setCourse_skewGood (n : CourseId) (c : Course) : (s.setCourse n c).skewGood = s.skewGood := rfl
@[simp] theorem State.setCourse_skewBad (n : CourseId) (c : Course) : (s.setCourse n c).skewBad = s.skewBad := rfl
@[simp] theorem State.setCourse_joinStep (n : CourseId) (c : Course) : (s.setCourse n c).joinStep = s.joinStep := rfl
@[simp] theorem State.setCourse_hashes (n : CourseId) (c : Course) : (s.setCourse n c).hashes = s.hashes := rfl
@[simp] theorem State.setCourse_digests (n : CourseId) (c : Course) : (s.setCourse n c).digests = s.digests := rfl
@[simp] theorem State.setCourse_matched (n : CourseId) (c : Course) : (s.setCourse n c).matched = s.matched := rfl
@[simp] theorem State.setCourse_hbSent (n : CourseId) (c : Course) : (s.setCourse n c).hbSent = s.hbSent := rfl
@[simp] theorem State.setCourse_epochRun (n : CourseId) (c : Course) : (s.setCourse n c).epochRun = s.epochRun := rfl
@[simp] theorem State.setCourse_epochLast (n : CourseId) (c : Course) : (s.setCourse n c).epochLast = s.epochLast := rfl
@[simp] theorem State.setCourse_epochReq (n : CourseId) (c : Course) : (s.setCourse n c).epochReq = s.epochReq := rfl
@[simp] theorem State.setCourse_finalEpoch (n : CourseId) (c : Course) : (s.setCourse n c).finalEpoch = s.finalEpoch := rfl
@[simp] theorem State.setCourse_relDue (n : CourseId) (c : Course) : (s.setCourse n c).relDue = s.relDue := rfl
@[simp] theorem State.setCourse_relDone (n : CourseId) (c : Course) : (s.setCourse n c).relDone = s.relDone := rfl
@[simp] theorem State.setCourse_epochRx (n : CourseId) (c : Course) : (s.setCourse n c).epochRx = s.epochRx := rfl
@[simp] theorem State.setCourse_liveStart (n : CourseId) (c : Course) : (s.setCourse n c).liveStart = s.liveStart := rfl
@[simp] theorem State.setCourse_sceneNeed (n : CourseId) (c : Course) : (s.setCourse n c).sceneNeed = s.sceneNeed := rfl
@[simp] theorem State.setCourse_ownCur (n : CourseId) (c : Course) : (s.setCourse n c).ownCur = s.ownCur := rfl
@[simp] theorem State.setCourse_ownPrev (n : CourseId) (c : Course) : (s.setCourse n c).ownPrev = s.ownPrev := rfl
@[simp] theorem State.setCourse_relArmed (n : CourseId) (c : Course) : (s.setCourse n c).relArmed = s.relArmed := rfl
@[simp] theorem State.setCourse_syncSent (n : CourseId) (c : Course) : (s.setCourse n c).syncSent = s.syncSent := rfl
@[simp] theorem State.setCourse_spiResp (n : CourseId) (c : Course) : (s.setCourse n c).spiResp = s.spiResp := rfl
@[simp] theorem State.setCourse_testPort (n : CourseId) (c : Course) : (s.setCourse n c).testPort = s.testPort := rfl
@[simp] theorem State.setCourse_freeCtr (n : CourseId) (c : Course) : (s.setCourse n c).freeCtr = s.freeCtr := rfl
@[simp] theorem State.setCourse_pending (n : CourseId) (c : Course) : (s.setCourse n c).pending = s.pending := rfl

/-! ### modCourse -/

@[simp] theorem State.modCourse_regs (n : CourseId) (f : Course → Course) : (s.modCourse n f).regs = s.regs := rfl
@[simp] theorem State.modCourse_latch (n : CourseId) (f : Course → Course) : (s.modCourse n f).latch = s.latch := rfl
@[simp] theorem State.modCourse_rdata (n : CourseId) (f : Course → Course) : (s.modCourse n f).rdata = s.rdata := rfl
@[simp] theorem State.modCourse_fc (n : CourseId) (f : Course → Course) : (s.modCourse n f).fc = s.fc := rfl
@[simp] theorem State.modCourse_ticking (n : CourseId) (f : Course → Course) : (s.modCourse n f).ticking = s.ticking := rfl
@[simp] theorem State.modCourse_matFrame (n : CourseId) (f : Course → Course) : (s.modCourse n f).matFrame = s.matFrame := rfl
@[simp] theorem State.modCourse_tab (n : CourseId) (f : Course → Course) : (s.modCourse n f).tab = s.tab := rfl
@[simp] theorem State.modCourse_shad (n : CourseId) (f : Course → Course) : (s.modCourse n f).shad = s.shad := rfl
@[simp] theorem State.modCourse_scratch (n : CourseId) (f : Course → Course) : (s.modCourse n f).scratch = s.scratch := rfl
@[simp] theorem State.modCourse_newOwner (n : CourseId) (f : Course → Course) : (s.modCourse n f).newOwner = s.newOwner := rfl
@[simp] theorem State.modCourse_dram (n : CourseId) (f : Course → Course) : (s.modCourse n f).dram = s.dram := rfl
@[simp] theorem State.modCourse_raced (n : CourseId) (f : Course → Course) : (s.modCourse n f).raced = s.raced := rfl
@[simp] theorem State.modCourse_scrUsed (n : CourseId) (f : Course → Course) : (s.modCourse n f).scrUsed = s.scrUsed := rfl
@[simp] theorem State.modCourse_rr (n : CourseId) (f : Course → Course) : (s.modCourse n f).rr = s.rr := rfl
@[simp] theorem State.modCourse_lines (n : CourseId) (f : Course → Course) : (s.modCourse n f).lines = s.lines := rfl
@[simp] theorem State.modCourse_taps (n : CourseId) (f : Course → Course) : (s.modCourse n f).taps = s.taps := rfl
@[simp] theorem State.modCourse_captured (n : CourseId) (f : Course → Course) : (s.modCourse n f).captured = s.captured := rfl
@[simp] theorem State.modCourse_mixFeeds (n : CourseId) (f : Course → Course) : (s.modCourse n f).mixFeeds = s.mixFeeds := rfl
@[simp] theorem State.modCourse_bus (n : CourseId) (f : Course → Course) : (s.modCourse n f).bus = s.bus := rfl
@[simp] theorem State.modCourse_xents (n : CourseId) (f : Course → Course) : (s.modCourse n f).xents = s.xents := rfl
@[simp] theorem State.modCourse_sels (n : CourseId) (f : Course → Course) : (s.modCourse n f).sels = s.sels := rfl
@[simp] theorem State.modCourse_secs (n : CourseId) (f : Course → Course) : (s.modCourse n f).secs = s.secs := rfl
@[simp] theorem State.modCourse_eqSat (n : CourseId) (f : Course → Course) : (s.modCourse n f).eqSat = s.eqSat := rfl
@[simp] theorem State.modCourse_chainOut (n : CourseId) (f : Course → Course) : (s.modCourse n f).chainOut = s.chainOut := rfl
@[simp] theorem State.modCourse_meters (n : CourseId) (f : Course → Course) : (s.modCourse n f).meters = s.meters := rfl
@[simp] theorem State.modCourse_pegOpen (n : CourseId) (f : Course → Course) : (s.modCourse n f).pegOpen = s.pegOpen := rfl
@[simp] theorem State.modCourse_pegQueue (n : CourseId) (f : Course → Course) : (s.modCourse n f).pegQueue = s.pegQueue := rfl
@[simp] theorem State.modCourse_commits (n : CourseId) (f : Course → Course) : (s.modCourse n f).commits = s.commits := rfl
@[simp] theorem State.modCourse_tokens (n : CourseId) (f : Course → Course) : (s.modCourse n f).tokens = s.tokens := rfl
@[simp] theorem State.modCourse_seq (n : CourseId) (f : Course → Course) : (s.modCourse n f).seq = s.seq := rfl
@[simp] theorem State.modCourse_store (n : CourseId) (f : Course → Course) : (s.modCourse n f).store = s.store := rfl
@[simp] theorem State.modCourse_readyCtr (n : CourseId) (f : Course → Course) : (s.modCourse n f).readyCtr = s.readyCtr := rfl
@[simp] theorem State.modCourse_mute (n : CourseId) (f : Course → Course) : (s.modCourse n f).mute = s.mute := rfl
@[simp] theorem State.modCourse_reactMute (n : CourseId) (f : Course → Course) : (s.modCourse n f).reactMute = s.reactMute := rfl
@[simp] theorem State.modCourse_asrcLost (n : CourseId) (f : Course → Course) : (s.modCourse n f).asrcLost = s.asrcLost := rfl
@[simp] theorem State.modCourse_test (n : CourseId) (f : Course → Course) : (s.modCourse n f).test = s.test := rfl
@[simp] theorem State.modCourse_snap (n : CourseId) (f : Course → Course) : (s.modCourse n f).snap = s.snap := rfl
@[simp] theorem State.modCourse_tbCount (n : CourseId) (f : Course → Course) : (s.modCourse n f).tbCount = s.tbCount := rfl
@[simp] theorem State.modCourse_releaseReq (n : CourseId) (f : Course → Course) : (s.modCourse n f).releaseReq = s.releaseReq := rfl
@[simp] theorem State.modCourse_asrcRatio (n : CourseId) (f : Course → Course) : (s.modCourse n f).asrcRatio = s.asrcRatio := rfl
@[simp] theorem State.modCourse_modeUsed (n : CourseId) (f : Course → Course) : (s.modCourse n f).modeUsed = s.modeUsed := rfl
@[simp] theorem State.modCourse_ports (n : CourseId) (f : Course → Course) : (s.modCourse n f).ports = s.ports := rfl
@[simp] theorem State.modCourse_rxs (n : CourseId) (f : Course → Course) : (s.modCourse n f).rxs = s.rxs := rfl
@[simp] theorem State.modCourse_txs (n : CourseId) (f : Course → Course) : (s.modCourse n f).txs = s.txs := rfl
@[simp] theorem State.modCourse_asrcLev (n : CourseId) (f : Course → Course) : (s.modCourse n f).asrcLev = s.asrcLev := rfl
@[simp] theorem State.modCourse_conv (n : CourseId) (f : Course → Course) : (s.modCourse n f).conv = s.conv := rfl
@[simp] theorem State.modCourse_asrcOut (n : CourseId) (f : Course → Course) : (s.modCourse n f).asrcOut = s.asrcOut := rfl
@[simp] theorem State.modCourse_rxFlows (n : CourseId) (f : Course → Course) : (s.modCourse n f).rxFlows = s.rxFlows := rfl
@[simp] theorem State.modCourse_txFlows (n : CourseId) (f : Course → Course) : (s.modCourse n f).txFlows = s.txFlows := rfl
@[simp] theorem State.modCourse_flowErr (n : CourseId) (f : Course → Course) : (s.modCourse n f).flowErr = s.flowErr := rfl
@[simp] theorem State.modCourse_wire (n : CourseId) (f : Course → Course) : (s.modCourse n f).wire = s.wire := rfl
@[simp] theorem State.modCourse_ringHold (n : CourseId) (f : Course → Course) : (s.modCourse n f).ringHold = s.ringHold := rfl
@[simp] theorem State.modCourse_partnerFlows (n : CourseId) (f : Course → Course) : (s.modCourse n f).partnerFlows = s.partnerFlows := rfl
@[simp] theorem State.modCourse_conns (n : CourseId) (f : Course → Course) : (s.modCourse n f).conns = s.conns := rfl
@[simp] theorem State.modCourse_partnersRefused (n : CourseId) (f : Course → Course) : (s.modCourse n f).partnersRefused = s.partnersRefused := rfl
@[simp] theorem State.modCourse_delronNet (n : CourseId) (f : Course → Course) : (s.modCourse n f).delronNet = s.delronNet := rfl
@[simp] theorem State.modCourse_outFill (n : CourseId) (f : Course → Course) : (s.modCourse n f).outFill = s.outFill := rfl
@[simp] theorem State.modCourse_outWait (n : CourseId) (f : Course → Course) : (s.modCourse n f).outWait = s.outWait := rfl
@[simp] theorem State.modCourse_pairEn (n : CourseId) (f : Course → Course) : (s.modCourse n f).pairEn = s.pairEn := rfl
@[simp] theorem State.modCourse_fwdSent (n : CourseId) (f : Course → Course) : (s.modCourse n f).fwdSent = s.fwdSent := rfl
@[simp] theorem State.modCourse_fwdApplied (n : CourseId) (f : Course → Course) : (s.modCourse n f).fwdApplied = s.fwdApplied := rfl
@[simp] theorem State.modCourse_cancelWait (n : CourseId) (f : Course → Course) : (s.modCourse n f).cancelWait = s.cancelWait := rfl
@[simp] theorem State.modCourse_anchors (n : CourseId) (f : Course → Course) : (s.modCourse n f).anchors = s.anchors := rfl
@[simp] theorem State.modCourse_ancPend (n : CourseId) (f : Course → Course) : (s.modCourse n f).ancPend = s.ancPend := rfl
@[simp] theorem State.modCourse_capCnt (n : CourseId) (f : Course → Course) : (s.modCourse n f).capCnt = s.capCnt := rfl
@[simp] theorem State.modCourse_capSec (n : CourseId) (f : Course → Course) : (s.modCourse n f).capSec = s.capSec := rfl
@[simp] theorem State.modCourse_slotSeen (n : CourseId) (f : Course → Course) : (s.modCourse n f).slotSeen = s.slotSeen := rfl
@[simp] theorem State.modCourse_refMeans (n : CourseId) (f : Course → Course) : (s.modCourse n f).refMeans = s.refMeans := rfl
@[simp] theorem State.modCourse_refSec (n : CourseId) (f : Course → Course) : (s.modCourse n f).refSec = s.refSec := rfl
@[simp] theorem State.modCourse_disPairs (n : CourseId) (f : Course → Course) : (s.modCourse n f).disPairs = s.disPairs := rfl
@[simp] theorem State.modCourse_genReq (n : CourseId) (f : Course → Course) : (s.modCourse n f).genReq = s.genReq := rfl
@[simp] theorem State.modCourse_timing (n : CourseId) (f : Course → Course) : (s.modCourse n f).timing = s.timing := rfl
@[simp] theorem State.modCourse_divNow (n : CourseId) (f : Course → Course) : (s.modCourse n f).divNow = s.divNow := rfl
@[simp] theorem State.modCourse_divHold (n : CourseId) (f : Course → Course) : (s.modCourse n f).divHold = s.divHold := rfl
@[simp] theorem State.modCourse_earlyDiv (n : CourseId) (f : Course → Course) : (s.modCourse n f).earlyDiv = s.earlyDiv := rfl
@[simp] theorem State.modCourse_earlySsc (n : CourseId) (f : Course → Course) : (s.modCourse n f).earlySsc = s.earlySsc := rfl
@[simp] theorem State.modCourse_xoFromRun (n : CourseId) (f : Course → Course) : (s.modCourse n f).xoFromRun = s.xoFromRun := rfl
@[simp] theorem State.modCourse_modeStep (n : CourseId) (f : Course → Course) : (s.modCourse n f).modeStep = s.modeStep := rfl
@[simp] theorem State.modCourse_modeQueued (n : CourseId) (f : Course → Course) : (s.modCourse n f).modeQueued = s.modeQueued := rfl
@[simp] theorem State.modCourse_sup (n : CourseId) (f : Course → Course) : (s.modCourse n f).sup = s.sup := rfl
@[simp] theorem State.modCourse_wakePend (n : CourseId) (f : Course → Course) : (s.modCourse n f).wakePend = s.wakePend := rfl
@[simp] theorem State.modCourse_railsUp (n : CourseId) (f : Course → Course) : (s.modCourse n f).railsUp = s.railsUp := rfl
@[simp] theorem State.modCourse_rstOut (n : CourseId) (f : Course → Course) : (s.modCourse n f).rstOut = s.rstOut := rfl
@[simp] theorem State.modCourse_holdupDue (n : CourseId) (f : Course → Course) : (s.modCourse n f).holdupDue = s.holdupDue := rfl
@[simp] theorem State.modCourse_holdup (n : CourseId) (f : Course → Course) : (s.modCourse n f).holdup = s.holdup := rfl
@[simp] theorem State.modCourse_flash (n : CourseId) (f : Course → Course) : (s.modCourse n f).flash = s.flash := rfl
@[simp] theorem State.modCourse_flashPart (n : CourseId) (f : Course → Course) : (s.modCourse n f).flashPart = s.flashPart := rfl
@[simp] theorem State.modCourse_flCmd (n : CourseId) (f : Course → Course) : (s.modCourse n f).flCmd = s.flCmd := rfl
@[simp] theorem State.modCourse_fuseKey (n : CourseId) (f : Course → Course) : (s.modCourse n f).fuseKey = s.fuseKey := rfl
@[simp] theorem State.modCourse_fuseLock (n : CourseId) (f : Course → Course) : (s.modCourse n f).fuseLock = s.fuseLock := rfl
@[simp] theorem State.modCourse_otpRun (n : CourseId) (f : Course → Course) : (s.modCourse n f).otpRun = s.otpRun := rfl
@[simp] theorem State.modCourse_loading (n : CourseId) (f : Course → Course) : (s.modCourse n f).loading = s.loading := rfl
@[simp] theorem State.modCourse_resetDue (n : CourseId) (f : Course → Course) : (s.modCourse n f).resetDue = s.resetDue := rfl
@[simp] theorem State.modCourse_bootEv (n : CourseId) (f : Course → Course) : (s.modCourse n f).bootEv = s.bootEv := rfl
@[simp] theorem State.modCourse_bootOwn (n : CourseId) (f : Course → Course) : (s.modCourse n f).bootOwn = s.bootOwn := rfl
@[simp] theorem State.modCourse_railsOff (n : CourseId) (f : Course → Course) : (s.modCourse n f).railsOff = s.railsOff := rfl
@[simp] theorem State.modCourse_toOpen (n : CourseId) (f : Course → Course) : (s.modCourse n f).toOpen = s.toOpen := rfl
@[simp] theorem State.modCourse_claimCount (n : CourseId) (f : Course → Course) : (s.modCourse n f).claimCount = s.claimCount := rfl
@[simp] theorem State.modCourse_linkRun (n : CourseId) (f : Course → Course) : (s.modCourse n f).linkRun = s.linkRun := rfl
@[simp] theorem State.modCourse_hbFrame (n : CourseId) (f : Course → Course) : (s.modCourse n f).hbFrame = s.hbFrame := rfl
@[simp] theorem State.modCourse_skewGood (n : CourseId) (f : Course → Course) : (s.modCourse n f).skewGood = s.skewGood := rfl
@[simp] theorem State.modCourse_skewBad (n : CourseId) (f : Course → Course) : (s.modCourse n f).skewBad = s.skewBad := rfl
@[simp] theorem State.modCourse_joinStep (n : CourseId) (f : Course → Course) : (s.modCourse n f).joinStep = s.joinStep := rfl
@[simp] theorem State.modCourse_hashes (n : CourseId) (f : Course → Course) : (s.modCourse n f).hashes = s.hashes := rfl
@[simp] theorem State.modCourse_digests (n : CourseId) (f : Course → Course) : (s.modCourse n f).digests = s.digests := rfl
@[simp] theorem State.modCourse_matched (n : CourseId) (f : Course → Course) : (s.modCourse n f).matched = s.matched := rfl
@[simp] theorem State.modCourse_hbSent (n : CourseId) (f : Course → Course) : (s.modCourse n f).hbSent = s.hbSent := rfl
@[simp] theorem State.modCourse_epochRun (n : CourseId) (f : Course → Course) : (s.modCourse n f).epochRun = s.epochRun := rfl
@[simp] theorem State.modCourse_epochLast (n : CourseId) (f : Course → Course) : (s.modCourse n f).epochLast = s.epochLast := rfl
@[simp] theorem State.modCourse_epochReq (n : CourseId) (f : Course → Course) : (s.modCourse n f).epochReq = s.epochReq := rfl
@[simp] theorem State.modCourse_finalEpoch (n : CourseId) (f : Course → Course) : (s.modCourse n f).finalEpoch = s.finalEpoch := rfl
@[simp] theorem State.modCourse_relDue (n : CourseId) (f : Course → Course) : (s.modCourse n f).relDue = s.relDue := rfl
@[simp] theorem State.modCourse_relDone (n : CourseId) (f : Course → Course) : (s.modCourse n f).relDone = s.relDone := rfl
@[simp] theorem State.modCourse_epochRx (n : CourseId) (f : Course → Course) : (s.modCourse n f).epochRx = s.epochRx := rfl
@[simp] theorem State.modCourse_liveStart (n : CourseId) (f : Course → Course) : (s.modCourse n f).liveStart = s.liveStart := rfl
@[simp] theorem State.modCourse_sceneNeed (n : CourseId) (f : Course → Course) : (s.modCourse n f).sceneNeed = s.sceneNeed := rfl
@[simp] theorem State.modCourse_ownCur (n : CourseId) (f : Course → Course) : (s.modCourse n f).ownCur = s.ownCur := rfl
@[simp] theorem State.modCourse_ownPrev (n : CourseId) (f : Course → Course) : (s.modCourse n f).ownPrev = s.ownPrev := rfl
@[simp] theorem State.modCourse_relArmed (n : CourseId) (f : Course → Course) : (s.modCourse n f).relArmed = s.relArmed := rfl
@[simp] theorem State.modCourse_syncSent (n : CourseId) (f : Course → Course) : (s.modCourse n f).syncSent = s.syncSent := rfl
@[simp] theorem State.modCourse_spiResp (n : CourseId) (f : Course → Course) : (s.modCourse n f).spiResp = s.spiResp := rfl
@[simp] theorem State.modCourse_testPort (n : CourseId) (f : Course → Course) : (s.modCourse n f).testPort = s.testPort := rfl
@[simp] theorem State.modCourse_freeCtr (n : CourseId) (f : Course → Course) : (s.modCourse n f).freeCtr = s.freeCtr := rfl
@[simp] theorem State.modCourse_pending (n : CourseId) (f : Course → Course) : (s.modCourse n f).pending = s.pending := rfl

/-! ### tabSet -/

@[simp] theorem State.tabSet_regs (a : Nat) (v : Word) : (s.tabSet a v).regs = s.regs := rfl
@[simp] theorem State.tabSet_latch (a : Nat) (v : Word) : (s.tabSet a v).latch = s.latch := rfl
@[simp] theorem State.tabSet_rdata (a : Nat) (v : Word) : (s.tabSet a v).rdata = s.rdata := rfl
@[simp] theorem State.tabSet_fc (a : Nat) (v : Word) : (s.tabSet a v).fc = s.fc := rfl
@[simp] theorem State.tabSet_ticking (a : Nat) (v : Word) : (s.tabSet a v).ticking = s.ticking := rfl
@[simp] theorem State.tabSet_matFrame (a : Nat) (v : Word) : (s.tabSet a v).matFrame = s.matFrame := rfl
@[simp] theorem State.tabSet_shad (a : Nat) (v : Word) : (s.tabSet a v).shad = s.shad := rfl
@[simp] theorem State.tabSet_courses (a : Nat) (v : Word) : (s.tabSet a v).courses = s.courses := rfl
@[simp] theorem State.tabSet_scratch (a : Nat) (v : Word) : (s.tabSet a v).scratch = s.scratch := rfl
@[simp] theorem State.tabSet_newOwner (a : Nat) (v : Word) : (s.tabSet a v).newOwner = s.newOwner := rfl
@[simp] theorem State.tabSet_dram (a : Nat) (v : Word) : (s.tabSet a v).dram = s.dram := rfl
@[simp] theorem State.tabSet_raced (a : Nat) (v : Word) : (s.tabSet a v).raced = s.raced := rfl
@[simp] theorem State.tabSet_scrUsed (a : Nat) (v : Word) : (s.tabSet a v).scrUsed = s.scrUsed := rfl
@[simp] theorem State.tabSet_rr (a : Nat) (v : Word) : (s.tabSet a v).rr = s.rr := rfl
@[simp] theorem State.tabSet_lines (a : Nat) (v : Word) : (s.tabSet a v).lines = s.lines := rfl
@[simp] theorem State.tabSet_taps (a : Nat) (v : Word) : (s.tabSet a v).taps = s.taps := rfl
@[simp] theorem State.tabSet_captured (a : Nat) (v : Word) : (s.tabSet a v).captured = s.captured := rfl
@[simp] theorem State.tabSet_mixFeeds (a : Nat) (v : Word) : (s.tabSet a v).mixFeeds = s.mixFeeds := rfl
@[simp] theorem State.tabSet_bus (a : Nat) (v : Word) : (s.tabSet a v).bus = s.bus := rfl
@[simp] theorem State.tabSet_xents (a : Nat) (v : Word) : (s.tabSet a v).xents = s.xents := rfl
@[simp] theorem State.tabSet_sels (a : Nat) (v : Word) : (s.tabSet a v).sels = s.sels := rfl
@[simp] theorem State.tabSet_secs (a : Nat) (v : Word) : (s.tabSet a v).secs = s.secs := rfl
@[simp] theorem State.tabSet_eqSat (a : Nat) (v : Word) : (s.tabSet a v).eqSat = s.eqSat := rfl
@[simp] theorem State.tabSet_chainOut (a : Nat) (v : Word) : (s.tabSet a v).chainOut = s.chainOut := rfl
@[simp] theorem State.tabSet_meters (a : Nat) (v : Word) : (s.tabSet a v).meters = s.meters := rfl
@[simp] theorem State.tabSet_pegOpen (a : Nat) (v : Word) : (s.tabSet a v).pegOpen = s.pegOpen := rfl
@[simp] theorem State.tabSet_pegQueue (a : Nat) (v : Word) : (s.tabSet a v).pegQueue = s.pegQueue := rfl
@[simp] theorem State.tabSet_commits (a : Nat) (v : Word) : (s.tabSet a v).commits = s.commits := rfl
@[simp] theorem State.tabSet_tokens (a : Nat) (v : Word) : (s.tabSet a v).tokens = s.tokens := rfl
@[simp] theorem State.tabSet_seq (a : Nat) (v : Word) : (s.tabSet a v).seq = s.seq := rfl
@[simp] theorem State.tabSet_store (a : Nat) (v : Word) : (s.tabSet a v).store = s.store := rfl
@[simp] theorem State.tabSet_readyCtr (a : Nat) (v : Word) : (s.tabSet a v).readyCtr = s.readyCtr := rfl
@[simp] theorem State.tabSet_mute (a : Nat) (v : Word) : (s.tabSet a v).mute = s.mute := rfl
@[simp] theorem State.tabSet_reactMute (a : Nat) (v : Word) : (s.tabSet a v).reactMute = s.reactMute := rfl
@[simp] theorem State.tabSet_asrcLost (a : Nat) (v : Word) : (s.tabSet a v).asrcLost = s.asrcLost := rfl
@[simp] theorem State.tabSet_test (a : Nat) (v : Word) : (s.tabSet a v).test = s.test := rfl
@[simp] theorem State.tabSet_snap (a : Nat) (v : Word) : (s.tabSet a v).snap = s.snap := rfl
@[simp] theorem State.tabSet_tbCount (a : Nat) (v : Word) : (s.tabSet a v).tbCount = s.tbCount := rfl
@[simp] theorem State.tabSet_releaseReq (a : Nat) (v : Word) : (s.tabSet a v).releaseReq = s.releaseReq := rfl
@[simp] theorem State.tabSet_asrcRatio (a : Nat) (v : Word) : (s.tabSet a v).asrcRatio = s.asrcRatio := rfl
@[simp] theorem State.tabSet_modeUsed (a : Nat) (v : Word) : (s.tabSet a v).modeUsed = s.modeUsed := rfl
@[simp] theorem State.tabSet_ports (a : Nat) (v : Word) : (s.tabSet a v).ports = s.ports := rfl
@[simp] theorem State.tabSet_rxs (a : Nat) (v : Word) : (s.tabSet a v).rxs = s.rxs := rfl
@[simp] theorem State.tabSet_txs (a : Nat) (v : Word) : (s.tabSet a v).txs = s.txs := rfl
@[simp] theorem State.tabSet_asrcLev (a : Nat) (v : Word) : (s.tabSet a v).asrcLev = s.asrcLev := rfl
@[simp] theorem State.tabSet_conv (a : Nat) (v : Word) : (s.tabSet a v).conv = s.conv := rfl
@[simp] theorem State.tabSet_asrcOut (a : Nat) (v : Word) : (s.tabSet a v).asrcOut = s.asrcOut := rfl
@[simp] theorem State.tabSet_rxFlows (a : Nat) (v : Word) : (s.tabSet a v).rxFlows = s.rxFlows := rfl
@[simp] theorem State.tabSet_txFlows (a : Nat) (v : Word) : (s.tabSet a v).txFlows = s.txFlows := rfl
@[simp] theorem State.tabSet_flowErr (a : Nat) (v : Word) : (s.tabSet a v).flowErr = s.flowErr := rfl
@[simp] theorem State.tabSet_wire (a : Nat) (v : Word) : (s.tabSet a v).wire = s.wire := rfl
@[simp] theorem State.tabSet_ringHold (a : Nat) (v : Word) : (s.tabSet a v).ringHold = s.ringHold := rfl
@[simp] theorem State.tabSet_partnerFlows (a : Nat) (v : Word) : (s.tabSet a v).partnerFlows = s.partnerFlows := rfl
@[simp] theorem State.tabSet_conns (a : Nat) (v : Word) : (s.tabSet a v).conns = s.conns := rfl
@[simp] theorem State.tabSet_partnersRefused (a : Nat) (v : Word) : (s.tabSet a v).partnersRefused = s.partnersRefused := rfl
@[simp] theorem State.tabSet_delronNet (a : Nat) (v : Word) : (s.tabSet a v).delronNet = s.delronNet := rfl
@[simp] theorem State.tabSet_outFill (a : Nat) (v : Word) : (s.tabSet a v).outFill = s.outFill := rfl
@[simp] theorem State.tabSet_outWait (a : Nat) (v : Word) : (s.tabSet a v).outWait = s.outWait := rfl
@[simp] theorem State.tabSet_pairEn (a : Nat) (v : Word) : (s.tabSet a v).pairEn = s.pairEn := rfl
@[simp] theorem State.tabSet_fwdSent (a : Nat) (v : Word) : (s.tabSet a v).fwdSent = s.fwdSent := rfl
@[simp] theorem State.tabSet_fwdApplied (a : Nat) (v : Word) : (s.tabSet a v).fwdApplied = s.fwdApplied := rfl
@[simp] theorem State.tabSet_cancelWait (a : Nat) (v : Word) : (s.tabSet a v).cancelWait = s.cancelWait := rfl
@[simp] theorem State.tabSet_anchors (a : Nat) (v : Word) : (s.tabSet a v).anchors = s.anchors := rfl
@[simp] theorem State.tabSet_ancPend (a : Nat) (v : Word) : (s.tabSet a v).ancPend = s.ancPend := rfl
@[simp] theorem State.tabSet_capCnt (a : Nat) (v : Word) : (s.tabSet a v).capCnt = s.capCnt := rfl
@[simp] theorem State.tabSet_capSec (a : Nat) (v : Word) : (s.tabSet a v).capSec = s.capSec := rfl
@[simp] theorem State.tabSet_slotSeen (a : Nat) (v : Word) : (s.tabSet a v).slotSeen = s.slotSeen := rfl
@[simp] theorem State.tabSet_refMeans (a : Nat) (v : Word) : (s.tabSet a v).refMeans = s.refMeans := rfl
@[simp] theorem State.tabSet_refSec (a : Nat) (v : Word) : (s.tabSet a v).refSec = s.refSec := rfl
@[simp] theorem State.tabSet_disPairs (a : Nat) (v : Word) : (s.tabSet a v).disPairs = s.disPairs := rfl
@[simp] theorem State.tabSet_genReq (a : Nat) (v : Word) : (s.tabSet a v).genReq = s.genReq := rfl
@[simp] theorem State.tabSet_timing (a : Nat) (v : Word) : (s.tabSet a v).timing = s.timing := rfl
@[simp] theorem State.tabSet_divNow (a : Nat) (v : Word) : (s.tabSet a v).divNow = s.divNow := rfl
@[simp] theorem State.tabSet_divHold (a : Nat) (v : Word) : (s.tabSet a v).divHold = s.divHold := rfl
@[simp] theorem State.tabSet_earlyDiv (a : Nat) (v : Word) : (s.tabSet a v).earlyDiv = s.earlyDiv := rfl
@[simp] theorem State.tabSet_earlySsc (a : Nat) (v : Word) : (s.tabSet a v).earlySsc = s.earlySsc := rfl
@[simp] theorem State.tabSet_xoFromRun (a : Nat) (v : Word) : (s.tabSet a v).xoFromRun = s.xoFromRun := rfl
@[simp] theorem State.tabSet_modeStep (a : Nat) (v : Word) : (s.tabSet a v).modeStep = s.modeStep := rfl
@[simp] theorem State.tabSet_modeQueued (a : Nat) (v : Word) : (s.tabSet a v).modeQueued = s.modeQueued := rfl
@[simp] theorem State.tabSet_sup (a : Nat) (v : Word) : (s.tabSet a v).sup = s.sup := rfl
@[simp] theorem State.tabSet_wakePend (a : Nat) (v : Word) : (s.tabSet a v).wakePend = s.wakePend := rfl
@[simp] theorem State.tabSet_railsUp (a : Nat) (v : Word) : (s.tabSet a v).railsUp = s.railsUp := rfl
@[simp] theorem State.tabSet_rstOut (a : Nat) (v : Word) : (s.tabSet a v).rstOut = s.rstOut := rfl
@[simp] theorem State.tabSet_holdupDue (a : Nat) (v : Word) : (s.tabSet a v).holdupDue = s.holdupDue := rfl
@[simp] theorem State.tabSet_holdup (a : Nat) (v : Word) : (s.tabSet a v).holdup = s.holdup := rfl
@[simp] theorem State.tabSet_flash (a : Nat) (v : Word) : (s.tabSet a v).flash = s.flash := rfl
@[simp] theorem State.tabSet_flashPart (a : Nat) (v : Word) : (s.tabSet a v).flashPart = s.flashPart := rfl
@[simp] theorem State.tabSet_flCmd (a : Nat) (v : Word) : (s.tabSet a v).flCmd = s.flCmd := rfl
@[simp] theorem State.tabSet_fuseKey (a : Nat) (v : Word) : (s.tabSet a v).fuseKey = s.fuseKey := rfl
@[simp] theorem State.tabSet_fuseLock (a : Nat) (v : Word) : (s.tabSet a v).fuseLock = s.fuseLock := rfl
@[simp] theorem State.tabSet_otpRun (a : Nat) (v : Word) : (s.tabSet a v).otpRun = s.otpRun := rfl
@[simp] theorem State.tabSet_loading (a : Nat) (v : Word) : (s.tabSet a v).loading = s.loading := rfl
@[simp] theorem State.tabSet_resetDue (a : Nat) (v : Word) : (s.tabSet a v).resetDue = s.resetDue := rfl
@[simp] theorem State.tabSet_bootEv (a : Nat) (v : Word) : (s.tabSet a v).bootEv = s.bootEv := rfl
@[simp] theorem State.tabSet_bootOwn (a : Nat) (v : Word) : (s.tabSet a v).bootOwn = s.bootOwn := rfl
@[simp] theorem State.tabSet_railsOff (a : Nat) (v : Word) : (s.tabSet a v).railsOff = s.railsOff := rfl
@[simp] theorem State.tabSet_toOpen (a : Nat) (v : Word) : (s.tabSet a v).toOpen = s.toOpen := rfl
@[simp] theorem State.tabSet_claimCount (a : Nat) (v : Word) : (s.tabSet a v).claimCount = s.claimCount := rfl
@[simp] theorem State.tabSet_linkRun (a : Nat) (v : Word) : (s.tabSet a v).linkRun = s.linkRun := rfl
@[simp] theorem State.tabSet_hbFrame (a : Nat) (v : Word) : (s.tabSet a v).hbFrame = s.hbFrame := rfl
@[simp] theorem State.tabSet_skewGood (a : Nat) (v : Word) : (s.tabSet a v).skewGood = s.skewGood := rfl
@[simp] theorem State.tabSet_skewBad (a : Nat) (v : Word) : (s.tabSet a v).skewBad = s.skewBad := rfl
@[simp] theorem State.tabSet_joinStep (a : Nat) (v : Word) : (s.tabSet a v).joinStep = s.joinStep := rfl
@[simp] theorem State.tabSet_hashes (a : Nat) (v : Word) : (s.tabSet a v).hashes = s.hashes := rfl
@[simp] theorem State.tabSet_digests (a : Nat) (v : Word) : (s.tabSet a v).digests = s.digests := rfl
@[simp] theorem State.tabSet_matched (a : Nat) (v : Word) : (s.tabSet a v).matched = s.matched := rfl
@[simp] theorem State.tabSet_hbSent (a : Nat) (v : Word) : (s.tabSet a v).hbSent = s.hbSent := rfl
@[simp] theorem State.tabSet_epochRun (a : Nat) (v : Word) : (s.tabSet a v).epochRun = s.epochRun := rfl
@[simp] theorem State.tabSet_epochLast (a : Nat) (v : Word) : (s.tabSet a v).epochLast = s.epochLast := rfl
@[simp] theorem State.tabSet_epochReq (a : Nat) (v : Word) : (s.tabSet a v).epochReq = s.epochReq := rfl
@[simp] theorem State.tabSet_finalEpoch (a : Nat) (v : Word) : (s.tabSet a v).finalEpoch = s.finalEpoch := rfl
@[simp] theorem State.tabSet_relDue (a : Nat) (v : Word) : (s.tabSet a v).relDue = s.relDue := rfl
@[simp] theorem State.tabSet_relDone (a : Nat) (v : Word) : (s.tabSet a v).relDone = s.relDone := rfl
@[simp] theorem State.tabSet_epochRx (a : Nat) (v : Word) : (s.tabSet a v).epochRx = s.epochRx := rfl
@[simp] theorem State.tabSet_liveStart (a : Nat) (v : Word) : (s.tabSet a v).liveStart = s.liveStart := rfl
@[simp] theorem State.tabSet_sceneNeed (a : Nat) (v : Word) : (s.tabSet a v).sceneNeed = s.sceneNeed := rfl
@[simp] theorem State.tabSet_ownCur (a : Nat) (v : Word) : (s.tabSet a v).ownCur = s.ownCur := rfl
@[simp] theorem State.tabSet_ownPrev (a : Nat) (v : Word) : (s.tabSet a v).ownPrev = s.ownPrev := rfl
@[simp] theorem State.tabSet_relArmed (a : Nat) (v : Word) : (s.tabSet a v).relArmed = s.relArmed := rfl
@[simp] theorem State.tabSet_syncSent (a : Nat) (v : Word) : (s.tabSet a v).syncSent = s.syncSent := rfl
@[simp] theorem State.tabSet_spiResp (a : Nat) (v : Word) : (s.tabSet a v).spiResp = s.spiResp := rfl
@[simp] theorem State.tabSet_testPort (a : Nat) (v : Word) : (s.tabSet a v).testPort = s.testPort := rfl
@[simp] theorem State.tabSet_freeCtr (a : Nat) (v : Word) : (s.tabSet a v).freeCtr = s.freeCtr := rfl
@[simp] theorem State.tabSet_pending (a : Nat) (v : Word) : (s.tabSet a v).pending = s.pending := rfl

/-! ### shadSet -/

@[simp] theorem State.shadSet_regs (a : Nat) (v : Word) : (s.shadSet a v).regs = s.regs := rfl
@[simp] theorem State.shadSet_latch (a : Nat) (v : Word) : (s.shadSet a v).latch = s.latch := rfl
@[simp] theorem State.shadSet_rdata (a : Nat) (v : Word) : (s.shadSet a v).rdata = s.rdata := rfl
@[simp] theorem State.shadSet_fc (a : Nat) (v : Word) : (s.shadSet a v).fc = s.fc := rfl
@[simp] theorem State.shadSet_ticking (a : Nat) (v : Word) : (s.shadSet a v).ticking = s.ticking := rfl
@[simp] theorem State.shadSet_matFrame (a : Nat) (v : Word) : (s.shadSet a v).matFrame = s.matFrame := rfl
@[simp] theorem State.shadSet_tab (a : Nat) (v : Word) : (s.shadSet a v).tab = s.tab := rfl
@[simp] theorem State.shadSet_courses (a : Nat) (v : Word) : (s.shadSet a v).courses = s.courses := rfl
@[simp] theorem State.shadSet_scratch (a : Nat) (v : Word) : (s.shadSet a v).scratch = s.scratch := rfl
@[simp] theorem State.shadSet_newOwner (a : Nat) (v : Word) : (s.shadSet a v).newOwner = s.newOwner := rfl
@[simp] theorem State.shadSet_dram (a : Nat) (v : Word) : (s.shadSet a v).dram = s.dram := rfl
@[simp] theorem State.shadSet_raced (a : Nat) (v : Word) : (s.shadSet a v).raced = s.raced := rfl
@[simp] theorem State.shadSet_scrUsed (a : Nat) (v : Word) : (s.shadSet a v).scrUsed = s.scrUsed := rfl
@[simp] theorem State.shadSet_rr (a : Nat) (v : Word) : (s.shadSet a v).rr = s.rr := rfl
@[simp] theorem State.shadSet_lines (a : Nat) (v : Word) : (s.shadSet a v).lines = s.lines := rfl
@[simp] theorem State.shadSet_taps (a : Nat) (v : Word) : (s.shadSet a v).taps = s.taps := rfl
@[simp] theorem State.shadSet_captured (a : Nat) (v : Word) : (s.shadSet a v).captured = s.captured := rfl
@[simp] theorem State.shadSet_mixFeeds (a : Nat) (v : Word) : (s.shadSet a v).mixFeeds = s.mixFeeds := rfl
@[simp] theorem State.shadSet_bus (a : Nat) (v : Word) : (s.shadSet a v).bus = s.bus := rfl
@[simp] theorem State.shadSet_xents (a : Nat) (v : Word) : (s.shadSet a v).xents = s.xents := rfl
@[simp] theorem State.shadSet_sels (a : Nat) (v : Word) : (s.shadSet a v).sels = s.sels := rfl
@[simp] theorem State.shadSet_secs (a : Nat) (v : Word) : (s.shadSet a v).secs = s.secs := rfl
@[simp] theorem State.shadSet_eqSat (a : Nat) (v : Word) : (s.shadSet a v).eqSat = s.eqSat := rfl
@[simp] theorem State.shadSet_chainOut (a : Nat) (v : Word) : (s.shadSet a v).chainOut = s.chainOut := rfl
@[simp] theorem State.shadSet_meters (a : Nat) (v : Word) : (s.shadSet a v).meters = s.meters := rfl
@[simp] theorem State.shadSet_pegOpen (a : Nat) (v : Word) : (s.shadSet a v).pegOpen = s.pegOpen := rfl
@[simp] theorem State.shadSet_pegQueue (a : Nat) (v : Word) : (s.shadSet a v).pegQueue = s.pegQueue := rfl
@[simp] theorem State.shadSet_commits (a : Nat) (v : Word) : (s.shadSet a v).commits = s.commits := rfl
@[simp] theorem State.shadSet_tokens (a : Nat) (v : Word) : (s.shadSet a v).tokens = s.tokens := rfl
@[simp] theorem State.shadSet_seq (a : Nat) (v : Word) : (s.shadSet a v).seq = s.seq := rfl
@[simp] theorem State.shadSet_store (a : Nat) (v : Word) : (s.shadSet a v).store = s.store := rfl
@[simp] theorem State.shadSet_readyCtr (a : Nat) (v : Word) : (s.shadSet a v).readyCtr = s.readyCtr := rfl
@[simp] theorem State.shadSet_mute (a : Nat) (v : Word) : (s.shadSet a v).mute = s.mute := rfl
@[simp] theorem State.shadSet_reactMute (a : Nat) (v : Word) : (s.shadSet a v).reactMute = s.reactMute := rfl
@[simp] theorem State.shadSet_asrcLost (a : Nat) (v : Word) : (s.shadSet a v).asrcLost = s.asrcLost := rfl
@[simp] theorem State.shadSet_test (a : Nat) (v : Word) : (s.shadSet a v).test = s.test := rfl
@[simp] theorem State.shadSet_snap (a : Nat) (v : Word) : (s.shadSet a v).snap = s.snap := rfl
@[simp] theorem State.shadSet_tbCount (a : Nat) (v : Word) : (s.shadSet a v).tbCount = s.tbCount := rfl
@[simp] theorem State.shadSet_releaseReq (a : Nat) (v : Word) : (s.shadSet a v).releaseReq = s.releaseReq := rfl
@[simp] theorem State.shadSet_asrcRatio (a : Nat) (v : Word) : (s.shadSet a v).asrcRatio = s.asrcRatio := rfl
@[simp] theorem State.shadSet_modeUsed (a : Nat) (v : Word) : (s.shadSet a v).modeUsed = s.modeUsed := rfl
@[simp] theorem State.shadSet_ports (a : Nat) (v : Word) : (s.shadSet a v).ports = s.ports := rfl
@[simp] theorem State.shadSet_rxs (a : Nat) (v : Word) : (s.shadSet a v).rxs = s.rxs := rfl
@[simp] theorem State.shadSet_txs (a : Nat) (v : Word) : (s.shadSet a v).txs = s.txs := rfl
@[simp] theorem State.shadSet_asrcLev (a : Nat) (v : Word) : (s.shadSet a v).asrcLev = s.asrcLev := rfl
@[simp] theorem State.shadSet_conv (a : Nat) (v : Word) : (s.shadSet a v).conv = s.conv := rfl
@[simp] theorem State.shadSet_asrcOut (a : Nat) (v : Word) : (s.shadSet a v).asrcOut = s.asrcOut := rfl
@[simp] theorem State.shadSet_rxFlows (a : Nat) (v : Word) : (s.shadSet a v).rxFlows = s.rxFlows := rfl
@[simp] theorem State.shadSet_txFlows (a : Nat) (v : Word) : (s.shadSet a v).txFlows = s.txFlows := rfl
@[simp] theorem State.shadSet_flowErr (a : Nat) (v : Word) : (s.shadSet a v).flowErr = s.flowErr := rfl
@[simp] theorem State.shadSet_wire (a : Nat) (v : Word) : (s.shadSet a v).wire = s.wire := rfl
@[simp] theorem State.shadSet_ringHold (a : Nat) (v : Word) : (s.shadSet a v).ringHold = s.ringHold := rfl
@[simp] theorem State.shadSet_partnerFlows (a : Nat) (v : Word) : (s.shadSet a v).partnerFlows = s.partnerFlows := rfl
@[simp] theorem State.shadSet_conns (a : Nat) (v : Word) : (s.shadSet a v).conns = s.conns := rfl
@[simp] theorem State.shadSet_partnersRefused (a : Nat) (v : Word) : (s.shadSet a v).partnersRefused = s.partnersRefused := rfl
@[simp] theorem State.shadSet_delronNet (a : Nat) (v : Word) : (s.shadSet a v).delronNet = s.delronNet := rfl
@[simp] theorem State.shadSet_outFill (a : Nat) (v : Word) : (s.shadSet a v).outFill = s.outFill := rfl
@[simp] theorem State.shadSet_outWait (a : Nat) (v : Word) : (s.shadSet a v).outWait = s.outWait := rfl
@[simp] theorem State.shadSet_pairEn (a : Nat) (v : Word) : (s.shadSet a v).pairEn = s.pairEn := rfl
@[simp] theorem State.shadSet_fwdSent (a : Nat) (v : Word) : (s.shadSet a v).fwdSent = s.fwdSent := rfl
@[simp] theorem State.shadSet_fwdApplied (a : Nat) (v : Word) : (s.shadSet a v).fwdApplied = s.fwdApplied := rfl
@[simp] theorem State.shadSet_cancelWait (a : Nat) (v : Word) : (s.shadSet a v).cancelWait = s.cancelWait := rfl
@[simp] theorem State.shadSet_anchors (a : Nat) (v : Word) : (s.shadSet a v).anchors = s.anchors := rfl
@[simp] theorem State.shadSet_ancPend (a : Nat) (v : Word) : (s.shadSet a v).ancPend = s.ancPend := rfl
@[simp] theorem State.shadSet_capCnt (a : Nat) (v : Word) : (s.shadSet a v).capCnt = s.capCnt := rfl
@[simp] theorem State.shadSet_capSec (a : Nat) (v : Word) : (s.shadSet a v).capSec = s.capSec := rfl
@[simp] theorem State.shadSet_slotSeen (a : Nat) (v : Word) : (s.shadSet a v).slotSeen = s.slotSeen := rfl
@[simp] theorem State.shadSet_refMeans (a : Nat) (v : Word) : (s.shadSet a v).refMeans = s.refMeans := rfl
@[simp] theorem State.shadSet_refSec (a : Nat) (v : Word) : (s.shadSet a v).refSec = s.refSec := rfl
@[simp] theorem State.shadSet_disPairs (a : Nat) (v : Word) : (s.shadSet a v).disPairs = s.disPairs := rfl
@[simp] theorem State.shadSet_genReq (a : Nat) (v : Word) : (s.shadSet a v).genReq = s.genReq := rfl
@[simp] theorem State.shadSet_timing (a : Nat) (v : Word) : (s.shadSet a v).timing = s.timing := rfl
@[simp] theorem State.shadSet_divNow (a : Nat) (v : Word) : (s.shadSet a v).divNow = s.divNow := rfl
@[simp] theorem State.shadSet_divHold (a : Nat) (v : Word) : (s.shadSet a v).divHold = s.divHold := rfl
@[simp] theorem State.shadSet_earlyDiv (a : Nat) (v : Word) : (s.shadSet a v).earlyDiv = s.earlyDiv := rfl
@[simp] theorem State.shadSet_earlySsc (a : Nat) (v : Word) : (s.shadSet a v).earlySsc = s.earlySsc := rfl
@[simp] theorem State.shadSet_xoFromRun (a : Nat) (v : Word) : (s.shadSet a v).xoFromRun = s.xoFromRun := rfl
@[simp] theorem State.shadSet_modeStep (a : Nat) (v : Word) : (s.shadSet a v).modeStep = s.modeStep := rfl
@[simp] theorem State.shadSet_modeQueued (a : Nat) (v : Word) : (s.shadSet a v).modeQueued = s.modeQueued := rfl
@[simp] theorem State.shadSet_sup (a : Nat) (v : Word) : (s.shadSet a v).sup = s.sup := rfl
@[simp] theorem State.shadSet_wakePend (a : Nat) (v : Word) : (s.shadSet a v).wakePend = s.wakePend := rfl
@[simp] theorem State.shadSet_railsUp (a : Nat) (v : Word) : (s.shadSet a v).railsUp = s.railsUp := rfl
@[simp] theorem State.shadSet_rstOut (a : Nat) (v : Word) : (s.shadSet a v).rstOut = s.rstOut := rfl
@[simp] theorem State.shadSet_holdupDue (a : Nat) (v : Word) : (s.shadSet a v).holdupDue = s.holdupDue := rfl
@[simp] theorem State.shadSet_holdup (a : Nat) (v : Word) : (s.shadSet a v).holdup = s.holdup := rfl
@[simp] theorem State.shadSet_flash (a : Nat) (v : Word) : (s.shadSet a v).flash = s.flash := rfl
@[simp] theorem State.shadSet_flashPart (a : Nat) (v : Word) : (s.shadSet a v).flashPart = s.flashPart := rfl
@[simp] theorem State.shadSet_flCmd (a : Nat) (v : Word) : (s.shadSet a v).flCmd = s.flCmd := rfl
@[simp] theorem State.shadSet_fuseKey (a : Nat) (v : Word) : (s.shadSet a v).fuseKey = s.fuseKey := rfl
@[simp] theorem State.shadSet_fuseLock (a : Nat) (v : Word) : (s.shadSet a v).fuseLock = s.fuseLock := rfl
@[simp] theorem State.shadSet_otpRun (a : Nat) (v : Word) : (s.shadSet a v).otpRun = s.otpRun := rfl
@[simp] theorem State.shadSet_loading (a : Nat) (v : Word) : (s.shadSet a v).loading = s.loading := rfl
@[simp] theorem State.shadSet_resetDue (a : Nat) (v : Word) : (s.shadSet a v).resetDue = s.resetDue := rfl
@[simp] theorem State.shadSet_bootEv (a : Nat) (v : Word) : (s.shadSet a v).bootEv = s.bootEv := rfl
@[simp] theorem State.shadSet_bootOwn (a : Nat) (v : Word) : (s.shadSet a v).bootOwn = s.bootOwn := rfl
@[simp] theorem State.shadSet_railsOff (a : Nat) (v : Word) : (s.shadSet a v).railsOff = s.railsOff := rfl
@[simp] theorem State.shadSet_toOpen (a : Nat) (v : Word) : (s.shadSet a v).toOpen = s.toOpen := rfl
@[simp] theorem State.shadSet_claimCount (a : Nat) (v : Word) : (s.shadSet a v).claimCount = s.claimCount := rfl
@[simp] theorem State.shadSet_linkRun (a : Nat) (v : Word) : (s.shadSet a v).linkRun = s.linkRun := rfl
@[simp] theorem State.shadSet_hbFrame (a : Nat) (v : Word) : (s.shadSet a v).hbFrame = s.hbFrame := rfl
@[simp] theorem State.shadSet_skewGood (a : Nat) (v : Word) : (s.shadSet a v).skewGood = s.skewGood := rfl
@[simp] theorem State.shadSet_skewBad (a : Nat) (v : Word) : (s.shadSet a v).skewBad = s.skewBad := rfl
@[simp] theorem State.shadSet_joinStep (a : Nat) (v : Word) : (s.shadSet a v).joinStep = s.joinStep := rfl
@[simp] theorem State.shadSet_hashes (a : Nat) (v : Word) : (s.shadSet a v).hashes = s.hashes := rfl
@[simp] theorem State.shadSet_digests (a : Nat) (v : Word) : (s.shadSet a v).digests = s.digests := rfl
@[simp] theorem State.shadSet_matched (a : Nat) (v : Word) : (s.shadSet a v).matched = s.matched := rfl
@[simp] theorem State.shadSet_hbSent (a : Nat) (v : Word) : (s.shadSet a v).hbSent = s.hbSent := rfl
@[simp] theorem State.shadSet_epochRun (a : Nat) (v : Word) : (s.shadSet a v).epochRun = s.epochRun := rfl
@[simp] theorem State.shadSet_epochLast (a : Nat) (v : Word) : (s.shadSet a v).epochLast = s.epochLast := rfl
@[simp] theorem State.shadSet_epochReq (a : Nat) (v : Word) : (s.shadSet a v).epochReq = s.epochReq := rfl
@[simp] theorem State.shadSet_finalEpoch (a : Nat) (v : Word) : (s.shadSet a v).finalEpoch = s.finalEpoch := rfl
@[simp] theorem State.shadSet_relDue (a : Nat) (v : Word) : (s.shadSet a v).relDue = s.relDue := rfl
@[simp] theorem State.shadSet_relDone (a : Nat) (v : Word) : (s.shadSet a v).relDone = s.relDone := rfl
@[simp] theorem State.shadSet_epochRx (a : Nat) (v : Word) : (s.shadSet a v).epochRx = s.epochRx := rfl
@[simp] theorem State.shadSet_liveStart (a : Nat) (v : Word) : (s.shadSet a v).liveStart = s.liveStart := rfl
@[simp] theorem State.shadSet_sceneNeed (a : Nat) (v : Word) : (s.shadSet a v).sceneNeed = s.sceneNeed := rfl
@[simp] theorem State.shadSet_ownCur (a : Nat) (v : Word) : (s.shadSet a v).ownCur = s.ownCur := rfl
@[simp] theorem State.shadSet_ownPrev (a : Nat) (v : Word) : (s.shadSet a v).ownPrev = s.ownPrev := rfl
@[simp] theorem State.shadSet_relArmed (a : Nat) (v : Word) : (s.shadSet a v).relArmed = s.relArmed := rfl
@[simp] theorem State.shadSet_syncSent (a : Nat) (v : Word) : (s.shadSet a v).syncSent = s.syncSent := rfl
@[simp] theorem State.shadSet_spiResp (a : Nat) (v : Word) : (s.shadSet a v).spiResp = s.spiResp := rfl
@[simp] theorem State.shadSet_testPort (a : Nat) (v : Word) : (s.shadSet a v).testPort = s.testPort := rfl
@[simp] theorem State.shadSet_freeCtr (a : Nat) (v : Word) : (s.shadSet a v).freeCtr = s.freeCtr := rfl
@[simp] theorem State.shadSet_pending (a : Nat) (v : Word) : (s.shadSet a v).pending = s.pending := rfl

/-! ### setLatch -/

@[simp] theorem State.setLatch_regs (m a : Nat) (v : Word) : (s.setLatch m a v).regs = s.regs := rfl
@[simp] theorem State.setLatch_rdata (m a : Nat) (v : Word) : (s.setLatch m a v).rdata = s.rdata := rfl
@[simp] theorem State.setLatch_fc (m a : Nat) (v : Word) : (s.setLatch m a v).fc = s.fc := rfl
@[simp] theorem State.setLatch_ticking (m a : Nat) (v : Word) : (s.setLatch m a v).ticking = s.ticking := rfl
@[simp] theorem State.setLatch_matFrame (m a : Nat) (v : Word) : (s.setLatch m a v).matFrame = s.matFrame := rfl
@[simp] theorem State.setLatch_tab (m a : Nat) (v : Word) : (s.setLatch m a v).tab = s.tab := rfl
@[simp] theorem State.setLatch_shad (m a : Nat) (v : Word) : (s.setLatch m a v).shad = s.shad := rfl
@[simp] theorem State.setLatch_courses (m a : Nat) (v : Word) : (s.setLatch m a v).courses = s.courses := rfl
@[simp] theorem State.setLatch_scratch (m a : Nat) (v : Word) : (s.setLatch m a v).scratch = s.scratch := rfl
@[simp] theorem State.setLatch_newOwner (m a : Nat) (v : Word) : (s.setLatch m a v).newOwner = s.newOwner := rfl
@[simp] theorem State.setLatch_dram (m a : Nat) (v : Word) : (s.setLatch m a v).dram = s.dram := rfl
@[simp] theorem State.setLatch_raced (m a : Nat) (v : Word) : (s.setLatch m a v).raced = s.raced := rfl
@[simp] theorem State.setLatch_scrUsed (m a : Nat) (v : Word) : (s.setLatch m a v).scrUsed = s.scrUsed := rfl
@[simp] theorem State.setLatch_rr (m a : Nat) (v : Word) : (s.setLatch m a v).rr = s.rr := rfl
@[simp] theorem State.setLatch_lines (m a : Nat) (v : Word) : (s.setLatch m a v).lines = s.lines := rfl
@[simp] theorem State.setLatch_taps (m a : Nat) (v : Word) : (s.setLatch m a v).taps = s.taps := rfl
@[simp] theorem State.setLatch_captured (m a : Nat) (v : Word) : (s.setLatch m a v).captured = s.captured := rfl
@[simp] theorem State.setLatch_mixFeeds (m a : Nat) (v : Word) : (s.setLatch m a v).mixFeeds = s.mixFeeds := rfl
@[simp] theorem State.setLatch_bus (m a : Nat) (v : Word) : (s.setLatch m a v).bus = s.bus := rfl
@[simp] theorem State.setLatch_xents (m a : Nat) (v : Word) : (s.setLatch m a v).xents = s.xents := rfl
@[simp] theorem State.setLatch_sels (m a : Nat) (v : Word) : (s.setLatch m a v).sels = s.sels := rfl
@[simp] theorem State.setLatch_secs (m a : Nat) (v : Word) : (s.setLatch m a v).secs = s.secs := rfl
@[simp] theorem State.setLatch_eqSat (m a : Nat) (v : Word) : (s.setLatch m a v).eqSat = s.eqSat := rfl
@[simp] theorem State.setLatch_chainOut (m a : Nat) (v : Word) : (s.setLatch m a v).chainOut = s.chainOut := rfl
@[simp] theorem State.setLatch_meters (m a : Nat) (v : Word) : (s.setLatch m a v).meters = s.meters := rfl
@[simp] theorem State.setLatch_pegOpen (m a : Nat) (v : Word) : (s.setLatch m a v).pegOpen = s.pegOpen := rfl
@[simp] theorem State.setLatch_pegQueue (m a : Nat) (v : Word) : (s.setLatch m a v).pegQueue = s.pegQueue := rfl
@[simp] theorem State.setLatch_commits (m a : Nat) (v : Word) : (s.setLatch m a v).commits = s.commits := rfl
@[simp] theorem State.setLatch_tokens (m a : Nat) (v : Word) : (s.setLatch m a v).tokens = s.tokens := rfl
@[simp] theorem State.setLatch_seq (m a : Nat) (v : Word) : (s.setLatch m a v).seq = s.seq := rfl
@[simp] theorem State.setLatch_store (m a : Nat) (v : Word) : (s.setLatch m a v).store = s.store := rfl
@[simp] theorem State.setLatch_readyCtr (m a : Nat) (v : Word) : (s.setLatch m a v).readyCtr = s.readyCtr := rfl
@[simp] theorem State.setLatch_mute (m a : Nat) (v : Word) : (s.setLatch m a v).mute = s.mute := rfl
@[simp] theorem State.setLatch_reactMute (m a : Nat) (v : Word) : (s.setLatch m a v).reactMute = s.reactMute := rfl
@[simp] theorem State.setLatch_asrcLost (m a : Nat) (v : Word) : (s.setLatch m a v).asrcLost = s.asrcLost := rfl
@[simp] theorem State.setLatch_test (m a : Nat) (v : Word) : (s.setLatch m a v).test = s.test := rfl
@[simp] theorem State.setLatch_snap (m a : Nat) (v : Word) : (s.setLatch m a v).snap = s.snap := rfl
@[simp] theorem State.setLatch_tbCount (m a : Nat) (v : Word) : (s.setLatch m a v).tbCount = s.tbCount := rfl
@[simp] theorem State.setLatch_releaseReq (m a : Nat) (v : Word) : (s.setLatch m a v).releaseReq = s.releaseReq := rfl
@[simp] theorem State.setLatch_asrcRatio (m a : Nat) (v : Word) : (s.setLatch m a v).asrcRatio = s.asrcRatio := rfl
@[simp] theorem State.setLatch_modeUsed (m a : Nat) (v : Word) : (s.setLatch m a v).modeUsed = s.modeUsed := rfl
@[simp] theorem State.setLatch_ports (m a : Nat) (v : Word) : (s.setLatch m a v).ports = s.ports := rfl
@[simp] theorem State.setLatch_rxs (m a : Nat) (v : Word) : (s.setLatch m a v).rxs = s.rxs := rfl
@[simp] theorem State.setLatch_txs (m a : Nat) (v : Word) : (s.setLatch m a v).txs = s.txs := rfl
@[simp] theorem State.setLatch_asrcLev (m a : Nat) (v : Word) : (s.setLatch m a v).asrcLev = s.asrcLev := rfl
@[simp] theorem State.setLatch_conv (m a : Nat) (v : Word) : (s.setLatch m a v).conv = s.conv := rfl
@[simp] theorem State.setLatch_asrcOut (m a : Nat) (v : Word) : (s.setLatch m a v).asrcOut = s.asrcOut := rfl
@[simp] theorem State.setLatch_rxFlows (m a : Nat) (v : Word) : (s.setLatch m a v).rxFlows = s.rxFlows := rfl
@[simp] theorem State.setLatch_txFlows (m a : Nat) (v : Word) : (s.setLatch m a v).txFlows = s.txFlows := rfl
@[simp] theorem State.setLatch_flowErr (m a : Nat) (v : Word) : (s.setLatch m a v).flowErr = s.flowErr := rfl
@[simp] theorem State.setLatch_wire (m a : Nat) (v : Word) : (s.setLatch m a v).wire = s.wire := rfl
@[simp] theorem State.setLatch_ringHold (m a : Nat) (v : Word) : (s.setLatch m a v).ringHold = s.ringHold := rfl
@[simp] theorem State.setLatch_partnerFlows (m a : Nat) (v : Word) : (s.setLatch m a v).partnerFlows = s.partnerFlows := rfl
@[simp] theorem State.setLatch_conns (m a : Nat) (v : Word) : (s.setLatch m a v).conns = s.conns := rfl
@[simp] theorem State.setLatch_partnersRefused (m a : Nat) (v : Word) : (s.setLatch m a v).partnersRefused = s.partnersRefused := rfl
@[simp] theorem State.setLatch_delronNet (m a : Nat) (v : Word) : (s.setLatch m a v).delronNet = s.delronNet := rfl
@[simp] theorem State.setLatch_outFill (m a : Nat) (v : Word) : (s.setLatch m a v).outFill = s.outFill := rfl
@[simp] theorem State.setLatch_outWait (m a : Nat) (v : Word) : (s.setLatch m a v).outWait = s.outWait := rfl
@[simp] theorem State.setLatch_pairEn (m a : Nat) (v : Word) : (s.setLatch m a v).pairEn = s.pairEn := rfl
@[simp] theorem State.setLatch_fwdSent (m a : Nat) (v : Word) : (s.setLatch m a v).fwdSent = s.fwdSent := rfl
@[simp] theorem State.setLatch_fwdApplied (m a : Nat) (v : Word) : (s.setLatch m a v).fwdApplied = s.fwdApplied := rfl
@[simp] theorem State.setLatch_cancelWait (m a : Nat) (v : Word) : (s.setLatch m a v).cancelWait = s.cancelWait := rfl
@[simp] theorem State.setLatch_anchors (m a : Nat) (v : Word) : (s.setLatch m a v).anchors = s.anchors := rfl
@[simp] theorem State.setLatch_ancPend (m a : Nat) (v : Word) : (s.setLatch m a v).ancPend = s.ancPend := rfl
@[simp] theorem State.setLatch_capCnt (m a : Nat) (v : Word) : (s.setLatch m a v).capCnt = s.capCnt := rfl
@[simp] theorem State.setLatch_capSec (m a : Nat) (v : Word) : (s.setLatch m a v).capSec = s.capSec := rfl
@[simp] theorem State.setLatch_slotSeen (m a : Nat) (v : Word) : (s.setLatch m a v).slotSeen = s.slotSeen := rfl
@[simp] theorem State.setLatch_refMeans (m a : Nat) (v : Word) : (s.setLatch m a v).refMeans = s.refMeans := rfl
@[simp] theorem State.setLatch_refSec (m a : Nat) (v : Word) : (s.setLatch m a v).refSec = s.refSec := rfl
@[simp] theorem State.setLatch_disPairs (m a : Nat) (v : Word) : (s.setLatch m a v).disPairs = s.disPairs := rfl
@[simp] theorem State.setLatch_genReq (m a : Nat) (v : Word) : (s.setLatch m a v).genReq = s.genReq := rfl
@[simp] theorem State.setLatch_timing (m a : Nat) (v : Word) : (s.setLatch m a v).timing = s.timing := rfl
@[simp] theorem State.setLatch_divNow (m a : Nat) (v : Word) : (s.setLatch m a v).divNow = s.divNow := rfl
@[simp] theorem State.setLatch_divHold (m a : Nat) (v : Word) : (s.setLatch m a v).divHold = s.divHold := rfl
@[simp] theorem State.setLatch_earlyDiv (m a : Nat) (v : Word) : (s.setLatch m a v).earlyDiv = s.earlyDiv := rfl
@[simp] theorem State.setLatch_earlySsc (m a : Nat) (v : Word) : (s.setLatch m a v).earlySsc = s.earlySsc := rfl
@[simp] theorem State.setLatch_xoFromRun (m a : Nat) (v : Word) : (s.setLatch m a v).xoFromRun = s.xoFromRun := rfl
@[simp] theorem State.setLatch_modeStep (m a : Nat) (v : Word) : (s.setLatch m a v).modeStep = s.modeStep := rfl
@[simp] theorem State.setLatch_modeQueued (m a : Nat) (v : Word) : (s.setLatch m a v).modeQueued = s.modeQueued := rfl
@[simp] theorem State.setLatch_sup (m a : Nat) (v : Word) : (s.setLatch m a v).sup = s.sup := rfl
@[simp] theorem State.setLatch_wakePend (m a : Nat) (v : Word) : (s.setLatch m a v).wakePend = s.wakePend := rfl
@[simp] theorem State.setLatch_railsUp (m a : Nat) (v : Word) : (s.setLatch m a v).railsUp = s.railsUp := rfl
@[simp] theorem State.setLatch_rstOut (m a : Nat) (v : Word) : (s.setLatch m a v).rstOut = s.rstOut := rfl
@[simp] theorem State.setLatch_holdupDue (m a : Nat) (v : Word) : (s.setLatch m a v).holdupDue = s.holdupDue := rfl
@[simp] theorem State.setLatch_holdup (m a : Nat) (v : Word) : (s.setLatch m a v).holdup = s.holdup := rfl
@[simp] theorem State.setLatch_flash (m a : Nat) (v : Word) : (s.setLatch m a v).flash = s.flash := rfl
@[simp] theorem State.setLatch_flashPart (m a : Nat) (v : Word) : (s.setLatch m a v).flashPart = s.flashPart := rfl
@[simp] theorem State.setLatch_flCmd (m a : Nat) (v : Word) : (s.setLatch m a v).flCmd = s.flCmd := rfl
@[simp] theorem State.setLatch_fuseKey (m a : Nat) (v : Word) : (s.setLatch m a v).fuseKey = s.fuseKey := rfl
@[simp] theorem State.setLatch_fuseLock (m a : Nat) (v : Word) : (s.setLatch m a v).fuseLock = s.fuseLock := rfl
@[simp] theorem State.setLatch_otpRun (m a : Nat) (v : Word) : (s.setLatch m a v).otpRun = s.otpRun := rfl
@[simp] theorem State.setLatch_loading (m a : Nat) (v : Word) : (s.setLatch m a v).loading = s.loading := rfl
@[simp] theorem State.setLatch_resetDue (m a : Nat) (v : Word) : (s.setLatch m a v).resetDue = s.resetDue := rfl
@[simp] theorem State.setLatch_bootEv (m a : Nat) (v : Word) : (s.setLatch m a v).bootEv = s.bootEv := rfl
@[simp] theorem State.setLatch_bootOwn (m a : Nat) (v : Word) : (s.setLatch m a v).bootOwn = s.bootOwn := rfl
@[simp] theorem State.setLatch_railsOff (m a : Nat) (v : Word) : (s.setLatch m a v).railsOff = s.railsOff := rfl
@[simp] theorem State.setLatch_toOpen (m a : Nat) (v : Word) : (s.setLatch m a v).toOpen = s.toOpen := rfl
@[simp] theorem State.setLatch_claimCount (m a : Nat) (v : Word) : (s.setLatch m a v).claimCount = s.claimCount := rfl
@[simp] theorem State.setLatch_linkRun (m a : Nat) (v : Word) : (s.setLatch m a v).linkRun = s.linkRun := rfl
@[simp] theorem State.setLatch_hbFrame (m a : Nat) (v : Word) : (s.setLatch m a v).hbFrame = s.hbFrame := rfl
@[simp] theorem State.setLatch_skewGood (m a : Nat) (v : Word) : (s.setLatch m a v).skewGood = s.skewGood := rfl
@[simp] theorem State.setLatch_skewBad (m a : Nat) (v : Word) : (s.setLatch m a v).skewBad = s.skewBad := rfl
@[simp] theorem State.setLatch_joinStep (m a : Nat) (v : Word) : (s.setLatch m a v).joinStep = s.joinStep := rfl
@[simp] theorem State.setLatch_hashes (m a : Nat) (v : Word) : (s.setLatch m a v).hashes = s.hashes := rfl
@[simp] theorem State.setLatch_digests (m a : Nat) (v : Word) : (s.setLatch m a v).digests = s.digests := rfl
@[simp] theorem State.setLatch_matched (m a : Nat) (v : Word) : (s.setLatch m a v).matched = s.matched := rfl
@[simp] theorem State.setLatch_hbSent (m a : Nat) (v : Word) : (s.setLatch m a v).hbSent = s.hbSent := rfl
@[simp] theorem State.setLatch_epochRun (m a : Nat) (v : Word) : (s.setLatch m a v).epochRun = s.epochRun := rfl
@[simp] theorem State.setLatch_epochLast (m a : Nat) (v : Word) : (s.setLatch m a v).epochLast = s.epochLast := rfl
@[simp] theorem State.setLatch_epochReq (m a : Nat) (v : Word) : (s.setLatch m a v).epochReq = s.epochReq := rfl
@[simp] theorem State.setLatch_finalEpoch (m a : Nat) (v : Word) : (s.setLatch m a v).finalEpoch = s.finalEpoch := rfl
@[simp] theorem State.setLatch_relDue (m a : Nat) (v : Word) : (s.setLatch m a v).relDue = s.relDue := rfl
@[simp] theorem State.setLatch_relDone (m a : Nat) (v : Word) : (s.setLatch m a v).relDone = s.relDone := rfl
@[simp] theorem State.setLatch_epochRx (m a : Nat) (v : Word) : (s.setLatch m a v).epochRx = s.epochRx := rfl
@[simp] theorem State.setLatch_liveStart (m a : Nat) (v : Word) : (s.setLatch m a v).liveStart = s.liveStart := rfl
@[simp] theorem State.setLatch_sceneNeed (m a : Nat) (v : Word) : (s.setLatch m a v).sceneNeed = s.sceneNeed := rfl
@[simp] theorem State.setLatch_ownCur (m a : Nat) (v : Word) : (s.setLatch m a v).ownCur = s.ownCur := rfl
@[simp] theorem State.setLatch_ownPrev (m a : Nat) (v : Word) : (s.setLatch m a v).ownPrev = s.ownPrev := rfl
@[simp] theorem State.setLatch_relArmed (m a : Nat) (v : Word) : (s.setLatch m a v).relArmed = s.relArmed := rfl
@[simp] theorem State.setLatch_syncSent (m a : Nat) (v : Word) : (s.setLatch m a v).syncSent = s.syncSent := rfl
@[simp] theorem State.setLatch_spiResp (m a : Nat) (v : Word) : (s.setLatch m a v).spiResp = s.spiResp := rfl
@[simp] theorem State.setLatch_testPort (m a : Nat) (v : Word) : (s.setLatch m a v).testPort = s.testPort := rfl
@[simp] theorem State.setLatch_freeCtr (m a : Nat) (v : Word) : (s.setLatch m a v).freeCtr = s.freeCtr := rfl
@[simp] theorem State.setLatch_pending (m a : Nat) (v : Word) : (s.setLatch m a v).pending = s.pending := rfl

/-! ### returnTo -/

@[simp] theorem State.returnTo_regs (m : Nat) (v : Word) : (s.returnTo m v).regs = s.regs := rfl
@[simp] theorem State.returnTo_latch (m : Nat) (v : Word) : (s.returnTo m v).latch = s.latch := rfl
@[simp] theorem State.returnTo_fc (m : Nat) (v : Word) : (s.returnTo m v).fc = s.fc := rfl
@[simp] theorem State.returnTo_ticking (m : Nat) (v : Word) : (s.returnTo m v).ticking = s.ticking := rfl
@[simp] theorem State.returnTo_matFrame (m : Nat) (v : Word) : (s.returnTo m v).matFrame = s.matFrame := rfl
@[simp] theorem State.returnTo_tab (m : Nat) (v : Word) : (s.returnTo m v).tab = s.tab := rfl
@[simp] theorem State.returnTo_shad (m : Nat) (v : Word) : (s.returnTo m v).shad = s.shad := rfl
@[simp] theorem State.returnTo_courses (m : Nat) (v : Word) : (s.returnTo m v).courses = s.courses := rfl
@[simp] theorem State.returnTo_scratch (m : Nat) (v : Word) : (s.returnTo m v).scratch = s.scratch := rfl
@[simp] theorem State.returnTo_newOwner (m : Nat) (v : Word) : (s.returnTo m v).newOwner = s.newOwner := rfl
@[simp] theorem State.returnTo_dram (m : Nat) (v : Word) : (s.returnTo m v).dram = s.dram := rfl
@[simp] theorem State.returnTo_raced (m : Nat) (v : Word) : (s.returnTo m v).raced = s.raced := rfl
@[simp] theorem State.returnTo_scrUsed (m : Nat) (v : Word) : (s.returnTo m v).scrUsed = s.scrUsed := rfl
@[simp] theorem State.returnTo_rr (m : Nat) (v : Word) : (s.returnTo m v).rr = s.rr := rfl
@[simp] theorem State.returnTo_lines (m : Nat) (v : Word) : (s.returnTo m v).lines = s.lines := rfl
@[simp] theorem State.returnTo_taps (m : Nat) (v : Word) : (s.returnTo m v).taps = s.taps := rfl
@[simp] theorem State.returnTo_captured (m : Nat) (v : Word) : (s.returnTo m v).captured = s.captured := rfl
@[simp] theorem State.returnTo_mixFeeds (m : Nat) (v : Word) : (s.returnTo m v).mixFeeds = s.mixFeeds := rfl
@[simp] theorem State.returnTo_bus (m : Nat) (v : Word) : (s.returnTo m v).bus = s.bus := rfl
@[simp] theorem State.returnTo_xents (m : Nat) (v : Word) : (s.returnTo m v).xents = s.xents := rfl
@[simp] theorem State.returnTo_sels (m : Nat) (v : Word) : (s.returnTo m v).sels = s.sels := rfl
@[simp] theorem State.returnTo_secs (m : Nat) (v : Word) : (s.returnTo m v).secs = s.secs := rfl
@[simp] theorem State.returnTo_eqSat (m : Nat) (v : Word) : (s.returnTo m v).eqSat = s.eqSat := rfl
@[simp] theorem State.returnTo_chainOut (m : Nat) (v : Word) : (s.returnTo m v).chainOut = s.chainOut := rfl
@[simp] theorem State.returnTo_meters (m : Nat) (v : Word) : (s.returnTo m v).meters = s.meters := rfl
@[simp] theorem State.returnTo_pegOpen (m : Nat) (v : Word) : (s.returnTo m v).pegOpen = s.pegOpen := rfl
@[simp] theorem State.returnTo_pegQueue (m : Nat) (v : Word) : (s.returnTo m v).pegQueue = s.pegQueue := rfl
@[simp] theorem State.returnTo_commits (m : Nat) (v : Word) : (s.returnTo m v).commits = s.commits := rfl
@[simp] theorem State.returnTo_tokens (m : Nat) (v : Word) : (s.returnTo m v).tokens = s.tokens := rfl
@[simp] theorem State.returnTo_seq (m : Nat) (v : Word) : (s.returnTo m v).seq = s.seq := rfl
@[simp] theorem State.returnTo_store (m : Nat) (v : Word) : (s.returnTo m v).store = s.store := rfl
@[simp] theorem State.returnTo_readyCtr (m : Nat) (v : Word) : (s.returnTo m v).readyCtr = s.readyCtr := rfl
@[simp] theorem State.returnTo_mute (m : Nat) (v : Word) : (s.returnTo m v).mute = s.mute := rfl
@[simp] theorem State.returnTo_reactMute (m : Nat) (v : Word) : (s.returnTo m v).reactMute = s.reactMute := rfl
@[simp] theorem State.returnTo_asrcLost (m : Nat) (v : Word) : (s.returnTo m v).asrcLost = s.asrcLost := rfl
@[simp] theorem State.returnTo_test (m : Nat) (v : Word) : (s.returnTo m v).test = s.test := rfl
@[simp] theorem State.returnTo_snap (m : Nat) (v : Word) : (s.returnTo m v).snap = s.snap := rfl
@[simp] theorem State.returnTo_tbCount (m : Nat) (v : Word) : (s.returnTo m v).tbCount = s.tbCount := rfl
@[simp] theorem State.returnTo_releaseReq (m : Nat) (v : Word) : (s.returnTo m v).releaseReq = s.releaseReq := rfl
@[simp] theorem State.returnTo_asrcRatio (m : Nat) (v : Word) : (s.returnTo m v).asrcRatio = s.asrcRatio := rfl
@[simp] theorem State.returnTo_modeUsed (m : Nat) (v : Word) : (s.returnTo m v).modeUsed = s.modeUsed := rfl
@[simp] theorem State.returnTo_ports (m : Nat) (v : Word) : (s.returnTo m v).ports = s.ports := rfl
@[simp] theorem State.returnTo_rxs (m : Nat) (v : Word) : (s.returnTo m v).rxs = s.rxs := rfl
@[simp] theorem State.returnTo_txs (m : Nat) (v : Word) : (s.returnTo m v).txs = s.txs := rfl
@[simp] theorem State.returnTo_asrcLev (m : Nat) (v : Word) : (s.returnTo m v).asrcLev = s.asrcLev := rfl
@[simp] theorem State.returnTo_conv (m : Nat) (v : Word) : (s.returnTo m v).conv = s.conv := rfl
@[simp] theorem State.returnTo_asrcOut (m : Nat) (v : Word) : (s.returnTo m v).asrcOut = s.asrcOut := rfl
@[simp] theorem State.returnTo_rxFlows (m : Nat) (v : Word) : (s.returnTo m v).rxFlows = s.rxFlows := rfl
@[simp] theorem State.returnTo_txFlows (m : Nat) (v : Word) : (s.returnTo m v).txFlows = s.txFlows := rfl
@[simp] theorem State.returnTo_flowErr (m : Nat) (v : Word) : (s.returnTo m v).flowErr = s.flowErr := rfl
@[simp] theorem State.returnTo_wire (m : Nat) (v : Word) : (s.returnTo m v).wire = s.wire := rfl
@[simp] theorem State.returnTo_ringHold (m : Nat) (v : Word) : (s.returnTo m v).ringHold = s.ringHold := rfl
@[simp] theorem State.returnTo_partnerFlows (m : Nat) (v : Word) : (s.returnTo m v).partnerFlows = s.partnerFlows := rfl
@[simp] theorem State.returnTo_conns (m : Nat) (v : Word) : (s.returnTo m v).conns = s.conns := rfl
@[simp] theorem State.returnTo_partnersRefused (m : Nat) (v : Word) : (s.returnTo m v).partnersRefused = s.partnersRefused := rfl
@[simp] theorem State.returnTo_delronNet (m : Nat) (v : Word) : (s.returnTo m v).delronNet = s.delronNet := rfl
@[simp] theorem State.returnTo_outFill (m : Nat) (v : Word) : (s.returnTo m v).outFill = s.outFill := rfl
@[simp] theorem State.returnTo_outWait (m : Nat) (v : Word) : (s.returnTo m v).outWait = s.outWait := rfl
@[simp] theorem State.returnTo_pairEn (m : Nat) (v : Word) : (s.returnTo m v).pairEn = s.pairEn := rfl
@[simp] theorem State.returnTo_fwdSent (m : Nat) (v : Word) : (s.returnTo m v).fwdSent = s.fwdSent := rfl
@[simp] theorem State.returnTo_fwdApplied (m : Nat) (v : Word) : (s.returnTo m v).fwdApplied = s.fwdApplied := rfl
@[simp] theorem State.returnTo_cancelWait (m : Nat) (v : Word) : (s.returnTo m v).cancelWait = s.cancelWait := rfl
@[simp] theorem State.returnTo_anchors (m : Nat) (v : Word) : (s.returnTo m v).anchors = s.anchors := rfl
@[simp] theorem State.returnTo_ancPend (m : Nat) (v : Word) : (s.returnTo m v).ancPend = s.ancPend := rfl
@[simp] theorem State.returnTo_capCnt (m : Nat) (v : Word) : (s.returnTo m v).capCnt = s.capCnt := rfl
@[simp] theorem State.returnTo_capSec (m : Nat) (v : Word) : (s.returnTo m v).capSec = s.capSec := rfl
@[simp] theorem State.returnTo_slotSeen (m : Nat) (v : Word) : (s.returnTo m v).slotSeen = s.slotSeen := rfl
@[simp] theorem State.returnTo_refMeans (m : Nat) (v : Word) : (s.returnTo m v).refMeans = s.refMeans := rfl
@[simp] theorem State.returnTo_refSec (m : Nat) (v : Word) : (s.returnTo m v).refSec = s.refSec := rfl
@[simp] theorem State.returnTo_disPairs (m : Nat) (v : Word) : (s.returnTo m v).disPairs = s.disPairs := rfl
@[simp] theorem State.returnTo_genReq (m : Nat) (v : Word) : (s.returnTo m v).genReq = s.genReq := rfl
@[simp] theorem State.returnTo_timing (m : Nat) (v : Word) : (s.returnTo m v).timing = s.timing := rfl
@[simp] theorem State.returnTo_divNow (m : Nat) (v : Word) : (s.returnTo m v).divNow = s.divNow := rfl
@[simp] theorem State.returnTo_divHold (m : Nat) (v : Word) : (s.returnTo m v).divHold = s.divHold := rfl
@[simp] theorem State.returnTo_earlyDiv (m : Nat) (v : Word) : (s.returnTo m v).earlyDiv = s.earlyDiv := rfl
@[simp] theorem State.returnTo_earlySsc (m : Nat) (v : Word) : (s.returnTo m v).earlySsc = s.earlySsc := rfl
@[simp] theorem State.returnTo_xoFromRun (m : Nat) (v : Word) : (s.returnTo m v).xoFromRun = s.xoFromRun := rfl
@[simp] theorem State.returnTo_modeStep (m : Nat) (v : Word) : (s.returnTo m v).modeStep = s.modeStep := rfl
@[simp] theorem State.returnTo_modeQueued (m : Nat) (v : Word) : (s.returnTo m v).modeQueued = s.modeQueued := rfl
@[simp] theorem State.returnTo_sup (m : Nat) (v : Word) : (s.returnTo m v).sup = s.sup := rfl
@[simp] theorem State.returnTo_wakePend (m : Nat) (v : Word) : (s.returnTo m v).wakePend = s.wakePend := rfl
@[simp] theorem State.returnTo_railsUp (m : Nat) (v : Word) : (s.returnTo m v).railsUp = s.railsUp := rfl
@[simp] theorem State.returnTo_rstOut (m : Nat) (v : Word) : (s.returnTo m v).rstOut = s.rstOut := rfl
@[simp] theorem State.returnTo_holdupDue (m : Nat) (v : Word) : (s.returnTo m v).holdupDue = s.holdupDue := rfl
@[simp] theorem State.returnTo_holdup (m : Nat) (v : Word) : (s.returnTo m v).holdup = s.holdup := rfl
@[simp] theorem State.returnTo_flash (m : Nat) (v : Word) : (s.returnTo m v).flash = s.flash := rfl
@[simp] theorem State.returnTo_flashPart (m : Nat) (v : Word) : (s.returnTo m v).flashPart = s.flashPart := rfl
@[simp] theorem State.returnTo_flCmd (m : Nat) (v : Word) : (s.returnTo m v).flCmd = s.flCmd := rfl
@[simp] theorem State.returnTo_fuseKey (m : Nat) (v : Word) : (s.returnTo m v).fuseKey = s.fuseKey := rfl
@[simp] theorem State.returnTo_fuseLock (m : Nat) (v : Word) : (s.returnTo m v).fuseLock = s.fuseLock := rfl
@[simp] theorem State.returnTo_otpRun (m : Nat) (v : Word) : (s.returnTo m v).otpRun = s.otpRun := rfl
@[simp] theorem State.returnTo_loading (m : Nat) (v : Word) : (s.returnTo m v).loading = s.loading := rfl
@[simp] theorem State.returnTo_resetDue (m : Nat) (v : Word) : (s.returnTo m v).resetDue = s.resetDue := rfl
@[simp] theorem State.returnTo_bootEv (m : Nat) (v : Word) : (s.returnTo m v).bootEv = s.bootEv := rfl
@[simp] theorem State.returnTo_bootOwn (m : Nat) (v : Word) : (s.returnTo m v).bootOwn = s.bootOwn := rfl
@[simp] theorem State.returnTo_railsOff (m : Nat) (v : Word) : (s.returnTo m v).railsOff = s.railsOff := rfl
@[simp] theorem State.returnTo_toOpen (m : Nat) (v : Word) : (s.returnTo m v).toOpen = s.toOpen := rfl
@[simp] theorem State.returnTo_claimCount (m : Nat) (v : Word) : (s.returnTo m v).claimCount = s.claimCount := rfl
@[simp] theorem State.returnTo_linkRun (m : Nat) (v : Word) : (s.returnTo m v).linkRun = s.linkRun := rfl
@[simp] theorem State.returnTo_hbFrame (m : Nat) (v : Word) : (s.returnTo m v).hbFrame = s.hbFrame := rfl
@[simp] theorem State.returnTo_skewGood (m : Nat) (v : Word) : (s.returnTo m v).skewGood = s.skewGood := rfl
@[simp] theorem State.returnTo_skewBad (m : Nat) (v : Word) : (s.returnTo m v).skewBad = s.skewBad := rfl
@[simp] theorem State.returnTo_joinStep (m : Nat) (v : Word) : (s.returnTo m v).joinStep = s.joinStep := rfl
@[simp] theorem State.returnTo_hashes (m : Nat) (v : Word) : (s.returnTo m v).hashes = s.hashes := rfl
@[simp] theorem State.returnTo_digests (m : Nat) (v : Word) : (s.returnTo m v).digests = s.digests := rfl
@[simp] theorem State.returnTo_matched (m : Nat) (v : Word) : (s.returnTo m v).matched = s.matched := rfl
@[simp] theorem State.returnTo_hbSent (m : Nat) (v : Word) : (s.returnTo m v).hbSent = s.hbSent := rfl
@[simp] theorem State.returnTo_epochRun (m : Nat) (v : Word) : (s.returnTo m v).epochRun = s.epochRun := rfl
@[simp] theorem State.returnTo_epochLast (m : Nat) (v : Word) : (s.returnTo m v).epochLast = s.epochLast := rfl
@[simp] theorem State.returnTo_epochReq (m : Nat) (v : Word) : (s.returnTo m v).epochReq = s.epochReq := rfl
@[simp] theorem State.returnTo_finalEpoch (m : Nat) (v : Word) : (s.returnTo m v).finalEpoch = s.finalEpoch := rfl
@[simp] theorem State.returnTo_relDue (m : Nat) (v : Word) : (s.returnTo m v).relDue = s.relDue := rfl
@[simp] theorem State.returnTo_relDone (m : Nat) (v : Word) : (s.returnTo m v).relDone = s.relDone := rfl
@[simp] theorem State.returnTo_epochRx (m : Nat) (v : Word) : (s.returnTo m v).epochRx = s.epochRx := rfl
@[simp] theorem State.returnTo_liveStart (m : Nat) (v : Word) : (s.returnTo m v).liveStart = s.liveStart := rfl
@[simp] theorem State.returnTo_sceneNeed (m : Nat) (v : Word) : (s.returnTo m v).sceneNeed = s.sceneNeed := rfl
@[simp] theorem State.returnTo_ownCur (m : Nat) (v : Word) : (s.returnTo m v).ownCur = s.ownCur := rfl
@[simp] theorem State.returnTo_ownPrev (m : Nat) (v : Word) : (s.returnTo m v).ownPrev = s.ownPrev := rfl
@[simp] theorem State.returnTo_relArmed (m : Nat) (v : Word) : (s.returnTo m v).relArmed = s.relArmed := rfl
@[simp] theorem State.returnTo_syncSent (m : Nat) (v : Word) : (s.returnTo m v).syncSent = s.syncSent := rfl
@[simp] theorem State.returnTo_spiResp (m : Nat) (v : Word) : (s.returnTo m v).spiResp = s.spiResp := rfl
@[simp] theorem State.returnTo_testPort (m : Nat) (v : Word) : (s.returnTo m v).testPort = s.testPort := rfl
@[simp] theorem State.returnTo_freeCtr (m : Nat) (v : Word) : (s.returnTo m v).freeCtr = s.freeCtr := rfl
@[simp] theorem State.returnTo_pending (m : Nat) (v : Word) : (s.returnTo m v).pending = s.pending := rfl

/-! ### scratchSet -/

@[simp] theorem State.scratchSet_regs (b w : Nat) (v : Word) : (s.scratchSet b w v).regs = s.regs := rfl
@[simp] theorem State.scratchSet_latch (b w : Nat) (v : Word) : (s.scratchSet b w v).latch = s.latch := rfl
@[simp] theorem State.scratchSet_rdata (b w : Nat) (v : Word) : (s.scratchSet b w v).rdata = s.rdata := rfl
@[simp] theorem State.scratchSet_fc (b w : Nat) (v : Word) : (s.scratchSet b w v).fc = s.fc := rfl
@[simp] theorem State.scratchSet_ticking (b w : Nat) (v : Word) : (s.scratchSet b w v).ticking = s.ticking := rfl
@[simp] theorem State.scratchSet_matFrame (b w : Nat) (v : Word) : (s.scratchSet b w v).matFrame = s.matFrame := rfl
@[simp] theorem State.scratchSet_tab (b w : Nat) (v : Word) : (s.scratchSet b w v).tab = s.tab := rfl
@[simp] theorem State.scratchSet_shad (b w : Nat) (v : Word) : (s.scratchSet b w v).shad = s.shad := rfl
@[simp] theorem State.scratchSet_courses (b w : Nat) (v : Word) : (s.scratchSet b w v).courses = s.courses := rfl
@[simp] theorem State.scratchSet_newOwner (b w : Nat) (v : Word) : (s.scratchSet b w v).newOwner = s.newOwner := rfl
@[simp] theorem State.scratchSet_dram (b w : Nat) (v : Word) : (s.scratchSet b w v).dram = s.dram := rfl
@[simp] theorem State.scratchSet_scrUsed (b w : Nat) (v : Word) : (s.scratchSet b w v).scrUsed = s.scrUsed := rfl
@[simp] theorem State.scratchSet_rr (b w : Nat) (v : Word) : (s.scratchSet b w v).rr = s.rr := rfl
@[simp] theorem State.scratchSet_lines (b w : Nat) (v : Word) : (s.scratchSet b w v).lines = s.lines := rfl
@[simp] theorem State.scratchSet_taps (b w : Nat) (v : Word) : (s.scratchSet b w v).taps = s.taps := rfl
@[simp] theorem State.scratchSet_captured (b w : Nat) (v : Word) : (s.scratchSet b w v).captured = s.captured := rfl
@[simp] theorem State.scratchSet_mixFeeds (b w : Nat) (v : Word) : (s.scratchSet b w v).mixFeeds = s.mixFeeds := rfl
@[simp] theorem State.scratchSet_bus (b w : Nat) (v : Word) : (s.scratchSet b w v).bus = s.bus := rfl
@[simp] theorem State.scratchSet_xents (b w : Nat) (v : Word) : (s.scratchSet b w v).xents = s.xents := rfl
@[simp] theorem State.scratchSet_sels (b w : Nat) (v : Word) : (s.scratchSet b w v).sels = s.sels := rfl
@[simp] theorem State.scratchSet_secs (b w : Nat) (v : Word) : (s.scratchSet b w v).secs = s.secs := rfl
@[simp] theorem State.scratchSet_eqSat (b w : Nat) (v : Word) : (s.scratchSet b w v).eqSat = s.eqSat := rfl
@[simp] theorem State.scratchSet_chainOut (b w : Nat) (v : Word) : (s.scratchSet b w v).chainOut = s.chainOut := rfl
@[simp] theorem State.scratchSet_meters (b w : Nat) (v : Word) : (s.scratchSet b w v).meters = s.meters := rfl
@[simp] theorem State.scratchSet_pegOpen (b w : Nat) (v : Word) : (s.scratchSet b w v).pegOpen = s.pegOpen := rfl
@[simp] theorem State.scratchSet_pegQueue (b w : Nat) (v : Word) : (s.scratchSet b w v).pegQueue = s.pegQueue := rfl
@[simp] theorem State.scratchSet_commits (b w : Nat) (v : Word) : (s.scratchSet b w v).commits = s.commits := rfl
@[simp] theorem State.scratchSet_tokens (b w : Nat) (v : Word) : (s.scratchSet b w v).tokens = s.tokens := rfl
@[simp] theorem State.scratchSet_seq (b w : Nat) (v : Word) : (s.scratchSet b w v).seq = s.seq := rfl
@[simp] theorem State.scratchSet_store (b w : Nat) (v : Word) : (s.scratchSet b w v).store = s.store := rfl
@[simp] theorem State.scratchSet_readyCtr (b w : Nat) (v : Word) : (s.scratchSet b w v).readyCtr = s.readyCtr := rfl
@[simp] theorem State.scratchSet_mute (b w : Nat) (v : Word) : (s.scratchSet b w v).mute = s.mute := rfl
@[simp] theorem State.scratchSet_reactMute (b w : Nat) (v : Word) : (s.scratchSet b w v).reactMute = s.reactMute := rfl
@[simp] theorem State.scratchSet_asrcLost (b w : Nat) (v : Word) : (s.scratchSet b w v).asrcLost = s.asrcLost := rfl
@[simp] theorem State.scratchSet_test (b w : Nat) (v : Word) : (s.scratchSet b w v).test = s.test := rfl
@[simp] theorem State.scratchSet_snap (b w : Nat) (v : Word) : (s.scratchSet b w v).snap = s.snap := rfl
@[simp] theorem State.scratchSet_tbCount (b w : Nat) (v : Word) : (s.scratchSet b w v).tbCount = s.tbCount := rfl
@[simp] theorem State.scratchSet_releaseReq (b w : Nat) (v : Word) : (s.scratchSet b w v).releaseReq = s.releaseReq := rfl
@[simp] theorem State.scratchSet_asrcRatio (b w : Nat) (v : Word) : (s.scratchSet b w v).asrcRatio = s.asrcRatio := rfl
@[simp] theorem State.scratchSet_modeUsed (b w : Nat) (v : Word) : (s.scratchSet b w v).modeUsed = s.modeUsed := rfl
@[simp] theorem State.scratchSet_ports (b w : Nat) (v : Word) : (s.scratchSet b w v).ports = s.ports := rfl
@[simp] theorem State.scratchSet_rxs (b w : Nat) (v : Word) : (s.scratchSet b w v).rxs = s.rxs := rfl
@[simp] theorem State.scratchSet_txs (b w : Nat) (v : Word) : (s.scratchSet b w v).txs = s.txs := rfl
@[simp] theorem State.scratchSet_asrcLev (b w : Nat) (v : Word) : (s.scratchSet b w v).asrcLev = s.asrcLev := rfl
@[simp] theorem State.scratchSet_conv (b w : Nat) (v : Word) : (s.scratchSet b w v).conv = s.conv := rfl
@[simp] theorem State.scratchSet_asrcOut (b w : Nat) (v : Word) : (s.scratchSet b w v).asrcOut = s.asrcOut := rfl
@[simp] theorem State.scratchSet_rxFlows (b w : Nat) (v : Word) : (s.scratchSet b w v).rxFlows = s.rxFlows := rfl
@[simp] theorem State.scratchSet_txFlows (b w : Nat) (v : Word) : (s.scratchSet b w v).txFlows = s.txFlows := rfl
@[simp] theorem State.scratchSet_flowErr (b w : Nat) (v : Word) : (s.scratchSet b w v).flowErr = s.flowErr := rfl
@[simp] theorem State.scratchSet_wire (b w : Nat) (v : Word) : (s.scratchSet b w v).wire = s.wire := rfl
@[simp] theorem State.scratchSet_ringHold (b w : Nat) (v : Word) : (s.scratchSet b w v).ringHold = s.ringHold := rfl
@[simp] theorem State.scratchSet_partnerFlows (b w : Nat) (v : Word) : (s.scratchSet b w v).partnerFlows = s.partnerFlows := rfl
@[simp] theorem State.scratchSet_conns (b w : Nat) (v : Word) : (s.scratchSet b w v).conns = s.conns := rfl
@[simp] theorem State.scratchSet_partnersRefused (b w : Nat) (v : Word) : (s.scratchSet b w v).partnersRefused = s.partnersRefused := rfl
@[simp] theorem State.scratchSet_delronNet (b w : Nat) (v : Word) : (s.scratchSet b w v).delronNet = s.delronNet := rfl
@[simp] theorem State.scratchSet_outFill (b w : Nat) (v : Word) : (s.scratchSet b w v).outFill = s.outFill := rfl
@[simp] theorem State.scratchSet_outWait (b w : Nat) (v : Word) : (s.scratchSet b w v).outWait = s.outWait := rfl
@[simp] theorem State.scratchSet_pairEn (b w : Nat) (v : Word) : (s.scratchSet b w v).pairEn = s.pairEn := rfl
@[simp] theorem State.scratchSet_fwdSent (b w : Nat) (v : Word) : (s.scratchSet b w v).fwdSent = s.fwdSent := rfl
@[simp] theorem State.scratchSet_fwdApplied (b w : Nat) (v : Word) : (s.scratchSet b w v).fwdApplied = s.fwdApplied := rfl
@[simp] theorem State.scratchSet_cancelWait (b w : Nat) (v : Word) : (s.scratchSet b w v).cancelWait = s.cancelWait := rfl
@[simp] theorem State.scratchSet_anchors (b w : Nat) (v : Word) : (s.scratchSet b w v).anchors = s.anchors := rfl
@[simp] theorem State.scratchSet_ancPend (b w : Nat) (v : Word) : (s.scratchSet b w v).ancPend = s.ancPend := rfl
@[simp] theorem State.scratchSet_capCnt (b w : Nat) (v : Word) : (s.scratchSet b w v).capCnt = s.capCnt := rfl
@[simp] theorem State.scratchSet_capSec (b w : Nat) (v : Word) : (s.scratchSet b w v).capSec = s.capSec := rfl
@[simp] theorem State.scratchSet_slotSeen (b w : Nat) (v : Word) : (s.scratchSet b w v).slotSeen = s.slotSeen := rfl
@[simp] theorem State.scratchSet_refMeans (b w : Nat) (v : Word) : (s.scratchSet b w v).refMeans = s.refMeans := rfl
@[simp] theorem State.scratchSet_refSec (b w : Nat) (v : Word) : (s.scratchSet b w v).refSec = s.refSec := rfl
@[simp] theorem State.scratchSet_disPairs (b w : Nat) (v : Word) : (s.scratchSet b w v).disPairs = s.disPairs := rfl
@[simp] theorem State.scratchSet_genReq (b w : Nat) (v : Word) : (s.scratchSet b w v).genReq = s.genReq := rfl
@[simp] theorem State.scratchSet_timing (b w : Nat) (v : Word) : (s.scratchSet b w v).timing = s.timing := rfl
@[simp] theorem State.scratchSet_divNow (b w : Nat) (v : Word) : (s.scratchSet b w v).divNow = s.divNow := rfl
@[simp] theorem State.scratchSet_divHold (b w : Nat) (v : Word) : (s.scratchSet b w v).divHold = s.divHold := rfl
@[simp] theorem State.scratchSet_earlyDiv (b w : Nat) (v : Word) : (s.scratchSet b w v).earlyDiv = s.earlyDiv := rfl
@[simp] theorem State.scratchSet_earlySsc (b w : Nat) (v : Word) : (s.scratchSet b w v).earlySsc = s.earlySsc := rfl
@[simp] theorem State.scratchSet_xoFromRun (b w : Nat) (v : Word) : (s.scratchSet b w v).xoFromRun = s.xoFromRun := rfl
@[simp] theorem State.scratchSet_modeStep (b w : Nat) (v : Word) : (s.scratchSet b w v).modeStep = s.modeStep := rfl
@[simp] theorem State.scratchSet_modeQueued (b w : Nat) (v : Word) : (s.scratchSet b w v).modeQueued = s.modeQueued := rfl
@[simp] theorem State.scratchSet_sup (b w : Nat) (v : Word) : (s.scratchSet b w v).sup = s.sup := rfl
@[simp] theorem State.scratchSet_wakePend (b w : Nat) (v : Word) : (s.scratchSet b w v).wakePend = s.wakePend := rfl
@[simp] theorem State.scratchSet_railsUp (b w : Nat) (v : Word) : (s.scratchSet b w v).railsUp = s.railsUp := rfl
@[simp] theorem State.scratchSet_rstOut (b w : Nat) (v : Word) : (s.scratchSet b w v).rstOut = s.rstOut := rfl
@[simp] theorem State.scratchSet_holdupDue (b w : Nat) (v : Word) : (s.scratchSet b w v).holdupDue = s.holdupDue := rfl
@[simp] theorem State.scratchSet_holdup (b w : Nat) (v : Word) : (s.scratchSet b w v).holdup = s.holdup := rfl
@[simp] theorem State.scratchSet_flash (b w : Nat) (v : Word) : (s.scratchSet b w v).flash = s.flash := rfl
@[simp] theorem State.scratchSet_flashPart (b w : Nat) (v : Word) : (s.scratchSet b w v).flashPart = s.flashPart := rfl
@[simp] theorem State.scratchSet_flCmd (b w : Nat) (v : Word) : (s.scratchSet b w v).flCmd = s.flCmd := rfl
@[simp] theorem State.scratchSet_fuseKey (b w : Nat) (v : Word) : (s.scratchSet b w v).fuseKey = s.fuseKey := rfl
@[simp] theorem State.scratchSet_fuseLock (b w : Nat) (v : Word) : (s.scratchSet b w v).fuseLock = s.fuseLock := rfl
@[simp] theorem State.scratchSet_otpRun (b w : Nat) (v : Word) : (s.scratchSet b w v).otpRun = s.otpRun := rfl
@[simp] theorem State.scratchSet_loading (b w : Nat) (v : Word) : (s.scratchSet b w v).loading = s.loading := rfl
@[simp] theorem State.scratchSet_resetDue (b w : Nat) (v : Word) : (s.scratchSet b w v).resetDue = s.resetDue := rfl
@[simp] theorem State.scratchSet_bootEv (b w : Nat) (v : Word) : (s.scratchSet b w v).bootEv = s.bootEv := rfl
@[simp] theorem State.scratchSet_bootOwn (b w : Nat) (v : Word) : (s.scratchSet b w v).bootOwn = s.bootOwn := rfl
@[simp] theorem State.scratchSet_railsOff (b w : Nat) (v : Word) : (s.scratchSet b w v).railsOff = s.railsOff := rfl
@[simp] theorem State.scratchSet_toOpen (b w : Nat) (v : Word) : (s.scratchSet b w v).toOpen = s.toOpen := rfl
@[simp] theorem State.scratchSet_claimCount (b w : Nat) (v : Word) : (s.scratchSet b w v).claimCount = s.claimCount := rfl
@[simp] theorem State.scratchSet_linkRun (b w : Nat) (v : Word) : (s.scratchSet b w v).linkRun = s.linkRun := rfl
@[simp] theorem State.scratchSet_hbFrame (b w : Nat) (v : Word) : (s.scratchSet b w v).hbFrame = s.hbFrame := rfl
@[simp] theorem State.scratchSet_skewGood (b w : Nat) (v : Word) : (s.scratchSet b w v).skewGood = s.skewGood := rfl
@[simp] theorem State.scratchSet_skewBad (b w : Nat) (v : Word) : (s.scratchSet b w v).skewBad = s.skewBad := rfl
@[simp] theorem State.scratchSet_joinStep (b w : Nat) (v : Word) : (s.scratchSet b w v).joinStep = s.joinStep := rfl
@[simp] theorem State.scratchSet_hashes (b w : Nat) (v : Word) : (s.scratchSet b w v).hashes = s.hashes := rfl
@[simp] theorem State.scratchSet_digests (b w : Nat) (v : Word) : (s.scratchSet b w v).digests = s.digests := rfl
@[simp] theorem State.scratchSet_matched (b w : Nat) (v : Word) : (s.scratchSet b w v).matched = s.matched := rfl
@[simp] theorem State.scratchSet_hbSent (b w : Nat) (v : Word) : (s.scratchSet b w v).hbSent = s.hbSent := rfl
@[simp] theorem State.scratchSet_epochRun (b w : Nat) (v : Word) : (s.scratchSet b w v).epochRun = s.epochRun := rfl
@[simp] theorem State.scratchSet_epochLast (b w : Nat) (v : Word) : (s.scratchSet b w v).epochLast = s.epochLast := rfl
@[simp] theorem State.scratchSet_epochReq (b w : Nat) (v : Word) : (s.scratchSet b w v).epochReq = s.epochReq := rfl
@[simp] theorem State.scratchSet_finalEpoch (b w : Nat) (v : Word) : (s.scratchSet b w v).finalEpoch = s.finalEpoch := rfl
@[simp] theorem State.scratchSet_relDue (b w : Nat) (v : Word) : (s.scratchSet b w v).relDue = s.relDue := rfl
@[simp] theorem State.scratchSet_relDone (b w : Nat) (v : Word) : (s.scratchSet b w v).relDone = s.relDone := rfl
@[simp] theorem State.scratchSet_epochRx (b w : Nat) (v : Word) : (s.scratchSet b w v).epochRx = s.epochRx := rfl
@[simp] theorem State.scratchSet_liveStart (b w : Nat) (v : Word) : (s.scratchSet b w v).liveStart = s.liveStart := rfl
@[simp] theorem State.scratchSet_sceneNeed (b w : Nat) (v : Word) : (s.scratchSet b w v).sceneNeed = s.sceneNeed := rfl
@[simp] theorem State.scratchSet_ownCur (b w : Nat) (v : Word) : (s.scratchSet b w v).ownCur = s.ownCur := rfl
@[simp] theorem State.scratchSet_ownPrev (b w : Nat) (v : Word) : (s.scratchSet b w v).ownPrev = s.ownPrev := rfl
@[simp] theorem State.scratchSet_relArmed (b w : Nat) (v : Word) : (s.scratchSet b w v).relArmed = s.relArmed := rfl
@[simp] theorem State.scratchSet_syncSent (b w : Nat) (v : Word) : (s.scratchSet b w v).syncSent = s.syncSent := rfl
@[simp] theorem State.scratchSet_spiResp (b w : Nat) (v : Word) : (s.scratchSet b w v).spiResp = s.spiResp := rfl
@[simp] theorem State.scratchSet_testPort (b w : Nat) (v : Word) : (s.scratchSet b w v).testPort = s.testPort := rfl
@[simp] theorem State.scratchSet_freeCtr (b w : Nat) (v : Word) : (s.scratchSet b w v).freeCtr = s.freeCtr := rfl
@[simp] theorem State.scratchSet_pending (b w : Nat) (v : Word) : (s.scratchSet b w v).pending = s.pending := rfl

/-! ### dramSet -/

@[simp] theorem State.dramSet_regs (w : Nat) (v : Word) : (s.dramSet w v).regs = s.regs := rfl
@[simp] theorem State.dramSet_latch (w : Nat) (v : Word) : (s.dramSet w v).latch = s.latch := rfl
@[simp] theorem State.dramSet_rdata (w : Nat) (v : Word) : (s.dramSet w v).rdata = s.rdata := rfl
@[simp] theorem State.dramSet_fc (w : Nat) (v : Word) : (s.dramSet w v).fc = s.fc := rfl
@[simp] theorem State.dramSet_ticking (w : Nat) (v : Word) : (s.dramSet w v).ticking = s.ticking := rfl
@[simp] theorem State.dramSet_matFrame (w : Nat) (v : Word) : (s.dramSet w v).matFrame = s.matFrame := rfl
@[simp] theorem State.dramSet_tab (w : Nat) (v : Word) : (s.dramSet w v).tab = s.tab := rfl
@[simp] theorem State.dramSet_shad (w : Nat) (v : Word) : (s.dramSet w v).shad = s.shad := rfl
@[simp] theorem State.dramSet_courses (w : Nat) (v : Word) : (s.dramSet w v).courses = s.courses := rfl
@[simp] theorem State.dramSet_scratch (w : Nat) (v : Word) : (s.dramSet w v).scratch = s.scratch := rfl
@[simp] theorem State.dramSet_newOwner (w : Nat) (v : Word) : (s.dramSet w v).newOwner = s.newOwner := rfl
@[simp] theorem State.dramSet_scrUsed (w : Nat) (v : Word) : (s.dramSet w v).scrUsed = s.scrUsed := rfl
@[simp] theorem State.dramSet_rr (w : Nat) (v : Word) : (s.dramSet w v).rr = s.rr := rfl
@[simp] theorem State.dramSet_lines (w : Nat) (v : Word) : (s.dramSet w v).lines = s.lines := rfl
@[simp] theorem State.dramSet_taps (w : Nat) (v : Word) : (s.dramSet w v).taps = s.taps := rfl
@[simp] theorem State.dramSet_captured (w : Nat) (v : Word) : (s.dramSet w v).captured = s.captured := rfl
@[simp] theorem State.dramSet_mixFeeds (w : Nat) (v : Word) : (s.dramSet w v).mixFeeds = s.mixFeeds := rfl
@[simp] theorem State.dramSet_bus (w : Nat) (v : Word) : (s.dramSet w v).bus = s.bus := rfl
@[simp] theorem State.dramSet_xents (w : Nat) (v : Word) : (s.dramSet w v).xents = s.xents := rfl
@[simp] theorem State.dramSet_sels (w : Nat) (v : Word) : (s.dramSet w v).sels = s.sels := rfl
@[simp] theorem State.dramSet_secs (w : Nat) (v : Word) : (s.dramSet w v).secs = s.secs := rfl
@[simp] theorem State.dramSet_eqSat (w : Nat) (v : Word) : (s.dramSet w v).eqSat = s.eqSat := rfl
@[simp] theorem State.dramSet_chainOut (w : Nat) (v : Word) : (s.dramSet w v).chainOut = s.chainOut := rfl
@[simp] theorem State.dramSet_meters (w : Nat) (v : Word) : (s.dramSet w v).meters = s.meters := rfl
@[simp] theorem State.dramSet_pegOpen (w : Nat) (v : Word) : (s.dramSet w v).pegOpen = s.pegOpen := rfl
@[simp] theorem State.dramSet_pegQueue (w : Nat) (v : Word) : (s.dramSet w v).pegQueue = s.pegQueue := rfl
@[simp] theorem State.dramSet_commits (w : Nat) (v : Word) : (s.dramSet w v).commits = s.commits := rfl
@[simp] theorem State.dramSet_tokens (w : Nat) (v : Word) : (s.dramSet w v).tokens = s.tokens := rfl
@[simp] theorem State.dramSet_seq (w : Nat) (v : Word) : (s.dramSet w v).seq = s.seq := rfl
@[simp] theorem State.dramSet_store (w : Nat) (v : Word) : (s.dramSet w v).store = s.store := rfl
@[simp] theorem State.dramSet_readyCtr (w : Nat) (v : Word) : (s.dramSet w v).readyCtr = s.readyCtr := rfl
@[simp] theorem State.dramSet_mute (w : Nat) (v : Word) : (s.dramSet w v).mute = s.mute := rfl
@[simp] theorem State.dramSet_reactMute (w : Nat) (v : Word) : (s.dramSet w v).reactMute = s.reactMute := rfl
@[simp] theorem State.dramSet_asrcLost (w : Nat) (v : Word) : (s.dramSet w v).asrcLost = s.asrcLost := rfl
@[simp] theorem State.dramSet_test (w : Nat) (v : Word) : (s.dramSet w v).test = s.test := rfl
@[simp] theorem State.dramSet_snap (w : Nat) (v : Word) : (s.dramSet w v).snap = s.snap := rfl
@[simp] theorem State.dramSet_tbCount (w : Nat) (v : Word) : (s.dramSet w v).tbCount = s.tbCount := rfl
@[simp] theorem State.dramSet_releaseReq (w : Nat) (v : Word) : (s.dramSet w v).releaseReq = s.releaseReq := rfl
@[simp] theorem State.dramSet_asrcRatio (w : Nat) (v : Word) : (s.dramSet w v).asrcRatio = s.asrcRatio := rfl
@[simp] theorem State.dramSet_modeUsed (w : Nat) (v : Word) : (s.dramSet w v).modeUsed = s.modeUsed := rfl
@[simp] theorem State.dramSet_ports (w : Nat) (v : Word) : (s.dramSet w v).ports = s.ports := rfl
@[simp] theorem State.dramSet_rxs (w : Nat) (v : Word) : (s.dramSet w v).rxs = s.rxs := rfl
@[simp] theorem State.dramSet_txs (w : Nat) (v : Word) : (s.dramSet w v).txs = s.txs := rfl
@[simp] theorem State.dramSet_asrcLev (w : Nat) (v : Word) : (s.dramSet w v).asrcLev = s.asrcLev := rfl
@[simp] theorem State.dramSet_conv (w : Nat) (v : Word) : (s.dramSet w v).conv = s.conv := rfl
@[simp] theorem State.dramSet_asrcOut (w : Nat) (v : Word) : (s.dramSet w v).asrcOut = s.asrcOut := rfl
@[simp] theorem State.dramSet_rxFlows (w : Nat) (v : Word) : (s.dramSet w v).rxFlows = s.rxFlows := rfl
@[simp] theorem State.dramSet_txFlows (w : Nat) (v : Word) : (s.dramSet w v).txFlows = s.txFlows := rfl
@[simp] theorem State.dramSet_flowErr (w : Nat) (v : Word) : (s.dramSet w v).flowErr = s.flowErr := rfl
@[simp] theorem State.dramSet_wire (w : Nat) (v : Word) : (s.dramSet w v).wire = s.wire := rfl
@[simp] theorem State.dramSet_ringHold (w : Nat) (v : Word) : (s.dramSet w v).ringHold = s.ringHold := rfl
@[simp] theorem State.dramSet_partnerFlows (w : Nat) (v : Word) : (s.dramSet w v).partnerFlows = s.partnerFlows := rfl
@[simp] theorem State.dramSet_conns (w : Nat) (v : Word) : (s.dramSet w v).conns = s.conns := rfl
@[simp] theorem State.dramSet_partnersRefused (w : Nat) (v : Word) : (s.dramSet w v).partnersRefused = s.partnersRefused := rfl
@[simp] theorem State.dramSet_delronNet (w : Nat) (v : Word) : (s.dramSet w v).delronNet = s.delronNet := rfl
@[simp] theorem State.dramSet_outFill (w : Nat) (v : Word) : (s.dramSet w v).outFill = s.outFill := rfl
@[simp] theorem State.dramSet_outWait (w : Nat) (v : Word) : (s.dramSet w v).outWait = s.outWait := rfl
@[simp] theorem State.dramSet_pairEn (w : Nat) (v : Word) : (s.dramSet w v).pairEn = s.pairEn := rfl
@[simp] theorem State.dramSet_fwdSent (w : Nat) (v : Word) : (s.dramSet w v).fwdSent = s.fwdSent := rfl
@[simp] theorem State.dramSet_fwdApplied (w : Nat) (v : Word) : (s.dramSet w v).fwdApplied = s.fwdApplied := rfl
@[simp] theorem State.dramSet_cancelWait (w : Nat) (v : Word) : (s.dramSet w v).cancelWait = s.cancelWait := rfl
@[simp] theorem State.dramSet_anchors (w : Nat) (v : Word) : (s.dramSet w v).anchors = s.anchors := rfl
@[simp] theorem State.dramSet_ancPend (w : Nat) (v : Word) : (s.dramSet w v).ancPend = s.ancPend := rfl
@[simp] theorem State.dramSet_capCnt (w : Nat) (v : Word) : (s.dramSet w v).capCnt = s.capCnt := rfl
@[simp] theorem State.dramSet_capSec (w : Nat) (v : Word) : (s.dramSet w v).capSec = s.capSec := rfl
@[simp] theorem State.dramSet_slotSeen (w : Nat) (v : Word) : (s.dramSet w v).slotSeen = s.slotSeen := rfl
@[simp] theorem State.dramSet_refMeans (w : Nat) (v : Word) : (s.dramSet w v).refMeans = s.refMeans := rfl
@[simp] theorem State.dramSet_refSec (w : Nat) (v : Word) : (s.dramSet w v).refSec = s.refSec := rfl
@[simp] theorem State.dramSet_disPairs (w : Nat) (v : Word) : (s.dramSet w v).disPairs = s.disPairs := rfl
@[simp] theorem State.dramSet_genReq (w : Nat) (v : Word) : (s.dramSet w v).genReq = s.genReq := rfl
@[simp] theorem State.dramSet_timing (w : Nat) (v : Word) : (s.dramSet w v).timing = s.timing := rfl
@[simp] theorem State.dramSet_divNow (w : Nat) (v : Word) : (s.dramSet w v).divNow = s.divNow := rfl
@[simp] theorem State.dramSet_divHold (w : Nat) (v : Word) : (s.dramSet w v).divHold = s.divHold := rfl
@[simp] theorem State.dramSet_earlyDiv (w : Nat) (v : Word) : (s.dramSet w v).earlyDiv = s.earlyDiv := rfl
@[simp] theorem State.dramSet_earlySsc (w : Nat) (v : Word) : (s.dramSet w v).earlySsc = s.earlySsc := rfl
@[simp] theorem State.dramSet_xoFromRun (w : Nat) (v : Word) : (s.dramSet w v).xoFromRun = s.xoFromRun := rfl
@[simp] theorem State.dramSet_modeStep (w : Nat) (v : Word) : (s.dramSet w v).modeStep = s.modeStep := rfl
@[simp] theorem State.dramSet_modeQueued (w : Nat) (v : Word) : (s.dramSet w v).modeQueued = s.modeQueued := rfl
@[simp] theorem State.dramSet_sup (w : Nat) (v : Word) : (s.dramSet w v).sup = s.sup := rfl
@[simp] theorem State.dramSet_wakePend (w : Nat) (v : Word) : (s.dramSet w v).wakePend = s.wakePend := rfl
@[simp] theorem State.dramSet_railsUp (w : Nat) (v : Word) : (s.dramSet w v).railsUp = s.railsUp := rfl
@[simp] theorem State.dramSet_rstOut (w : Nat) (v : Word) : (s.dramSet w v).rstOut = s.rstOut := rfl
@[simp] theorem State.dramSet_holdupDue (w : Nat) (v : Word) : (s.dramSet w v).holdupDue = s.holdupDue := rfl
@[simp] theorem State.dramSet_holdup (w : Nat) (v : Word) : (s.dramSet w v).holdup = s.holdup := rfl
@[simp] theorem State.dramSet_flash (w : Nat) (v : Word) : (s.dramSet w v).flash = s.flash := rfl
@[simp] theorem State.dramSet_flashPart (w : Nat) (v : Word) : (s.dramSet w v).flashPart = s.flashPart := rfl
@[simp] theorem State.dramSet_flCmd (w : Nat) (v : Word) : (s.dramSet w v).flCmd = s.flCmd := rfl
@[simp] theorem State.dramSet_fuseKey (w : Nat) (v : Word) : (s.dramSet w v).fuseKey = s.fuseKey := rfl
@[simp] theorem State.dramSet_fuseLock (w : Nat) (v : Word) : (s.dramSet w v).fuseLock = s.fuseLock := rfl
@[simp] theorem State.dramSet_otpRun (w : Nat) (v : Word) : (s.dramSet w v).otpRun = s.otpRun := rfl
@[simp] theorem State.dramSet_loading (w : Nat) (v : Word) : (s.dramSet w v).loading = s.loading := rfl
@[simp] theorem State.dramSet_resetDue (w : Nat) (v : Word) : (s.dramSet w v).resetDue = s.resetDue := rfl
@[simp] theorem State.dramSet_bootEv (w : Nat) (v : Word) : (s.dramSet w v).bootEv = s.bootEv := rfl
@[simp] theorem State.dramSet_bootOwn (w : Nat) (v : Word) : (s.dramSet w v).bootOwn = s.bootOwn := rfl
@[simp] theorem State.dramSet_railsOff (w : Nat) (v : Word) : (s.dramSet w v).railsOff = s.railsOff := rfl
@[simp] theorem State.dramSet_toOpen (w : Nat) (v : Word) : (s.dramSet w v).toOpen = s.toOpen := rfl
@[simp] theorem State.dramSet_claimCount (w : Nat) (v : Word) : (s.dramSet w v).claimCount = s.claimCount := rfl
@[simp] theorem State.dramSet_linkRun (w : Nat) (v : Word) : (s.dramSet w v).linkRun = s.linkRun := rfl
@[simp] theorem State.dramSet_hbFrame (w : Nat) (v : Word) : (s.dramSet w v).hbFrame = s.hbFrame := rfl
@[simp] theorem State.dramSet_skewGood (w : Nat) (v : Word) : (s.dramSet w v).skewGood = s.skewGood := rfl
@[simp] theorem State.dramSet_skewBad (w : Nat) (v : Word) : (s.dramSet w v).skewBad = s.skewBad := rfl
@[simp] theorem State.dramSet_joinStep (w : Nat) (v : Word) : (s.dramSet w v).joinStep = s.joinStep := rfl
@[simp] theorem State.dramSet_hashes (w : Nat) (v : Word) : (s.dramSet w v).hashes = s.hashes := rfl
@[simp] theorem State.dramSet_digests (w : Nat) (v : Word) : (s.dramSet w v).digests = s.digests := rfl
@[simp] theorem State.dramSet_matched (w : Nat) (v : Word) : (s.dramSet w v).matched = s.matched := rfl
@[simp] theorem State.dramSet_hbSent (w : Nat) (v : Word) : (s.dramSet w v).hbSent = s.hbSent := rfl
@[simp] theorem State.dramSet_epochRun (w : Nat) (v : Word) : (s.dramSet w v).epochRun = s.epochRun := rfl
@[simp] theorem State.dramSet_epochLast (w : Nat) (v : Word) : (s.dramSet w v).epochLast = s.epochLast := rfl
@[simp] theorem State.dramSet_epochReq (w : Nat) (v : Word) : (s.dramSet w v).epochReq = s.epochReq := rfl
@[simp] theorem State.dramSet_finalEpoch (w : Nat) (v : Word) : (s.dramSet w v).finalEpoch = s.finalEpoch := rfl
@[simp] theorem State.dramSet_relDue (w : Nat) (v : Word) : (s.dramSet w v).relDue = s.relDue := rfl
@[simp] theorem State.dramSet_relDone (w : Nat) (v : Word) : (s.dramSet w v).relDone = s.relDone := rfl
@[simp] theorem State.dramSet_epochRx (w : Nat) (v : Word) : (s.dramSet w v).epochRx = s.epochRx := rfl
@[simp] theorem State.dramSet_liveStart (w : Nat) (v : Word) : (s.dramSet w v).liveStart = s.liveStart := rfl
@[simp] theorem State.dramSet_sceneNeed (w : Nat) (v : Word) : (s.dramSet w v).sceneNeed = s.sceneNeed := rfl
@[simp] theorem State.dramSet_ownCur (w : Nat) (v : Word) : (s.dramSet w v).ownCur = s.ownCur := rfl
@[simp] theorem State.dramSet_ownPrev (w : Nat) (v : Word) : (s.dramSet w v).ownPrev = s.ownPrev := rfl
@[simp] theorem State.dramSet_relArmed (w : Nat) (v : Word) : (s.dramSet w v).relArmed = s.relArmed := rfl
@[simp] theorem State.dramSet_syncSent (w : Nat) (v : Word) : (s.dramSet w v).syncSent = s.syncSent := rfl
@[simp] theorem State.dramSet_spiResp (w : Nat) (v : Word) : (s.dramSet w v).spiResp = s.spiResp := rfl
@[simp] theorem State.dramSet_testPort (w : Nat) (v : Word) : (s.dramSet w v).testPort = s.testPort := rfl
@[simp] theorem State.dramSet_freeCtr (w : Nat) (v : Word) : (s.dramSet w v).freeCtr = s.freeCtr := rfl
@[simp] theorem State.dramSet_pending (w : Nat) (v : Word) : (s.dramSet w v).pending = s.pending := rfl

/-! ### draw -/

theorem State.draw_fst : s.draw.1 = Config.freeWord s.freeCtr := rfl
@[simp] theorem State.draw_regs : s.draw.2.regs = s.regs := rfl
@[simp] theorem State.draw_latch : s.draw.2.latch = s.latch := rfl
@[simp] theorem State.draw_rdata : s.draw.2.rdata = s.rdata := rfl
@[simp] theorem State.draw_fc : s.draw.2.fc = s.fc := rfl
@[simp] theorem State.draw_ticking : s.draw.2.ticking = s.ticking := rfl
@[simp] theorem State.draw_matFrame : s.draw.2.matFrame = s.matFrame := rfl
@[simp] theorem State.draw_tab : s.draw.2.tab = s.tab := rfl
@[simp] theorem State.draw_shad : s.draw.2.shad = s.shad := rfl
@[simp] theorem State.draw_courses : s.draw.2.courses = s.courses := rfl
@[simp] theorem State.draw_scratch : s.draw.2.scratch = s.scratch := rfl
@[simp] theorem State.draw_newOwner : s.draw.2.newOwner = s.newOwner := rfl
@[simp] theorem State.draw_dram : s.draw.2.dram = s.dram := rfl
@[simp] theorem State.draw_raced : s.draw.2.raced = s.raced := rfl
@[simp] theorem State.draw_scrUsed : s.draw.2.scrUsed = s.scrUsed := rfl
@[simp] theorem State.draw_rr : s.draw.2.rr = s.rr := rfl
@[simp] theorem State.draw_lines : s.draw.2.lines = s.lines := rfl
@[simp] theorem State.draw_taps : s.draw.2.taps = s.taps := rfl
@[simp] theorem State.draw_captured : s.draw.2.captured = s.captured := rfl
@[simp] theorem State.draw_mixFeeds : s.draw.2.mixFeeds = s.mixFeeds := rfl
@[simp] theorem State.draw_bus : s.draw.2.bus = s.bus := rfl
@[simp] theorem State.draw_xents : s.draw.2.xents = s.xents := rfl
@[simp] theorem State.draw_sels : s.draw.2.sels = s.sels := rfl
@[simp] theorem State.draw_secs : s.draw.2.secs = s.secs := rfl
@[simp] theorem State.draw_eqSat : s.draw.2.eqSat = s.eqSat := rfl
@[simp] theorem State.draw_chainOut : s.draw.2.chainOut = s.chainOut := rfl
@[simp] theorem State.draw_meters : s.draw.2.meters = s.meters := rfl
@[simp] theorem State.draw_pegOpen : s.draw.2.pegOpen = s.pegOpen := rfl
@[simp] theorem State.draw_pegQueue : s.draw.2.pegQueue = s.pegQueue := rfl
@[simp] theorem State.draw_commits : s.draw.2.commits = s.commits := rfl
@[simp] theorem State.draw_tokens : s.draw.2.tokens = s.tokens := rfl
@[simp] theorem State.draw_seq : s.draw.2.seq = s.seq := rfl
@[simp] theorem State.draw_store : s.draw.2.store = s.store := rfl
@[simp] theorem State.draw_readyCtr : s.draw.2.readyCtr = s.readyCtr := rfl
@[simp] theorem State.draw_mute : s.draw.2.mute = s.mute := rfl
@[simp] theorem State.draw_reactMute : s.draw.2.reactMute = s.reactMute := rfl
@[simp] theorem State.draw_asrcLost : s.draw.2.asrcLost = s.asrcLost := rfl
@[simp] theorem State.draw_test : s.draw.2.test = s.test := rfl
@[simp] theorem State.draw_snap : s.draw.2.snap = s.snap := rfl
@[simp] theorem State.draw_tbCount : s.draw.2.tbCount = s.tbCount := rfl
@[simp] theorem State.draw_releaseReq : s.draw.2.releaseReq = s.releaseReq := rfl
@[simp] theorem State.draw_asrcRatio : s.draw.2.asrcRatio = s.asrcRatio := rfl
@[simp] theorem State.draw_modeUsed : s.draw.2.modeUsed = s.modeUsed := rfl
@[simp] theorem State.draw_ports : s.draw.2.ports = s.ports := rfl
@[simp] theorem State.draw_rxs : s.draw.2.rxs = s.rxs := rfl
@[simp] theorem State.draw_txs : s.draw.2.txs = s.txs := rfl
@[simp] theorem State.draw_asrcLev : s.draw.2.asrcLev = s.asrcLev := rfl
@[simp] theorem State.draw_conv : s.draw.2.conv = s.conv := rfl
@[simp] theorem State.draw_asrcOut : s.draw.2.asrcOut = s.asrcOut := rfl
@[simp] theorem State.draw_rxFlows : s.draw.2.rxFlows = s.rxFlows := rfl
@[simp] theorem State.draw_txFlows : s.draw.2.txFlows = s.txFlows := rfl
@[simp] theorem State.draw_flowErr : s.draw.2.flowErr = s.flowErr := rfl
@[simp] theorem State.draw_wire : s.draw.2.wire = s.wire := rfl
@[simp] theorem State.draw_ringHold : s.draw.2.ringHold = s.ringHold := rfl
@[simp] theorem State.draw_partnerFlows : s.draw.2.partnerFlows = s.partnerFlows := rfl
@[simp] theorem State.draw_conns : s.draw.2.conns = s.conns := rfl
@[simp] theorem State.draw_partnersRefused : s.draw.2.partnersRefused = s.partnersRefused := rfl
@[simp] theorem State.draw_delronNet : s.draw.2.delronNet = s.delronNet := rfl
@[simp] theorem State.draw_outFill : s.draw.2.outFill = s.outFill := rfl
@[simp] theorem State.draw_outWait : s.draw.2.outWait = s.outWait := rfl
@[simp] theorem State.draw_pairEn : s.draw.2.pairEn = s.pairEn := rfl
@[simp] theorem State.draw_fwdSent : s.draw.2.fwdSent = s.fwdSent := rfl
@[simp] theorem State.draw_fwdApplied : s.draw.2.fwdApplied = s.fwdApplied := rfl
@[simp] theorem State.draw_cancelWait : s.draw.2.cancelWait = s.cancelWait := rfl
@[simp] theorem State.draw_anchors : s.draw.2.anchors = s.anchors := rfl
@[simp] theorem State.draw_ancPend : s.draw.2.ancPend = s.ancPend := rfl
@[simp] theorem State.draw_capCnt : s.draw.2.capCnt = s.capCnt := rfl
@[simp] theorem State.draw_capSec : s.draw.2.capSec = s.capSec := rfl
@[simp] theorem State.draw_slotSeen : s.draw.2.slotSeen = s.slotSeen := rfl
@[simp] theorem State.draw_refMeans : s.draw.2.refMeans = s.refMeans := rfl
@[simp] theorem State.draw_refSec : s.draw.2.refSec = s.refSec := rfl
@[simp] theorem State.draw_disPairs : s.draw.2.disPairs = s.disPairs := rfl
@[simp] theorem State.draw_genReq : s.draw.2.genReq = s.genReq := rfl
@[simp] theorem State.draw_timing : s.draw.2.timing = s.timing := rfl
@[simp] theorem State.draw_divNow : s.draw.2.divNow = s.divNow := rfl
@[simp] theorem State.draw_divHold : s.draw.2.divHold = s.divHold := rfl
@[simp] theorem State.draw_earlyDiv : s.draw.2.earlyDiv = s.earlyDiv := rfl
@[simp] theorem State.draw_earlySsc : s.draw.2.earlySsc = s.earlySsc := rfl
@[simp] theorem State.draw_xoFromRun : s.draw.2.xoFromRun = s.xoFromRun := rfl
@[simp] theorem State.draw_modeStep : s.draw.2.modeStep = s.modeStep := rfl
@[simp] theorem State.draw_modeQueued : s.draw.2.modeQueued = s.modeQueued := rfl
@[simp] theorem State.draw_sup : s.draw.2.sup = s.sup := rfl
@[simp] theorem State.draw_wakePend : s.draw.2.wakePend = s.wakePend := rfl
@[simp] theorem State.draw_railsUp : s.draw.2.railsUp = s.railsUp := rfl
@[simp] theorem State.draw_rstOut : s.draw.2.rstOut = s.rstOut := rfl
@[simp] theorem State.draw_holdupDue : s.draw.2.holdupDue = s.holdupDue := rfl
@[simp] theorem State.draw_holdup : s.draw.2.holdup = s.holdup := rfl
@[simp] theorem State.draw_flash : s.draw.2.flash = s.flash := rfl
@[simp] theorem State.draw_flashPart : s.draw.2.flashPart = s.flashPart := rfl
@[simp] theorem State.draw_flCmd : s.draw.2.flCmd = s.flCmd := rfl
@[simp] theorem State.draw_fuseKey : s.draw.2.fuseKey = s.fuseKey := rfl
@[simp] theorem State.draw_fuseLock : s.draw.2.fuseLock = s.fuseLock := rfl
@[simp] theorem State.draw_otpRun : s.draw.2.otpRun = s.otpRun := rfl
@[simp] theorem State.draw_loading : s.draw.2.loading = s.loading := rfl
@[simp] theorem State.draw_resetDue : s.draw.2.resetDue = s.resetDue := rfl
@[simp] theorem State.draw_bootEv : s.draw.2.bootEv = s.bootEv := rfl
@[simp] theorem State.draw_bootOwn : s.draw.2.bootOwn = s.bootOwn := rfl
@[simp] theorem State.draw_railsOff : s.draw.2.railsOff = s.railsOff := rfl
@[simp] theorem State.draw_toOpen : s.draw.2.toOpen = s.toOpen := rfl
@[simp] theorem State.draw_claimCount : s.draw.2.claimCount = s.claimCount := rfl
@[simp] theorem State.draw_linkRun : s.draw.2.linkRun = s.linkRun := rfl
@[simp] theorem State.draw_hbFrame : s.draw.2.hbFrame = s.hbFrame := rfl
@[simp] theorem State.draw_skewGood : s.draw.2.skewGood = s.skewGood := rfl
@[simp] theorem State.draw_skewBad : s.draw.2.skewBad = s.skewBad := rfl
@[simp] theorem State.draw_joinStep : s.draw.2.joinStep = s.joinStep := rfl
@[simp] theorem State.draw_hashes : s.draw.2.hashes = s.hashes := rfl
@[simp] theorem State.draw_digests : s.draw.2.digests = s.digests := rfl
@[simp] theorem State.draw_matched : s.draw.2.matched = s.matched := rfl
@[simp] theorem State.draw_hbSent : s.draw.2.hbSent = s.hbSent := rfl
@[simp] theorem State.draw_epochRun : s.draw.2.epochRun = s.epochRun := rfl
@[simp] theorem State.draw_epochLast : s.draw.2.epochLast = s.epochLast := rfl
@[simp] theorem State.draw_epochReq : s.draw.2.epochReq = s.epochReq := rfl
@[simp] theorem State.draw_finalEpoch : s.draw.2.finalEpoch = s.finalEpoch := rfl
@[simp] theorem State.draw_relDue : s.draw.2.relDue = s.relDue := rfl
@[simp] theorem State.draw_relDone : s.draw.2.relDone = s.relDone := rfl
@[simp] theorem State.draw_epochRx : s.draw.2.epochRx = s.epochRx := rfl
@[simp] theorem State.draw_liveStart : s.draw.2.liveStart = s.liveStart := rfl
@[simp] theorem State.draw_sceneNeed : s.draw.2.sceneNeed = s.sceneNeed := rfl
@[simp] theorem State.draw_ownCur : s.draw.2.ownCur = s.ownCur := rfl
@[simp] theorem State.draw_ownPrev : s.draw.2.ownPrev = s.ownPrev := rfl
@[simp] theorem State.draw_relArmed : s.draw.2.relArmed = s.relArmed := rfl
@[simp] theorem State.draw_syncSent : s.draw.2.syncSent = s.syncSent := rfl
@[simp] theorem State.draw_spiResp : s.draw.2.spiResp = s.spiResp := rfl
@[simp] theorem State.draw_testPort : s.draw.2.testPort = s.testPort := rfl
@[simp] theorem State.draw_pending : s.draw.2.pending = s.pending := rfl
@[simp] theorem State.draw_freeCtr : s.draw.2.freeCtr = s.freeCtr + 1 := rfl

/-! ### Observers -/

@[simp] theorem State.reg_setCourse (n : CourseId) (c : Course) (x : Nat) : (s.setCourse n c).reg x = s.reg x := rfl
@[simp] theorem State.reg_modCourse (n : CourseId) (f : Course → Course) (x : Nat) : (s.modCourse n f).reg x = s.reg x := rfl
@[simp] theorem State.reg_tabSet (a : Nat) (v : Word) (x : Nat) : (s.tabSet a v).reg x = s.reg x := rfl
@[simp] theorem State.reg_shadSet (a : Nat) (v : Word) (x : Nat) : (s.shadSet a v).reg x = s.reg x := rfl
@[simp] theorem State.reg_setLatch (m a : Nat) (v : Word) (x : Nat) : (s.setLatch m a v).reg x = s.reg x := rfl
@[simp] theorem State.reg_returnTo (m : Nat) (v : Word) (x : Nat) : (s.returnTo m v).reg x = s.reg x := rfl
@[simp] theorem State.reg_scratchSet (b w : Nat) (v : Word) (x : Nat) : (s.scratchSet b w v).reg x = s.reg x := rfl
@[simp] theorem State.reg_dramSet (w : Nat) (v : Word) (x : Nat) : (s.dramSet w v).reg x = s.reg x := rfl
@[simp] theorem State.reg_draw (x : Nat) : s.draw.2.reg x = s.reg x := rfl
@[simp] theorem State.rfld_setCourse (n : CourseId) (c : Course) (x lo len : Nat) : (s.setCourse n c).rfld x lo len = s.rfld x lo len := rfl
@[simp] theorem State.rfld_modCourse (n : CourseId) (f : Course → Course) (x lo len : Nat) : (s.modCourse n f).rfld x lo len = s.rfld x lo len := rfl
@[simp] theorem State.rfld_tabSet (a : Nat) (v : Word) (x lo len : Nat) : (s.tabSet a v).rfld x lo len = s.rfld x lo len := rfl
@[simp] theorem State.rfld_shadSet (a : Nat) (v : Word) (x lo len : Nat) : (s.shadSet a v).rfld x lo len = s.rfld x lo len := rfl
@[simp] theorem State.rfld_setLatch (m a : Nat) (v : Word) (x lo len : Nat) : (s.setLatch m a v).rfld x lo len = s.rfld x lo len := rfl
@[simp] theorem State.rfld_returnTo (m : Nat) (v : Word) (x lo len : Nat) : (s.returnTo m v).rfld x lo len = s.rfld x lo len := rfl
@[simp] theorem State.rfld_scratchSet (b w : Nat) (v : Word) (x lo len : Nat) : (s.scratchSet b w v).rfld x lo len = s.rfld x lo len := rfl
@[simp] theorem State.rfld_dramSet (w : Nat) (v : Word) (x lo len : Nat) : (s.dramSet w v).rfld x lo len = s.rfld x lo len := rfl
@[simp] theorem State.rfld_draw (x lo len : Nat) : s.draw.2.rfld x lo len = s.rfld x lo len := rfl
@[simp] theorem State.rbit_setCourse (n : CourseId) (c : Course) (x i : Nat) : (s.setCourse n c).rbit x i = s.rbit x i := rfl
@[simp] theorem State.rbit_modCourse (n : CourseId) (f : Course → Course) (x i : Nat) : (s.modCourse n f).rbit x i = s.rbit x i := rfl
@[simp] theorem State.rbit_tabSet (a : Nat) (v : Word) (x i : Nat) : (s.tabSet a v).rbit x i = s.rbit x i := rfl
@[simp] theorem State.rbit_shadSet (a : Nat) (v : Word) (x i : Nat) : (s.shadSet a v).rbit x i = s.rbit x i := rfl
@[simp] theorem State.rbit_setLatch (m a : Nat) (v : Word) (x i : Nat) : (s.setLatch m a v).rbit x i = s.rbit x i := rfl
@[simp] theorem State.rbit_returnTo (m : Nat) (v : Word) (x i : Nat) : (s.returnTo m v).rbit x i = s.rbit x i := rfl
@[simp] theorem State.rbit_scratchSet (b w : Nat) (v : Word) (x i : Nat) : (s.scratchSet b w v).rbit x i = s.rbit x i := rfl
@[simp] theorem State.rbit_dramSet (w : Nat) (v : Word) (x i : Nat) : (s.dramSet w v).rbit x i = s.rbit x i := rfl
@[simp] theorem State.rbit_draw (x i : Nat) : s.draw.2.rbit x i = s.rbit x i := rfl
@[simp] theorem State.tabGet_setReg (a : Nat) (v : Word) (x : Nat) : (s.setReg a v).tabGet x = s.tabGet x := rfl
@[simp] theorem State.tabGet_setCourse (n : CourseId) (c : Course) (x : Nat) : (s.setCourse n c).tabGet x = s.tabGet x := rfl
@[simp] theorem State.tabGet_modCourse (n : CourseId) (f : Course → Course) (x : Nat) : (s.modCourse n f).tabGet x = s.tabGet x := rfl
@[simp] theorem State.tabGet_shadSet (a : Nat) (v : Word) (x : Nat) : (s.shadSet a v).tabGet x = s.tabGet x := rfl
@[simp] theorem State.tabGet_setLatch (m a : Nat) (v : Word) (x : Nat) : (s.setLatch m a v).tabGet x = s.tabGet x := rfl
@[simp] theorem State.tabGet_returnTo (m : Nat) (v : Word) (x : Nat) : (s.returnTo m v).tabGet x = s.tabGet x := rfl
@[simp] theorem State.tabGet_scratchSet (b w : Nat) (v : Word) (x : Nat) : (s.scratchSet b w v).tabGet x = s.tabGet x := rfl
@[simp] theorem State.tabGet_dramSet (w : Nat) (v : Word) (x : Nat) : (s.dramSet w v).tabGet x = s.tabGet x := rfl
@[simp] theorem State.tabGet_draw (x : Nat) : s.draw.2.tabGet x = s.tabGet x := rfl
@[simp] theorem State.shadGet_setReg (a : Nat) (v : Word) (x : Nat) : (s.setReg a v).shadGet x = s.shadGet x := rfl
@[simp] theorem State.shadGet_setCourse (n : CourseId) (c : Course) (x : Nat) : (s.setCourse n c).shadGet x = s.shadGet x := rfl
@[simp] theorem State.shadGet_modCourse (n : CourseId) (f : Course → Course) (x : Nat) : (s.modCourse n f).shadGet x = s.shadGet x := rfl
@[simp] theorem State.shadGet_tabSet (a : Nat) (v : Word) (x : Nat) : (s.tabSet a v).shadGet x = s.shadGet x := rfl
@[simp] theorem State.shadGet_setLatch (m a : Nat) (v : Word) (x : Nat) : (s.setLatch m a v).shadGet x = s.shadGet x := rfl
@[simp] theorem State.shadGet_returnTo (m : Nat) (v : Word) (x : Nat) : (s.returnTo m v).shadGet x = s.shadGet x := rfl
@[simp] theorem State.shadGet_scratchSet (b w : Nat) (v : Word) (x : Nat) : (s.scratchSet b w v).shadGet x = s.shadGet x := rfl
@[simp] theorem State.shadGet_dramSet (w : Nat) (v : Word) (x : Nat) : (s.dramSet w v).shadGet x = s.shadGet x := rfl
@[simp] theorem State.shadGet_draw (x : Nat) : s.draw.2.shadGet x = s.shadGet x := rfl
@[simp] theorem State.course_setReg (a : Nat) (v : Word) (x : CourseId) : (s.setReg a v).course x = s.course x := rfl
@[simp] theorem State.course_tabSet (a : Nat) (v : Word) (x : CourseId) : (s.tabSet a v).course x = s.course x := rfl
@[simp] theorem State.course_shadSet (a : Nat) (v : Word) (x : CourseId) : (s.shadSet a v).course x = s.course x := rfl
@[simp] theorem State.course_setLatch (m a : Nat) (v : Word) (x : CourseId) : (s.setLatch m a v).course x = s.course x := rfl
@[simp] theorem State.course_returnTo (m : Nat) (v : Word) (x : CourseId) : (s.returnTo m v).course x = s.course x := rfl
@[simp] theorem State.course_scratchSet (b w : Nat) (v : Word) (x : CourseId) : (s.scratchSet b w v).course x = s.course x := rfl
@[simp] theorem State.course_dramSet (w : Nat) (v : Word) (x : CourseId) : (s.dramSet w v).course x = s.course x := rfl
@[simp] theorem State.course_draw (x : CourseId) : s.draw.2.course x = s.course x := rfl
@[simp] theorem State.latched_setReg (a : Nat) (v : Word) (x y : Nat) : (s.setReg a v).latched x y = s.latched x y := rfl
@[simp] theorem State.latched_setCourse (n : CourseId) (c : Course) (x y : Nat) : (s.setCourse n c).latched x y = s.latched x y := rfl
@[simp] theorem State.latched_modCourse (n : CourseId) (f : Course → Course) (x y : Nat) : (s.modCourse n f).latched x y = s.latched x y := rfl
@[simp] theorem State.latched_tabSet (a : Nat) (v : Word) (x y : Nat) : (s.tabSet a v).latched x y = s.latched x y := rfl
@[simp] theorem State.latched_shadSet (a : Nat) (v : Word) (x y : Nat) : (s.shadSet a v).latched x y = s.latched x y := rfl
@[simp] theorem State.latched_returnTo (m : Nat) (v : Word) (x y : Nat) : (s.returnTo m v).latched x y = s.latched x y := rfl
@[simp] theorem State.latched_scratchSet (b w : Nat) (v : Word) (x y : Nat) : (s.scratchSet b w v).latched x y = s.latched x y := rfl
@[simp] theorem State.latched_dramSet (w : Nat) (v : Word) (x y : Nat) : (s.dramSet w v).latched x y = s.latched x y := rfl
@[simp] theorem State.latched_draw (x y : Nat) : s.draw.2.latched x y = s.latched x y := rfl
@[simp] theorem State.scratchGet_setReg (a : Nat) (v : Word) (x y : Nat) : (s.setReg a v).scratchGet x y = s.scratchGet x y := rfl
@[simp] theorem State.scratchGet_setCourse (n : CourseId) (c : Course) (x y : Nat) : (s.setCourse n c).scratchGet x y = s.scratchGet x y := rfl
@[simp] theorem State.scratchGet_modCourse (n : CourseId) (f : Course → Course) (x y : Nat) : (s.modCourse n f).scratchGet x y = s.scratchGet x y := rfl
@[simp] theorem State.scratchGet_tabSet (a : Nat) (v : Word) (x y : Nat) : (s.tabSet a v).scratchGet x y = s.scratchGet x y := rfl
@[simp] theorem State.scratchGet_shadSet (a : Nat) (v : Word) (x y : Nat) : (s.shadSet a v).scratchGet x y = s.scratchGet x y := rfl
@[simp] theorem State.scratchGet_setLatch (m a : Nat) (v : Word) (x y : Nat) : (s.setLatch m a v).scratchGet x y = s.scratchGet x y := rfl
@[simp] theorem State.scratchGet_returnTo (m : Nat) (v : Word) (x y : Nat) : (s.returnTo m v).scratchGet x y = s.scratchGet x y := rfl
@[simp] theorem State.scratchGet_dramSet (w : Nat) (v : Word) (x y : Nat) : (s.dramSet w v).scratchGet x y = s.scratchGet x y := rfl
@[simp] theorem State.scratchGet_draw (x y : Nat) : s.draw.2.scratchGet x y = s.scratchGet x y := rfl
@[simp] theorem State.dramGet_setReg (a : Nat) (v : Word) (x : Nat) : (s.setReg a v).dramGet x = s.dramGet x := rfl
@[simp] theorem State.dramGet_setCourse (n : CourseId) (c : Course) (x : Nat) : (s.setCourse n c).dramGet x = s.dramGet x := rfl
@[simp] theorem State.dramGet_modCourse (n : CourseId) (f : Course → Course) (x : Nat) : (s.modCourse n f).dramGet x = s.dramGet x := rfl
@[simp] theorem State.dramGet_tabSet (a : Nat) (v : Word) (x : Nat) : (s.tabSet a v).dramGet x = s.dramGet x := rfl
@[simp] theorem State.dramGet_shadSet (a : Nat) (v : Word) (x : Nat) : (s.shadSet a v).dramGet x = s.dramGet x := rfl
@[simp] theorem State.dramGet_setLatch (m a : Nat) (v : Word) (x : Nat) : (s.setLatch m a v).dramGet x = s.dramGet x := rfl
@[simp] theorem State.dramGet_returnTo (m : Nat) (v : Word) (x : Nat) : (s.returnTo m v).dramGet x = s.dramGet x := rfl
@[simp] theorem State.dramGet_scratchSet (b w : Nat) (v : Word) (x : Nat) : (s.scratchSet b w v).dramGet x = s.dramGet x := rfl
@[simp] theorem State.dramGet_draw (x : Nat) : s.draw.2.dramGet x = s.dramGet x := rfl
@[simp] theorem State.now_setReg (a : Nat) (v : Word)  : (s.setReg a v).now = s.now := rfl
@[simp] theorem State.now_setCourse (n : CourseId) (c : Course)  : (s.setCourse n c).now = s.now := rfl
@[simp] theorem State.now_modCourse (n : CourseId) (f : Course → Course)  : (s.modCourse n f).now = s.now := rfl
@[simp] theorem State.now_tabSet (a : Nat) (v : Word)  : (s.tabSet a v).now = s.now := rfl
@[simp] theorem State.now_shadSet (a : Nat) (v : Word)  : (s.shadSet a v).now = s.now := rfl
@[simp] theorem State.now_setLatch (m a : Nat) (v : Word)  : (s.setLatch m a v).now = s.now := rfl
@[simp] theorem State.now_returnTo (m : Nat) (v : Word)  : (s.returnTo m v).now = s.now := rfl
@[simp] theorem State.now_scratchSet (b w : Nat) (v : Word)  : (s.scratchSet b w v).now = s.now := rfl
@[simp] theorem State.now_dramSet (w : Nat) (v : Word)  : (s.dramSet w v).now = s.now := rfl
@[simp] theorem State.now_draw  : s.draw.2.now = s.now := rfl
@[simp] theorem State.faultLatched_setCourse (n : CourseId) (c : Course) (x : Nat) : (s.setCourse n c).faultLatched x = s.faultLatched x := rfl
@[simp] theorem State.faultLatched_modCourse (n : CourseId) (f : Course → Course) (x : Nat) : (s.modCourse n f).faultLatched x = s.faultLatched x := rfl
@[simp] theorem State.faultLatched_tabSet (a : Nat) (v : Word) (x : Nat) : (s.tabSet a v).faultLatched x = s.faultLatched x := rfl
@[simp] theorem State.faultLatched_shadSet (a : Nat) (v : Word) (x : Nat) : (s.shadSet a v).faultLatched x = s.faultLatched x := rfl
@[simp] theorem State.faultLatched_setLatch (m a : Nat) (v : Word) (x : Nat) : (s.setLatch m a v).faultLatched x = s.faultLatched x := rfl
@[simp] theorem State.faultLatched_returnTo (m : Nat) (v : Word) (x : Nat) : (s.returnTo m v).faultLatched x = s.faultLatched x := rfl
@[simp] theorem State.faultLatched_scratchSet (b w : Nat) (v : Word) (x : Nat) : (s.scratchSet b w v).faultLatched x = s.faultLatched x := rfl
@[simp] theorem State.faultLatched_dramSet (w : Nat) (v : Word) (x : Nat) : (s.dramSet w v).faultLatched x = s.faultLatched x := rfl
@[simp] theorem State.faultLatched_draw (x : Nat) : s.draw.2.faultLatched x = s.faultLatched x := rfl
@[simp] theorem State.courseClock_setCourse (n : CourseId) (c : Course)  : (s.setCourse n c).courseClock = s.courseClock := rfl
@[simp] theorem State.courseClock_modCourse (n : CourseId) (f : Course → Course)  : (s.modCourse n f).courseClock = s.courseClock := rfl
@[simp] theorem State.courseClock_tabSet (a : Nat) (v : Word)  : (s.tabSet a v).courseClock = s.courseClock := rfl
@[simp] theorem State.courseClock_shadSet (a : Nat) (v : Word)  : (s.shadSet a v).courseClock = s.courseClock := rfl
@[simp] theorem State.courseClock_setLatch (m a : Nat) (v : Word)  : (s.setLatch m a v).courseClock = s.courseClock := rfl
@[simp] theorem State.courseClock_returnTo (m : Nat) (v : Word)  : (s.returnTo m v).courseClock = s.courseClock := rfl
@[simp] theorem State.courseClock_scratchSet (b w : Nat) (v : Word)  : (s.scratchSet b w v).courseClock = s.courseClock := rfl
@[simp] theorem State.courseClock_dramSet (w : Nat) (v : Word)  : (s.dramSet w v).courseClock = s.courseClock := rfl
@[simp] theorem State.courseClock_draw  : s.draw.2.courseClock = s.courseClock := rfl
@[simp] theorem State.dramOn_setCourse (n : CourseId) (c : Course)  : (s.setCourse n c).dramOn = s.dramOn := rfl
@[simp] theorem State.dramOn_modCourse (n : CourseId) (f : Course → Course)  : (s.modCourse n f).dramOn = s.dramOn := rfl
@[simp] theorem State.dramOn_tabSet (a : Nat) (v : Word)  : (s.tabSet a v).dramOn = s.dramOn := rfl
@[simp] theorem State.dramOn_shadSet (a : Nat) (v : Word)  : (s.shadSet a v).dramOn = s.dramOn := rfl
@[simp] theorem State.dramOn_setLatch (m a : Nat) (v : Word)  : (s.setLatch m a v).dramOn = s.dramOn := rfl
@[simp] theorem State.dramOn_returnTo (m : Nat) (v : Word)  : (s.returnTo m v).dramOn = s.dramOn := rfl
@[simp] theorem State.dramOn_scratchSet (b w : Nat) (v : Word)  : (s.scratchSet b w v).dramOn = s.dramOn := rfl
@[simp] theorem State.dramOn_dramSet (w : Nat) (v : Word)  : (s.dramSet w v).dramOn = s.dramOn := rfl
@[simp] theorem State.dramOn_draw  : s.draw.2.dramOn = s.dramOn := rfl
@[simp] theorem State.asleep_setCourse (n : CourseId) (c : Course)  : (s.setCourse n c).asleep = s.asleep := rfl
@[simp] theorem State.asleep_modCourse (n : CourseId) (f : Course → Course)  : (s.modCourse n f).asleep = s.asleep := rfl
@[simp] theorem State.asleep_tabSet (a : Nat) (v : Word)  : (s.tabSet a v).asleep = s.asleep := rfl
@[simp] theorem State.asleep_shadSet (a : Nat) (v : Word)  : (s.shadSet a v).asleep = s.asleep := rfl
@[simp] theorem State.asleep_setLatch (m a : Nat) (v : Word)  : (s.setLatch m a v).asleep = s.asleep := rfl
@[simp] theorem State.asleep_returnTo (m : Nat) (v : Word)  : (s.returnTo m v).asleep = s.asleep := rfl
@[simp] theorem State.asleep_scratchSet (b w : Nat) (v : Word)  : (s.scratchSet b w v).asleep = s.asleep := rfl
@[simp] theorem State.asleep_dramSet (w : Nat) (v : Word)  : (s.dramSet w v).asleep = s.asleep := rfl
@[simp] theorem State.asleep_draw  : s.draw.2.asleep = s.asleep := rfl

/-! ### Read after write -/

@[simp] theorem State.reg_setReg_self (a : Nat) (v : Word) : (s.setReg a v).reg a = v := mapGet_set_self _ _ _ _

theorem State.reg_setReg_ne {a b : Nat} (v : Word) (h : b ≠ a) : (s.setReg a v).reg b = s.reg b := mapGet_set_ne _ _ _ h

theorem State.reg_setReg (a b : Nat) (v : Word) : (s.setReg a v).reg b = if b = a then v else s.reg b := mapGet_set _ _ _ _ _

@[simp] theorem State.tabGet_tabSet_self (a : Nat) (v : Word) : (s.tabSet a v).tabGet a = v := mapGet_set_self _ _ _ _

theorem State.tabGet_tabSet_ne {a b : Nat} (v : Word) (h : b ≠ a) : (s.tabSet a v).tabGet b = s.tabGet b := mapGet_set_ne _ _ _ h

@[simp] theorem State.shadGet_shadSet_self (a : Nat) (v : Word) : (s.shadSet a v).shadGet a = v := mapGet_set_self _ _ _ _

theorem State.shadGet_shadSet_ne {a b : Nat} (v : Word) (h : b ≠ a) : (s.shadSet a v).shadGet b = s.shadGet b := mapGet_set_ne _ _ _ h

@[simp] theorem State.latched_setLatch_self (m a : Nat) (v : Word) : (s.setLatch m a v).latched m a = v := mapGet_set_self _ _ _ _

@[simp] theorem State.rdata_returnTo_self (m : Nat) (v : Word) : wmGet (s.returnTo m v).rdata m = v := mapGet_set_self _ _ _ _

theorem State.rdata_returnTo_ne {m k : Nat} (v : Word) (h : k ≠ m) : wmGet (s.returnTo m v).rdata k = wmGet s.rdata k := mapGet_set_ne _ _ _ h

@[simp] theorem State.scratchGet_set_self (b w : Nat) (v : Word) : (s.scratchSet b w v).scratchGet b w = v := memWord_set_self _ _ _

@[simp] theorem State.dramGet_set_self (w : Nat) (v : Word) : (s.dramSet w v).dramGet w = v := memWord_set_self _ _ _

theorem State.dramGet_set_ne {w u : Nat} (v : Word) (h : u ≠ w) : (s.dramSet w v).dramGet u = s.dramGet u := memWord_set_ne _ _ h

@[simp] theorem State.course_setCourse_self (n : CourseId) (c : Course) : (s.setCourse n c).course n = c := by
  show (s.courses.set n.val c n.isLt)[n.val] = c
  simp

theorem State.course_setCourse_ne {n m : CourseId} (c : Course) (h : m ≠ n) : (s.setCourse n c).course m = s.course m := by
  have h' : n.val ≠ m.val := fun e => h (Fin.ext e.symm)
  show (s.courses.set n.val c n.isLt)[m.val] = s.courses[m.val]
  simp [h']

@[simp] theorem State.course_modCourse_self (n : CourseId) (f : Course → Course) : (s.modCourse n f).course n = f (s.course n) :=
  State.course_setCourse_self s n _

theorem State.course_modCourse_ne {n m : CourseId} (f : Course → Course) (h : m ≠ n) : (s.modCourse n f).course m = s.course m :=
  State.course_setCourse_ne s _ h

@[simp] theorem State.setCourse_setCourse (n : CourseId) (c e : Course) : (s.setCourse n c).setCourse n e = s.setCourse n e := by
  simp [State.setCourse]

/-- Two changes of one Course are one. -/
@[simp] theorem State.modCourse_modCourse (n : CourseId) (f g : Course → Course) :
    (s.modCourse n f).modCourse n g = s.modCourse n fun c => g (f c) := by
  simp [State.modCourse]

/-- A change that leaves the Course as it is changes nothing. -/
theorem State.modCourse_id (n : CourseId) (f : Course → Course) (h : f (s.course n) = s.course n) : s.modCourse n f = s := by
  unfold State.modCourse State.setCourse
  rw [h]
  simp [State.course, Vector.get]

@[simp] theorem Course.ctx_setCtx_self (c : Course) (x : CtxId) (v : Ctx) : (c.setCtx x v).ctx x = v := by cases x <;> rfl

@[simp] theorem Course.setCtx_setCtx (c : Course) (x : CtxId) (v w : Ctx) : (c.setCtx x v).setCtx x w = c.setCtx x w := by cases x <;> rfl

@[simp] theorem Course.setCtx_ctx (c : Course) (x : CtxId) : c.setCtx x (c.ctx x) = c := by cases x <;> rfl

/-! ### The register operations in terms of `setReg` -/

theorem State.count_eq (a n : Nat) : s.count a n = s.setReg a (satAdd (s.reg a) 0 32 n) := rfl
theorem State.setRbit_eq (a i : Nat) : s.setRbit a i = s.setReg a (s.reg a ||| oneHot i) := rfl
theorem State.putRbit_eq (a i : Nat) (b : Bool) : s.putRbit a i b = s.setReg a (setBit (s.reg a) i b) := rfl
theorem State.setRfld_eq (a lo len v : Nat) : s.setRfld a lo len v = s.setReg a (setFld (s.reg a) lo len v) := rfl

end Sys2Proof.Machine
end

