-- ==== Sys2Proof/Laws/Syllable.lean ====
section
/-! SUPPORT. What a syllable that issues alone does, said once for every operation that reaches neither memory nor a coprocessor. -/

namespace Sys2Proof.Machine

/-- Without an armed injection a read has no effect on the state (R370). -/
theorem State.memRead_unarmed (s : State) (k u : Nat) (h : Unarmed s) : s.memRead k u = s := by
  unfold Unarmed State.rbit at h
  simp [State.memRead, h]

theorem State.memReads_unarmed (s : State) (k : Nat) (us : List Nat) (h : Unarmed s) : s.memReads k us = s := by
  unfold State.memReads
  induction us with
  | nil => rfl
  | cons u us ih => simp [List.foldl, State.memRead_unarmed s k u h, ih]

theorem State.memTouch_unarmed (s : State) (k : Nat) (p : Nat → Bool) (h : Unarmed s) : s.memTouch k p = s := by
  unfold Unarmed at h
  simp [State.memTouch, h]

theorem State.dramTouch_unarmed (s : State) (w n : Nat) (h : Unarmed s) : s.dramTouch w n = s := State.memTouch_unarmed s _ _ h

theorem State.memMay_unarmed (s : State) (k : Nat) (p : Nat → Bool) (h : Unarmed s) : s.memMay k p = s := by
  unfold Unarmed at h
  simp [State.memMay, h]

theorem State.dmaTouch_unarmed (s : State) (a n : Nat) (h : Unarmed s) : s.dmaTouch a n = s := by
  unfold State.dmaTouch
  split
  · exact State.memTouch_unarmed s _ _ h
  · exact State.dramTouch_unarmed s _ _ h

/-- A syllable that does not complete its bundle only joins it (R79). -/
theorem State.syllable_join (s : State) (h : SylHdr) (u : SylUnit) (bad : Bool) (op : Instr)
    (hm : (s.course h.n).mayIssue h.x = true) (hc : s.courseClock = true) (hs : h.stop = false)
    (hl : ((s.course h.n).ctx h.x).bundle.length < 7) :
    s.syllable h u bad op = s.modCourse h.n fun k => k.setCtx h.x
      { k.ctx h.x with bundle := ((s.course h.n).ctx h.x).bundle ++ [{ op := op, unit := u, bad := bad, rsv := h.rsv }] } := by
  simp [State.syllable, hm, hc, hs]
  omega

/-- A context that may not issue, or a Course without a clock, takes no syllable. -/
theorem State.syllable_ignored (s : State) (h : SylHdr) (u : SylUnit) (bad : Bool) (op : Instr)
    (hm : ((s.course h.n).mayIssue h.x && s.courseClock) = false) : s.syllable h u bad op = s := by
  simp [State.syllable, hm]

/-- The place that one syllable takes in an empty bundle. -/
theorem placed_one (x : CtxId) (y : Syl) (hu : y.undefinedIn x = false) : placed x Places.all [y] = [(y, true)] := by
  rcases y with ⟨op, unit, bad, rsv⟩
  cases unit <;> simp_all [placed, Places.take, Places.all]

theorem bundleOps_one (x : CtxId) (y : Syl) (hu : y.undefinedIn x = false) : bundleOps x [y] = [y.op] := by
  simp [bundleOps, placed_one x y hu]

theorem bundleIllegal_one (x : CtxId) (y : Syl) (hu : y.undefinedIn x = false) (hr : y.rsv = false) : bundleIllegal x false [y] = false := by
  simp [bundleIllegal, placed_one x y hu, hr]

/-- The context after the bundle of the one operation `op`. -/
def Ctx.afterOp (c : Ctx) (op : Instr) (fl : List Flight) : Ctx :=
  let a := (afterBundle c [op] 1 false).1
  { ({ c with bundle := [], flight := c.flight ++ fl } : Ctx).advance with pc := a.pc, slot := a.slot, rep := a.rep, ended := a.ended, stall := none }

/-- The effects of a syllable do not depend on the bundle in assembly, on the stall, or on a Course beyond its program memory. -/
theorem sylEffects_congr (c : Ctx) (b : List Syl) (st : Option Stall) (cr cr' : Course) (hp : cr.pmem = cr'.pmem) (am : Word)
    (seq : BitVec 14) (op : Instr) : sylEffects { c with bundle := b, stall := st } cr am seq op = sylEffects c cr' am seq op := by
  cases op
  case jal h dd t => simp only [sylEffects, effJal, bundleLen, hp]; rfl
  all_goals rfl

theorem afterBundle_congr (c : Ctx) (b : List Syl) (st : Option Stall) (op : Instr) :
    (afterBundle { c with bundle := b, stall := st } [op] 1 false).2 = (afterBundle c [op] 1 false).2 ∧
    (afterBundle { c with bundle := b, stall := st } [op] 1 false).1.pc = (afterBundle c [op] 1 false).1.pc ∧
    (afterBundle { c with bundle := b, stall := st } [op] 1 false).1.slot = (afterBundle c [op] 1 false).1.slot ∧
    (afterBundle { c with bundle := b, stall := st } [op] 1 false).1.rep = (afterBundle c [op] 1 false).1.rep ∧
    (afterBundle { c with bundle := b, stall := st } [op] 1 false).1.ended = (afterBundle c [op] 1 false).1.ended := by
  cases op <;> exact ⟨rfl, rfl, rfl, rfl, rfl⟩

theorem Ctx.repeating_congr (c : Ctx) (b : List Syl) (st : Option Stall) : Ctx.repeating { c with bundle := b, stall := st } = c.repeating := rfl

/-- Results do not depend on the bundle in assembly or on the stall. -/
theorem Ctx.put_congr (c : Ctx) (b : List Syl) (st : Option Stall) (r : CReg) (m v : Word) :
    Ctx.put { c with bundle := b, stall := st } r m v = { c.put r m v with bundle := b, stall := st } := by
  cases r <;> rfl

theorem Ctx.apply_congr (c : Ctx) (b : List Syl) (st : Option Stall) (w : RWrite) :
    Ctx.apply { c with bundle := b, stall := st } w = { c.apply w with bundle := b, stall := st } := by
  cases w with
  | reg r m v => exact Ctx.put_congr c b st r m v
  | _ => rfl

theorem Ctx.applyAll_congr (fs : List Flight) (c : Ctx) (b : List Syl) (st : Option Stall) :
    fs.foldl (fun c f => c.apply f.w) { c with bundle := b, stall := st } =
      { fs.foldl (fun c f => c.apply f.w) c with bundle := b, stall := st } := by
  induction fs generalizing c with
  | nil => rfl
  | cons f fs ih => simp only [List.foldl_cons]; rw [Ctx.apply_congr, ih]

theorem Ctx.advance_congr (c : Ctx) (b : List Syl) (st : Option Stall) :
    Ctx.advance { c with bundle := b, stall := st } = { c.advance with bundle := b, stall := st } := by
  unfold Ctx.advance
  simp only [Ctx.applyAll_congr]

/-- No preemption is due, or the Course is not in the background: nothing takes place (R71). -/
theorem State.settle_id (s : State) (n : CourseId) (h : (s.course n).preemptDue = false ∨ (s.course n).phase ≠ .back) : s.settle n = s := by
  unfold State.settle
  rcases h with h | h <;> simp [h]

/-- A context that may issue, and to which no REP applies, lets no preemption take place (R71, R100). -/
theorem Course.mayIssue_settled (k : Course) (x : CtxId) (hm : k.mayIssue x = true) (hr : (k.ctx x).rep = none) :
    k.preemptDue = false ∨ k.phase ≠ .back := by
  cases x <;> simp_all [Course.mayIssue, Course.ctx]

@[simp] theorem Course.setCtx_phase (k : Course) (x : CtxId) (c : Ctx) : (k.setCtx x c).phase = k.phase := by cases x <;> rfl
@[simp] theorem Course.setCtx_preemptDue (k : Course) (x : CtxId) (c : Ctx) : (k.setCtx x c).preemptDue = k.preemptDue := by cases x <;> rfl

/-- The control-sequence event reaches no Course (R96). -/
@[simp] theorem State.ctlSequence_courses (s : State) (n : CourseId) (x : CtxId) (pc : BitVec 14) : (s.ctlSequence n x pc).courses = s.courses := by
  have hb : ∀ (t : State) (e : Nat), (t.bumpSeq e).courses = t.courses := fun t e => by unfold State.bumpSeq; split <;> rfl
  unfold State.ctlSequence
  generalize BitVec.ofNat 32 _ = pl
  unfold State.raiseEvent State.queueToken
  dsimp only
  split
  · split
    · exact hb _ _
    · exact hb _ _
  · rfl

/-- An operation that reaches neither memory nor a coprocessor and uses no address channel issues alone. -/
theorem State.syllable_solo (s : State) (h : SylHdr) (u : SylUnit) (op : Instr) (hs : Solo s h)
    (hu : (Syl.undefinedIn { op := op, unit := u, bad := false, rsv := false } h.x) = false)
    (hr : ∀ c am, sylRead c am op = none) (hw : ∀ c am, sylStore c am op = none)
    (hx : ∀ (t : State) n x c, t.extension n x c op = none) (hm : ∀ t : State, t.modeError h.n h.x [op] = t) :
    s.syllable h u false op =
      let c := (s.course h.n).ctx h.x
      let t := s.modCourse h.n fun k => k.setCtx h.x
        ((k.ctx h.x).afterOp op (flights (sylEffects c (s.course h.n) (s.amode h.n h.x) (c.pc + 1#14) op)))
      if (afterBundle c [op] 1 false).2 then t.ctlSequence h.n h.x c.pc else t := by
  obtain ⟨h1, h2, h3, h4, h5, h6, h7⟩ := hs
  have hy : Syl.undefinedIn { op := op, unit := u, bad := false, rsv := h.rsv } h.x = false := by rw [h2]; exact hu
  have hops : bundleOps h.x [{ op := op, unit := u, bad := false, rsv := h.rsv }] = [op] := bundleOps_one _ _ hy
  have hill : bundleIllegal h.x false [{ op := op, unit := u, bad := false, rsv := h.rsv }] = false := bundleIllegal_one _ _ hy h2
  have hun : ∀ f, Unarmed (s.modCourse h.n f) := fun f => h7
  obtain ⟨a1, a2, a3, a4, a5⟩ := afterBundle_congr ((s.course h.n).ctx h.x) []
    (some { syls := [{ op := op, unit := u, bad := false, rsv := h.rsv }], noStop := false, first := true, reps := 0, reads := some [] }) op
  simp only [State.syllable, h3, h4, h1, h5, List.nil_append, Bool.true_or, Bool.and_self, if_true, Bool.not_true]
  simp only [State.issueBundle, State.course_modCourse_self, Course.ctx_setCtx_self, h6]
  simp only [State.issueStall, State.course_modCourse_self, Course.ctx_setCtx_self, hops, State.memReads_unarmed _ _ _ (hun _), hm,
    State.issueReads, hr, State.modCourse_modCourse, Course.setCtx_setCtx]
  simp only [State.resumeStall, State.course_modCourse_self, Course.ctx_setCtx_self, State.runStall, State.bundleReady, State.postedOf,
    hops, List.filterMap_cons, hw, List.filterMap_nil, List.all_nil, List.isEmpty_nil, Bool.true_or, Bool.and_self, if_true]
  simp only [State.completeIssue, State.finishBundle, State.course_modCourse_self, Course.ctx_setCtx_self, hops, hill, State.runExtension,
    List.findSome?_cons, List.findSome?_nil, hx, State.runStores, hw, bundleEffects, Option.getD_some, List.append_nil, hr,
    State.modCourse_modCourse, Course.setCtx_setCtx, List.length_singleton]
  have hrep := Ctx.repeating_congr ((s.course h.n).ctx h.x) []
    (some { syls := [{ op := op, unit := u, bad := false, rsv := h.rsv }], noStop := false, first := true, reps := 0, reads := some [] })
  have hrep' : ((s.course h.n).ctx h.x).repeating = false := by simp [Ctx.repeating, h6]
  simp only [hrep, hrep', a1, a2, a3, a4, a5]
  rw [sylEffects_congr (cr' := s.course h.n) (hp := by cases h.x <;> rfl)]
  have adv : ∀ (fl : List Flight) (st : Option Stall), (Ctx.advance { (s.course h.n).ctx h.x with bundle := [], stall := st, flight := fl }) =
      { Ctx.advance { (s.course h.n).ctx h.x with flight := fl } with bundle := [], stall := st } := fun fl st =>
    Ctx.advance_congr { (s.course h.n).ctx h.x with flight := fl } [] st
  simp only [Bool.false_and, Bool.false_eq_true, if_false, List.append_nil, State.modCourse_modCourse, Course.ctx_setCtx_self, Course.setCtx_setCtx]
  have key : ∀ fl : List Flight,
      (s.modCourse h.n fun k => k.setCtx h.x
        { Ctx.advance { (s.course h.n).ctx h.x with bundle := [], stall := some { syls := [{ op := op, unit := u, bad := false, rsv := h.rsv }], noStop := false, first := true, reps := 0, reads := some [] }, flight := fl } with
          pc := (afterBundle ((s.course h.n).ctx h.x) [op] 1 false).1.pc
          slot := (afterBundle ((s.course h.n).ctx h.x) [op] 1 false).1.slot
          rep := (afterBundle ((s.course h.n).ctx h.x) [op] 1 false).1.rep
          ended := (afterBundle ((s.course h.n).ctx h.x) [op] 1 false).1.ended
          stall := none }) =
      s.modCourse h.n fun k => k.setCtx h.x
        { Ctx.advance { k.ctx h.x with bundle := [], flight := fl } with
          pc := (afterBundle (k.ctx h.x) [op] 1 false).1.pc
          slot := (afterBundle (k.ctx h.x) [op] 1 false).1.slot
          rep := (afterBundle (k.ctx h.x) [op] 1 false).1.rep
          ended := (afterBundle (k.ctx h.x) [op] 1 false).1.ended
          stall := none } := by
    intro fl
    unfold State.modCourse
    have a := adv fl (some { syls := [{ op := op, unit := u, bad := false, rsv := h.rsv }], noStop := false, first := true, reps := 0, reads := some [] })
    have b := adv fl ((s.course h.n).ctx h.x).stall
    dsimp only at a b ⊢
    rw [a, b]
  rw [key]
  have hset := Course.mayIssue_settled _ _ h4 h6
  rw [State.settle_id]
  · rfl
  · have hk : ∀ (t u : State), t.courses = u.courses → (t.course h.n) = u.course h.n := fun t u e => by simp only [State.course, e]
    split
    · rw [hk _ _ (State.ctlSequence_courses _ _ _ _), State.course_modCourse_self, Course.setCtx_phase, Course.setCtx_preemptDue]; exact hset
    · rw [State.course_modCourse_self, Course.setCtx_phase, Course.setCtx_preemptDue]; exact hset

/-- The same for an operation that transfers no control, ends no work and gives no repeat count: its results start their flight and the next bundle follows (R66, R79). -/
theorem State.syllable_data (s : State) (h : SylHdr) (u : SylUnit) (op : Instr) (hs : Solo s h)
    (hu : (Syl.undefinedIn { op := op, unit := u, bad := false, rsv := false } h.x) = false)
    (hr : ∀ c am, sylRead c am op = none) (hw : ∀ c am, sylStore c am op = none)
    (hx : ∀ (t : State) n x c, t.extension n x c op = none) (hm : ∀ t : State, t.modeError h.n h.x [op] = t)
    (ht : ∀ c, transfer c op = none) (hp : ∀ c, repCount c op = none) (he : endsWork op = false) :
    s.syllable h u false op = s.issued h
      (flights (sylEffects ((s.course h.n).ctx h.x) (s.course h.n) (s.amode h.n h.x) (((s.course h.n).ctx h.x).pc + 1#14) op)) := by
  rw [State.syllable_solo s h u op hs hu hr hw hx hm]
  have hb : ∀ c : Ctx, afterBundle c [op] 1 false = ({ c with pc := c.slot.getD (c.pc + 1#14), slot := none, rep := none, ended := false }, false) := by
    intro c
    cases hsl : c.slot <;> simp [afterBundle, transferAny, ht, hp, he, hsl]
  simp only [hb, Bool.false_eq_true, if_false]
  unfold State.issued State.modCourse
  simp only [Ctx.issued, Ctx.issuedAs, Ctx.afterOp, hb, Bool.false_eq_true, if_false]

end Sys2Proof.Machine
end

