-- ==== Sys2Proof/Laws/Event.lean ====
section
/-! SUPPORT. Everything that an occurrence of an event source and a raising of a fault source can do. -/

namespace Sys2Proof.Machine

/-! ## Bits of a word -/

theorem bit_oneHot (i j : Nat) (h : j < 32) : bit (oneHot i) j = decide (j = i) := by
  simp only [bit, oneHot, BitVec.getLsbD_ofNat, h, decide_true, Bool.true_and, Nat.testBit_two_pow, decide_eq_decide]
  exact eq_comm

theorem bit_or (v w : Word) (j : Nat) : bit (v ||| w) j = (bit v j || bit w j) := by simp [bit]

theorem bit_and (v w : Word) (j : Nat) : bit (v &&& w) j = (bit v j && bit w j) := by simp [bit]

theorem bit_not (v : Word) (j : Nat) (h : j < 32) : bit (~~~v) j = !bit v j := by
  simp only [bit, BitVec.getLsbD_not, h, decide_true, Bool.true_and]

theorem bit_ofNat (n j : Nat) (h : j < 32) : bit (BitVec.ofNat 32 n) j = n.testBit j := by
  simp only [bit, BitVec.getLsbD_ofNat, h, decide_true, Bool.true_and]

variable (s : State)

/-- A bit that hardware sets reads 1, and the other bits of the register keep their value. -/
theorem State.rbit_setRbit (a i b j : Nat) (h : j < 32) :
    (s.setRbit a i).rbit b j = (s.rbit b j || (decide (b = a) && decide (j = i))) := by
  unfold State.rbit State.setRbit
  rw [State.reg_setReg]
  by_cases hb : b = a
  · subst hb; simp [bit_or, bit_oneHot _ _ h]
  · simp [hb]

theorem State.reg_count (a n b : Nat) : (s.count a n).reg b = if b = a then satAdd (s.reg a) 0 32 n else s.reg b := by
  rw [State.count_eq, State.reg_setReg]

theorem State.reg_setRbit (a i b : Nat) : (s.setRbit a i).reg b = if b = a then s.reg a ||| oneHot i else s.reg b := by
  rw [State.setRbit_eq, State.reg_setReg]

/-! ## Events (R192, R193, R197) -/

/-- The sequence step changes only the sequence counters. -/
theorem State.bumpSeq_frame (e : Nat) : s.bumpSeq e = { s with seq := (s.bumpSeq e).seq } := by
  unfold State.bumpSeq
  split <;> rfl

/-- Queueing a token changes the queue and the counters, and of the registers only the count of lost tokens and its status bit. -/
theorem State.queueToken_frame (e : Nat) (pl : Word) :
    s.queueToken e pl = { s with regs := (s.queueToken e pl).regs, tokens := (s.queueToken e pl).tokens, seq := (s.queueToken e pl).seq } := by
  unfold State.queueToken State.bumpSeq
  dsimp only
  repeat' split
  all_goals rfl

theorem State.bumpSeq_reg (e a : Nat) : (s.bumpSeq e).reg a = s.reg a := by
  rw [State.bumpSeq_frame]; rfl

theorem State.queueToken_reg (e : Nat) (pl : Word) (a : Nat) (h1 : a ≠ regEVT_LOST_CNT) (h2 : a ≠ regEVT_STATUS) :
    (s.queueToken e pl).reg a = s.reg a := by
  unfold State.queueToken
  dsimp only
  split
  · split
    · rw [State.reg_setRbit, if_neg h2, State.reg_count, if_neg h1, State.bumpSeq_reg]
    · exact s.bumpSeq_reg e a
  · rfl

/-- An occurrence changes registers, the token queue and the sequence counters alone. -/
theorem State.raiseEvent_frame (e : Nat) (pl : Word) :
    s.raiseEvent e pl = { s with regs := (s.raiseEvent e pl).regs, tokens := (s.raiseEvent e pl).tokens, seq := (s.raiseEvent e pl).seq } := by
  unfold State.raiseEvent
  rw [State.queueToken_frame]
  rfl

/-- The registers that an occurrence may change: its pending bit, its payload, and the record of a lost token. -/
theorem State.raiseEvent_reg (e : Nat) (pl : Word) (a : Nat) (h1 : a ≠ regEVT_PEND (e / 32)) (h2 : a ≠ regEVT_PAYLOAD e)
    (h3 : a ≠ regEVT_LOST_CNT) (h4 : a ≠ regEVT_STATUS) : (s.raiseEvent e pl).reg a = s.reg a := by
  unfold State.raiseEvent
  rw [State.queueToken_reg _ _ _ _ h3 h4, State.reg_setReg, if_neg h2, State.reg_setRbit, if_neg h1]

theorem State.raiseEvent_payload (e : Nat) (pl : Word) (h : e < 128) : (s.raiseEvent e pl).reg (regEVT_PAYLOAD e) = pl := by
  unfold State.raiseEvent
  rw [State.queueToken_reg, State.reg_setReg_self]
  · simp only [regEVT_PAYLOAD, regEVT_LOST_CNT]; omega
  · simp only [regEVT_PAYLOAD, regEVT_STATUS]; omega

/-- The pending bits after an occurrence. -/
theorem State.raiseEvent_pend (e f : Nat) (pl : Word) (h : e < 128) (hf : f < 128) :
    (s.raiseEvent e pl).rbit (regEVT_PEND (f / 32)) (f % 32) = (s.rbit (regEVT_PEND (f / 32)) (f % 32) || decide (f = e)) := by
  unfold State.raiseEvent State.rbit
  rw [State.queueToken_reg, State.reg_setReg_ne, State.reg_setRbit]
  · by_cases he : f / 32 = e / 32
    · rw [if_pos (by rw [he]), bit_or, bit_oneHot _ _ (Nat.mod_lt _ (by decide)), he]
      congr 1
      simp only [decide_eq_decide]; omega
    · rw [if_neg (by simp only [regEVT_PEND]; omega)]
      have : ¬ f = e := fun h => he (by rw [h])
      simp [this]
  · simp only [regEVT_PEND, regEVT_PAYLOAD]; omega
  · simp only [regEVT_PEND, regEVT_LOST_CNT]; omega
  · simp only [regEVT_PEND, regEVT_STATUS]; omega

/-- Without TEN no token is queued. -/
theorem State.raiseEvent_noToken (e : Nat) (pl : Word) (he : e < 128) (h : bit (s.reg (regEVT_ROUTE e)) 31 = false) :
    s.raiseEvent e pl = (s.setRbit (regEVT_PEND (e / 32)) (e % 32)).setReg (regEVT_PAYLOAD e) pl := by
  have hr : (((s.setRbit (regEVT_PEND (e / 32)) (e % 32)).setReg (regEVT_PAYLOAD e) pl).reg (regEVT_ROUTE e)) = s.reg (regEVT_ROUTE e) := by
    rw [State.reg_setReg_ne, State.reg_setRbit, if_neg]
    · simp only [regEVT_PEND, regEVT_ROUTE]; omega
    · simp only [regEVT_PAYLOAD, regEVT_ROUTE]; omega
  unfold State.raiseEvent State.queueToken
  rw [hr]
  simp [h]

/-! ## Faults (R361, R363, R366) -/

/-- The fields that fault handling may change; the queue, the tables, the memories and the Courses are not among them. -/
def State.faultShape (s t : State) : Prop :=
  t = { s with regs := t.regs, tokens := t.tokens, seq := t.seq, reactMute := t.reactMute, releaseReq := t.releaseReq, freeCtr := t.freeCtr }

theorem State.faultShape_refl : s.faultShape s := rfl

theorem State.faultShape_trans {s t u : State} (h : s.faultShape t) (k : t.faultShape u) : s.faultShape u := by
  unfold State.faultShape at *
  rw [k, h]

theorem State.setReg_shape (a : Nat) (v : Word) : s.faultShape (s.setReg a v) := rfl

theorem State.reactions_shape (src : Nat) : s.faultShape (s.reactions src) := by
  unfold State.reactions State.faultShape
  dsimp only
  repeat' split
  all_goals rfl

theorem State.latchFault_shape (src : Nat) : s.faultShape (s.latchFault src) :=
  State.faultShape_trans (State.faultShape_trans (s.setReg_shape _ _) (State.setReg_shape _ _ _)) (State.reactions_shape _ src)

theorem State.raiseEvent_shape (e : Nat) (pl : Word) : s.faultShape (s.raiseEvent e pl) := by
  have h := s.raiseEvent_frame e pl
  generalize s.raiseEvent e pl = t at h ⊢
  unfold State.faultShape
  rw [h]

theorem State.tb0Words_shape : s.faultShape s.tb0Words.2 := by
  unfold State.tb0Words State.faultShape
  split <;> rfl

theorem State.recordFault_shape (src : Nat) (inj : Bool) (det syn : Word) : s.faultShape (s.recordFault src inj det syn) := by
  unfold State.recordFault
  dsimp only
  refine State.faultShape_trans (s.tb0Words_shape) ?_
  generalize s.tb0Words.2 = t
  exact State.faultShape_trans (State.faultShape_trans (State.faultShape_trans (State.faultShape_trans (State.faultShape_trans
    (State.faultShape_trans (t.setReg_shape _ _) (State.setReg_shape _ _ _)) (State.setReg_shape _ _ _)) (State.setReg_shape _ _ _))
    (State.setReg_shape _ _ _)) (State.setReg_shape _ _ _)) (State.raiseEvent_shape _ _ _)

theorem State.latchAll_shape (srcs : List Nat) : s.faultShape (srcs.foldl State.latchFault s) := by
  induction srcs generalizing s with
  | nil => exact s.faultShape_refl
  | cons a t ih => exact State.faultShape_trans (s.latchFault_shape a) (ih _)

/-- Raisings change registers, tokens, sequence counters, the muting latches, the release request and the free counter alone. -/
theorem State.raiseAll_shape (srcs : List Nat) (det : Option (Bool × Word × Word)) : s.faultShape (s.raiseAll srcs det) := by
  unfold State.raiseAll
  dsimp only
  split
  · exact s.faultShape_refl
  · split
    · exact State.faultShape_trans (s.latchAll_shape srcs) (State.setReg_shape _ _ _)
    · split
      · exact s.latchAll_shape srcs
      · refine State.faultShape_trans (s.latchAll_shape srcs) ?_
        split
        · exact State.faultShape_trans (State.setReg_shape _ _ _) (State.recordFault_shape _ _ _ _ _)
        · exact State.faultShape_trans (State.setReg_shape _ _ _) (State.recordFault_shape _ _ _ _ _)

theorem State.reactions_reg (src a : Nat) : (s.reactions src).reg a = s.reg a := by
  unfold State.reactions
  dsimp only
  repeat' split
  all_goals rfl

theorem State.latchFault_reg (src a : Nat) (h1 : a ≠ regFAULT_LATCH (src / 32)) (h2 : a ≠ regFAULT_CLASSCNT) :
    (s.latchFault src).reg a = s.reg a := by
  unfold State.latchFault
  dsimp only
  rw [State.reactions_reg, State.reg_setReg_ne _ _ h2, State.reg_setRbit, if_neg h1]

/-- A raising sets the latch of its source and no other latch. -/
theorem State.latchFault_latched (src f : Nat) :
    (s.latchFault src).faultLatched f = (s.faultLatched f || decide (f = src)) := by
  unfold State.latchFault State.faultLatched State.rbit
  dsimp only
  rw [State.reactions_reg, State.reg_setReg_ne _ _ (by simp only [regFAULT_LATCH, regFAULT_CLASSCNT]; omega), State.reg_setRbit]
  by_cases he : f / 32 = src / 32
  · rw [if_pos (by rw [he]), bit_or, bit_oneHot _ _ (Nat.mod_lt _ (by decide)), he]
    congr 1
    simp only [decide_eq_decide]; omega
  · rw [if_neg (by simp only [regFAULT_LATCH]; omega)]
    have : ¬ f = src := fun h => he (by rw [h])
    simp [this]

/-- The CRESET reaction only asks for the reset of its Course. -/
theorem State.creset_cases (src : Nat) :
    s.creset src = s ∨ ∃ n, faultCourse src = some n ∧ s.creset src = s.modCourse (fin 7 n) fun c => { c with resetReq := true } := by
  unfold State.creset
  split
  · next n hn =>
    split
    · exact .inr ⟨n, hn, rfl⟩
    · exact .inl rfl
  · exact .inl rfl

/-- An occurrence of a source that is latched and has no CRESET reaction does nothing (R361). -/
theorem State.faultOccurs_latched (src : Nat) (h : s.faultLatched src = true) (hc : faultCourse src = none ∨ s.rbit (regFAULT_CFG src) 1 = false) :
    s.faultOccurs src = s := by
  unfold State.faultOccurs State.creset
  rcases hc with hc | hc
  · simp [h, hc]
  · simp only [h, if_true, hc]
    split <;> rfl

end Sys2Proof.Machine
end

