-- ==== Sys2Proof/Laws/Field.lean ====
section
/-! SUPPORT. Bits and fields of words and of registers after an update, and the registers that events and faults leave alone. -/

namespace Sys2Proof.Machine

/-! ## Words -/

theorem bit_merge (w m v : Word) (i : Nat) : bit (merge w m v) i = if bit m i then bit v i else bit w i := by
  by_cases h : i < 32
  · simp only [merge, bit_or, bit_and, bit_not _ _ h]
    cases bit m i
    all_goals simp
  · have e (x : Word) : bit x i = false := BitVec.getLsbD_of_ge x i (by omega)
    simp only [e]; rfl

theorem bit_fmask (lo len i : Nat) (h : lo + len ≤ 32) : bit (fmask lo len) i = (decide (lo ≤ i) && decide (i < lo + len)) := by
  by_cases h32 : i < 32
  · simp only [fmask, bit_ofNat _ _ h32, Nat.testBit_mul_two_pow, Nat.testBit_two_pow_sub_one]
    by_cases hl : lo ≤ i
    all_goals simp [hl]
    all_goals omega
  · have e : bit (fmask lo len) i = false := BitVec.getLsbD_of_ge _ i (by omega)
    rw [e]; symm; simp; omega

theorem bit_setFld (w : Word) (lo len v i : Nat) (h : lo + len ≤ 32) :
    bit (setFld w lo len v) i = if lo ≤ i ∧ i < lo + len then v.testBit (i - lo) else bit w i := by
  simp only [setFld, bit_merge, bit_fmask lo len i h, Bool.and_eq_true, decide_eq_true_eq]
  split
  · next hi =>
    rw [bit_ofNat _ _ (by omega), Nat.testBit_mul_two_pow, Nat.testBit_mod_two_pow]
    simp [hi.1]
    omega
  · rfl

@[simp] theorem bit_setBit (w : Word) (i j : Nat) (b : Bool) (h : i < 32) : bit (setBit w i b) j = if j = i then b else bit w j := by
  simp only [setBit, bit_setFld w i 1 _ j (by omega)]
  by_cases hj : j = i
  · subst hj; cases b <;> simp
  · rw [if_neg (by omega), if_neg hj]

theorem testBit_fld (w : Word) (lo len j : Nat) : (fld w lo len).testBit j = (decide (j < len) && bit w (lo + j)) := by
  simp only [fld, Nat.testBit_mod_two_pow, Nat.testBit_div_two_pow, bit, BitVec.getLsbD, Nat.add_comm]

theorem fld_congr (w v : Word) (lo len : Nat) (h : ∀ j, j < len → bit w (lo + j) = bit v (lo + j)) : fld w lo len = fld v lo len := by
  apply Nat.eq_of_testBit_eq
  intro j
  rw [testBit_fld, testBit_fld]
  by_cases hj : j < len
  · rw [h j hj]
  · simp [hj]

theorem fld_setFld_self (w : Word) (lo len v : Nat) (h : lo + len ≤ 32) : fld (setFld w lo len v) lo len = v % 2 ^ len := by
  apply Nat.eq_of_testBit_eq
  intro j
  rw [testBit_fld, bit_setFld _ _ _ _ _ h, Nat.testBit_mod_two_pow]
  by_cases hj : j < len
  · rw [if_pos (by omega)]; simp [hj]
  · simp [hj]

theorem fld_setFld_ne (w : Word) (lo len v lo' len' : Nat) (h : lo + len ≤ 32) (d : lo + len ≤ lo' ∨ lo' + len' ≤ lo) :
    fld (setFld w lo len v) lo' len' = fld w lo' len' := by
  apply fld_congr
  intro j hj
  rw [bit_setFld _ _ _ _ _ h, if_neg (by omega)]

theorem fld_setBit_ne (w : Word) (i lo len : Nat) (b : Bool) (h : i < 32) (d : i < lo ∨ lo + len ≤ i) : fld (setBit w i b) lo len = fld w lo len :=
  fld_setFld_ne w i 1 _ lo len (by omega) (by omega)

theorem fld_or_oneHot (w : Word) (i lo len : Nat) (d : i < lo ∨ lo + len ≤ i) : fld (w ||| oneHot i) lo len = fld w lo len := by
  apply Nat.eq_of_testBit_eq
  intro j
  rw [testBit_fld, testBit_fld]
  by_cases hj : j < len
  · by_cases h32 : lo + j < 32
    · rw [bit_or, bit_oneHot _ _ h32]
      have : lo + j ≠ i := by omega
      simp [this]
    · have e (x : Word) : bit x (lo + j) = false := BitVec.getLsbD_of_ge x _ (by omega)
      rw [e, e]
  · simp [hj]

/-! ## Registers -/

variable (s : State)

theorem State.rbit_setReg (a b i : Nat) (v : Word) : (s.setReg a v).rbit b i = if b = a then bit v i else s.rbit b i := by
  unfold State.rbit; rw [State.reg_setReg]; split <;> rfl

theorem State.rfld_setReg (a b lo len : Nat) (v : Word) : (s.setReg a v).rfld b lo len = if b = a then fld v lo len else s.rfld b lo len := by
  unfold State.rfld; rw [State.reg_setReg]; split <;> rfl

theorem State.reg_setRfld_ne (a lo len v b : Nat) (h : b ≠ a) : (s.setRfld a lo len v).reg b = s.reg b := State.reg_setReg_ne _ _ h

theorem State.reg_putRbit_ne (a i b : Nat) (v : Bool) (h : b ≠ a) : (s.putRbit a i v).reg b = s.reg b := State.reg_setReg_ne _ _ h

theorem State.reg_setRbit_ne (a i b : Nat) (h : b ≠ a) : (s.setRbit a i).reg b = s.reg b := State.reg_setReg_ne _ _ h

theorem State.rbit_setRfld (a lo len v b i : Nat) (h : lo + len ≤ 32) :
    (s.setRfld a lo len v).rbit b i = if b = a ∧ lo ≤ i ∧ i < lo + len then v.testBit (i - lo) else s.rbit b i := by
  unfold State.setRfld
  rw [State.rbit_setReg]
  by_cases hb : b = a
  · subst hb; simp only [true_and, if_true]; exact bit_setFld _ _ _ _ _ h
  · simp [hb]

theorem State.rbit_putRbit (a i b j : Nat) (v : Bool) (h : i < 32) :
    (s.putRbit a i v).rbit b j = if b = a ∧ j = i then v else s.rbit b j := by
  unfold State.putRbit
  rw [State.rbit_setReg]
  by_cases hb : b = a
  · subst hb; simp only [true_and, if_true]; exact bit_setBit _ _ _ _ h
  · simp [hb]

theorem State.rfld_setRfld_self (a lo len v : Nat) (h : lo + len ≤ 32) : (s.setRfld a lo len v).rfld a lo len = v % 2 ^ len := by
  unfold State.setRfld
  rw [State.rfld_setReg, if_pos rfl, fld_setFld_self _ _ _ _ h]

theorem State.rfld_setRfld_ne (a lo len v b lo' len' : Nat) (h : lo + len ≤ 32) (d : b ≠ a ∨ lo + len ≤ lo' ∨ lo' + len' ≤ lo) :
    (s.setRfld a lo len v).rfld b lo' len' = s.rfld b lo' len' := by
  unfold State.setRfld
  rw [State.rfld_setReg]
  split
  · next hb => subst hb; exact fld_setFld_ne _ _ _ _ _ _ h (by omega)
  · rfl

theorem State.rfld_putRbit (a i b lo len : Nat) (v : Bool) (h : i < 32) (d : b ≠ a ∨ i < lo ∨ lo + len ≤ i) :
    (s.putRbit a i v).rfld b lo len = s.rfld b lo len :=
  State.rfld_setRfld_ne s a i 1 _ b lo len (by omega) (by omega)

theorem State.rfld_setRbit (a i b lo len : Nat) (d : b ≠ a ∨ i < lo ∨ lo + len ≤ i) : (s.setRbit a i).rfld b lo len = s.rfld b lo len := by
  unfold State.setRbit
  rw [State.rfld_setReg]
  split
  · next hb => subst hb; exact fld_or_oneHot _ _ _ _ (by omega)
  · rfl

/-! ## What events and faults leave alone: every register outside the blocks FAULT and EVT -/

theorem State.raiseEvent_reg_block (e : Nat) (pl : Word) (a : Nat) (he : e < 128) (h : a / 0x10000 ≠ 4) : (s.raiseEvent e pl).reg a = s.reg a := by
  apply State.raiseEvent_reg <;> simp only [regEVT_PEND, regEVT_PAYLOAD, regEVT_LOST_CNT, regEVT_STATUS] <;> omega

theorem State.latchFault_reg_block (src a : Nat) (hs : src < 256) (h : a / 0x10000 ≠ 3) : (s.latchFault src).reg a = s.reg a := by
  apply State.latchFault_reg <;> simp only [regFAULT_LATCH, regFAULT_CLASSCNT] <;> omega

theorem State.tb0Words_reg (a : Nat) : s.tb0Words.2.reg a = s.reg a := by
  unfold State.tb0Words; split <;> rfl

/-- The words of the first-fault record, and EV6: no register outside the blocks FAULT and EVT changes, and of EVT those of EV6. -/
theorem State.recordFault_reg (src : Nat) (inj : Bool) (det syn : Word) (a : Nat) (h : a / 0x10000 ≠ 3) (h1 : a ≠ regEVT_PEND 0)
    (h2 : a ≠ regEVT_PAYLOAD 6) (h3 : a ≠ regEVT_LOST_CNT) (h4 : a ≠ regEVT_STATUS) : (s.recordFault src inj det syn).reg a = s.reg a := by
  unfold State.recordFault
  dsimp only
  rw [State.raiseEvent_reg _ _ _ _ h1 h2 h3 h4]
  simp only [State.reg_setReg, State.tb0Words_reg, regFAULT_FFR0, regFAULT_FFR1, regFAULT_FFDET, regFAULT_FFSYN]
  repeat rw [if_neg (by omega)]

theorem State.raiseAll_reg (src : Nat) (det : Option (Bool × Word × Word)) (a : Nat) (hs : src < 256) (h : a / 0x10000 ≠ 3)
    (h1 : a ≠ regEVT_PEND 0) (h2 : a ≠ regEVT_PAYLOAD 6) (h3 : a ≠ regEVT_LOST_CNT) (h4 : a ≠ regEVT_STATUS) :
    (s.raiseAll [src] det).reg a = s.reg a := by
  have hc (t : State) (n : Nat) : (t.count regFAULT_COUNT n).reg a = t.reg a :=
    State.reg_setReg_ne _ _ (by simp only [regFAULT_COUNT]; omega)
  unfold State.raiseAll
  simp only [List.isEmpty_cons, Bool.false_eq_true, if_false, List.foldl_cons, List.foldl_nil]
  split
  · rw [hc, State.latchFault_reg_block _ _ _ hs h]
  · split
    · rw [State.latchFault_reg_block _ _ _ hs h]
    · split <;> rw [State.recordFault_reg _ _ _ _ _ _ h h1 h2 h3 h4, hc, State.latchFault_reg_block _ _ _ hs h]

@[simp] theorem State.creset_reg (src a : Nat) : (s.creset src).reg a = s.reg a := by
  obtain h | ⟨n, _, h⟩ := s.creset_cases src <;> rw [h]
  rfl

/-- An occurrence of a fault source changes no register outside the blocks FAULT and EVT. -/
theorem State.faultOccurs_reg (src a : Nat) (hs : src < 256) (h : a / 0x10000 ≠ 3) (h1 : a ≠ regEVT_PEND 0) (h2 : a ≠ regEVT_PAYLOAD 6)
    (h3 : a ≠ regEVT_LOST_CNT) (h4 : a ≠ regEVT_STATUS) : (s.faultOccurs src).reg a = s.reg a := by
  unfold State.faultOccurs
  rw [State.creset_reg]
  split
  · rfl
  · exact State.raiseAll_reg _ _ _ _ hs h h1 h2 h3 h4

theorem State.causeBegins_reg (src a : Nat) (hs : src < 256) (h : a / 0x10000 ≠ 3) (h1 : a ≠ regEVT_PEND 0) (h2 : a ≠ regEVT_PAYLOAD 6)
    (h3 : a ≠ regEVT_LOST_CNT) (h4 : a ≠ regEVT_STATUS) : (s.causeBegins src).reg a = s.reg a := by
  have hc : (s.setRbit (regFAULT_CAUSE (src / 32)) (src % 32)).reg a = s.reg a :=
    State.reg_setReg_ne _ _ (by simp only [regFAULT_CAUSE]; omega)
  unfold State.causeBegins
  dsimp only
  split
  · exact hc
  · split
    · exact hc
    · rw [State.creset_reg, State.raiseAll_reg _ _ _ _ hs h h1 h2 h3 h4, hc]

theorem State.causeEnds_reg (src a : Nat) (hs : src < 256) (h : a / 0x10000 ≠ 3) : (s.causeEnds src).reg a = s.reg a :=
  State.reg_setReg_ne _ _ (by simp only [regFAULT_CAUSE]; omega)

/-- The latches and the live causes are no part of the first-fault record. -/
theorem State.recordFault_latches (src : Nat) (inj : Bool) (det syn : Word) (a : Nat) (l : 0x30040 ≤ a) (h : a < 0x30080) :
    (s.recordFault src inj det syn).reg a = s.reg a := by
  unfold State.recordFault
  dsimp only
  rw [State.raiseEvent_reg_block _ _ _ _ (by omega) (by omega)]
  simp only [State.reg_setReg, State.tb0Words_reg, regFAULT_FFR0, regFAULT_FFR1, regFAULT_FFDET, regFAULT_FFSYN]
  repeat rw [if_neg (by omega)]

/-- A raising leaves the live causes alone. -/
theorem State.raiseAll_cause (src : Nat) (det : Option (Bool × Word × Word)) (i : Nat) (hs : src < 256) (hi : i < 8) :
    (s.raiseAll [src] det).reg (regFAULT_CAUSE i) = s.reg (regFAULT_CAUSE i) := by
  have hc (t : State) (n : Nat) : (t.count regFAULT_COUNT n).reg (regFAULT_CAUSE i) = t.reg (regFAULT_CAUSE i) :=
    State.reg_setReg_ne _ _ (by simp only [regFAULT_COUNT, regFAULT_CAUSE]; omega)
  have hl : (s.latchFault src).reg (regFAULT_CAUSE i) = s.reg (regFAULT_CAUSE i) :=
    State.latchFault_reg _ _ _ (by simp only [regFAULT_LATCH, regFAULT_CAUSE]; omega) (by simp only [regFAULT_CLASSCNT, regFAULT_CAUSE]; omega)
  have hr (t : State) (x : Nat) (b : Bool) (d y : Word) : (t.recordFault x b d y).reg (regFAULT_CAUSE i) = t.reg (regFAULT_CAUSE i) :=
    State.recordFault_latches _ _ _ _ _ _ (by simp only [regFAULT_CAUSE]; omega) (by simp only [regFAULT_CAUSE]; omega)
  unfold State.raiseAll
  simp only [List.isEmpty_cons, Bool.false_eq_true, if_false, List.foldl_cons, List.foldl_nil]
  split
  · rw [hc, hl]
  · split
    · exact hl
    · split <;> rw [hr, hc, hl]

/-- The live causes after one begins. -/
theorem State.causeBegins_cause (src f : Nat) (hs : src < 256) (hf : f < 256) :
    (s.causeBegins src).rbit (regFAULT_CAUSE (f / 32)) (f % 32) = (s.rbit (regFAULT_CAUSE (f / 32)) (f % 32) || decide (f = src)) := by
  have hb : (s.setRbit (regFAULT_CAUSE (src / 32)) (src % 32)).rbit (regFAULT_CAUSE (f / 32)) (f % 32)
      = (s.rbit (regFAULT_CAUSE (f / 32)) (f % 32) || decide (f = src)) := by
    rw [State.rbit_setRbit _ _ _ _ _ (by omega)]
    congr 1
    rw [← Bool.decide_and, decide_eq_decide]
    simp only [regFAULT_CAUSE]
    omega
  unfold State.causeBegins
  dsimp only
  split
  · exact hb
  · split
    · exact hb
    · rw [← hb]
      unfold State.rbit
      rw [State.creset_reg, State.raiseAll_cause _ _ _ _ hs (by omega)]

/-- The latches after a raising: that of the source is set, and no other changes. -/
theorem State.raiseAll_latched (src f : Nat) (det : Option (Bool × Word × Word)) (hf : f < 256) :
    (s.raiseAll [src] det).faultLatched f = (s.faultLatched f || decide (f = src)) := by
  have hc (t : State) (n : Nat) : (t.count regFAULT_COUNT n).faultLatched f = t.faultLatched f := by
    unfold State.faultLatched State.count
    rw [State.rbit_setReg, if_neg]
    simp only [regFAULT_COUNT, regFAULT_LATCH]; omega
  have hr (t : State) (x : Nat) (b : Bool) (d y : Word) : (t.recordFault x b d y).faultLatched f = t.faultLatched f := by
    unfold State.faultLatched State.rbit
    rw [State.recordFault_latches _ _ _ _ _ _ (by simp only [regFAULT_LATCH]; omega) (by simp only [regFAULT_LATCH]; omega)]
  unfold State.raiseAll
  simp only [List.isEmpty_cons, Bool.false_eq_true, if_false, List.foldl_cons, List.foldl_nil]
  split
  · rw [hc, State.latchFault_latched]
  · split
    · rw [State.latchFault_latched]
    · split <;> rw [hr, hc, State.latchFault_latched]

@[simp] theorem State.creset_latched (src f : Nat) : (s.creset src).faultLatched f = s.faultLatched f := by
  unfold State.faultLatched State.rbit
  rw [State.creset_reg]

/-- After an occurrence of a source its latch is set, and no other has changed. -/
theorem State.faultOccurs_latch (src f : Nat) (hf : f < 256) : (s.faultOccurs src).faultLatched f = (s.faultLatched f || decide (f = src)) := by
  unfold State.faultOccurs
  rw [State.creset_latched]
  split
  · next h => by_cases e : f = src <;> simp_all
  · rw [State.raiseAll_latched _ _ _ _ hf]

/-- After a level cause begins its latch is set where the cause was not live before. -/
theorem State.causeBegins_latch (src f : Nat) (hf : f < 256) :
    (s.causeBegins src).faultLatched f = (s.faultLatched f || (decide (f = src) && !s.rbit (regFAULT_CAUSE (src / 32)) (src % 32))) := by
  have hb : (s.setRbit (regFAULT_CAUSE (src / 32)) (src % 32)).faultLatched f = s.faultLatched f := by
    unfold State.faultLatched State.rbit
    rw [State.reg_setRbit_ne]
    simp only [regFAULT_CAUSE, regFAULT_LATCH]; omega
  unfold State.causeBegins
  dsimp only
  split
  · next h => rw [hb, h]; simp
  · next h =>
    split
    · next h1 => rw [hb]; by_cases e : f = src <;> simp_all
    · rw [State.creset_latched, State.raiseAll_latched _ _ _ _ hf, hb]; simp [h]

end Sys2Proof.Machine
end

