-- ==== Sys2Proof/Tests/Slice0.lean ====
section
/-! SUPPORT. Tests: an ill-formed command for each check of well-formedness, the decoding of table words, small results worked from the rules, and for every statement with hypotheses a state that meets them. -/

-- One theorem after another: each kernel evaluation then has the memory for itself.
set_option Elab.async false

open Sys2Proof Sys2Proof.Machine

/-! ## Builders -/

/-- The state after reset with some registers at other values. -/
def Tests.st (l : List (Nat × Word)) : State := { State.reset with regs := l }

/-- A stop syllable of Course 0 in the foreground. -/
def Tests.fg : SylHdr := { n := 0, x := .fg, stop := true, rsv := false }

/-- A stop syllable of Course 0 in the background. -/
def Tests.bg : SylHdr := { n := 0, x := .bg, stop := true, rsv := false }

/-- Course 0 changed. -/
def Tests.c0 (s : State) (f : Course → Course) : State := s.modCourse 0 f

/-- Course 0 in its foreground work with 64K words of foreground memory. -/
def Tests.sFg : State := Tests.c0 (Tests.st [(regC_DMEM_SPLIT 0, 0x40#32)]) fun c => { c with phase := .fore }

/-- Course 0 in a background task. -/
def Tests.sBg : State := Tests.c0 State.reset fun c => { c with phase := .back }

open Tests

/-! ## Well-formedness: each check refuses an ill-formed command -/

theorem test_ld_beyond_d31 : Instr.wf (.ld fg 0 .plain 30 .four) = false := by decide
theorem test_ld_fits : Instr.wf (.ld fg 0 .plain 28 .four) = true := by decide
theorem test_st_beyond_d31 : Instr.wf (.st fg 0 .plain (.regs 31 .two)) = false := by decide
theorem test_in_beyond_d31 : Instr.wf (.inp fg 0 .plain 31 .two) = false := by decide
theorem test_out_beyond_d31 : Instr.wf (.out fg 0 .plain (.regs 29 .four)) = false := by decide
theorem test_modp_plain : Instr.wf (.modp fg 0 .plain) = false := by decide
theorem test_frame_of_33_slots : Instr.wf (.tdmFrameEnd 0 (List.replicate 33 0)) = false := by decide
theorem test_frame_of_32_slots : Instr.wf (.tdmFrameEnd 0 (List.replicate 32 0)) = true := by decide

/-! ## Table words -/

theorem test_no_row_gives_bits : decodeTableWord 32 0x80000000 = none := rfl
theorem test_no_command_placed : State.reset.withFetchWord 32 0x80000000 = State.reset := rfl

/-! ## Syllable words: the class, the opcode and the operand fields of R84 and R85, written out -/

theorem test_word_mac : decodeSyllable 0 .fg 0x00043000#32 = .mac (sylHdr 0 .fg 0x00043000#32 0#32) 0 8 12 := by decide
theorem test_word_ld : decodeSyllable 0 .fg 0x08072000#32 = .ld (sylHdr 0 .fg 0x08072000#32 0#32) 0 .postAddN 8 .four := by decide
theorem test_word_dbnz : decodeSyllable 0 .fg 0x9880010F#32 = .dbnz (sylHdr 0 .fg 0x9880010F#32 0#32) false 0 271 := by decide
theorem test_word_stop_bit : (sylHdr 0 .fg 0x9880010F#32 0#32).stop = true ∧ (sylHdr 0 .fg 0x00043000#32 0#32).stop = false := by decide
theorem test_word_undefined_class : undefinedWord 0x28000000#32 = true := by decide
theorem test_word_defined : undefinedWord 0x00043000#32 = false := by decide

/-! ## Small results, worked from the rules -/

/-- Course 0 in its foreground work with two data registers set. -/
def Tests.dd (a b : Word) : State := c0 sFg fun c => { c with fg := { c.fg with d := (c.fg.d.set 0 a).set 1 b } }

/-- A data register and FLAGS of the foreground context after a syllable of Course 0. -/
def Tests.after (o : Host.Outcome State Fault Refusal) : Word × Word :=
  match o with
  | .next t => ((t.course 0).fg.d.get 2, (t.course 0).fg.flags)
  | _ => (0, 0)

/-- The check value that R400 gives for the nine bytes "123456789". -/
theorem test_crc_check_value : crc32 [0x31#8, 0x32#8, 0x33#8, 0x34#8, 0x35#8, 0x36#8, 0x37#8, 0x38#8, 0x39#8] = 0xCBF43926#32 := by decide +kernel

theorem test_add_wraps : after (exec (.add fg true 2 0 1) (dd 0xFFFFFFFF#32 1#32)) = (0, 0x106#32) := by decide
theorem test_add_overflows : after (exec (.add fg true 2 0 1) (dd 0x7FFFFFFF#32 1#32)) = (0x80000000#32, 0x109#32) := by decide
theorem test_adds_saturates : after (exec (.adds fg true 2 0 1) (dd 0x7FFFFFFF#32 1#32)) = (0x7FFFFFFF#32, 0x101#32) := by decide
theorem test_sub_borrows : after (exec (.sub fg true 2 0 1) (dd 1#32 2#32)) = (0xFFFFFFFF#32, 0x10A#32) := by decide
theorem test_abs_of_most_negative : after (exec (.abs fg true 2 0) (dd 0x80000000#32 0)) = (0x7FFFFFFF#32, 0x101#32) := by decide
theorem test_lsr_carry : after (exec (.lsri fg true 2 0 4) (dd 0x00000018#32 0)) = (1, 0x102#32) := by decide
theorem test_asr_sign : after (exec (.asri fg false 2 0 31) (dd 0x80000000#32 0)) = (0xFFFFFFFF#32, 0x100#32) := by decide
theorem test_cls_of_one : after (exec (.cls fg 2 0) (dd 1#32 0)) = (30, 0x100#32) := by decide
theorem test_cmplt_signed : (after (exec (.cmplt fg 1 0 1 false) (dd 0xFFFFFFFF#32 0))).2 = 0x300#32 := by decide
theorem test_cmpltu_unsigned : (after (exec (.cmpltu fg 1 0 1 false) (dd 0xFFFFFFFF#32 0))).2 = 0x100#32 := by decide

/-- An undefined syllable sets FLAGS.ILLEGAL and writes no register (R107, R109). -/
theorem test_undefined_syllable : after (exec (.undefinedSyllable fg 0x28000000#32) (dd 5 6)) = (0, 0x80000100#32) := by decide

/-- Convergent rounding: a value halfway between two results goes to the even one (R8). -/
theorem test_convergent_rounding : rconv 3 1 = 2 ∧ rconv 1 1 = 0 ∧ rconv (-3) 1 = -2 ∧ rconv (-1) 1 = 0 := by decide

/-- Saturation: a value outside the range goes to the nearest end (R8). -/
theorem test_saturation : sat32 (2 ^ 31) = 2 ^ 31 - 1 ∧ sat32 (-2 ^ 31 - 1) = -2 ^ 31 := by decide

/-- A wrong key leaves the module as it is (R334). -/
theorem test_reset_key : exec (.globalResetWrite 10 0xB01B0001#32) State.reset = .next State.reset := rfl

/-- The issue word (R4, R5). -/
theorem test_issue_word : State.reset.reg regGLOBAL_ISSUE = 0x00010100#32 := by decide

/-! ## Witnesses: the step and what it keeps -/

theorem witness_StepRunsFront : (State.reset.push .frameTick).pending = [.frameTick] := rfl
theorem witness_QueueKept : ∃ t, exec .frameTick State.reset = .next t := ⟨_, rfl⟩
theorem witness_MemoryFormKept : Canon State.reset ∧ ∃ t, step State.reset = .next t := ⟨by unfold Canon; decide, _, rfl⟩
theorem witness_FusesOnlyBurn : FuseForm State.reset ∧ State.reset.unfused = true ∧ (∃ t, step State.reset = .next t) ∧
    FuseForm { State.reset with fuseKey := List.replicate 8 1#32, fuseLock := true } ∧
    ({ State.reset with fuseKey := List.replicate 8 1#32 } : State).unfused = false := by
  refine ⟨⟨rfl, fun _ _ _ h => by cases h⟩, by decide, ⟨_, rfl⟩, ⟨rfl, fun _ _ _ h => by cases h⟩, by decide⟩

/-! ## Witnesses: syllables -/

/-- The foreground and the background of Course 0 each take a syllable that issues alone. -/
theorem witness_Solo : Solo sFg fg ∧ Solo sBg bg := by unfold Solo Unarmed; decide

theorem witness_ControlResults : Solo sFg fg ∧ ((sFg.course 0).ctx .fg).slot = none ∧
    let s := c0 sFg fun c => { c with fg := { c.fg with slot := some 7 } }
    Solo s fg ∧ ((s.course 0).ctx .fg).slot = some 7 ∧ ((s.course 0).ctx .fg).pred 0 false = true ∧ ((s.course 0).ctx .fg).pred 0 true = false := by
  unfold Solo Unarmed; decide

theorem witness_ResultsWriteOneRegister : Ctx.reset.flight = [] := rfl
theorem witness_AddressRegisterResults : Solo sFg fg := by unfold Solo Unarmed; decide

theorem witness_SyllablesAndTraps :
    (let s := c0 { sFg with regs := [(regFAULT_LATCH 0, 0x00010000#32)] } fun c => c
     Solo s fg ∧ s.faultLatched 16 = true ∧ undefinedWord 0x28000000#32 = true ∧ undefinedWord 0x00043000#32 = false) ∧
    ((sFg.course 0).mayIssue .fg = true ∧ sFg.courseClock = true ∧ ((sFg.course 0).ctx .fg).bundle.length < 7) ∧
    (State.reset.course 0).mayIssue .fg = false ∧ (st [(regCLK_STATUS, 0x00200000#32)]).courseClock = false := by
  unfold Solo Unarmed; decide

/-- One bound section, a Course with no move running and a descriptor in local memory at 8, and one with four moves running. -/
theorem witness_ExtensionResults :
    (let s := c0 (st [(regEQ_BIND 0, 0x00004000#32)]) fun c => { c with phase := .fore }
     Solo s fg ∧ (0#8).toNat < s.bindCount 0 ∧ s.bindCount 0 ≤ (1#8).toNat) ∧
    (let s := c0 sBg fun c => { c with lmem := memSetWord (memSetWord (memSetWord [] 8 0x80000000#32) 9 0x80001000#32) 10 4#32 }
     let w (i : Nat) : Word := (s.course 0).local ((8 + i) % 65536)
     Solo s bg ∧ (s.course 0).movesRunning < 4 ∧ fld (w 2) 0 17 ≠ 0 ∧ fld (w 2) 0 17 ≤ 65536 ∧ moveRangeOk (w 0).toNat 4 = true ∧ moveRangeOk (w 1).toNat 4 = true) ∧
    (let mv : Move := { ticket := 0, src := 0x80000000, dst := 0x80001000, len := 4, event := false, st := .running, fresh := false }
     4 ≤ ((c0 sBg fun c => { c with moves := [mv, mv, mv, mv] }).course 0).movesRunning) := by
  unfold Solo Unarmed; decide

/-- An equaliser member with a known state, and a section that holds it alone. -/
theorem witness_SectionStep :
    let m : SecMember := { b0 := 0x20000000#32, b1 := 0, b2 := 0, a1 := 0, a2 := 0, st := some (0, 0) }
    m.st = some (0, 0) ∧ Unarmed State.reset ∧
    ({ State.reset with secs := [(5, { fade := Fade.single m, waiting := none })] } : State).sec 5 = { fade := Fade.single m, waiting := none } := by
  unfold Unarmed; decide

/-- Near words, I/O words and feed words, each at the edge of its window. -/
theorem witness_NearAccesses :
    let s (p : Word) : State := c0 sFg fun c => { c with fg := { c.fg with p := c.fg.p.set 0 p } }
    let addrs (p : Word) : List Nat := accessAddrs (((s p).course 0).ctx .fg) (addrMode ((s p).amode 0 .fg) 0) 0 .plain 1
    Solo (s 0xFFFF) fg ∧ (0 : Fin 32).val + Size.one.count ≤ 32 ∧
    (∀ a ∈ addrs 0xFFFF, a < 0x10000 ∧ (s 0xFFFF).nearReadOk 0 .fg a = true ∧ (s 0xFFFF).nearWriteOk 0 .fg a = true) ∧
    Solo (s 0x3FF) fg ∧ (∀ a ∈ addrs 0x3FF, a < 0x400) ∧
    Solo (s 0x1000) fg ∧ (∀ a ∈ addrs 0x1000, 0x1000 ≤ a ∧ a ≤ 0x10FF) ∧ (∀ a ∈ addrs 0x10FF, 0x1000 ≤ a ∧ a ≤ 0x10FF) ∧
    fg.x = .fg ∧ bg.x = .bg ∧ [0xFFFF].length = [(1 : Word)].length := by
  unfold Solo Unarmed; decide

/-! ## Witnesses: the Ridge, moves and handovers -/

/-- Course 0 in the background, region 1 of the DRAM at its second 256K words, and a DRAM address in P0. -/
def Tests.sFar : State := c0 { sBg with regs := [(regDLY_PART 1, 0x00010001#32)] } fun c => { c with bg := { c.bg with p := c.bg.p.set 0 0x80040000#32 } }

/-- The Ridge access of `sFar`. -/
def Tests.qFar : RidgeReq := { port := .dram 0, view := .dram, addrs := [0x80040000] }

/-- The posted write of one word to it. -/
def Tests.pFar : Posted := { x := .bg, req := qFar, data := [5], granted := false }

/-- A far store and a far load of the background, a control register store, and a load whose data have come. -/
theorem witness_RidgeAccesses :
    let s := sFar
    let c := (s.course 0).ctx .bg
    let addrs := accessAddrs c (addrMode (s.amode 0 .bg) 0) 0 .plain 1
    let sy : Syl := { op := .ld bg 0 .plain 0 .one, unit := .agu, bad := false, rsv := false }
    let w : Stall := { syls := [sy], noStop := false, first := true, reps := 0, reads := some [.ridge qFar (some [5#32])] }
    bg.stop = true ∧ bg.rsv = false ∧ (0 : Fin 32).val + Size.one.count ≤ 32 ∧ Solo s bg ∧
    s.storeTarget 0 .bg false addrs = .ridge qFar ∧ (s.course 0).posted.length < 8 ∧ s.readTarget 0 .bg false addrs = .ridge qFar ∧
    (let u := c0 s fun c => { c with bg := { c.bg with p := c.bg.p.set 0 0x80000000#32 } }
     u.storeTarget 0 .bg true (accessAddrs ((u.course 0).ctx .bg) (addrMode (u.amode 0 .bg) 0) 0 .plain 1) = .ridge { port := .csr, view := .csr, addrs := [0] }) ∧
    (let t := c0 s fun c => { c with bg := { c.bg with stall := some w } }
     ((t.course 0).ctx .bg).stall = some w ∧ ((t.course 0).ctx .bg).bundle = [] ∧ ((t.course 0).ctx .bg).rep = none ∧ Unarmed t) ∧
    (let t := c0 s fun c => { c with posted := [{ pFar with granted := true }] }
     (t.course 0).posted = [{ pFar with granted := true }] ∧ (t.course 0).fg.stall = none ∧ (t.course 0).bg.stall = none) := by
  unfold Solo Unarmed; decide

theorem witness_GrantedAccesses :
    (let s := c0 sFar fun c => { c with posted := [pFar] }
     s.courseRatioBad = false ∧ Unarmed s ∧ (s.course 0).posted = [pFar] ∧ s.portWinner (.dram 0) = some (0, .store pFar) ∧
     s.portOpen (.dram 0) 0 = true ∧ (s.portAsk (.dram 0) 0).isSome = true) ∧
    (let p (v : RidgeView) (a : Nat) : Posted := { pFar with req := { port := .scratch 2, view := v, addrs := [a] } }
     let s (q : Posted) : State := c0 sFar fun c => { c with posted := [q] }
     ((s (p .plain 0x00420005)).portWinner (.scratch 2) = some (0, .store (p .plain 0x00420005)) ∧ scratchView 0x00420005 = some (.plain, 2, 5)) ∧
     ((s (p .setAlias 0x00820005)).portWinner (.scratch 2) = some (0, .store (p .setAlias 0x00820005)) ∧ scratchView 0x00820005 = some (.setAlias, 2, 5)) ∧
     ((s (p .clrAlias 0x00C20005)).portWinner (.scratch 2) = some (0, .store (p .clrAlias 0x00C20005)) ∧ scratchView 0x00C20005 = some (.clrAlias, 2, 5))) := by
  unfold Unarmed; decide

/-- A move of four words between overlapping DRAM ranges, one that runs, and two that a refused word ends. -/
theorem witness_Moves :
    let mv (d : Nat) : Move := { ticket := 3, src := 0x80040000, dst := d, len := 4, event := true, st := .running, fresh := false }
    let s (d : Nat) : State := c0 sFar fun c => { c with moves := [mv d] }
    (moveRangeOk 0x80040000 4 = true ∧ moveRangeOk 0x80040002 4 = true) ∧
    (let t := s 0x80040002
     (t.course 0).runningMove 3 = some (mv 0x80040002) ∧ t.moveBlock 0 (mv 0x80040002) = none ∧ t.moveWaits (mv 0x80040002) = false ∧ Unarmed t ∧
     ({ t with divHold := true } : State).moveWaits (mv 0x80040002) = true) ∧
    ((s 0x80000000).moveBlock 0 (mv 0x80000000) = some (0, .dram 1 0x80000000, true) ∧ (s 0x00400000).moveBlock 0 (mv 0x00400000) = some (0, .scratch 0 0x00400000, true)) := by
  unfold Unarmed; decide

/-- The host writes the second source word of a running move, which is its own first destination word too. -/
theorem witness_Moves_raced :
    let mv : Move := { ticket := 3, src := 0x80040000, dst := 0x80040001, len := 4, event := true, st := .running, fresh := false }
    let s : State := (c0 sFar fun c => { c with moves := [mv] }).dramSet 0x40001 7
    moveRangeOk 0x80040000 4 = true ∧ moveRangeOk 0x80040001 4 = true ∧ s.raced = [(0, 3, 0x80040001)] ∧ s.moveOpen 0 mv 4 = [0x80040001, 0x80040002, 0x80040001] ∧
    (s.moveResult 0 mv 4).raced = [] ∧ (s.moveResult 0 mv 4).freeCtr = 3 := by
  decide

theorem witness_HandoversAndSlow :
    let s : State := st [(regSCR_OWN 5, 0x80000000#32)]
    (State.reset.scrPend 5 = false ∧ State.reset.mayHandOver 10 5 = true ∧ (0 < 11 ∨ 0 = 15) ∧ 0 ≠ State.reset.rfld (regSCR_OWN 5) 0 4) ∧
    State.reset.mayHandOver 3 5 = false ∧
    (let u : State := { s with newOwner := [(5, 3)] }
     u.scrPend 5 = true ∧ u.scrOwner 5 = 3 ∧ u.bankBusy 5 = false ∧
     (let q : Posted := { pFar with req := { port := .scratch 5, view := .plain, addrs := [0x00450000] } }
      (c0 u fun c => { c with posted := [q] }).bankBusy 5 = true)) ∧
    State.reset.rbit regGLOBAL_MODE 16 = false ∧ (st [(regGLOBAL_MODE, 0x10000#32)]).rbit regGLOBAL_MODE 16 = true ∧
    (st [(regRIDGE_STATUS, 2#32)]).rbit regRIDGE_STATUS 1 = true := by
  decide

/-! ## Witnesses: Courses, the frame, the delay memory and the mixing fabric -/

/-- Frames run, at frame `k`. -/
def Tests.atF (s : State) (k : Nat) : State := { s with ticking := true, fc := BitVec.ofNat 64 k }

theorem witness_FrameTick :
    (atF State.reset 5).ticking = true ∧ (atF State.reset 5).gatedOff 8 = false ∧ (atF State.reset 5).matFrame ≠ some 5 ∧ State.reset.ticking = false ∧
    (let s (p : Phase) (r : Bool) : State := c0 (st [(regC_CTRL 0, 1#32)]) fun c => { c with phase := p, reloaded := r, frame := 4, task := some { tag := 7, ticks := 0 } }
     (s .back false).rbit (regC_CTRL 0) 0 = true ∧ State.reset.rbit (regC_CTRL 0) 0 = false ∧ ((s .back false).course 0).bg.mustFinish ((s .back false).amode 0 .bg) = false ∧
     (let u : State := c0 (s .back false) fun c => { c with bg := { c.bg with rep := some 2 }, preemptDue := true }
      (u.course 0).bg.mustFinish (u.amode 0 .bg) = true ∧ (u.course 0).preemptDue = true ∧ (u.course 0).bg.stall = none ∧ (u.course 0).bg.rep.isSome = true ∧
      ((s .back false).course 0).bg.rep = none ∧ ((s .back false).course 0).preemptDue = false) ∧
     ((s .back false).course 0).resetReq = false ∧ ((s .reset true).course 0).reloaded = true ∧ ((s .fore false).course 0).frame < 5 ∧
     ((s .halted false).course 0).phase = .halted ∧ ((s .sleep false).course 0).phase = .sleep ∧ ((s .back false).course 0).task = some { tag := 7, ticks := 0 } ∧
     ((c0 State.reset fun c => { c with resetReq := true }).course 0).resetReq = true) := by
  decide

theorem witness_ForegroundFrames :
    (let s : State := { c0 (atF State.reset 5) fun c => { c with frame := 5 } with matFrame := some 5 }
     s.ticking = true ∧ s.asleep = false ∧ (s.course 0).phase = .entry ∧ (s.course 0).frame ≤ s.now ∧ s.matrixDone (s.course 0).frame = true ∧ (s.course 0).haltDue = false) ∧
    (let s (m : Option Nat) (k : Nat) : State := c0 (atF State.reset 5) fun c => { c with phase := .fore, frame := k, missed := m, fg := { c.fg with ended := true } }
     let c := (s none 5).course 0
     c.phase = .fore ∧ c.fg.ended = true ∧ (∀ p ∈ c.posted, p.x = .bg) ∧ c.task = none ∧ c.haltDue = false ∧ c.ioOpen = false ∧ c.mboxOpen = false ∧ c.missed = none ∧
     (s none 5).now ≤ c.frame ∧ ((s (some 3) 3).course 0).frame < (s (some 3) 3).now ∧ ((s (some 3) 3).course 0).missed = some 3 ∧
     (1 ≤ (s (some 3) 4).now ∧ ((s (some 3) 4).course 0).frame ≤ (s (some 3) 4).now - 1 ∧ 3 < (s (some 3) 4).now - 1 ∧ (s (some 3) 4).ticking = true) ∧
     ((s (some 3) 3).course 0).frame + 2 ≤ (s (some 3) 3).now) := by
  decide

theorem witness_CourseControl :
    (let s (p : Phase) (d : Bool) : State := c0 State.reset fun c => { c with phase := p, haltDue := d }
     ((s .sleep true).course 0).haltDue = true ∧ ((s .sleep true).course 0).preemptDue = false ∧ ((s .sleep true).course 0).phase = .sleep ∧ ((s .halted false).course 0).phase = .halted ∧
     (s .halted false).debugLock = false ∧ (st [(regC_DMEM_SPLIT 0, 0#32)]).fgWords 0 = 0 ∧ sFg.fgWords 0 = 65536 ∧ (sFg.course 0).phase ≠ .halted ∧
     ((s .reset false).course 0).phase = .reset ∧ ((s .reset false).course 0).reloaded = false ∧ (s .reset false).dramOn = true ∧ (s .reset false).headBusy = false ∧ Unarmed (s .reset false)) := by
  unfold Unarmed; decide

/-- A line of eight words with one sample of frame 3. -/
def Tests.ln8 : Line := { ring := 8, pos := 1, oldUntil := 0, hist := [(3, 9#32, 8)], posted := [(3, 0, 9#32)] }

theorem witness_TapsAndHeldSamples :
    (let s := atF State.reset 5
     let k := (s.course 0).nextPrefetch
     s.dramOn = true ∧ s.gatedOff 13 = false ∧ k ≤ s.now + 1 ∧ (s.course 0).mboxFrame.get (fin 1 (k % 2)) ≠ some k ∧ (s.course 0).fg.stall = none ∧ s.rbit regFAULT_INJCTRL 31 = false ∧ 7 ∉ s.tapsOn 0) ∧
    ln8.hist.find? (fun e => decide (e.1 + 4 = 7 ∧ 4 ≤ e.2.2)) = some (7 - 4, 9#32, 8) ∧ 4 ≤ ln8.ring ∧ 4 ≤ 7 ∧
    (newMember 4).delay = 4 ∧ (newMember 4).held = true ∧ (newMember 4).fadeAt = none ∧ ln8.sample 6 (newMember 4).delay = none ∧
    ln8.sample 6 4 = none ∧ (3, 9#32, 8) ∈ (ln8.post 4 1#32).hist := by
  decide

theorem witness_DelayMemory :
    (let s : State := { st [(regDLY_PART 0, 0x00010000#32)] with lines := [(0, ln8)], taps := [(0, { fade := { base := newMember 3, runs := [(newMember 4, 0, 0)] }, quietAt := 0, waiting := none })] }
     (s.tap 0 0).fade.over (s.course 0).nextPrefetch = true ∧ s.lineLen 0 0 ≠ (s.line 0 0).ring ∧ s.lineQuiet 0 0 (s.course 0).frame = true ∧
     (s.line 0 0).oldUntil ≤ (s.course 0).frame ∧ s.dramOn = true ∧ (s.line 0 0).posted = [(3, 0, 9#32)] ∧
     (let blk : List (Nat × Nat × Word) := ([(3, 0, 9#32)] : List (Nat × Nat × Word)).takeWhile (fun p => p.2.1 / 16 == 0 / 16)
      (blk.map fun p => p.2.1).Nodup ∧ (∀ p ∈ blk, s.dramRegion (s.lineBase 0 0 + p.2.1) = some 0) ∧
      ∀ p ∈ blk, State.reset.dramRegion (s.lineBase 0 0 + p.2.1) ≠ some 0)) ∧
    (let dw (w : Nat) : DelayWord := { course := 0, isTap := false, index := 0, word := w }
     delayWord (0x07000000#32).toNat = some (dw 0) ∧ (dw 0).shadowed = false ∧ (dw 2).shadowed = true ∧ delayWord (0x07000008#32).toNat = some (dw 2) ∧
     delayWord (0x07000001#32).toNat = none ∧ delayWord (0x07008000#32).toNat = none ∧
     ((c0 State.reset fun c => { c with phase := .halted }).course (fin 7 0)).phase = .halted ∧ (State.reset.course (fin 7 0)).phase ≠ .halted) := by
  decide

theorem witness_Crossfades :
    (let s : State := { c0 State.reset fun c => { c with frame := 3 } with
       taps := [(5, { fade := Fade.single (newMember 3), quietAt := 0, waiting := some (2, 6) })]
       sels := [(0xA0008, { fade := Fade.single 0, waiting := some 2 })]
       xents := [(9, { members := [], waiting := some 1 })]
       secs := [(4, { fade := Fade.single { b0 := 0, b1 := 0, b2 := 0, a1 := 0, a2 := 0, st := none }, waiting := some 2 })] }
     firstTurn s.tapsWaiting (fun k => s.tapRoom (k / 2048) (k % 2048) (s.course (fin 7 (k / 2048))).nextPrefetch) = some (tapKey 0 5) ∧ (s.tap 0 5).waiting = some (2, 6) ∧
     2 < (s.course 0).nextPrefetch ∧
     firstTurn s.selsWaiting (fun k => s.selRoom k s.now) = some (0xA0008#32).toNat ∧
     (s.shadowed ((0xA0008#32).toNat / 4 * 4)).isSome = true ∧ firstTurn s.entriesWaiting (fun k => s.entryRoom k s.matNext) = some (9 : Fin 65536).val ∧
     firstTurn s.secsWaiting (fun k => s.secRoom k (s.secStartFrame k)) = some (4 : Fin 16384).val) ∧
    (let s : State := { State.reset with xents := [(65545, { members := [], waiting := some 1 })] }
     firstTurn s.entriesWaiting (fun k => s.entryRoom k s.matNext) = some (65536 + (9 : Fin 4096).val)) ∧
    firstTurn [(4, 7), (2, 9), (2, 8)] (fun x => decide (x ≠ 8)) = some 9 ∧ (4 < 5) ∧
    (0 < 256 ∧ 255 < 256 ∧ 2 ^ 31 ≤ 2 ^ 31) ∧
    (let m : XMember := { feed := 1, inv := false, g0 := 5, g1 := 0, start := 0, len := 4, dying := true }
     let s : State := { atF State.reset 5 with
       xents := [(9, { members := [m], waiting := none }), (10, { members := [{ m with dying := false }], waiting := none })]
       sels := [(0xA0008, { fade := { base := 0, runs := [(1, 0, 5)] }, waiting := none })]
       secs := [(4, { fade := { base := { b0 := 0, b1 := 0, b2 := 0, a1 := 0, a2 := 0, st := none }, runs := [({ b0 := 1, b1 := 0, b2 := 0, a1 := 0, a2 := 0, st := none }, 0, 5)] }, waiting := none })] }
     ((s.xent (entryKey (.xpoint 9))).members.filter fun m => !(m.dying && decide (m.start + m.len ≤ s.now))) = [] ∧ (s.xent (entryKey (.xpoint 9))).waiting = none ∧
     ((s.xent (entryKey (.xpoint 10))).members.filter fun m => !(m.dying && decide (m.start + m.len ≤ s.now))) ≠ [] ∧
     (s.selector (0xA0008#32).toNat).fade.over s.now = true ∧ (s.sec (4 : Fin 16384).val).fade.over (s.secFrame 4) = true) := by
  decide

theorem witness_MatrixAndArrays :
    (let s : State := { c0 (atF State.reset 5) fun c => c with courses := Vector.replicate 8 { Course.reset with frame := 5 }, matFrame := some 4 }
     s.ticking = true ∧ (∀ m, s.matFrame = some m → m < s.now) ∧ s.matrixDue s.now = true ∧ s.gatedOff 8 = false ∧ Unarmed s ∧
     fld (s.tabGet (0x01110000 + 4 * (7 / 16))) 28 4 ≠ 5 ∧
     (let u : State := { s with eqSat := [(4, 77)] }
      u.eqSat = [(4, 77)] ∧ u.eqFrameDone 4 = true ∧ u.rbit regEQ_SAT_SEC 31 = false ∧ ({ u with regs := [(regEQ_SAT_SEC, 0x80000001#32)] } : State).rbit regEQ_SAT_SEC 31 = true)) := by
  refine ⟨rfl, ?_, by decide, by decide, by unfold Unarmed; decide, by decide, by decide⟩
  intro m h; cases h; decide

/-! ## Witnesses: commit, scenes, events, tasks and faults -/

/-- A queue entry with a header and its words. -/
def Tests.ent (h : Word) (ws : List Word) : PegEntry :=
  { master := 10, hdr := h, words := ws, pos := 0, skipped := false, recA := 0, recLeft := 0, crc := 0xFFFFFFFF#32, dir := [], loading := false, loaded := false, failed := false, ack := none }

/-- A state whose Peg queue holds one entry. -/
def Tests.peg (e : PegEntry) : State := { State.reset with pegQueue := [e] }

/-- A pending commit of all groups at frame `k`. -/
def Tests.cm (k : Nat) (f : Option (List (Nat × Word))) : Commit := { ticket := 1, mask := 0xFFFFFFFF#32, frame := k, fixed := f }

theorem witness_TableAndQueueWrites :
    (tabWord (0x01110000#32).toNat = some (.boot, 0xF00000FF#32) ∧ hostRefBit (0x01110000#32).toNat = some (regMIX_STATUS, 31)) ∧
    ((State.reset.shadowed (0x50100#32).toNat).isSome = true ∧ hostRefBit (0x50100#32).toNat = some (regPEG_STATUS, 31)) ∧
    ((0x01A30020#32).toNat = 0x01A30000 + 32 * 1 + 4 * 0 ∧ (0x01A30024#32).toNat = 0x01A30000 + 32 * 1 + 4 * 1 ∧ State.reset.partnerValid 1 = false ∧
      ({ State.reset with tab := [(partnerAddr 1 0, 0x80000000#32)] } : State).partnerValid 1 = true ∧ bit (0x80000000#32) 31 ≠ State.reset.partnerValid 1 ∧
      bit (0#32) 31 = State.reset.partnerValid 1 ∧ State.reset.ticking = false) ∧
    (State.reset.openEntry 10 = none ∧ State.reset.pegVerdict 10 0x20010000#32 = none ∧ hdrLen 0x20010000#32 ≠ 0) ∧
    (State.reset.pegVerdict 10 0x50000007#32 = none ∧ hdrLen 0x50000007#32 = 0) ∧
    (State.reset.pegClosed = false ∧ State.reset.pegVerdict 10 0#32 = some 28) ∧
    (({ State.reset with pegQueue := List.replicate 64 (ent 0x101F0000#32 []) } : State).pegVerdict 10 0x20010000#32 = some 30) ∧
    (let s : State := { State.reset with pegOpen := [{ master := 10, hdr := 0x10030000#32, words := [0x50100#32] }] }
     s.openEntry 10 = some { master := 10, hdr := 0x10030000#32, words := [0x50100#32] } ∧ 1 + 1 < hdrLen 0x10030000#32 ∧ hdrLen 0x10020000#32 ≤ 1 + 1) := by
  decide

theorem witness_PegWrites :
    (let e := ent 0x10020000#32 [0x50100#32, 5#32]
     let s := peg e
     s.pegQueue = [e] ∧ hdrOp e.hdr = 1 ∧ s.pegHalted = false ∧ e.words = 0x50100#32 :: [5#32] ∧ e.pos = 0 ∧
     (∀ i, i < ([5#32] : List Word).length → ∃ w, s.shadowed ((0x50100#32).toNat + 4 * i) = some w ∧ s.isSealed w.group = false ∧
       reservedShadow ((0x50100#32).toNat + 4 * i) (nthD [5#32] i 0) = false) ∧
     (let u : State := { s with commits := [cm 7 none] }
      u.shadowed (0x50100#32).toNat = some ⟨0, 0x00001FFF#32⟩ ∧ u.isSealed 0 = true)) := by
  refine ⟨rfl, by decide, by decide, rfl, rfl, ?_, by decide⟩
  intro i h
  have : i = 0 := by simp at h; exact h
  subst this
  exact ⟨⟨0, 0x00001FFF#32⟩, by decide⟩

theorem witness_CommitResolution :
    (let e := ent 0x20010000#32 [1#32]
     let s := peg e
     s.pegQueue = [e] ∧ hdrOp e.hdr = 2 ∧ hdrArg e.hdr % 4 = 0 ∧ s.pegHalted = false ∧ s.commitStalls (nthD e.words 0 0) = false ∧ e.ack = none ∧ s.forwards = false) ∧
    (let e := ent 0x60030009#32 [1#32, 5#32, 0#32]
     let s := peg e
     hdrOp e.hdr = 6 ∧ s.pegHalted = false ∧ s.commitStalls (nthD e.words 0 0) = false) := by
  decide

/-- DRAM region 3 at its second 256K words, with scene 2 of no words at offset 4,096 whose CRC is that of nothing. -/
def Tests.sScene (e : PegEntry) : State :=
  { peg e with regs := [(regDLY_PART 3, 0x00010001#32)], dram := memSetWord [] (0x40000 + 8) 0x80001000#32 }

theorem witness_RevertMarkAndScenes :
    (let r := ent 0x40010000#32 [1#32]
     hdrOp r.hdr = 4 ∧ nthD r.words 0 0 &&& (peg r).sealed = 0 ∧ nthD r.words 0 0 &&& ({ peg r with commits := [cm 7 none] } : State).sealed ≠ 0 ∧
     hdrOp (0x50000007#32) = 5 ∧ (peg (ent 0x50000007#32 [])).pegHalted = false) ∧
    (let e := ent 0x30000002#32 []
     let s := sScene e
     hdrOp e.hdr = 3 ∧ e.loaded = false ∧ e.loading = false ∧ s.pegHalted = false ∧ s.rbit regFAULT_INJCTRL 31 = false ∧ (peg e).sceneDirOk ((peg e).sceneEntry (sceneNo e.hdr)) = false ∧
     s.sceneDirOk (s.sceneEntry (sceneNo e.hdr)) = true ∧ e.recLeft = 0 ∧ (nthD (s.sceneEntry (sceneNo e.hdr)) 1 0).toNat ≤ e.pos) ∧
    (let l (h : Word) (crc : Word) : PegEntry := { ent h [] with loaded := true, dir := [0x80001000#32, 0, 1, crc] }
     let s (h : Word) (crc : Word) : State := sScene (l h crc)
     let quiet (h : Word) : Prop := hdrArg (l h 0).hdr / 16384 % 2 = 1 ∨ (l h 0).master = 11
     let good (e : PegEntry) : Prop := e.failed = false ∧ ~~~e.crc = nthD e.dir 3 0
     hdrOp (l 0x30000002#32 0).hdr = 3 ∧ (l 0x30000002#32 0).loaded = true ∧ quiet 0x30004002#32 ∧ ¬ quiet 0x30000002#32 ∧ good (l 0x30000002#32 0) ∧ ¬ good (l 0x30000002#32 7) ∧
     (s 0x30000002#32 0).commitStalls (nthD (l 0x30000002#32 0).dir 2 0) = false ∧
     ({ s 0x30000002#32 0 with commits := [cm 7 none] } : State).commitStalls (nthD (l 0x30000002#32 0).dir 2 0) = true ∧
     nthD (l 0x30000002#32 7).dir 2 0 &&& ({ s 0x30000002#32 7 with commits := [cm 7 none] } : State).sealed ≠ 0 ∧
     nthD (l 0x30000002#32 7).dir 2 0 &&& (s 0x30000002#32 7).sealed = 0 ∧ (l 0x30000002#32 7).ack = none ∧ (l 0x30000002#32 7).master < 16) := by
  decide

theorem witness_CommitTicks :
    (let s : State := { atF State.reset 5 with commits := [cm 6 none] }
     s.commits.find? (fun k => k.fixed.isNone && s.ticking && decide (k.frame ≤ s.now + 1)) = some (cm 6 none)) ∧
    (let f : List (Nat × Word) := [(0x50100, 5#32)]
     let s : State := { atF State.reset 6 with commits := [cm 6 (some f)] }
     s.commits.find? (fun c => c.fixed.isSome && s.ticking && decide (c.frame ≤ s.now)) = some (cm 6 (some f)) ∧ (f.map (·.1)).Nodup) := by
  decide

theorem witness_CancelAndLog :
    (let s : State := { atF State.reset 5 with commits := [cm 7 none] }
     s.forwards = false ∧ s.cancelTarget (fld 1#32 0 8) = some (cm 7 none) ∧ s.cancelTarget (fld 2#32 0 8) = none ∧ s.logHolds (cm 7 none) = false ∧
     ({ s with regs := [(regPEG_LOG 1 0, 1#32), (regPEG_LOG 1 1, 0xFFFFFFFF#32), (regPEG_LOG 1 2, 7#32)] } : State).logHolds (cm 7 none) = true) ∧
    ({ atF State.reset 6 with commits := [cm 7 none] } : State).cancelTarget 1 = none := by
  decide

/-- A token of source 96 for the next task of template 1. -/
def Tests.tok (src slot : Nat) : Token := { src := src, tmpl := 1, num := 3, slot := slot, val := 9 }

theorem witness_EventsAndTokens :
    ((96 : Nat) < 128 ∧ bit (State.reset.reg (regEVT_ROUTE 96)) 31 = false) ∧
    (let s : State := st [(regEVT_ROUTE 96, 0xC0010000#32)]
     bit (s.reg (regEVT_ROUTE 96)) 31 = true ∧ fld (s.reg (regEVT_ROUTE 96)) 29 2 = 2 ∧ (s.tokens.filter fun q => q.src == 96).length < 16 ∧
     16 ≤ (({ s with tokens := List.replicate 16 (tok 96 0) } : State).tokens.filter fun q => q.src == 96).length) ∧
    ((atF State.reset 96).ticking = true ∧ (atF State.reset 96).now % 96 = 0) ∧
    (let s (w : Word) (l : List StoreEntry) (src slot : Nat) : State := { State.reset with tab := [(0x01800010, w)], store := l, tokens := [tok src slot] }
     let e (o : Option Word) : StoreEntry := { key := 259, ops := [none, o], ready := none }
     let w : Word := 0x84000000#32
     Unarmed (s 0 [] 96 0) ∧ bit ((s 0 [] 96 0).tmpl 1 0) 31 = false ∧ fld ((s w [] 96 3).tmpl 1 0) 26 2 + 1 ≤ 3 ∧
     (s w [e none] 96 1).store.find? (fun d => decide (d.key = 259) && d.ready.isNone) = some (e none) ∧ (e none).ops[1]? = some none ∧ (e (some 4)).ops[1]? = some (some 4) ∧
     (s w [] 96 1).store.find? (fun d => decide (d.key = 259) && d.ready.isNone) = none ∧ (s w [] 96 1).storeRoom 0 = true ∧
     ({ s w [] 96 1 with regs := [(regEVT_CTRL, 0x0103FF00#32)], store := [e none] } : State).storeRoom 0 = false ∧ (tok 1 0).src = 1 ∧ ¬ ((tok 96 0).src = 1 ∨ (tok 96 0).src = 2)) := by
  unfold Unarmed; decide

theorem witness_Tasks :
    (let e : StoreEntry := { key := 259, ops := [some 7, some 8], ready := some 0 }
     let s : State := { c0 (st [(regEVT_CTRL, 1#32), (regC_CTRL 0, 2#32)]) fun c => { c with phase := .sleep } with tab := [(0x01800010, 0x84000010#32), (0x01800014, 1#32)], store := [e] }
     s.offers 0 = true ∧ s.bestFor 0 = some e ∧ (∀ k : CourseId, k < 0 → s.offers k = true → s.bestFor k = none) ∧ e.ops.length ≤ 4) ∧
    (let s (p : Phase) (b : Bool) : State := { c0 State.reset fun c => { c with phase := p, task := some { tag := 259, ticks := 3 }, bg := { c.bg with ended := b } } with tab := [(0x01800014, 0x00020001#32)] }
     ((s .back true).course 0).task = some { tag := 259, ticks := 3 } ∧ ((s .back true).course 0).bg.ended = true ∧ (∀ p ∈ ((s .back true).course 0).posted, p.x = .fg) ∧
     fld ((s .fore false).tmpl (259 / 256) 1) 16 8 ≠ 0 ∧ fld ((s .fore false).tmpl (259 / 256) 1) 16 8 < 3 ∧ ((s .fore false).course 0).phase ≠ .back ∧ (s .back false).asleep = false ∧ (s .fore false).asleep = false) ∧
    (st [(regGLOBAL_MODE, 0x10#32)]).asleep = true := by
  decide

theorem witness_FaultRaising :
    (5 : Nat) < 256 ∧ (st [(regFAULT_LATCH 0, 0x20#32)]).faultLatched 5 = true ∧ faultCourse 5 = none ∧ State.reset.faultLatched 5 = false ∧
    faultCourse 9 = some 1 ∧ bit ((st [(regFAULT_CFG 9, 0x107#32)]).reg (regFAULT_CFG 9)) 1 = true ∧ bit ((st [(regFAULT_CFG 9, 0x107#32)]).reg (regFAULT_CFG 9)) 8 = true ∧
    bit ((st [(regFAULT_CFG 9, 0x1#32)]).reg (regFAULT_CFG 9)) 8 = false ∧ State.reset.rbit regFAULT_FFR0 31 = false ∧
    (st [(regFAULT_FFR0, 0x80000000#32)]).rbit regFAULT_FFR0 31 = true := by
  decide

theorem witness_FaultsAndRegisters :
    (State.reset.rbit regFAULT_INJCTRL 31 = false ∧ fld (0x80150000#32) 16 5 ≤ 21 ∧ 21 < fld (0x80160000#32) 16 5) ∧
    ((st [(regFAULT_INJCTRL, 0x80010000#32)]).rbit regFAULT_INJCTRL 31 = true ∧ fld (0x80020000#32) 16 5 ≠ (st [(regFAULT_INJCTRL, 0x80010000#32)]).rfld regFAULT_INJCTRL 16 5) ∧
    (csrPath 10 = true ∧ csrPath 9 = false ∧ ((3 : Master).val ≤ 7 → State.reset.courseRatioBad = false) ∧ State.reset.deep = false ∧ State.reset.held = false ∧
      (st [(regGLOBAL_MODE, 0x20#32)]).deep = true ∧ State.reset.ratioBad 10 0x3001C = false ∧ (BitVec.ofNat 32 regEQ_STATUS).toNat < 0x01000000) ∧
    ((BitVec.ofNat 32 regEQ_STATUS).toNat / 0x10000 = 7 ∧ regEQ_STATUS % 4 = 0 ∧ (regInfo regEQ_STATUS).isSome = true ∧ shadowBits regEQ_STATUS = 0 ∧
      State.reset.reservedReg regEQ_STATUS 0xFFFFFFFF#32 = false) ∧
    (regInfo 0x7FF0 = none ∧ regInfo 0xA = none) ∧
    (rcBits 0x3001C ≠ 0 ∧ State.reset.live 0x3001C = none ∧ State.reset.openBits 0x3001C = 0 ∧ shadowBits 0x3001C = 0) := by
  decide

theorem witness_SnapshotsAndTests :
    ((st [(regSNAP_CTRL, 1#32)]).rbit regSNAP_CTRL 0 = true ∧ (st [(regSNAP_CTRL, 1#32)]).rbit (regTIME_CAPCFG 3) 30 = false) ∧
    (let s (l : List (Nat × Word)) : State := { atF (st l) 5 with snap := { pend := 1, held := some (1, List.replicate 64 0) } }
     (s []).ticking = true ∧ (s []).snap.pend ≠ 0 ∧ State.reset.snap.held = none ∧ (s []).snap.held = some (1, List.replicate 64 0) ∧ (s []).rbit regSNAP_STATUS 31 = false ∧
     (s [(regSNAP_CTRL, 0x20#32), (regSNAP_STATUS, 0x80000000#32)]).rbit regSNAP_STATUS 31 = true ∧
     (s [(regSNAP_CTRL, 0x20#32), (regSNAP_STATUS, 0x80000000#32)]).rbit regSNAP_CTRL 5 = true) ∧
    (let s : State := c0 (st [(regFAULT_SCRUB, 7#32)]) fun c => { c with phase := .sleep }
     s.rbit regFAULT_SCRUB (b2n true) = true ∧ s.rbit regFAULT_SCRUB (b2n false) = true ∧ s.rbit regFAULT_SCRUB 2 = true ∧ Unarmed s ∧ (s.course 0).phase = .sleep) ∧
    (testListed (fld (0x80000301#32) 0 4) (fld (0x80000301#32) 8 8) = true ∧ testListed (fld (0x80000901#32) 0 4) (fld (0x80000901#32) 8 8) = false ∧
     State.reset.test = none ∧ State.reset.testPermitted = false ∧ (st [(regGLOBAL_MODE, 0x10000#32)]).testPermitted = true) ∧
    ({ State.reset with test := some (1, 3, false) } : State).test = some (1, 3, false) := by
  unfold Unarmed; decide

/-! ## Witnesses: ports and the network -/

/-- Port 0 with a configuration in force, at frame 5. -/
def Tests.sPort (cfg : Word) (f : Port → Port) : State := (atF State.reset 5).setPort 0 (f { portReset with cfg := cfg })

theorem witness_PortSamples :
    (16 ∈ ([16, 24, 32] : List Nat)) ∧ (sPort 0#32 id).portOn 0 = false ∧ (List.replicate 32 (0 : Word)).length = 32 ∧
    (let u : State := { State.reset with tab := [(0x01900000, 0x10000003#32), (0x01900004, 0xA0000000#32)] }
     (u.asrcTakers 1 (32 * 0 + 3)).count 0 = 1 ∧ (∀ i, i < 32 → 1 ∉ u.asrcTakers 1 (32 * 0 + i))) ∧
    (let mst := sPort 0xC0200000#32 id
     mst.portOn 0 = true ∧ cfgMaster (mst.port 0).cfg = true ∧ mst.portValid 0 = true ∧ mst.ticking = true ∧ (mst.port 0).sent = none ∧ mst.ownCur = false ∧
     (let late := sPort 0xC0200000#32 fun p => { p with sent := some 5 }
      (late.port 0).sent = some 5 ∧ late.now ≤ 5 ∧ late.portValid 0 = true ∧ bit (late.port 0).cfg 16 = false)) ∧
    (let slv (f : Port → Port) : State := { sPort 0x80200000#32 f with regs := [(regTDM_STAT 0, 0x80000000#32)] }
     let full (n : Nat) (p : Port) : Port := { p with buf := { p.buf with held := List.replicate n (3, [7]), begun := true }, sent := some 4 }
     (sPort 0x80200000#32 id).portOn 0 = true ∧ cfgMaster ((slv id).port 0).cfg = false ∧ (sPort 0x80200000#32 id).portValid 0 = false ∧
     (slv id).portOn 0 = true ∧ (slv id).portValid 0 = true ∧ ((slv id).port 0).buf.held.length < 2 ∧ 2 ≤ ((slv (full 2)).port 0).buf.held.length ∧ bit ((slv id).port 0).cfg 16 = false ∧
     ((slv (full 1)).port 0).buf.held = (3, [7]) :: [] ∧ ((slv (full 0)).port 0).buf.held = [] ∧ ((slv (full 0)).port 0).buf.begun = true ∧
     ((slv (full 1)).port 0).sent = some 4 ∧ 4 < (slv (full 1)).now ∧ 4 + 1 = (slv (full 1)).now ∧
     ((slv fun p => { p with sent := some 3 }).port 0).sent = some 3 ∧ 3 + 1 < (slv id).now ∧ ((slv fun p => { p with sent := some 5 }).port 0).sent = some 5 ∧ (slv id).now ≤ 5) ∧
    (let cnv : State := { sPort 0x80210000#32 fun p => { p with sent := some 5 } with regs := [(regTDM_STAT 0, 0x80000000#32)] }
     bit (cnv.port 0).cfg 16 = true ∧ cnv.portOn 0 = true ∧ cnv.portValid 0 = true ∧ (cnv.port 0).sent = some 5 ∧ cfgMaster (cnv.port 0).cfg = false) ∧
    (let s := sPort 0x80200000#32 fun p => { p with levOut := List.replicate 32 64 }
     cfgSlots (s.port 0).cfg ≤ 1 ∧ 0 < cfgSlots (s.port 0).cfg ∧ stepTo (nthD (s.port 0).levOut 0 0) 64 ≠ 0 ∧
     stepTo (nthD (s.port 0).levOut 0 0) (if bit (s.tabGet (regTDM_MASKOUT 0)) 0 then 64 else 0) ≠ 0 ∧ s.asrcDriver 1 (32 * 0 + 0) = none ∧
     (let d : State := { s with tab := [(0x01900000, 0x90000000#32), (0x01900004, 0x80000000#32)] }
      d.asrcDriver 1 (32 * 0 + 0) = some 0 ∧ stepTo (nthD (d.port 0).levOut 0 0) (if bit (d.tabGet (regTDM_MASKOUT 0)) 0 then 64 else 0) ≠ 0)) ∧
    (64 : Nat) ≤ 64 ∧ (0 : Nat) ≤ 64 := by
  decide

theorem witness_PortClocks :
    let slv (l : List (Nat × Word)) (f : Port → Port) : State := { sPort 0x80200000#32 f with regs := l }
    let ok := slv [(regTDM_STAT 0, 0x80000000#32)] id
    (ok.portSlave 0 = true ∧ ok.portValid 0 = true) ∧
    ((slv [] id).portSlave 0 = true ∧ (slv [] id).portValid 0 = false ∧ bit ((slv [] id).port 0).cfg 16 = false ∧ (slv [] id).nearFi (48000#18).toNat = false ∧
      (slv [] id).nearFi (96000#18).toNat = true) ∧
    (State.reset.reg (regTDM_CFG 0) &&& ~~~0xFFFF8000#32 ||| (0x80200000#32 &&& 0xFFFF8000#32) ≠ State.reset.reg (regTDM_CFG 0) ∧ State.reset.portSlave 0 = false ∧
      (State.reset.reg (regTDM_CFG 0) &&& ~~~0xFFFF8000#32) ||| (0#32 &&& 0xFFFF8000#32) = State.reset.reg (regTDM_CFG 0) ∧
      (ok.reg (regTDM_CFG 0) &&& ~~~0xFFFF8000#32) ||| (0xC0200000#32 &&& 0xFFFF8000#32) ≠ ok.reg (regTDM_CFG 0)) ∧
    ((slv [] fun p => { p with restart := true }).port 0).restart = true ∧ ((slv [] id).port 0).restart = false := by
  decide

/-- Channel 0 of the converters on receiver 0, in use. -/
def Tests.asrcTab : List (Nat × Word) := [(0x01900000, 0x20000000#32), (0x01900004, 0x80000000#32)]

theorem witness_AesAndConverters :
    (let s (l : List (Nat × Word)) : State := st l
     let on : Nat × Word := (regAES_RXCTRL 0, 0x80000000#32)
     (s [on]).rxOn 0 = true ∧ (s [on]).rxValid 0 = false ∧ (s [on]).rxDirect = false ∧ aesRateOk (20000#18).toNat = false ∧ aesRateOk (96000#18).toNat = true ∧
     (s [on]).nearFi (48000#18).toNat = false ∧ (s [on]).nearFi (96000#18).toNat = true ∧
     ({ s [on, (regAES_RXSTAT 0, 0x80000000#32)] with tab := [(0x01110000, 0x20000000#32)] } : State).rxValid 0 = true ∧
     ({ s [on] with tab := [(0x01110000, 0x20000000#32)] } : State).rxDirect = true ∧
     (bit ((1#192).extractLsb' 0 32) 0 = true ∧ csCrc (blockBytes 1#192) ≠ (1#192).extractLsb' 184 8 ∧ bit ((0#192).extractLsb' 0 32) 0 = false) ∧
     (s [on]).reg (regAES_RXCS 0 0) ≠ (2#192).extractLsb' (32 * 0) 32 ∧
     (let u : State := { s [(regAES_RXSTAT 0, 0x10000000#32)] with rxs := Vector.replicate 4 { buf := bufReset, lev := 0, last := [0, 0], sinceBurst := none, absent := 8192 } }
      u.rbit (regAES_RXSTAT 0) 28 = true ∧ u.csNonAudio 0 = false ∧ u.burstNonAudio 0 = false ∧ 8192 ≤ (u.rx 0).absent)) ∧
    (let s := st [(regAES_TXCTRL 0, 0x80000000#32)]
     s.rbit (regAES_TXCTRL 0) 31 = true ∧ s.txRate 0 = 0 ∧ (st [(regAES_TXCTRL 0, 0x90000000#32)]).txRate 0 ≠ 0 ∧ (st [(regAES_TXCTRL 0, 0x90000000#32)]).rbit (regAES_TXCTRL 0) 31 = true) ∧
    (let s (l : List (Nat × Word)) : State := { st l with tab := asrcTab }
     let v : Nat × Word := (regAES_RXSTAT 0, 0x80000000#32)
     (s [v]).asrcUsed 0 = true ∧ (s [v]).asrcLocked 0 = false ∧ (s [v]).asrcEndpointValid 0 = true ∧ (s [v]).asrcRateOk (48000#18).toNat = true ∧ (s [v]).asrcMode 0 ≠ 1 ∧
     (s [v]).asrcRateOk (200000#18).toNat = false ∧ (s [(regASRC_CHSTAT 0, 0x80000000#32)]).asrcLocked 0 = true ∧
     (let n : State := { s [(regTIME_STAT 0, 0x81#32), (regASRC_CHSTAT 0, 0x80000000#32)] with tab := [(0x01900000, 0x40000000#32), (0x01900004, 0xA0000000#32)] }
      let lost : State := { n with regs := [(regASRC_CHSTAT 0, 0x80000000#32)] }
      n.asrcMode 0 = 1 ∧ n.tbAnchored (fld (n.asrcWord 0 1) 24 2) = true ∧ n.asrcLocked 0 = true ∧ n.unlockDue 0 .drift = true ∧ n.unlockDue 0 .anchor = false ∧
      lost.tbAnchored (lost.asrcTb 0) = false ∧ lost.unlockDue 0 .anchor = true) ∧
     (s [(regASRC_CHSTAT 0, 0x80000000#32)]).asrcEndpointValid 0 = false ∧ (s [v, (regASRC_CHSTAT 0, 0x80000000#32)]).asrcLocked 0 = true) := by
  decide +kernel

/-- A frame of 60 bytes without FCS to the broadcast address with an EtherType, and with its FCS. -/
def Tests.frm (hi lo : Byte) : List Byte := List.replicate 6 0xFF#8 ++ List.replicate 6 1#8 ++ [hi, lo] ++ List.replicate 46 0#8
def Tests.wired (bs : List Byte) : List Byte := bs ++ bytesLE (crc32 bs)
/-- The same with two bytes at the head of its body. -/
def Tests.frm2 (hi lo b0 b1 : Byte) : List Byte := List.replicate 6 0xFF#8 ++ List.replicate 6 1#8 ++ [hi, lo, b0, b1] ++ List.replicate 44 0#8

theorem witness_PathsAndFrames :
    ((st [(regNET_PSTAT 0, 0x80000000#32)]).rbit (regNET_PSTAT 0) 31 = true ∧ State.reset.rbit (regNET_PSTAT 0) 31 = false ∧ State.reset.pathMode 0 = 0 ∧
      (st [(regNET_PCTRL 0, 1#32)]).pathMode 0 ≠ 0 ∧ (st [(regNET_PCTRL 0, 5#32)]).pathMode 0 = 1 ∧ (st [(regNET_PCTRL 0, 5#32)]).rbit (regNET_PCTRL 0) 2 = true ∧
      (State.reset.setReg (regNET_PCTRL 0) (1#32 &&& 7#32)).pathMode 0 ≠ State.reset.pathMode 0) ∧
    (let s (q : Word) : State := { st [(regNET_PSTAT 0, 0x80000000#32)] with tab := [(0x01A40000, q)] }
     let good (f : List Byte) : Prop := 64 ≤ f.length ∧ f.length ≤ 1522 ∧ f.drop (f.length - 4) = bytesLE (crc32 (f.take (f.length - 4))) ∧ (viewFrame (f.take (f.length - 4))).tag2 = false
     let f := wired (frm 0x12 0x34)
     let p := wired (frm2 0x88 0x08 0 1)
     let a := wired (frm2 0x22 0xF0 2 0)
     let v := rxStart [0xE6000000#32, 0, 0, 0, 0, 0, 0]
     (s 0).pathAwake 0 = true ∧ State.reset.pathAwake 0 = false ∧ (s 0).netOn = true ∧ good f ∧ ¬ good (frm 0x12 0x34) ∧ good p ∧
     isPause (viewFrame (p.take (p.length - 4))) (p.take (p.length - 4)) = true ∧ isPause (viewFrame (f.take (f.length - 4))) (f.take (f.length - 4)) = false ∧
     (let k : State := st [(regNET_DEVID_LO, 0#32), (regNET_DEVID_HI, 0#32), (regNET_PMACLO 0, 0#32), (regNET_PMACHI 0, 0#32)]
      k.wakeFrame 0 (wired (frm 0x88 0xB5)) = true) ∧ (s 0).wakeFrame 0 f = false ∧ (s 0).addressed 0 (f.take (f.length - 4)) = true ∧
     (s 0).addressed 0 (2#8 :: List.replicate 59 0#8) = false ∧ (s 0).matchFlow (viewFrame (f.take (f.length - 4))) (f.take (f.length - 4)) 0 = none ∧
     good a ∧ ({ s 0 with rxFlows := [(3, v)] } : State).matchFlow (viewFrame (a.take (a.length - 4))) (a.take (a.length - 4)) 0 = some (3, v) ∧
     (s 0xB4050000#32).ruleMatches 0 0 (viewFrame (f.take (f.length - 4))) = true ∧ (∀ q, q < 64 → (s 0).ruleMatches q 0 (viewFrame (f.take (f.length - 4))) = false)) := by
  decide +kernel

theorem witness_Flows :
    let ws : List Word := [0xE4000000#32, 0, 0, 0, 0, 0, 0]
    let v : RxFlow := rxStart ws
    let slow : RxFlow := rxStart [0xE0000000#32, 0, 0, 0, 0, 0, 0]
    let s : State := { atF (st [(regTIME_STAT 0, 0x81#32)]) 5 with anchors := [(0, { ns := 0, frame := 0 })] }
    let smp : List (List Word) := List.replicate 12 [1#32]
    let p (t : Nat) : Packet := { seq := 1, ts := t, samples := some smp }
    let w : CopyWait := { seq := 1, ts := 20, pathB := false, wanted := true, frame := 4 }
    let frames (x : RxFlow) (t : Nat) : List Int := (s.packetTimes x.words (0, 0) (p t)).map (s.captureFrame x.words (0, 0))
    let same (e : CopyWait) : Bool := decide (e.seq = 1) && decide (e.ts = 20)
    (({ seq := 1, ts := 0, samples := none } : Packet).samples = none) ∧
    ((p 20).samples = some smp ∧ fwRate v.words = s.fi ∧ fwRate slow.words ≠ s.fi ∧ s.flowAnchor (fwTb v.words) = some (0, 0) ∧ (atF State.reset 5).flowAnchor (fwTb v.words) = none ∧
      v.waits.find? same = none ∧ (frames v 0).headD 0 ≤ s.now ∧ (s.now : Int) < (frames v 20).headD 0 ∧ (frames v 20).headD 0 ≤ s.now + 8191 ∧
      (s.now : Int) + 8191 < (frames v 9000).headD 0 ∧ (∀ k ∈ frames v 20, ∀ e ∈ v.buf, e.1 ≠ k) ∧
      (s.now : Int) < (frames slow 20).headD 0 ∧ (frames slow 20).headD 0 ≤ s.now + 8191) ∧
    (fwPaths v.words = 3 ∧ fwPaths (rxStart [0xA4000000#32]).words ≠ 3 ∧ v.single = false ∧
      ([w].filter fun e => e.wanted || decide (s.now < e.frame + copyMemory)).find? same = some w ∧ w.wanted = true ∧ w.pathB ≠ true ∧
      ({ w with wanted := false } : CopyWait).wanted = false ∧ v.goodRun < 63 ∧ ({ v with single := true, goodRun := 63 } : RxFlow).single = true) ∧
    (v.run = true ∧ v.concealed = true ∧ v.buf.find? (fun e => decide (e.1 = 6)) = none ∧
      ({ v with buf := [(6, 1, [1#32])] } : RxFlow).buf.find? (fun e => decide (e.1 = 6)) = some (6, 1, [1#32])) ∧
    (let u (x : RxFlow) : State := { s with rxFlows := [(0, x)] }
     let gone : RxFlow := { v with leaving := true }
     mapFind (u { v with waits := [w] }).rxFlows 0 = some { v with waits := [w] } ∧ [w].find? (fun e => e.wanted) = some w ∧ 64 ≤ ({ v with missRunB := 63 } : RxFlow).missRunB + 1 ∧
     v.missRunA + 1 < 64 ∧ mapFind (u gone).rxFlows 0 = some gone ∧ gone.run = true ∧ gone.level = 0 ∧ gone.leaving = true ∧ v.leaving = false ∧ (u gone).flowEnabled 0 0 = false ∧
     ({ u { gone with off := true } with tab := [(0x01A00004, 0x80000000#32)] } : State).flowEnabled 0 0 = true) ∧
    (let x := txStart ws
     let gone : TxFlow := { x with leaving := true, off := true }
     let u : State := { s with txFlows := [(0, gone)] }
     mapFind u.txFlows 0 = some gone ∧ gone.run = true ∧ gone.level = 0 ∧ gone.leaving = true ∧ x.leaving = false ∧ u.flowEnabled 1 0 = false ∧
     ({ u with tab := [(0x01A10004, 0x80000000#32)] } : State).flowEnabled 1 0 = true) := by
  decide +kernel

theorem witness_StreamLaunch :
    let v := txStart [0xE4000000#32, 0, 0, 0, 0, 0, 0]
    let s : State := { atF (st [(regTIME_STAT 0, 0x81#32), (regNET_PSTAT 0, 0x80000000#32)]) 12 with anchors := [(0, { ns := 0, frame := 0 })], txFlows := [(0, v)], ownPrev := true }
    mapFind s.txFlows 0 = some v ∧ v.run = true ∧ s.now ≠ 0 ∧ s.gatedOff 14 = false ∧ s.packetStart v (s.now - 1) = some 0 ∧ v.launched ≠ some 0 ∧
    ({ v with launched := some 0 } : TxFlow).launched = some 0 ∧ s.packetStart v (s.now - 2) = none ∧ fwRate v.words = s.fi ∧ s.ownPrev = true ∧ State.reset.ownPrev = false ∧
    (decide (fwPaths v.words / 2 ^ 0 % 2 = 1) && s.rbit (regNET_PSTAT 0) 31) = true ∧ (decide (fwPaths v.words / 2 ^ 1 % 2 = 1) && s.rbit (regNET_PSTAT 1) 31) = false := by
  decide +kernel

/-- Ring `r` on both paths with a base in region 1, TAIL 1, and a descriptor with the words `w0` to `w2`. -/
def Tests.sRing (r : Nat) (w0 w2 : Word) : State :=
  { st [(regDLY_PART 1, 0x00010001#32), (regNET_PSTAT 0, 0x80000000#32), (regNET_RINGCFG r, 0xE0000004#32), (regNET_RINGBASE r, 0x80040000#32), (regNET_RINGTAIL r, 1#32)] with
    dram := memSetWord (memSetWord (memSetWord [] 0x40000 w0) 0x40001 0x80040100#32) 0x40002 w2 }

/-- A ring in scratch bank 5, whose handover to the ring DMA waits for a posted write of Course 0. -/
def Tests.sBusyBank : State :=
  { c0 (st [(regNET_PSTAT 0, 0x80000000#32), (regNET_RINGCFG 0, 0xE0000004#32), (regNET_RINGBASE 0, 0x00450000#32), (regNET_RINGTAIL 0, 1#32), (regSCR_OWN 5, 0x80000000#32)])
      (fun c => { c with posted := [{ pFar with req := { port := .scratch 5, view := .plain, addrs := [0x00450000] } }] }) with
    newOwner := [(5, 8)] }

theorem witness_StreamRings :
    (let s (w : Word) : State := sRing 0 w 0
     let u (w : Word) : State := (s w).dmaReach ((s w).ringDesc 0) 8
     (s 0).netOn = true ∧ (s 0).rbit regFAULT_INJCTRL 31 = false ∧ (u 0).rbit regFAULT_INJCTRL 31 = false ∧ (s 0).ringOn 0 = true ∧ (s 0).ringHead 0 ≠ (s 0).ringTail 0 ∧ (s 0).ringHeld 0 = none ∧ (u 0).dmaWaits ((s 0).ringDesc 0) = false ∧
     (u 0).dmaWaits ((s 0).dmaWord ((s 0).ringDesc 0 + 1)).toNat = false ∧
     ((sBusyBank.dmaReach (sBusyBank.ringDesc 0) 8).dmaWaits (sBusyBank.ringDesc 0) = true ∧ sBusyBank.ringOn 0 = true ∧ sBusyBank.netOn = true ∧ sBusyBank.ringHeld 0 = none) ∧
     (u 0).dmaBad ((s 0).ringDesc 0) 8 false = none ∧
     (let bad : State := sRing 0 0 0 |>.setReg (regNET_RINGBASE 0) 0x80000000#32
      (bad.dmaReach (bad.ringDesc 0) 8).dmaBad (bad.ringDesc 0) 8 false = some 0x80000000) ∧
     bit ((s 0).dmaWord ((s 0).ringDesc 0)) 31 = false ∧
     (bit ((s 0xC0000040#32).dmaWord ((s 0).ringDesc 0)) 31 = true ∧ bit ((s 0xC0000040#32).dmaWord ((s 0).ringDesc 0)) 30 = true ∧
       14 ≤ fld ((s 0xC0000040#32).dmaWord ((s 0).ringDesc 0)) 0 16 ∧ fld ((s 0xC0000040#32).dmaWord ((s 0).ringDesc 0)) 0 16 ≤ 1518 ∧
       (((u 0xC0000040#32).dmaTouch ((s 0).ringDesc 0) 8).tbPass 0).launchLate ((s 0).ringDesc 0) 0 = true ∧
       (let l : State := { u 0xC0000040#32 with timing := { (u 0).timing with seen := [0] } }
        ((l.dmaTouch ((s 0).ringDesc 0) 8).tbPass 0).launchLate ((s 0).ringDesc 0) 0 = false)) ∧
     (let w := 0x90000040#32
      let d := (s w).ringDesc 0
      let buf := ((s w).dmaWord (d + 1)).toNat
      let t := (s w).dmaReach buf 16
      bit ((s w).dmaWord d) 31 = true ∧ bit ((s w).dmaWord d) 30 = false ∧ fld ((s w).dmaWord d) 0 16 = 64 ∧ t.dmaBad buf 16 false = none ∧ t.dmaBad d 8 true = none ∧
      bit ((s w).dmaWord d) 27 = false ∧ bit ((s w).dmaWord d) 29 = false ∧ bit ((s w).dmaWord d) 28 = true) ∧
     (let h : State := { s 0xC0000040#32 with ringHold := [(0, 0x80040000)] }
      let at_ := h.launchTime 0x80040000 0 - max (h.txDelay 0) (h.txDelay 1)
      h.ringHeld 0 = some 0x80040000 ∧ at_ ≤ h.tbNs 0 ∧ h.netOn = true ∧ h.tbOn 0 = false ∧
      (let g : State := { sRing 0 0xC0000040#32 5 with ringHold := [(0, 0x80040000)] }
       g.tbNs 0 < g.launchTime 0x80040000 0 - max (g.txDelay 0) (g.txDelay 1) ∧ g.tbOn 0 = false ∧ ({ g with regs := g.regs ++ [(regTIME_CFG 0, 0x80000000#32)] } : State).tbOn 0 = true))) ∧
    (let s := sRing 40 0xC0000000#32 64
     let d := s.ringDesc 40
     let buf := (s.dmaWord (d + 1)).toNat
     let u := (s.dmaReach d 8).dmaReach buf 1
     s.rbit regFAULT_INJCTRL 31 = false ∧ s.ringOn 40 = true ∧ s.ringHead 40 ≠ s.ringTail 40 ∧ (s.dmaReach d 8).dmaBad d 8 false = none ∧ bit (s.dmaWord d) 31 = true ∧ u.dmaBad buf 1 true = none ∧
     u.dmaBad d 8 true = none ∧ (∀ i, i < 1 → buf + i < d ∨ d + 8 ≤ buf + i) ∧ bit (s.dmaWord d) 30 = true ∧
     (([1, 2, 3] : List Byte).take (fld (s.dmaWord (d + 2)) 0 16)).length + 3 = 6 ∧ State.reset.ringOn 40 = false) := by
  decide +kernel

/-- A message of a type with a body, from another module. -/
def Tests.msg (type : Nat) (body : List Byte) : List Byte := delronMsg 0x200000002#64 type 7 body

/-- Frames run, and the SPI host port has placed a message in the inbound slot. -/
def Tests.inbox (m : List Byte) : State := (atF State.reset 5).writeSlot inSlot m

theorem witness_DelronRequests :
    (State.reset.ticking = false ∧ (inbox (msg 0x10 [])).ticking = true ∧ (inbox (msg 0x10 [])).delronHere .spi (msg 0x10 []) = true ∧
      State.reset.delronHere .spi (msg 0x10 []) = false ∧ State.reset.delronHere (.net 1 2) [] = true ∧ delronParse [] = none ∧ delronParse (msg 0x10 [] ++ [0]) = none ∧
      delronParse (msg 0x55 []) = some { type := 0x55, seq := 7, sender := 0x200000002#64, body := [] } ∧ 0x55 ∉ delronTypes ∧ delronAllowed .spi = true) ∧
    (let read : List Byte := [0, 0, 0, 0, 0, 1, 0, 0]
     let write : List Byte := [0, 0, 0, 0, 0, 1, 0, 0, 1, 2, 3, 4]
     let peg : List Byte := [0x20, 1, 0, 0, 0, 0, 0, 1]
     let scene : List Byte := List.replicate 16 0
     (∀ b ∈ [read, write, peg, scene, []], ∀ t ∈ [0x10, 0x12, 0x14, 0x20, 0x30], delronParse (msg t b) = some { type := t, seq := 7, sender := 0x200000002#64, body := b }) ∧
     (read.length = 8 ∧ numAt read 4 2 = 1) ∧ (write.length = 8 + 4 * numAt write 4 2 ∧ numAt write 4 2 = 1) ∧ numAt peg 4 2 = 0 ∧
     (let u := (inbox (msg 0x14 peg)).delronTake .spi
      let h : Word := BitVec.ofNat 32 (numAt peg 0 4)
      u.standby = false ∧ u.pegClosed = false ∧ hdrOk h = true ∧ peg.length = 4 * (hdrLen h + 1) ∧ scene.length ≠ 4 * (hdrLen (BitVec.ofNat 32 (numAt scene 0 4)) + 1) ∧ hdrSpace h ≤ u.pegFree ∧
      ({ u with pairEn := true, regs := [(regPAIR_STATUS, 0x00300000#32)] } : State).pegClosed = true ∧
      (let full : State := { u with pegQueue := List.replicate 64 (ent 0x101F0000#32 []) }
       full.pegFree < hdrSpace h ∧ (full.sceneWords 0 0 0).2.pegFree < hdrSpace (BitVec.ofNat 32 0x30000000)) ∧
      hdrSpace (BitVec.ofNat 32 0x30000000) ≤ (u.sceneWords 0 0 0).2.pegFree) ∧
     (scene.length = 16 ∧ numAt scene 0 2 < 1024 ∧ numAt scene 2 1 < 3 ∧ numAt scene 3 1 < 4)) ∧
    (State.reset.outWait = [] ∧ State.reset.tabGet (outSlot State.reset.outFill) = 0 ∧ ({ State.reset with outWait := List.replicate 16 [] } : State).outWait.length = 16 ∧
      ({ State.reset with tab := [(outSlot 0, 20#32)] } : State).tabGet (outSlot State.reset.outFill) ≠ 0) := by
  decide +kernel

/-- The body of an announcement without flows. -/
def Tests.annBody : List Byte := List.replicate 56 0

theorem witness_DelronRollCall :
    let s (l : List (Nat × Word)) : State := { atF (st [(regNET_DEVID_HI, 1#32), (regNET_DEVID_LO, 1#32), (regNET_PSTAT 0, 0x80000000#32)]) 5 with tab := l }
    let one : List (Nat × Word) := [(partnerAddr 0 0, 0x80000000#32), (partnerAddr 0 1, 2#32), (partnerAddr 0 2, 2#32)]
    let m (t : Nat) : DelronMsg := { type := t, seq := 7, sender := 0x200000002#64, body := annBody }
    (s []).ticking = true ∧ (s []).conns = [] ∧ (∀ u, u < 256 → bit ((s []).connRule u 0) 31 = false) ∧ delronParse [] = none ∧ delronParse (msg 0x01 annBody) = some (m 0x01) ∧
    delronParse (msg 0x02 annBody) = some (m 0x02) ∧ (m 0x01).sender ≠ (s []).devId ∧ (m 0x01).announce.isSome = true ∧ ({ m 0x01 with body := [] } : DelronMsg).announce = none ∧
    (∀ b, (m 0x01).announce = some b → b.flows.length ≤ 64) ∧ (s one).partnerOf 0x200000002#64 = some (0 : Fin 512).val ∧
    ((s []).partnerOf 0x200000002#64 = none ∧ (s []).partnerValid 0 = false) ∧ (s one).partnerValid 0 = true ∧ (s []).rbit (regNET_PSTAT 0) 31 = true ∧
    ({ s [] with regs := [] } : State).rbit (regNET_PSTAT 0) 31 = false ∧ (inbox (msg 0x02 [])).delronHere .spi (msg 0x02 []) = true := by
  refine ⟨by decide +kernel, by decide +kernel, by decide +kernel, by decide +kernel, by decide +kernel, by decide +kernel, by decide +kernel, by decide +kernel, by decide +kernel, ?_,
    by decide +kernel⟩
  intro b h
  have e : b.flows = [] := by
    have : ((({ type := 0x01, seq := 7, sender := 0x200000002#64, body := annBody } : DelronMsg).announce).map Announce.flows) = some [] := by decide +kernel
    rw [h] at this
    exact Option.some.inj this
  rw [e]; decide

/-- A partner table that is full. -/
def Tests.fullTable : List (Nat × Word) := (List.range 512).map fun p => (partnerAddr p 0, 0x80000000#32)

theorem Tests.find_map_partner (l : List Nat) (q : Nat) (h : q ∈ l) :
    mapFind (l.map fun p => (partnerAddr p 0, 0x80000000#32)) (partnerAddr q 0) = some 0x80000000#32 := by
  induction l with
  | nil => simp at h
  | cons x t ih =>
    simp only [List.map_cons, mapFind]
    split
    · rfl
    · rename_i hx
      exact ih ((List.mem_cons.1 h).resolve_left fun e => hx (by rw [e]))

theorem Tests.find_map_sender (l : List Nat) (q : Nat) : mapFind (l.map fun p => (partnerAddr p 0, 0x80000000#32)) (partnerAddr q 1) = none := by
  induction l with
  | nil => rfl
  | cons x t ih =>
    simp only [List.map_cons, mapFind]
    split
    · rename_i hx; simp only [partnerAddr] at hx; omega
    · exact ih

theorem witness_DelronRollCall_full :
    let s : State := { State.reset with tab := fullTable }
    s.partnerOf 0x200000002#64 = none ∧ ∀ q, q < 512 → s.partnerValid q = true := by
  have d (p : Nat) : tabDefault (partnerAddr p 1) = 0 := if_neg (by simp only [partnerAddr]; omega)
  have w (p : Nat) : ({ State.reset with tab := fullTable } : State).tabGet (partnerAddr p 1) = 0 := by
    rw [State.tabGet, mapGet, fullTable, find_map_sender, Option.getD_none, d]
  refine ⟨List.find?_eq_none.2 fun p _ => ?_, fun q h => ?_⟩
  · rw [w]; simp; exact fun _ h => absurd h (by decide)
  · rw [State.partnerValid, State.tabGet, mapGet, fullTable, find_map_partner _ q (List.mem_range.2 h), Option.getD_some]; decide

/-! ## Witnesses: time, references, clocks and power -/

theorem witness_TimeBases :
    let s (l : List (Nat × Word)) : State := atF (st l) 5
    ((s []).tbState 0 = 0 ∧ (s [(regTIME_STAT 0, 1#32)]).tbState 0 = 1 ∧ (s [(regTIME_STAT 0, 2#32)]).tbState 0 = 2 ∧ (s [(regTIME_STAT 0, 1#32)]).rbit (regTIME_STAT 0) 5 = false ∧
      (st [(regTIME_CFG 0, 1#32), (regTIME_STAT 0, 1#32)]).rfld (regTIME_CFG 0) 0 8 ≠ 0 ∧ (s []).rbit (regTIME_CFG 0) 31 = false ∧ (s [(regTIME_CFG 0, 0x80000000#32)]).rbit (regTIME_CFG 0) 31 = true ∧
      ((s []).tbNs 0 / 1000000000 < 1) ∧ (∀ e ∈ (s []).timing.aligns, e.1 ≠ 0) ∧ bit (0#32) 31 = false ∧ bit (0x80000000#32) 31 = true) ∧
    (mapFind ({ s [] with anchors := [(0, { ns := 7, frame := 3 })] } : State).anchors 0 = some { ns := 7, frame := 3 } ∧ mapFind (s []).anchors 0 = none) ∧
    (let g := s [(regTIME_STAT 0, 1#32), (regTIME_CFG 0, 0x80000000#32)]
     g.ticking = true ∧ g.rbit (regTIME_CFG 0) 31 = true ∧ g.tbState 0 = 1) ∧
    ((s [(regTIME_ALM_CTRL 0 0, 0x80000000#32)]).rbit (regTIME_ALM_CTRL 0 0) 31 = true ∧ (s []).rbit (regTIME_ALM_CTRL 0 0) 31 = false ∧
      (s []).alarmNs 0 0 ≤ (s []).tbNs 0 ∧ (s [(regTIME_ALM_NS 0 0, 5#32)]).tbNs 0 < (s [(regTIME_ALM_NS 0 0, 5#32)]).alarmNs 0 0 ∧
      (s [(regSNAP_CTRL, 2#32), (regTIME_ALM_CTRL 0 0, 0x80000000#32)]).rbit regSNAP_CTRL 1 = true ∧ (s [(regSNAP_CTRL, 2#32)]).rfld regSNAP_CTRL 2 2 = 0 ∧ (s [(regSNAP_CTRL, 2#32)]).rfld regSNAP_CTRL 4 1 = 0 ∧
      (s [(regTIME_ALM_NS 0 0, 5#32)]).rbit (regTIME_CFG 0) 31 = false ∧ ((s []).tbPass 0).tbNs 0 < ((s [(regTIME_ALM_NS 0 0, 5#32)]).tbPass 0).alarmNs 0 0) ∧
    (let c : State := s [(regTIME_CAPCFG 0, 0x80000002#32), (regTIME_CAPSTAT, 1#32)]
     bit (c.reg (regTIME_CAPCFG 0)) 31 = true ∧ bit (c.reg (regTIME_CAPCFG 0)) 30 = false ∧ (mapFind c.capCnt 0).getD 0 + 1 < max 1 (fld (c.reg (regTIME_CAPCFG 0)) 0 16) ∧
     max 1 (fld (c.reg (regTIME_CAPCFG 0)) 0 16) ≤ (mapFind ({ c with capCnt := [(0, 1)] } : State).capCnt 0).getD 0 + 1 ∧ c.rbit regTIME_CAPSTAT 0 = true ∧
     bit ((s []).reg (regTIME_CAPCFG 0)) 31 = false) := by
  decide +kernel

/-- Slot 0 in a state, of a type. -/
def Tests.slot (k typ : Nat) (l : List (Nat × Word)) : State := st ((regREF_SLOTCFG 0, BitVec.ofNat 32 (0x80000000 + typ * 2 ^ 28)) :: (regREF_SLOTSTAT 0, BitVec.ofNat 32 (k * 2 ^ 29)) :: l)

theorem witness_ReferenceSlots :
    ((slot 1 2 []).slotState 0 = 1 ∧ (slot 1 2 []).slotSource 0 = true ∧ (slot 1 2 []).slotType 0 ≠ 0 ∧ (slot 1 2 []).slotType 0 = 2 ∧ (slot 1 2 []).slotRateOk 0 (48000#18).toNat = true ∧
      (slot 1 2 []).slotRateOk 0 (48480#18).toNat = true ∧ (slot 1 2 []).slotRateOk 0 (48481#18).toNat = false ∧ (slot 1 3 []).slotType 0 = 3 ∧ (slot 1 2 []).slotState 0 ≠ 2 ∧
      (slot 1 4 []).slotSource 0 = false) ∧
    ((slot 1 0 [(regTIME_STAT 0, 1#32)]).slotSource 0 = true ∧ (slot 1 0 [(regTIME_STAT 0, 1#32)]).slotType 0 = 0) ∧
    ((slot 2 2 []).slotState 0 = 2 ∧ 0 ∈ ({ slot 2 2 [] with slotSeen := [0] } : State).slotSeen ∧ 0 ∉ (slot 2 2 []).slotSeen ∧
      min 3600 ((slot 2 2 [(regREF_SLOTTMR 0, 0x00050000#32)]).rfld (regREF_SLOTTMR 0) 16 12) ≠ 0 ∧ min 3600 ((slot 2 2 [(regREF_SLOTTMR 0, 0#32)]).rfld (regREF_SLOTTMR 0) 16 12) = 0) ∧
    ((slot 3 2 []).slotState 0 = 3 ∧ (slot 3 2 []).rfld (regREF_SLOTSTAT 0) 16 12 ≤ 1 ∧
      (let w := st [(regREF_SLOTCFG 0, 0xA0000000#32), (regREF_SLOTSTAT 0, 0x60050000#32)]
       w.slotState 0 = 3 ∧ 1 < w.rfld (regREF_SLOTSTAT 0) 16 12)) ∧
    ((slot 4 2 []).slotCanLose 0 = true ∧ (slot 1 2 []).slotCanLose 0 = false ∧ (slot 4 0 [(regTIME_STAT 0, 1#32)]).slotCanLose 0 = false ∧ 2 ≤ (slot 4 2 []).slotState 0) ∧
    ((slot 1 2 []).slotState 0 ≠ 0 ∧ 1 ≤ (slot 1 4 []).slotType 0 ∧ (slot 1 4 []).slotType 0 ≤ 4 ∧ (slot 1 0 []).slotType 0 = 0 ∧ 4 < (slot 1 5 []).slotType 0 ∧ State.reset.slotState 0 = 0) ∧
    (State.reset.rbit (regREF_SLOTCFG 0) 31 = false ∧ fld (State.reset.reg (regREF_SLOTCFG 0)) 24 7 = fld (0x80000000#32) 24 7 ∧
      (slot 4 2 []).rbit (regREF_SLOTCFG 0) 31 = true ∧ fld ((slot 4 2 []).reg (regREF_SLOTCFG 0)) 24 7 = fld (0xA0000000#32) 24 7 ∧
      fld ((slot 4 2 []).reg (regREF_SLOTCFG 0)) 24 7 ≠ fld (0x90000000#32) 24 7) := by
  decide +kernel

theorem witness_SelectorFollows :
    let on (a : Word) (l : List (Nat × Word)) : State := slot 4 2 ((regREF_STATE, a) :: l)
    (State.reset.candidates = [] ∧ (on 0 []).candidates = [0] ∧ (on 0 []).chooseSlot (on 0 []).candidates = some 0) ∧
    ((on 4#32 []).refState = 4 ∧ (on 0 [(regREF_CTRL, 0x20000000#32)]).rbit regREF_CTRL 29 = true ∧ (on 0 [(regREF_CTRL, 0x20000000#32)]).refState ≠ 4 ∧
      (on 0 []).rbit regREF_CTRL 29 = false ∧ (on 0 []).refState = 0 ∧ (on 3#32 []).refState = 3 ∧ State.reset.refState = 0) ∧
    ((on 0x92#32 []).refState = 2 ∧ (on 0x92#32 []).refSel = some 1 ∧ (on 0x92#32 []).slotCandidate 1 = false ∧ (on 0x82#32 []).refSel = some 0 ∧ (on 0x82#32 []).slotCandidate 0 = true ∧
      (st [(regREF_STATE, 0x82#32)]).candidates = [] ∧ 0 < (st [(regREF_STATE, 0x82#32), (regREF_HOCNT, 3#32)]).hoCount ∧ (st [(regREF_STATE, 0x82#32)]).hoCount = 0 ∧
      (st [(regREF_STATE, 0x82#32)]).slotCandidate 0 = false ∧ (on 0x82#32 []).revertTargets 0 = [] ∧
      (on 0x81#32 []).refState = 1 ∧ (on 0x82#32 []).rbit regREF_CTRL 31 = false ∧ (on 0x82#32 [(regREF_CTRL, 0x40000000#32)]).rbit regREF_CTRL 30 = true) ∧
    (let r : State := on 0x92#32 [(regREF_CTRL, 0x80000000#32), (regREF_SLOTCFG 1, 0xA0100000#32), (regREF_SLOTSTAT 1, 0x80000000#32)]
     r.refState = 2 ∧ r.refSel = some 1 ∧ r.slotCandidate 1 = true ∧ r.rbit regREF_CTRL 31 = true ∧ r.rbit regREF_CTRL 30 = false ∧ r.chooseSlot (r.revertTargets 1) = some 0) := by
  decide +kernel

theorem witness_SelectorAndGenerators :
    let on (a : Word) (l : List (Nat × Word)) : State := slot 4 2 ((regREF_STATE, a) :: l)
    ((on 0x81#32 []).refState = 1 ∧ (on 0x81#32 []).refSel.isSome = true ∧ (5#32).toInt.natAbs ≤ (on 0x81#32 []).lockWindow ∧ (on 0x82#32 []).refState = 2 ∧
      4 * (on 0x82#32 []).lockWindow < (100000#32).toInt.natAbs) ∧
    ((on 0 []).refState ≠ 4 ∧ 0 < (on 0 [(regREF_HOCNT, 3#32)]).hoCount ∧ (st [(regREF_STATE, 4#32)]).refState = 4 ∧ (st [(regREF_STATE, 4#32)]).refCause = false ∧
      (st [(regCLK_STATUS, 0x00200000#32)]).refCause = true ∧ (st [(regREF_DCO, 500000000#32)]).refCause = true ∧ (on 0 []).refCause = false ∧ (on 0 []).refLoop = false ∧
      (on 0x82#32 []).refLoop = true ∧ (on 0 []).refState = 0) ∧
    ((slot 3 2 []).slotState 0 = 3 ∧ 2 ≤ (slot 3 2 []).slotState 0 ∧ (slot 3 2 []).slotType 0 ≠ 0 ∧ (slot 1 2 []).slotState 0 < 2 ∧ (495000000 : Int).natAbs ≤ 495000000 ∧
      495000000 < (495000001 : Int).natAbs) ∧
    (let g (l : List (Nat × Word)) : State := { st l with genReq := [0] }
     bit ((g []).reg (regREF_OUTCFG 0)) 31 = false ∧ bit ((g [(regREF_OUTCFG 0, 0x80000000#32)]).reg (regREF_OUTCFG 0)) 31 = true ∧ bit (0x81000000#32) 24 = true ∧ 0 ∈ (g []).genReq ∧
     fld ((g []).reg (regREF_OUTCFG 0)) 28 3 = 0 ∧ (g []).tbState (fld ((g []).reg (regREF_OUTCFG 0)) 26 2) ≠ 1 ∧ (g [(regTIME_STAT 0, 1#32)]).tbState 0 = 1 ∧
     (g []).genSource 0 = false ∧ (g [(regTIME_STAT 0, 1#32)]).genSource 0 = true ∧ 0 ∉ State.reset.genReq ∧
     (let p : State := { atF (st [(regREF_OUTCFG 0, 0x80000000#32), (regREF_OUTSTAT 0, 0x80000000#32)]) 5 with ownCur := true }
      p.ticking = true ∧ p.ownCur = true ∧ bit (p.reg (regREF_OUTCFG 0)) 31 = true ∧ p.rbit (regREF_OUTSTAT 0) 31 = true ∧ State.reset.ticking = false)) := by
  decide +kernel

theorem witness_ModuleResets :
    State.reset.fuseKey.length = 8 ∧ (fld (0xB01A0001#32) 16 16 = 0xB01A ∧ bit (0xB01A0001#32) 0 = true) ∧ (fld (0xB01A0000#32) 16 16 ≠ 0xB01A ∨ bit (0xB01A0000#32) 0 = false) ∧
    State.reset.railsUp = false ∧ ({ st [(regCLK_STATUS, 0x20000000#32)] with railsUp := true } : State).supState ≠ 0 ∧ State.reset.supState = 0 ∧ State.reset.fuseKey[3]? = some 0 ∧
    (st [(regBOOT_STATUS, 0x02000000#32)]).rbit regBOOT_STATUS 25 = true ∧ ({ State.reset with railsUp := true } : State).tapLocked = false ∧ State.reset.testPort = TestPort.reset := by
  decide +kernel

/-- The first bits of the device identifier 0x1B09_A0C1 as the test access port shifts them out: 1, then 0 (R396). -/
theorem test_idcode_shifts_out :
    let s : State := { State.reset with railsUp := true }
    let edge (u : State) (tms : Bool) : State := u.tapEdge true tms false []
    ([false, true, false, false].foldl edge s).tdo = some true ∧ ([false, true, false, false, false].foldl edge s).tdo = some false := by
  decide +kernel

theorem witness_ClocksAndDividers :
    let c (w : Word) : State := { st [(regCLK_STATUS, w)] with railsUp := true }
    ((c 0).railsUp = true ∧ (c 0).supState = 0 ∧ (c 0).modeCur = 0) ∧ ((c 0x20000000#32).supState = 1 ∧ (c 0x20000000#32).xoFromRun = false ∧
      ({ c 0x20000000#32 with xoFromRun := true } : State).xoFromRun = true ∧ (c 0x20000000#32).rfld regCLK_STATUS 27 2 < 3 ∧ (c 0x38000000#32).rfld regCLK_STATUS 27 2 = 3 ∧
      (c 0x38000000#32).supState = 1) ∧
    ((c 0x40000000#32).supState = 2 ∧ (c 0x62C00000#32).supState = 3 ∧ (c 0x62C00000#32).rbit regCLK_STATUS 25 = true ∧ (c 0x60000000#32).rbit regCLK_STATUS 25 = false ∧
      (c 0x62C00000#32).rbit regCLK_STATUS 23 = true ∧ (c 0x60000000#32).rbit regCLK_STATUS 23 = false ∧ (c 0x62C00000#32).rbit regCLK_STATUS 22 = true ∧
      (c 0x60000000#32).rbit regCLK_STATUS 22 = false ∧ (c 0x60000000#32).supState = 3) ∧
    (State.reset.sup.muxDue = none ∧ ({ State.reset with sup := { State.reset.sup with muxDue := some true } } : State).sup.muxDue = some true ∧
      ({ State.reset with sup := { State.reset.sup with muxDue := some false } } : State).sup.muxDue = some false) ∧
    (({ State.reset with divHold := true } : State).divHold = true ∧ State.reset.divHold = false) := by
  decide +kernel

theorem witness_PowerModes :
    let m (w : Word) (l : List (Nat × Word)) (f : State → State) : State := f (atF (st ((regGLOBAL_MODE, w) :: l)) 5)
    ((m 0x20#32 [] id).modeCur = 2 ∧ (m 0 [] id).modeCur ≠ 2 ∧ bit (0x00010000#32) 16 = true ∧ (m 0 [(regPAIR_STATUS, 0x40000000#32)] id).rbit regPAIR_STATUS 30 = true ∧
      (m 0 [] id).rbit regPAIR_STATUS 30 = false ∧ (m 1#32 [] fun s => { s with modeStep := some 1 }).modeStep.isSome = true ∧ (m 0 [] id).modeStep = none ∧ (m 0x10#32 [] id).modeCur = 1) ∧
    (let f (q : Option Nat) (s : State) : State := { s with modeStep := q, mute := [(9, 0)] }
     (m 1#32 [] (f (some 1))).modeStep = some 1 ∧ (m 1#32 [] (f (some 1))).ticking = true ∧ (m 1#32 [] (f (some 1))).fadedOut = true ∧ (m 1#32 [] (f (some 1))).modeQueued = none ∧
     (m 2#32 [] (f (some 2))).modeStep = some 2 ∧ (m 2#32 [] (f (some 2))).ticking = true ∧ (m 2#32 [] (f (some 2))).fadedOut = true ∧ (m 1#32 [] (f (some 1))).wakePend = false ∧
     (m 2#32 [] fun s => { f (some 2) s with wakePend := true }).wakePend = true ∧ (m 1#32 [(regPWR_WAKE, 1#32)] (f (some 1))).rbit regPWR_WAKE 0 = true ∧
     (m 1#32 [] fun s => { s with modeStep := some 1, mute := [(9, 64)] }).fadedOut = false) ∧
    ((m 0x11#32 [(regPWR_WAKE, 1#32)] id).rbit regPWR_WAKE 0 = true ∧ (m 0x11#32 [(regPWR_WAKE, 1#32)] id).modeCur = 1 ∧ (m 0x11#32 [(regPWR_WAKE, 1#32)] id).modeStep = none ∧
      (m 0x22#32 [(regPWR_WAKE, 1#32)] id).modeCur = 2 ∧ (m 0 [] id).rbit regPWR_WAKE 0 = false ∧ (m 0 [(regPWR_LPOTMR, 1#32)] id).reg regPWR_LPOTMR ≠ 0 ∧ (m 0 [] id).reg regPWR_LPOTMR = 0) := by
  decide +kernel

theorem witness_SupplyAndLines :
    let s (l : List (Nat × Word)) : State := { st l with railsUp := true }
    ((s []).railsUp = true ∧ (329#10).toNat < 330 ∧ (s []).rbit regPWR_STATUS 31 = false ∧ (s []).modeCur ≠ 2 ∧ (s [(regGLOBAL_MODE, 0x20#32)]).modeCur = 2 ∧
      (s []).rbit (regFAULT_CAUSE 1) 14 = false ∧ (s []).sup.ticked = false ∧ ({ s [] with sup := { (s []).sup with ticked := true } } : State).sup.ticked = true ∧ (atF (s []) 5).ticking = true ∧ ({ s [] with holdupDue := true } : State).holdupDue = true ∧ (s []).holdup = []) ∧
    (let ws : List Word := List.replicate 13 0
     ({ s [] with holdup := [ws] } : State).holdup = ws :: [] ∧ (s []).flashOn = true ∧ ws.length = 13 ∧ (s [(regBOOT_LOG, 0x80000001#32)]).rbit regBOOT_LOG 31 = true) ∧
    (370 < (371#10).toNat ∧ (s [(regPWR_STATUS, 0x80000000#32)]).rbit regPWR_STATUS 31 = true) ∧
    ((s []).rbit regHVIO_TLSTAT 0 = false ∧ (s []).rbit regHVIO_TLSTAT 0 ≠ true ∧ (s [(regHVIO_TOCTRL, 1#32), (regCLK_STATUS, 0x62C00000#32)]).toClosed 0 = true ∧ (s []).toClosed 0 = false ∧ 1 ∉ (s []).railsOff ∧ 0 ∉ (s []).railsOff) := by
  decide +kernel

/-- The slot that a capture goes to is blank in an erased flash, and is not with a programmed byte in it. -/
theorem witness_SupplyAndLines_flash :
    State.reset.flashBlank (logBase + 64 * State.reset.rfld regBOOT_LOG 0 14) 64 = true ∧
    ({ State.reset with flash := [(logBase, 0#8)] } : State).flashBlank (logBase + 64 * State.reset.rfld regBOOT_LOG 0 14) 64 = false := by
  have h : State.reset.rfld regBOOT_LOG 0 14 = 0 := by decide +kernel
  have blank (L : Nat) : State.reset.flashBlank (L + 64 * 0) 64 = true := rfl
  have used (L : Nat) : ({ State.reset with flash := [(L, 0#8)] } : State).flashBlank (L + 64 * 0) 64 = false := by simp [State.flashBlank]
  rw [h]
  exact ⟨blank _, used _⟩

theorem witness_FusesAndFlash :
    let s (l : List (Nat × Word)) : State := st l
    let mt : Nat × Word := (regGLOBAL_MODE, 0x10000#32)
    (fld (0xB01A0003#32) 16 16 = 0xB01A ∧ (s []).rbit regGLOBAL_MODE 16 = false ∧
      ¬ (fld (0xB01A0003#32) 16 16 ≠ 0xB01A ∨ (s [mt]).rbit regGLOBAL_MODE 16 = false ∨ (bit (0xB01A0003#32) 0 = true ∧ ((s [mt]).fuseKey.all fun w => decide (w = 0)) = false) ∨
        (s [mt]).flCmd.isSome = true ∨ (s [mt]).otpRun.isSome = true)) ∧
    ((s []).otpRun = none ∧ ({ s [] with otpRun := some (true, true, List.replicate 8 1) } : State).otpRun = some (true, true, List.replicate 8 1)) ∧
    ((s [(regBOOT_FLADDR, 1#32)]).rfld regBOOT_FLADDR 0 28 % 256 ≠ 0 ∧ (s []).flCmd = none ∧ ({ s [] with flCmd := some (2, 256) } : State).flCmd = some (2, 256)) := by
  decide +kernel

/-- Address 0 lies in the device and below the hold-up log. -/
theorem witness_FusesAndFlash_address : ¬ (State.reset.flCmd.isSome = true ∨ State.reset.otpRun.isSome = true ∨ State.reset.rfld regBOOT_FLADDR 0 28 % 65536 ≠ 0 ∨
    flashSize ≤ State.reset.rfld regBOOT_FLADDR 0 28 ∨ (3 ≠ 1 ∧ logBase < State.reset.rfld regBOOT_FLADDR 0 28 + 65536)) := by
  have h : State.reset.rfld regBOOT_FLADDR 0 28 = 0 := by decide +kernel
  have z : 0x08000000 ≤ flashSize := by unfold flashSize; split <;> omega
  rw [h]
  rintro (h | h | h | h | ⟨_, h⟩)
  · exact Bool.noConfusion h
  · exact Bool.noConfusion h
  · exact h rfl
  · omega
  · unfold logBase at h; omega

theorem witness_HostRequests :
    let s (l : List (Nat × Word)) : State := { st l with railsUp := true }
    let on : State := s [(regBOOT_STATUS, 0x60000000#32)]
    State.reset.spiAlive = false ∧ (s []).spiAlive = true ∧ (s []).spiServed = false ∧ on.spiServed = true ∧ (1 ≤ (256#16).toNat ∧ (256#16).toNat ≤ 256) ∧
    ¬ (1 ≤ (257#16).toNat ∧ (257#16).toNat ≤ 256) ∧ (1 ≤ (1#8).toNat ∧ (1#8).toNat ≤ 6 ∧ (1#8 : Byte) ≠ 5 ∧ 7 ≤ (7#8).toNat) ∧ on.spiSelect.tabGet 0x01B10000 = 0 ∧ ({ on with tab := [(0x01B10000, 20#32)] } : State).spiSelect.tabGet 0x01B10000 ≠ 0 ∧
    (20 ≤ (20#16).toNat ∧ (20#16).toNat ≤ 1420 ∧ (List.replicate 20 (0 : Byte)).length = (20#16).toNat) ∧ on.spiSelect.outOldest = none ∧
    ({ on with tab := [(outSlot 2, 20#32)] } : State).spiSelect.outOldest = some 2 ∧ on.spiSelect.outWait = [] := by
  decide +kernel

/-! ## Witnesses: pairing -/

/-- Pairing in force in state `k`, at frame 5. -/
def Tests.pr (k : Nat) (l : List (Nat × Word)) : State := { atF (st ((regPAIR_STATUS, BitVec.ofNat 32 k) :: l)) 5 with pairEn := true }

theorem witness_BattenRules :
    ((State.reset.pairEn = false ∧ State.reset.rbit regPAIR_CFG 31 = false) ∧ (pr 1 []).pairEn = true ∧ (pr 1 []).ticking = true ∧ ({ pr 1 [] with ticking := false } : State).ticking = false) ∧
    ((pr 0 []).pairState = pSINGLE ∧ (pr 1 []).pairState = pCLAIM ∧ (pr 2 []).pairState = pACTIVE ∧ (pr 3 []).pairState = pJOIN ∧ (pr 4 []).pairState = pMIRROR ∧ (pr 5 []).pairState = pREADY ∧
      (pr 6 []).pairState = pHELD ∧ (pr 1 []).failHeld = false ∧ (pr 0x20000001 []).rbit regPAIR_STATUS 29 = true) ∧
    ((pr 1 []).claimCount + 1 < 2 ∧ 2 ≤ ({ pr 1 [] with claimCount := 1 } : State).claimCount + 1) ∧
    ({ pr 2 [] with relDue := some 3, relArmed := true } : State).relDue = some 3 ∧ (pr 2 []).relDue = none := by
  decide +kernel

/-- A FAIL source that is latched and configured for release. -/
theorem witness_BattenRules_held : ∃ n, n < 256 ∧ (pr 6 [(regFAULT_LATCH (n / 32), oneHot (n % 32)), (regFAULT_CFG n, 0x104#32)]).failHeld = true := ⟨32, by decide +kernel⟩

/-- A heartbeat of an active partner at frame 6. -/
def Tests.hb (st : BitVec 4) : Heartbeat := { fc := 6, state := st, hash := 1, digest := 2, epoch := 3, pegAck := 0 }

theorem witness_Heartbeats :
    (pr 3 []).pairEn = true ∧ (pr 3 []).ticking = true ∧ 1 ≤ (pr 3 []).now ∧ 2 ≤ (pr 3 []).now ∧ mapFind ({ pr 3 [] with hashes := [(4, 7#32)] } : State).hashes ((pr 3 []).now - 1) = some 7 ∧
    mapFind ({ pr 3 [] with digests := [(3, 8#32)] } : State).digests ((pr 3 []).now - 2) = some 8 ∧
    (let t : State := { pr 3 [] with linkRun := 63, hbFrame := 4 }
     t.now ≤ t.hbFrame + 1 ∧ 64 ≤ t.hbGap.linkRun + 1 ∧ (pr 3 []).hbFrame + 1 < (pr 3 []).now ∧ ¬ (64 ≤ (pr 3 []).hbGap.linkRun + 1 ∨ (pr 3 []).rbit regPAIR_STATUS 28 = true)) ∧
    ((pr 2 []).pairState = pACTIVE ∧ ({ pr 2 [] with epochRun := some (3, 5) } : State).epochRun = some ((hb 2).epoch.toNat, 5)) ∧
    ((pr 0x10000003 []).pairState = pJOIN ∧ (pr 0x10000003 []).joinStep < 2 ∧ (hb 2).state.toNat = pACTIVE ∧ (100#32).toInt.natAbs ≤ 100 ∧ ¬ ((101#32).toInt.natAbs ≤ 100) ∧
      64 ≤ ({ pr 0x10000003 [] with skewGood := 63, hbFrame := 4 } : State).hbGap.skewGood + 1 ∧ (pr 0x10000003 []).hbGap.skewGood + 1 < 64 ∧ (hb 3).state.toNat ≠ pACTIVE) ∧
    ((pr 4 []).pairState = pMIRROR ∧ 16 ≤ ({ pr 4 [] with skewBad := 15, hbFrame := 4 } : State).hbGap.skewBad + 1) ∧
    (let s : State := { pr 5 [] with hashes := [(5, 7#32)] }
     s.pairState = pREADY ∧ 0 ≤ ((hb 2).fc.toNat : Int) - 1 - s.fcOff ∧ mapFind s.hashes (((hb 2).fc.toNat : Int) - 1 - s.fcOff).toNat = some 7 ∧ (7 : Word) ≠ (hb 2).hash) ∧
    ((pr 0x20000002 []).pairState = pACTIVE ∧ (pr 0x20000002 []).rbit regPAIR_STATUS 29 = true ∧ (pr 0x20000002 []).epochRun = none ∧ (pr 2 []).relDue = none ∧ (pr 2 []).relDone = none) ∧
    (({ pr 2 [] with cancelWait := [(1, 2)] } : State).cancelWait ≠ [] ∧ (pr 2 []).pairState ≠ pJOIN) ∧
    ((pr 4 [(regPAIR_CFG, 0x00040000#32)]).hbFrame + 4 ≤ (pr 4 [(regPAIR_CFG, 0x00040000#32)]).now ∧ (pr 4 [(regPAIR_CFG, 0x00040000#32)]).rfld regPAIR_CFG 16 8 = 4 ∧
      (pr 4 [(regPAIR_CFG, 0x00040000#32)]).rbit (regFAULT_CAUSE 1) 17 = false ∧ (pr 4 []).now < (pr 4 []).hbFrame + 16) ∧
    ((pr 4 []).reg regPAIR_MATCH).toNat < (pr 4 []).pairNeed ∧ (pr 4 [(regPAIR_MATCH, 0xFFFFFFFF#32)]).pairNeed ≤ ((pr 4 [(regPAIR_MATCH, 0xFFFFFFFF#32)]).reg regPAIR_MATCH).toNat := by
  decide +kernel

theorem witness_ParameterSync :
    ((pr 0x10030002 []).pairState = pACTIVE ∧ (pr 0x10030002 []).rbit regPAIR_STATUS 28 = true ∧ (pr 0x10030002 []).rfld regPAIR_STATUS 16 4 = pJOIN ∧ (pr 0x10030002 []).syncSent = false ∧
      ({ pr 2 [] with syncSent := true } : State).syncSent = true ∧ (pr 2 []).follows = false ∧ (pr 4 []).follows = true ∧ hdrOp 0x20010000#32 = 2 ∧ hdrOp 0x10020000#32 ≠ 2) ∧
    ((pr 4 []).pegQueue = [] ∧ (5#32) &&& (pr 4 []).sealed = 0 ∧ (pr 4 []).commits.length < 16 ∧ (pr 4 []).pegHalted = false ∧
      ¬ (({ pr 4 [] with pegQueue := [ent 0 []] } : State).pegQueue = [])) ∧
    (let s : State := { pr 3 [(regDLY_PART 3, 0x00010001#32)] with joinStep := 3, sceneNeed := [(2, [0x80001000#32, 2#32, 0, 0])] }
     s.pairState = pJOIN ∧ s.joinStep = 3 ∧ (s.sceneNeed.find? fun e => decide (e.1 = 2)) = some (2, [0x80001000#32, 2#32, 0, 0]) ∧ ([7#32, 8#32] : List Word).length = (2#32).toNat ∧
     4096 ≤ fld (0x80001000#32) 0 31 ∧ fld (0x80001000#32) 0 31 + 2 ≤ s.regionSize 3) ∧ (pr 4 []).pairState ≠ pJOIN := by
  decide +kernel

theorem witness_EpochsAndRelease :
    ((pr 2 []).ticking = true ∧ (pr 2 []).pairState = pACTIVE ∧ (pr 2 []).epochRun = none ∧ ({ pr 2 [] with epochReq := true } : State).epochReq = true ∧
      (pr 0x10000002 []).rbit regPAIR_STATUS 28 = true ∧ (pr 2 []).rbit regPAIR_STATUS 28 = false) ∧
    (let s : State := pr 4 [(regDLY_PART 4, 0x00010001#32), (0xF0100, 0x40000#32), (0xF0104, 4#32), (0xF0108, 0x40100#32), (0xF010C, 0x40200#32)]
     s.follows = true ∧ s.eregOk 0 = true ∧ 1 + ([7#32] : List Word).length ≤ s.ereg 0 1) ∧
    (({ pr 4 [] with epochRx := some (3, 9#32) } : State).follows = true ∧ ~~~9#32 ≠ 0#32 ∧ ~~~9#32 = 0xFFFFFFF6#32 ∧
      (pr 4 [(regPAIR_EPOCH, 3#32)]).reg regPAIR_EPOCH ≠ 0 ∧ (3#32).toNat ≤ ((pr 4 [(regPAIR_EPOCH, 3#32)]).reg regPAIR_EPOCH).toNat ∧ (pr 4 []).reg regPAIR_EPOCH = 0) ∧
    ((pr 2 []).follows = false ∧ (pr 4 []).pairState ≠ pACTIVE ∧ (pr 0x10050002 []).partnerReady = true ∧ (pr 2 []).partnerReady = false ∧ (pr 2 []).finalEpoch = none ∧
      ({ pr 2 [] with finalEpoch := some 0 } : State).finalEpoch.isSome = true ∧ (pr 5 []).pairState = pREADY) := by
  decide +kernel

/-! ## Witnesses: the start of an image -/

/-- A small image: the header, a directory of one section, a section of one record, the public key and the signature (R320 to R324). The key is the base point (private key 1), and the signature was worked outside the model. -/
def Tests.imgBytes : List Byte :=
  wordsLE [0xB01A5448#32, 0x01000001#32, 0x109b01a#32, 0x10001#32, 412#32, 0#32, 0#32, 0#32, 0x402#32, 0x001F000A#32] ++ List.replicate 212 0#8 ++
  wordsLE [0x8f764b75#32, 1#32, 272#32, 12#32, 0x83bee776#32, 0x40008#32, 1#32, 96#32] ++ beBytes 32 pG.1 ++ beBytes 32 pG.2 ++
  beBytes 32 0x7cf27b188d034f7e8a52380304b51ac3c08969e277f21b35a60b48fc47669978 ++
  beBytes 32 0x84b39578cf5bc0d7e9bcbd6afe2e22b175dfee2ab3e897d9944e16b4cc62aafa

/-- The boot sequencer at a stage with that image as copy A. -/
def Tests.boot (stage : Nat) : State :=
  { st [(regGLOBAL_ID, 0xB01A0910#32), (regDLY_PART 0, 0x00010000#32), (regDLY_PART 3, 0x00050001#32), (regBOOT_STATUS, BitVec.ofNat 32 (stage * 2 ^ 28)), (regCLK_STATUS, 0x62C00000#32)] with
    flash := imgBytes.zipIdx.map fun e => (e.2, e.1) }

/-- The header CRC-32 of the image, in pieces that the kernel can evaluate. -/
theorem Tests.img_bytes : (boot 2).flashBytes (copyBase false) 252 = ((List.range 9).map fun i => (imgBytes.drop (28 * i)).take 28).flatten := by decide +kernel

theorem Tests.img_crc0 : ((imgBytes.drop (28 * 0)).take 28).foldl crcByte 0xFFFFFFFF#32 = 0xcf89e2e9#32 := by decide +kernel
theorem Tests.img_crc1 : ((imgBytes.drop (28 * 1)).take 28).foldl crcByte 0xcf89e2e9#32 = 0x92435768#32 := by decide +kernel
theorem Tests.img_crc2 : ((imgBytes.drop (28 * 2)).take 28).foldl crcByte 0x92435768#32 = 0x2bbbf095#32 := by decide +kernel
theorem Tests.img_crc3 : ((imgBytes.drop (28 * 3)).take 28).foldl crcByte 0x2bbbf095#32 = 0x613fd80a#32 := by decide +kernel
theorem Tests.img_crc4 : ((imgBytes.drop (28 * 4)).take 28).foldl crcByte 0x613fd80a#32 = 0xa8426c0b#32 := by decide +kernel
theorem Tests.img_crc5 : ((imgBytes.drop (28 * 5)).take 28).foldl crcByte 0xa8426c0b#32 = 0x52676f2b#32 := by decide +kernel
theorem Tests.img_crc6 : ((imgBytes.drop (28 * 6)).take 28).foldl crcByte 0x52676f2b#32 = 0xd74317a2#32 := by decide +kernel
theorem Tests.img_crc7 : ((imgBytes.drop (28 * 7)).take 28).foldl crcByte 0xd74317a2#32 = 0xd546c19e#32 := by decide +kernel
theorem Tests.img_crc8 : ((imgBytes.drop (28 * 8)).take 28).foldl crcByte 0xd546c19e#32 = 0x7089b48a#32 := by decide +kernel

theorem Tests.img_hdrCrc : (boot 2).imgHdrCrc false = true := by
  have e : ∀ l : List Byte, crcRun l = l.foldl crcByte 0xFFFFFFFF#32 := fun _ => rfl
  have r : List.range 9 = [0, 1, 2, 3, 4, 5, 6, 7, 8] := by decide
  unfold State.imgHdrCrc crc32
  rw [img_bytes, r, e]
  simp only [List.map_cons, List.map_nil, List.flatten_cons, List.flatten_nil, List.foldl_append, img_crc0, img_crc1, img_crc2, img_crc3, img_crc4, img_crc5, img_crc6, img_crc7,
    img_crc8, List.foldl_nil]
  decide +kernel

theorem witness_ImageStart_header :
    (boot 2).imgHeader false = true ∧ (boot 2).imgMember false = true ∧ (boot 2).imgIssue false = true ∧ (boot 2).imgLength false = 412 ∧ (boot 2).imgDirOk false = true ∧
    (boot 2).earlyOk false = true ∧ (boot 2).flashOn = true ∧ (boot 2).resetDue = false ∧ (boot 2).bootCopy = false ∧ (boot 2).bootStage = 2 ∧ State.reset.imgHeader false = false ∧
    State.reset.earlyOk false = false ∧ copyArea false = 0x04000000 := by
  unfold State.earlyOk State.imgHeader
  rw [img_hdrCrc]
  decide +kernel

theorem witness_ImageStart_signature :
    (boot 3).bootStage = 3 ∧ (boot 3).keyOk false = true ∧ (boot 3).sigOk false = true ∧ ({ boot 3 with flash := imgBytes.zipIdx.map fun e => (e.2, if 380 ≤ e.2 then 0 else e.1) } : State).sigOk false = false ∧
    ({ boot 3 with fuseKey := List.replicate 8 1 } : State).keyOk false = false := by
  decide +kernel

theorem witness_ImageStart_load :
    (boot 4).bootStage = 4 ∧ ((boot 4).loadImage false).2 = none ∧ ((boot 4).loadImage false).1.reg regEVT_DIVIDER = 96 ∧
    (({ boot 4 with flash := imgBytes.zipIdx.map fun e => (e.2, if e.2 = 280 then 7 else e.1) } : State).loadImage false).2 = some 5 := by
  decide +kernel

theorem witness_ImageStart_checks :
    (boot 5).bootStage = 5 ∧ (boot 5).partitionOk false = true ∧ (boot 5).equalisersOk = true ∧ (∀ k, k < 256 → (boot 5).templateOk false k = true) ∧
    (boot 5).bootOwn = [] ∧ (boot 5).unfused = true ∧ State.reset.partitionOk false = false ∧
    ({ boot 5 with regs := (boot 5).regs ++ [(regEQ_BIND 0, 0x007FFFFF#32)] } : State).equalisersOk = false ∧
    ({ boot 5 with tab := [(0x01800000, 0x80000000#32)] } : State).templateOk false 0 = false := by
  decide +kernel

theorem witness_ImageStart :
    (st [(regCLK_STATUS, 0x20000000#32), (regBOOT_STATUS, 0x10000000#32)]).supState = 1 ∧ (st [(regBOOT_STATUS, 0x10000000#32)]).bootStage = 1 ∧
    (boot 1).supState = 3 ∧ (boot 1).bootStage = 1 ∧ (boot 1).flashOn = true ∧ ({ boot 1 with railsOff := [1] } : State).flashOn = false ∧
    ({ boot 4 with resetDue := true, loading := true } : State).resetDue = true ∧ mapWf regReset State.reset.regs = true ∧ (boot 1).resetDue = false := by
  decide +kernel
end

section
/-! What a CTL syllable that issues alone does (R95 to R102): its results start their flight, and its transfer, its repeat count and the end of the work are left in the context. A transfer in a delay slot is suppressed (R96). -/

namespace Sys2Proof.Machine

/-- CTL operations other than NOP and ROTS, which issue as data operations do, reach neither memory nor a coprocessor, and use no address channel (R95 to R98). -/
theorem ctlOther_reachesNothing (op : Instr) (hc : ctlOther op = true) :
    (∀ c am, sylRead c am op = none) ∧ (∀ c am, sylStore c am op = none) ∧
    (∀ (t : State) n x c, t.extension n x c op = none) ∧ ∀ (t : State) n x, t.modeError n x [op] = t := by
  unfold ctlOther at hc
  split at hc
  case h_8 => exact absurd hc Bool.false_ne_true
  all_goals exact ⟨fun _ _ => rfl, fun _ _ => rfl, fun _ _ _ _ => rfl, fun _ _ _ => rfl⟩

/-- The context after a bundle of one operation, and whether its transfer is suppressed (R79, R96, R98, R102). -/
theorem afterBundle_one (c : Ctx) (op : Instr) :
    afterBundle c [op] 1 false =
      ({ c with
          pc := if endsWork op then c.pc + 1#14 else c.slot.getD (c.pc + 1#14)
          slot := if c.slot.isSome || endsWork op then none else transfer c op
          rep := repCount c op
          ended := endsWork op },
        c.slot.isSome && (transfer c op).isSome) := by
  simp only [afterBundle, transferAny, List.findSome?_singleton, List.any_cons, List.any_nil, Bool.or_false, Bool.false_and]

/-- The results of an operation that issues alone from `s`. -/
def State.soloFlights (s : State) (h : SylHdr) (op : Instr) : List Flight :=
  flights (sylEffects ((s.course h.n).ctx h.x) (s.course h.n) (s.amode h.n h.x) (((s.course h.n).ctx h.x).pc + 1#14) op)

section
variable (s : State) (h : SylHdr) (op : Instr) (hs : Solo s h) (hc : ctlOther op = true)
  (hu : Syl.undefinedIn { op := op, unit := .ctl, bad := false, rsv := false } h.x = false)
include hs hc hu

/-- A CTL operation that issues alone, in a delay slot or not. -/
theorem State.syllable_ctl :
    s.syllable h .ctl false op =
      let c := (s.course h.n).ctx h.x
      let t := s.issuedAs h (s.soloFlights h op) (if c.slot.isSome || endsWork op then none else transfer c op) (repCount c op) (endsWork op)
      if c.slot.isSome && (transfer c op).isSome then t.ctlSequence h.n h.x c.pc else t := by
  obtain ⟨hread, hstore, hext, hmode⟩ := ctlOther_reachesNothing op hc
  rw [State.syllable_solo s h .ctl op hs hu hread hstore hext fun t => hmode t h.n h.x]
  simp only [afterBundle_one, State.issuedAs, State.soloFlights, State.modCourse, Ctx.afterOp, Ctx.issuedAs]

/-- No transfer is suppressed outside a delay slot, nor where none is made: the operation leaves its transfer to the bundle after the next one (R96). -/
theorem State.syllable_ctl_next
    (hfree : ((s.course h.n).ctx h.x).slot = none ∨ transfer ((s.course h.n).ctx h.x) op = none) :
    s.syllable h .ctl false op =
      s.issuedAs h (s.soloFlights h op) (if endsWork op then none else transfer ((s.course h.n).ctx h.x) op)
        (repCount ((s.course h.n).ctx h.x) op) (endsWork op) := by
  rw [State.syllable_ctl s h op hs hc hu]
  rcases hfree with hslot | hnone
  · simp only [hslot, Option.isSome_none, Bool.false_or, Bool.false_and, Bool.false_eq_true, if_false]
  · simp only [hnone, Option.isSome_none, Bool.and_false, Bool.false_eq_true, if_false, ite_self]

/-- A transfer in a delay slot is suppressed with the control-sequence event, and the target of the first one stands (R96). -/
theorem State.syllable_ctl_suppressed (a t : BitVec 14) (hslot : ((s.course h.n).ctx h.x).slot = some a)
    (ht : transfer ((s.course h.n).ctx h.x) op = some t) :
    s.syllable h .ctl false op =
      (s.issuedAs h (s.soloFlights h op) none (repCount ((s.course h.n).ctx h.x) op) (endsWork op)).ctlSequence h.n h.x
        ((s.course h.n).ctx h.x).pc := by
  rw [State.syllable_ctl s h op hs hc hu]
  simp only [hslot, ht, Option.isSome_some, Bool.true_or, Bool.and_self, if_true]

end

section
variable (s : State) (h : SylHdr) (hs : Solo s h)
include hs

theorem exec_nop_solo : exec (.nop h) s = .next (s.issued h []) :=
  congrArg _ (State.syllable_data s h .ctl (.nop h) hs rfl (fun _ _ => rfl) (fun _ _ => rfl) (fun _ _ _ _ => rfl) (fun _ => rfl)
    (fun _ => rfl) (fun _ => rfl) rfl)

theorem exec_rots_solo :
    exec (.rots h) s = .next (s.issued h [toReg 1 .rot (BitVec.ofNat 32 ((fld ((s.course h.n).ctx h.x).rot 0 4 + 15) % 16))]) :=
  congrArg _ (State.syllable_data s h .ctl (.rots h) hs rfl (fun _ _ => rfl) (fun _ _ => rfl) (fun _ _ _ _ => rfl) (fun _ => rfl)
    (fun _ => rfl) (fun _ => rfl) rfl)

/-- REP leaves its count to the next bundle, in a delay slot too (R98). -/
theorem exec_rep_solo (k : RepCount) :
    exec (.rep h k) s = .next (s.issuedAs h [] none (repCount ((s.course h.n).ctx h.x) (.rep h k)) false) :=
  congrArg _ (State.syllable_ctl_next s h (.rep h k) hs rfl rfl (.inr rfl))

/-- FEND is defined in the foreground only (R102). -/
theorem exec_fend_solo (hx : h.x = .fg) : exec (.fend h) s = .next (s.issuedAs h [] none none true) :=
  congrArg _ (State.syllable_ctl_next s h (.fend h) hs rfl (by rw [hx]; rfl) (.inr rfl))

/-- TEND is defined in the background only (R102). -/
theorem exec_tend_solo (hx : h.x = .bg) : exec (.tend h) s = .next (s.issuedAs h [] none none true) :=
  congrArg _ (State.syllable_ctl_next s h (.tend h) hs rfl (by rw [hx]; rfl) (.inr rfl))

theorem exec_br_solo (p : Fin 8) (pn : Bool) (target : BitVec 14) (hslot : ((s.course h.n).ctx h.x).slot = none) :
    exec (.br h p pn target) s =
      .next (s.issuedAs h [] (if ((s.course h.n).ctx h.x).pred p pn then some target else none) none false) :=
  congrArg _ (State.syllable_ctl_next s h (.br h p pn target) hs rfl rfl (.inl hslot))

/-- DBNZ decrements its counter modulo 2^16, so a counter of 0 transfers (R97). -/
theorem exec_dbnz_solo (rt : Bool) (i : Fin 4) (target : BitVec 14) (hslot : ((s.course h.n).ctx h.x).slot = none) :
    exec (.dbnz h rt i target) s =
      .next (s.issuedAs h (flights (effDbnz ((s.course h.n).ctx h.x) rt i))
        (if dbnzVal ((s.course h.n).ctx h.x) i ≠ 0 then some target else none) none false) := by
  have hd := State.syllable_ctl_next s h (.dbnz h rt i target) hs rfl rfl (.inl hslot)
  simp only [transfer, endsWork, Bool.false_eq_true, if_false] at hd
  exact congrArg _ hd

/-- JAL links the address of the bundle after the delay slot (R95). -/
theorem exec_jal_solo (dd : Fin 32) (target : BitVec 14) (hslot : ((s.course h.n).ctx h.x).slot = none) :
    exec (.jal h dd target) s =
      .next (s.issuedAs h (flights (effJal ((s.course h.n).ctx h.x) (s.course h.n) (((s.course h.n).ctx h.x).pc + 1#14) dd))
        (some target) none false) :=
  congrArg _ (State.syllable_ctl_next s h (.jal h dd target) hs rfl rfl (.inl hslot))

theorem exec_jmp_solo (da : Fin 32) (hslot : ((s.course h.n).ctx h.x).slot = none) :
    exec (.jmp h da) s = .next (s.issuedAs h [] (some ((((s.course h.n).ctx h.x).dget da).extractLsb' 0 14)) none false) :=
  congrArg _ (State.syllable_ctl_next s h (.jmp h da) hs rfl rfl (.inl hslot))

/-- A branch whose predicate does not hold makes no transfer, and a delay slot does not suppress it (R96). -/
theorem exec_br_solo_notTaken (p : Fin 8) (pn : Bool) (target : BitVec 14) (hp : ((s.course h.n).ctx h.x).pred p pn = false) :
    exec (.br h p pn target) s = .next (s.issued h []) := by
  have ht : transfer ((s.course h.n).ctx h.x) (.br h p pn target) = none := by simp only [transfer, hp, Bool.false_eq_true, if_false]
  have hb := State.syllable_ctl_next s h (.br h p pn target) hs rfl rfl (.inr ht)
  rw [ht] at hb
  exact congrArg _ hb

theorem exec_br_solo_suppressed (p : Fin 8) (pn : Bool) (target a : BitVec 14) (hslot : ((s.course h.n).ctx h.x).slot = some a)
    (hp : ((s.course h.n).ctx h.x).pred p pn = true) :
    exec (.br h p pn target) s = .next ((s.issued h []).ctlSequence h.n h.x ((s.course h.n).ctx h.x).pc) :=
  congrArg _ (State.syllable_ctl_suppressed s h (.br h p pn target) hs rfl rfl a target hslot (if_pos hp))

theorem exec_jmp_solo_suppressed (da : Fin 32) (a : BitVec 14) (hslot : ((s.course h.n).ctx h.x).slot = some a) :
    exec (.jmp h da) s = .next ((s.issued h []).ctlSequence h.n h.x ((s.course h.n).ctx h.x).pc) :=
  congrArg _ (State.syllable_ctl_suppressed s h (.jmp h da) hs rfl rfl a _ hslot rfl)

end

/-- In a delay slot the next bundle is the one at the target that stands (R96). -/
theorem Ctx.issued_pc_of_slot (c : Ctx) (fl : List Flight) (a : BitVec 14) (hslot : c.slot = some a) : (c.issued fl).pc = a := by
  simp only [Ctx.issued, Ctx.issuedAs, hslot, Option.getD_some, Bool.false_eq_true, if_false]

/-- Settles O11: each CTL operation through what its syllable does alone, outside a delay slot and in one. -/
theorem controlResults : Obligations.ControlResults := by
  unfold Obligations.ControlResults
  refine ⟨fun s h p pn target i dd da n hs => ?_, fun s h p pn target a da hs hslot => ?_⟩
  · refine ⟨exec_nop_solo s h hs, exec_rots_solo s h hs, exec_rep_solo s h hs (.imm n), exec_rep_solo s h hs (.lc i),
      exec_fend_solo s h hs, exec_tend_solo s h hs, fun hslot => ?_⟩
    exact ⟨exec_br_solo s h hs p pn target hslot, exec_dbnz_solo s h hs false i target hslot, exec_dbnz_solo s h hs true i target hslot,
      exec_jal_solo s h hs dd target hslot, exec_jmp_solo s h hs da hslot⟩
  · exact ⟨State.course_modCourse_self .., Ctx.issued_pc_of_slot _ _ a hslot, exec_br_solo_suppressed s h hs p pn target a hslot,
      exec_br_solo_notTaken s h hs p pn target, exec_jmp_solo_suppressed s h hs da a hslot⟩

end Sys2Proof.Machine
end

section
/-! The withdrawal of a commit (R189) and the read of a record of the commit log (R190). -/

namespace Sys2Proof.Machine

variable (s : State)

/-! ## The commit that a cancel withdraws -/

/-- A commit meets the test of a cancel when it has the ticket and no tick has fixed it, nor will one that has been seen (R189). -/
theorem State.cancellable_iff (c : Commit) (tk : Nat) :
    (decide (c.ticket = tk) && c.fixed.isNone && !(s.ticking && decide (c.frame ≤ s.now + 1))) = true ↔
      c.ticket = tk ∧ c.fixed = none ∧ (s.ticking = false ∨ s.now + 1 < c.frame) := by
  simp only [Bool.and_eq_true, decide_eq_true_eq, Option.isNone_iff_eq_none, Bool.not_eq_true', Bool.and_eq_false_iff,
    decide_eq_false_iff_not, not_le, and_assoc]

theorem State.cancelTarget_isSome_iff (tk : Nat) :
    (s.cancelTarget tk).isSome = true ↔
      ∃ c ∈ s.commits, c.ticket = tk ∧ c.fixed = none ∧ (s.ticking = false ∨ s.now + 1 < c.frame) := by
  simp only [State.cancelTarget, List.find?_isSome, List.mem_reverse, State.cancellable_iff]

theorem State.cancelTarget_mem {tk : Nat} {k : Commit} (h : s.cancelTarget tk = some k) : k ∈ s.commits :=
  List.mem_reverse.1 (List.mem_of_find?_eq_some h)

theorem State.cancelTarget_ticket {tk : Nat} {k : Commit} (h : s.cancelTarget tk = some k) : k.ticket = tk := by
  have hk := List.find?_some h
  exact ((s.cancellable_iff k tk).1 hk).1

/-! ## The log state of a commit -/

theorem State.logState_frame (k : Commit) (v : Nat) : s.logState k v = { s with regs := (s.logState k v).regs } := by
  unfold State.logState
  split
  · rfl
  · rfl

theorem State.logState_of_holds (k : Commit) (v : Nat) (h : s.logHolds k = true) :
    s.logState k v = s.setRfld (regPEG_LOG (k.ticket % 64) 0) 29 2 v := if_pos h

theorem State.logState_of_not_holds (k : Commit) (v : Nat) (h : s.logHolds k = false) : s.logState k v = s :=
  if_neg (Bool.eq_false_iff.1 h)

theorem State.reg_logState_ne (k : Commit) (v : Nat) {a : Nat} (h : a ≠ regPEG_LOG (k.ticket % 64) 0) :
    (s.logState k v).reg a = s.reg a := by
  cases hk : s.logHolds k with
  | true => rw [s.logState_of_holds k v hk, State.reg_setRfld_ne _ _ _ _ _ _ h]
  | false => rw [s.logState_of_not_holds k v hk]

theorem State.rfld_logState (k : Commit) (v : Nat) (h : s.logHolds k = true) :
    (s.logState k v).rfld (regPEG_LOG (k.ticket % 64) 0) 29 2 = v % 4 := by
  rw [s.logState_of_holds k v h]
  exact State.rfld_setRfld_self _ _ 29 2 v (by decide)

/-! ## The withdrawal -/

/-- The state after a withdrawal of commit `k`, before its event: the commit is gone and logged as cancelled (R189). -/
def State.withdrawn (k : Commit) : State := ({ s with commits := s.commits.erase k } : State).logState k 2

theorem State.withdrawn_frame (k : Commit) :
    s.withdrawn k = { s with regs := (s.withdrawn k).regs, commits := (s.withdrawn k).commits } := by
  unfold State.withdrawn
  rw [State.logState_frame]

theorem State.withdrawn_commits (k : Commit) : (s.withdrawn k).commits = s.commits.erase k := by
  unfold State.withdrawn
  rw [State.logState_frame]

theorem State.withdrawn_logState (k : Commit) (h : s.logHolds k = true) :
    (s.withdrawn k).rfld (regPEG_LOG (k.ticket % 64) 0) 29 2 = 2 :=
  State.rfld_logState { s with commits := s.commits.erase k } k 2 h

theorem State.withdrawn_regs (k : Commit) (h : s.logHolds k = false) : (s.withdrawn k).regs = s.regs :=
  (congrArg State.regs (State.logState_of_not_holds { s with commits := s.commits.erase k } k 2 h) :)

theorem State.reg_withdrawn_ne (k : Commit) {a : Nat} (h : a ≠ regPEG_LOG (k.ticket % 64) 0) : (s.withdrawn k).reg a = s.reg a :=
  State.reg_logState_ne _ k 2 h

/-- Where the module does not forward, a cancel with a target withdraws it and raises EV38. -/
theorem exec_pegCancelWrite_withdraws (m : Master) (v : Word) {k : Commit} (hf : s.forwards = false)
    (h : s.cancelTarget (fld v 0 8) = some k) :
    exec (.pegCancelWrite m v) s = .next ((s.withdrawn k).raiseEvent 38 (BitVec.ofNat 32 (fld v 0 8))) := by
  have hc : s.cancel (fld v 0 8) = (s.withdrawn k).raiseEvent 38 (BitVec.ofNat 32 (fld v 0 8)) := by
    simp only [State.cancel, h, State.withdrawn]
  rw [← hc]
  simp only [exec, execPegCancelWrite, hf, Bool.false_and, Bool.false_eq_true, if_false]

/-- A cancel without a target only sets CXLATE, also where the module forwards. -/
theorem exec_pegCancelWrite_late (m : Master) (v : Word) (h : s.cancelTarget (fld v 0 8) = none) :
    exec (.pegCancelWrite m v) s = .next (s.setRbit regPEG_STATUS 22) := by
  have hc : s.cancel (fld v 0 8) = s.setRbit regPEG_STATUS 22 := by simp only [State.cancel, h]
  rw [← hc]
  simp only [exec, execPegCancelWrite, h, Option.isSome_none, Bool.and_false, Bool.false_eq_true, if_false]

/-! ## The read of a log record -/

theorem State.latched_setLatch_ne (m : Nat) {a b : Nat} (v : Word) (h : b ≠ a) : (s.setLatch m a v).latched m b = s.latched m b :=
  mapGet_set_ne _ _ _ fun e => h (Nat.add_left_cancel e)

/-- The words `ws` of a group of registers at `addr` are latched for master `m`, each with the value `val` gives it. -/
def State.latchWords (m : Nat) (addr : Nat → Nat) (val : Nat → Word) (ws : List Nat) : State :=
  ws.foldl (fun (t : State) w => t.setLatch m (addr w) (val w)) s

theorem State.latchWords_frame (m : Nat) (addr : Nat → Nat) (val : Nat → Word) (ws : List Nat) :
    s.latchWords m addr val ws = { s with latch := (s.latchWords m addr val ws).latch } := by
  induction ws generalizing s with
  | nil => rfl
  | cons w ws ih => exact ih (s.setLatch m (addr w) (val w))

/-- Each word latched is the one its register gave; latching another word at another address does not disturb it. -/
theorem State.latchWords_latched (m : Nat) (addr : Nat → Nat) (val : Nat → Word) (hinj : Function.Injective addr) (ws : List Nat) (w : Nat) :
    (s.latchWords m addr val ws).latched m (addr w) = if w ∈ ws then val w else s.latched m (addr w) := by
  induction ws generalizing s with
  | nil => rfl
  | cons x xs ih =>
    have hx : (s.latchWords m addr val (x :: xs)).latched m (addr w) =
        if w ∈ xs then val w else (s.setLatch m (addr x) (val x)).latched m (addr w) := ih _
    rw [hx]
    by_cases e : w = x
    · subst e
      simp
    · simp [e, State.latched_setLatch_ne _ _ _ (hinj.ne e)]

theorem regPEG_LOG_injective (r : Nat) : Function.Injective (regPEG_LOG r) := fun i j h => by
  simp only [regPEG_LOG] at h
  omega

theorem exec_pegLogWord0Read_eq (m : Master) (r : Fin 64) :
    exec (.pegLogWord0Read m r) s =
      .next ((s.latchWords m.val (regPEG_LOG r.val) (fun w => s.reg (regPEG_LOG r.val w)) [1, 2, 3, 4, 5, 6, 7]).returnTo m.val
        (s.reg (regPEG_LOG r.val 0))) := rfl

/-- Settles O31: the commit that a cancel finds, what the cancel does with and without one, and what a read of word 0 of a log record latches. -/
theorem cancelAndLog : Obligations.CancelAndLog := by
  unfold Obligations.CancelAndLog
  intro s m v r
  refine ⟨s.cancelTarget_isSome_iff _, fun k hf hk => ?_, exec_pegCancelWrite_late s m v, ?_⟩
  · rw [← s.cancelTarget_ticket hk]
    exact ⟨s.withdrawn k, s.cancelTarget_ticket hk ▸ exec_pegCancelWrite_withdraws s m v hf hk, s.withdrawn_frame k, s.withdrawn_commits k,
      s.cancelTarget_mem hk, s.withdrawn_logState k, s.withdrawn_regs k, fun _ => s.reg_withdrawn_ne k⟩
  · refine ⟨_, exec_pegLogWord0Read_eq s m r, ?_, State.rdata_returnTo_self .., fun k hk => ?_, fun w h1 h7 => ?_⟩
    · rw [State.latchWords_frame]
      rfl
    · rw [State.rdata_returnTo_ne _ _ hk, State.latchWords_frame]
    · have hw : w ∈ [1, 2, 3, 4, 5, 6, 7] := by simp only [List.mem_cons, List.not_mem_nil, or_false]; omega
      rw [State.latched_returnTo, State.latchWords_latched _ _ _ _ (regPEG_LOG_injective r.val), if_pos hw]

end Sys2Proof.Machine
end

section
/-! The token of an occurrence of an event source (R192 to R197), and what an offered token meets in the matching store (R198, R199). -/

namespace Sys2Proof.Machine

/-! ## The sequence counters -/

theorem State.bumpSeq_of_sequence (s : State) (e : Nat) (h : fld (s.reg (regEVT_ROUTE e)) 29 2 = 2) :
    (mapFind (s.bumpSeq e).seq e).getD 0 = ((mapFind s.seq e).getD 0 + 1) % 256 := by
  simp only [State.bumpSeq, h, if_true]
  exact mapGet_set_self (fun _ => 0) s.seq e _

theorem State.bumpSeq_tokens (s : State) (e : Nat) : (s.bumpSeq e).tokens = s.tokens := by
  rw [State.bumpSeq_frame]

/-! ## The token that a source queues -/

theorem State.tokenNum_eq (s : State) (e : Nat) (pl : Word) :
    s.tokenNum e pl =
      if fld (s.reg (regEVT_ROUTE e)) 29 2 = 1 then fld pl 0 8
      else if fld (s.reg (regEVT_ROUTE e)) 29 2 = 2 then (mapFind s.seq e).getD 0
      else fld (s.reg (regEVT_ROUTE e)) 8 8 := by
  unfold State.tokenNum
  dsimp only
  split
  case h_1 h => rw [if_pos h]
  case h_2 h => rw [if_neg (by omega), if_pos h]
  case h_3 h1 h2 => rw [if_neg h1, if_neg h2]

/-- The token of an occurrence of source `e` with payload `pl`, by its routing (R197). -/
def State.eventToken (s : State) (e : Nat) (pl : Word) : Token :=
  { src := e, tmpl := fld (s.reg (regEVT_ROUTE e)) 16 8, num := s.tokenNum e pl, slot := fld (s.reg (regEVT_ROUTE e)) 27 2, val := pl }

/-- The number of tokens of a source that wait (R193). -/
def State.queued (s : State) (e : Nat) : Nat := (s.tokens.filter fun q => q.src == e).length

section
variable (s : State) (e : Nat) (pl : Word)

theorem State.queueToken_of_room (hten : bit (s.reg (regEVT_ROUTE e)) 31 = true) (hq : s.queued e < 16) :
    s.queueToken e pl = { s.bumpSeq e with tokens := s.tokens ++ [s.eventToken e pl] } := by
  unfold State.queued at hq
  simp only [State.queueToken, hten, if_true, if_neg (Nat.not_le.2 hq), State.bumpSeq_tokens, State.eventToken]

theorem State.queueToken_of_full (hten : bit (s.reg (regEVT_ROUTE e)) 31 = true) (hq : 16 ≤ s.queued e) :
    s.queueToken e pl = ((s.bumpSeq e).count regEVT_LOST_CNT 1).setRbit regEVT_STATUS 28 := by
  unfold State.queued at hq
  simp only [State.queueToken, hten, if_true, if_pos hq]

/-- The sequence counter steps for a lost token too. -/
theorem State.queueToken_seq (hten : bit (s.reg (regEVT_ROUTE e)) 31 = true) : (s.queueToken e pl).seq = (s.bumpSeq e).seq := by
  rcases Nat.lt_or_ge (s.queued e) 16 with hq | hq
  · rw [s.queueToken_of_room e pl hten hq]
  · rw [s.queueToken_of_full e pl hten hq]
    rfl

/-! ## An occurrence -/

/-- An occurrence recorded in its pending bit and its payload register, its token not yet made (R192). -/
def State.pended : State := (s.setRbit (regEVT_PEND (e / 32)) (e % 32)).setReg (regEVT_PAYLOAD e) pl

theorem State.raiseEvent_eq : s.raiseEvent e pl = (s.pended e pl).queueToken e pl := rfl

theorem State.raiseEvent_payload_ne {f : Nat} (he : e < 128) (hf : f < 128) (hne : f ≠ e) :
    (s.raiseEvent e pl).reg (regEVT_PAYLOAD f) = s.reg (regEVT_PAYLOAD f) := by
  apply State.raiseEvent_reg <;> simp only [regEVT_PEND, regEVT_PAYLOAD, regEVT_LOST_CNT, regEVT_STATUS] <;> omega

variable (he : e < 128)
include he

/-- A record reaches neither the control registers and counters below the pending bits nor the routings, which lie between these and the payloads. -/
theorem State.pended_reg {a : Nat} (ha : a < regEVT_PEND 0 ∨ regEVT_ROUTE 0 ≤ a ∧ a < regEVT_PAYLOAD 0) :
    (s.pended e pl).reg a = s.reg a := by
  simp only [regEVT_PEND, regEVT_ROUTE, regEVT_PAYLOAD] at ha
  unfold State.pended
  rw [State.reg_setReg_ne _ _ (by simp only [regEVT_PAYLOAD]; omega), State.reg_setRbit_ne _ _ _ _ (by simp only [regEVT_PEND]; omega)]

theorem State.pended_route : (s.pended e pl).reg (regEVT_ROUTE e) = s.reg (regEVT_ROUTE e) :=
  s.pended_reg e pl he (.inr (by simp only [regEVT_ROUTE, regEVT_PAYLOAD]; omega))

theorem State.pended_lostCount : (s.pended e pl).reg regEVT_LOST_CNT = s.reg regEVT_LOST_CNT :=
  s.pended_reg e pl he (.inl (by decide))

theorem State.eventToken_pended : (s.pended e pl).eventToken e pl = s.eventToken e pl := by
  simp only [State.eventToken, State.tokenNum_eq, s.pended_route e pl he]
  rfl

/-- Without TEN an occurrence leaves the queue, the sequence counters and the record of lost tokens alone. -/
theorem State.raiseEvent_untokened (hten : bit (s.reg (regEVT_ROUTE e)) 31 = false) :
    (s.raiseEvent e pl).tokens = s.tokens ∧ (s.raiseEvent e pl).seq = s.seq ∧
      (s.raiseEvent e pl).reg regEVT_LOST_CNT = s.reg regEVT_LOST_CNT ∧ (s.raiseEvent e pl).reg regEVT_STATUS = s.reg regEVT_STATUS := by
  rw [s.raiseEvent_noToken e pl he hten]
  exact ⟨rfl, rfl, s.pended_lostCount e pl he, s.pended_reg e pl he (.inl (by decide))⟩

theorem State.raiseEvent_of_room (hten : bit (s.reg (regEVT_ROUTE e)) 31 = true) (hq : s.queued e < 16) :
    (s.raiseEvent e pl).tokens = s.tokens ++ [s.eventToken e pl] := by
  rw [State.raiseEvent_eq, State.queueToken_of_room (s.pended e pl) e pl (by rw [s.pended_route e pl he, hten]) hq, s.eventToken_pended e pl he]
  rfl

theorem State.raiseEvent_of_full (hten : bit (s.reg (regEVT_ROUTE e)) 31 = true) (hq : 16 ≤ s.queued e) :
    (s.raiseEvent e pl).tokens = s.tokens ∧ (s.raiseEvent e pl).rbit regEVT_STATUS 28 = true ∧
      (s.raiseEvent e pl).reg regEVT_LOST_CNT = satAdd (s.reg regEVT_LOST_CNT) 0 32 1 := by
  rw [State.raiseEvent_eq, State.queueToken_of_full (s.pended e pl) e pl (by rw [s.pended_route e pl he, hten]) hq]
  refine ⟨State.bumpSeq_tokens _ e, ?_, ?_⟩
  · rw [State.rbit_setRbit _ _ _ _ _ (by decide)]
    simp
  · rw [State.reg_setRbit_ne _ _ _ _ (by decide), State.reg_count, if_pos rfl, State.bumpSeq_reg, s.pended_lostCount e pl he]

theorem State.raiseEvent_steps_sequence (hten : bit (s.reg (regEVT_ROUTE e)) 31 = true) (himode : fld (s.reg (regEVT_ROUTE e)) 29 2 = 2) :
    (mapFind (s.raiseEvent e pl).seq e).getD 0 = ((mapFind s.seq e).getD 0 + 1) % 256 := by
  have hr := s.pended_route e pl he
  rw [State.raiseEvent_eq, State.queueToken_seq (s.pended e pl) e pl (by rw [hr, hten]), State.bumpSeq_of_sequence (s.pended e pl) e (by rw [hr, himode])]
  rfl

end

/-! ## The entries of the matching store -/

theorem nthD_of_getElem? {α : Type} {l : List α} {i : Nat} {a : α} (d : α) (h : l[i]? = some a) : nthD l i d = a := by
  rw [nthD, List.getD_eq_getElem?_getD, h, Option.getD_some]

/-- A fill completes an entry when it leaves no operand absent. -/
theorem StoreEntry.fill_ready_isSome (e : StoreEntry) (slot : Nat) (v : Word) (order : Nat) :
    (e.fill slot v order).ready.isSome = (e.ops.set slot (some v)).all Option.isSome := by
  rw [Bool.eq_iff_iff]
  exact Option.isSome_ite

/-- One operand completes a new entry only where its template asks for one. -/
theorem all_isSome_replicate_set {α : Type} (n i : Nat) (v : α) (h : i < n) :
    ((List.replicate n none).set i (some v)).all Option.isSome = decide (n = 1) := by
  by_cases hn : n = 1
  · obtain rfl : i = 0 := by omega
    subst hn
    rfl
  · rw [decide_eq_false hn, List.all_eq_false]
    obtain ⟨j, hj, hne⟩ : ∃ j, j < n ∧ i ≠ j := ⟨if i = 0 then 1 else 0, by split <;> omega, by split <;> omega⟩
    have hnone : ((List.replicate n none).set i (some v))[j]? = some none := by
      rw [List.getElem?_set_ne hne, List.getElem?_replicate, if_pos hj]
    exact ⟨none, List.mem_of_getElem? hnone, Bool.false_ne_true⟩

/-! ## The offer of a token -/

/-- The key of the entry that a token joins (R198). -/
def Token.key (t : Token) : Nat := t.tmpl * 256 + t.num

/-- The token is of EV1 or EV2, which report dropped and rejected tokens: its own loss raises neither (R198, R199). -/
def Token.ofReport (t : Token) : Prop := t.src = 1 ∨ t.src = 2

section
variable (s : State) (t : Token)

theorem State.tokenRejected_of_report (h : t.ofReport) :
    s.tokenRejected t = (s.count regEVT_DROP_CNT 1).setRbit regEVT_STATUS 29 := if_pos h

theorem State.tokenRejected_of_not_report (h : ¬ t.ofReport) :
    s.tokenRejected t = ((s.count regEVT_DROP_CNT 1).setRbit regEVT_STATUS 29).raiseEvent 2 (BitVec.ofNat 32 t.key) := if_neg h

theorem State.tokenDropped_of_report (h : t.ofReport) :
    s.tokenDropped t = (s.count regEVT_FULL_CNT 1).setRbit regEVT_STATUS 30 := if_pos h

theorem State.tokenDropped_of_not_report (h : ¬ t.ofReport) :
    s.tokenDropped t = ((s.count regEVT_FULL_CNT 1).setRbit regEVT_STATUS 30).raiseEvent 1 (BitVec.ofNat 32 t.key) := if_neg h

/-- The template does not take the token: it is not valid, or has no such operand (R198). -/
theorem State.offerToken_inadmissible (h : bit (s.tmpl t.tmpl 0) 31 = false ∨ s.tmplOps t.tmpl ≤ t.slot) :
    s.offerToken t = s.tokenRejected t :=
  if_pos (by simpa only [Bool.or_eq_true, Bool.not_eq_true', decide_eq_true_eq] using h)

section
variable (hv : bit (s.tmpl t.tmpl 0) 31 = true) (hslot : t.slot < s.tmplOps t.tmpl)
include hv hslot

theorem State.offerToken_occupied {e : StoreEntry} {x : Word} (hfind : s.store.find? (·.open t.key) = some e)
    (hop : e.ops[t.slot]? = some (some x)) : s.offerToken t = s.tokenRejected t := by
  unfold Token.key at hfind
  simp only [State.offerToken, hv, Nat.not_le.2 hslot, hfind, nthD_of_getElem? none hop, Bool.not_true, decide_false, Bool.or_self,
    Bool.false_eq_true, if_false, Option.isSome_some, if_true]

theorem State.offerToken_joins {e : StoreEntry} (hfind : s.store.find? (·.open t.key) = some e) (hop : e.ops[t.slot]? = some none) :
    s.offerToken t =
      { s with
        store := s.store.map fun d => if d.open t.key then e.fill t.slot t.val s.readyCtr else d
        readyCtr := if (e.ops.set t.slot (some t.val)).all Option.isSome then s.readyCtr + 1 else s.readyCtr } := by
  unfold Token.key at hfind ⊢
  simp only [State.offerToken, hv, Nat.not_le.2 hslot, hfind, nthD_of_getElem? none hop, Bool.not_true, decide_false, Bool.or_self,
    Bool.false_eq_true, if_false, Option.isSome_none, StoreEntry.fill_ready_isSome]

theorem State.offerToken_opens (hfind : s.store.find? (·.open t.key) = none) (hroom : s.storeRoom (s.tmplPri t.tmpl) = true) :
    s.offerToken t =
      { s with
        store := s.store ++ [{ key := t.key, ops := (List.replicate (s.tmplOps t.tmpl) none).set t.slot (some t.val),
                               ready := if s.tmplOps t.tmpl = 1 then some s.readyCtr else none }]
        readyCtr := if s.tmplOps t.tmpl = 1 then s.readyCtr + 1 else s.readyCtr } := by
  unfold Token.key at hfind ⊢
  simp only [State.offerToken, hv, Nat.not_le.2 hslot, hfind, hroom, Bool.not_true, decide_false, Bool.or_self, Bool.false_eq_true,
    if_false, if_true, StoreEntry.fill_ready_isSome]
  simp only [StoreEntry.fill, setNth, all_isSome_replicate_set _ _ t.val hslot, decide_eq_true_eq]

theorem State.offerToken_noRoom (hfind : s.store.find? (·.open t.key) = none) (hroom : s.storeRoom (s.tmplPri t.tmpl) = false) :
    s.offerToken t = s.tokenDropped t := by
  unfold Token.key at hfind
  simp only [State.offerToken, hv, Nat.not_le.2 hslot, hfind, hroom, Bool.not_true, decide_false, Bool.or_self, Bool.false_eq_true, if_false]

end

/-- A token is rejected where its template does not take it, or where its operand is present already (R198). -/
theorem State.offerToken_rejected
    (h : bit (s.tmpl t.tmpl 0) 31 = false ∨ s.tmplOps t.tmpl ≤ t.slot ∨
      ∃ e x, s.store.find? (·.open t.key) = some e ∧ e.ops[t.slot]? = some (some x)) :
    s.offerToken t = s.tokenRejected t := by
  by_cases hadm : bit (s.tmpl t.tmpl 0) 31 = false ∨ s.tmplOps t.tmpl ≤ t.slot
  · exact s.offerToken_inadmissible t hadm
  · obtain ⟨hv, hslot⟩ := not_or.1 hadm
    obtain ⟨e, x, hfind, hop⟩ := (h.resolve_left hv).resolve_left hslot
    exact s.offerToken_occupied t (Bool.not_eq_false _ ▸ hv) (Nat.not_le.1 hslot) hfind hop

/-- The tokens `ts` are left waiting. -/
def State.waiting (ts : List Token) : State := { s with tokens := ts }

theorem exec_tokenOffer_unarmed (ts : List Token) (ht : s.tokens = t :: ts) (hu : Unarmed s) :
    exec .tokenOffer s = .next ((s.waiting ts).offerToken t) := by
  have htouch := State.memTouch_unarmed { s with tokens := ts } 20 (fun u => u / 4 == t.tmpl) hu
  simp only [exec, execTokenOffer, ht, htouch, State.waiting]

end

theorem exec_frameDividerTick_divided (s : State) (ht : s.ticking = true) (hk : s.now % s.divider = 0) :
    exec .frameDividerTick s = .next (s.raiseEvent 0 (lo32 s.fc)) :=
  congrArg _ (if_pos ⟨ht, hk⟩)

/-- Settles O32: the effects of an occurrence by the routing of its source, and of an offered token by what it meets in the store. -/
theorem eventsAndTokens : Obligations.EventsAndTokens := by
  unfold Obligations.EventsAndTokens
  refine ⟨fun s m e pl i k v he => ?_, fun s m v t ts => ?_⟩
  · refine ⟨s.raiseEvent_frame e pl, ?_, s.raiseEvent_payload e pl he, fun f hf hne => ⟨?_, s.raiseEvent_payload_ne e pl he hf hne⟩, fun a ha => ?_,
      s.raiseEvent_untokened e pl he, fun hten hq => ?_, s.raiseEvent_of_full e pl he, s.raiseEvent_steps_sequence e pl he, rfl, rfl⟩
    · rw [s.raiseEvent_pend e e pl he he, decide_eq_true rfl, Bool.or_true]
    · rw [s.raiseEvent_pend e f pl he hf, decide_eq_false hne, Bool.or_false]
    · simp only [List.mem_cons, List.not_mem_nil, or_false, not_or] at ha
      obtain ⟨hpend, hpayload, hlost, hstatus⟩ := ha
      exact s.raiseEvent_reg e pl a hpend hpayload hlost hstatus
    · rw [s.raiseEvent_of_room e pl he hten hq, State.eventToken, State.tokenNum_eq]
  · refine ⟨exec_frameDividerTick_divided s, rfl, fun ht hu => ?_⟩
    rw [exec_tokenOffer_unarmed s t ts ht hu]
    refine ⟨fun h => ?_, fun hv hslot => ⟨fun e hfind hop => ?_, fun hfind hroom => ?_, fun hfind hroom => ?_⟩⟩
    · rw [State.offerToken_rejected (s.waiting ts) t h]
      exact ⟨fun ho => congrArg _ (State.tokenRejected_of_report _ t ho), fun ho => congrArg _ (State.tokenRejected_of_not_report _ t ho)⟩
    · exact congrArg _ (State.offerToken_joins (s.waiting ts) t hv hslot hfind hop)
    · exact congrArg _ (State.offerToken_opens (s.waiting ts) t hv hslot hfind hroom)
    · rw [State.offerToken_noRoom (s.waiting ts) t hv hslot hfind hroom]
      exact ⟨fun ho => congrArg _ (State.tokenDropped_of_report _ t ho), fun ho => congrArg _ (State.tokenDropped_of_not_report _ t ho)⟩

end Sys2Proof.Machine
end

section
/-! The words that a snapshot takes (R373), the store that keeps them (R372, R374), and the ends of scrub passes and of tests (R375, R376). -/

namespace Sys2Proof.Machine

/-! ## Free values -/

/-- Nothing but free values were drawn (log entry 2). -/
def State.onlyDraws (s t : State) : Prop := t = { s with freeCtr := t.freeCtr }

section
variable (s : State)

theorem State.onlyDraws_refl : s.onlyDraws s := rfl

theorem State.onlyDraws_draw : s.onlyDraws s.draw.2 := rfl

theorem State.onlyDraws_trans {s t u : State} (h : s.onlyDraws t) (k : t.onlyDraws u) : s.onlyDraws u := by
  unfold State.onlyDraws at *
  rw [k, h]

theorem State.onlyDraws_fc {s t : State} (h : s.onlyDraws t) : t.fc = s.fc := by rw [h]

theorem State.onlyDraws_reg {s t : State} (h : s.onlyDraws t) (a : Nat) : t.reg a = s.reg a := by
  rw [h]
  rfl

theorem State.onlyDraws_tb0Words : s.onlyDraws s.tb0Words.2 := by
  unfold State.tb0Words
  split
  · exact State.onlyDraws_trans s.onlyDraws_draw s.draw.2.onlyDraws_draw
  · exact s.onlyDraws_refl

/-- A read draws the open fields of its register and does nothing else. -/
theorem State.onlyDraws_regValue (a : Nat) : s.onlyDraws (s.regValue a).2 := by
  unfold State.regValue
  split
  · exact s.onlyDraws_draw
  split
  · exact s.onlyDraws_draw
  split
  · exact s.onlyDraws_draw
  dsimp only
  split
  · exact s.onlyDraws_refl
  · exact s.onlyDraws_draw

theorem State.onlyDraws_snapWord (src : Option Nat) : s.onlyDraws (s.snapWord src).2 := by
  cases src with
  | none => exact s.onlyDraws_refl
  | some a => exact s.onlyDraws_regValue a

end

/-! ## The words of a snapshot (R373) -/

/-- A word that a snapshot of `s` takes of a register, whatever free values the words before it have drawn. -/
def State.snapTakes (s : State) (src : Option Nat) (w : Word) : Prop := ∃ u, s.onlyDraws u ∧ w = (u.snapWord src).1

theorem State.snapTakes_of_onlyDraws {s t : State} (h : s.onlyDraws t) {src : Option Nat} {w : Word} (k : t.snapTakes src w) : s.snapTakes src w := by
  obtain ⟨u, hu, rfl⟩ := k
  exact ⟨u, State.onlyDraws_trans h hu, rfl⟩

/-- A snapshot takes one further word. -/
def takeWord (acc : List Word × State) (src : Option Nat) : List Word × State :=
  (acc.1 ++ [(acc.2.snapWord src).1], (acc.2.snapWord src).2)

theorem onlyDraws_takeWords (l : List (Option Nat)) (acc : List Word × State) : acc.2.onlyDraws (l.foldl takeWord acc).2 := by
  induction l generalizing acc with
  | nil => exact acc.2.onlyDraws_refl
  | cons src l ih => exact State.onlyDraws_trans (acc.2.onlyDraws_snapWord src) (ih _)

/-- The words taken follow the registers, one by one. -/
theorem takeWords_forall₂ (l : List (Option Nat)) (acc : List Word × State) :
    ∃ ws, (l.foldl takeWord acc).1 = acc.1 ++ ws ∧ List.Forall₂ acc.2.snapTakes l ws := by
  induction l generalizing acc with
  | nil => exact ⟨[], (List.append_nil _).symm, .nil⟩
  | cons src l ih =>
    obtain ⟨ws, hws, htaken⟩ := ih (takeWord acc src)
    refine ⟨(acc.2.snapWord src).1 :: ws, ?_, .cons ⟨acc.2, acc.2.onlyDraws_refl, rfl⟩ ?_⟩
    · rw [List.foldl_cons, hws, takeWord, List.append_assoc]
      rfl
    · exact htaken.imp fun _ _ => State.snapTakes_of_onlyDraws (acc.2.onlyDraws_snapWord src)

/-- A cycle count has no live and no open field: a read returns the register and draws nothing (R77). -/
theorem State.regValue_cycles (s : State) (c : Fin 8) : s.regValue (regC_CYCLES c.val) = (s.reg (regC_CYCLES c.val), s) := by
  fin_cases c <;> rfl

theorem State.snapTakes_cycles {s : State} {c : Nat} (hc : c < 8) {w : Word} (h : s.snapTakes (some (regC_CYCLES c)) w) :
    w = s.reg (regC_CYCLES c) := by
  obtain ⟨u, hu, rfl⟩ := h
  rw [State.snapWord, u.regValue_cycles ⟨c, hc⟩, State.onlyDraws_reg hu]

theorem snapRegs_cycles : ∀ c < 8, snapRegs[9 + c]? = some (some (regC_CYCLES c)) := by decide

section
variable (s : State)

/-- The frame counter stands before the words of the registers; words 40 and 41 are those of TB0. -/
theorem State.snapWords_spec :
    ∃ ws, List.Forall₂ s.snapTakes snapRegs ws ∧ s.snapWords.1.length = ws.length + 2 ∧
      ∀ i, i ≠ 40 → i ≠ 41 → s.snapWords.1[i]? = (lo32 s.fc :: hi32 s.fc :: ws)[i]? := by
  obtain ⟨ws, hws, htaken⟩ := takeWords_forall₂ snapRegs ([], s.tb0Words.2)
  have heq : s.snapWords.1 =
      (lo32 s.fc :: hi32 s.fc :: ws).zipIdx.map fun e => if e.2 = 40 then s.tb0Words.1.1 else if e.2 = 41 then s.tb0Words.1.2 else e.1 := by
    rw [← List.nil_append ws, ← hws]
    rfl
  refine ⟨ws, htaken.imp fun _ _ => State.snapTakes_of_onlyDraws s.onlyDraws_tb0Words, ?_, fun i h40 h41 => ?_⟩
  · rw [heq, List.length_map, List.length_zipIdx, List.length_cons, List.length_cons]
  · rw [heq, List.getElem?_map, List.getElem?_zipIdx]
    simp [h40, h41, Function.comp_def]

theorem State.snapWords_length : s.snapWords.1.length = 64 := by
  obtain ⟨ws, htaken, hlen, -⟩ := s.snapWords_spec
  rw [hlen, ← htaken.length_eq]
  rfl

theorem State.snapWords_fc : nthD s.snapWords.1 0 0 = lo32 s.fc ∧ nthD s.snapWords.1 1 0 = hi32 s.fc := by
  obtain ⟨ws, -, -, hget⟩ := s.snapWords_spec
  exact ⟨nthD_of_getElem? 0 (hget 0 (by decide) (by decide)), nthD_of_getElem? 0 (hget 1 (by decide) (by decide))⟩

theorem State.snapWords_cycles {c : Nat} (hc : c < 8) : nthD s.snapWords.1 (11 + c) 0 = s.reg (regC_CYCLES c) := by
  obtain ⟨ws, htaken, -, hget⟩ := s.snapWords_spec
  have hreg := snapRegs_cycles c hc
  obtain ⟨hi, hsrc⟩ := List.getElem?_eq_some_iff.1 hreg
  have hi' : 9 + c < ws.length := htaken.length_eq ▸ hi
  have hw : ws[9 + c] = s.reg (regC_CYCLES c) := State.snapTakes_cycles hc (hsrc ▸ htaken.get hi hi')
  refine nthD_of_getElem? 0 ?_
  rw [hget _ (by omega) (by omega), show 11 + c = 9 + c + 1 + 1 by omega, List.getElem?_cons_succ, List.getElem?_cons_succ,
    List.getElem?_eq_getElem hi', hw]

theorem State.onlyDraws_snapWords : s.onlyDraws s.snapWords.2 :=
  State.onlyDraws_trans s.onlyDraws_tb0Words (onlyDraws_takeWords snapRegs ([], s.tb0Words.2))

section
variable (pend : Nat)

theorem State.snapTick_fc : (s.snapTick pend).fc = s.fc := by
  have hdraws := s.onlyDraws_snapWords
  unfold State.snapTick
  generalize s.snapWords = r at hdraws ⊢
  split
  · rfl
  · exact (State.onlyDraws_fc hdraws :)

theorem State.snapTick_reg (a : Nat) : (s.snapTick pend).reg a = s.reg a := by
  have hdraws := s.onlyDraws_snapWords
  unfold State.snapTick
  generalize s.snapWords = r at hdraws ⊢
  split
  · rfl
  · exact (State.onlyDraws_reg hdraws a :)

end

/-- The tick after a trigger holds the words of the state that it leaves. -/
theorem State.snapTick_held {pend : Nat} (h : pend ≠ 0) : (s.snapTick pend).snap.held = some (pend, s.snapWords.1) := by
  simp only [State.snapTick, if_neg h]

end

/-! ## Triggers (R372) -/

section
variable (s : State)

/-- A frame tick ends in the snapshot of the triggers that came before it. -/
theorem exec_frameTick_snaps (h : s.ticking = true) : ∃ u : State, exec .frameTick s = .next (u.snapTick s.snap.pend) :=
  ⟨_, congrArg _ (if_pos h)⟩

theorem State.snapTrigger_pend (i : Nat) : (s.snapTrigger (2 ^ i)).snap.pend / 2 ^ i % 2 = 1 := by
  have hbit : (s.snap.pend ||| 2 ^ i).testBit i = true := by rw [Nat.testBit_or, Nat.testBit_two_pow_self, Bool.or_true]
  rwa [Nat.testBit_eq_decide_div_mod_eq, decide_eq_true_eq] at hbit

/-- SNAP.CTRL has no reserved value, so a write of it stores a word and raises nothing (R378). -/
theorem State.regStore_snapCtrl (v : Word) : ∃ w, s.regStore regSNAP_CTRL v = s.setReg regSNAP_CTRL w := ⟨_, rfl⟩

theorem exec_trig_triggers (m : Master) {v : Word} (hv : bit v 31 = true) :
    ∃ w, exec (.trig m v) s = .next ((s.setReg regSNAP_CTRL w).snapTrigger 1) := by
  obtain ⟨w, hw⟩ := s.regStore_snapCtrl v
  exact ⟨w, by simp only [exec, execTrig, State.snapWrite, hv, hw, if_true]⟩

theorem exec_snapInEdge_triggers {falling : Bool} (hen : s.rbit regSNAP_CTRL 0 = true) (hedge : s.rbit (regTIME_CAPCFG 3) 30 = falling) :
    exec (.snapInEdge falling) s = .next (s.snapTrigger 2) := by
  simp only [exec, execSnapInEdge, hen, hedge, beq_self_eq_true, Bool.and_self, if_true]

end

/-! ## The store of a snapshot (R372 to R374) -/

section
variable (s : State)

/-- Words stand in SNAP.D from register `k` on. -/
def State.snapStoreFrom (k : Nat) (ws : List Word) : State :=
  (ws.zipIdx k).foldl (fun (t : State) e => t.setReg (regSNAP_D e.2) e.1) s

theorem State.snapStoreFrom_cons (k : Nat) (w : Word) (ws : List Word) :
    s.snapStoreFrom k (w :: ws) = (s.setReg (regSNAP_D k) w).snapStoreFrom (k + 1) ws := rfl

theorem State.snapStoreFrom_frame (k : Nat) (ws : List Word) : s.snapStoreFrom k ws = { s with regs := (s.snapStoreFrom k ws).regs } := by
  induction ws generalizing s k with
  | nil => rfl
  | cons w ws ih =>
    rw [State.snapStoreFrom_cons, ih]
    rfl

theorem State.snapStoreFrom_reg_lt (k : Nat) (ws : List Word) {a : Nat} (h : a < regSNAP_D k) : (s.snapStoreFrom k ws).reg a = s.reg a := by
  unfold regSNAP_D at h
  induction ws generalizing s k with
  | nil => rfl
  | cons w ws ih =>
    rw [State.snapStoreFrom_cons, ih _ _ (by omega), State.reg_setReg_ne _ _ (by simp only [regSNAP_D]; omega)]

theorem State.snapStoreFrom_reg (k : Nat) (ws : List Word) {i : Nat} (h : i < ws.length) :
    (s.snapStoreFrom k ws).reg (regSNAP_D (k + i)) = ws[i] := by
  induction ws generalizing s k i with
  | nil => exact absurd h (Nat.not_lt_zero i)
  | cons w ws ih =>
    rw [State.snapStoreFrom_cons]
    cases i with
    | zero =>
      rw [State.snapStoreFrom_reg_lt _ _ _ (by simp only [regSNAP_D]; omega)]
      exact State.reg_setReg_self ..
    | succ i =>
      rw [show k + (i + 1) = k + 1 + i by omega, ih _ _ (Nat.lt_of_succ_lt_succ h)]
      rfl

end

section
variable (s : State) (causes : Nat) (w : List Word)

/-- The snapshot that the last tick took is no longer waiting. -/
def State.snapCleared : State := { s with snap := { s.snap with held := none } }

/-- A snapshot is written: its words, CAUSE and NEW. -/
def State.snapWritten : State := ((s.snapCleared.snapStore w).setRfld regSNAP_STATUS 0 3 causes).setRbit regSNAP_STATUS 31

/-- A snapshot is stored: it is written, with OVR over one that was held; EV7 is not raised yet. -/
def State.snapStored : State :=
  if s.rbit regSNAP_STATUS 31 then (s.snapWritten causes w).setRbit regSNAP_STATUS 30 else s.snapWritten causes w

theorem State.snapWritten_frame : s.snapWritten causes w = { s.snapCleared with regs := (s.snapWritten causes w).regs } := by
  have h := s.snapCleared.snapStoreFrom_frame 0 w
  unfold State.snapWritten
  rw [show s.snapCleared.snapStore w = _ from h]
  rfl

theorem State.snapStored_frame : s.snapStored causes w = { s.snapCleared with regs := (s.snapStored causes w).regs } := by
  unfold State.snapStored
  rw [s.snapWritten_frame causes w]
  split <;> rfl

/-- OVR is the only bit in which a stored snapshot differs from a written one. -/
theorem State.snapStored_rbit (a i : Nat) (h : i < 32) :
    (s.snapStored causes w).rbit a i =
      ((s.snapWritten causes w).rbit a i || (s.rbit regSNAP_STATUS 31 && decide (a = regSNAP_STATUS) && decide (i = 30))) := by
  unfold State.snapStored
  split
  · next hov => rw [State.rbit_setRbit _ _ _ _ _ h, hov, Bool.true_and]
  · next hov => rw [eq_false_of_ne_true hov, Bool.false_and, Bool.false_and, Bool.or_false]

theorem State.snapStored_new : (s.snapStored causes w).rbit regSNAP_STATUS 31 = true := by
  rw [State.snapStored_rbit _ _ _ _ _ (by decide), State.snapWritten, State.rbit_setRbit _ _ _ _ _ (by decide)]
  simp

theorem State.snapStored_overwrites (h : s.rbit regSNAP_STATUS 31 = true) : (s.snapStored causes w).rbit regSNAP_STATUS 30 = true := by
  rw [State.snapStored_rbit _ _ _ _ _ (by decide), h]
  simp

theorem State.snapStored_cause : (s.snapStored causes w).rfld regSNAP_STATUS 0 3 = causes % 8 := by
  have hw : (s.snapWritten causes w).rfld regSNAP_STATUS 0 3 = causes % 8 := by
    rw [State.snapWritten, State.rfld_setRbit _ _ _ _ _ _ (by decide), State.rfld_setRfld_self _ _ _ _ _ (by decide)]
    rfl
  unfold State.snapStored
  split
  · rw [State.rfld_setRbit _ _ _ _ _ _ (by decide), hw]
  · exact hw

theorem State.snapStored_reg_word {i : Nat} (h : i < w.length) : (s.snapStored causes w).reg (regSNAP_D i) = w[i] := by
  have hne : regSNAP_D i ≠ regSNAP_STATUS := by simp only [regSNAP_D, regSNAP_STATUS]; omega
  have hw : (s.snapWritten causes w).reg (regSNAP_D i) = w[i] := by
    have hstore := s.snapCleared.snapStoreFrom_reg 0 w h
    rw [Nat.zero_add] at hstore
    rw [State.snapWritten, State.reg_setRbit_ne _ _ _ _ hne, State.reg_setRfld_ne _ _ _ _ _ _ hne]
    exact hstore
  unfold State.snapStored
  split
  · rw [State.reg_setRbit_ne _ _ _ _ hne, hw]
  · exact hw

variable {causes w} (h : s.snap.held = some (causes, w))
include h

theorem exec_snapshotTake_drops (hnew : s.rbit regSNAP_STATUS 31 = true) (hlock : s.rbit regSNAP_CTRL 5 = true) :
    exec .snapshotTake s = .next (s.snapCleared.count regSNAP_DROP_CNT 1) := by
  simp only [exec, execSnapshotTake, State.snapDone, h, hnew, hlock, Bool.and_self, if_true, State.snapCleared]

theorem exec_snapshotTake_stores (hfree : s.rbit regSNAP_STATUS 31 = false ∨ s.rbit regSNAP_CTRL 5 = false) :
    exec .snapshotTake s = .next ((s.snapStored causes w).raiseEvent 7 (nthD w 0 0)) := by
  have hkeep : (s.rbit regSNAP_STATUS 31 && s.rbit regSNAP_CTRL 5) = false := Bool.and_eq_false_iff.2 hfree
  simp only [exec, execSnapshotTake, State.snapDone, h, hkeep, Bool.false_eq_true, if_false]
  rfl

end

section
variable (s : State)

theorem exec_snapshotTake_idle (h : s.snap.held = none) : exec .snapshotTake s = .next s := by
  simp only [exec, execSnapshotTake, State.snapDone, h]

/-! ## Events and the fields of other blocks -/

theorem State.raiseEvent_rbit_block (e : Nat) (pl : Word) (a i : Nat) (he : e < 128) (h : a / 0x10000 ≠ 4) :
    (s.raiseEvent e pl).rbit a i = s.rbit a i := by
  rw [State.rbit, State.raiseEvent_reg_block _ _ _ _ he h, State.rbit]

theorem State.raiseEvent_rfld_block (e : Nat) (pl : Word) (a lo len : Nat) (he : e < 128) (h : a / 0x10000 ≠ 4) :
    (s.raiseEvent e pl).rfld a lo len = s.rfld a lo len := by
  rw [State.rfld, State.raiseEvent_reg_block _ _ _ _ he h, State.rfld]

theorem State.raiseEvent_course (e : Nat) (pl : Word) (n : CourseId) : (s.raiseEvent e pl).course n = s.course n := by
  rw [State.raiseEvent_frame]
  rfl

end

/-! ## Scrub passes and signature checks (R375) -/

section
variable (s : State)

theorem testWord_of_lt (k : Nat) {target result : Nat} (ht : target < 256) (hr : result < 4) :
    testWord k target result = BitVec.ofNat 32 (k % 256 * 2 ^ 24 + target * 2 ^ 16 + result) := by
  rw [testWord, Nat.mod_eq_of_lt ht, Nat.mod_eq_of_lt hr]

theorem synWord_of_lt {k syn : Nat} (hk : k < 32) (hs : syn < 256) : synWord k syn = BitVec.ofNat 32 (k * 2 ^ 24 + syn) := by
  rw [synWord, Nat.mod_eq_of_lt hk, Nat.mod_eq_of_lt hs]

theorem exec_scrubPassComplete_enabled {dram : Bool} (hen : s.rbit regFAULT_SCRUB (b2n dram) = true) (errs : List (Fin 22 × Word × Byte × Bool)) :
    exec (.scrubPassComplete dram errs) s =
      .next ((errs.foldl (fun (t : State) e => t.scrubError dram e) s).raiseEvent 90 (BitVec.ofNat 32 (9 * 2 ^ 24 + b2n dram * 2 ^ 16 + 1))) := by
  rw [← testWord_of_lt 9 (by cases dram <;> decide) (by decide)]
  simp only [exec, execScrubPassComplete, hen, if_true]

/-- Without an armed injection a scrub reports every error of its own memory, and none carries INJ (R369, R371). -/
theorem State.scrubError_unarmed (hu : Unarmed s) {dram : Bool} {k : Fin 22} (hk : k.val = 17 ↔ dram = true) (a : Word) (y : Byte) (hard : Bool) :
    s.scrubError dram (k, a, y, hard) =
      if hard then s.uncorrectable k.val false a (BitVec.ofNat 32 (k.val * 2 ^ 24 + y.toNat))
      else s.corrected false a (BitVec.ofNat 32 (k.val * 2 ^ 24 + y.toNat)) := by
  have hown : (decide (k.val = 17) != dram) = false := by
    rw [(Bool.eq_iff_iff.2 (decide_eq_true_iff.trans hk) : decide (k.val = 17) = dram), bne_self_eq_false]
  have harm : bit (s.reg regFAULT_INJCTRL) 31 = false := hu
  rw [← synWord_of_lt (by omega) y.isLt]
  simp only [State.scrubError, State.armedUnit, hown, harm, Bool.false_and, Bool.or_self, Bool.false_eq_true, if_false]

section
variable (hen : s.rbit regFAULT_SCRUB 2 = true) {n : CourseId} (hsleep : (s.course n).phase = .sleep)
include hen hsleep

theorem exec_macCheckComplete_passes : exec (.macCheckComplete n true) s = .next (s.causeEnds (128 + n.val)) := by
  simp only [exec, execMacCheckComplete, hen, hsleep, decide_true, Bool.and_self, if_true]

theorem exec_macCheckComplete_fails :
    exec (.macCheckComplete n false) s = .next ((s.causeBegins (128 + n.val)).raiseEvent 90 (BitVec.ofNat 32 (8 * 2 ^ 24 + n.val * 2 ^ 16 + 2))) := by
  rw [← testWord_of_lt 8 (by omega) (by decide)]
  simp only [exec, execMacCheckComplete, hen, hsleep, decide_true, Bool.and_self, if_true, Bool.false_eq_true, if_false]

end

/-! ## The start of a test (R376) -/

section
variable (m : Master) {v : Word} (hgo : bit v 31 = true) (hrun : bit v 30 = false)
include hgo hrun

theorem exec_testRequest_go : exec (.testRequest m v) s = .next (s.testGo (fld v 0 4) (fld v 8 8)) := by
  simp only [exec, execTestRequest, State.testWrite, hgo, hrun, if_true, Bool.false_eq_true, if_false]

end

theorem State.testGo_unlisted {test target : Nat} (h : testListed test target = false) :
    s.testGo test target = s.setRfld regFAULT_TESTSTAT 28 3 4 := by
  simp only [State.testGo, h, Bool.not_false, if_true]

section
variable {test target : Nat} (hl : testListed test target = true)
include hl

theorem State.testGo_refused (h : s.test.isSome = true ∨ s.testPermitted = false) :
    s.testGo test target = s.setRfld regFAULT_TESTSTAT 28 3 3 := by
  have hr : (s.test.isSome || !s.testPermitted) = true := by rwa [Bool.or_eq_true, Bool.not_eq_true']
  simp only [State.testGo, hl, hr, Bool.not_true, Bool.false_eq_true, if_false, if_true]

theorem State.testGo_starts (hnone : s.test = none) (hp : s.testPermitted = true) :
    s.testGo test target =
      let u := (({ s with test := some (test, target, s.rbit (regC_CTRL target) 0) } : State).setReg regFAULT_TESTSTAT 0x80000000#32).causeBegins 53
      if test = 1 then u.setRbit (regC_CTRL target) 0 else u := by
  simp only [State.testGo, hl, hp, hnone, Bool.not_true, Option.isSome_none, Bool.or_self, Bool.false_eq_true, if_false]

end

/-! ## The end of a test (R376) -/

section
variable (k c : Nat) (halted : Bool) (result code : Nat)

/-- The state in which the result of a test stands and the cause of source 53 has ended; its Course is not released yet. -/
def State.testResult : State := (({ s with test := none } : State).setReg regFAULT_TESTSTAT (BitVec.ofNat 32 (result * 2 ^ 28))).causeEnds 53

/-- A tested Course takes back the halt that it had before the test, and is due for a reset. -/
def State.testRelease : State := (s.putRbit (regC_CTRL c) 0 halted).modCourse (fin 7 c) fun d => { d with resetReq := true }

theorem State.testEnd_eq :
    s.testEnd (k, c, halted) result code =
      (if k = 1 then (s.testResult result).testRelease c halted else s.testResult result).raiseEvent 91 (testWord k c code) := rfl

/-- A release reaches of the registers only the control register of its Course. -/
theorem State.testEnd_reg {a : Nat} (h : a / 0x10000 = 3) :
    (s.testEnd (k, c, halted) result code).reg a = (s.testResult result).reg a := by
  rw [State.testEnd_eq, State.raiseEvent_reg_block _ _ _ _ (by decide) (by omega)]
  split
  · rw [State.testRelease, State.reg_modCourse, State.reg_putRbit_ne _ _ _ _ _ (by simp only [regC_CTRL]; omega)]
  · rfl

theorem State.testEnd_test : (s.testEnd (k, c, halted) result code).test = none := by
  rw [State.testEnd_eq, State.raiseEvent_frame]
  split <;> rfl

theorem State.testEnd_status : (s.testEnd (k, c, halted) result code).reg regFAULT_TESTSTAT = BitVec.ofNat 32 (result * 2 ^ 28) := by
  rw [State.testEnd_reg _ _ _ _ _ _ (by decide), State.testResult, State.causeEnds, State.reg_putRbit_ne _ _ _ _ _ (by decide), State.reg_setReg_self]

/-- RESULT stands in TESTSTAT[30:28], with RUN clear. -/
theorem testStatus_fields : ∀ result < 8, fld (BitVec.ofNat 32 (result * 2 ^ 28)) 28 3 = result ∧ bit (BitVec.ofNat 32 (result * 2 ^ 28)) 31 = false := by
  decide

theorem State.testEnd_result (h : result < 8) : (s.testEnd (k, c, halted) result code).rfld regFAULT_TESTSTAT 28 3 = result := by
  rw [State.rfld, State.testEnd_status, (testStatus_fields result h).1]

theorem State.testEnd_run (h : result < 8) : (s.testEnd (k, c, halted) result code).rbit regFAULT_TESTSTAT 31 = false := by
  rw [State.rbit, State.testEnd_status, (testStatus_fields result h).2]

theorem State.testEnd_payload (hc : c < 256) (h : code < 4) :
    (s.testEnd (k, c, halted) result code).reg (regEVT_PAYLOAD 91) = BitVec.ofNat 32 (k % 256 * 2 ^ 24 + c * 2 ^ 16 + code) := by
  rw [State.testEnd_eq, State.raiseEvent_payload _ _ _ (by decide), testWord_of_lt k hc h]

theorem State.testEnd_faultLatched {f : Nat} (hf : f < 256) :
    (s.testEnd (k, c, halted) result code).faultLatched f = s.faultLatched f := by
  unfold State.faultLatched State.rbit
  rw [State.testEnd_reg _ _ _ _ _ _ (by simp only [regFAULT_LATCH]; omega), State.testResult, State.causeEnds,
    State.reg_putRbit_ne _ _ _ _ _ (by simp only [regFAULT_LATCH, regFAULT_CAUSE]; omega),
    State.reg_setReg_ne _ _ (by simp only [regFAULT_LATCH, regFAULT_TESTSTAT]; omega)]
  rfl

/-- A tested Course is released with its halt as it was before the test. -/
theorem State.testEnd_releases (hk : k = 1) :
    ((s.testEnd (k, c, halted) result code).course (fin 7 c)).resetReq = true ∧
      (s.testEnd (k, c, halted) result code).rbit (regC_CTRL c) 0 = halted := by
  rw [State.testEnd_eq, if_pos hk, State.testRelease]
  constructor
  · rw [State.raiseEvent_course, State.course_modCourse_self]
  · rw [State.raiseEvent_rbit_block _ _ _ _ _ (by decide) (by simp only [regC_CTRL]; omega), State.rbit_modCourse,
      State.rbit_putRbit _ _ _ _ _ _ (by decide), if_pos ⟨rfl, rfl⟩]

end

/-- The source that a failed test raises: that of its Course, or that of the module (R376). -/
def testSource (k c : Nat) : Nat := if k = 1 then 136 + c else 144

theorem testSource_lt (k : Nat) {c : Nat} (hc : c < 8) : testSource k c < 256 := by
  unfold testSource
  split <;> omega

section
variable {k c : Nat} {halted : Bool} (ht : s.test = some (k, c, halted))
include ht

theorem exec_testAbort_ends (m : Master) : exec (.testAbort m) s = .next (s.testEnd (k, c, halted) 5 3) := by
  simp only [exec, execTestAbort, State.testAbort, ht]

theorem exec_testComplete_ends (pass : Bool) (hc : c < 8) :
    exec (.testComplete pass) s =
      .next ((if pass then s else s.faultOccurs (testSource k c)).testEnd (k, c, halted) (if pass then 1 else 2) (if pass then 1 else 2)) := by
  simp only [exec, execTestComplete, ht, testSource, Nat.mod_eq_of_lt hc]

end

end

/-- Settles O36: triggers, the tick that takes the words and their store; then scrub passes, signature checks, and the start and the ends of a test. -/
theorem snapshotsAndTests : Obligations.SnapshotsAndTests := by
  unfold Obligations.SnapshotsAndTests
  refine ⟨fun s m v falling => ⟨fun hv => ?trigger, fun hen hedge => ⟨_, exec_snapInEdge_triggers s hen hedge, rfl, s.snapTrigger_pend 1⟩,
    fun htick hpend => ?tick, exec_snapshotTake_idle s, fun causes w hheld => ⟨exec_snapshotTake_drops s hheld, fun hfree hlen => ?store⟩⟩,
    fun s m n dram pass v => ⟨fun hen => exec_scrubPassComplete_enabled s hen [], fun k a y hard hen hu hk => ?scrub,
      fun hen hsleep => ⟨exec_macCheckComplete_passes s hen hsleep, exec_macCheckComplete_fails s hen hsleep⟩,
      fun hgo hrun hl => ?start, fun hgo hrun hl => ?unlisted, fun k c halted ht hc => ⟨?complete, ?abort⟩⟩⟩
  case trigger =>
    obtain ⟨w, hw⟩ := exec_trig_triggers s m hv
    refine ⟨_, hw, rfl, ?_, fun a ha => State.reg_setReg_ne s w ha⟩
    simpa using (s.setReg regSNAP_CTRL w).snapTrigger_pend 0
  case tick =>
    obtain ⟨u, hu⟩ := exec_frameTick_snaps s htick
    refine ⟨_, _, hu, u.snapTick_held hpend, u.snapWords_length, ?_, ?_, fun c hc => ?_⟩
    · rw [u.snapTick_fc, u.snapWords_fc.1]
    · rw [u.snapTick_fc, u.snapWords_fc.2]
    · rw [u.snapTick_reg, u.snapWords_cycles hc]
  case store =>
    refine ⟨_, exec_snapshotTake_stores s hheld hfree, ?_, ?_, ?_, fun hnew => ?_, fun i hi => ?_, ?_, State.raiseEvent_payload _ 7 _ (by decide)⟩
    · rw [State.raiseEvent_frame, State.snapStored_frame]
      rfl
    · rw [State.raiseEvent_rbit_block _ _ _ _ _ (by decide) (by decide), State.snapStored_new]
    · rw [State.raiseEvent_rfld_block _ _ _ _ _ _ (by decide) (by decide), State.snapStored_cause]
    · rw [State.raiseEvent_rbit_block _ _ _ _ _ (by decide) (by decide), State.snapStored_overwrites s _ _ hnew]
    · have hi' : i < w.length := hlen ▸ hi
      rw [State.raiseEvent_reg_block _ _ _ _ (by decide) (by simp only [regSNAP_D]; omega), State.snapStored_reg_word _ _ _ hi',
        nthD_of_getElem? 0 (List.getElem?_eq_getElem hi')]
    · rw [State.raiseEvent_pend _ 7 7 _ (by decide) (by decide), decide_eq_true rfl, Bool.or_true]
  case scrub =>
    rw [exec_scrubPassComplete_enabled s hen, List.foldl_cons, List.foldl_nil, s.scrubError_unarmed hu hk]
  case start =>
    rw [exec_testRequest_go s m hgo hrun]
    exact ⟨fun h => congrArg _ (s.testGo_refused hl h), fun hnone hp => congrArg _ (s.testGo_starts hl hnone hp)⟩
  case unlisted => rw [exec_testRequest_go s m hgo hrun, s.testGo_unlisted hl]
  case complete =>
    have hcode : (if pass then 1 else 2) < 4 := by cases pass <;> decide
    refine ⟨_, exec_testComplete_ends s ht pass hc, State.testEnd_test .., State.testEnd_result _ _ _ _ _ _ (by omega),
      State.testEnd_run _ _ _ _ _ _ (by omega), State.testEnd_releases _ _ _ _ _ _, State.testEnd_payload _ _ _ _ _ _ (by omega) hcode, fun hfail => ?_⟩
    have hsrc := testSource_lt k hc
    subst hfail
    rw [show (if k = 1 then 136 + c else 144) = testSource k c from rfl, State.testEnd_faultLatched _ _ _ _ _ _ hsrc,
      if_neg Bool.false_ne_true, State.faultOccurs_latch _ _ _ hsrc, decide_eq_true rfl, Bool.or_true]
  case abort =>
    exact ⟨_, exec_testAbort_ends s ht m, State.testEnd_test .., State.testEnd_result _ _ _ _ _ _ (by decide),
      State.testEnd_run _ _ _ _ _ _ (by decide), State.testEnd_releases _ _ _ _ _ _, State.testEnd_payload _ _ _ _ _ _ (by omega) (by decide)⟩

end Sys2Proof.Machine
end

section
/-! What every step keeps: the queue of waiting commands (log entry 1), the canonical form of registers and memories, and the fuses (R333). The three are one relation between states, so that each operation of the model is gone through once. -/

namespace Sys2Proof.Machine

/- The many short proofs below are elaborated one after another: as tasks of their own they need more threads than the memory limit admits. -/
set_option Elab.async false

/-- The fields that the queue, the canonical forms and the fuses depend on. -/
structure Core where
  regs : List (Nat × Word)
  courses : Vector Course 8
  scratch : List (Nat × Byte)
  dram : List (Nat × Byte)
  flash : List (Nat × Byte)
  fuseKey : List Word
  fuseLock : Bool
  otpRun : Option (Bool × Bool × List Word)
  pending : List Instr

@[reducible] def State.core (s : State) : Core :=
  ⟨s.regs, s.courses, s.scratch, s.dram, s.flash, s.fuseKey, s.fuseLock, s.otpRun, s.pending⟩

/-- The fields that the work of a frame leaves alone: the time, the start-up, and the shared memories. -/
structure Still where
  fc : BitVec 64
  ticking : Bool
  loading : Bool
  ticked : Bool
  scratch : List (Nat × Byte)
  dram : List (Nat × Byte)
  flash : List (Nat × Byte)
  fuseKey : List Word

@[reducible] def State.still (s : State) : Still :=
  ⟨s.fc, s.ticking, s.loading, s.sup.ticked, s.scratch, s.dram, s.flash, s.fuseKey⟩

/-- What a change of the state is part of: a command in general, or the work of a frame. -/
inductive Grade where
  | command
  | work

/-- `t` keeps what every step keeps of `s`: the queue; the canonical forms; and of the fuses what is burnt. The work of a frame also keeps the time, the start-up and the shared memories. -/
structure Kept (γ : Grade) (s t : State) : Prop where
  pending : t.pending = s.pending
  canon : Canon s → Canon t
  fuses : FuseForm s → FuseForm t
  lock : s.fuseLock = true → t.fuseLock = true
  key : FuseForm s → s.unfused = false → t.fuseKey = s.fuseKey
  still : γ = .work → t.still = s.still

variable {γ : Grade} {s t u : State}

theorem Kept.refl (s : State) : Kept γ s s := ⟨rfl, id, id, id, fun _ _ => rfl, fun _ => rfl⟩

theorem Kept.trans (h : Kept γ s t) (k : Kept γ t u) : Kept γ s u where
  pending := k.pending.trans h.pending
  canon := k.canon ∘ h.canon
  fuses := k.fuses ∘ h.fuses
  lock := k.lock ∘ h.lock
  key hf hs := (k.key (h.fuses hf) (by rw [State.unfused, h.key hf hs]; exact hs)).trans (h.key hf hs)
  still e := (k.still e).trans (h.still e)

/-- What is kept depends on the core, and in the work of a frame on what that leaves alone. -/
theorem Kept.of_core (h : Kept γ s t) (e : u.core = t.core := by with_reducible rfl)
    (ew : γ = .work → u.still = t.still := by intro e <;> cases e <;> with_reducible rfl) : Kept γ s u := by
  simp only [State.core, Core.mk.injEq] at e
  obtain ⟨er, ec, es, ed, ef, ek, el, eo, ep⟩ := e
  refine ⟨ep.trans h.pending, fun hs => ?_, fun hs => ?_, fun hs => ?_, fun hf hs => ?_, fun e => (ew e).trans (h.still e)⟩
  · have hc := h.canon hs
    unfold Canon State.course at hc ⊢
    rwa [er, ec, es, ed, ef]
  · have hf := h.fuses hs
    unfold FuseForm State.unfused at hf ⊢
    rwa [ek, eo]
  · rw [el]; exact h.lock hs
  · rw [ek]; exact h.key hf hs

/-! ## Branches and folds -/

theorem Kept.ite {c : Prop} [Decidable c] {a b : State} (ha : Kept γ s a) (hb : Kept γ s b) : Kept γ s (if c then a else b) := by
  split
  · exact ha
  · exact hb

theorem Kept.ite_fst {α : Type} {c : Prop} [Decidable c] {a b : State × α} (ha : Kept γ s a.1) (hb : Kept γ s b.1) :
    Kept γ s (if c then a else b).1 := by
  split
  · exact ha
  · exact hb

theorem Kept.ite_snd {α : Type} {c : Prop} [Decidable c] {a b : α × State} (ha : Kept γ s a.2) (hb : Kept γ s b.2) :
    Kept γ s (if c then a else b).2 := by
  split
  · exact ha
  · exact hb

theorem Kept.ite_mid {α β : Type} {c : Prop} [Decidable c] {a b : (α × State) × β} (ha : Kept γ s a.1.2) (hb : Kept γ s b.1.2) :
    Kept γ s (if c then a else b).1.2 := by
  split
  · exact ha
  · exact hb

theorem Kept.foldl {α : Type} {f : State → α → State} {l : List α} (hf : ∀ t a, Kept γ s t → Kept γ s (f t a)) (h : Kept γ s t) :
    Kept γ s (l.foldl f t) := by
  induction l generalizing t with
  | nil => exact h
  | cons a l ih => exact ih (hf t a h)

theorem Kept.foldl_snd {α β : Type} {f : β × State → α → β × State} {l : List α} {b : β × State}
    (hf : ∀ b a, Kept γ s b.2 → Kept γ s (f b a).2) (h : Kept γ s b.2) : Kept γ s (l.foldl f b).2 := by
  induction l generalizing b with
  | nil => exact h
  | cons a l ih => exact ih (hf b a h)

theorem Kept.foldl_fst {α β : Type} {f : State × β → α → State × β} {l : List α} {b : State × β}
    (hf : ∀ b a, Kept γ s b.1 → Kept γ s (f b a).1) (h : Kept γ s b.1) : Kept γ s (l.foldl f b).1 := by
  induction l generalizing b with
  | nil => exact h
  | cons a l ih => exact ih (hf b a h)

/-- A command keeps what every step keeps: it answers a next state that does. -/
def KeptOut (s : State) (o : Host.Outcome State Fault Refusal) : Prop := ∃ t, o = .next t ∧ Kept .command s t

theorem Kept.next (h : Kept .command s t) : KeptOut s (.next t) := ⟨t, rfl, h⟩

theorem Kept.outState {o : Host.Outcome State Fault Refusal} (h : KeptOut s o) : Kept .command s (outState t o) := by
  obtain ⟨v, rfl, hv⟩ := h
  exact hv

/-! ## The updates of the core -/

theorem Kept.setReg {a : Nat} {v : Word} (h : Kept γ s t) : Kept γ s (t.setReg a v) where
  pending := h.pending
  canon hs := by
    obtain ⟨hr, hm⟩ := h.canon hs
    exact ⟨mapWf_set _ _ _ _ hr, hm⟩
  fuses := h.fuses
  lock := h.lock
  key := h.key
  still := h.still

/-- The memories of a Course stay in canonical form. -/
structure Course.MemKept (c d : Course) : Prop where
  pmem : Memory.wf c.pmem = true → Memory.wf d.pmem = true
  lmem : Memory.wf c.lmem = true → Memory.wf d.lmem = true

theorem Course.MemKept.of_mem {c d : Course} (hp : d.pmem = c.pmem) (hl : d.lmem = c.lmem) : c.MemKept d :=
  ⟨fun h => hp ▸ h, fun h => hl ▸ h⟩

theorem Course.MemKept.refl {c : Course} : c.MemKept c := ⟨id, id⟩

theorem Course.MemKept.ite {c d e : Course} {p : Prop} [Decidable p] (hd : c.MemKept d) (he : c.MemKept e) :
    c.MemKept (if p then d else e) := by
  split
  · exact hd
  · exact he

theorem Course.setCtx_pmem (c : Course) (x : CtxId) (v : Ctx) : (c.setCtx x v).pmem = c.pmem := by cases x <;> rfl

theorem Course.setCtx_lmem (c : Course) (x : CtxId) (v : Ctx) : (c.setCtx x v).lmem = c.lmem := by cases x <;> rfl

theorem Kept.setCourse {n : CourseId} {c : Course} (hc : (t.course n).MemKept c) (h : Kept γ s t) : Kept γ s (t.setCourse n c) where
  pending := h.pending
  canon hs := by
    obtain ⟨hr, hsc, hd, hf, hm⟩ := h.canon hs
    refine ⟨hr, hsc, hd, hf, fun m => ?_⟩
    by_cases e : m = n
    · subst e
      rw [State.course_setCourse_self]
      exact ⟨hc.pmem (hm m).1, hc.lmem (hm m).2⟩
    · rw [State.course_setCourse_ne _ _ e]
      exact hm m
  fuses := h.fuses
  lock := h.lock
  key := h.key
  still := h.still

theorem Kept.modCourse {n : CourseId} {f : Course → Course} (hf : ∀ c : Course, c.MemKept (f c)) (h : Kept γ s t) : Kept γ s (t.modCourse n f) :=
  .setCourse (hf _) h

theorem Kept.modCtx {n : CourseId} {x : CtxId} {f : Course → Ctx} (h : Kept γ s t) : Kept γ s (t.modCourse n fun c => c.setCtx x (f c)) :=
  modCourse (fun _ => .of_mem (Course.setCtx_pmem ..) (Course.setCtx_lmem ..)) h

theorem Kept.scratchWord {k : Nat} {v : Word} (h : Kept .command s t) : Kept .command s { t with scratch := memSetWord t.scratch k v } where
  pending := h.pending
  canon hs := by
    obtain ⟨hr, hsc, hm⟩ := h.canon hs
    exact ⟨hr, Memory.wf_setWord _ _ _ hsc, hm⟩
  fuses := h.fuses
  lock := h.lock
  key := h.key
  still e := nomatch e

theorem Kept.scratchSet {b w : Nat} {v : Word} (h : Kept .command s t) : Kept .command s (t.scratchSet b w v) := (scratchWord h).of_core rfl fun _ => rfl

theorem Kept.dramPut {w : Nat} {v : Word} (h : Kept .command s t) : Kept .command s (t.dramPut w v) where
  pending := h.pending
  canon hs := by
    obtain ⟨hr, hsc, hd, hm⟩ := h.canon hs
    exact ⟨hr, hsc, Memory.wf_setWord _ _ _ hd, hm⟩
  fuses := h.fuses
  lock := h.lock
  key := h.key
  still e := nomatch e

theorem Kept.setRfld {a lo len v : Nat} (h : Kept γ s t) : Kept γ s (t.setRfld a lo len v) := setReg h

theorem Kept.setRbit {a i : Nat} (h : Kept γ s t) : Kept γ s (t.setRbit a i) := setReg h

theorem Kept.putRbit {a i : Nat} {b : Bool} (h : Kept γ s t) : Kept γ s (t.putRbit a i b) := setReg h

theorem Kept.count {a n : Nat} (h : Kept γ s t) : Kept γ s (t.count a n) := setReg h

theorem Kept.setLatch {m a : Nat} {v : Word} (h : Kept γ s t) : Kept γ s (t.setLatch m a v) := h.of_core rfl fun _ => rfl

theorem Kept.returnTo {m : Nat} {v : Word} (h : Kept γ s t) : Kept γ s (t.returnTo m v) := h.of_core rfl fun _ => rfl

theorem Kept.draw (h : Kept γ s t) : Kept γ s t.draw.2 := h.of_core rfl fun _ => rfl

theorem Kept.tabSet {a : Nat} {v : Word} (h : Kept γ s t) : Kept γ s (t.tabSet a v) := h.of_core rfl fun _ => rfl

theorem Kept.shadSet {a : Nat} {v : Word} (h : Kept γ s t) : Kept γ s (t.shadSet a v) := h.of_core rfl fun _ => rfl

theorem Kept.tabLoad {a : Nat} {v : Word} (h : Kept γ s t) : Kept γ s (t.tabLoad a v) := shadSet (tabSet h)

theorem Kept.sliceSwitch (h : Kept γ s t) : Kept γ s t.sliceSwitch := ite (putRbit (putRbit h)) h

theorem Kept.divChange (h : Kept γ s t) : Kept γ s t.divChange := ite h.of_core h

theorem Kept.unhold (h : Kept γ s t) : Kept γ s t.unhold := ite (divChange (sliceSwitch h)) h

theorem Kept.servePort {p m : Nat} (h : Kept γ s t) : Kept γ s (t.servePort p m) := h.of_core rfl fun _ => rfl

theorem Kept.bumpSeq {e : Nat} (h : Kept γ s t) : Kept γ s (t.bumpSeq e) := ite h.of_core h

theorem Kept.queueToken {e : Nat} {pl : Word} (h : Kept γ s t) : Kept γ s (t.queueToken e pl) :=
  ite (ite (setRbit (count (bumpSeq h))) (.of_core (bumpSeq h))) h

theorem Kept.raiseEvent {e : Nat} {pl : Word} (h : Kept γ s t) : Kept γ s (t.raiseEvent e pl) := queueToken (setReg (setRbit h))

theorem Kept.configError {a : Nat} (h : Kept γ s t) : Kept γ s (t.configError a) := raiseEvent h

theorem Kept.tb0Words (h : Kept γ s t) : Kept γ s t.tb0Words.2 := ite_snd (draw (draw h)) h

theorem Kept.recordFault {src : Nat} {inj : Bool} {det syn : Word} (h : Kept γ s t) : Kept γ s (t.recordFault src inj det syn) :=
  raiseEvent (setReg (setReg (setReg (setReg (setReg (setReg (tb0Words h)))))))

theorem Kept.creset {src : Nat} (h : Kept γ s t) : Kept γ s (t.creset src) := by
  unfold State.creset
  split
  · exact ite (modCourse (fun _ => .of_mem rfl rfl) h) h
  · exact h

theorem Kept.reactions {src : Nat} (h : Kept γ s t) : Kept γ s (t.reactions src) := ite h.of_core h.of_core

theorem Kept.latchFault {src : Nat} (h : Kept γ s t) : Kept γ s (t.latchFault src) := reactions (setReg (setRbit h))

theorem Kept.raiseAll {srcs : List Nat} {det : Option (Bool × Word × Word)} (h : Kept γ s t) : Kept γ s (t.raiseAll srcs det) := by
  unfold State.raiseAll
  refine ite h (ite (count (foldl (@latchFault γ s) h)) ?_)
  split
  · exact foldl (@latchFault γ s) h
  · dsimp only
    split
    all_goals exact recordFault (count (foldl (@latchFault γ s) h))

theorem Kept.faultOccurs {src : Nat} (h : Kept γ s t) : Kept γ s (t.faultOccurs src) := creset (ite h (raiseAll h))

theorem Kept.causeBegins {src : Nat} (h : Kept γ s t) : Kept γ s (t.causeBegins src) :=
  ite (setRbit h) (ite (setRbit h) (creset (raiseAll (setRbit h))))

theorem Kept.causeEnds {src : Nat} (h : Kept γ s t) : Kept γ s (t.causeEnds src) := putRbit h

theorem Kept.setCause {src : Nat} {b : Bool} (h : Kept γ s t) : Kept γ s (t.setCause src b) := ite (causeBegins h) (causeEnds h)

theorem Kept.corrected {inj : Bool} {det syn : Word} (h : Kept γ s t) : Kept γ s (t.corrected inj det syn) := ite (count h) (raiseAll (count h))

theorem Kept.uncorrectable {k : Nat} {inj : Bool} {det syn : Word} (h : Kept γ s t) : Kept γ s (t.uncorrectable k inj det syn) :=
  creset (ite h (raiseAll h))

theorem Kept.memRead {k u' : Nat} (h : Kept γ s t) : Kept γ s (t.memRead k u') :=
  ite (ite h (ite (corrected h) (ite (uncorrectable h) (ite (uncorrectable (draw h)) (corrected (draw h)))))) h

theorem Kept.memTouch {k : Nat} {p : Nat → Bool} (h : Kept γ s t) : Kept γ s (t.memTouch k p) := ite (memRead h) h

theorem Kept.dramTouch {w n : Nat} (h : Kept γ s t) : Kept γ s (t.dramTouch w n) := memTouch h

theorem Kept.memMay {k : Nat} {p : Nat → Bool} (h : Kept γ s t) : Kept γ s (t.memMay k p) := ite (ite (memTouch (draw h)) (draw h)) h

theorem Kept.memReads {k : Nat} {us : List Nat} (h : Kept γ s t) : Kept γ s (t.memReads k us) := foldl (fun _ _ h => memRead h) h

theorem Kept.unmapped (h : Kept γ s t) : Kept γ s t.unmapped := faultOccurs h

theorem Kept.scratchRefused {kind m bank : Nat} {addr : Word} (h : Kept γ s t) : Kept γ s (t.scratchRefused kind m bank addr) :=
  faultOccurs (count (ite h (setReg (setReg h))))

theorem Kept.ridgeRecord {cause m : Nat} {write : Bool} {addr : Word} (h : Kept γ s t) : Kept γ s (t.ridgeRecord cause m write addr) :=
  count (ite h (setReg (setReg h)))

theorem Kept.ridgeRefused {cause m : Nat} {write : Bool} {addr : Word} (h : Kept γ s t) : Kept γ s (t.ridgeRefused cause m write addr) :=
  faultOccurs (ridgeRecord h)

theorem Kept.scrTouch {m : Nat} (h : Kept γ s t) : Kept γ s (t.scrTouch m) := ite h h.of_core

theorem Kept.dramSet {w : Nat} {v : Word} (h : Kept .command s t) : Kept .command s (t.dramSet w v) := by
  unfold State.dramSet
  dsimp only
  exact .of_core (dramPut h)


theorem Kept.meterPoint {k p : Nat} (h : Kept γ s t) : Kept γ s (t.meterPoint k p) := h.of_core rfl fun _ => rfl

theorem Kept.meterWork {k : Nat} (h : Kept γ s t) : Kept γ s (t.meterWork k) := setRfld (foldl (fun _ _ h => meterPoint h) h)

theorem Kept.meterReset {p : Nat} (h : Kept γ s t) : Kept γ s (t.meterReset p) := h.of_core rfl fun _ => rfl

theorem Kept.stepSection {k j : Nat} {x : Int} (h : Kept γ s t) : Kept γ s (t.stepSection k j x).2 := by
  unfold State.stepSection
  extract_lets t1 _ _ _ _ _ t2 t3 t4 t5 _
  have h2 : Kept γ s t2 := .of_core (memTouch h)
  have h4 : Kept γ s t4 := ite (setRbit (ite (setRbit h2) h2)) (ite (setRbit h2) h2)
  exact ite_snd h4 (of_core (count h4))

theorem Kept.clearBound {n : CourseId} (h : Kept γ s t) : Kept γ s (t.clearBound n) := h.of_core rfl fun _ => rfl

theorem Kept.stepSections {n first frame : Nat} {x : Int} (h : Kept γ s t) : Kept γ s (t.stepSections n first frame x).2 := by
  induction n generalizing t first x with
  | zero => exact h
  | succ n ih => exact ih (stepSection h)

theorem Kept.chainStep {k c : Nat} (h : Kept γ s t) : Kept γ s (t.chainStep k c) := by
  unfold State.chainStep
  exact of_core (stepSections h)

theorem Kept.eqWork {k : Nat} (h : Kept γ s t) : Kept γ s (t.eqWork k) := foldl (fun _ _ h => chainStep h) h

theorem Kept.setSec {sec : Nat} {v : Section} (h : Kept γ s t) : Kept γ s (t.setSec sec v) := h.of_core rfl fun _ => rfl

theorem Kept.secBegin {sec c : Nat} (h : Kept γ s t) : Kept γ s (t.secBegin sec c) := setSec h

theorem Kept.secChange {sec c : Nat} (h : Kept γ s t) : Kept γ s (t.secChange sec c) := ite (secBegin h) (raiseEvent (count (setSec h)))

theorem Kept.derr {n : CourseId} {x : CtxId} {k : RefKind} {write : Bool} (h : Kept γ s t) : Kept γ s (t.derr n x k write) := by
  unfold State.derr
  dsimp only
  refine faultOccurs (setRbit ?_)
  split
  · exact h
  · exact scratchRefused h
  · exact ridgeRefused h
  · exact ridgeRecord h

theorem Kept.pathless {m : Master} {a : Nat} {write : Bool} (h : Kept γ s t) : Kept γ s (t.pathless m a write) :=
  ite (modCourse (fun _ => .of_mem rfl rfl) (derr h)) (unmapped (ridgeRecord h))

theorem Kept.nearStore {n : CourseId} {x : CtxId} {as : List Nat} {vs : List Word} (h : Kept γ s t) : Kept γ s (t.nearStore n x as vs) := by
  induction as generalizing t vs with
  | nil => exact h
  | cons a as ih =>
    cases vs with
    | nil => exact h
    | cons v vs => exact ih (ite (ite (modCourse (fun _ => ⟨id, Memory.wf_setWord _ _ _⟩) h) (modCourse (fun _ => .of_mem rfl rfl) h)) (derr h))

theorem Kept.feedStore {n : CourseId} {x : CtxId} {as : List Nat} {vs : List Word} (h : Kept γ s t) : Kept γ s (t.feedStore n x as vs) := by
  induction as generalizing t vs with
  | nil => exact h
  | cons a as ih =>
    cases vs with
    | nil => exact h
    | cons v vs => exact ih (ite (modCourse (fun _ => .of_mem rfl rfl) h) (derr h))


theorem Kept.moveStart {n : CourseId} {a : Nat} (h : Kept γ s t) : Kept γ s (t.moveStart n a).2 :=
  ite_snd h (ite_snd h (setCourse (Course.MemKept.of_mem rfl rfl) h))

theorem Kept.moveChecked {m : Move} (h : Kept γ s t) : Kept γ s (t.moveChecked m) := by
  unfold State.moveChecked
  dsimp only
  exact memTouch (memTouch h)

theorem Kept.moveSet {a : Nat} {v : Word} (h : Kept .command s t) : Kept .command s (t.moveSet a v) := by
  unfold State.moveSet
  exact ite (dramPut h) (scratchWord h)

theorem Kept.moveCopy {m : Move} {count : Nat} (h : Kept .command s t) : Kept .command s (t.moveCopy m count) := foldl (fun _ _ h => moveSet h) h

theorem Kept.moveResult {n : CourseId} {m : Move} {count : Nat} (h : Kept .command s t) : Kept .command s (t.moveResult n m count) :=
  of_core (foldl (fun _ _ h => moveSet (draw h)) (moveCopy h)) rfl fun _ => rfl

theorem Kept.moveEnd {n : CourseId} {mv : Move} {st : MoveState} (h : Kept γ s t) : Kept γ s (t.moveEnd n mv st) :=
  modCourse (fun _ => .of_mem rfl rfl) h

theorem Kept.nearServed {n : CourseId} {x : CtxId} {addrs : List Nat} (h : Kept γ s t) : Kept γ s (t.nearServed n x addrs) :=
  ite (derr (memReads h)) (memReads h)

theorem Kept.issueRead {n : CourseId} {x : CtxId} {io : Bool} {addrs : List Nat} (h : Kept γ s t) : Kept γ s (t.issueRead n x io addrs).2 := by
  unfold State.issueRead
  dsimp only
  split
  · exact derr h
  · exact ite (modCourse (fun _ => .ite (.of_mem rfl rfl) (.of_mem rfl rfl)) h) (ite (nearServed h) h)
  · exact h

theorem Kept.issueReads {n : CourseId} {x : CtxId} {c : Ctx} {amode : Word} {ops : List Instr} (h : Kept γ s t) :
    Kept γ s (t.issueReads n x c amode ops).2 := by
  induction ops generalizing t with
  | nil => exact h
  | cons i is ih =>
    unfold State.issueReads
    split
    · exact ih h
    · exact ih (issueRead h)

theorem Kept.ratioNow {c : Nat} (h : Kept γ s t) : Kept γ s (t.ratioNow c).2 := ite_snd h (ite_snd h (draw h))

/-- A coprocessor operation that is not refused (R103, R104). -/
theorem Kept.extension {n : CourseId} {x : CtxId} {c : Ctx} {op : Instr} {dd : Fin 32} {lat : Nat} {v : Word} (h : Kept γ s t)
    (he : t.extension n x c op = some (dd, lat, some (v, u))) : Kept γ s u := by
  unfold State.extension at he
  split at he
  all_goals
    simp only [Option.some.injEq, Prod.mk.injEq, Option.ite_none_right_eq_some, reduceCtorEq] at he
  · obtain ⟨-, -, -, -, rfl⟩ := he
    exact stepSection h
  · obtain ⟨-, -, -, e⟩ := he
    rw [← show _ = u from congrArg Prod.snd e]
    exact ratioNow h
  · obtain ⟨-, -, -, -, rfl⟩ := he
    exact h
  · obtain ⟨-, -, -, -, rfl⟩ := he
    exact h
  · obtain ⟨-, -, -, e⟩ := he
    rw [← show _ = u from congrArg Prod.snd e]
    exact moveStart h
  · obtain ⟨-, -, -, -, rfl⟩ := he
    exact h

theorem Kept.runExtension {n : CourseId} {x : CtxId} {c : Ctx} {ops : List Instr} (h : Kept γ s t) : Kept γ s (t.runExtension n x c ops).2 := by
  unfold State.runExtension
  split
  case h_1 => exact h
  case h_2 hf =>
    obtain ⟨op, _, he⟩ := List.exists_of_findSome?_eq_some hf
    exact extension h he
  case h_3 =>
    dsimp only
    exact derr h

theorem Kept.runStore {n : CourseId} {x : CtxId} {io : Bool} {addrs : List Nat} {ws : List Word} (h : Kept γ s t) : Kept γ s (t.runStore n x io addrs ws) := by
  unfold State.runStore
  split
  · exact ite (feedStore h) (nearStore h)
  · exact modCourse (fun _ => .of_mem rfl rfl) h
  · exact derr h

theorem Kept.runStores {n : CourseId} {x : CtxId} {c : Ctx} {amode : Word} {ops : List Instr} (h : Kept γ s t) :
    Kept γ s (t.runStores n x c amode ops).2 := by
  induction ops generalizing t with
  | nil => exact h
  | cons i is ih =>
    unfold State.runStores
    split
    · exact ih h
    · exact ih (runStore h)

theorem Kept.illegalSyllable {n : CourseId} {x : CtxId} (h : Kept γ s t) : Kept γ s (t.illegalSyllable n x) := raiseEvent (faultOccurs (setRbit h))

theorem Kept.ctlSequence {n : CourseId} {x : CtxId} {pc : BitVec 14} (h : Kept γ s t) : Kept γ s (t.ctlSequence n x pc) := raiseEvent h

theorem Kept.modeError {n : CourseId} {x : CtxId} {ops : List Instr} (h : Kept γ s t) : Kept γ s (t.modeError n x ops) :=
  foldl (fun _ _ h => ite h (configError h.of_core)) h

theorem Kept.completeIssue {n : CourseId} {x : CtxId} {st : Stall} (h : Kept γ s t) : Kept γ s (t.completeIssue n x st) := by
  unfold State.completeIssue
  extract_lets _ _ _ _ _ _ _ r3 r4 _ _ s5
  have h5 : Kept γ s s5 := modCtx (runStores (runExtension h))
  exact ite (illegalSyllable h5) h5

theorem Kept.finishBundle {n : CourseId} {x : CtxId} {c0 : Ctx} {st : Stall} {repeated : Bool} (h : Kept γ s t) : Kept γ s (t.finishBundle n x c0 st repeated) :=
  ite (ctlSequence (modCourse (fun _ => .of_mem (Course.setCtx_pmem ..) (Course.setCtx_lmem ..)) h)) (modCourse (fun _ => .of_mem (Course.setCtx_pmem ..) (Course.setCtx_lmem ..)) h)

theorem Kept.issueStall {n : CourseId} {x : CtxId} {st : Stall} (h : Kept γ s t) : Kept γ s (t.issueStall n x st) := by
  unfold State.issueStall
  exact modCtx (issueReads (modeError (memReads h)))

theorem Kept.runStall {k : Nat} {n : CourseId} {x : CtxId} (h : Kept γ s t) : Kept γ s (State.runStall k t n x) := by
  induction k generalizing t with
  | zero => exact h
  | succ k ih =>
    unfold State.runStall
    split
    · exact h
    · exact ite (ite (finishBundle (completeIssue h)) (ih (issueStall (completeIssue h)))) h

theorem Kept.settle {n : CourseId} (h : Kept γ s t) : Kept γ s (t.settle n) := ite (setCourse (Course.MemKept.of_mem rfl rfl) h) h

theorem Kept.resumeStall {n : CourseId} {x : CtxId} (h : Kept γ s t) : Kept γ s (t.resumeStall n x) := by
  unfold State.resumeStall
  split
  · exact h
  · exact settle (runStall h)

theorem Kept.skipBundle {n : CourseId} {x : CtxId} {len : Nat} (h : Kept γ s t) : Kept γ s (t.skipBundle n x len) :=
  settle (modCourse (fun _ => .of_mem (Course.setCtx_pmem ..) (Course.setCtx_lmem ..)) h)

theorem Kept.issueBundle {n : CourseId} {x : CtxId} {syls : List Syl} {noStop : Bool} (h : Kept γ s t) : Kept γ s (t.issueBundle n x syls noStop) := by
  unfold State.issueBundle
  dsimp only
  split
  · exact ite (resumeStall (issueStall h)) (skipBundle h)
  · exact resumeStall (issueStall h)
  · exact resumeStall (issueStall h)

theorem Kept.syllable {g : SylHdr} {v : SylUnit} {bad : Bool} {op : Instr} (h : Kept γ s t) : Kept γ s (t.syllable g v bad op) :=
  ite (ite (issueBundle (modCtx h)) (modCtx h)) h


theorem Kept.setLine {n l : Nat} {v : Line} (h : Kept γ s t) : Kept γ s (t.setLine n l v) := h.of_core rfl fun _ => rfl

theorem Kept.setTap {n j : Nat} {v : Tap} (h : Kept γ s t) : Kept γ s (t.setTap n j v) := h.of_core rfl fun _ => rfl

theorem Kept.delayError {kind n i : Nat} (h : Kept γ s t) : Kept γ s (t.delayError kind n i) := raiseEvent (ite (setRbit h) (setReg (setRbit h)))

theorem Kept.checkLine {n l : Nat} (h : Kept γ s t) : Kept γ s (t.checkLine n l) := ite (ite (delayError h) (ite (delayError h) h)) h

theorem Kept.checkTap {n j : Nat} (h : Kept γ s t) : Kept γ s (t.checkTap n j) := ite (ite (delayError h) (ite (delayError h) h)) h

theorem Kept.checkDelayWord {a : Nat} (h : Kept γ s t) : Kept γ s (t.checkDelayWord a) := by
  unfold State.checkDelayWord
  split
  · exact h
  · exact ite (checkTap h) (foldl (fun _ _ h => checkTap h) (checkLine h))

theorem Kept.retireTaps {n : CourseId} {k : Nat} {ws : List (Nat × Word)} (h : Kept γ s t) : Kept γ s (t.retireTaps n k ws) :=
  foldl (fun _ _ h => setLine h) h

theorem Kept.prefetchTap {n : CourseId} {k j : Nat} (h : Kept γ s t) : Kept γ s (t.prefetchTap n k j) :=
  ite (modCourse (fun _ => .of_mem rfl rfl) (setTap h)) (modCourse (fun _ => .of_mem rfl rfl) h)

theorem Kept.fillBank {n : CourseId} {k : Nat} (h : Kept γ s t) : Kept γ s (t.fillBank n k) := by
  unfold State.fillBank
  extract_lets s1
  have h1 : Kept γ s s1 := modCourse (fun _ => .of_mem rfl rfl) h
  exact foldl (fun _ _ h => prefetchTap h) h1

theorem Kept.releaseMbox {n : CourseId} (h : Kept γ s t) : Kept γ s (t.releaseMbox n) := by
  unfold State.releaseMbox
  dsimp only
  split
  · exact h
  · refine ite (resumeStall (modCourse ?_ (foldl ?_ h))) h
    · intro _
      exact .of_mem rfl rfl
    · intro _ _ h
      split
      · exact nearServed h
      · exact h

theorem Kept.tapReads {n : Nat} (h : Kept γ s t) : Kept γ s (t.tapReads n) := memMay h

theorem Kept.tapBegin {n j c d f : Nat} (h : Kept γ s t) : Kept γ s (t.tapBegin n j c d f) := setTap h

theorem Kept.tapDefer {n j c d : Nat} (h : Kept γ s t) : Kept γ s (t.tapDefer n j c d) := raiseEvent (count (setTap h))

theorem Kept.tapChange {n j c d f : Nat} (h : Kept γ s t) : Kept γ s (t.tapChange n j c d f) := ite (tapBegin h) (tapDefer h)

theorem Kept.tapTurns {fixed : List (Nat × Word)} {replaced : List Nat} {c : Nat} (h : Kept γ s t) : Kept γ s (t.tapTurns fixed replaced c) := by
  unfold State.tapTurns
  refine foldl ?_ h
  intro _ _ h
  dsimp only
  split
  · exact ite (tapBegin h) h
  · exact h

theorem Kept.delayFix {fixed : List (Nat × Word)} {c : Nat} (h : Kept γ s t) : Kept γ s (t.delayFix fixed c) :=
  foldl (fun _ _ h => foldl (fun _ _ h => tapChange (setLine h)) h) (tapTurns h)

theorem Kept.tapStore {w : Nat} {v : Word} (h : Kept .command s t) : Kept .command s (t.tapStore w v) := by
  unfold State.tapStore
  split
  · exact dramPut h
  · exact ridgeRefused h

theorem Kept.tapForget {n j : Nat} (h : Kept γ s t) : Kept γ s (t.tapForget n j) := h.of_core rfl fun _ => rfl

theorem Kept.tapsAnew {n : Nat} (h : Kept γ s t) : Kept γ s (t.tapsAnew n) := foldl (fun _ _ h => ite h (tapForget h)) h

theorem Kept.delayPut {d : DelayWord} {a : Nat} {v : Word} (h : Kept γ s t) : Kept γ s (t.delayPut d a v) :=
  checkDelayWord (tapsAnew (ite (tapForget (tabLoad h)) (tabLoad h)))

theorem Kept.handOver {b : Fin 64} (h : Kept γ s t) : Kept γ s (t.handOver b) :=
  raiseEvent (ite (setRbit (.of_core (setReg h))) (setRbit (.of_core (setReg h))))

theorem Kept.awaitBank {m : Nat} {b : Fin 64} (h : Kept γ s t) : Kept γ s (t.awaitBank m b) := ite (handOver h) h

theorem Kept.stallField {modelled : Nat} {isOpen : Bool} (h : Kept γ s t) : Kept γ s (t.stallField modelled isOpen).2 := ite_snd (draw h) h

theorem Kept.resumeTask {n : CourseId} (h : Kept γ s t) : Kept γ s (t.resumeTask n) := by
  unfold State.resumeTask
  dsimp only
  split
  · exact resumeStall (ite (issueStall (modCourse (fun _ => .of_mem rfl rfl) h)) (modCourse (fun _ => .of_mem rfl rfl) h))
  · exact modCourse (fun _ => .of_mem rfl rfl) h

theorem Kept.retireZero {n : CourseId} {from' k : Nat} (h : Kept γ s t) : Kept γ s (t.retireZero n from' k) := foldl (fun _ _ h => retireTaps h) h

theorem Kept.abortTask {n : CourseId} (h : Kept γ s t) : Kept γ s (t.abortTask n) := by
  unfold State.abortTask
  split
  · exact h
  · exact raiseEvent (setRbit (count (modCourse (fun _ => .of_mem rfl rfl) h)))

theorem Kept.courseReset {n : CourseId} {k : Nat} (h : Kept γ s t) : Kept γ s (t.courseReset n k) := by
  unfold State.courseReset
  extract_lets c s1 s2
  have h1 : Kept γ s s1 := foldl (fun _ _ h => retireTaps h) h
  exact clearBound (modCourse (fun _ => .of_mem rfl rfl) (abortTask h1))

theorem Kept.courseTick {n : CourseId} {k : Nat} (h : Kept γ s t) : Kept γ s (t.courseTick n k) :=
  ite (courseReset (modCourse (fun _ => .of_mem rfl rfl) (ite (retireZero (setRfld (stallField (ite (count h) h)))) (setRfld (stallField (ite (count h) h)))))) (modCourse (fun _ => .of_mem rfl rfl) (ite (retireZero (setRfld (stallField (ite (count h) h)))) (setRfld (stallField (ite (count h) h)))))

theorem Kept.courseSleepTick {n : CourseId} {k : Nat} (h : Kept γ s t) : Kept γ s (t.courseSleepTick n k) :=
  ite (courseTick h) (ite (resumeTask (modCourse (fun _ => .of_mem rfl rfl) (ite (setRfld (stallField h)) (retireTaps (setRfld (stallField h)))))) (modCourse (fun _ => .of_mem rfl rfl) (ite (setRfld (stallField h)) (retireTaps (setRfld (stallField h))))))


theorem Kept.setXent {key : Nat} {e : XEntry} (h : Kept γ s t) : Kept γ s (t.setXent key e) := h.of_core rfl fun _ => rfl

theorem Kept.routeBegin {key c : Nat} (h : Kept γ s t) : Kept γ s (t.routeBegin key c) := setXent h

theorem Kept.mixDefer {payload : Nat} (h : Kept γ s t) : Kept γ s (t.mixDefer payload) := raiseEvent (count h)

theorem Kept.routeChange {key c : Nat} (h : Kept γ s t) : Kept γ s (t.routeChange key c) := ite (routeBegin h) (mixDefer (setXent h))

theorem Kept.entryChange {key c : Nat} {old : Word} (h : Kept γ s t) : Kept γ s (t.entryChange key c old) :=
  ite (ite (routeChange h) (ite (setXent h) (routeChange h))) (ite (setXent h) (setXent h))

theorem Kept.setSelector {a : Nat} {v : Selector} (h : Kept γ s t) : Kept γ s (t.setSelector a v) := h.of_core rfl fun _ => rfl

theorem Kept.selBegin {a c g : Nat} (h : Kept γ s t) : Kept γ s (t.selBegin a c g) := setSelector h

theorem Kept.selChange {a c g old : Nat} (h : Kept γ s t) : Kept γ s (t.selChange a c g old) :=
  ite (selBegin (setSelector h)) (mixDefer (setSelector (setSelector h)))

theorem Kept.busWork {k b : Nat} {sum : Int} (h : Kept γ s t) : Kept γ s (t.busWork k b sum) := by
  unfold State.busWork
  extract_lets _ s1 t' s2
  have h_s1 : Kept γ s s1 := h.of_core
  have h_t' : Kept γ s t' := count (setRbit h_s1)
  have h_s2 : Kept γ s s2 := ite (ite h_t' (setReg h_t')) h_s1
  exact ite (count (setRbit h_s2)) h_s2

theorem Kept.matrixWork {k : Nat} (h : Kept γ s t) : Kept γ s (t.matrixWork k) := by
  unfold State.matrixWork
  extract_lets s0 s1 _ s2 s3 _ _
  have h1 : Kept γ s s1 := foldl (fun _ _ h => modCourse (fun _ => .ite .refl (.ite (.of_mem rfl rfl) (.of_mem rfl rfl))) h) (memTouch h)
  clear_value s1
  have h2 : Kept γ s s2 := h1.of_core
  clear_value s2
  exact setReg (foldl (fun _ _ h => busWork h) h2)

theorem Kept.setPort {p : Fin 16} {v : Port} (h : Kept γ s t) : Kept γ s (t.setPort p v) := h.of_core rfl fun _ => rfl

theorem Kept.modPort {p : Fin 16} {f : Port → Port} (h : Kept γ s t) : Kept γ s (t.modPort p f) := setPort h

theorem Kept.portSlip {p : Fin 16} {input : Bool} (h : Kept γ s t) : Kept γ s (t.portSlip p input) := raiseEvent (setRbit (setReg h))

theorem Kept.asrcPlace {c : Nat} {at_ : Int} {w : Word} (h : Kept γ s t) : Kept γ s (t.asrcPlace c at_ w) := h.of_core rfl fun _ => rfl

theorem Kept.asrcPlaceNext {c : Nat} {w : Word} (h : Kept γ s t) : Kept γ s (t.asrcPlaceNext c w) := asrcPlace h

theorem Kept.endpointSample {etype eidx : Nat} {w : Word} (h : Kept γ s t) : Kept γ s (t.endpointSample etype eidx w) :=
  foldl (fun _ _ h => asrcPlaceNext h) h

theorem Kept.asrcSample {c k : Nat} (h : Kept γ s t) : Kept γ s (t.asrcSample c k).2 := ite_snd h (ite_snd (ite_snd h (ite_snd h.of_core h)) (draw h))

theorem Kept.asrcUnlocked {c : Nat} {acq : Bool} {rate : Nat} (h : Kept γ s t) : Kept γ s (t.asrcUnlocked c acq rate) := by
  have forget (v : State) (h : Kept γ s v) : Kept γ s { v with
      asrcRatio := mapDel v.asrcRatio c, conv := { hist := mapDel v.conv.hist c, turn := mapDel v.conv.turn c },
      asrcLost := if v.asrcLost.contains c then v.asrcLost else v.asrcLost ++ [c] } := h.of_core
  unfold State.asrcUnlocked
  exact raiseEvent (forget _ (setRbit (count (setReg h))))

theorem Kept.asrcFollow {c : Nat} (h : Kept γ s t) : Kept γ s (t.asrcFollow c) := ite (asrcUnlocked h) (setReg h.of_core)

theorem Kept.asrcEndpoints {p : Nat → Nat → Bool} (h : Kept γ s t) : Kept γ s (t.asrcEndpoints p) := foldl (@asrcFollow γ s) h

theorem Kept.asrcMisfit {c : Nat} (h : Kept γ s t) : Kept γ s (t.asrcMisfit c) := configError (setRbit h)

theorem Kept.asrcRival {c d : Nat} (h : Kept γ s t) : Kept γ s (t.asrcRival c d) := ite h (asrcFollow (ite (asrcMisfit h) h))

theorem Kept.asrcChanged {c : Nat} (h : Kept γ s t) : Kept γ s (t.asrcChanged c) := by
  unfold State.asrcChanged
  extract_lets _ s1 s2
  have h_s1 : Kept γ s s1 := ite (asrcMisfit h) h
  have h_s2 : Kept γ s s2 := ite (asrcFollow h_s1) (ite (asrcUnlocked h_s1) (setReg h_s1))
  exact foldl (fun _ _ h => asrcRival h) h_s2

theorem Kept.portSamples {p : Fin 16} {ws : List Word} (h : Kept γ s t) : Kept γ s (t.portSamples p ws) := foldl (fun _ _ h => endpointSample h) h

theorem Kept.portFrame {p : Fin 16} {ws : List Word} (h : Kept γ s t) : Kept γ s (t.portFrame p ws) :=
  ite (setPort h) (ite h (ite (putRbit (portSlip (setPort h))) (setPort h)))

theorem Kept.endpointValue {etype eidx selAddr k : Nat} (h : Kept γ s t) : Kept γ s (t.endpointValue etype eidx selAddr k).2 := by
  unfold State.endpointValue
  split
  · exact asrcSample h
  · exact h

theorem Kept.slotValue {p : Fin 16} {i k : Nat} (h : Kept γ s t) : Kept γ s (t.slotValue p i k).2 := ite_snd h (endpointValue h)

theorem Kept.slotPin {p : Fin 16} {i k : Nat} (h : Kept γ s t) : Kept γ s (t.slotPin p i k).2 := ite_snd h (slotValue h)

theorem Kept.slotPins {p : Fin 16} {k : Nat} (h : Kept γ s t) : Kept γ s (t.slotPins p k).2 :=
  ite_snd h (foldl_snd (fun _ _ h => slotPin h) h)

theorem Kept.portSend {p : Fin 16} (h : Kept γ s t) : Kept γ s (t.portSend p) := by
  unfold State.portSend
  dsimp only
  exact modPort (slotPins h)

theorem Kept.portInvalid {p : Fin 16} {moved : Bool} (h : Kept γ s t) : Kept γ s (t.portInvalid p moved) := by
  unfold State.portInvalid
  extract_lets s1 s2 s3
  have h_s1 : Kept γ s s1 := setRbit (putRbit h)
  have h_s2 : Kept γ s s2 := modPort h_s1
  have h_s3 : Kept γ s s3 := raiseEvent (causeBegins h_s2)
  exact asrcEndpoints (ite (raiseEvent h_s3) h_s3)

theorem Kept.portCfgCheck {p : Fin 16} (h : Kept γ s t) : Kept γ s (t.portCfgCheck p) := ite (configError (setRbit h)) h

theorem Kept.portTick {p : Fin 16} (h : Kept γ s t) : Kept γ s (t.portTick p) := setPort h

theorem Kept.portFirst {p : Fin 16} (h : Kept γ s t) : Kept γ s (t.portFirst p) := by
  unfold State.portFirst
  dsimp only
  exact modPort h

theorem Kept.modRx {r : Fin 4} {f : AesRx → AesRx} (h : Kept γ s t) : Kept γ s (t.modRx r f) := h.of_core rfl fun _ => rfl

theorem Kept.rxSlip {r : Fin 4} (h : Kept γ s t) : Kept γ s (t.rxSlip r) := raiseEvent (setRbit (setReg h))

theorem Kept.nonAudioSet {r : Fin 4} (h : Kept γ s t) : Kept γ s (t.nonAudioSet r) := ite (ite (modRx h) (raiseEvent (setRbit (modRx h)))) h

theorem Kept.subSample {r : Fin 4} {prev : Word} {f : Subframe} (h : Kept γ s t) : Kept γ s (t.subSample r prev f).2 := ite_snd (setReg h) h

theorem Kept.rxInvalid {r : Fin 4} {moved : Bool} (h : Kept γ s t) : Kept γ s (t.rxInvalid r moved) :=
  asrcEndpoints (raiseEvent (ite (raiseEvent (causeBegins (modRx (setRbit (putRbit h))))) (causeBegins (modRx (setRbit (putRbit h))))))

theorem Kept.rxCapture {r : Fin 4} {k : Nat} (h : Kept γ s t) : Kept γ s (t.rxCapture r k) := ite (modRx h) (ite (rxSlip (modRx h)) h)

theorem Kept.rxLevel {r : Fin 4} (h : Kept γ s t) : Kept γ s (t.rxLevel r) := by
  unfold State.rxLevel
  dsimp only
  exact modRx h

theorem Kept.modTx {t' : Fin 4} {f : AesTx → AesTx} (h : Kept γ s t) : Kept γ s (t.modTx t' f) := h.of_core rfl fun _ => rfl

theorem Kept.txPresent {t' : Fin 4} {k : Nat} (h : Kept γ s t) : Kept γ s (t.txPresent t' k) := ite (modTx (endpointValue (endpointValue h))) h

theorem Kept.txConverted {t' : Fin 4} {sub : Nat} (h : Kept γ s t) : Kept γ s (t.txConverted t' sub).2 := by
  unfold State.txConverted
  refine ite_snd h ?_
  split
  · exact asrcSample h
  · exact h

theorem Kept.asrcAnchors (h : Kept γ s t) : Kept γ s t.asrcAnchors := foldl (fun _ _ h => asrcUnlocked h) h

theorem Kept.asrcSources (h : Kept γ s t) : Kept γ s t.asrcSources := foldl (fun _ _ h => asrcPlace h) h

theorem Kept.asrcTick (h : Kept γ s t) : Kept γ s t.asrcTick := by
  unfold State.asrcTick
  extract_lets _ s0 s1 _
  have h1 : Kept γ s s1 := foldl (fun _ _ h => of_core (asrcSample h)) (of_core (asrcSources h))
  clear_value s1
  exact h1.of_core

theorem Kept.tokenRejected {t' : Token} (h : Kept γ s t) : Kept γ s (t.tokenRejected t') := ite (setRbit (count h)) (raiseEvent (setRbit (count h)))

theorem Kept.tokenDropped {t' : Token} (h : Kept γ s t) : Kept γ s (t.tokenDropped t') := ite (setRbit (count h)) (raiseEvent (setRbit (count h)))

theorem Kept.offerToken {t' : Token} (h : Kept γ s t) : Kept γ s (t.offerToken t') := by
  unfold State.offerToken
  dsimp only
  refine ite (tokenRejected h) ?_
  split
  · exact ite (tokenRejected h) h.of_core
  · exact ite h.of_core (tokenDropped h)

theorem Kept.dispatchTo {n : CourseId} {e : StoreEntry} (h : Kept γ s t) : Kept γ s (t.dispatchTo n e) := by
  unfold State.dispatchTo
  extract_lets _ s1 s2
  have h2 : Kept γ s s2 := count (setReg (modCourse (fun _ => .of_mem rfl rfl) h))
  clear_value s2
  exact h2.of_core

theorem Kept.forward (h : Kept γ s t) : Kept γ s t.forward := ite h.of_core h

theorem Kept.writeSlot {base : Nat} {msg : List Byte} (h : Kept γ s t) : Kept γ s (t.writeSlot base msg) := tabSet (foldl (fun _ _ h => tabSet h) h)

theorem Kept.fillSlots {n : Nat} (h : Kept γ s t) : Kept γ s (t.fillSlots n) := by
  induction n generalizing t with
  | zero => exact h
  | succ n ih =>
    unfold State.fillSlots
    split
    · exact h
    · exact ite (ih (of_core (writeSlot h))) h

theorem Kept.replySpi {msg : List Byte} (h : Kept γ s t) : Kept γ s (t.replySpi msg) := by
  unfold State.replySpi
  exact ite (of_core (writeSlot h)) (ite h.of_core (count h))

theorem Kept.reply {src : DelronSrc} {type : Nat} {seq : BitVec 16} {body : List Byte} (h : Kept γ s t) : Kept γ s (t.reply src type seq body) := by
  unfold State.reply
  dsimp only
  split
  · exact replySpi h
  · exact h.of_core

theorem Kept.nak {src : DelronSrc} {seq : BitVec 16} {type code : Nat} (h : Kept γ s t) : Kept γ s (t.nak src seq type code) := reply h

theorem Kept.joinQueue {m : Nat} {h' : Word} {ws : List Word} {ack : Option (DelronSrc × BitVec 16)} (h : Kept γ s t) : Kept γ s (t.joinQueue m h' ws ack) :=
  forward h.of_core

theorem Kept.pegRefuse {m b : Nat} (h : Kept γ s t) : Kept γ s (t.pegRefuse m b) := raiseEvent (count (setRbit h))

theorem Kept.pegClose {m : Nat} (h : Kept γ s t) : Kept γ s (t.pegClose m) := by
  unfold State.pegClose
  split
  · exact h
  · exact count (setRbit h.of_core)

theorem Kept.pegHeader {m : Nat} {h' : Word} (h : Kept γ s t) : Kept γ s (t.pegHeader m h') := by
  unfold State.pegHeader
  dsimp only
  refine ite (setRbit (pegRefuse (pegClose h))) ?_
  split
  · exact pegRefuse (faultOccurs (pegClose h))
  · exact pegRefuse (pegClose h)
  · exact ite (joinQueue (pegClose h)) (.of_core (pegClose h))

theorem Kept.pegData {m : Nat} {v : Word} (h : Kept γ s t) : Kept γ s (t.pegData m v) := by
  unfold State.pegData
  split
  · exact h
  · dsimp only
    exact ite (joinQueue h.of_core) h.of_core

theorem Kept.stage {a : Nat} {mask v : Word} (h : Kept γ s t) : Kept γ s (t.stage a mask v) := ite (configError (shadSet h)) (shadSet h)

theorem Kept.setHead {e : PegEntry} (h : Kept γ s t) : Kept γ s (t.setHead e) := h.of_core rfl fun _ => rfl

theorem Kept.popHead (h : Kept γ s t) : Kept γ s t.popHead := h.of_core rfl fun _ => rfl

theorem Kept.skipWord {e : PegEntry} (h : Kept γ s t) : Kept γ s (t.skipWord e).1 := ite_fst (setRbit h) (count (setRbit h))

theorem Kept.stageWords {e : PegEntry} {base : Nat} {ws : List Word} (h : Kept γ s t) : Kept γ s (t.stageWords e base ws).1 := by
  induction ws generalizing t e with
  | nil => exact h
  | cons v vs ih =>
    unfold State.stageWords
    dsimp only
    split
    · exact ite_fst h (ih (stage h))
    · exact ih (skipWord h)

theorem Kept.writeLog {ticket state : Nat} {late hold : Bool} {scene : Option Nat} {mode master tb : Nat} {mask : Word} {c : Nat} {ws : List Word} (h : Kept γ s t) : Kept γ s (t.writeLog ticket state late hold scene mode master tb mask c ws) :=
  setReg (setReg (setReg (setReg (setReg (setReg (setReg (setReg h)))))))

theorem Kept.logState {k : Commit} {state : Nat} (h : Kept γ s t) : Kept γ s (t.logState k state) := ite (setRfld h) h

theorem Kept.takeTicket (h : Kept γ s t) : Kept γ s t.takeTicket.2 := setRfld h

theorem Kept.ackScene {e : PegEntry} {ticket : Nat} (h : Kept γ s t) : Kept γ s (t.ackScene e ticket) := by
  unfold State.ackScene
  split
  · exact h
  · exact reply h

theorem Kept.resolve {e : PegEntry} {mask : Word} {mode tb : Nat} {ws : List Word} {scene : Option Nat} (h : Kept γ s t) :
    Kept γ s (t.resolve e mask mode tb ws scene) := by
  have take := takeTicket h
  have pend (v : State) (c : Commit) (h : Kept γ s v) : Kept γ s { v with commits := v.commits ++ [c] } := h.of_core
  unfold State.resolve
  dsimp only
  split
  · exact ackScene (raiseEvent (setRbit (writeLog take)))
  · refine ackScene (forward (ite (raiseEvent (setRbit (ite (raiseEvent (setRbit ?_)) ?_))) (ite (raiseEvent (setRbit ?_)) ?_)))
    all_goals exact pend _ _ (writeLog take)

theorem Kept.resolveForwarded {ticket : Nat} {mask : Word} {c : Nat} (h : Kept γ s t) : Kept γ s (t.resolveForwarded ticket mask c) := by
  unfold State.resolveForwarded
  dsimp only
  exact .of_core (writeLog (setRfld h))

theorem Kept.revert {mask : Word} (h : Kept γ s t) : Kept γ s (t.revert mask) := foldl (fun _ _ h => shadSet h) h

theorem Kept.sceneLoad {e : PegEntry} {off len fuel : Nat} (h : Kept γ s t) : Kept γ s (t.sceneLoad e off len fuel).1 := by
  induction fuel generalizing t e with
  | zero => exact h
  | succ fuel ih =>
    unfold State.sceneLoad
    refine ite_fst h (ite_fst ?_ (ite_fst h (ih h)))
    split
    · exact ite_fst h (ih (stage h))
    · exact ih (skipWord h)

theorem Kept.sceneTouch {w n : Nat} (h : Kept γ s t) : Kept γ s (t.sceneTouch w n) := dramTouch h

theorem Kept.sceneRefuse {e : PegEntry} {mask : Word} (h : Kept γ s t) : Kept γ s (t.sceneRefuse e mask) :=
  ite (raiseEvent (setRbit (revert h))) (ackScene (raiseEvent (raiseEvent (writeLog (takeTicket (setRbit (revert h)))))))

theorem Kept.cancel {ticket : Nat} (h : Kept γ s t) : Kept γ s (t.cancel ticket) := by
  unfold State.cancel
  split
  · exact raiseEvent (logState h.of_core)
  · exact setRbit h

theorem Kept.setRxFlow {f : Nat} {v : RxFlow} (h : Kept γ s t) : Kept γ s (t.setRxFlow f v) := h.of_core rfl fun _ => rfl

theorem Kept.setTxFlow {f : Nat} {v : TxFlow} (h : Kept γ s t) : Kept γ s (t.setTxFlow f v) := h.of_core rfl fun _ => rfl

theorem Kept.flowStart {d f : Nat} (h : Kept γ s t) : Kept γ s (t.flowStart d f) := ite (setRxFlow h) (setTxFlow h)

theorem Kept.flowLeave {d f : Nat} {off : Bool} (h : Kept γ s t) : Kept γ s (t.flowLeave d f off) := by
  unfold State.flowLeave
  refine ite ?_ ?_
  · split
    · exact setRxFlow h
    · exact h
  · split
    · exact setTxFlow h
    · exact h

theorem Kept.flowFollow {d f : Nat} (h : Kept γ s t) : Kept γ s (t.flowFollow d f) :=
  ite (ite (flowStart h) h) (ite (flowLeave h) (ite (flowStart h) (ite (flowLeave h) h)))

theorem Kept.flowCheck {d : Nat} (h : Kept γ s t) : Kept γ s (t.flowCheck d) := by
  unfold State.flowCheck
  extract_lets held s1 s2
  have h1 : Kept γ s s1 := h.of_core
  have h2 : Kept γ s s2 := foldl (fun _ _ h => configError (setRbit h)) h1
  exact asrcEndpoints (foldl (fun _ _ h => flowFollow h) h2)

theorem Kept.copyArrives {f : Nat} {v : RxFlow} {seq ts : Nat} {pathB : Bool} (h : Kept γ s t) : Kept γ s (t.copyArrives f v seq ts pathB).1.2 := by
  unfold State.copyArrives
  refine ite_mid h ?_
  dsimp only
  split
  · exact h
  · exact ite_mid (ite_mid (raiseEvent h) h) h

theorem Kept.handSamples {ws : List Word} {times : List Int} {samples : List (List Word)} (h : Kept γ s t) : Kept γ s (t.handSamples ws times samples) :=
  foldl (fun _ _ h => foldl (fun _ _ h => foldl (fun _ _ h => asrcPlace h) h) h) h

theorem Kept.packetArrives {f : Nat} {v : RxFlow} {p : Packet} {pathB : Bool} (h : Kept γ s t) : Kept γ s (t.packetArrives f v p pathB) := by
  unfold State.packetArrives
  extract_lets _ a r _ _
  have h_a : Kept γ s a.1.2 := copyArrives h
  have h_r : Kept γ s r.2 := h_a
  split
  · exact setRxFlow h
  · refine ite (setRxFlow h_r) ?_
    split
    · exact setRxFlow h_r
    · dsimp only
      exact ite (setRxFlow h_r) (ite (setRxFlow h_r) (ite (setRxFlow h_r) (ite (setRxFlow h_r) (handSamples (setRxFlow h_r)))))

theorem Kept.rxFlowTick {k f : Nat} {v : RxFlow} (h : Kept γ s t) : Kept γ s (t.rxFlowTick k f v) := by
  unfold State.rxFlowTick
  refine ite h ?_
  dsimp only
  split
  · exact setRxFlow h
  · exact ite (setRxFlow h) (ite (setRxFlow h) (raiseEvent (setRxFlow h)))

theorem Kept.rxFlowsTick {k : Nat} (h : Kept γ s t) : Kept γ s (t.rxFlowsTick k) := foldl (fun _ _ h => rxFlowTick h) h

theorem Kept.netSample {c k v : Nat} {atFi : Bool} (h : Kept γ s t) : Kept γ s (t.netSample c k v atFi).2 := by
  unfold State.netSample
  split
  · exact asrcSample h
  · exact h

theorem Kept.txFlowTick {k f : Nat} {v : TxFlow} (h : Kept γ s t) : Kept γ s (t.txFlowTick k f v) := by
  unfold State.txFlowTick
  refine ite h (setTxFlow (foldl_snd (fun b i hb => ?_) h))
  dsimp only
  exact netSample hb

theorem Kept.txFlowsTick {k : Nat} (h : Kept γ s t) : Kept γ s (t.txFlowsTick k) := foldl (fun _ _ h => txFlowTick h) h

theorem Kept.sendFrame {x : Nat} {bs : List Byte} (h : Kept γ s t) : Kept γ s (t.sendFrame x bs) := ite h.of_core h

theorem Kept.drawMany {n : Nat} (h : Kept γ s t) : Kept γ s (t.drawMany n).2 := by
  induction n generalizing t with
  | zero => exact h
  | succ n ih => exact ih (draw h)

theorem Kept.flowSamples {v : TxFlow} {n : Nat} (h : Kept γ s t) : Kept γ s (t.flowSamples v n).2 := by
  induction n with
  | zero => exact h
  | succ n ih =>
    unfold State.flowSamples
    dsimp only
    split
    · exact asrcSample ih
    · exact ih

theorem Kept.packetSamples {v : TxFlow} {m : Nat} (h : Kept γ s t) : Kept γ s (t.packetSamples v m).2 := ite_snd h (flowSamples h)

theorem Kept.keepOld {ws : List Change} (h : Kept γ s t) : Kept γ s (t.keepOld ws) := by
  unfold State.keepOld
  extract_lets s1
  have h1 : Kept γ s s1 := foldl (fun _ _ h => setSec h) h
  exact foldl (fun _ _ h => setXent h) h1

theorem Kept.keepPages {ws : List Change} {c : Nat} (h : Kept γ s t) : Kept γ s (t.keepPages ws c) :=
  foldl (fun _ _ h => ite (modCourse (fun _ => .of_mem rfl rfl) h) h) h

theorem Kept.selChanges {w : Change} {c : Nat} (h : Kept γ s t) : Kept γ s (t.selChanges w c) := foldl (fun _ _ h => ite h (selChange h)) h

theorem Kept.meterChange {w : Change} (h : Kept γ s t) : Kept γ s (t.meterChange w) := by
  unfold State.meterChange
  split
  · exact h
  · exact ite (ite (meterReset h) h) (ite (raiseEvent (setRbit h)) h)

theorem Kept.xfadeChange {w : Change} (h : Kept γ s t) : Kept γ s (t.xfadeChange w) := ite (configError h) h

theorem Kept.waitingTurns {ws : List Change} {c : Nat} (h : Kept γ s t) : Kept γ s (t.waitingTurns ws c) := by
  unfold State.waitingTurns
  extract_lets due halves s1 s2
  have h1 : Kept γ s s1 := foldl (fun _ _ h => ite (selBegin h) h) h
  have h2 : Kept γ s s2 := foldl (fun _ _ h => ite (routeBegin h) h) h1
  exact foldl (fun _ _ h => ite (secBegin h) h) h2

theorem Kept.startChanges {ws : List Change} {c : Nat} (h : Kept γ s t) : Kept γ s (t.startChanges ws c) := by
  unfold State.startChanges
  extract_lets _ s1 s2 s3 s4 s5
  have h_s1 : Kept γ s s1 := foldl (fun _ _ h => selChanges h) (waitingTurns h)
  have h_s2 : Kept γ s s2 := foldl (fun _ _ h => entryChange h) h_s1
  have h_s3 : Kept γ s s3 := foldl (fun _ _ h => secChange h) h_s2
  have h_s4 : Kept γ s s4 := foldl (fun _ _ h => checkDelayWord (xfadeChange (meterChange h))) h_s3
  have h_s5 : Kept γ s s5 := foldl (@asrcChanged γ s) h_s4
  exact flowCheck (flowCheck h_s5)

theorem Kept.applyCommit {k : Commit} {fixed : List (Nat × Word)} (h : Kept γ s t) : Kept γ s (t.applyCommit k fixed) := by
  have drop (v : State) (h : Kept γ s v) : Kept γ s { v with commits := v.commits.erase k } := h.of_core
  unfold State.applyCommit
  extract_lets ws s1 s2 s3
  have h2 : Kept γ s s2 := foldl (fun _ _ h => tabSet h) (keepPages (keepOld h))
  exact startChanges (raiseEvent (drop _ (logState (setRfld h2))))

theorem Kept.checkReserved {a : Nat} {v : Word} (h : Kept γ s t) : Kept γ s (t.checkReserved a v) := ite (configError h) h

theorem Kept.regStore {a : Nat} {v : Word} (h : Kept γ s t) : Kept γ s (t.regStore a v) := checkReserved (setReg h)

theorem Kept.setTb {t' : Fin 4} {v : Nat} (h : Kept γ s t) : Kept γ s (t.setTb t' v) := h.of_core rfl fun _ => rfl

theorem Kept.snapTrigger {cause : Nat} (h : Kept γ s t) : Kept γ s (t.snapTrigger cause) := h.of_core rfl fun _ => rfl

theorem Kept.alarmFires {t' j : Nat} (h : Kept γ s t) : Kept γ s (t.alarmFires t' j) :=
  ite (ite (snapTrigger (raiseEvent (setRbit (putRbit h)))) (raiseEvent (setRbit (putRbit h)))) h

theorem Kept.alarmDue {t' : Fin 4} {j : Nat} (h : Kept γ s t) : Kept γ s (t.alarmDue t' j) := ite (alarmFires h) h

theorem Kept.alarmsDue {t' : Fin 4} (h : Kept γ s t) : Kept γ s (t.alarmsDue t') := alarmDue (alarmDue h)

theorem Kept.tbAdvanced {t' : Fin 4} {xo : Nat} (h : Kept γ s t) : Kept γ s (t.tbAdvanced t' xo) := ite (alarmsDue (setTb h)) h

theorem Kept.tbPass {t' : Fin 4} (h : Kept γ s t) : Kept γ s (t.tbPass t') := ite (tbAdvanced (draw (draw h))) h

theorem Kept.tbReach {t' : Fin 4} {ns : Nat} (h : Kept γ s t) : Kept γ s (t.tbReach t' ns) := ite (setTb (draw h)) h

theorem Kept.alignWrite {t' : Fin 4} {v : Word} (h : Kept γ s t) : Kept γ s (t.alignWrite t' v) := by
  unfold State.alignWrite
  dsimp only
  exact .of_core (regStore (tbPass h))

theorem Kept.linkDown {x : Nat} (h : Kept γ s t) : Kept γ s (t.linkDown x) := ite (raiseEvent (faultOccurs (setRbit (putRbit h)))) h

theorem Kept.dmaRefused {a : Nat} {write : Bool} (h : Kept γ s t) : Kept γ s (t.dmaRefused a write) :=
  ite (scratchRefused h) (ite (ridgeRefused h) (unmapped (ridgeRecord h)))

theorem Kept.dmaReach {a n : Nat} (h : Kept γ s t) : Kept γ s (t.dmaReach a n) := by
  unfold State.dmaReach
  refine foldl ?_ (unhold h)
  intro _ _ h
  split
  · exact servePort (scrTouch (awaitBank h))
  · exact servePort h
  · exact h

theorem Kept.dmaTouch {a n : Nat} (h : Kept γ s t) : Kept γ s (t.dmaTouch a n) := ite (memTouch h) (dramTouch h)

theorem Kept.dmaSet {a : Nat} {v : Word} (h : Kept .command s t) : Kept .command s (t.dmaSet a v) := ite (scratchSet h) (dramSet h)

theorem Kept.dmaSetMany {a : Nat} {vs : List Word} (h : Kept .command s t) : Kept .command s (t.dmaSetMany a vs) := by
  induction vs generalizing t a with
  | nil => exact h
  | cons v vs ih => exact ih (dmaSet h)

theorem Kept.ringError {r a : Nat} {write : Bool} (h : Kept γ s t) : Kept γ s (t.ringError r a write) :=
  faultOccurs (ite (putRbit (dmaRefused h)) (setRfld (setRbit (putRbit (dmaRefused h)))))

theorem Kept.ringAdvance {r : Nat} (h : Kept γ s t) : Kept γ s (t.ringAdvance r) := setRfld h

theorem Kept.ringStop {r : Nat} (h : Kept γ s t) : Kept γ s (t.ringStop r) := setRbit (putRbit h)

theorem Kept.txStamp {tb : Fin 4} {x : Nat} {sent : Bool} (h : Kept γ s t) : Kept γ s (t.txStamp tb x sent).2 := ite_snd (tbPass h) (draw (draw h))

theorem Kept.txSend {r d : Nat} {late : Bool} (h : Kept .command s t) : Kept .command s (t.txSend r d late) := by
  unfold State.txSend
  extract_lets w0 len buf paths bad n s' s'' raw tb timed s0 named sends sent s1 s2 w0' s3 a b s4 s5
  have hreach : Kept .command s s' := dmaReach h
  split
  · exact ringError hreach
  · split
    · exact ringError hreach
    · have h0 : Kept .command s s0 := ite (tbPass (dmaTouch hreach)) (dmaTouch hreach)
      have h1 : Kept .command s s1 := ite (sendFrame h0) h0
      have h3 : Kept .command s s3 := dmaSet (ite (sendFrame h1) h1)
      have h4 : Kept .command s s4 := ite (dmaSetMany (txStamp (txStamp h3))) h3
      have h5 : Kept .command s s5 := ite (ringAdvance h4) h4
      exact ite (raiseEvent h5) h5

theorem Kept.flowFrame {f : Nat} {w : RxFlow} {v : FrameView} {bs : List Byte} {x : Nat} (h : Kept γ s t) : Kept γ s (t.flowFrame f w v bs x) :=
  packetArrives h

theorem Kept.rxDrop (h : Kept γ s t) : Kept γ s t.rxDrop := setRbit (count h)

theorem Kept.rxStore {r rule x : Nat} {bs : List Byte} (h : Kept .command s t) : Kept .command s (t.rxStore r rule x bs) := by
  unfold State.rxStore
  extract_lets d s' s'' w0 buf size stored words s3 t1 w s4 back s5 s6
  have hd : Kept .command s s' := dmaReach h
  have hb : Kept .command s s3 := dmaReach (dmaTouch hd)
  have h6 : Kept .command s s6 := ringAdvance (dmaSet (dmaSetMany (dmaSet (dmaSetMany (tbPass hb)))))
  refine ite (rxDrop h) ?_
  split
  · exact ringError hd
  · refine ite (rxDrop (ringStop (dmaTouch hd))) ?_
    split
    · exact ringError hb
    · split
      · exact ringError hb
      · exact ite (raiseEvent h6) h6

theorem Kept.classify {x : Nat} {v : FrameView} {bs : List Byte} (h : Kept .command s t) : Kept .command s (t.classify x v bs) := by
  unfold State.classify
  split
  · exact count h
  · exact rxStore h

theorem Kept.frameArrives {n : Nat} {frame : List Byte} (h : Kept .command s t) : Kept .command s (t.frameArrives n frame) := by
  unfold State.frameArrives
  dsimp only
  refine ite (count h) (ite h ?_)
  split
  · exact flowFrame h
  · exact classify h

theorem Kept.tbGo {t' st : Nat} (h : Kept γ s t) : Kept γ s (t.tbGo t' st) :=
  ite (ite (.of_core (putRbit (setRfld h))) (putRbit (setRfld h))) (raiseEvent (ite (.of_core (putRbit (setRfld h))) (putRbit (setRfld h))))

theorem Kept.dropAnchor {t' : Nat} (h : Kept γ s t) : Kept γ s (t.dropAnchor t') := asrcAnchors (.of_core (putRbit h))

theorem Kept.tbArm {t' : Nat} (h : Kept γ s t) : Kept γ s (t.tbArm t') := tbGo (dropAnchor (putRbit h))

theorem Kept.tbHold {t' : Nat} (h : Kept γ s t) : Kept γ s (t.tbHold t') := tbGo (dropAnchor h)

theorem Kept.tbLose {t' : Nat} (h : Kept γ s t) : Kept γ s (t.tbLose t') := tbGo (putRbit h)

theorem Kept.tbStepped {t' : Fin 4} (h : Kept γ s t) : Kept γ s (t.tbStepped t') := setTb h

theorem Kept.tickErrs (h : Kept γ s t) : Kept γ s t.tickErrs := foldl (fun _ _ h => ite (setReg (draw h)) h) h

theorem Kept.timeTick (h : Kept γ s t) : Kept γ s t.timeTick := by
  unfold State.timeTick
  extract_lets s1
  have h1 : Kept γ s s1 := foldl (fun _ _ h => .of_core (setRbit h)) h
  clear_value s1
  exact tickErrs h1.of_core

theorem Kept.setSlot {i st : Nat} (h : Kept γ s t) : Kept γ s (t.setSlot i st) := setRfld h

theorem Kept.hoUpdate (h : Kept γ s t) : Kept γ s t.hoUpdate := ite (setRfld h) (setReg (setRfld h))

theorem Kept.alignBits (h : Kept γ s t) : Kept γ s t.alignBits := foldl (fun _ _ h => putRbit h) h

theorem Kept.selectSlot {i : Nat} (h : Kept γ s t) : Kept γ s (t.selectSlot i) := ite h (setRbit (count (setRfld (setRbit h))))

theorem Kept.deselect (h : Kept γ s t) : Kept γ s t.deselect := ite (setRfld (putRbit (draw h))) h

theorem Kept.refGo {st : Nat} (h : Kept γ s t) : Kept γ s (t.refGo st) := by
  unfold State.refGo
  dsimp only
  refine ite (alignBits (setRfld h)) (alignBits (raiseEvent (setCause (setCause (ite (setRbit ?_) (ite (hoUpdate (putRbit ?_)) ?_))))))
  · split
    · exact setRbit (setRfld h)
    · exact setRfld h
  · split
    · exact setRbit (setRfld h)
    · exact setRfld h
  · split
    · exact setRbit (setRfld h)
    · exact setRfld h

theorem Kept.toFreerun (h : Kept γ s t) : Kept γ s t.toFreerun := refGo (setReg (deselect h))

theorem Kept.acquire {i : Nat} (h : Kept γ s t) : Kept γ s (t.acquire i) := ite (refGo (selectSlot h)) (raiseEvent (refGo (selectSlot h)))

theorem Kept.refLoss (h : Kept γ s t) : Kept γ s t.refLoss := by
  unfold State.refLoss
  split
  · exact acquire h
  · exact ite (refGo (setReg (deselect h))) (toFreerun h)

theorem Kept.disFollow (h : Kept γ s t) : Kept γ s t.disFollow := h.of_core rfl fun _ => rfl

theorem Kept.refMove (h : Kept γ s t) : Kept γ s t.refMove := by
  unfold State.refMove
  dsimp only
  refine ite h (ite (ite (deselect h) (toFreerun h)) (ite ?_ ?_))
  · split
    · exact acquire h
    · exact h
  · split
    · exact refLoss h
    · refine ite (refLoss h) (ite ?_ h)
      split
      · exact acquire h
      · exact h

theorem Kept.refEval (h : Kept γ s t) : Kept γ s t.refEval := refMove (disFollow h)

theorem Kept.slotInvalid {i : Nat} (h : Kept γ s t) : Kept γ s (t.slotInvalid i) := setRfld (setSlot (ite (setRbit h) h))

theorem Kept.genRequest {g : Nat} (h : Kept γ s t) : Kept γ s (t.genRequest g) := ite (ite h h.of_core) (setRbit (ite h h.of_core))

theorem Kept.genPins (h : Kept γ s t) : Kept γ s t.genPins := h.of_core rfl fun _ => rfl

theorem Kept.genRequestAll (h : Kept γ s t) : Kept γ s t.genRequestAll := foldl (fun _ _ h => ite (genRequest h) h) h

theorem Kept.refFault (h : Kept γ s t) : Kept γ s t.refFault := ite h (refGo (setReg (deselect h)))

theorem Kept.disagree (h : Kept γ s t) : Kept γ s t.disagree := foldl (fun _ _ h => raiseEvent (setRbit h)) h.of_core

theorem Kept.hoWrite {v : Word} (h : Kept γ s t) : Kept γ s (t.hoWrite v) := ite (hoUpdate (regStore h)) (regStore h)

theorem Kept.tapEdge {trst tms tdi : Bool} {pins : List Bool} (h : Kept γ s t) : Kept γ s (t.tapEdge trst tms tdi pins) := h.of_core rfl fun _ => rfl

theorem Kept.tapLock (h : Kept γ s t) : Kept γ s t.tapLock := ite h.of_core h

theorem Kept.setFlash {a : Nat} {b : Byte} (h : Kept .command s t) : Kept .command s (t.setFlash a b) where
  pending := h.pending
  canon hs := by
    obtain ⟨hr, hsc, hd, hf, hm⟩ := h.canon hs
    exact ⟨hr, hsc, hd, mapWf_set _ _ _ _ hf, hm⟩
  fuses := h.fuses
  lock := h.lock
  key := h.key
  still e := nomatch e

theorem mapWfFrom_filter {α : Type} [DecidableEq α] (d : Nat → α) (p : Nat × α → Bool) (m : List (Nat × α)) {i : Nat}
    (w : mapWfFrom d i m = true) : mapWfFrom d i (m.filter p) = true := by
  induction m generalizing i with
  | nil => exact w
  | cons e m ih =>
    simp only [mapWfFrom, Bool.and_eq_true, decide_eq_true_eq] at w
    by_cases hp : p e = true
    · simp only [List.filter_cons, hp, if_true, mapWfFrom, Bool.and_eq_true, decide_eq_true_eq]
      exact ⟨w.1, ih w.2⟩
    · simp only [List.filter_cons, hp]
      exact mapWfFrom_mono d _ (by omega) (ih w.2)

theorem Kept.flashErase {a n : Nat} (h : Kept .command s t) : Kept .command s (t.flashErase a n) where
  pending := h.pending
  canon hs := by
    obtain ⟨hr, hsc, hd, hf, hm⟩ := h.canon hs
    exact ⟨hr, hsc, hd, mapWfFrom_filter _ _ _ hf, hm⟩
  fuses := h.fuses
  lock := h.lock
  key := h.key
  still e := nomatch e

theorem Kept.flashPut {a : Nat} {bs : List Byte} (h : Kept .command s t) : Kept .command s (t.flashPut a bs) := by
  induction bs generalizing t a with
  | nil => exact h
  | cons b bs ih => exact ih (setFlash h)

theorem Kept.canon_bare : Canon { State.reset with regs := [] } := by
  refine ⟨rfl, rfl, rfl, rfl, fun n => ?_⟩
  simp [State.course, State.reset, Course.reset, Memory.wf, mapWf, mapWfFrom]

theorem Kept.mapWf_liveRegs (s : State) : mapWf regReset s.liveRegs = true := by
  have h : Kept .command { State.reset with regs := [] } _ := setReg (v := s.reg regPAIR_STATUS &&& 0x20000000#32) (a := regPAIR_STATUS)
    (setReg (v := s.reg regPWR_STATUS &&& 0x880003FF#32) (a := regPWR_STATUS) (refl _))
  exact (ite (c := bit (s.reg regPWR_STATUS) 31 = true) (setRbit (a := regFAULT_CAUSE 1) (i := 14) h) h).canon canon_bare |>.1

theorem Kept.moduleReset {cause : Word} (h : Kept .command s t) : Kept .command s (t.moduleReset cause) := by
  unfold State.moduleReset
  refine setReg (foldl (fun _ _ h => setReg h) (trans h ?_))
  obtain ⟨-, hsc, hd, -, hm⟩ := canon_bare
  exact {
    pending := rfl
    canon := fun hs => ⟨mapWf_liveRegs t, hsc, hd, hs.2.2.2.1, hm⟩
    fuses := fun hs => ⟨hs.1, fun _ _ _ e => nomatch e⟩
    lock := id
    key := fun _ _ => rfl
    still := fun e => nomatch e }

theorem Kept.setSup {n : Nat} (h : Kept γ s t) : Kept γ s (t.setSup n) := setRfld h

theorem Kept.clkEvent {code : Nat} (h : Kept γ s t) : Kept γ s (t.clkEvent code) := raiseEvent h

theorem Kept.setStage {n : Nat} (h : Kept γ s t) : Kept γ s (t.setStage n) := setRfld h

theorem Kept.ridgeSlow {b : Bool} (h : Kept γ s t) : Kept γ s (t.ridgeSlow b) := putRbit (putRbit h)

theorem Kept.limpClock (h : Kept γ s t) : Kept γ s t.limpClock := ite h (ridgeSlow h)

theorem Kept.limpStage (h : Kept γ s t) : Kept γ s t.limpStage := ite h (setStage h)

theorem Kept.enterLimp (h : Kept .command s t) : Kept .command s t.enterLimp := by
  unfold State.enterLimp
  dsimp only
  exact .of_core (refFault (limpStage (putRbit (limpClock (setRbit (setSup h))))))

theorem Kept.cpllCoasts (h : Kept γ s t) : Kept γ s t.cpllCoasts := setRbit (setRbit (putRbit h))

theorem Kept.modeSet {m : Nat} (h : Kept γ s t) : Kept γ s (t.modeSet m) := raiseEvent (setRfld h)

theorem Kept.collapse (h : Kept γ s t) : Kept γ s t.collapse := h.of_core rfl fun _ => rfl

theorem Kept.sleepExit (h : Kept .command s t) : Kept .command s t.sleepExit := by
  unfold State.sleepExit
  dsimp only
  exact .of_core (modeSet (setRfld h))

theorem Kept.restart (h : Kept γ s t) : Kept γ s t.restart := ite (.of_core (collapse h) (ew := fun _ => rfl)) h

theorem Kept.modeAct {r : Nat} (h : Kept .command s t) : Kept .command s (t.modeAct r) :=
  ite (setRfld (setRbit h)) (ite (setRfld h) (ite (sleepExit (setRfld h)) (.of_core (setRfld h))))

theorem Kept.modeDone (h : Kept .command s t) : Kept .command s t.modeDone := by
  unfold State.modeDone
  split
  · exact h
  · exact modeAct h.of_core

theorem Kept.modeWrite {v : Word} (h : Kept .command s t) : Kept .command s (t.modeWrite v) :=
  ite h (ite (.of_core (setRfld (ite (setRbit (ite (putRbit h) h)) (putRbit (ite (putRbit h) h))))) (modeAct (ite (setRbit (ite (putRbit h) h)) (putRbit (ite (putRbit h) h)))))

theorem Kept.logStore {ws : List Word} (h : Kept .command s t) : Kept .command s (t.logStore ws) :=
  ite h (ite (setRbit h) (setRbit (ite (flashErase (setReg (flashPut (ite_snd h (draw h))))) (setReg (flashPut (ite_snd h (draw h)))))))

theorem Kept.resetKeeping {cause : Word} {kept : List Nat} (h : Kept .command s t) : Kept .command s (t.resetKeeping cause kept) := by
  unfold State.resetKeeping
  refine foldl (fun _ _ h => setReg h) ?_
  have hm : Kept .command s (t.moduleReset cause) := moduleReset h
  exact {
    pending := hm.pending
    canon := fun hs => ⟨(hm.canon hs).1, (hm.canon hs).2.1, (h.canon hs).2.2.1, (hm.canon hs).2.2.2⟩
    fuses := hm.fuses
    lock := hm.lock
    key := hm.key
    still := fun e => nomatch e }

theorem Kept.deepState (h : Kept .command s t) : Kept .command s t.deepState := by
  have upd (v : State) (h : Kept .command s v) : Kept .command s { v with rstOut := t.rstOut } := h.of_core
  exact upd _ (setReg (resetKeeping h))

theorem Kept.deepWake {causes : Nat} (h : Kept .command s t) : Kept .command s (t.deepWake causes) := setRfld (setRbit (resetKeeping h))

theorem Kept.sendLeave (h : Kept γ s t) : Kept γ s t.sendLeave := by
  unfold State.sendLeave
  dsimp only
  exact .of_core (draw h)

theorem Kept.gateDeepCheck (h : Kept γ s t) : Kept γ s t.gateDeepCheck := ite (configError h) h

theorem Kept.wakeCause {b : Nat} {more : Bool} (h : Kept γ s t) : Kept γ s (t.wakeCause b more) := setRfld h

theorem Kept.wakeBy {src : WakeSrc} (h : Kept .command s t) : Kept .command s (t.wakeBy src) := by
  unfold State.wakeBy
  extract_lets b
  refine ite h ?_
  split
  · exact ite (.of_core (wakeCause h)) (modeDone (raiseEvent (setRfld (wakeCause h.of_core))))
  · exact ite (sleepExit (wakeCause h)) (ite (deepWake h) (ite (wakeCause h) h))

theorem Kept.awakeEvent {e : Nat} {pl : Word} (h : Kept γ s t) : Kept γ s (t.awakeEvent e pl) := ite h (raiseEvent h)

theorem Kept.partnerSet {p w : Nat} {v : Word} (h : Kept γ s t) : Kept γ s (t.partnerSet p w v) := ite (raiseEvent (tabSet h)) (tabSet h)

theorem Kept.delronMaster (h : Kept γ s t) : Kept γ s t.delronMaster.2 := draw h

theorem Kept.connStage {f a : Nat} {ws : List Word} (h : Kept γ s t) : Kept γ s (t.connStage f a ws) :=
  ite (foldl (fun _ _ h => pegData h) (pegHeader (foldl (fun _ _ h => pegData h) (pegHeader (delronMaster h))))) h

theorem Kept.connDrop {f : Nat} (h : Kept γ s t) : Kept γ s (t.connDrop f) := connStage h

theorem Kept.connKeep {c : Conn} (h : Kept γ s t) : Kept γ s (t.connKeep c) := by
  unfold State.connKeep
  dsimp only
  split
  · exact ite h (connStage h.of_core)
  · exact connDrop h.of_core

theorem Kept.connMake {u' : Nat} (h : Kept γ s t) : Kept γ s (t.connMake u') := by
  unfold State.connMake
  dsimp only
  refine ite h ?_
  split
  · exact h
  · exact connStage h.of_core

theorem Kept.connect (h : Kept γ s t) : Kept γ s t.connect := ite (foldl (@connMake γ s) (foldl (@connKeep γ s) h)) h

theorem Kept.hostRef {a : Nat} (h : Kept γ s t) : Kept γ s (t.hostRef a) := by
  unfold State.hostRef
  split
  · exact setRbit h
  · exact h

theorem Course.memKept_setWord (c : Course) (prog : Bool) (w : Nat) (v : Word) :
    c.MemKept (if prog then { c with pmem := memSetWord c.pmem w v } else { c with lmem := memSetWord c.lmem w v }) :=
  .ite ⟨Memory.wf_setWord _ _ _, id⟩ ⟨id, Memory.wf_setWord _ _ _⟩

theorem Kept.courseSet {n : CourseId} {prog : Bool} {w : Nat} {v : Word} (h : Kept γ s t) : Kept γ s (t.courseSet n prog w v) :=
  modCourse (fun c => c.memKept_setWord prog w v) h

theorem Kept.courseGet {n : CourseId} {prog : Bool} {w : Nat} (h : Kept γ s t) : Kept γ s (t.courseGet n prog w).2 := memRead h

theorem Kept.tabChecked {a : Nat} (h : Kept γ s t) : Kept γ s (t.tabChecked a) := ite (memRead h) (ite (memRead h) (ite (memRead h) h))

theorem Kept.tabRead {m a : Nat} (h : Kept γ s t) : Kept γ s (t.tabRead m a).2 :=
  ite_snd (ite_snd (foldl (fun _ _ h => setLatch h) h) h) (ite_snd h (tabChecked h))

theorem Kept.openDco (h : Kept γ s t) : Kept γ s t.openDco.2 := draw h

theorem Kept.openBelow {n : Nat} (h : Kept γ s t) : Kept γ s (t.openBelow n).2 := draw h

theorem Kept.regValue {a : Nat} (h : Kept γ s t) : Kept γ s (t.regValue a).2 :=
  ite_snd (openDco h) (ite_snd (openBelow (n := 101) h) (ite_snd (openBelow h) (ite_snd h (draw h))))

theorem Kept.snapWrite {v : Word} (h : Kept γ s t) : Kept γ s (t.snapWrite v) := ite (snapTrigger (regStore h)) (regStore h)

theorem Kept.snapWord {src : Option Nat} (h : Kept γ s t) : Kept γ s (t.snapWord src).2 := by
  unfold State.snapWord
  split
  · exact h
  · exact regValue h

theorem Kept.snapWords (h : Kept γ s t) : Kept γ s t.snapWords.2 := foldl_snd (fun _ _ h => snapWord h) (tb0Words h)

theorem Kept.snapStore {ws : List Word} (h : Kept γ s t) : Kept γ s (t.snapStore ws) := foldl (fun _ _ h => setReg h) h

theorem Kept.snapDone (h : Kept γ s t) : Kept γ s t.snapDone := by
  unfold State.snapDone
  extract_lets _ s1 _
  have h_s1 : Kept γ s s1 := h.of_core
  split
  · exact h
  · exact ite (count h_s1) (raiseEvent (ite (setRbit (setRbit (setRfld (snapStore h_s1)))) (setRbit (setRfld (snapStore h_s1)))))

theorem Kept.snapTick {pend : Nat} (h : Kept γ s t) : Kept γ s (t.snapTick pend) := ite h (.of_core (snapWords h))

theorem Kept.scrubError {dram : Bool} {e : Fin 22 × Word × Byte × Bool} (h : Kept γ s t) : Kept γ s (t.scrubError dram e) :=
  ite h (ite (uncorrectable h) (corrected h))

theorem Kept.testGo {test target : Nat} (h : Kept γ s t) : Kept γ s (t.testGo test target) :=
  ite (setRfld h) (ite (setRfld h) (ite (setRbit (causeBegins (setReg h.of_core))) (causeBegins (setReg h.of_core))))

theorem Kept.testEnd {t' : Nat × Nat × Bool} {result code : Nat} (h : Kept γ s t) : Kept γ s (t.testEnd t' result code) :=
  raiseEvent (ite (modCourse (fun _ => .of_mem rfl rfl) (putRbit (causeEnds (setReg h.of_core)))) (causeEnds (setReg h.of_core)))

theorem Kept.testAbort (h : Kept γ s t) : Kept γ s t.testAbort := by
  unfold State.testAbort
  split
  · exact h
  · exact testEnd h

theorem Kept.testWrite {v : Word} (h : Kept γ s t) : Kept γ s (t.testWrite v) := ite (testGo (ite (testAbort h) h)) (ite (testAbort h) h)

theorem Kept.epochAbort (h : Kept γ s t) : Kept γ s t.epochAbort := ite (setRbit (putRbit h.of_core)) h

theorem Kept.joinStart (h : Kept γ s t) : Kept γ s t.joinStart := setReg (.of_core (epochAbort h))

theorem Kept.pairGo {st : Nat} (h : Kept γ s t) : Kept γ s (t.pairGo st) :=
  ite (joinStart (ite (raiseEvent (setRfld h)) (ite (raiseEvent (setRfld h)) (setRfld h)))) (ite (setReg (.of_core (ite (raiseEvent (setRfld h)) (ite (raiseEvent (setRfld h)) (setRfld h))))) (ite (raiseEvent (setRfld h)) (ite (raiseEvent (setRfld h)) (setRfld h))))

theorem Kept.takeover {m : Nat} (h : Kept γ s t) : Kept γ s (t.takeover m) := setReg (setReg (setRbit h))

theorem Kept.claim {m : Nat} (h : Kept γ s t) : Kept γ s (t.claim m) := by
  unfold State.claim
  dsimp only
  exact .of_core (setRbit (pairGo (epochAbort (ite h (takeover h)))))

theorem Kept.toClaim (h : Kept γ s t) : Kept γ s t.toClaim := by
  unfold State.toClaim
  dsimp only
  exact .of_core (pairGo h)

theorem Kept.sampleStep {high : Bool} {m : Nat} (h : Kept γ s t) : Kept γ s (t.sampleStep high m) :=
  ite h (ite (ite h (ite (toClaim h) (pairGo h))) (ite (pairGo h) (ite (ite (pairGo h) (ite (claim h) h.of_core)) (ite h (ite (claim h) (toClaim h))))))

theorem Kept.pairTick (h : Kept γ s t) : Kept γ s t.pairTick := by
  unfold State.pairTick
  extract_lets s1 v st s2
  have h1 : Kept γ s s1 := by
    dsimp only [s1]
    split
    · exact .of_core (pairGo (epochAbort h))
    · exact h
  clear_value s1
  have hv : Kept γ s v := h1.of_core
  clear_value v
  have h2 : Kept γ s s2 := ite (ite hv.of_core (ite hv (pairGo (epochAbort hv)))) h1
  clear_value s2
  exact h2.of_core

theorem Kept.heartbeat (h : Kept γ s t) : Kept γ s t.heartbeat.2 := by
  unfold State.heartbeat
  dsimp only
  split
  · split
    · exact h
    · exact draw h
  · refine draw ?_
    split
    · exact h
    · exact draw h

theorem Kept.hbGap (h : Kept γ s t) : Kept γ s t.hbGap := by
  unfold State.hbGap
  extract_lets v w
  have hw : Kept γ s w := h.of_core
  exact ite h.of_core (ite (setReg hw) hw)

theorem Kept.hbLink {hb : Heartbeat} {skew : Word} (h : Kept γ s t) : Kept γ s (t.hbLink hb skew) := by
  unfold State.hbLink
  extract_lets s1 s2 s3
  have h3 : Kept γ s s3 := setReg (setRfld (ite (setRbit h.of_core) h.of_core))
  clear_value s3
  exact ite h3.of_core h3

theorem Kept.hbAcks {hb : Heartbeat} (h : Kept γ s t) : Kept γ s (t.hbAcks hb) := by
  unfold State.hbAcks
  extract_lets ready s1 s2 s3
  have h1 : Kept γ s s1 := foldl (fun _ _ h => cancel h) h.of_core
  have h3 : Kept γ s s3 := raiseEvent (setReg (putRbit h1.of_core))
  clear_value s3 s2 s1
  refine ite h ?_
  split
  · exact h1
  · exact ite (ite h3.of_core h3) h1

theorem Kept.hbAlign {hb : Heartbeat} {skew : Word} (h : Kept γ s t) : Kept γ s (t.hbAlign hb skew) :=
  ite h (ite (ite h.of_core (ite (.of_core (setReg (setReg h))) h.of_core)) (ite (pairGo h) h.of_core))

theorem Kept.compared {key : Nat} {ok : Bool} (h : Kept γ s t) : Kept γ s (t.compared key ok) := by
  unfold State.compared
  dsimp only
  refine ite (raiseEvent (pairGo (setRbit ?_))) ?_
  · split
    · exact .of_core (ite (ite h (setReg h)) (setReg (ite h (setReg h))))
    · split
      · exact .of_core (count (ite h (setReg h)))
      · exact .of_core (setReg (ite h (setReg h)))
  · split
    · exact .of_core (ite (ite h (setReg h)) (setReg (ite h (setReg h))))
    · split
      · exact .of_core (count (ite h (setReg h)))
      · exact .of_core (setReg (ite h (setReg h)))

theorem Kept.compareWith {own : List (Nat × Word)} {f : Int} {theirs : Word} {half : Nat} (h : Kept γ s t) : Kept γ s (t.compareWith own f theirs half) := by
  unfold State.compareWith
  dsimp only
  refine ite h ?_
  split
  · exact compared h
  · exact h

theorem Kept.hbCompare {hb : Heartbeat} (h : Kept γ s t) : Kept γ s (t.hbCompare hb) := ite (ite (compareWith (compareWith h)) (compareWith h)) h

theorem Kept.hbDual {hb : Heartbeat} (h : Kept γ s t) : Kept γ s (t.hbDual hb) :=
  ite (ite (setRbit (ite (causeBegins h) (ite (causeEnds h) h))) (.of_core (setRbit (ite (causeBegins h) (ite (causeEnds h) h))))) (ite (causeBegins h) (ite (causeEnds h) h))

theorem Kept.dramSetMany {w : Nat} {vs : List Word} (h : Kept .command s t) : Kept .command s (t.dramSetMany w vs) := by
  induction vs generalizing t w with
  | nil => exact h
  | cons v vs ih => exact ih (dramSet h)

theorem Kept.epochLive {num : Word} {startFc : Nat} (h : Kept γ s t) : Kept γ s (t.epochLive num startFc) := by
  unfold State.epochLive
  extract_lets _ s1 s2
  have h2 : Kept γ s s2 := raiseEvent (setReg (putRbit h)).of_core
  clear_value s2
  exact ite (pairGo h2.of_core) h2

theorem Kept.release {force : Bool} (h : Kept γ s t) : Kept γ s (t.release force) := ite h (ite (ite h h.of_core) (ite h.of_core (setRbit h)))

theorem Kept.pairCtrl {v : Word} (h : Kept γ s t) : Kept γ s (t.pairCtrl v) :=
  ite (pairGo (ite (.of_core (ite (release h) h)) (ite (release h) h))) (ite (.of_core (ite (release h) h)) (ite (release h) h))

theorem Kept.faultTick (h : Kept γ s t) : Kept γ s t.faultTick := foldl (@creset γ s) (raiseAll h.of_core)

theorem Kept.setMute {scope m : Nat} (h : Kept γ s t) : Kept γ s (t.setMute scope m) := h.of_core rfl fun _ => rfl

theorem Kept.outFade (h : Kept γ s t) : Kept γ s t.outFade := setMute h

theorem Kept.muteTick (h : Kept γ s t) : Kept γ s t.muteTick :=
  ite (.of_core (outFade (foldl (fun _ _ h => setMute h) h))) (outFade (foldl (fun _ _ h => setMute h) h))

theorem Kept.noteReserved {a : Nat} {bad : Bool} (h : Kept γ s t) : Kept γ s (t.noteReserved a bad) := h.of_core rfl fun _ => rfl

theorem Kept.atRate {slow : Bool} (h : Kept γ s t) : Kept γ s (t.atRate slow) := setReg h

theorem Kept.loadReg {slow : Bool} {a : Nat} {v : Word} (h : Kept γ s t) (e : t.loadReg slow a v = some u) : Kept γ s u := by
  unfold State.loadReg at e
  extract_lets m s1 at e
  have h1 : Kept γ s s1 := noteReserved h
  clear_value s1
  split at e
  · nomatch e
  · obtain rfl := Option.some.inj e
    exact ite (tabLoad h1) (ite h1.of_core (ite (.of_core (setReg h1)) (setReg h1)))

theorem Kept.loadDelay {a : Nat} {d : DelayWord} {v : Word} (h : Kept γ s t) : Kept γ s (t.loadDelay a d v) := ite (tabLoad h) (tabSet h)

theorem Kept.loadTab {a : Nat} {x : TabWord} {v : Word} (h : Kept γ s t) (e : t.loadTab a x v = some u) : Kept γ s u := by
  unfold State.loadTab at e
  split at e
  · nomatch e
  · obtain rfl := Option.some.inj e
    exact tabLoad (noteReserved h)
  · obtain rfl := Option.some.inj e
    exact tabSet (noteReserved h)
  · obtain rfl := Option.some.inj e
    exact tabSet h

theorem Kept.loadTable {a : Nat} {v : Word} (h : Kept .command s t) (e : t.loadTable a v = some u) : Kept .command s u := by
  unfold State.loadTable at e
  split at e
  · exact loadTab h e
  · split at e
    · obtain rfl := Option.some.inj e
      exact loadDelay h
    · split at e
      · obtain rfl := Option.some.inj e
        exact courseSet h
      · obtain ⟨_, _, rfl⟩ := Option.map_eq_some_iff.mp e
        exact scratchSet h

theorem Kept.loadDram {typ w : Nat} {v : Word} (h : Kept .command s t) (e : t.loadDram typ w v = some u) : Kept .command s u := by
  unfold State.loadDram at e
  split at e
  · split at e
    · obtain rfl := Option.some.inj e
      exact dramSet h
    · nomatch e
  · split at e
    · obtain rfl := Option.some.inj e
      exact ite h (dramSet h)
    · nomatch e

theorem Kept.loadWord {slow : Bool} {typ a : Nat} {v : Word} (h : Kept .command s t) (e : t.loadWord slow typ a v = some u) : Kept .command s u := by
  unfold State.loadWord at e
  split at e
  · exact loadReg h e
  · split at e
    · exact loadTable h e
    · exact loadDram h e

theorem Kept.loadWords {slow : Bool} {typ step a : Nat} {vs : List Word} (h : Kept .command s t) : Kept .command s (t.loadWords slow typ step a vs).1 := by
  induction vs generalizing t a with
  | nil => exact h
  | cons v vs ih =>
    rw [State.loadWords]
    split
    · exact h
    · exact ih (loadWord h ‹_›)

theorem Kept.loadRecords {slow : Bool} {typ : Nat} {rs : List ImgRecord} (h : Kept .command s t) : Kept .command s (t.loadRecords slow typ rs).1 := by
  induction rs generalizing t with
  | nil => exact h
  | cons r rs ih =>
    have hw : Kept .command s (t.loadWords slow typ (if typ ≤ 2 then 4 else 1) r.1 r.2).1 := loadWords h
    rw [State.loadRecords]
    split
    · next e => exact ih (by rwa [e] at hw)
    · next e => rwa [e] at hw

theorem Memory.wf_memSetWords (m : List (Nat × Byte)) (w : Nat) (vs : List Word) (h : Memory.wf m = true) : Memory.wf (memSetWords m w vs) = true := by
  induction vs generalizing m w with
  | nil => exact h
  | cons v vs ih => exact ih _ _ (Memory.wf_setWord _ _ _ h)

theorem Kept.courseInit {n : CourseId} {ws : List Word} (h : Kept γ s t) : Kept γ s (t.courseInit n ws) :=
  modCourse (fun _ => ⟨id, Memory.wf_memSetWords _ _ _⟩) h

theorem Kept.loadCourse {n : CourseId} {ws : List Word} (h : Kept .command s t) : Kept .command s (t.loadCourse n ws).1 :=
  ite_fst h (ite (courseInit h) (dramSetMany (courseInit h)))

theorem Kept.loadSection {b : Bool} {x : Sect} (h : Kept .command s t) : Kept .command s (t.loadSection b x).1 := by
  unfold State.loadSection
  extract_lets ws slow r
  have hr : Kept .command s r.1 := by
    dsimp only [r]
    split
    · exact loadCourse h
    · split
      · exact h
      · exact loadRecords h
  exact ite_fst hr hr

theorem Kept.loadSections {b : Bool} {n : Nat} {xs : List Sect} (h : Kept .command s t) : Kept .command s (t.loadSections b n xs).1 := by
  induction xs generalizing t n with
  | nil => exact h
  | cons x xs ih =>
    have hx : Kept .command s (t.loadSection b x).1 := loadSection h
    rw [State.loadSections]
    refine ite_fst h ?_
    split
    · next e => exact ih (by rwa [e] at hx)
    · next e => rwa [e] at hx

theorem Kept.loadImage {b : Bool} (h : Kept .command s t) : Kept .command s (t.loadImage b).1 := loadSections h

theorem Kept.noImage (h : Kept γ s t) : Kept γ s t.noImage := causeBegins (putRbit (setStage h))

theorem Kept.nextCopy (h : Kept γ s t) : Kept γ s t.nextCopy := ite (noImage h) (setStage (setRbit h))

theorem Kept.copyReject {code : Nat} (h : Kept γ s t) : Kept γ s (t.copyReject code) :=
  ite (.of_core (faultOccurs (setRfld h))) (nextCopy (faultOccurs (setRfld h)))

theorem Kept.mapWf_blockRegs (s : State) : mapWf regReset s.blockRegs = true := by
  obtain ⟨-, hm⟩ := canon_bare
  have h : Canon { State.reset with regs := s.liveRegs } := ⟨mapWf_liveRegs s, hm⟩
  exact ((setReg (foldl (fun _ _ h => setReg h) (refl (γ := .command) _))).canon h).1

theorem Kept.blockReset (h : Kept .command s t) : Kept .command s t.blockReset := by
  obtain ⟨-, hsc, -, -, hm⟩ := canon_bare
  refine trans h ?_
  exact {
    pending := rfl
    canon := fun hs => ⟨mapWf_blockRegs t, hsc, hs.2.2.1, hs.2.2.2.1, hm⟩
    fuses := id
    lock := id
    key := fun _ _ => rfl
    still := fun e => nomatch e }

theorem Kept.ownersIn (h : Kept γ s t) : Kept γ s t.ownersIn := foldl (fun _ _ h => setReg h) h.of_core

theorem Kept.delayChecks (h : Kept γ s t) : Kept γ s t.delayChecks := foldl (fun _ _ h => ite h (ite (checkTap h) (checkLine h))) h

theorem Kept.bootEvents (h : Kept γ s t) : Kept γ s t.bootEvents := delayChecks (foldl (@configError γ s) h.of_core)

theorem Kept.blocksStart (h : Kept γ s t) : Kept γ s t.blocksStart := by
  unfold State.blocksStart
  extract_lets s1 s2 s3 s4 s5
  have h_s1 : Kept γ s s1 := foldl (fun _ _ h => portCfgCheck (portFirst h)) h
  have h_s2 : Kept γ s s2 := foldl (@asrcChanged γ s) h_s1
  have h_s3 : Kept γ s s3 := flowCheck (flowCheck h_s2)
  have h_s4 : Kept γ s s4 := foldl (fun _ _ h => ite (setSlot h) h) h_s3
  have h_s5 : Kept γ s s5 := genRequestAll h_s4
  exact ite (setReg h_s5) h_s5

theorem Kept.pairFirst (h : Kept γ s t) : Kept γ s t.pairFirst := by
  unfold State.pairFirst
  extract_lets v w
  have hv : Kept γ s v := h.of_core
  clear_value v
  have hw : Kept γ s w := ite hv (ite (toClaim hv) (pairGo hv))
  clear_value w
  exact genPins hw.of_core

theorem Kept.firstTick (h : Kept .command s t) : Kept .command s t.firstTick := by
  unfold State.firstTick
  extract_lets s1 _ _ s2 s3 s4 s5
  have h1 : Kept .command s s1 := setReg (ridgeSlow (setReg h))
  have hs : Kept .command s (s1.setStage 6) := setStage h1
  have h2 : Kept .command s s2 := hs.of_core
  clear_value s2
  have h3 : Kept .command s s3 := blocksStart (bootEvents (ownersIn h2))
  clear_value s3
  have h4 : Kept .command s s4 := ite (faultOccurs h3) h3
  clear_value s4
  have h5 : Kept .command s s5 := tickErrs (ite (raiseEvent h4) h4)
  exact snapTick (faultTick (muteTick (pairFirst h5)))

theorem Kept.otpWrite {v : Word} (h : Kept .command s t) : Kept .command s (t.otpWrite v) := by
  unfold State.otpWrite
  split
  · exact setRbit h
  · next hc =>
    have hb : bit v 0 = true → t.unfused = true := fun hk => by
      by_contra hu
      exact hc (.inr (.inr (.inl ⟨hk, by simpa using hu⟩)))
    refine ite h ?_
    have hr : Kept .command s (t.setRbit regBOOT_STATUS 22) := setRbit h
    exact {
      pending := hr.pending
      canon := hr.canon
      fuses := fun hs => ⟨(hr.fuses hs).1, fun k l d e => by
        obtain ⟨rfl, rfl, rfl⟩ : bit v 0 = k ∧ bit v 1 = l ∧ _ = d := by simpa using e
        exact ⟨by simp, hb⟩⟩
      lock := hr.lock
      key := hr.key
      still := fun e => nomatch e }


theorem Kept.execSectionCrossfadeEnd {sec : Fin 16384} (h : Kept .command s t) : KeptOut s (execSectionCrossfadeEnd sec t) := next (ite (setSec h) h)

theorem Kept.execEqSatRecord (h : Kept .command s t) : KeptOut s (execEqSatRecord t) := by
  unfold Machine.execEqSatRecord
  refine next ?_
  split
  · exact h
  · exact ite (ite h.of_core (setReg h.of_core)) h

theorem Kept.execMeterReadingWord0Read {m : Master} {p : Fin 4096} (h : Kept .command s t) : KeptOut s (execMeterReadingWord0Read m p t) :=
  next (returnTo (foldl (fun _ _ h => setLatch h) h))

theorem Kept.execDelayMoveComplete {n : CourseId} {ticket : Fin 16} (h : Kept .command s t) : KeptOut s (execDelayMoveComplete n ticket t) := by
  unfold Machine.execDelayMoveComplete
  refine next ?_
  split
  · exact h
  · exact ite h (ite (raiseEvent (moveEnd (moveResult (moveChecked h)))) (moveEnd (moveResult (moveChecked h))))

theorem Kept.execDelayMoveAbort {n : CourseId} {ticket : Fin 16} (h : Kept .command s t) : KeptOut s (execDelayMoveAbort n ticket t) := by
  unfold Machine.execDelayMoveAbort
  refine next ?_
  split
  · exact h
  · split
    · exact h
    · dsimp only
      split
      · exact scratchRefused (moveEnd (moveResult h))
      · exact ridgeRefused (moveEnd (moveResult h))
      · exact moveEnd (moveResult h)

theorem Kept.execTapPrefetch {n : CourseId} (h : Kept .command s t) : KeptOut s (execTapPrefetch n t) := next (ite (releaseMbox (fillBank (tapReads h))) h)

theorem Kept.execTapCrossfadeEnd {n : CourseId} {j : Fin 2048} (h : Kept .command s t) : KeptOut s (execTapCrossfadeEnd n j t) := next (ite (setTap h) h)

theorem Kept.execLengthFold {n : CourseId} {line : Fin 1024} (h : Kept .command s t) : KeptOut s (execLengthFold n line t) := next (ite (setLine h) h)

theorem Kept.execDelayBlockWrite {n : CourseId} {line : Fin 1024} (h : Kept .command s t) : KeptOut s (execDelayBlockWrite n line t) := by
  unfold Machine.execDelayBlockWrite
  refine next (ite h ?_)
  split
  · exact h
  · dsimp only
    exact setLine (foldl (fun _ _ h => tapStore h) h)

theorem Kept.execDelayTableWrite {m : Master} {a v : Word} (h : Kept .command s t) : KeptOut s (execDelayTableWrite m a v t) := by
  unfold Machine.execDelayTableWrite
  refine next ?_
  split
  · exact unmapped h
  · exact ite (setRbit h) (delayPut h)

theorem Kept.execDlyDeclWrite {m : Master} {n : CourseId} {v : Word} (h : Kept .command s t) : KeptOut s (execDlyDeclWrite m n v t) :=
  next (ite (tapsAnew (setReg h)) (setRbit h))

theorem Kept.execRidgeReadReturn {n : CourseId} {x : CtxId} (h : Kept .command s t) : KeptOut s (execRidgeReadReturn n x t) := by
  unfold Machine.execRidgeReadReturn
  refine next ?_
  dsimp only
  split
  · exact h
  · split
    · exact resumeStall (modCourse (fun _ => .of_mem (Course.setCtx_pmem ..) (Course.setCtx_lmem ..)) h)
    · exact h

theorem Kept.execPostedWriteAccept {n : CourseId} (h : Kept .command s t) : KeptOut s (execPostedWriteAccept n t) := by
  unfold Machine.execPostedWriteAccept
  refine next ?_
  split
  · exact ite (ite (modCourse (fun _ => .of_mem rfl rfl) (resumeStall (resumeStall (modCourse (fun _ => .of_mem rfl rfl) h)))) (resumeStall (resumeStall (modCourse (fun _ => .of_mem rfl rfl) h)))) h
  · exact h

theorem Kept.execScrOwnWrite {m : Master} {b : Fin 64} {v : Word} (h : Kept .command s t) : KeptOut s (execScrOwnWrite m b v t) :=
  next (ite (scratchRefused (ite (configError h) h)) (ite (scratchRefused (ite (configError h) h)) (ite (ite (configError h) h) (.of_core (setRbit (ite (configError h) h))))))

theorem Kept.execHandoverComplete {b : Fin 64} (h : Kept .command s t) : KeptOut s (execHandoverComplete b t) := next (ite (handOver h) h)

theorem Kept.execRidgeSlowWrite {m : Master} {v : Word} (h : Kept .command s t) : KeptOut s (execRidgeSlowWrite m v t) :=
  next (ite (putRbit (setReg h)) h)

theorem Kept.execRidgeSliceSwitch (h : Kept .command s t) : KeptOut s (execRidgeSliceSwitch t) := next (sliceSwitch h)

theorem Kept.execForegroundStart {n : CourseId} (h : Kept .command s t) : KeptOut s (execForegroundStart n t) :=
  next (ite (setCourse (Course.MemKept.of_mem rfl rfl) h) h)

theorem Kept.execForegroundWorkComplete {n : CourseId} {cycles behind : BitVec 16} (h : Kept .command s t) : KeptOut s (execForegroundWorkComplete n cycles behind t) := by
  unfold Machine.execForegroundWorkComplete
  extract_lets c k late met io mb s1 s2 s3 s4
  have h1 : Kept .command s s1 := setReg (setRfld (stallField (stallField h)))
  have h2 : Kept .command s s2 := setReg h1
  have h3 : Kept .command s s3 := ite (setReg (setRbit h2)) h2
  have h4 : Kept .command s s4 := modCourse (fun _ => .of_mem rfl rfl) (retireTaps h3)
  exact next (ite (ite h4 (ite (resumeTask h4) h4)) h)

theorem Kept.execSlackMiss {n : CourseId} (h : Kept .command s t) : KeptOut s (execSlackMiss n t) :=
  next (ite (faultOccurs (modCourse (fun _ => .of_mem rfl rfl) (count (setRbit (setRbit h))))) h)

theorem Kept.execBacklogLimit {n : CourseId} (h : Kept .command s t) : KeptOut s (execBacklogLimit n t) := next (ite (faultOccurs h) h)

theorem Kept.execSreset {m : Master} {n : CourseId} (h : Kept .command s t) : KeptOut s (execSreset m n t) :=
  next (modCourse (fun _ => .of_mem rfl rfl) h)

theorem Kept.execHalt {m : Master} {n : CourseId} {on : Bool} (h : Kept .command s t) : KeptOut s (execHalt m n on t) :=
  next (ite (putRbit h) (modCourse (fun _ => .of_mem rfl rfl) (putRbit h)))

theorem Kept.execCourseHalted {n : CourseId} (h : Kept .command s t) : KeptOut s (execCourseHalted n t) :=
  next (ite (setCourse (Course.MemKept.of_mem rfl rfl) h) h)

theorem Kept.execCourseHaltedRegisterWrite {m : Master} {a v : Word} (h : Kept .command s t) : KeptOut s (execCourseHaltedRegisterWrite m a v t) := by
  unfold Machine.execCourseHaltedRegisterWrite
  refine next ?_
  split
  · exact h
  · exact ite (setReg h) (setRbit h)

theorem Kept.execMemberRetire {k : EntryKey} (h : Kept .command s t) : KeptOut s (execMemberRetire k t) := next (ite h.of_core (setXent h))

theorem Kept.execSelectorCrossfadeEnd {a : Word} (h : Kept .command s t) : KeptOut s (execSelectorCrossfadeEnd a t) := next (ite (setSelector h) h)

theorem Kept.execMatrixWorkStart (h : Kept .command s t) : KeptOut s (execMatrixWorkStart t) := next (ite (ite h.of_core (matrixWork h)) h)

theorem Kept.execTdmFrameEnd {p : Fin 16} {slots : List Word} (h : Kept .command s t) : KeptOut s (execTdmFrameEnd p slots t) :=
  next (ite h (ite (portSamples (portFrame h)) (setRbit h)))

theorem Kept.execCaptureDeadline {p : Fin 16} (h : Kept .command s t) : KeptOut s (execCaptureDeadline p t) :=
  next (ite (ite (ite (portSlip (setPort h)) h) (putRbit (setPort h))) h)

theorem Kept.execTdmFrameStart {p : Fin 16} (h : Kept .command s t) : KeptOut s (execTdmFrameStart p t) := by
  unfold Machine.execTdmFrameStart
  refine next (ite h ?_)
  split
  · exact ite (ite (portSlip (portSend h)) (portSend h)) (ite (portSlip h) h)
  · exact portSend h

theorem Kept.execPortClockLoss {p : Fin 16} (h : Kept .command s t) : KeptOut s (execPortClockLoss p t) := next (ite (portInvalid (putRbit h)) (putRbit h))

theorem Kept.execPortQualified {p : Fin 16} {rateHz : BitVec 18} (h : Kept .command s t) : KeptOut s (execPortQualified p rateHz t) := by
  unfold Machine.execPortQualified
  extract_lets s1 s2 s3
  have h_s1 : Kept .command s s1 := putRbit (setRfld h)
  have h_s2 : Kept .command s s2 := putRbit (putRbit (setRbit h_s1))
  have h_s3 : Kept .command s s3 := modPort h_s2
  exact next (ite (ite (portInvalid (setRbit h_s1)) (asrcEndpoints (causeEnds (raiseEvent h_s3)))) h)

theorem Kept.execTdmCfgWrite {m : Master} {p : Fin 16} {v : Word} (h : Kept .command s t) : KeptOut s (execTdmCfgWrite m p v t) := by
  unfold Machine.execTdmCfgWrite
  extract_lets _ _ _ s0 s1 s2 s3
  have h_s0 : Kept .command s s0 := ite (configError h) h
  have h_s1 : Kept .command s s1 := setReg h_s0
  have h_s2 : Kept .command s s2 := ite (portInvalid h_s1) h_s1
  have h_s3 : Kept .command s s3 := putRbit (portCfgCheck h_s2)
  exact next (ite h_s1 (ite (modPort h_s3) (asrcEndpoints (modPort h_s3))))

theorem Kept.execMasterPortRestart {p : Fin 16} (h : Kept .command s t) : KeptOut s (execMasterPortRestart p t) := next (ite (asrcEndpoints (modPort h)) h)

theorem Kept.execAesFrameReceive {r : Fin 4} {sa sb : Subframe} (h : Kept .command s t) : KeptOut s (execAesFrameReceive r sa sb t) := by
  unfold Machine.execAesFrameReceive
  extract_lets _ a b s1 _ _ _ _ s2 s3 s4
  have h_a : Kept .command s a.2 := subSample h
  have h_b : Kept .command s b.2 := subSample h_a
  have h_s1 : Kept .command s s1 := putRbit h_b
  have h_s2 : Kept .command s s2 := modRx h_s1
  have h_s3 : Kept .command s s3 := ite (rxSlip h_s2) h_s2
  have h_s4 : Kept .command s s4 := ite (endpointSample (endpointSample h_s3)) (setRbit h_s3)
  exact next (ite h (nonAudioSet h_s4))

theorem Kept.execNonAudioClear {r : Fin 4} (h : Kept .command s t) : KeptOut s (execNonAudioClear r t) := next (ite (raiseEvent (putRbit h)) h)

theorem Kept.execChannelStatusBlock {r : Fin 4} {sub : Bool} {block : BitVec 192} (h : Kept .command s t) : KeptOut s (execChannelStatusBlock r sub block t) := by
  unfold Machine.execChannelStatusBlock
  extract_lets _ _ _ _ _ s1 s2 s3
  have h_s1 : Kept .command s s1 := foldl (fun _ _ h => setReg h) h
  have h_s2 : Kept .command s s2 := ite h_s1 (putRbit h_s1)
  have h_s3 : Kept .command s s3 := ite (raiseEvent h_s2) h_s2
  exact next (ite h (ite (setReg h) (nonAudioSet h_s3)))

theorem Kept.execAesReceiverQualified {r : Fin 4} {rateHz : BitVec 18} (h : Kept .command s t) : KeptOut s (execAesReceiverQualified r rateHz t) := by
  unfold Machine.execAesReceiverQualified
  extract_lets _ s1 s2
  have h_s1 : Kept .command s s1 := putRbit (setRfld h)
  have h_s2 : Kept .command s s2 := modRx (putRbit (setRbit h_s1))
  exact next (ite (ite (setRbit h_s1) (asrcEndpoints (causeEnds (raiseEvent h_s2)))) h)

theorem Kept.execAesReceiverLost {r : Fin 4} (h : Kept .command s t) : KeptOut s (execAesReceiverLost r t) := next (ite (rxInvalid (putRbit h)) (putRbit h))

theorem Kept.execPortRateChange {k : InKey} (h : Kept .command s t) : KeptOut s (execPortRateChange k t) := by
  unfold Machine.execPortRateChange
  refine next ?_
  split
  · exact ite (setRbit (portInvalid h)) h
  · exact ite (setRbit (rxInvalid h)) h

theorem Kept.execResyncSlip {k : InKey} (h : Kept .command s t) : KeptOut s (execResyncSlip k t) := by
  unfold Machine.execResyncSlip
  refine next ?_
  split
  · exact ite (raiseEvent (modPort (setRbit (setReg h)))) h
  · exact ite (raiseEvent (modRx (setRbit (setReg h)))) h

theorem Kept.execAesFrameTransmit {t' : Fin 4} (h : Kept .command s t) : KeptOut s (execAesFrameTransmit t' t) :=
  next (ite h (modTx (ite_snd (ite_snd h (txConverted h)) (txConverted (ite_snd h (txConverted h))))))

theorem Kept.execAsrcLock {c : Fin 512} {ratio : Word} {rateHz : BitVec 18} (h : Kept .command s t) : KeptOut s (execAsrcLock c ratio rateHz t) := by
  have locked (v : State) (m : List (Nat × Word)) (hv : Kept .command s v) : Kept .command s { v with asrcRatio := m } := hv.of_core
  unfold Machine.execAsrcLock
  extract_lets a s1
  have h1 : Kept .command s s1 := setReg h
  exact next (ite h (ite (setReg h) (ite h (raiseEvent (locked _ _ h1)))))

theorem Kept.execAsrcUnlock {c : Fin 512} {why : UnlockCause} (h : Kept .command s t) : KeptOut s (execAsrcUnlock c why t) :=
  next (ite (ite (faultOccurs (asrcUnlocked h)) (asrcUnlocked h)) h)

theorem Kept.execTokenOffer (h : Kept .command s t) : KeptOut s (execTokenOffer t) := by
  unfold Machine.execTokenOffer
  refine next ?_
  split
  · exact h
  · exact offerToken (memTouch h.of_core)

theorem Kept.execSoftwareEventWrite {m : Master} {i : Fin 32} {v : Word} (h : Kept .command s t) : KeptOut s (execSoftwareEventWrite m i v t) :=
  next (raiseEvent h)

theorem Kept.execFrameDividerTick (h : Kept .command s t) : KeptOut s (execFrameDividerTick t) := next (ite (raiseEvent h) h)

theorem Kept.execDispatch (h : Kept .command s t) : KeptOut s (execDispatch t) := by
  unfold Machine.execDispatch
  refine next ?_
  split
  · exact h
  · split
    · exact dispatchTo h
    · exact h

theorem Kept.execTaskEnd {n : CourseId} (h : Kept .command s t) : KeptOut s (execTaskEnd n t) := next (ite (setCourse (Course.MemKept.of_mem rfl rfl) h) h)

theorem Kept.execTaskOvertime {n : CourseId} (h : Kept .command s t) : KeptOut s (execTaskOvertime n t) := by
  unfold Machine.execTaskOvertime
  refine next ?_
  dsimp only
  split
  · exact h
  · exact ite (raiseEvent (setRbit (count (setCourse (Course.MemKept.of_mem rfl rfl) h)))) h

theorem Kept.execPurge {m : Master} {v : Word} (h : Kept .command s t) : KeptOut s (execPurge m v t) := next (count h.of_core)

theorem Kept.execEvtPendClear {m : Master} {k : Fin 4} {v : Word} (h : Kept .command s t) : KeptOut s (execEvtPendClear m k v t) := next (setReg h)

theorem Kept.execPegQhdrWrite {m : Master} {v : Word} (h : Kept .command s t) : KeptOut s (execPegQhdrWrite m v t) := next (pegHeader h)

theorem Kept.execPegQdataWrite {m : Master} {v : Word} (h : Kept .command s t) : KeptOut s (execPegQdataWrite m v t) := next (pegData h)

theorem Kept.execPegWrite (h : Kept .command s t) : KeptOut s (execPegWrite t) := by
  unfold Machine.execPegWrite
  refine next ?_
  split
  · exact ite (ite (popHead (stageWords h)) (setHead (stageWords h))) h
  · exact h

theorem Kept.execPegCommit (h : Kept .command s t) : KeptOut s (execPegCommit t) := by
  unfold Machine.execPegCommit
  refine next ?_
  split
  · dsimp only
    exact ite h (ite (resolve (popHead h)) (ite (resolveForwarded (popHead h)) h))
  · exact h

theorem Kept.execPegRevert (h : Kept .command s t) : KeptOut s (execPegRevert t) := by
  unfold Machine.execPegRevert
  refine next ?_
  split
  · exact ite (popHead (revert h)) h
  · exact h

theorem Kept.execPegMark (h : Kept .command s t) : KeptOut s (execPegMark t) := by
  unfold Machine.execPegMark
  refine next ?_
  split
  · exact ite (raiseEvent (setReg (popHead h))) h
  · exact h

theorem Kept.execPegScene (h : Kept .command s t) : KeptOut s (execPegScene t) := by
  unfold Machine.execPegScene
  refine next ?_
  split
  · exact ite (ite (setHead (ite h (sceneTouch h))) (setHead (sceneTouch (sceneLoad (ite h (sceneTouch h)))))) h
  · exact h

theorem Kept.execSceneResolve (h : Kept .command s t) : KeptOut s (execSceneResolve t) := by
  unfold Machine.execSceneResolve
  refine next ?_
  split
  · exact ite (ite (ite (sceneRefuse (popHead h)) (popHead h)) (ite h (ite (sceneRefuse (popHead h)) (resolve (popHead h))))) h
  · exact h

theorem Kept.execCommitCopyFix (h : Kept .command s t) : KeptOut s (execCommitCopyFix t) := by
  unfold Machine.execCommitCopyFix
  refine next ?_
  split
  · exact h
  · dsimp only
    exact delayFix h.of_core

theorem Kept.execPegCancelWrite {m : Master} {v : Word} (h : Kept .command s t) : KeptOut s (execPegCancelWrite m v t) :=
  next (ite (.of_core (forward h)) (cancel h))

theorem Kept.execPegLogWord0Read {m : Master} {r : Fin 64} (h : Kept .command s t) : KeptOut s (execPegLogWord0Read m r t) :=
  next (returnTo (foldl (fun _ _ h => setLatch h) h))

theorem Kept.execFlowFadeEnd {d : Dir} {f : Fin 256} (h : Kept .command s t) : KeptOut s (execFlowFadeEnd d f t) := by
  unfold Machine.execFlowFadeEnd
  refine next ?_
  split
  · split
    · exact ite (asrcEndpoints (ite (flowStart h) (setRxFlow h))) h
    · exact h
  · split
    · exact ite (asrcEndpoints (ite (flowStart h) (setTxFlow h))) h
    · exact h

theorem Kept.execMergeWindowExpiry {f : Fin 256} (h : Kept .command s t) : KeptOut s (execMergeWindowExpiry f t) := by
  unfold Machine.execMergeWindowExpiry
  refine next ?_
  split
  · exact h
  · split
    · exact h
    · dsimp only
      exact ite (raiseEvent (setRxFlow h)) (setRxFlow h)

theorem Kept.execStreamPacketLaunch {f : Fin 256} {late : Bool} (h : Kept .command s t) : KeptOut s (execStreamPacketLaunch f late t) := by
  unfold Machine.execStreamPacketLaunch
  refine next ?_
  split
  · exact h
  · refine ite h ?_
    split
    · exact h
    · exact ite h (ite (setTxFlow (packetSamples h)) (setTxFlow (ite (sendFrame (ite (sendFrame (packetSamples h)) (packetSamples h))) (ite (sendFrame (packetSamples h)) (packetSamples h)))))

theorem Kept.execCommitApplied (h : Kept .command s t) : KeptOut s (execCommitApplied t) := by
  unfold Machine.execCommitApplied
  refine next ?_
  split
  · exact h
  · exact applyCommit h

theorem Kept.execWaitingChangeStart {k : WaitKey} (h : Kept .command s t) : KeptOut s (execWaitingChangeStart k t) := by
  unfold Machine.execWaitingChangeStart
  refine next ?_
  split
  · dsimp only
    split
    · exact ite (tapBegin h) h
    · exact h
  · exact ite (selBegin h) h
  · exact ite (routeBegin h) h
  · exact ite (routeBegin h) h
  · exact ite (secBegin h) h

theorem Kept.execPathModeWrite {m : Master} {x : Path} {v : Word} (h : Kept .command s t) : KeptOut s (execPathModeWrite m x v t) :=
  next (ite (setReg (ite (configError h) h)) (linkDown (setReg (ite (configError h) h))))

theorem Kept.execLinkChange {x : Path} {up badPartner : Bool} (h : Kept .command s t) : KeptOut s (execLinkChange x up badPartner t) :=
  next (ite (linkDown h) (ite h (ite (setRbit (linkDown h)) (ite h (raiseEvent (setRbit h))))))

theorem Kept.execTxDescriptorProcess {r : Fin 32} (h : Kept .command s t) : KeptOut s (execTxDescriptorProcess r t) := by
  have held (v : State) (m : List (Nat × Nat)) (hv : Kept .command s v) : Kept .command s { v with ringHold := m } := hv.of_core
  unfold Machine.execTxDescriptorProcess
  extract_lets d s1 s2 w0 tb v
  have h1 : Kept .command s s1 := dmaReach h
  have h2 : Kept .command s s2 := dmaTouch h1
  have hv : Kept .command s v := tbPass h2
  refine next (ite h (ite h1 ?_))
  split
  · exact ringError h1
  · exact ite (ringStop h2) (ite (ite (txSend hv) (held _ _ hv)) (txSend h2))

theorem Kept.execTxLaunchTime {r : Fin 32} {late : Bool} (h : Kept .command s t) : KeptOut s (execTxLaunchTime r late t) := by
  have upd (v : State) (hv : Kept .command s v) : Kept .command s { v with ringHold := mapDel t.ringHold r.val } := hv.of_core
  unfold Machine.execTxLaunchTime
  refine next ?_
  split
  · exact h
  · exact ite h (txSend (upd _ (tbReach h)))

theorem Kept.execRingTailWrite {m : Master} {r : Fin 64} {v : Word} (h : Kept .command s t) : KeptOut s (execRingTailWrite m r v t) := next (setReg h)

theorem Kept.execRingCfgWrite {m : Master} {r : Fin 64} {v : Word} (h : Kept .command s t) : KeptOut s (execRingCfgWrite m r v t) :=
  next (ite (setReg (setReg (setReg (ite (configError h) h)))) (setReg (ite (configError h) h)))

theorem Kept.execClassifierRuleWrite {m : Master} {q : Fin 64} {w1 : Bool} {v : Word} (h : Kept .command s t) : KeptOut s (execClassifierRuleWrite m q w1 v t) :=
  next (ite h (ite (configError (tabLoad h)) (tabLoad h)))

theorem Kept.execAlarmCtrlWrite {m : Master} {t' : Fin 4} {j : Fin 2} {v : Word} (h : Kept .command s t) : KeptOut s (execAlarmCtrlWrite m t' j v t) :=
  next (alarmDue (regStore (tbPass h)))

theorem Kept.execAlarmFire {t' : Fin 4} {j : Fin 2} (h : Kept .command s t) : KeptOut s (execAlarmFire t' j t) :=
  next (ite (alarmsDue (alarmFires (tbReach h))) h)

theorem Kept.execTbCmdStep {t' : Fin 4} (h : Kept .command s t) : KeptOut s (execTbCmdStep t' t) :=
  next (ite (alarmsDue (tbGo (setRbit (tbStepped (tbPass h))))) (setRbit h))

theorem Kept.execTbCmdQualify {t' : Fin 4} (h : Kept .command s t) : KeptOut s (execTbCmdQualify t' t) := next (ite (tbGo h) (ite (putRbit h) h))

theorem Kept.execTbCmdLose {t' : Fin 4} (h : Kept .command s t) : KeptOut s (execTbCmdLose t' t) := next (ite (tbLose h) h)

theorem Kept.execTbCmdArm {t' : Fin 4} (h : Kept .command s t) : KeptOut s (execTbCmdArm t' t) := next (tbArm h)

theorem Kept.execTbCmdGrandmaster {t' : Fin 4} (h : Kept .command s t) : KeptOut s (execTbCmdGrandmaster t' t) := next (ite h (tbGo (setRbit h)))

theorem Kept.execRateWatchdogTrip {t' : Fin 4} (h : Kept .command s t) : KeptOut s (execRateWatchdogTrip t' t) := next (ite (tbLose (setRbit h)) h)

theorem Kept.execTbRateWrite {m : Master} {t' : Fin 4} {v : Word} (h : Kept .command s t) : KeptOut s (execTbRateWrite m t' v t) :=
  next (ite (setRbit h) (setReg (tbPass h)))

theorem Kept.execTbCfgWrite {m : Master} {t' : Fin 4} {v : Word} (h : Kept .command s t) : KeptOut s (execTbCfgWrite m t' v t) :=
  next (ite (regStore h) (tbHold (regStore (tbPass h))))

theorem Kept.execTbNsRead {m : Master} {t' : Fin 4} {elapsedXo : BitVec 64} (h : Kept .command s t) : KeptOut s (execTbNsRead m t' elapsedXo t) :=
  next (returnTo (setReg (setReg (setReg (tbAdvanced h)))))

theorem Kept.execTbAncNsRead {m : Master} {t' : Fin 4} (h : Kept .command s t) : KeptOut s (execTbAncNsRead m t' t) :=
  next (returnTo (setReg (setReg (setReg (setReg (setReg h))))))

theorem Kept.execAnchorEstablish {t' : Fin 4} {sec : BitVec 48} (h : Kept .command s t) : KeptOut s (execAnchorEstablish t' sec t) := next (ite h.of_core h)

theorem Kept.execCaptureEdge {k : Fin 4} {falling : Bool} (h : Kept .command s t) : KeptOut s (execCaptureEdge k falling t) := by
  unfold Machine.execCaptureEdge
  extract_lets c n b s0 w s1 s2
  have h0 : Kept .command s s0 := tbPass h.of_core
  have h1 : Kept .command s s1 := ite (setRbit h0) h0
  have h2 : Kept .command s s2 := h1.of_core
  clear_value s2
  exact next (ite (ite h.of_core (raiseEvent (setRbit (setReg h2)))) h)

theorem Kept.execCapnsRead {m : Master} {k : Fin 4} (h : Kept .command s t) : KeptOut s (execCapnsRead m k t) := next (returnTo (setReg (setReg h)))

theorem Kept.execSlotCfgWrite {m : Master} {i : Fin 8} {v : Word} (h : Kept .command s t) : KeptOut s (execSlotCfgWrite m i v t) := by
  unfold Machine.execSlotCfgWrite
  extract_lets _ _ s1 _ s2
  have h_s1 : Kept .command s s1 := regStore h
  have h_s2 : Kept .command s s2 := ite (setRfld (setSlot h_s1)) (ite (setSlot h_s1) (ite (slotInvalid h_s1) h_s1))
  exact next (refEval (ite (putRbit h_s2) h_s2))

theorem Kept.execSourcePresent {i : Fin 8} {hz : BitVec 18} {offset : Word} (h : Kept .command s t) : KeptOut s (execSourcePresent i hz offset t) :=
  next (ite (ite (setRbit h) (ite (setSlot (setReg (setReg (putRbit h)))) (setReg (setReg (putRbit h))))) h)

theorem Kept.execQualificationTimerExpiry {i : Fin 8} (h : Kept .command s t) : KeptOut s (execQualificationTimerExpiry i t) :=
  next (ite (ite (refEval (setRfld (setSlot h.of_core))) (refEval (setSlot h.of_core))) h)

theorem Kept.execWtrExpiry {i : Fin 8} (h : Kept .command s t) : KeptOut s (execWtrExpiry i t) := next (ite (raiseEvent (refEval (setRfld (setSlot h)))) h)

theorem Kept.execSlotLost {i : Fin 8} (h : Kept .command s t) : KeptOut s (execSlotLost i t) := next (ite (refEval (slotInvalid h)) h)

theorem Kept.execPhaseGlitch {i : Fin 8} (h : Kept .command s t) : KeptOut s (execPhaseGlitch i t) := next (ite (setReg h) h)

theorem Kept.execRealign {m : Master} {g : Fin 4} {v : Word} (h : Kept .command s t) : KeptOut s (execRealign m g v t) := by
  have requested (v : State) (l : List Nat) (hv : Kept .command s v) : Kept .command s { v with genReq := l } := hv.of_core
  unfold Machine.execRealign
  extract_lets was s1 _ s2
  have h1 : Kept .command s s1 := regStore h
  have h2 : Kept .command s s2 := ite (requested _ _ (putRbit (putRbit h1))) (ite (genRequest h1) h1)
  exact next (genPins h2)

theorem Kept.execGeneratorAlign {g : Fin 4} {present : Bool} (h : Kept .command s t) : KeptOut s (execGeneratorAlign g present t) :=
  next (ite (ite (genPins (.of_core (setRbit (putRbit (setRbit h))))) (setRbit h)) h)

theorem Kept.execLockAchieved {err : Word} (h : Kept .command s t) : KeptOut s (execLockAchieved err t) :=
  next (ite (refEval (genRequestAll (refGo (setReg h)))) h)

theorem Kept.execLockLost {err : Word} (h : Kept .command s t) : KeptOut s (execLockLost err t) := next (ite (refGo (setRbit (setReg h))) h)

theorem Kept.execRefFault (h : Kept .command s t) : KeptOut s (execRefFault t) := next (ite (refFault h) h)

theorem Kept.execRefFaultClear (h : Kept .command s t) : KeptOut s (execRefFaultClear t) := next (ite (refEval (toFreerun h)) h)

theorem Kept.execRefCtrlWrite {m : Master} {v : Word} (h : Kept .command s t) : KeptOut s (execRefCtrlWrite m v t) := next (refEval (regStore h))

theorem Kept.execRefFreeWrite {m : Master} {v : Word} (h : Kept .command s t) : KeptOut s (execRefFreeWrite m v t) :=
  next (ite (setReg (setReg h)) (setReg h))

theorem Kept.execSelectorSecond {mean : Word} {whole : Bool} {offsets : List Word} (h : Kept .command s t) : KeptOut s (execSelectorSecond mean whole offsets t) := by
  unfold Machine.execSelectorSecond
  extract_lets _ s1 s2 s3 s4
  have h_s1 : Kept .command s s1 := h.of_core
  have h_s2 : Kept .command s s2 := foldl (fun _ _ h => ite (slotInvalid (ite (setRfld (setReg (ite (setReg h) h))) (setReg (ite (setReg h) h)))) (ite (setRfld (setReg (ite (setReg h) h))) (setReg (ite (setReg h) h)))) h_s1
  have h_s3 : Kept .command s s3 := refEval h_s2
  have h_s4 : Kept .command s s4 := ite (hoUpdate h_s3) h_s3
  exact next (disagree h_s4)

theorem Kept.execGlobalResetWrite {m : Master} {v : Word} (h : Kept .command s t) : KeptOut s (execGlobalResetWrite m v t) :=
  next (ite (moduleReset h) h)

theorem Kept.execResetPin (h : Kept .command s t) : KeptOut s (execResetPin t) := next (moduleReset h)

theorem Kept.execRstOutRise (h : Kept .command s t) : KeptOut s (execRstOutRise t) := next (ite h.of_core h)

theorem Kept.execPowerGood {bulk : BitVec 10} {dc : Bool} (h : Kept .command s t) : KeptOut s (execPowerGood bulk dc t) :=
  next (ite h (.of_core (moduleReset (setReg h))))

theorem Kept.execRailsFall (h : Kept .command s t) : KeptOut s (execRailsFall t) := next (.of_core (moduleReset (setReg h)))

theorem Kept.execPowerOnResetRelease {roleGnd : Bool} (h : Kept .command s t) : KeptOut s (execPowerOnResetRelease roleGnd t) :=
  next (ite (tapLock (setStage (putRbit (putRbit (putRbit (ridgeSlow (setReg h))))))) h)

theorem Kept.execXoQualified (h : Kept .command s t) : KeptOut s (execXoQualified t) := next (ite (ite (enterLimp (setRbit h)) (setSup (setRbit h))) h)

theorem Kept.execXoWaitTimeout (h : Kept .command s t) : KeptOut s (execXoWaitTimeout t) :=
  next (ite (ite (clkEvent (setRbit (setRfld h))) (clkEvent (enterLimp (causeBegins h)))) h)

theorem Kept.execPllLock (h : Kept .command s t) : KeptOut s (execPllLock t) :=
  next (ite (.of_core (putRbit (setRbit (setRfld (setSup (setReg (setReg h))))))) h)

theorem Kept.execPllStartTimeout (h : Kept .command s t) : KeptOut s (execPllStartTimeout t) := next (ite (clkEvent (enterLimp (causeBegins h))) h)

theorem Kept.execMuxEscape (h : Kept .command s t) : KeptOut s (execMuxEscape t) := by
  unfold Machine.execMuxEscape
  refine next ?_
  split
  · exact h
  · dsimp only
    exact ite (clkEvent (ite (limpClock (setRbit (draw (setRbit h.of_core)))) (draw (setRbit h.of_core)))) (clkEvent (setRbit h.of_core))

theorem Kept.execXoLoss (h : Kept .command s t) : KeptOut s (execXoLoss t) :=
  next (ite (.of_core (raiseEvent (clkEvent (refFault (foldl (@tbArm .command s) (foldl (@dropAnchor .command s) (causeBegins (causeBegins (setSup (limpClock (setRbit (setRfld (setRfld (setRfld (setReg (cpllCoasts h)))))))))))))))) h)

theorem Kept.execCpllLoss (h : Kept .command s t) : KeptOut s (execCpllLoss t) := next (ite (raiseEvent (causeBegins (cpllCoasts h))) h)

theorem Kept.execApllLoss (h : Kept .command s t) : KeptOut s (execApllLoss t) := next (ite (refFault (causeBegins (setRbit (putRbit h)))) h)

theorem Kept.execApllRelock (h : Kept .command s t) : KeptOut s (execApllRelock t) := next (ite (causeEnds (setReg (setRbit h))) h)

theorem Kept.execDramPllLoss (h : Kept .command s t) : KeptOut s (execDramPllLoss t) := next (ite (causeBegins (setRbit (putRbit h))) h)

theorem Kept.execClkDivWrite {m : Master} {v : Word} (h : Kept .command s t) : KeptOut s (execClkDivWrite m v t) := next (.of_core (regStore h))

theorem Kept.execDividerChange (h : Kept .command s t) : KeptOut s (execDividerChange t) := next (divChange h)

theorem Kept.execSscWrite {m : Master} {v : Word} (h : Kept .command s t) : KeptOut s (execSscWrite m v t) := next (regStore h)

theorem Kept.execModeReqWrite {m : Master} {v : Word} (h : Kept .command s t) : KeptOut s (execModeReqWrite m v t) := next (modeWrite h)

theorem Kept.execMaintWrite {m : Master} {v : Word} (h : Kept .command s t) : KeptOut s (execMaintWrite m v t) := next (modeWrite h)

theorem Kept.execSleepEntry (h : Kept .command s t) : KeptOut s (execSleepEntry t) :=
  next (ite (modeDone (ite (sleepExit (collapse (modeSet (setRfld h.of_core)))) (collapse (modeSet (setRfld h.of_core))))) h)

theorem Kept.execBrownOut {bulk : BitVec 10} (h : Kept .command s t) : KeptOut s (execBrownOut bulk t) :=
  next (ite (ite (setRbit (setRbit (setRfld h))) (ite (.of_core (raiseEvent (causeBegins (setRbit (setRbit (setRfld h)))))) (setRbit (raiseEvent (causeBegins (setRbit (setRbit (setRfld h)))))))) h)

theorem Kept.execHoldupCapture (h : Kept .command s t) : KeptOut s (execHoldupCapture t) := next (ite h.of_core h)

theorem Kept.execHoldupStoreDone (h : Kept .command s t) : KeptOut s (execHoldupStoreDone t) := by
  unfold Machine.execHoldupStoreDone
  refine next ?_
  split
  · exact h
  · exact logStore h.of_core

theorem Kept.execBulkRecover {bulk : BitVec 10} (h : Kept .command s t) : KeptOut s (execBulkRecover bulk t) :=
  next (ite (causeEnds (putRbit (setRfld h))) h)

theorem Kept.execDeepEntry (h : Kept .command s t) : KeptOut s (execDeepEntry t) :=
  next (ite (ite (deepWake (.of_core (deepState (foldl (@logStore s) (sendLeave (gateDeepCheck h)))))) (.of_core (deepState (foldl (@logStore s) (sendLeave (gateDeepCheck h)))))) h)

theorem Kept.execWake {src : WakeSrc} (h : Kept .command s t) : KeptOut s (execWake src t) := next (wakeBy h)

theorem Kept.execFrameReceive {x : Path} {frame : List Byte} (h : Kept .command s t) : KeptOut s (execFrameReceive x frame t) :=
  next (ite (frameArrives (ite (wakeBy h) h)) (ite (wakeBy h) h))

theorem Kept.execLpoTimerExpiry (h : Kept .command s t) : KeptOut s (execLpoTimerExpiry t) := next (ite (wakeBy (awakeEvent (setReg h))) h)

theorem Kept.execTrainLineInputChange {i : Fin 8} {level : Bool} (h : Kept .command s t) : KeptOut s (execTrainLineInputChange i level t) :=
  next (ite h (wakeBy (awakeEvent (setRbit (putRbit h)))))

theorem Kept.execTrainLineOutputWrite {m : Master} {v : Word} (h : Kept .command s t) : KeptOut s (execTrainLineOutputWrite m v t) :=
  next (.of_core (setReg h))

theorem Kept.execTrainLineOvercurrent {j : Fin 2} (h : Kept .command s t) : KeptOut s (execTrainLineOvercurrent j t) :=
  next (ite (faultOccurs (setRbit h.of_core)) h)

theorem Kept.execCurrentLimitShutdown {rail : AuxRail} (h : Kept .command s t) : KeptOut s (execCurrentLimitShutdown rail t) := next (ite h h.of_core)

theorem Kept.execBootOnlyWordWrite {m : Master} {a v : Word} (h : Kept .command s t) : KeptOut s (execBootOnlyWordWrite m a v t) := by
  unfold Machine.execBootOnlyWordWrite
  refine next ?_
  split
  · exact hostRef h
  · exact hostRef h
  · exact h

theorem Kept.execShadowedWordDirectWrite {m : Master} {a v : Word} (h : Kept .command s t) : KeptOut s (execShadowedWordDirectWrite m a v t) :=
  next (ite (hostRef h) h)

theorem Kept.execPartnerTableWrite {m : Master} {a v : Word} (h : Kept .command s t) : KeptOut s (execPartnerTableWrite m a v t) := by
  have flows (v : State) (p : List (Nat × List FlowRec)) (hv : Kept .command s v) : Kept .command s { v with partnerFlows := p } := hv.of_core
  unfold Machine.execPartnerTableWrite
  extract_lets o s1 s2
  have h1 : Kept .command s s1 := partnerSet h
  have h2 : Kept .command s s2 := ite h1 (flows _ _ h1)
  exact next (ite (ite (connect h2) h2) h)

theorem Kept.execCourseMemoryWindowWrite {m : Master} {a v : Word} (h : Kept .command s t) : KeptOut s (execCourseMemoryWindowWrite m a v t) := by
  unfold Machine.execCourseMemoryWindowWrite
  refine next (ite (pathless h) (ite (unmapped h) ?_))
  split
  · exact unmapped h
  · exact ite (setRbit h) (courseSet h)

theorem Kept.execFaultLatchClear {m : Master} {k : Fin 8} {v : Word} (h : Kept .command s t) : KeptOut s (execFaultLatchClear m k v t) := next (setReg h)

theorem Kept.execFirstFaultAck {m : Master} (h : Kept .command s t) : KeptOut s (execFirstFaultAck m t) :=
  next (foldl (fun _ _ h => setLatch (setReg h)) (setReg h))

theorem Kept.execFfr0Read {m : Master} (h : Kept .command s t) : KeptOut s (execFfr0Read m t) := next (returnTo (foldl (fun _ _ h => setLatch h) h))

theorem Kept.execInjectionArm {m : Master} {v : Word} (h : Kept .command s t) : KeptOut s (execInjectionArm m v t) := next (ite h (regStore h))

theorem Kept.execTrig {m : Master} {v : Word} (h : Kept .command s t) : KeptOut s (execTrig m v t) := next (snapWrite h)

theorem Kept.execSnapInEdge {falling : Bool} (h : Kept .command s t) : KeptOut s (execSnapInEdge falling t) := next (ite (snapTrigger h) h)

theorem Kept.execSnapshotTake (h : Kept .command s t) : KeptOut s (execSnapshotTake t) := next (snapDone h)

theorem Kept.execScrubPassComplete {dram : Bool} {errs : List (Fin 22 × Word × Byte × Bool)} (h : Kept .command s t) : KeptOut s (execScrubPassComplete dram errs t) :=
  next (ite (raiseEvent (foldl (fun _ _ h => scrubError h) h)) h)

theorem Kept.execMacCheckComplete {n : CourseId} {pass : Bool} (h : Kept .command s t) : KeptOut s (execMacCheckComplete n pass t) :=
  next (ite (ite (causeEnds h) (raiseEvent (causeBegins h))) h)

theorem Kept.execTestRequest {m : Master} {v : Word} (h : Kept .command s t) : KeptOut s (execTestRequest m v t) := next (testWrite h)

theorem Kept.execTestAbort {m : Master} (h : Kept .command s t) : KeptOut s (execTestAbort m t) := next (testAbort h)

theorem Kept.execTestComplete {pass : Bool} (h : Kept .command s t) : KeptOut s (execTestComplete pass t) := by
  unfold Machine.execTestComplete
  refine next ?_
  split
  · exact h
  · dsimp only
    exact testEnd (ite h (faultOccurs h))

theorem Kept.execBattenSample {high : Bool} (h : Kept .command s t) : KeptOut s (execBattenSample high t) :=
  next (ite h (ite (sampleStep (ite h (raiseEvent (putRbit h)))) (ite h (raiseEvent (putRbit h)))))

theorem Kept.execBattenRelease (h : Kept .command s t) : KeptOut s (execBattenRelease t) := by
  unfold Machine.execBattenRelease
  refine next ?_
  split
  · exact ite (.of_core (putRbit h)) h
  · exact h

theorem Kept.execHeartbeatSend (h : Kept .command s t) : KeptOut s (execHeartbeatSend t) := next (ite (.of_core (heartbeat h)) h)

theorem Kept.execHeartbeatReceive {hb : Heartbeat} {skew : Word} (h : Kept .command s t) : KeptOut s (execHeartbeatReceive hb skew t) :=
  next (ite (hbDual (hbCompare (hbAlign (hbAcks (hbLink (hbGap h)))))) h)

theorem Kept.execHeartbeatLoss (h : Kept .command s t) : KeptOut s (execHeartbeatLoss t) := by
  have lost (v : State) (hv : Kept .command s v) : Kept .command s { v with linkRun := 0, syncSent := false } := hv.of_core
  have ended (v : State) (n : Option Nat) (hv : Kept .command s v) : Kept .command s { v with finalEpoch := n } := hv.of_core
  unfold Machine.execHeartbeatLoss
  extract_lets _ s1 s2 _ s3 _ s4
  have h1 : Kept .command s s1 := lost _ (setRbit (putRbit h))
  have h2 : Kept .command s s2 := raiseEvent (causeBegins (setReg h1))
  clear_value s2
  have h3 : Kept .command s s3 := ite h2 (.of_core (setRbit h2))
  clear_value s3
  have h4 : Kept .command s s4 := ended _ _ (epochAbort h3)
  exact next (ite (ite (pairGo h4) h4) h)

theorem Kept.execMirrorReady (h : Kept .command s t) : KeptOut s (execMirrorReady t) := next (ite (pairGo h) h)

theorem Kept.execSyncRecord (h : Kept .command s t) : KeptOut s (execSyncRecord t) := next (ite (.of_core (draw h)) h)

theorem Kept.execForwardedEntryReceive {hdr : Word} {payload : List Word} (h : Kept .command s t) : KeptOut s (execForwardedEntryReceive hdr payload t) :=
  next (ite h (ite h.of_core (foldl (fun _ _ h => pegData h) (pegHeader h))))

theorem Kept.execResolutionRecordReceive {ticket : Byte} {mask : Word} {c : BitVec 64} (h : Kept .command s t) : KeptOut s (execResolutionRecordReceive ticket mask c t) := by
  unfold Machine.execResolutionRecordReceive
  refine next (ite h (ite ?_ (ite ?_ ?_)))
  · exact .of_core (t := if (t.pegQueue.isEmpty && !t.commitStalls mask && !t.pegHalted) = true then
  have __src := t.resolveForwarded (BitVec.toNat ticket) mask (↑c.toNat - t.fcOff).toNat;
  { regs := __src.regs, latch := __src.latch, rdata := __src.rdata, fc := __src.fc, ticking := __src.ticking,
    matFrame := __src.matFrame, tab := __src.tab, shad := __src.shad, courses := __src.courses,
    scratch := __src.scratch, newOwner := __src.newOwner, dram := __src.dram, raced := __src.raced,
    scrUsed := __src.scrUsed, rr := __src.rr, lines := __src.lines, taps := __src.taps, captured := __src.captured,
    mixFeeds := __src.mixFeeds, bus := __src.bus, xents := __src.xents, sels := __src.sels, secs := __src.secs,
    eqSat := __src.eqSat, chainOut := __src.chainOut, meters := __src.meters, pegOpen := __src.pegOpen,
    pegQueue := __src.pegQueue, commits := __src.commits, tokens := __src.tokens, seq := __src.seq,
    store := __src.store, readyCtr := __src.readyCtr, mute := __src.mute, reactMute := __src.reactMute,
    asrcLost := __src.asrcLost, test := __src.test, snap := __src.snap, tbCount := __src.tbCount,
    releaseReq := __src.releaseReq, asrcRatio := __src.asrcRatio, modeUsed := __src.modeUsed, ports := __src.ports,
    rxs := __src.rxs, txs := __src.txs, asrcLev := __src.asrcLev, conv := __src.conv, asrcOut := __src.asrcOut,
    rxFlows := __src.rxFlows, txFlows := __src.txFlows, flowErr := __src.flowErr, wire := __src.wire,
    ringHold := __src.ringHold, partnerFlows := __src.partnerFlows, conns := __src.conns,
    partnersRefused := __src.partnersRefused, delronNet := __src.delronNet, outFill := __src.outFill,
    outWait := __src.outWait, pairEn := __src.pairEn, fwdSent := __src.fwdSent, fwdApplied := t.fwdApplied + 1,
    cancelWait := __src.cancelWait, anchors := __src.anchors, ancPend := __src.ancPend, capCnt := __src.capCnt,
    capSec := __src.capSec, slotSeen := __src.slotSeen, refMeans := __src.refMeans, refSec := __src.refSec,
    disPairs := __src.disPairs, genReq := __src.genReq, timing := __src.timing, divNow := __src.divNow,
    divHold := __src.divHold, earlyDiv := __src.earlyDiv, earlySsc := __src.earlySsc, xoFromRun := __src.xoFromRun,
    modeStep := __src.modeStep, modeQueued := __src.modeQueued, sup := __src.sup, wakePend := __src.wakePend,
    railsUp := __src.railsUp, rstOut := __src.rstOut, holdupDue := __src.holdupDue, holdup := __src.holdup,
    flash := __src.flash, flashPart := __src.flashPart, flCmd := __src.flCmd, fuseKey := __src.fuseKey,
    fuseLock := __src.fuseLock, otpRun := __src.otpRun, loading := __src.loading, resetDue := __src.resetDue,
    bootEv := __src.bootEv, bootOwn := __src.bootOwn, railsOff := __src.railsOff, toOpen := __src.toOpen,
    claimCount := __src.claimCount, linkRun := __src.linkRun, hbFrame := __src.hbFrame, skewGood := __src.skewGood,
    skewBad := __src.skewBad, joinStep := __src.joinStep, hashes := __src.hashes, digests := __src.digests,
    matched := __src.matched, hbSent := __src.hbSent, epochRun := __src.epochRun, epochLast := __src.epochLast,
    epochReq := __src.epochReq, finalEpoch := __src.finalEpoch, relDue := __src.relDue, relDone := __src.relDone,
    epochRx := __src.epochRx, liveStart := __src.liveStart, sceneNeed := __src.sceneNeed, ownCur := __src.ownCur,
    ownPrev := __src.ownPrev, relArmed := __src.relArmed, syncSent := __src.syncSent, spiResp := __src.spiResp,
    testPort := __src.testPort, freeCtr := __src.freeCtr, pending := __src.pending }
else
  { regs := t.regs, latch := t.latch, rdata := t.rdata, fc := t.fc, ticking := t.ticking, matFrame := t.matFrame,
    tab := t.tab, shad := t.shad, courses := t.courses, scratch := t.scratch, newOwner := t.newOwner, dram := t.dram,
    raced := t.raced, scrUsed := t.scrUsed, rr := t.rr, lines := t.lines, taps := t.taps, captured := t.captured,
    mixFeeds := t.mixFeeds, bus := t.bus, xents := t.xents, sels := t.sels, secs := t.secs, eqSat := t.eqSat,
    chainOut := t.chainOut, meters := t.meters, pegOpen := t.pegOpen,
    pegQueue :=
      t.pegQueue ++
        [{ master := 11, hdr := BitVec.ofNat 32 (1610612736 + BitVec.toNat ticket),
            words :=
              [mask, BitVec.ofNat 32 (↑c.toNat - t.fcOff).toNat, BitVec.ofNat 32 ((↑c.toNat - t.fcOff).toNat / 2 ^ 32)],
            pos := 0, skipped := false, recA := 0, recLeft := 0, crc := 4294967295#32, loading := false,
            loaded := false, failed := false, dir := [], ack := none }],
    commits := t.commits, tokens := t.tokens, seq := t.seq, store := t.store, readyCtr := t.readyCtr, mute := t.mute,
    reactMute := t.reactMute, asrcLost := t.asrcLost, test := t.test, snap := t.snap, tbCount := t.tbCount,
    releaseReq := t.releaseReq, asrcRatio := t.asrcRatio, modeUsed := t.modeUsed, ports := t.ports, rxs := t.rxs,
    txs := t.txs, asrcLev := t.asrcLev, conv := t.conv, asrcOut := t.asrcOut, rxFlows := t.rxFlows,
    txFlows := t.txFlows, flowErr := t.flowErr, wire := t.wire, ringHold := t.ringHold, partnerFlows := t.partnerFlows,
    conns := t.conns, partnersRefused := t.partnersRefused, delronNet := t.delronNet, outFill := t.outFill,
    outWait := t.outWait, pairEn := t.pairEn, fwdSent := t.fwdSent, fwdApplied := t.fwdApplied,
    cancelWait := t.cancelWait, anchors := t.anchors, ancPend := t.ancPend, capCnt := t.capCnt, capSec := t.capSec,
    slotSeen := t.slotSeen, refMeans := t.refMeans, refSec := t.refSec, disPairs := t.disPairs, genReq := t.genReq,
    timing := t.timing, divNow := t.divNow, divHold := t.divHold, earlyDiv := t.earlyDiv, earlySsc := t.earlySsc,
    xoFromRun := t.xoFromRun, modeStep := t.modeStep, modeQueued := t.modeQueued, sup := t.sup, wakePend := t.wakePend,
    railsUp := t.railsUp, rstOut := t.rstOut, holdupDue := t.holdupDue, holdup := t.holdup, flash := t.flash,
    flashPart := t.flashPart, flCmd := t.flCmd, fuseKey := t.fuseKey, fuseLock := t.fuseLock, otpRun := t.otpRun,
    loading := t.loading, resetDue := t.resetDue, bootEv := t.bootEv, bootOwn := t.bootOwn, railsOff := t.railsOff,
    toOpen := t.toOpen, claimCount := t.claimCount, linkRun := t.linkRun, hbFrame := t.hbFrame, skewGood := t.skewGood,
    skewBad := t.skewBad, joinStep := t.joinStep, hashes := t.hashes, digests := t.digests, matched := t.matched,
    hbSent := t.hbSent, epochRun := t.epochRun, epochLast := t.epochLast, epochReq := t.epochReq,
    finalEpoch := t.finalEpoch, relDue := t.relDue, relDone := t.relDone, epochRx := t.epochRx,
    liveStart := t.liveStart, sceneNeed := t.sceneNeed, ownCur := t.ownCur, ownPrev := t.ownPrev,
    relArmed := t.relArmed, syncSent := t.syncSent, spiResp := t.spiResp, testPort := t.testPort, freeCtr := t.freeCtr,
    pending := t.pending }) (ite (.of_core (resolveForwarded h)) h.of_core)
  · dsimp only
    exact .of_core (resolveForwarded h)
  · exact h.of_core

theorem Kept.execForwardedCancelReceive {ticket : Byte} (h : Kept .command s t) : KeptOut s (execForwardedCancelReceive ticket t) :=
  next (ite (.of_core (cancel h)) h)

theorem Kept.execSceneDirectoryReceive {dir : List (Fin 1024 × Word × Word × Word × Word)} (h : Kept .command s t) : KeptOut s (execSceneDirectoryReceive dir t) :=
  next (ite h.of_core h)

theorem Kept.execSceneBodyReceive {n : Fin 1024} {ws : List Word} (h : Kept .command s t) : KeptOut s (execSceneBodyReceive n ws t) := by
  unfold Machine.execSceneBodyReceive
  extract_lets
  refine next ?_
  split
  · exact h
  · extract_lets off len s1 rest
    have h1 : Kept .command s s1 := ite (dramSetMany (dramSetMany h)) h
    exact h1.of_core

theorem Kept.execEpochStart (h : Kept .command s t) : KeptOut s (execEpochStart t) := by
  have ended (v : State) (n : Option Nat) (hv : Kept .command s v) : Kept .command s { v with finalEpoch := n } := hv.of_core
  unfold Machine.execEpochStart
  extract_lets n regions s1 _ s2
  have h1 : Kept .command s s1 := foldl (fun _ _ h => ite (dramTouch h) (configError h)) h
  clear_value s1
  have hr : Kept .command s (s1.setRbit regPAIR_ESTAT 31) := setRbit h1
  have h2 : Kept .command s s2 := hr.of_core
  clear_value s2
  exact next (ite (ite h2 (ended _ _ (epochAbort h2))) h)

theorem Kept.execEpochDataReceive {num : Word} {region : Fin 16} {off : Nat} {ws : List Word} (h : Kept .command s t) : KeptOut s (execEpochDataReceive num region off ws t) :=
  next (ite (.of_core (ite (dramSetMany h) h)) h)

theorem Kept.execEpochCommitMarker {num : Word} {startFc : BitVec 64} {crc : Word} (h : Kept .command s t) : KeptOut s (execEpochCommitMarker num startFc crc t) :=
  next (ite (ite (setRbit h.of_core) (ite (epochLive h.of_core) h.of_core)) h)

theorem Kept.execPairRelease {m : Master} (h : Kept .command s t) : KeptOut s (execPairRelease m t) := next (release h)

theorem Kept.execForceRelease {m : Master} (h : Kept .command s t) : KeptOut s (execForceRelease m t) := next (release h)

theorem Kept.execEstart {m : Master} (h : Kept .command s t) : KeptOut s (execEstart m t) := next (ite h.of_core h)

theorem Kept.execResync {m : Master} (h : Kept .command s t) : KeptOut s (execResync m t) := next (ite (pairGo h) h)

theorem Kept.execEarlyHeaderRead (h : Kept .command s t) : KeptOut s (execEarlyHeaderRead t) := next (ite (ite h.of_core (ite h.of_core h.of_core)) h)

theorem Kept.execDramTrainingComplete {sfdpOk : Bool} (h : Kept .command s t) : KeptOut s (execDramTrainingComplete sfdpOk t) :=
  next (ite (ite (.of_core (putRbit (setStage (setReg h)))) (setStage h.of_core)) h)

theorem Kept.execBlockResetComplete (h : Kept .command s t) : KeptOut s (execBlockResetComplete t) := next (ite (nextCopy (faultOccurs (blockReset h))) h)

theorem Kept.execPass1Complete {readOk : Bool} (h : Kept .command s t) : KeptOut s (execPass1Complete readOk t) := by
  unfold Machine.execPass1Complete
  refine next (ite ?_ h)
  split
  · exact copyReject h
  · exact setStage h

theorem Kept.execVerifyComplete (h : Kept .command s t) : KeptOut s (execVerifyComplete t) :=
  next (ite (ite (copyReject h) (ite (copyReject h) (.of_core (setStage h)))) h)

theorem Kept.execPass2Complete {readOk : Bool} (h : Kept .command s t) : KeptOut s (execPass2Complete readOk t) := by
  have hl : Kept .command s (t.loadImage t.bootCopy).1 := loadImage h
  unfold Machine.execPass2Complete
  refine next (ite (ite (copyReject h) ?_) h)
  split
  · next e => exact copyReject (by rwa [e] at hl)
  · next e => exact setStage (by rwa [e] at hl)

theorem Kept.execChecksComplete (h : Kept .command s t) : KeptOut s (execChecksComplete t) := by
  unfold Machine.execChecksComplete
  refine next (ite ?_ h)
  split
  · exact copyReject h
  · exact firstTick h

theorem Kept.execOtpBurn {m : Master} {v : Word} (h : Kept .command s t) : KeptOut s (execOtpBurn m v t) := next (otpWrite h)

theorem Kept.execOtpBurnComplete (h : Kept .command s t) : KeptOut s (execOtpBurnComplete t) := by
  unfold Machine.execOtpBurnComplete
  refine next ?_
  split
  · exact h
  · next key lock dig e =>
    have hr : Kept .command s (t.putRbit regBOOT_STATUS 22 false) := putRbit h
    refine ⟨hr.pending, hr.canon, fun hs => ⟨?_, fun _ _ _ e => nomatch e⟩, fun hl => ?_, fun hs hu => ?_, fun e => nomatch e⟩
    · obtain ⟨hn, hd⟩ := h.fuses hs
      split
      · exact (hd _ _ _ e).1
      · exact hn
    · simp [h.lock hl]
    · have hf : t.unfused = false := by rwa [State.unfused, h.key hs hu]
      have hk : key ≠ true := fun hk => by simp [((h.fuses hs).2 _ _ _ e).2 hk] at hf
      simp [hk, h.key hs hu]

theorem Kept.flashStart {cmd : Nat} (h : Kept γ s t) : Kept γ s (t.flashStart cmd) := ite (setRbit h) (.of_core (setRbit h))

theorem Kept.flashWrite {v : Word} (h : Kept γ s t) : Kept γ s (t.flashWrite v) := ite h (flashStart h)

theorem Kept.writeFault {m : Master} {a : Nat} {v : Word} (h : Kept .command s t) : Kept .command s (t.writeFault m a v) :=
  ite (outState (execFaultLatchClear h)) (ite (ite (outState (execFirstFaultAck h)) h) (ite (outState (execInjectionArm h)) (ite (ite h (regStore h)) (ite (testWrite h) (ite (setReg h) (regStore h))))))

theorem Kept.writeEvt {m : Master} {a : Nat} {v : Word} (h : Kept .command s t) : Kept .command s (t.writeEvt m a v) :=
  ite (outState (execPurge h)) (ite (outState (execEvtPendClear h)) (ite (outState (execSoftwareEventWrite h)) (ite (outState (execPegQhdrWrite h)) (ite (outState (execPegQdataWrite h)) (ite (outState (execPegCancelWrite h)) (regStore h))))))

theorem Kept.tbCommand {t' : Fin 4} {v : Word} (h : Kept .command s t) : Kept .command s (t.tbCommand t' v) := by
  unfold State.tbCommand
  split
  · exact h
  · exact outState (execTbCmdStep h)
  · exact outState (execTbCmdQualify h)
  · exact outState (execTbCmdLose h)
  · exact outState (execTbCmdArm h)
  · exact outState (execTbCmdGrandmaster h)
  · exact configError h

theorem Kept.writeTime {m : Master} {a : Nat} {v : Word} (h : Kept .command s t) : Kept .command s (t.writeTime m a v) :=
  ite (outState (execTbCfgWrite h)) (ite (tbCommand h) (ite (outState (execTbRateWrite h)) (ite (alignWrite h)
    (ite (outState (execAlarmCtrlWrite h)) (ite (outState (execAlarmCtrlWrite h)) (ite (outState (execRefCtrlWrite h)) (ite (hoWrite h)
      (ite (outState (execRefFreeWrite h)) (ite (outState (execSlotCfgWrite h)) (ite (outState (execRealign h)) (regStore h)))))))))))

theorem Kept.writeNet {m : Master} {a : Nat} {v : Word} (h : Kept .command s t) : Kept .command s (t.writeNet m a v) :=
  ite (outState (execPathModeWrite h)) (ite (outState (execPathModeWrite h)) (ite (ite h (regStore h)) (ite (outState (execRingCfgWrite h)) (ite (outState (execRingTailWrite h)) (regStore h)))))

theorem Kept.writeBoot {a : Nat} {v : Word} (h : Kept .command s t) : Kept .command s (t.writeBoot a v) :=
  ite (otpWrite h) (ite (flashWrite h) (ite (ite (setReg h) h) (regStore h)))

theorem Kept.courseCtrl {n : CourseId} {v : Word} (h : Kept γ s t) : Kept γ s (t.courseCtrl n v) := by
  unfold State.courseCtrl
  extract_lets s1 s2 s3
  have h_s1 : Kept γ s s1 := putRbit h
  have h_s2 : Kept γ s s2 := putRbit h_s1
  have h_s3 : Kept γ s s3 := ite h_s2 (modCourse (fun _ => .of_mem rfl rfl) h_s2)
  exact ite (modCourse (fun _ => .of_mem rfl rfl) h_s3) h_s3

theorem Kept.writeEngine {m : Master} {a : Nat} {v : Word} (h : Kept .command s t) : Kept .command s (t.writeEngine m a v) := by
  unfold State.writeEngine
  dsimp only
  refine ite (ite (courseCtrl h) ?_) (ite (outState (execScrOwnWrite h)) (ite (outState (execDlyDeclWrite h)) (ite (outState (execRidgeSlowWrite h)) (regStore h))))
  split
  · exact outState (execCourseHaltedRegisterWrite h)
  · exact regStore h

theorem Kept.writeListed {m : Master} {a : Nat} {v : Word} (h : Kept .command s t) : Kept .command s (t.writeListed m a v) := by
  unfold State.writeListed
  split
  · exact ite (outState (execGlobalResetWrite h)) (ite (modeWrite h) (regStore h))
  · exact ite (outState (execClkDivWrite h)) (regStore h)
  · exact writeFault h
  · exact writeEvt h
  · exact writeEvt h
  · exact ite (outState (execTdmCfgWrite h)) (regStore h)
  · exact writeNet h
  · exact writeTime h
  · exact writeTime h
  · exact ite (pairCtrl h) (regStore h)
  · exact ite (snapWrite h) (regStore h)
  · exact ite (outState (execTrainLineOutputWrite h)) (regStore h)
  · exact writeBoot h
  · exact writeEngine h

theorem Kept.regWrite {m : Master} {a : Nat} {v : Word} (h : Kept .command s t) : Kept .command s (t.regWrite m a v).1 :=
  ite_fst (unmapped h) (ite_fst (hostRef h) (writeListed h))

theorem Kept.readVia {m : Master} {o : Host.Outcome State Fault Refusal} (h : KeptOut s o) : Kept .command s (readVia t m o).2 := outState h

theorem Kept.readFc (h : Kept γ s t) : Kept γ s t.readFc.2 := setReg h

theorem Kept.readFcOff (h : Kept γ s t) : Kept γ s t.readFcOff.2 := setLatch h

theorem Kept.readTbNs {m : Master} {t' : Fin 4} (h : Kept .command s t) : Kept .command s (t.readTbNs m t').2 := readVia (execTbNsRead (draw (draw h)))

theorem Kept.readClear {a : Nat} {ev : Word} (h : Kept γ s t) : Kept γ s (t.readClear a ev).2 :=
  ite_snd (regValue h) (ite (.of_core (setReg (regValue h))) (setReg (regValue h)))

theorem Kept.readListed {m : Master} {a : Nat} (h : Kept .command s t) : Kept .command s (t.readListed m a).2 := by
  unfold State.readListed
  split
  · exact h
  · exact ite_snd (readFc h) (ite_snd (readFcOff h) (ite_snd (readVia (execFfr0Read h)) (ite_snd (readTbNs h) (ite_snd (readVia (execTbAncNsRead h)) (ite_snd (readVia (execCapnsRead h)) (ite_snd (readVia (execPegLogWord0Read h)) (readClear h)))))))

theorem Kept.regRead {m : Master} {a : Nat} (h : Kept .command s t) : Kept .command s (t.regRead m a).1.2 := ite_mid (unmapped h) (readListed h)

theorem Kept.writeTab {m : Master} {a : Nat} {w : TabWord} {v : Word} (h : Kept .command s t) : Kept .command s (t.writeTab m a w v).1 := by
  unfold State.writeTab
  split
  · exact hostRef h
  · exact hostRef h
  · exact hostRef h
  · refine ite_fst ?_ (ite_fst ?_ (ite (fillSlots (tabSet h)) (tabSet h)))
    · exact outState (t := t) (execPartnerTableWrite (m := m) h)
    · exact outState (t := t) (execClassifierRuleWrite (m := m) h)

theorem Kept.tableWrite {m : Master} {a : Nat} {v : Word} (h : Kept .command s t) : Kept .command s (t.tableWrite m a v).1 := by
  unfold State.tableWrite
  split
  · exact writeTab h
  · split
    · exact outState (t := t) (execDelayTableWrite (m := m) h)
    · exact unmapped h

theorem Kept.tableRead {m : Master} {a : Nat} (h : Kept γ s t) : Kept γ s (t.tableRead m a).1.2 := ite_mid (tabRead h) (ite_mid h (unmapped h))

theorem Kept.scratchStore {v : RidgeView} {b w : Nat} {x : Word} (h : Kept .command s t) : Kept .command s (t.scratchStore v b w x) := by
  unfold State.scratchStore
  split
  · exact scratchSet (memRead h)
  · exact scratchSet (memRead h)
  · exact scratchSet h

theorem Kept.hostBank {b : Nat} (h : Kept γ s t) : Kept γ s (t.hostBank b) := awaitBank h

theorem Kept.hostScratchWrite {a : Nat} {x : Word} (h : Kept .command s t) : Kept .command s (t.hostScratchWrite a x).1 := by
  unfold State.hostScratchWrite
  split
  · exact unmapped h
  · exact ite_fst (scratchRefused (hostBank h)) (ite_fst (hostBank h) (scratchStore (scrTouch (hostBank h))))

theorem Kept.hostScratchRead {a : Nat} (h : Kept γ s t) : Kept γ s (t.hostScratchRead a).1.2 := by
  unfold State.hostScratchRead
  split
  · exact unmapped h
  · exact ite_mid (scratchRefused (hostBank h)) (ite_mid (hostBank h) (memRead (scrTouch (hostBank h))))

theorem Kept.hostDramWrite {a : Nat} {x : Word} (h : Kept .command s t) : Kept .command s (t.hostDramWrite a x).1 := by
  unfold State.hostDramWrite
  refine ite_fst (unmapped h) ?_
  split
  · exact ridgeRefused h
  · exact ite_fst (dramSet h) h

theorem Kept.hostDramRead {a : Nat} (h : Kept γ s t) : Kept γ s (t.hostDramRead a).1.2 := by
  unfold State.hostDramRead
  refine ite_mid (unmapped h) ?_
  split
  · exact ridgeRefused h
  · exact ite_mid (memRead h) h

theorem Kept.hostCourseRead {a : Nat} (h : Kept γ s t) : Kept γ s (t.hostCourseRead a).1.2 := by
  unfold State.hostCourseRead
  split
  · exact unmapped h
  · exact courseGet h

theorem Kept.hostCourseWrite {a : Nat} {v : Word} (h : Kept .command s t) : Kept .command s (t.hostCourseWrite a v).1 :=
  outState (t := t) (execCourseMemoryWindowWrite (m := 10) (a := BitVec.ofNat 32 a) (v := v) h)

theorem Kept.serve {m : Master} {a : Nat} (h : Kept γ s t) : Kept γ s (t.serve m a) := by
  unfold State.serve
  split
  · exact servePort h
  · exact h

theorem Kept.kindWrite {m : Master} {a : Nat} {v : Word} (h : Kept .command s t) : Kept .command s (t.kindWrite m a v).1 := by
  unfold State.kindWrite
  split
  · exact regWrite h
  · exact tableWrite h
  · exact hostCourseWrite h
  · exact hostScratchWrite h
  · exact hostDramWrite h
  · exact unmapped h

theorem Kept.kindRead {m : Master} {a : Nat} (h : Kept .command s t) : Kept .command s (t.kindRead m a).1.2 := by
  unfold State.kindRead
  split
  · exact regRead h
  · exact tableRead h
  · exact hostCourseRead h
  · exact hostScratchRead h
  · exact hostDramRead h
  · exact unmapped h

theorem Kept.wildWrite {m : Master} {a : Nat} (h : Kept .command s t) : Kept .command s (t.wildWrite m a) :=
  ite (draw (draw (draw h))) (kindWrite (draw (draw (draw h))))

theorem Kept.busWrite {m : Master} {a : Nat} {v : Word} (h : Kept .command s t) : Kept .command s (t.busWrite m a v).1 :=
  ite_fst h (ite_fst (pathless h) (ite_fst (wildWrite (serve (unhold h))) (kindWrite (serve (unhold h)))))

theorem Kept.readBack {m : Master} {a : Nat} {r : Word × State} (h : Kept γ s r.2) : Kept γ s (t.readBack m a r).2 := ite_snd (draw h) h

theorem Kept.busRead {m : Master} {a : Nat} (h : Kept .command s t) : Kept .command s (t.busRead m a).1.2 :=
  ite_mid h (ite_mid (pathless h) (readBack (kindRead (serve (unhold h)))))

theorem Kept.scratchPut {a : Nat} {x : Word} (h : Kept .command s t) : Kept .command s (t.scratchPut a x) := by
  unfold State.scratchPut
  split
  · exact scratchSet h
  · exact scratchStore h
  · exact h

theorem Kept.wildScratch {a : Nat} (h : Kept .command s t) : Kept .command s (t.wildScratch a) := ite (draw (draw (draw h))) (scratchSet (draw (draw (draw h))))

theorem Kept.wildDram (h : Kept .command s t) : Kept .command s t.wildDram := ite (draw (draw (draw h))) (dramSet (draw (draw (draw h))))

theorem Kept.grantStore {n : CourseId} {r : RidgeReq} {a : Nat} {x : Word} (h : Kept .command s t) : Kept .command s (t.grantStore n r a x) := by
  unfold State.grantStore
  dsimp only
  split
  · exact ite (wildScratch (scrTouch h)) (scratchPut (scrTouch h))
  · exact ite (wildDram h) (dramSet h)
  · exact busWrite h

theorem Kept.grantStores {n : CourseId} {r : RidgeReq} {as : List Nat} {xs : List Word} (h : Kept .command s t) : Kept .command s (t.grantStores n r as xs) := by
  induction as generalizing t xs with
  | nil => exact h
  | cons a as ih =>
    cases xs with
    | nil => exact h
    | cons x xs => exact ih (grantStore h)

theorem Kept.grantLoad {n : CourseId} {r : RidgeReq} {a : Nat} (h : Kept .command s t) : Kept .command s (t.grantLoad n r a).2 := by
  unfold State.grantLoad
  extract_lets m got
  have hg : Kept .command s got.2 := by
    dsimp only [got]
    split
    · split
      · exact memRead (scrTouch h)
      · exact memRead (scrTouch h)
      · exact h
    · exact ite h (memRead h)
    · exact busRead h
  split
  · exact ite_snd (draw hg) hg
  · exact ite_snd (draw hg) hg
  · exact hg

theorem Kept.grantLoads {n : CourseId} {r : RidgeReq} {as : List Nat} (h : Kept .command s t) : Kept .command s (t.grantLoads n r as).2 := by
  induction as generalizing t with
  | nil => exact h
  | cons a as ih => exact ih (grantLoad h)

theorem Kept.grant {n : CourseId} {q : PortAsk} (h : Kept .command s t) : Kept .command s (t.grant n q) := by
  unfold State.grant
  split
  · exact modCourse (fun _ => .of_mem rfl rfl) (grantStores h)
  · exact modCtx (grantLoads h)

theorem Kept.execRegisterWrite {m : Master} {a v : Word} (h : Kept .command s t) : KeptOut s (execRegisterWrite m a v t) := next (busWrite h)

theorem Kept.execRcFieldRead {m : Master} {a ev : Word} (h : Kept .command s t) : KeptOut s (execRcFieldRead m a ev t) := by
  unfold Machine.execRcFieldRead
  extract_lets v r
  have hr : Kept .command s r.2 := ite_snd (busRead h) (readBack (readClear (serve (unhold h))))
  exact next (returnTo hr)

theorem Kept.execGlobalFcLoRead {m : Master} (h : Kept .command s t) : KeptOut s (execGlobalFcLoRead m t) := next (returnTo (readFc h))

theorem Kept.execPairFcoffLoRead {m : Master} (h : Kept .command s t) : KeptOut s (execPairFcoffLoRead m t) := next (returnTo (readFcOff h))



theorem Kept.respond {code : Nat} {fields : List Byte} (h : Kept γ s t) : Kept γ s (t.respond code fields) := ite h.of_core h

theorem Kept.spiSelect (h : Kept .command s t) : Kept .command s t.spiSelect := ite (wakeBy h) h

theorem Kept.spiRequest {crcOk : Bool} {f : State → State} (hf : ∀ v, Kept .command s v → Kept .command s (f v)) (h : Kept .command s t) : Kept .command s (t.spiRequest crcOk f) :=
  ite (spiSelect h) (ite (respond (spiSelect h)) (ite (respond (spiSelect h)) (hf _ (spiSelect h))))

theorem Kept.spiReads {a n : Nat} (h : Kept .command s t) : Kept .command s (t.spiReads a n).1.2 := by
  induction n generalizing t a with
  | zero => exact h
  | succ n ih => exact ih (busRead h)

theorem Kept.spiWrites {a : Nat} {vs : List Word} (h : Kept .command s t) : Kept .command s (t.spiWrites a vs).1.2 := by
  induction vs generalizing t a with
  | nil => exact h
  | cons v vs ih => exact ite_mid (ih (busWrite h)) h

theorem Kept.bufferSet {ws : List Word} (h : Kept γ s t) : Kept γ s (t.bufferSet ws) := foldl (fun _ _ h => tabSet h) h

theorem Kept.programByte {a : Nat} {b : Byte} (h : Kept .command s t) : Kept .command s (t.programByte a b) := ite (setFlash h) (setFlash (draw h))

theorem Kept.programPage {a : Nat} (h : Kept .command s t) : Kept .command s (t.programPage a) := foldl (fun _ _ h => programByte h) h

theorem Kept.flashDone {cmd a : Nat} (h : Kept .command s t) : Kept .command s (t.flashDone cmd a) := ite (bufferSet h) (ite (programPage h) (flashErase h))

theorem Kept.flashFailed {cmd a : Nat} (h : Kept .command s t) : Kept .command s (t.flashFailed cmd a) := ite (bufferSet (drawMany h)) (flashPut (drawMany h))

theorem Kept.delronTake {src : DelronSrc} (h : Kept γ s t) : Kept γ s (t.delronTake src) := by
  unfold State.delronTake
  split
  · exact tabSet h
  · exact h

theorem Kept.execRidgeAccessGrant {t' : RidgePort} (h : Kept .command s t) : KeptOut s (execRidgeAccessGrant t' t) := by
  unfold Machine.execRidgeAccessGrant
  refine next ?_
  split
  · exact h
  · exact grant h.of_core

theorem Kept.execCourseResetReloadComplete {n : CourseId} (h : Kept .command s t) : KeptOut s (execCourseResetReloadComplete n t) :=
  next (ite (modCourse (fun _ => .of_mem rfl rfl) (courseInit (dramTouch h))) h)

theorem Kept.execLd {h' : SylHdr} {ch : Fin 16} {f : Form} {r : Fin 32} {sz : Size} (h : Kept .command s t) : KeptOut s (execLd h' ch f r sz t) :=
  next (syllable h)

theorem Kept.execSt {h' : SylHdr} {ch : Fin 16} {f : Form} {src : StSrc} (h : Kept .command s t) : KeptOut s (execSt h' ch f src t) := next (syllable h)

theorem Kept.execModp {h' : SylHdr} {ch : Fin 16} {f : Form} (h : Kept .command s t) : KeptOut s (execModp h' ch f t) := next (syllable h)

theorem Kept.execMva {h' : SylHdr} {ch : Fin 16} {kind : AddrKind} {toData : Bool} {r : Fin 32} (h : Kept .command s t) : KeptOut s (execMva h' ch kind toData r t) :=
  next (syllable h)

theorem Kept.execSetlo {h' : SylHdr} {ch : Fin 16} {kind : AddrKind} {imm : BitVec 16} (h : Kept .command s t) : KeptOut s (execSetlo h' ch kind imm t) :=
  next (syllable h)

theorem Kept.execSethi {h' : SylHdr} {ch : Fin 16} {kind : AddrKind} {imm : BitVec 16} (h : Kept .command s t) : KeptOut s (execSethi h' ch kind imm t) :=
  next (syllable h)

theorem Kept.execInp {h' : SylHdr} {ch : Fin 16} {f : Form} {r : Fin 32} {sz : Size} (h : Kept .command s t) : KeptOut s (execInp h' ch f r sz t) :=
  next (syllable h)

theorem Kept.execOut {h' : SylHdr} {ch : Fin 16} {f : Form} {src : StSrc} (h : Kept .command s t) : KeptOut s (execOut h' ch f src t) := next (syllable h)

theorem Kept.execAdd {h' : SylHdr} {f : Bool} {dd da db : Fin 32} (h : Kept .command s t) : KeptOut s (execAdd h' f dd da db t) := next (syllable h)

theorem Kept.execSub {h' : SylHdr} {f : Bool} {dd da db : Fin 32} (h : Kept .command s t) : KeptOut s (execSub h' f dd da db t) := next (syllable h)

theorem Kept.execAdds {h' : SylHdr} {f : Bool} {dd da db : Fin 32} (h : Kept .command s t) : KeptOut s (execAdds h' f dd da db t) := next (syllable h)

theorem Kept.execSubs {h' : SylHdr} {f : Bool} {dd da db : Fin 32} (h : Kept .command s t) : KeptOut s (execSubs h' f dd da db t) := next (syllable h)

theorem Kept.execAnd {h' : SylHdr} {f : Bool} {dd da db : Fin 32} (h : Kept .command s t) : KeptOut s (execAnd h' f dd da db t) := next (syllable h)

theorem Kept.execOr {h' : SylHdr} {f : Bool} {dd da db : Fin 32} (h : Kept .command s t) : KeptOut s (execOr h' f dd da db t) := next (syllable h)

theorem Kept.execXor {h' : SylHdr} {f : Bool} {dd da db : Fin 32} (h : Kept .command s t) : KeptOut s (execXor h' f dd da db t) := next (syllable h)

theorem Kept.execAndn {h' : SylHdr} {f : Bool} {dd da db : Fin 32} (h : Kept .command s t) : KeptOut s (execAndn h' f dd da db t) := next (syllable h)

theorem Kept.execAsr {h' : SylHdr} {f : Bool} {dd da db : Fin 32} (h : Kept .command s t) : KeptOut s (execAsr h' f dd da db t) := next (syllable h)

theorem Kept.execLsr {h' : SylHdr} {f : Bool} {dd da db : Fin 32} (h : Kept .command s t) : KeptOut s (execLsr h' f dd da db t) := next (syllable h)

theorem Kept.execLsl {h' : SylHdr} {f : Bool} {dd da db : Fin 32} (h : Kept .command s t) : KeptOut s (execLsl h' f dd da db t) := next (syllable h)

theorem Kept.execAsri {h' : SylHdr} {f : Bool} {dd da : Fin 32} {k : BitVec 5} (h : Kept .command s t) : KeptOut s (execAsri h' f dd da k t) :=
  next (syllable h)

theorem Kept.execLsri {h' : SylHdr} {f : Bool} {dd da : Fin 32} {k : BitVec 5} (h : Kept .command s t) : KeptOut s (execLsri h' f dd da k t) :=
  next (syllable h)

theorem Kept.execLsli {h' : SylHdr} {f : Bool} {dd da : Fin 32} {k : BitVec 5} (h : Kept .command s t) : KeptOut s (execLsli h' f dd da k t) :=
  next (syllable h)

theorem Kept.execAbs {h' : SylHdr} {f : Bool} {dd da : Fin 32} (h : Kept .command s t) : KeptOut s (execAbs h' f dd da t) := next (syllable h)

theorem Kept.execNeg {h' : SylHdr} {f : Bool} {dd da : Fin 32} (h : Kept .command s t) : KeptOut s (execNeg h' f dd da t) := next (syllable h)

theorem Kept.execMin {h' : SylHdr} {f : Bool} {dd da db : Fin 32} (h : Kept .command s t) : KeptOut s (execMin h' f dd da db t) := next (syllable h)

theorem Kept.execMax {h' : SylHdr} {f : Bool} {dd da db : Fin 32} (h : Kept .command s t) : KeptOut s (execMax h' f dd da db t) := next (syllable h)

theorem Kept.execCmpeq {h' : SylHdr} {pd : Fin 8} {da db : Fin 32} {pn : Bool} (h : Kept .command s t) : KeptOut s (execCmpeq h' pd da db pn t) :=
  next (syllable h)

theorem Kept.execCmplt {h' : SylHdr} {pd : Fin 8} {da db : Fin 32} {pn : Bool} (h : Kept .command s t) : KeptOut s (execCmplt h' pd da db pn t) :=
  next (syllable h)

theorem Kept.execCmple {h' : SylHdr} {pd : Fin 8} {da db : Fin 32} {pn : Bool} (h : Kept .command s t) : KeptOut s (execCmple h' pd da db pn t) :=
  next (syllable h)

theorem Kept.execCmpltu {h' : SylHdr} {pd : Fin 8} {da db : Fin 32} {pn : Bool} (h : Kept .command s t) : KeptOut s (execCmpltu h' pd da db pn t) :=
  next (syllable h)

theorem Kept.execCmpleu {h' : SylHdr} {pd : Fin 8} {da db : Fin 32} {pn : Bool} (h : Kept .command s t) : KeptOut s (execCmpleu h' pd da db pn t) :=
  next (syllable h)

theorem Kept.execSel {h' : SylHdr} {dd da db : Fin 32} {p : Fin 8} {pn : Bool} (h : Kept .command s t) : KeptOut s (execSel h' dd da db p pn t) :=
  next (syllable h)

theorem Kept.execMovp {h' : SylHdr} {dd da : Fin 32} {p : Fin 8} {pn : Bool} (h : Kept .command s t) : KeptOut s (execMovp h' dd da p pn t) :=
  next (syllable h)

theorem Kept.execMov {h' : SylHdr} {dd da : Fin 32} (h : Kept .command s t) : KeptOut s (execMov h' dd da t) := next (syllable h)

theorem Kept.execMovi {h' : SylHdr} {dd : Fin 32} {imm : BitVec 16} (h : Kept .command s t) : KeptOut s (execMovi h' dd imm t) := next (syllable h)

theorem Kept.execMovhi {h' : SylHdr} {dd : Fin 32} {imm : BitVec 16} (h : Kept .command s t) : KeptOut s (execMovhi h' dd imm t) := next (syllable h)

theorem Kept.execMfs {h' : SylHdr} {dd : Fin 32} {r : Spr} (h : Kept .command s t) : KeptOut s (execMfs h' dd r t) := next (syllable h)

theorem Kept.execMts {h' : SylHdr} {r : Spr} {da : Fin 32} (h : Kept .command s t) : KeptOut s (execMts h' r da t) := next (syllable h)

theorem Kept.execCls {h' : SylHdr} {dd da : Fin 32} (h : Kept .command s t) : KeptOut s (execCls h' dd da t) := next (syllable h)

theorem Kept.execLci {h' : SylHdr} {i : Fin 4} {imm : BitVec 16} (h : Kept .command s t) : KeptOut s (execLci h' i imm t) := next (syllable h)

theorem Kept.execNop {h' : SylHdr} (h : Kept .command s t) : KeptOut s (execNop h' t) := next (syllable h)

theorem Kept.execBr {h' : SylHdr} {p : Fin 8} {pn : Bool} {target : BitVec 14} (h : Kept .command s t) : KeptOut s (execBr h' p pn target t) :=
  next (syllable h)

theorem Kept.execDbnz {h' : SylHdr} {rt : Bool} {i : Fin 4} {target : BitVec 14} (h : Kept .command s t) : KeptOut s (execDbnz h' rt i target t) :=
  next (syllable h)

theorem Kept.execRep {h' : SylHdr} {c : RepCount} (h : Kept .command s t) : KeptOut s (execRep h' c t) := next (syllable h)

theorem Kept.execRots {h' : SylHdr} (h : Kept .command s t) : KeptOut s (execRots h' t) := next (syllable h)

theorem Kept.execJal {h' : SylHdr} {dd : Fin 32} {target : BitVec 14} (h : Kept .command s t) : KeptOut s (execJal h' dd target t) := next (syllable h)

theorem Kept.execJmp {h' : SylHdr} {da : Fin 32} (h : Kept .command s t) : KeptOut s (execJmp h' da t) := next (syllable h)

theorem Kept.execFend {h' : SylHdr} (h : Kept .command s t) : KeptOut s (execFend h' t) := next (syllable h)

theorem Kept.execTend {h' : SylHdr} (h : Kept .command s t) : KeptOut s (execTend h' t) := next (syllable h)

theorem Kept.execEqSos {h' : SylHdr} {dd da : Fin 32} {sec : BitVec 8} (h : Kept .command s t) : KeptOut s (execEqSos h' dd da sec t) := next (syllable h)

theorem Kept.execAsrcRatio {h' : SylHdr} {dd : Fin 32} {c : Fin 512} (h : Kept .command s t) : KeptOut s (execAsrcRatio h' dd c t) := next (syllable h)

theorem Kept.execAsrcStat {h' : SylHdr} {dd : Fin 32} {c : Fin 512} (h : Kept .command s t) : KeptOut s (execAsrcStat h' dd c t) := next (syllable h)

theorem Kept.execMtrGet {h' : SylHdr} {dd da : Fin 32} {f : Fin 4} (h : Kept .command s t) : KeptOut s (execMtrGet h' dd da f t) := next (syllable h)

theorem Kept.execDlyMove {h' : SylHdr} {dd da : Fin 32} (h : Kept .command s t) : KeptOut s (execDlyMove h' dd da t) := next (syllable h)

theorem Kept.execDlyPoll {h' : SylHdr} {dd da : Fin 32} (h : Kept .command s t) : KeptOut s (execDlyPoll h' dd da t) := next (syllable h)

theorem Kept.execUndefinedSyllable {h' : SylHdr} {w : Word} (h : Kept .command s t) : KeptOut s (execUndefinedSyllable h' w t) := next (ite (syllable h) h)

theorem Kept.execMac {h' : SylHdr} {a : Fin 8} {dx dy : Fin 32} (h : Kept .command s t) : KeptOut s (execMac h' a dx dy t) := next (syllable h)

theorem Kept.execMsu {h' : SylHdr} {a : Fin 8} {dx dy : Fin 32} (h : Kept .command s t) : KeptOut s (execMsu h' a dx dy t) := next (syllable h)

theorem Kept.execMul {h' : SylHdr} {a : Fin 8} {dx dy : Fin 32} (h : Kept .command s t) : KeptOut s (execMul h' a dx dy t) := next (syllable h)

theorem Kept.execMuln {h' : SylHdr} {a : Fin 8} {dx dy : Fin 32} (h : Kept .command s t) : KeptOut s (execMuln h' a dx dy t) := next (syllable h)

theorem Kept.execClr {h' : SylHdr} {a : Fin 8} (h : Kept .command s t) : KeptOut s (execClr h' a t) := next (syllable h)

theorem Kept.execLda {h' : SylHdr} {a : Fin 8} {dx : Fin 32} (h : Kept .command s t) : KeptOut s (execLda h' a dx t) := next (syllable h)

theorem Kept.execAdda {h' : SylHdr} {a : Fin 8} {dx : Fin 32} (h : Kept .command s t) : KeptOut s (execAdda h' a dx t) := next (syllable h)

theorem Kept.execAccadd {h' : SylHdr} {a y : Fin 8} (h : Kept .command s t) : KeptOut s (execAccadd h' a y t) := next (syllable h)

theorem Kept.execAccsub {h' : SylHdr} {a y : Fin 8} (h : Kept .command s t) : KeptOut s (execAccsub h' a y t) := next (syllable h)

theorem Kept.execMova {h' : SylHdr} {dx : Fin 32} {a : Fin 8} {sh : Option (BitVec 5)} (h : Kept .command s t) : KeptOut s (execMova h' dx a sh t) :=
  next (syllable h)

theorem Kept.execRdr {h' : SylHdr} {dx : Fin 32} {a : Fin 8} {part : AccPart} (h : Kept .command s t) : KeptOut s (execRdr h' dx a part t) :=
  next (syllable h)

theorem Kept.execWrr {h' : SylHdr} {a : Fin 8} {part : AccPart} {dx : Fin 32} (h : Kept .command s t) : KeptOut s (execWrr h' a part dx t) :=
  next (syllable h)

theorem Kept.execSpiRead {a : Word} {count : BitVec 16} {crcOk : Bool} (h : Kept .command s t) : KeptOut s (execSpiRead a count crcOk t) :=
  next (spiRequest (fun _ h => ite (respond h) (respond (spiReads h))) h)

theorem Kept.execSpiWrite {a : Word} {ws : List Word} {count : BitVec 16} {crcOk : Bool} (h : Kept .command s t) :
    KeptOut s (execSpiWrite a ws count crcOk t) :=
  next (spiRequest (fun _ h => ite (respond h) (respond (spiWrites h))) h)

theorem Kept.execDelronSend {len : BitVec 16} {msg : List Byte} {crcOk : Bool} (h : Kept .command s t) : KeptOut s (execDelronSend len msg crcOk t) :=
  next (spiRequest (fun _ h => ite (respond h) (ite (respond h) (respond (raiseEvent (writeSlot h))))) h)

theorem Kept.execDelronRecv {crcOk : Bool} (h : Kept .command s t) : KeptOut s (execDelronRecv crcOk t) := by
  unfold Machine.execDelronRecv
  refine next (spiRequest (fun v hv => ?_) h)
  split
  · exact respond hv
  · exact respond (fillSlots (tabSet hv))

theorem Kept.execSpiStatus {cmd : Option Byte} (h : Kept .command s t) : KeptOut s (execSpiStatus cmd t) := by
  unfold Machine.execSpiStatus
  refine next ?_
  split
  · exact ite (respond (spiSelect h)) (spiSelect h)
  · exact ite h (ite (spiSelect h) (ite (respond (spiSelect h)) (respond (regValue (spiSelect h)))))

theorem Kept.execDoorbell {v : Word} {crcOk : Bool} (h : Kept .command s t) : KeptOut s (execDoorbell v crcOk t) :=
  next (spiRequest (fun _ h => respond (raiseEvent h)) h)

theorem Kept.execSpiTransactionAbandon {write : Option (Word × List Word)} (h : Kept .command s t) : KeptOut s (execSpiTransactionAbandon write t) := by
  unfold Machine.execSpiTransactionAbandon
  extract_lets u v
  have hu : Kept .command s u := spiSelect h
  have hv : Kept .command s v := by
    dsimp only [v]
    split
    · exact ite (spiWrites hu) hu
    · exact hu
  exact next hv.of_core

theorem Kept.execFlashRead {m : Master} (h : Kept .command s t) : KeptOut s (execFlashRead m t) := next (flashStart h)

theorem Kept.execFlashProgram {m : Master} (h : Kept .command s t) : KeptOut s (execFlashProgram m t) := next (flashStart h)

theorem Kept.execFlashErase {m : Master} (h : Kept .command s t) : KeptOut s (execFlashErase m t) := next (flashStart h)

theorem Kept.execFlashCommandComplete {deviceErr : Bool} (h : Kept .command s t) : KeptOut s (execFlashCommandComplete deviceErr t) := by
  unfold Machine.execFlashCommandComplete
  refine next ?_
  split
  · exact h
  · dsimp only
    exact ite (flashFailed (setRbit (.of_core (putRbit h)))) (flashDone (.of_core (putRbit h)))

theorem Kept.delronRequest {src : DelronSrc} {type : Nat} {msg : List Byte} {f : DelronMsg → State → State}
    (hf : ∀ m v, Kept γ s v → Kept γ s (f m v)) (h : Kept γ s t) : Kept γ s (t.delronRequest src type msg f) := by
  unfold State.delronRequest
  refine ite ?_ h
  split
  · exact delronTake h
  · exact ite (hf _ _ (delronTake h)) (ite h (nak (delronTake h)))

theorem Kept.delronReads {m : Master} {a n : Nat} (h : Kept .command s t) : Kept .command s (t.delronReads m a n).1.2 := by
  induction n generalizing t a with
  | zero => exact h
  | succ n ih => exact ih (busRead h)

theorem Kept.delronWrites {m : Master} {a : Nat} {vs : List Word} (h : Kept .command s t) : Kept .command s (t.delronWrites m a vs).1.2 := by
  induction vs generalizing t a with
  | nil => exact h
  | cons v vs ih => exact ite_mid (ih (busWrite h)) h

theorem Kept.sceneWords {mode : Nat} {ns : Word} {sec : BitVec 48} (h : Kept γ s t) : Kept γ s (t.sceneWords mode ns sec).2 := by
  unfold State.sceneWords
  split
  · exact h
  · exact drawMany h
  · exact h

theorem Kept.partnerUpdate {p : Nat} {x : Path} {b : Announce} {paths : Nat} (h : Kept γ s t) : Kept γ s (t.partnerUpdate p x b paths) := by
  have flows (v : State) (hv : Kept γ s v) : Kept γ s { v with partnerFlows := mapIns (mapDel v.partnerFlows p) p b.flows } := hv.of_core
  exact flows _ (partnerSet (foldl (fun _ _ h => partnerSet h) h))

theorem Kept.announced {x : Path} {b : Announce} (h : Kept γ s t) : Kept γ s (t.announced x b) := by
  unfold State.announced
  split
  · exact connect (partnerUpdate h)
  · split
    · exact connect (partnerUpdate h)
    · exact h.of_core

theorem Kept.partnerGone {p : Nat} (h : Kept γ s t) : Kept γ s (t.partnerGone p) := connect (.of_core (partnerSet h))

theorem Kept.overrunValues (h : Kept γ s t) : Kept γ s t.overrunValues := by
  have mixed (v : State) (k : Nat) (b f : List Word) (hv : Kept γ s v) :
      Kept γ s { v with bus := wmSetMany v.bus k b, mixFeeds := wmSetMany [] 0 f } := hv.of_core
  exact mixed _ _ _ _ (drawMany (drawMany h))

theorem Kept.presented (h : Kept γ s t) : Kept γ s t.presented :=
  ite (ite h (txFlowsTick h)) (foldl (fun _ _ h => txPresent h) (ite h (txFlowsTick h)))

theorem Kept.fixedLate (h : Kept γ s t) : Kept γ s t.fixedLate.2 := ite_snd (draw h) h

theorem Kept.chainsOpen (h : Kept γ s t) : Kept γ s t.chainsOpen := by
  have opened (v : State) (m : List Word) (hv : Kept γ s v) : Kept γ s { v with chainOut := wmSetMany [] 0 m } := hv.of_core
  exact opened _ _ (drawMany h)

theorem Kept.metersOpen (h : Kept γ s t) : Kept γ s t.metersOpen := by
  have upd (v : State) (m : List (Nat × Meter)) (hv : Kept γ s v) : Kept γ s { v with meters := m } := hv.of_core
  unfold State.metersOpen
  exact foldl (fun _ _ h => upd _ _ (drawMany h)) h

theorem Kept.fixedWork (h : Kept γ s t) : Kept γ s t.fixedWork := ite (ite h.of_core (eqWork h)) (meterWork (ite h.of_core (eqWork h)))

theorem Kept.flowReads (h : Kept γ s t) : Kept γ s t.flowReads := memMay h

theorem Kept.captureFrames (h : Kept γ s t) : Kept γ s t.captureFrames := by
  unfold State.captureFrames
  extract_lets s1 s2 s3
  have h1 : Kept γ s s1 := ite h (foldl (fun _ _ h => rxCapture h) h)
  have h2 : Kept γ s s2 := ite h1 (rxFlowsTick (flowReads h1))
  clear_value s2
  have h3 : Kept γ s s3 := ite h2.of_core (asrcTick h2)
  clear_value s3
  exact h3.of_core

theorem Kept.levelTick (h : Kept γ s t) : Kept γ s t.levelTick := ite h (foldl (@rxLevel γ s) (foldl (@portTick γ s) h))

theorem Kept.outputHash (h : Kept γ s t) : Kept γ s t.outputHash.2 := ite_snd (draw h) h

theorem Kept.stateDigest (h : Kept γ s t) : Kept γ s t.stateDigest.2 := ite_snd (draw h) h

theorem Kept.hashTick (h : Kept γ s t) : Kept γ s t.hashTick := ite (.of_core (outputHash h)) h

theorem Kept.digestTick (h : Kept γ s t) : Kept γ s t.digestTick := ite (.of_core (stateDigest h)) h

theorem Kept.endFrame (h : Kept γ s t) : Kept γ s t.endFrame :=
  levelTick (digestTick (captureFrames (fixedWork (hashTick (presented (ite (overrunValues h) h))))))

theorem Kept.lateWork {late : Bool × Bool} (h : Kept γ s t) : Kept γ s (t.lateWork late) :=
  have h1 := ite (chainsOpen h) h
  ite (metersOpen h1) h1

theorem Kept.coursesTick {k : Nat} (h : Kept γ s t) : Kept γ s (t.coursesTick k) := foldl (fun _ _ h => ite (courseSleepTick h) (courseTick h)) h

theorem Kept.ownTick (h : Kept γ s t) : Kept γ s t.ownTick := genPins h.of_core

theorem Kept.beginFrame (h : Kept γ s t) : Kept γ s t.beginFrame := muteTick (faultTick (coursesTick (ownTick (pairTick (timeTick h)))))

theorem Kept.execDelronRead {src : DelronSrc} {head body crc : List Byte} (h : Kept .command s t) : KeptOut s (execDelronRead src head body crc t) :=
  next (delronRequest (fun _ _ h => ite (nak h) (reply (delronReads (delronMaster h)))) h)

theorem Kept.execDelronWrite {src : DelronSrc} {head body crc : List Byte} (h : Kept .command s t) : KeptOut s (execDelronWrite src head body crc t) :=
  next (delronRequest (fun _ _ h => ite (nak h) (ite (nak h) (ite (reply (delronWrites (delronMaster h))) (delronWrites (delronMaster h))))) h)

theorem Kept.execDelronPeg {src : DelronSrc} {covered crc : List Byte} (h : Kept .command s t) : KeptOut s (execDelronPeg src covered crc t) :=
  next (delronRequest (fun _ _ h => ite (nak h) (ite (nak h) (ite (nak h) (ite (nak h)
    (reply (foldl (fun _ _ h => pegData h) (pegHeader (delronMaster h)))))))) h)

theorem Kept.execDelronSceneCommit {src : DelronSrc} {head scene mode ns sec crc : List Byte} (h : Kept .command s t) :
    KeptOut s (execDelronSceneCommit src head scene mode ns sec crc t) :=
  next (delronRequest (fun _ _ h => ite (nak h) (ite (nak h) (ite (nak h) (ite (nak (sceneWords h))
    (joinQueue (pegClose (delronMaster (sceneWords h)))))))) h)

theorem Kept.execDelronStatusReq {src : DelronSrc} {msg : List Byte} (h : Kept .command s t) : KeptOut s (execDelronStatusReq src msg t) :=
  next (delronRequest (fun _ _ h => ite (nak h) (reply (regValue h))) h)

theorem Kept.execDelronAnnounce {x : Path} {msg : List Byte} (h : Kept .command s t) : KeptOut s (execDelronAnnounce x msg t) := by
  unfold Machine.execDelronAnnounce
  refine next (ite h ?_)
  split
  · exact h
  · split
    · exact h
    · exact announced h

theorem Kept.execDelronLeave {msg : DelronSrc × List Byte} (h : Kept .command s t) : KeptOut s (execDelronLeave msg t) := by
  unfold Machine.execDelronLeave
  refine next (delronRequest (fun m v hv => ?_) h)
  split
  · exact sendLeave hv
  · split
    · exact partnerGone hv
    · exact hv

theorem Kept.execPartnerTimeout {p : Fin 512} (h : Kept .command s t) : KeptOut s (execPartnerTimeout p t) := next (ite (partnerGone h) h)

theorem Kept.execAnnounceSend (h : Kept .command s t) : KeptOut s (execAnnounceSend t) := next (ite (.of_core (draw h)) h)

theorem Kept.execFrameTick (h : Kept .command s t) : KeptOut s (execFrameTick t) := by
  unfold Machine.execFrameTick
  extract_lets _ s0 late s1 s2
  have h0 : Kept .command s s0 := (snapDone h).of_core
  clear_value s0
  have h1 : Kept .command s s1 := lateWork (endFrame (fixedLate h0))
  clear_value s1
  have h2 : Kept .command s s2 := beginFrame (restart h1.of_core)
  exact next (ite (snapTick (ite (faultOccurs h2) h2)) h)

/-! ## Every command -/

theorem Kept.exec {c : Instr} (h : Kept .command s t) : KeptOut s (exec c t) :=
  match c with
  | .registerWrite .. => execRegisterWrite h
  | .rcFieldRead .. => execRcFieldRead h
  | .globalFcLoRead .. => execGlobalFcLoRead h
  | .pairFcoffLoRead .. => execPairFcoffLoRead h
  | .frameTick => execFrameTick h
  | .matrixWorkStart => execMatrixWorkStart h
  | .foregroundStart .. => execForegroundStart h
  | .foregroundWorkComplete .. => execForegroundWorkComplete h
  | .slackMiss .. => execSlackMiss h
  | .backlogLimit .. => execBacklogLimit h
  | .sreset m .. => execSreset (m := m) h
  | .courseResetReloadComplete .. => execCourseResetReloadComplete h
  | .halt m .. => execHalt (m := m) h
  | .courseHalted .. => execCourseHalted h
  | .courseHaltedRegisterWrite m .. => execCourseHaltedRegisterWrite (m := m) h
  | .courseMemoryWindowWrite .. => execCourseMemoryWindowWrite h
  | .ridgeReadReturn .. => execRidgeReadReturn h
  | .postedWriteAccept .. => execPostedWriteAccept h
  | .ridgeAccessGrant .. => execRidgeAccessGrant h
  | .mac .. => execMac h
  | .msu .. => execMsu h
  | .mul .. => execMul h
  | .muln .. => execMuln h
  | .clr .. => execClr h
  | .lda .. => execLda h
  | .adda .. => execAdda h
  | .accadd .. => execAccadd h
  | .accsub .. => execAccsub h
  | .mova .. => execMova h
  | .rdr .. => execRdr h
  | .wrr .. => execWrr h
  | .ld .. => execLd h
  | .st .. => execSt h
  | .modp .. => execModp h
  | .mva .. => execMva h
  | .setlo .. => execSetlo h
  | .sethi .. => execSethi h
  | .inp .. => execInp h
  | .out .. => execOut h
  | .add .. => execAdd h
  | .sub .. => execSub h
  | .adds .. => execAdds h
  | .subs .. => execSubs h
  | .and .. => execAnd h
  | .or .. => execOr h
  | .xor .. => execXor h
  | .andn .. => execAndn h
  | .asr .. => execAsr h
  | .lsr .. => execLsr h
  | .lsl .. => execLsl h
  | .asri .. => execAsri h
  | .lsri .. => execLsri h
  | .lsli .. => execLsli h
  | .abs .. => execAbs h
  | .neg .. => execNeg h
  | .min .. => execMin h
  | .max .. => execMax h
  | .cmpeq .. => execCmpeq h
  | .cmplt .. => execCmplt h
  | .cmple .. => execCmple h
  | .cmpltu .. => execCmpltu h
  | .cmpleu .. => execCmpleu h
  | .sel .. => execSel h
  | .movp .. => execMovp h
  | .mov .. => execMov h
  | .movi .. => execMovi h
  | .movhi .. => execMovhi h
  | .mfs .. => execMfs h
  | .mts .. => execMts h
  | .cls .. => execCls h
  | .lci .. => execLci h
  | .nop .. => execNop h
  | .br .. => execBr h
  | .dbnz .. => execDbnz h
  | .rep .. => execRep h
  | .rots .. => execRots h
  | .jal .. => execJal h
  | .jmp .. => execJmp h
  | .fend .. => execFend h
  | .tend .. => execTend h
  | .eqSos .. => execEqSos h
  | .asrcRatio .. => execAsrcRatio h
  | .asrcStat .. => execAsrcStat h
  | .mtrGet .. => execMtrGet h
  | .dlyMove .. => execDlyMove h
  | .dlyPoll .. => execDlyPoll h
  | .undefinedSyllable .. => execUndefinedSyllable h
  | .delayMoveComplete .. => execDelayMoveComplete h
  | .delayMoveAbort .. => execDelayMoveAbort h
  | .scrOwnWrite .. => execScrOwnWrite h
  | .handoverComplete .. => execHandoverComplete h
  | .delayTableWrite m .. => execDelayTableWrite (m := m) h
  | .dlyDeclWrite m .. => execDlyDeclWrite (m := m) h
  | .tapPrefetch .. => execTapPrefetch h
  | .delayBlockWrite .. => execDelayBlockWrite h
  | .tapCrossfadeEnd .. => execTapCrossfadeEnd h
  | .lengthFold .. => execLengthFold h
  | .waitingChangeStart .. => execWaitingChangeStart h
  | .ridgeSlowWrite m .. => execRidgeSlowWrite (m := m) h
  | .ridgeSliceSwitch => execRidgeSliceSwitch h
  | .bootOnlyWordWrite m a v => execBootOnlyWordWrite (m := m) (a := a) (v := v) h
  | .shadowedWordDirectWrite m a v => execShadowedWordDirectWrite (m := m) (a := a) (v := v) h
  | .memberRetire .. => execMemberRetire h
  | .selectorCrossfadeEnd .. => execSelectorCrossfadeEnd h
  | .sectionCrossfadeEnd .. => execSectionCrossfadeEnd h
  | .eqSatRecord => execEqSatRecord h
  | .meterReadingWord0Read .. => execMeterReadingWord0Read h
  | .pegQhdrWrite .. => execPegQhdrWrite h
  | .pegQdataWrite .. => execPegQdataWrite h
  | .pegWrite => execPegWrite h
  | .pegCommit => execPegCommit h
  | .pegScene => execPegScene h
  | .sceneResolve => execSceneResolve h
  | .pegRevert => execPegRevert h
  | .pegMark => execPegMark h
  | .commitCopyFix => execCommitCopyFix h
  | .commitApplied => execCommitApplied h
  | .pegCancelWrite m .. => execPegCancelWrite (m := m) h
  | .pegLogWord0Read .. => execPegLogWord0Read h
  | .softwareEventWrite m .. => execSoftwareEventWrite (m := m) h
  | .tokenOffer => execTokenOffer h
  | .frameDividerTick => execFrameDividerTick h
  | .dispatch => execDispatch h
  | .taskEnd .. => execTaskEnd h
  | .taskOvertime .. => execTaskOvertime h
  | .purge m .. => execPurge (m := m) h
  | .evtPendClear m .. => execEvtPendClear (m := m) h
  | .tdmFrameEnd .. => execTdmFrameEnd h
  | .captureDeadline .. => execCaptureDeadline h
  | .tdmFrameStart .. => execTdmFrameStart h
  | .resyncSlip .. => execResyncSlip h
  | .portClockLoss .. => execPortClockLoss h
  | .portQualified .. => execPortQualified h
  | .portRateChange .. => execPortRateChange h
  | .tdmCfgWrite m .. => execTdmCfgWrite (m := m) h
  | .masterPortRestart .. => execMasterPortRestart h
  | .aesFrameReceive .. => execAesFrameReceive h
  | .nonAudioClear .. => execNonAudioClear h
  | .channelStatusBlock .. => execChannelStatusBlock h
  | .aesReceiverQualified .. => execAesReceiverQualified h
  | .aesReceiverLost .. => execAesReceiverLost h
  | .aesFrameTransmit .. => execAesFrameTransmit h
  | .asrcLock .. => execAsrcLock h
  | .asrcUnlock .. => execAsrcUnlock h
  | .pathModeWrite m .. => execPathModeWrite (m := m) h
  | .linkChange .. => execLinkChange h
  | .frameReceive .. => execFrameReceive h
  | .mergeWindowExpiry .. => execMergeWindowExpiry h
  | .flowFadeEnd .. => execFlowFadeEnd h
  | .streamPacketLaunch .. => execStreamPacketLaunch h
  | .txDescriptorProcess .. => execTxDescriptorProcess h
  | .txLaunchTime .. => execTxLaunchTime h
  | .ringTailWrite m .. => execRingTailWrite (m := m) h
  | .ringCfgWrite m .. => execRingCfgWrite (m := m) h
  | .classifierRuleWrite m .. => execClassifierRuleWrite (m := m) h
  | .delronAnnounce .. => execDelronAnnounce h
  | .delronLeave .. => execDelronLeave h
  | .delronRead .. => execDelronRead h
  | .delronWrite .. => execDelronWrite h
  | .delronPeg .. => execDelronPeg h
  | .delronSceneCommit .. => execDelronSceneCommit h
  | .delronStatusReq .. => execDelronStatusReq h
  | .announceSend => execAnnounceSend h
  | .partnerTimeout .. => execPartnerTimeout h
  | .partnerTableWrite m .. => execPartnerTableWrite (m := m) h
  | .tbCmdStep .. => execTbCmdStep h
  | .tbCmdQualify .. => execTbCmdQualify h
  | .tbCmdLose .. => execTbCmdLose h
  | .tbCmdArm .. => execTbCmdArm h
  | .tbCmdGrandmaster .. => execTbCmdGrandmaster h
  | .rateWatchdogTrip .. => execRateWatchdogTrip h
  | .tbRateWrite m .. => execTbRateWrite (m := m) h
  | .tbCfgWrite m .. => execTbCfgWrite (m := m) h
  | .tbNsRead .. => execTbNsRead h
  | .tbAncNsRead .. => execTbAncNsRead h
  | .anchorEstablish .. => execAnchorEstablish h
  | .alarmCtrlWrite m .. => execAlarmCtrlWrite (m := m) h
  | .alarmFire .. => execAlarmFire h
  | .captureEdge .. => execCaptureEdge h
  | .capnsRead .. => execCapnsRead h
  | .slotCfgWrite m .. => execSlotCfgWrite (m := m) h
  | .sourcePresent .. => execSourcePresent h
  | .qualificationTimerExpiry .. => execQualificationTimerExpiry h
  | .wtrExpiry .. => execWtrExpiry h
  | .slotLost .. => execSlotLost h
  | .phaseGlitch .. => execPhaseGlitch h
  | .lockAchieved .. => execLockAchieved h
  | .lockLost .. => execLockLost h
  | .refFault => execRefFault h
  | .refFaultClear => execRefFaultClear h
  | .refCtrlWrite m .. => execRefCtrlWrite (m := m) h
  | .refFreeWrite m .. => execRefFreeWrite (m := m) h
  | .selectorSecond .. => execSelectorSecond h
  | .realign m .. => execRealign (m := m) h
  | .generatorAlign .. => execGeneratorAlign h
  | .powerGood .. => execPowerGood h
  | .powerOnResetRelease .. => execPowerOnResetRelease h
  | .earlyHeaderRead => execEarlyHeaderRead h
  | .xoQualified => execXoQualified h
  | .xoWaitTimeout => execXoWaitTimeout h
  | .pllLock => execPllLock h
  | .pllStartTimeout => execPllStartTimeout h
  | .muxEscape => execMuxEscape h
  | .xoLoss => execXoLoss h
  | .cpllLoss => execCpllLoss h
  | .apllLoss => execApllLoss h
  | .dramPllLoss => execDramPllLoss h
  | .clkDivWrite m .. => execClkDivWrite (m := m) h
  | .dividerChange => execDividerChange h
  | .sscWrite m .. => execSscWrite (m := m) h
  | .modeReqWrite m .. => execModeReqWrite (m := m) h
  | .maintWrite m .. => execMaintWrite (m := m) h
  | .sleepEntry => execSleepEntry h
  | .deepEntry => execDeepEntry h
  | .wake .. => execWake h
  | .lpoTimerExpiry => execLpoTimerExpiry h
  | .brownOut .. => execBrownOut h
  | .holdupCapture => execHoldupCapture h
  | .holdupStoreDone => execHoldupStoreDone h
  | .bulkRecover .. => execBulkRecover h
  | .railsFall => execRailsFall h
  | .trainLineInputChange .. => execTrainLineInputChange h
  | .trainLineOutputWrite m .. => execTrainLineOutputWrite (m := m) h
  | .trainLineOvercurrent .. => execTrainLineOvercurrent h
  | .pass1Complete .. => execPass1Complete h
  | .verifyComplete => execVerifyComplete h
  | .pass2Complete .. => execPass2Complete h
  | .blockResetComplete => execBlockResetComplete h
  | .checksComplete => execChecksComplete h
  | .otpBurn m .. => execOtpBurn (m := m) h
  | .otpBurnComplete => execOtpBurnComplete h
  | .globalResetWrite m .. => execGlobalResetWrite (m := m) h
  | .resetPin => execResetPin h
  | .rstOutRise => execRstOutRise h
  | .spiRead .. => execSpiRead h
  | .spiWrite .. => execSpiWrite h
  | .delronSend .. => execDelronSend h
  | .delronRecv .. => execDelronRecv h
  | .spiStatus .. => execSpiStatus h
  | .doorbell .. => execDoorbell h
  | .spiTransactionAbandon .. => execSpiTransactionAbandon h
  | .flashRead m .. => execFlashRead (m := m) h
  | .flashProgram m .. => execFlashProgram (m := m) h
  | .flashErase m .. => execFlashErase (m := m) h
  | .flashCommandComplete .. => execFlashCommandComplete h
  | .battenSample .. => execBattenSample h
  | .battenRelease => execBattenRelease h
  | .heartbeatSend => execHeartbeatSend h
  | .heartbeatReceive .. => execHeartbeatReceive h
  | .heartbeatLoss => execHeartbeatLoss h
  | .mirrorReady => execMirrorReady h
  | .syncRecord => execSyncRecord h
  | .sceneDirectoryReceive .. => execSceneDirectoryReceive h
  | .forwardedEntryReceive .. => execForwardedEntryReceive h
  | .resolutionRecordReceive .. => execResolutionRecordReceive h
  | .epochStart => execEpochStart h
  | .epochDataReceive .. => execEpochDataReceive h
  | .epochCommitMarker .. => execEpochCommitMarker h
  | .pairRelease m .. => execPairRelease (m := m) h
  | .forceRelease m .. => execForceRelease (m := m) h
  | .estart m .. => execEstart (m := m) h
  | .resync m .. => execResync (m := m) h
  | .faultLatchClear m .. => execFaultLatchClear (m := m) h
  | .firstFaultAck m .. => execFirstFaultAck (m := m) h
  | .ffr0Read .. => execFfr0Read h
  | .injectionArm m .. => execInjectionArm (m := m) h
  | .trig m .. => execTrig (m := m) h
  | .snapInEdge .. => execSnapInEdge h
  | .snapshotTake => execSnapshotTake h
  | .scrubPassComplete .. => execScrubPassComplete h
  | .macCheckComplete .. => execMacCheckComplete h
  | .testRequest m .. => execTestRequest (m := m) h
  | .testAbort m .. => execTestAbort (m := m) h
  | .testComplete .. => execTestComplete h
  | .apllRelock => execApllRelock h
  | .dramTrainingComplete .. => execDramTrainingComplete h
  | .sceneBodyReceive .. => execSceneBodyReceive h
  | .forwardedCancelReceive .. => execForwardedCancelReceive h
  | .currentLimitShutdown .. => execCurrentLimitShutdown h

theorem exec_keeps {c : Instr} (h : exec c s = .next t) : Kept .command s t := by
  obtain ⟨v, hv, hk⟩ := (Kept.refl s).exec (c := c)
  obtain rfl : v = t := by simpa using hv.symm.trans h
  exact hk

theorem Kept.pop {cs : List Instr} (h : Kept .command { s with pending := cs } t) : (Canon s → Canon t) ∧ (FuseForm s → FuseForm t) ∧
    (s.fuseLock = true → t.fuseLock = true) ∧ (FuseForm s → s.unfused = false → t.fuseKey = s.fuseKey) :=
  ⟨h.canon, h.fuses, h.lock, h.key⟩

theorem step_keeps (h : step s = .next t) : (Canon s → Canon t) ∧ (FuseForm s → FuseForm t) ∧
    (s.fuseLock = true → t.fuseLock = true) ∧ (FuseForm s → s.unfused = false → t.fuseKey = s.fuseKey) := by
  unfold step at h
  split at h
  · obtain rfl : s = t := by simpa using h
    exact ⟨id, id, id, fun _ _ => rfl⟩
  · exact (exec_keeps h).pop

/-- Settles O1: the step unfolded on a queue with a front command and on an empty one. -/
theorem stepRunsFront : Obligations.StepRunsFront := by
  unfold Obligations.StepRunsFront
  refine ⟨fun c s => rfl, fun c cs s h => ?_, fun s h => ?_⟩
  · simp only [step, h]
  · simp only [step, h]

/-- Settles O2: each command answers a next state, the existence part of `KeptOut`. -/
theorem everyCommandAnswers : Obligations.EveryCommandAnswers := by
  unfold Obligations.EveryCommandAnswers
  intro c s
  obtain ⟨t, ht, -⟩ := (Kept.refl s).exec (c := c)
  exact ⟨t, ht⟩

/-- Settles O3: the queue is one part of what every command keeps. -/
theorem queueKept : Obligations.QueueKept := by
  unfold Obligations.QueueKept
  exact fun c s t h => (exec_keeps h).pending

/-- Settles O4: the canonical forms are one part of what every step keeps. -/
theorem memoryFormKept : Obligations.MemoryFormKept := by
  unfold Obligations.MemoryFormKept
  exact fun s t hs h => (step_keeps h).1 hs

/-- Settles O5: the fuses are one part of what every step keeps. -/
theorem fusesOnlyBurn : Obligations.FusesOnlyBurn := by
  unfold Obligations.FusesOnlyBurn
  intro s t hs h
  obtain ⟨-, hf, hl, hk⟩ := step_keeps h
  exact ⟨hf hs, hl, hk hs⟩

/-- The frames of a crossfade are 256 at reset for each of the 32 groups (R191). -/
theorem reset_tabGet_fade {g : Nat} (hg : g < 32) : State.reset.tabGet (0x50100 + 4 * g) = 0x100#32 := by
  have h : 0x50100 ≤ 0x50100 + 4 * g ∧ 0x50100 + 4 * g < 0x50180 := by omega
  show tabDefault (0x50100 + 4 * g) = 0x100#32
  rw [tabDefault, if_pos h]

/-- Settles O6: the reset state lists nothing in its registers, tables and memories, so that each is at its default. -/
theorem resetState : Obligations.ResetState := by
  unfold Obligations.ResetState
  exact ⟨Kept.canon_bare, ⟨rfl, fun _ _ _ e => nomatch e⟩, rfl, rfl, rfl, rfl, rfl, rfl, rfl, fun _ => rfl, by decide, fun _ => rfl,
    fun _ hg => reset_tabGet_fade hg, by decide, by decide⟩

end Sys2Proof.Machine
end

section
/-! What a data operation that issues alone does (R60 to R67, R87 to R94): its results start their flight and the next bundle follows. -/

namespace Sys2Proof.Machine

-- One theorem after another, so that the compile of the whole text stays within its memory.
set_option Elab.async false

/-- An operation of a unit that reaches neither memory nor a coprocessor, uses no address channel and does not touch the sequence of bundles. -/
structure DataOp (h : SylHdr) (u : SylUnit) (op : Instr) : Prop where
  defined : Syl.undefinedIn { op := op, unit := u, bad := false, rsv := false } h.x = false
  noRead : ∀ c am, sylRead c am op = none
  noStore : ∀ c am, sylStore c am op = none
  noExtension : ∀ (t : State) n x c, t.extension n x c op = none
  noMode : ∀ t : State, t.modeError h.n h.x [op] = t
  noTransfer : ∀ c, transfer c op = none
  noRepeat : ∀ c, repCount c op = none
  goesOn : endsWork op = false

/-- A data operation issues alone with the results `fl`. -/
theorem exec_data_solo {s : State} {h : SylHdr} {u : SylUnit} {op : Instr} {fl : List Flight} (hs : Solo s h)
    (he : exec op s = .next (s.syllable h u false op)) (hf : s.soloFlights h op = fl)
    (hd : DataOp h u op := by
      exact ⟨rfl, fun _ _ => rfl, fun _ _ => rfl, fun _ _ _ _ => rfl, fun _ => rfl, fun _ => rfl, fun _ => rfl, rfl⟩) :
    exec op s = .next (s.issued h fl) := by
  rw [he, ← hf, State.soloFlights,
    State.syllable_data s h u op hs hd.defined hd.noRead hd.noStore hd.noExtension hd.noMode hd.noTransfer hd.noRepeat hd.goesOn]

/-! ## The MAC class -/

/-- An accumulating operation: the wrapped result, and AV where the exact one leaves the range (R60). -/
theorem flights_effAccumulate (a : Fin 8) (x : Int) :
    flights (effAccumulate a x) = toAcc a (BitVec.ofInt 80 x) ++ if x < -(2 ^ 79) ∨ 2 ^ 79 - 1 < x then [stickyFlag flagAV] else [] := by
  unfold effAccumulate accOver
  by_cases h : x < -(2 ^ 79) ∨ 2 ^ 79 - 1 < x
  · rw [if_pos h, if_pos (by simpa using h)]; rfl
  · rw [if_neg h, if_neg (by simpa using h)]; rfl

/-- MOVA: the converted value, and SV where it saturates (R61). -/
theorem flights_effMova (c : Ctx) (dx : Fin 32) (a : Fin 8) (sh : Option (BitVec 5)) :
    flights (effMova c dx a sh) = toD c 2 dx (convAcc (c.accOut.get a) ((sh.map shiftOf).getD c.modeShift)).1 ::
      if (convAcc (c.accOut.get a) ((sh.map shiftOf).getD c.modeShift)).2 then [stickyFlag flagSV] else [] := by
  unfold effMova
  obtain ⟨v, b⟩ := convAcc (c.accOut.get a) ((sh.map shiftOf).getD c.modeShift)
  cases b <;> rfl

/-- Settles O7: each MAC operation as a data operation that issues alone; only the accumulating ones and MOVA have a flag to decide. -/
theorem macClassResults : Obligations.MacClassResults := by
  unfold Obligations.MacClassResults
  intro s h hs c av sv
  refine ⟨fun a dx dy => ?_, fun a dx dy => ?_, fun a dx dy => ?_, fun a dx dy => ?_, fun a => ?_, fun a dx => ?_, fun a dx => ?_,
    fun a y => ?_, fun a y => ?_, fun dx a sh => ?_, fun dx a => ?_, fun dx a => ?_, fun dx a => ?_, fun dx a => ?_,
    fun a dx => ?_, fun a dx => ?_, fun a dx => ?_⟩
  case refine_1 => exact exec_data_solo hs rfl (flights_effAccumulate a _)
  case refine_2 => exact exec_data_solo hs rfl (flights_effAccumulate a _)
  case refine_7 => exact exec_data_solo hs rfl (flights_effAccumulate a _)
  case refine_8 => exact exec_data_solo hs rfl (flights_effAccumulate a _)
  case refine_9 => exact exec_data_solo hs rfl (flights_effAccumulate a _)
  case refine_10 => exact exec_data_solo hs rfl (flights_effMova c dx a (some sh))
  case refine_11 => exact exec_data_solo hs rfl (flights_effMova c dx a none)
  all_goals exact exec_data_solo hs rfl rfl

/-! ## Arithmetic, logic and shifts -/

/-- An ALU result, and the flags that follow it where F = 1 (R94). -/
theorem flights_effAlu (c : Ctx) (f : Bool) (dd : Fin 32) (r : AluOut) :
    flights (effAlu c f dd r) = toD c 1 dd r.d :: if f then [{ left := 1, w := .reg .flags flagNZCV (nzcv r) }] else [] := by
  cases f <;> rfl

/-- Saturation as the nearest value of the signed range (R8). -/
theorem sat32_eq (x : Int) : sat32 x = max (-(2 ^ 31)) (min (2 ^ 31 - 1) x) := by
  unfold sat32
  split
  · omega
  · split <;> omega

theorem toInt_ofInt_sat32 (x : Int) : (ofInt (sat32 x)).toInt = sat32 x := by
  have h : -(2 ^ 31) ≤ sat32 x ∧ sat32 x < 2 ^ 31 := by rw [sat32_eq]; omega
  exact BitVec.toInt_ofInt_eq_self (by decide) h.1 h.2

/-- Saturation changes a value exactly where it lies outside the signed range. -/
theorem sat32_ne_iff (x : Int) : sat32 x ≠ x ↔ x < -(2 ^ 31) ∨ 2 ^ 31 ≤ x := by
  rw [sat32_eq]
  omega

/-- The most negative number is the one whose signed value is it (R93). -/
theorem eq_minWord_iff (a : Word) : a = 0x80000000#32 ↔ a.toInt = -(2 ^ 31) :=
  ⟨fun h => h ▸ rfl, fun h => BitVec.eq_of_toInt_eq h⟩

section
variable (a b : Word)

theorem aluAdd_v_iff : (aluAdd a b).v = true ↔ a.toInt + b.toInt < -(2 ^ 31) ∨ 2 ^ 31 ≤ a.toInt + b.toInt := by
  rw [← sat32_ne_iff, aluAdd, decide_eq_true_iff]

theorem aluSub_v_iff : (aluSub a b).v = true ↔ a.toInt - b.toInt < -(2 ^ 31) ∨ 2 ^ 31 ≤ a.toInt - b.toInt := by
  rw [← sat32_ne_iff, aluSub, decide_eq_true_iff]

theorem aluAdds_toInt : (aluAdds a b).d.toInt = max (-(2 ^ 31)) (min (2 ^ 31 - 1) (a.toInt + b.toInt)) := by
  rw [aluAdds, toInt_ofInt_sat32, sat32_eq]

theorem aluSubs_toInt : (aluSubs a b).d.toInt = max (-(2 ^ 31)) (min (2 ^ 31 - 1) (a.toInt - b.toInt)) := by
  rw [aluSubs, toInt_ofInt_sat32, sat32_eq]

theorem aluAbs_toInt : (aluAbs a).d.toInt = min (2 ^ 31 - 1) |a.toInt| := by
  rw [aluAbs, toInt_ofInt_sat32, sat32_eq, Int.natCast_natAbs]
  have := abs_nonneg a.toInt
  omega

theorem aluNeg_toInt : (aluNeg a).d.toInt = min (2 ^ 31 - 1) (-a.toInt) := by
  rw [aluNeg, toInt_ofInt_sat32, sat32_eq]
  have := BitVec.toInt_lt (x := a)
  omega

end

/-- Settles O8: each ALU operation as a data operation that issues alone, and its results as numbers. -/
theorem aluClassResults : Obligations.AluClassResults := by
  unfold Obligations.AluClassResults
  refine ⟨?_, fun a b => ⟨rfl, ?_, aluAdd_v_iff a b⟩, fun a b => ⟨rfl, ?_, aluSub_v_iff a b⟩,
    fun a b => ⟨aluAdds_toInt a b, rfl, rfl⟩, fun a b => ⟨aluSubs_toInt a b, rfl, rfl⟩, fun a => ⟨aluAbs_toInt a, rfl, ?_⟩,
    fun a => ⟨aluNeg_toInt a, rfl, ?_⟩⟩
  case refine_1 =>
    intro s h f dd da db k hs c a b n res
    refine ⟨?_, ?_, ?_, ?_, ?_, ?_, ?_, ?_, ?_, ?_, ?_, ?_, ?_, ?_, ?_, ?_, ?_, ?_⟩
    all_goals exact exec_data_solo hs rfl (flights_effAlu c f dd _)
  case refine_2 => exact decide_eq_true_iff
  case refine_3 => exact decide_eq_true_iff
  case refine_4 => rw [← eq_minWord_iff]; exact decide_eq_true_iff
  case refine_5 => rw [← eq_minWord_iff]; exact decide_eq_true_iff

end Sys2Proof.Machine
end

section
/-! Compares, selections and moves (R63, R93, R94), and what the arrival of a result does to the registers of a context (R43, R66). -/

namespace Sys2Proof.Machine

-- One theorem after another, so that the compile of the whole text stays within its memory.
set_option Elab.async false

theorem flights_effMovp (c : Ctx) (dd da : Fin 32) (p : Fin 8) (pn : Bool) :
    flights (effMovp c dd da p pn) = if c.pred p pn then [toD c 1 dd (c.dget da)] else [] := by
  unfold effMovp
  cases c.pred p pn <;> rfl

/-! ## The write of a register -/

section
variable {α : Type} {n : Nat} (v : Vector α n) (i : Fin n) (w : α)

theorem vectorGet_set_self : (v.set i.val w i.isLt).get i = w := by
  show (v.set i.val w i.isLt)[i.val] = w
  exact Vector.getElem_set_self i.isLt

theorem vectorGet_set_ne {j : Fin n} (h : j ≠ i) : (v.set i.val w i.isLt).get j = v.get j := by
  show (v.set i.val w i.isLt)[j.val] = v[j.val]
  exact Vector.getElem_set_ne i.isLt j.isLt fun e => h (Fin.ext e.symm)

end

section
variable (c : Ctx) (m v : Word)

@[simp] theorem Ctx.get_put_self (r : CReg) : (c.put r m v).get r = merge (c.get r) (m &&& r.mask) v := by
  cases r with
  | rot => rfl
  | mode => rfl
  | flags => rfl
  | _ => exact vectorGet_set_self ..

theorem Ctx.get_put_ne {r q : CReg} (h : q ≠ r) : (c.put r m v).get q = c.get q := by
  cases r with
  | d k => cases q with
    | d j => exact vectorGet_set_ne _ _ _ fun e => h (e ▸ rfl)
    | _ => rfl
  | p i => cases q with
    | p j => exact vectorGet_set_ne _ _ _ fun e => h (e ▸ rfl)
    | _ => rfl
  | n i => cases q with
    | n j => exact vectorGet_set_ne _ _ _ fun e => h (e ▸ rfl)
    | _ => rfl
  | l i => cases q with
    | l j => exact vectorGet_set_ne _ _ _ fun e => h (e ▸ rfl)
    | _ => rfl
  | k i => cases q with
    | k j => exact vectorGet_set_ne _ _ _ fun e => h (e ▸ rfl)
    | _ => rfl
  | lc i => cases q with
    | lc j => exact vectorGet_set_ne _ _ _ fun e => h (e ▸ rfl)
    | _ => rfl
  | rot => cases q with
    | rot => exact absurd rfl h
    | _ => rfl
  | mode => cases q with
    | mode => exact absurd rfl h
    | _ => rfl
  | flags => cases q with
    | flags => exact absurd rfl h
    | _ => rfl

theorem Ctx.put_others (r : CReg) :
    (c.put r m v).acc = c.acc ∧ (c.put r m v).accOut = c.accOut ∧ (c.put r m v).pc = c.pc ∧ (c.put r m v).flight = c.flight := by
  cases r <;> exact ⟨rfl, rfl, rfl, rfl⟩

/-- PR0 always reads 1: no write reaches its bit (R63). -/
theorem Ctx.put_flags_pr0 : bit (c.put .flags m v).flags 8 = bit c.flags 8 := by
  show bit (merge c.flags (m &&& CReg.flags.mask) v) 8 = _
  have h : bit (m &&& CReg.flags.mask) 8 = false := by
    rw [bit_and]
    exact Bool.and_false _
  rw [bit_merge, h, if_neg Bool.false_ne_true]

end

/-- With nothing in flight, a result of latency 1 is the only one that the bundle writes (R66). -/
theorem Ctx.get_issued_one (c : Ctx) (r q : CReg) (v : Word) (hf : c.flight = []) :
    (c.issued [toReg 1 r v]).get q = (c.put r 0xFFFFFFFF#32 v).get q := by
  unfold Ctx.issued Ctx.issuedAs Ctx.advance
  rw [hf]
  cases q <;> cases r <;> rfl

/-- Settles O9: each operation as a data operation that issues alone, and the write of a register with what it leaves. -/
theorem compareMoveResults : Obligations.CompareMoveResults := by
  unfold Obligations.CompareMoveResults
  refine ⟨?_, fun c r m v => ?_, fun c m v => c.put_flags_pr0 m v, fun c a v => ⟨vectorGet_set_self .., fun b hb => vectorGet_set_ne _ _ _ hb, rfl⟩,
    fun c r v hf => ⟨?_, fun q hq => ?_⟩⟩
  case refine_1 =>
    intro s h dd da db p pn imm i hs c a b cmp pr
    refine ⟨?_, ?_, ?_, ?_, ?_, ?_, ?_, ?_, ?_, ?_, ?_, ?_, ?_, ?_, ?_, ?_, ?_, ?_, ?_, ?_⟩
    case refine_7 => exact exec_data_solo hs rfl (flights_effMovp c dd da p pn)
    all_goals exact exec_data_solo hs rfl rfl
  case refine_2 => exact ⟨c.get_put_self m v r, fun q hq => c.get_put_ne m v hq, c.put_others m v r⟩
  case refine_3 =>
    rw [c.get_issued_one r r v hf, c.get_put_self]
    have hall : 0xFFFFFFFF#32 &&& r.mask = r.mask := BitVec.allOnes_and
    rw [hall]
    rfl
  case refine_4 => rw [c.get_issued_one r q v hf, c.get_put_ne _ _ hq]

end Sys2Proof.Machine
end

section
/-! What a syllable that issues alone does when it also reaches memory, a coprocessor or a reserved address mode (R51, R55, R56, R103): the reads of its bundle, then its completion. -/

namespace Sys2Proof.Machine

-- One theorem after another, so that the compile of the whole text stays within its memory.
set_option Elab.async false

/-- The bundle of one syllable. -/
def soloSyl (u : SylUnit) (bad : Bool) (op : Instr) : Syl := { op := op, unit := u, bad := bad, rsv := false }

/-- The stall of a bundle of one syllable as its reads are issued. -/
def soloStall (y : Syl) (reads : List ReadSlot) : Stall := { syls := [y], noStop := false, first := true, reps := 0, reads := some reads }

/-- A context of a Course takes a value. -/
def State.withCtx (s : State) (n : CourseId) (x : CtxId) (c : Ctx) : State := s.modCourse n fun k => k.setCtx x c

/-- A syllable that issues alone: its reads are issued, its first use of a reserved mode is reported, and its bundle goes on as far as it can (R51, R56). -/
theorem State.syllable_alone (s : State) (h : SylHdr) (u : SylUnit) (bad : Bool) (op : Instr) (hs : Solo s h) :
    s.syllable h u bad op =
      let c := (s.course h.n).ctx h.x
      let ops := bundleOps h.x [soloSyl u bad op]
      let r := (s.modeError h.n h.x ops).issueReads h.n h.x c (s.amode h.n h.x) ops
      (r.2.modCourse h.n fun k => k.setCtx h.x { k.ctx h.x with stall := some (soloStall (soloSyl u bad op) r.1) }).resumeStall h.n h.x := by
  obtain ⟨hstop, hrsv, hclock, hmay, hbundle, hrep, harm⟩ := hs
  have hempty : ({ (s.course h.n).ctx h.x with bundle := [] } : Ctx) = (s.course h.n).ctx h.x := by rw [← hbundle]
  have hid : (s.modCourse h.n fun k => k.setCtx h.x { k.ctx h.x with bundle := [] }) = s :=
    State.modCourse_id s _ _ (by rw [hempty, Course.setCtx_ctx])
  simp only [State.syllable, hmay, hclock, hbundle, hstop, hrsv, List.nil_append, Bool.true_or, Bool.and_self, if_true, hid, State.issueBundle, hrep,
    State.issueStall, State.memReads_unarmed _ _ _ harm, Bool.not_true]
  rfl

/-- The bundle of a syllable that executes holds its operation alone and nothing illegal. -/
theorem bundleOps_solo (x : CtxId) (u : SylUnit) (op : Instr) (hu : (soloSyl u false op).undefinedIn x = false) :
    bundleOps x [soloSyl u false op] = [op] := bundleOps_one x _ hu

/-- A stalled bundle whose reads are done and whose stores have room completes, and the preemption that waits for it follows (R51, R71). -/
theorem State.resumeStall_ready (t : State) (n : CourseId) (x : CtxId) (st : Stall) (hst : ((t.course n).ctx x).stall = some st)
    (hreps : st.reps = 0) (hrep : ((t.course n).ctx x).rep = none) (hready : t.bundleReady n x st = true) :
    t.resumeStall n x = ((t.completeIssue n x st).finishBundle n x ((t.course n).ctx x) st false).settle n := by
  have hr : ((t.course n).ctx x).repeating = false := by simp [Ctx.repeating, hrep]
  simp only [State.resumeStall, hst, hreps, State.runStall, hready, if_true, hr]

/-- A bundle that is not ready stays as it is, and no preemption takes place. -/
theorem State.resumeStall_waits (t : State) (n : CourseId) (x : CtxId) (st : Stall) (hst : ((t.course n).ctx x).stall = some st)
    (hreps : st.reps = 0) (hready : t.bundleReady n x st = false) : t.resumeStall n x = t.settle n := by
  simp only [State.resumeStall, hst, hreps, State.runStall, hready, Bool.false_eq_true, if_false]

/-- An operation that transfers no control, ends no work and gives no repeat count. -/
structure Sequential (op : Instr) : Prop where
  noTransfer : ∀ c, transfer c op = none
  noRepeat : ∀ c, repCount c op = none
  goesOn : endsWork op = false

/-- The context after a bundle does not depend on the stall that the bundle waited in. -/
theorem Ctx.issued_stall (c : Ctx) (b : List Syl) (st : Option Stall) (fl : List Flight) :
    Ctx.issued { c with bundle := b, stall := st } fl = c.issued fl := by
  have hst := Ctx.advance_congr { c with flight := c.flight ++ fl } [] st
  have hc := Ctx.advance_congr { c with flight := c.flight ++ fl } [] c.stall
  dsimp only [Ctx.issued, Ctx.issuedAs] at hst hc ⊢
  rw [hst, hc]

/-- The context after a bundle of one sequential operation (R79). -/
theorem afterBundle_sequential (c : Ctx) (op : Instr) (hq : Sequential op) :
    afterBundle c [op] 1 false = ({ c with pc := c.slot.getD (c.pc + 1#14), slot := none, rep := none, ended := false }, false) := by
  cases hsl : c.slot <;> simp [afterBundle, transferAny, hq.noTransfer, hq.noRepeat, hq.goesOn, hsl]

/-- The completion of a bundle of one sequential operation: extension and store act, and the results start their flight (R66, R67, R79). -/
theorem State.complete_one (t : State) (n : CourseId) (x : CtxId) (u : SylUnit) (op : Instr) (reads : List ReadSlot)
    (hu : (soloSyl u false op).undefinedIn x = false) (hq : Sequential op) (hb : ((t.course n).ctx x).bundle = []) :
    let c := (t.course n).ctx x
    let am := t.amode n x
    let e := t.runExtension n x c [op]
    let w := e.2.runStores n x c am [op]
    let st := soloStall (soloSyl u false op) reads
    (t.completeIssue n x st).finishBundle n x c st false =
      w.2.withCtx n x (c.issued (flights (bundleEffects c (t.course n) am (c.pc + 1#14) [op] reads ++ e.1 ++ w.1))) := by
  have hill : bundleIllegal x false [soloSyl u false op] = false := bundleIllegal_one _ _ hu rfl
  simp only [State.completeIssue, State.finishBundle, soloStall, bundleOps_solo x u op hu, hill, Option.getD_some, List.append_nil, Bool.false_and,
    Bool.false_eq_true, if_false, List.length_singleton, afterBundle_sequential _ op hq, State.modCourse_modCourse, Course.ctx_setCtx_self,
    Course.setCtx_setCtx, State.withCtx, Ctx.issued, Ctx.issuedAs]
  rw [← hb]

/-! ## From the issue to the completion -/

/-- A context whose bundle of one syllable waits with its reads. -/
def Ctx.waiting (c : Ctx) (y : Syl) (reads : List ReadSlot) : Ctx := { c with stall := some (soloStall y reads) }

/-- The state in which the bundle of one syllable waits with its reads (R51). -/
def State.stalled (s : State) (h : SylHdr) (y : Syl) (reads : List ReadSlot) : State :=
  s.modCourse h.n fun k => k.setCtx h.x ((k.ctx h.x).waiting y reads)

/-- The control of a Course and one context of it are as they were. -/
structure CtxKept (h : SylHdr) (s t : State) : Prop where
  ctx : (t.course h.n).ctx h.x = (s.course h.n).ctx h.x
  phase : (t.course h.n).phase = (s.course h.n).phase
  preemptDue : (t.course h.n).preemptDue = (s.course h.n).preemptDue

theorem State.issued_eq_withCtx (s : State) (h : SylHdr) (c : Ctx) (fl : List Flight) (hc : (s.course h.n).ctx h.x = c) :
    s.issued h fl = s.withCtx h.n h.x (c.issued fl) := by
  subst hc
  rfl

/-- A syllable of one sequential operation whose bundle is ready at once: from the state `v` after its reads, the operation leaves `X`, and its results start their flight. -/
theorem State.syllable_effect {s v te tw X : State} {h : SylHdr} {u : SylUnit} {op : Instr} {rs : List ReadSlot} {es ws : List Eff} {fl : List Flight}
    (hs : Solo s h) (hu : (soloSyl u false op).undefinedIn h.x = false) (hq : Sequential op)
    (hread : (s.modeError h.n h.x [op]).issueReads h.n h.x ((s.course h.n).ctx h.x) (s.amode h.n h.x) [op] = (rs, v)) (hv : CtxKept h s v)
    (ham : v.amode h.n h.x = s.amode h.n h.x)
    (hready : (v.stalled h (soloSyl u false op) rs).bundleReady h.n h.x (soloStall (soloSyl u false op) rs) = true)
    (hext : (v.stalled h (soloSyl u false op) rs).runExtension h.n h.x (((s.course h.n).ctx h.x).waiting (soloSyl u false op) rs) [op] = (es, te))
    (hstore : te.runStores h.n h.x (((s.course h.n).ctx h.x).waiting (soloSyl u false op) rs) (s.amode h.n h.x) [op] = (ws, tw))
    (hX : ∀ c, tw.withCtx h.n h.x c = X.withCtx h.n h.x c) (hk : CtxKept h s X)
    (hfl : flights (bundleEffects (((s.course h.n).ctx h.x).waiting (soloSyl u false op) rs) ((v.stalled h (soloSyl u false op) rs).course h.n)
      (s.amode h.n h.x) (((s.course h.n).ctx h.x).pc + 1#14) [op] rs ++ es ++ ws) = fl) :
    s.syllable h u false op = X.issued h fl := by
  have hset := Course.mayIssue_settled _ _ hs.2.2.2.1 hs.2.2.2.2.2.1
  obtain ⟨-, -, -, -, hbundle, hrep, -⟩ := id hs
  have hctx : ((v.stalled h (soloSyl u false op) rs).course h.n).ctx h.x = ((s.course h.n).ctx h.x).waiting (soloSyl u false op) rs := by
    rw [State.stalled, State.course_modCourse_self, Course.ctx_setCtx_self, hv.ctx]
  have hcomplete := State.complete_one (v.stalled h (soloSyl u false op) rs) h.n h.x u op rs hu hq (by rw [hctx]; exact hbundle)
  have hamw : (v.stalled h (soloSyl u false op) rs).amode h.n h.x = s.amode h.n h.x := ham
  rw [State.syllable_alone s h u false op hs]
  simp only [bundleOps_solo h.x u op hu, hread]
  show (v.stalled h (soloSyl u false op) rs).resumeStall h.n h.x = _
  rw [State.resumeStall_ready _ _ _ _ (by rw [hctx]; rfl) rfl (by rw [hctx]; exact hrep) hready, hcomplete]
  simp only [hctx, hamw, hext, hstore]
  rw [hX, State.issued_eq_withCtx X h _ fl hk.ctx, ← hfl]
  have hpc : (((s.course h.n).ctx h.x).waiting (soloSyl u false op) rs).pc = ((s.course h.n).ctx h.x).pc := rfl
  rw [hpc, show ∀ l, Ctx.issued (((s.course h.n).ctx h.x).waiting (soloSyl u false op) rs) l = ((s.course h.n).ctx h.x).issued l from
    fun l => Ctx.issued_stall _ ((s.course h.n).ctx h.x).bundle _ l]
  refine State.settle_id _ _ ?_
  rw [State.withCtx, State.course_modCourse_self, Course.setCtx_phase, Course.setCtx_preemptDue, hk.phase, hk.preemptDue]
  exact hset

theorem State.stalled_withCtx (s : State) (h : SylHdr) (y : Syl) (rs : List ReadSlot) (c : Ctx) :
    (s.stalled h y rs).withCtx h.n h.x c = s.withCtx h.n h.x c := by
  simp only [State.stalled, State.withCtx, State.modCourse_modCourse, Course.setCtx_setCtx]

/-- The same where nothing but the reads reaches beyond the context: a syllable without store and extension. -/
theorem State.syllable_reads {s v : State} {h : SylHdr} {u : SylUnit} {op : Instr} {rs : List ReadSlot} {fl : List Flight}
    (hs : Solo s h) (hu : (soloSyl u false op).undefinedIn h.x = false) (hq : Sequential op)
    (hread : (s.modeError h.n h.x [op]).issueReads h.n h.x ((s.course h.n).ctx h.x) (s.amode h.n h.x) [op] = (rs, v)) (hv : CtxKept h s v)
    (ham : v.amode h.n h.x = s.amode h.n h.x) (hdone : rs.all (·.isDone) = true)
    (hstore : ∀ c am, sylStore c am op = none) (hext : ∀ (t : State) n x c, t.extension n x c op = none)
    (hfl : flights (bundleEffects (((s.course h.n).ctx h.x).waiting (soloSyl u false op) rs) ((v.stalled h (soloSyl u false op) rs).course h.n)
      (s.amode h.n h.x) (((s.course h.n).ctx h.x).pc + 1#14) [op] rs) = fl) :
    s.syllable h u false op = v.issued h fl := by
  refine State.syllable_effect (es := []) (ws := []) (te := v.stalled h (soloSyl u false op) rs) (tw := v.stalled h (soloSyl u false op) rs)
    hs hu hq hread hv ham ?_ ?_ ?_ (v.stalled_withCtx h _ rs) hv (by simpa using hfl)
  · simp only [State.bundleReady, soloStall, bundleOps_solo h.x u op hu, State.postedOf, List.filterMap_cons, hstore, List.filterMap_nil,
      List.isEmpty_nil, Bool.true_or, Bool.and_true, hdone]
  · simp only [State.runExtension, List.findSome?_cons, hext, List.findSome?_nil]
  · simp only [State.runStores, hstore]

/-! ## The first use of an address channel (R56) -/

/-- The first use of a channel changes nothing, or notes the channel and raises EV5. -/
theorem State.firstUse_cases (s : State) (h : SylHdr) (ch : Fin 16) :
    s.firstUse h ch = s ∨ ∃ m a, s.firstUse h ch = ({ s with modeUsed := m } : State).raiseEvent 5 a := by
  unfold State.firstUse
  extract_lets a k
  by_cases hc : s.rfld a (2 * ch.val) 2 = 3 ∧ k ∉ s.modeUsed
  · exact .inr ⟨_, _, if_pos hc⟩
  · exact .inl (if_neg hc)

theorem State.firstUse_frame (s : State) (h : SylHdr) (ch : Fin 16) :
    s.firstUse h ch = { s with
      regs := (s.firstUse h ch).regs, tokens := (s.firstUse h ch).tokens, seq := (s.firstUse h ch).seq, modeUsed := (s.firstUse h ch).modeUsed } := by
  obtain e | ⟨m, a, e⟩ := s.firstUse_cases h ch
  · rw [e]
  · rw [e, State.raiseEvent_frame]

@[simp] theorem State.firstUse_courses (s : State) (h : SylHdr) (ch : Fin 16) : (s.firstUse h ch).courses = s.courses := by
  rw [State.firstUse_frame]

theorem State.firstUse_reg (s : State) (h : SylHdr) (ch : Fin 16) (a : Nat) (ha : a / 0x10000 ≠ 4) : (s.firstUse h ch).reg a = s.reg a := by
  obtain e | ⟨m, p, e⟩ := s.firstUse_cases h ch
  · rw [e]
  · rw [e, State.raiseEvent_reg_block _ _ _ _ (by decide) ha]
    rfl

theorem State.firstUse_course (s : State) (h : SylHdr) (ch : Fin 16) (n : CourseId) : (s.firstUse h ch).course n = s.course n := by
  simp only [State.course, State.firstUse_courses]

theorem State.firstUse_ctxKept (s : State) (h : SylHdr) (ch : Fin 16) : CtxKept h s (s.firstUse h ch) := by
  constructor
  all_goals rw [State.firstUse_course]

theorem State.firstUse_amode (s : State) (h : SylHdr) (ch : Fin 16) : (s.firstUse h ch).amode h.n h.x = s.amode h.n h.x := by
  cases hx : h.x
  all_goals
    rw [State.amode, State.amode, State.firstUse_reg]
    simp only [regC_AMODE_FG, regC_AMODE_BG]
    omega

/-- The channel that an operation of the AGU class uses (R56). -/
def agChannel : Instr → Option (Fin 16)
  | .ld _ ch .. | .st _ ch .. | .modp _ ch _ | .inp _ ch .. | .out _ ch .. => some ch
  | _ => none

theorem State.modeError_of_channel (s : State) (h : SylHdr) (op : Instr) (ch : Fin 16) (hc : agChannel op = some ch) :
    s.modeError h.n h.x [op] = s.firstUse h ch := by
  have key (a : Nat) (k : Nat) : ([ch].filter fun c => fld (s.reg a) (2 * c.val) 2 == 3).foldl (fun s c =>
        if s.modeUsed.contains (k + c.val) then s else ({ s with modeUsed := s.modeUsed ++ [k + c.val] } : State).configError a) s =
      if s.rfld a (2 * ch.val) 2 = 3 ∧ k + ch.val ∉ s.modeUsed then
        ({ s with modeUsed := s.modeUsed ++ [k + ch.val] } : State).raiseEvent 5 (BitVec.ofNat 32 a) else s := by
    unfold State.rfld
    by_cases hm : fld (s.reg a) (2 * ch.val) 2 = 3
    · by_cases hu : k + ch.val ∈ s.modeUsed
      · simp [hm, hu]
      · simp [hm, hu, State.configError]
    · simp [hm]
  unfold agChannel at hc
  split at hc
  case h_6 => nomatch hc
  all_goals
    obtain rfl := Option.some.inj hc
    exact key _ _

end Sys2Proof.Machine
end

section
/-! The address registers (R56, R57, R66, R89). -/

namespace Sys2Proof.Machine

-- One theorem after another, so that the compile of the whole text stays within its memory.
set_option Elab.async false

/-- A pointer update issues alone behind the report of a reserved mode (R56, R57). -/
theorem exec_modp_solo (s : State) (h : SylHdr) (ch : Fin 16) (f : Form) (hs : Solo s h) (hf : f.updates = true) :
    exec (.modp h ch f) s =
      .next ((s.firstUse h ch).issued h (flights (effPost ((s.course h.n).ctx h.x) (s.amode h.n h.x) ch f))) := by
  have he : exec (.modp h ch f) s = .next (s.syllable h .agu (!f.updates) (.modp h ch f)) := rfl
  rw [he, hf]
  refine congrArg Host.Outcome.next (State.syllable_reads (op := .modp h ch f) (v := s.firstUse h ch) (rs := []) hs rfl
    ⟨fun _ => rfl, fun _ => rfl, rfl⟩ ?_ (s.firstUse_ctxKept h ch) (s.firstUse_amode h ch) rfl (fun _ _ => rfl) (fun _ _ _ _ => rfl) ?_)
  · rw [State.modeError_of_channel s h _ ch rfl]
    rfl
  · show flights (effPost _ _ ch f ++ []) = _
    rw [List.append_nil]
    rfl

/-- Settles O10: MODP behind the report of a reserved mode, and the moves as data operations that issue alone. -/
theorem addressRegisterResults : Obligations.AddressRegisterResults := by
  unfold Obligations.AddressRegisterResults
  intro s h ch kd r imm hs c m step u
  refine ⟨exec_modp_solo s h ch .postInc hs rfl, exec_modp_solo s h ch .postDec hs rfl, exec_modp_solo s h ch .postAddN hs rfl,
    exec_modp_solo s h ch .postSubN hs rfl, ?_, ?_, ?_, ?_⟩
  all_goals exact exec_data_solo hs rfl rfl

end Sys2Proof.Machine
end

section
/-! Undefined syllables (R107 to R109) and the place of a syllable in its bundle (R79). -/

namespace Sys2Proof.Machine

-- One theorem after another, so that the compile of the whole text stays within its memory.
set_option Elab.async false

/-! ## Events and faults do not meet the Courses -/

/-- The state with other Courses. -/
def State.withCourses (s : State) (v : Vector Course 8) : State := { s with courses := v }

section
variable (s : State) (v : Vector Course 8)

theorem State.reg_withCourses (a : Nat) : (s.withCourses v).reg a = s.reg a := rfl

theorem State.setReg_withCourses (a : Nat) (w : Word) : (s.withCourses v).setReg a w = (s.setReg a w).withCourses v := rfl

theorem State.count_withCourses (a n : Nat) : (s.withCourses v).count a n = (s.count a n).withCourses v := rfl

theorem State.bumpSeq_withCourses (e : Nat) : (s.withCourses v).bumpSeq e = (s.bumpSeq e).withCourses v := by
  unfold State.bumpSeq
  rw [State.reg_withCourses]
  by_cases h : fld (s.reg (regEVT_ROUTE e)) 29 2 = 2
  · rw [if_pos h, if_pos h]; rfl
  · rw [if_neg h, if_neg h]

theorem State.queueToken_withCourses (e : Nat) (pl : Word) : (s.withCourses v).queueToken e pl = (s.queueToken e pl).withCourses v := by
  have ht : (s.withCourses v).tokens = s.tokens := rfl
  unfold State.queueToken
  dsimp only
  rw [State.reg_withCourses, State.bumpSeq_withCourses, ht]
  by_cases h : bit (s.reg (regEVT_ROUTE e)) 31 = true
  · rw [if_pos h, if_pos h]
    by_cases h16 : (s.tokens.filter fun t => t.src == e).length ≥ 16
    · rw [if_pos h16, if_pos h16]; rfl
    · rw [if_neg h16, if_neg h16]; rfl
  · rw [if_neg h, if_neg h]

theorem State.raiseEvent_withCourses (e : Nat) (pl : Word) : (s.withCourses v).raiseEvent e pl = (s.raiseEvent e pl).withCourses v := by
  unfold State.raiseEvent
  rw [← State.queueToken_withCourses]
  rfl

theorem State.reactions_withCourses (src : Nat) : (s.withCourses v).reactions src = (s.reactions src).withCourses v := by
  have hm : (s.withCourses v).reactMute = s.reactMute := rfl
  unfold State.reactions
  dsimp only
  rw [State.reg_withCourses, hm]
  by_cases h : bit (s.reg (regFAULT_CFG src)) 2 = true
  · rw [if_pos h, if_pos h]; rfl
  · rw [if_neg h, if_neg h]; rfl

theorem State.latchFault_withCourses (src : Nat) : (s.withCourses v).latchFault src = (s.latchFault src).withCourses v := by
  unfold State.latchFault
  dsimp only
  rw [← State.reactions_withCourses]
  rfl

theorem State.tb0Words_withCourses : (s.withCourses v).tb0Words = (s.tb0Words.1, s.tb0Words.2.withCourses v) := by
  have hb : (s.withCourses v).rbit (regTIME_CFG 0) 31 = s.rbit (regTIME_CFG 0) 31 := rfl
  unfold State.tb0Words
  rw [hb]
  by_cases h : s.rbit (regTIME_CFG 0) 31 = true
  · rw [if_pos h, if_pos h]; rfl
  · rw [if_neg h, if_neg h]; rfl

theorem State.recordFault_withCourses (src : Nat) (inj : Bool) (det syn : Word) :
    (s.withCourses v).recordFault src inj det syn = (s.recordFault src inj det syn).withCourses v := by
  unfold State.recordFault
  dsimp only
  rw [State.tb0Words_withCourses]
  have hst : (s.withCourses v).rfld (regTIME_STAT 0) 0 2 = s.rfld (regTIME_STAT 0) 0 2 := rfl
  have hnow : (s.withCourses v).now = s.now := rfl
  have hfc : (s.withCourses v).fc = s.fc := rfl
  simp only [hst, hnow, hfc, State.setReg_withCourses, State.raiseEvent_withCourses]

theorem State.raiseAll_withCourses (src : Nat) : (s.withCourses v).raiseAll [src] none = (s.raiseAll [src] none).withCourses v := by
  have hl := s.latchFault_withCourses v src
  have hb : (s.withCourses v).rbit regFAULT_FFR0 31 = s.rbit regFAULT_FFR0 31 := rfl
  have hf : (s.withCourses v).firstFault [src] = s.firstFault [src] := rfl
  simp only [State.raiseAll, List.isEmpty_cons, Bool.false_eq_true, if_false, List.foldl_cons, List.foldl_nil, hl, hb, hf, State.count_withCourses]
  by_cases h : s.rbit regFAULT_FFR0 31 = true
  · rw [if_pos h, if_pos h]
  · rw [if_neg h, if_neg h]
    cases s.firstFault [src] with
    | none => dsimp only
    | some r => dsimp only; rw [State.recordFault_withCourses]

end

/-! ## Faults and the context of a Course -/

section
variable (s : State) (n : CourseId) (x : CtxId) (c : Ctx)

theorem State.withCtx_eq : s.withCtx n x c = s.withCourses (s.courses.set n.val ((s.course n).setCtx x c) n.isLt) := rfl

/-- A function of the state that neither reads nor changes the Courses does its work beside them. -/
theorem State.withCtx_comm (F : State → State) (hF : ∀ (t : State) v, F (t.withCourses v) = (F t).withCourses v)
    (hc : (F s).courses = s.courses) : F (s.withCtx n x c) = (F s).withCtx n x c := by
  rw [State.withCtx_eq, State.withCtx_eq, hF, hc, State.course, State.course, hc]

theorem State.raiseEvent_withCtx (e : Nat) (pl : Word) : (s.withCtx n x c).raiseEvent e pl = (s.raiseEvent e pl).withCtx n x c :=
  State.withCtx_comm s n x c (fun t => t.raiseEvent e pl) (fun t v => t.raiseEvent_withCourses v e pl) (by rw [State.raiseEvent_frame])

theorem State.raiseAll_withCtx (src : Nat) : (s.withCtx n x c).raiseAll [src] none = (s.raiseAll [src] none).withCtx n x c :=
  State.withCtx_comm s n x c (fun t => t.raiseAll [src] none) (fun t v => t.raiseAll_withCourses v src) (by rw [s.raiseAll_shape [src] none])

theorem State.modCourse_comm (f g : Course → Course) {m : CourseId} (h : m ≠ n) :
    (s.modCourse n f).modCourse m g = (s.modCourse m g).modCourse n f := by
  have hv : n.val ≠ m.val := fun e => h (Fin.ext e.symm)
  unfold State.modCourse
  rw [State.course_setCourse_ne s _ h, State.course_setCourse_ne s _ (Ne.symm h)]
  unfold State.setCourse
  dsimp only
  rw [Vector.set_comm _ _ hv]

theorem State.creset_withCtx (src : Nat) : (s.withCtx n x c).creset src = (s.creset src).withCtx n x c := by
  have hb : (s.withCtx n x c).rbit (regFAULT_CFG src) 1 = s.rbit (regFAULT_CFG src) 1 := rfl
  unfold State.creset
  rw [hb]
  cases faultCourse src with
  | none => rfl
  | some k =>
    dsimp only
    by_cases h : s.rbit (regFAULT_CFG src) 1 = true
    · rw [if_pos h, if_pos h]
      by_cases hk : fin 7 k = n
      · subst hk
        unfold State.withCtx
        rw [State.modCourse_modCourse, State.modCourse_modCourse]
        cases x <;> rfl
      · exact State.modCourse_comm s n _ _ hk
    · rw [if_neg h, if_neg h]

theorem State.faultOccurs_withCtx (src : Nat) : (s.withCtx n x c).faultOccurs src = (s.faultOccurs src).withCtx n x c := by
  have hl : (s.withCtx n x c).faultLatched src = s.faultLatched src := rfl
  unfold State.faultOccurs
  rw [hl]
  by_cases h : s.faultLatched src = true
  · rw [if_pos h, if_pos h, State.creset_withCtx]
  · rw [if_neg h, if_neg h, State.raiseAll_withCtx, State.creset_withCtx]

theorem State.setRbit_withCtx (a i : Nat) : (s.withCtx n x c).setRbit a i = (s.setRbit a i).withCtx n x c := rfl

theorem State.illegalSyllable_withCtx (m : CourseId) (y : CtxId) :
    (s.withCtx n x c).illegalSyllable m y = (s.illegalSyllable m y).withCtx n x c := by
  unfold State.illegalSyllable
  dsimp only
  rw [State.setRbit_withCtx, State.faultOccurs_withCtx, State.raiseEvent_withCtx]

@[simp] theorem State.withCtx_withCtx (d : Ctx) : (s.withCtx n x c).withCtx n x d = s.withCtx n x d := by
  simp only [State.withCtx, State.modCourse_modCourse, Course.setCtx_setCtx]

/-- An occurrence of a fault asks at most for resets of Courses: their contexts and control stay (R363). -/
theorem State.faultOccurs_course (src : Nat) :
    (s.faultOccurs src).course n = s.course n ∨ (s.faultOccurs src).course n = { s.course n with resetReq := true } := by
  have hr : ∀ t : State, (t.creset src).course n = t.course n ∨ (t.creset src).course n = { t.course n with resetReq := true } := fun t => by
    obtain e | ⟨m, -, e⟩ := t.creset_cases src
    · rw [e]; exact .inl rfl
    · rw [e]
      by_cases hm : n = fin 7 m
      · subst hm
        rw [State.course_modCourse_self]
        exact .inr rfl
      · exact .inl (State.course_modCourse_ne t _ hm)
  have hc : (if s.faultLatched src = true then s else s.raiseAll [src] none).course n = s.course n := by
    split
    · rfl
    · rw [s.raiseAll_shape [src] none]
      rfl
  rw [← hc]
  exact hr _

theorem State.illegalSyllable_course (m : CourseId) (y : CtxId) :
    (s.illegalSyllable m y).course n = s.course n ∨ (s.illegalSyllable m y).course n = { s.course n with resetReq := true } := by
  unfold State.illegalSyllable
  dsimp only
  rw [State.raiseEvent_course]
  exact State.faultOccurs_course _ n _

end

/-! ## An undefined syllable that issues alone -/

theorem bundleOps_undefined (x : CtxId) (u : SylUnit) (op : Instr) : bundleOps x [soloSyl u true op] = [] := by
  simp [bundleOps, placed, soloSyl, Syl.undefinedIn]

theorem bundleIllegal_undefined (x : CtxId) (u : SylUnit) (op : Instr) : bundleIllegal x false [soloSyl u true op] = true := by
  simp [bundleIllegal, placed, soloSyl, Syl.undefinedIn]

/-- A context behind a bundle that leaves no transfer, repeat count or end of the work. -/
def Ctx.closed (c : Ctx) (pc : BitVec 14) : Ctx := { c with pc := pc, slot := none, rep := none, ended := false, stall := none }

theorem Ctx.closed_advance (c : Ctx) (y : Syl) (reads : List ReadSlot) (fl : List Flight) (hb : c.bundle = []) :
    (Ctx.advance { c.waiting y reads with flight := c.flight ++ fl }).closed (c.slot.getD (c.pc + 1#14)) = c.issued fl := by
  have hw := Ctx.advance_congr { c with flight := c.flight ++ fl } [] (some (soloStall y reads))
  have hc := Ctx.advance_congr { c with flight := c.flight ++ fl } [] c.stall
  dsimp only [Ctx.issued, Ctx.issuedAs, Ctx.waiting, Ctx.closed] at hw hc ⊢
  rw [hb, hw, hc]
  rfl

section
variable (s : State) (n : CourseId) (x : CtxId) (u : SylUnit) (op : Instr) (c : Ctx)

theorem State.ctx_withCtx : ((s.withCtx n x c).course n).ctx x = c := by rw [State.withCtx, State.course_modCourse_self, Course.ctx_setCtx_self]

theorem State.completeIssue_undefined :
    (s.withCtx n x (c.waiting (soloSyl u true op) [])).completeIssue n x (soloStall (soloSyl u true op) []) =
      (s.withCtx n x (Ctx.advance { c.waiting (soloSyl u true op) [] with flight := c.flight ++ [stickyFlag flagILLEGAL] })).illegalSyllable n x := by
  simp only [State.completeIssue, soloStall, bundleOps_undefined, bundleIllegal_undefined, State.ctx_withCtx, bundleEffects, State.runExtension,
    List.findSome?_nil, State.runStores, List.nil_append, if_true, Bool.and_self]
  rw [← State.withCtx, State.withCtx_withCtx]
  rfl

theorem State.finishBundle_undefined (d : Ctx) (st : Stall) (hops : bundleOps x st.syls = []) (hlen : st.syls.length = 1) :
    (s.withCtx n x c).finishBundle n x d st false = s.withCtx n x (c.closed (d.slot.getD (d.pc + 1#14))) := by
  have ha : afterBundle d [] 1 false = ({ d with pc := d.slot.getD (d.pc + 1#14), slot := none, rep := none, ended := false }, false) := by
    cases hsl : d.slot <;> simp [afterBundle, transferAny, hsl]
  simp only [State.finishBundle, hops, hlen, ha, Bool.false_eq_true, if_false, State.withCtx, State.modCourse_modCourse, Course.ctx_setCtx_self,
    Course.setCtx_setCtx]
  rfl

end

/-- An undefined syllable that issues alone sets FLAGS.ILLEGAL with the next bundle, and the rest of R109 follows. -/
theorem exec_undefined_solo (s : State) (h : SylHdr) (w : Word) (hs : Solo s h) (hw : undefinedWord w = true) :
    exec (.undefinedSyllable h w) s = .next ((s.issued h [stickyFlag flagILLEGAL]).illegalSyllable h.n h.x) := by
  obtain ⟨-, -, -, hmay, hbundle, hrep, -⟩ := id hs
  have he : exec (.undefinedSyllable h w) s = .next (s.syllable h (classUnit w) true (.undefinedSyllable h w)) :=
    congrArg Host.Outcome.next (if_pos hw)
  let y := soloSyl (classUnit w) true (.undefinedSyllable h w)
  let c := (s.course h.n).ctx h.x
  have hctx := State.ctx_withCtx s h.n h.x (c.waiting y [])
  have hmode : s.modeError h.n h.x [] = s := rfl
  rw [he, State.syllable_alone s h _ true _ hs]
  simp only [bundleOps_undefined, State.issueReads, hmode]
  show Host.Outcome.next ((s.withCtx h.n h.x (c.waiting y [])).resumeStall h.n h.x) = _
  rw [State.resumeStall_ready _ h.n h.x (soloStall y []) (by rw [hctx]; rfl) rfl (by rw [hctx]; exact hrep)
      (by simp [State.bundleReady, soloStall, y, bundleOps_undefined, State.postedOf]),
    hctx, State.completeIssue_undefined, State.illegalSyllable_withCtx,
    State.finishBundle_undefined _ _ _ _ _ _ (bundleOps_undefined h.x _ _) rfl]
  show Host.Outcome.next (((s.illegalSyllable h.n h.x).withCtx h.n h.x
    ((Ctx.advance { c.waiting y [] with flight := c.flight ++ [stickyFlag flagILLEGAL] }).closed (c.slot.getD (c.pc + 1#14)))).settle h.n) = _
  rw [Ctx.closed_advance c y [] _ hbundle, State.issued_eq_withCtx s h c _ rfl, State.illegalSyllable_withCtx, State.settle_id]
  rw [State.withCtx, State.course_modCourse_self, Course.setCtx_phase, Course.setCtx_preemptDue]
  have hset := Course.mayIssue_settled _ _ hmay hrep
  obtain e | e := s.illegalSyllable_course h.n h.n h.x
  · rw [e]; exact hset
  · rw [e]; exact hset

/-! ## What R109 leaves -/

/-- An occurrence of a fault leaves the memories and the tables alone. -/
theorem State.faultOccurs_memories (s : State) (src : Nat) :
    (s.faultOccurs src).dram = s.dram ∧ (s.faultOccurs src).scratch = s.scratch ∧ (s.faultOccurs src).tab = s.tab := by
  have hr : ∀ t : State, (t.creset src).dram = t.dram ∧ (t.creset src).scratch = t.scratch ∧ (t.creset src).tab = t.tab := fun t => by
    obtain e | ⟨n, -, e⟩ := t.creset_cases src
    · rw [e]; exact ⟨rfl, rfl, rfl⟩
    · rw [e]; exact ⟨rfl, rfl, rfl⟩
  unfold State.faultOccurs
  split
  · exact hr s
  · have hshape := s.raiseAll_shape [src] none
    generalize s.raiseAll [src] none = t at hshape ⊢
    obtain ⟨hd, hsc, ht⟩ := hr t
    rw [hd, hsc, ht, hshape]
    exact ⟨rfl, rfl, rfl⟩

/-- The number of a context in the payloads of R194. -/
def ctxNo : CtxId → Nat
  | .fg => 0
  | .bg => 1

section
variable (s : State) (n : CourseId) (x : CtxId)

theorem State.illegalSyllable_latched : (s.illegalSyllable n x).faultLatched (16 + n.val) = true := by
  unfold State.illegalSyllable State.faultLatched State.rbit
  dsimp only
  rw [State.raiseEvent_reg_block _ _ _ _ (by omega) (by simp only [regFAULT_LATCH]; omega)]
  have hl := State.faultOccurs_latch (s.setRbit (regC_STATUS n) (16 + ctxNo x)) (16 + n.val) (16 + n.val) (by omega)
  rw [decide_eq_true rfl, Bool.or_true] at hl
  exact hl

theorem State.illegalSyllable_pend : (s.illegalSyllable n x).rbit (regEVT_PEND 0) (8 + n.val) = true := by
  have hp := State.raiseEvent_pend ((s.setRbit (regC_STATUS n) (16 + ctxNo x)).faultOccurs (16 + n.val))
    (8 + n.val) (8 + n.val) (BitVec.ofNat 32 (ctxNo x)) (by omega) (by omega)
  rw [decide_eq_true rfl, Bool.or_true, Nat.div_eq_of_lt (by omega), Nat.mod_eq_of_lt (by omega)] at hp
  exact hp

theorem State.illegalSyllable_payload :
    (s.illegalSyllable n x).reg (regEVT_PAYLOAD (8 + n.val)) = BitVec.ofNat 32 (ctxNo x) :=
  State.raiseEvent_payload _ _ _ (by omega)

theorem State.illegalSyllable_status : (s.illegalSyllable n x).rbit (regC_STATUS n) (16 + ctxNo x) = true := by
  have hblock : regC_STATUS n / 0x10000 ≠ 3 ∧ regC_STATUS n / 0x10000 ≠ 4 := by simp only [regC_STATUS]; omega
  have hbit (i : Nat) (hi : i < 32) : bit (s.reg (regC_STATUS n) ||| oneHot i) i = true := by
    rw [bit_or, bit_oneHot _ _ hi, decide_eq_true rfl, Bool.or_true]
  unfold State.illegalSyllable State.rbit
  dsimp only
  rw [State.raiseEvent_reg_block _ _ _ _ (by omega) hblock.2, State.faultOccurs_reg _ _ _ (by omega) hblock.1, State.reg_setRbit, if_pos rfl]
  · cases x
    · exact hbit 16 (by decide)
    · exact hbit 17 (by decide)
  all_goals simp only [regC_STATUS, regEVT_PEND, regEVT_PAYLOAD, regEVT_LOST_CNT, regEVT_STATUS]; omega

theorem State.illegalSyllable_memories :
    (s.illegalSyllable n x).dram = s.dram ∧ (s.illegalSyllable n x).scratch = s.scratch ∧ (s.illegalSyllable n x).tab = s.tab := by
  unfold State.illegalSyllable
  dsimp only
  rw [State.raiseEvent_frame]
  exact State.faultOccurs_memories (s.setRbit (regC_STATUS n) (16 + ctxNo x)) (16 + n.val)

end

/-- Settles O12: an undefined syllable through R109, and a syllable that joins its bundle or finds no taker. -/
theorem syllablesAndTraps : Obligations.SyllablesAndTraps := by
  unfold Obligations.SyllablesAndTraps
  refine ⟨fun s h w hs => ?_, fun s h u bad op => ⟨fun hm hc hst hl => s.syllable_join h u bad op hm hc hst hl, fun hn => s.syllable_ignored h u bad op ?_⟩⟩
  · refine ⟨exec_undefined_solo s h w hs, fun hw => ?_, State.illegalSyllable_latched .., State.illegalSyllable_pend .., State.illegalSyllable_payload ..,
      fun _ => ?_⟩
    · exact congrArg Host.Outcome.next (if_neg (by rw [hw]; exact Bool.false_ne_true))
    · obtain ⟨hd, hsc, ht⟩ := (s.issued h [stickyFlag flagILLEGAL]).illegalSyllable_memories h.n h.x
      have hc : (s.issued h [stickyFlag flagILLEGAL]).course h.n =
          (s.course h.n).setCtx h.x (((s.course h.n).ctx h.x).issued [stickyFlag flagILLEGAL]) := State.course_modCourse_self ..
      refine ⟨?_, State.illegalSyllable_status .., hd, hsc, ht, ?_⟩
      · obtain e | e := (s.issued h [stickyFlag flagILLEGAL]).illegalSyllable_course h.n h.n h.x
        · rw [e, hc, Course.ctx_setCtx_self]
        · rw [e, hc]
          exact Course.ctx_setCtx_self ..
      · obtain e | e := (s.issued h [stickyFlag flagILLEGAL]).illegalSyllable_course h.n h.n h.x
        · rw [e, hc]; cases h.x <;> exact ⟨rfl, rfl⟩
        · rw [e, hc]; cases h.x <;> exact ⟨rfl, rfl⟩
  · rcases hn with hn | hn
    · rw [hn, Bool.false_and]
    · rw [hn, Bool.and_false]

end Sys2Proof.Machine
end

section
/-! What loads, inputs, stores and outputs do when they issue alone (R50 to R55, R66, R89, R92). -/

namespace Sys2Proof.Machine

-- One theorem after another, so that the compile of the whole text stays within its memory.
set_option Elab.async false

/-! ## Words stored one after the other -/

/-- Words stored one after the other, each at its address. -/
def storeAll {M : Type} (set : M → Nat → Word → M) : M → List Nat → List Word → M
  | m, a :: as, v :: vs => storeAll set (set m a v) as vs
  | m, _, _ => m

/-- What no single store of the list changes, the list does not change. -/
theorem storeAll_keeps {M β : Type} (set : M → Nat → Word → M) (g : M → β) (addrs : List Nat)
    (hg : ∀ a ∈ addrs, ∀ m v, g (set m a v) = g m) (m : M) (ws : List Word) : g (storeAll set m addrs ws) = g m := by
  induction addrs generalizing m ws with
  | nil => rfl
  | cons a as ih =>
    cases ws with
    | nil => rfl
    | cons v vs =>
      rw [storeAll, ih (fun b hb => hg b (List.mem_cons_of_mem a hb)), hg a List.mem_cons_self]

/-- The last word given to an address stands (R55). -/
theorem storeAll_last {M : Type} (set : M → Nat → Word → M) (get : M → Nat → Word) (addrs : List Nat) (hself : ∀ m a v, get (set m a v) a = v)
    (hne : ∀ a ∈ addrs, ∀ b ∈ addrs, a ≠ b → ∀ m v, get (set m a v) b = get m b) (m : M) (ws : List Word) (i : Nat) (hi : i < addrs.length)
    (hw : i < ws.length) (hlast : ∀ j, i < j → (hj : j < addrs.length) → addrs[j] ≠ addrs[i]) :
    get (storeAll set m addrs ws) addrs[i] = ws[i] := by
  induction addrs generalizing m ws i with
  | nil => exact absurd hi (Nat.not_lt_zero i)
  | cons a as ih =>
    cases ws with
    | nil => exact absurd hw (Nat.not_lt_zero i)
    | cons v vs =>
      rw [storeAll]
      cases i with
      | zero =>
        have hlater : ∀ b ∈ as, b ≠ a := by
          intro b hb
          obtain ⟨j, hj, rfl⟩ := List.getElem_of_mem hb
          exact hlast (j + 1) (Nat.succ_pos j) (Nat.succ_lt_succ hj)
        rw [List.getElem_cons_zero, List.getElem_cons_zero,
          storeAll_keeps set (get · a) as (fun b hb m v => hne b (List.mem_cons_of_mem a hb) a List.mem_cons_self (hlater b hb) m v)]
        exact hself m a v
      | succ i =>
        simp only [List.getElem_cons_succ]
        refine ih (fun b hb c hc => hne b (List.mem_cons_of_mem a hb) c (List.mem_cons_of_mem a hc)) _ _ _ _ (Nat.lt_of_succ_lt_succ hw) ?_
        intro j hij hj
        exact hlast (j + 1) (Nat.succ_lt_succ hij) (Nat.succ_lt_succ hj)

/-- A Course whose local memory takes words. -/
def Course.storeLocal (addrs : List Nat) (ws : List Word) (c : Course) : Course := { c with lmem := storeAll memSetWord c.lmem addrs ws }

/-- A Course whose feeds take words at addresses of the feed window (R53). -/
def Course.storeFeeds (addrs : List Nat) (ws : List Word) (c : Course) : Course :=
  { c with feedCur := storeAll (fun m a v => wmSet m (a - 0x1000) v) c.feedCur addrs ws }

/-- A permitted store into local memory stores its words there (R50, R55). -/
theorem State.nearStore_local (s : State) (n : CourseId) (x : CtxId) (addrs : List Nat) (ws : List Word)
    (ha : ∀ a ∈ addrs, a < 0x10000 ∧ s.nearWriteOk n x a = true) : s.nearStore n x addrs ws = s.modCourse n (Course.storeLocal addrs ws) := by
  induction addrs generalizing s ws with
  | nil => exact (State.modCourse_id s n _ rfl).symm
  | cons a as ih =>
    cases ws with
    | nil => exact (State.modCourse_id s n _ rfl).symm
    | cons v vs =>
      obtain ⟨hlt, hok⟩ := ha a List.mem_cons_self
      rw [State.nearStore, if_pos hok, if_pos hlt, ih, State.modCourse_modCourse]
      · rfl
      · exact fun b hb => ha b (List.mem_cons_of_mem a hb)

/-- A store to the feed window stores its words in the slots (R53, R54). -/
theorem State.feedStore_window (s : State) (n : CourseId) (x : CtxId) (addrs : List Nat) (ws : List Word)
    (ha : ∀ a ∈ addrs, 0x1000 ≤ a ∧ a ≤ 0x10FF) : s.feedStore n x addrs ws = s.modCourse n (Course.storeFeeds addrs ws) := by
  induction addrs generalizing s ws with
  | nil => exact (State.modCourse_id s n _ rfl).symm
  | cons a as ih =>
    cases ws with
    | nil => exact (State.modCourse_id s n _ rfl).symm
    | cons v vs =>
      rw [State.feedStore, if_pos (ha a List.mem_cons_self), ih _ _ fun b hb => ha b (List.mem_cons_of_mem a hb), State.modCourse_modCourse]
      rfl

theorem State.modCourse_onlyCourse (s : State) (n : CourseId) (f : Course → Course) : OnlyCourse n s (s.modCourse n f) :=
  ⟨rfl, fun _ hm => State.course_modCourse_ne s f hm⟩

/-- What a store into local memory leaves. -/
theorem State.nearStore_effect (s : State) (n : CourseId) (x : CtxId) (addrs : List Nat) (ws : List Word)
    (ha : ∀ a ∈ addrs, a < 0x10000 ∧ s.nearWriteOk n x a = true) :
    let t := s.nearStore n x addrs ws
    OnlyCourse n s t ∧ t.course n = { s.course n with lmem := (t.course n).lmem } ∧
    (∀ b, b / 4 ∉ addrs → byteGet (t.course n).lmem b = byteGet (s.course n).lmem b) ∧
    (∀ (i : Nat) (hi : i < addrs.length) (hw : i < ws.length), (∀ j, i < j → (hj : j < addrs.length) → addrs[j] ≠ addrs[i]) →
      (t.course n).local addrs[i] = ws[i]) := by
  intro t
  have ht : t = s.modCourse n (Course.storeLocal addrs ws) := s.nearStore_local n x addrs ws ha
  have hc : t.course n = (s.course n).storeLocal addrs ws := by rw [ht, State.course_modCourse_self]
  rw [hc]
  refine ⟨ht ▸ s.modCourse_onlyCourse n _, rfl, fun b hb => ?_, fun i hi hw hlast => ?_⟩
  · refine storeAll_keeps memSetWord (byteGet · b) addrs (fun a hmem m v => ?_) _ ws
    have hba : b / 4 ≠ a := fun e => hb (e ▸ hmem)
    exact (byteGet_setWord m a b v).trans (if_neg hba)
  · exact storeAll_last memSetWord memWord addrs memWord_set_self (fun a _ b _ hab m v => memWord_set_ne m v hab.symm) _ ws i hi hw hlast

/-- What a store to the feed window leaves. -/
theorem State.feedStore_effect (s : State) (n : CourseId) (x : CtxId) (addrs : List Nat) (ws : List Word)
    (ha : ∀ a ∈ addrs, 0x1000 ≤ a ∧ a ≤ 0x10FF) :
    let t := s.feedStore n x addrs ws
    OnlyCourse n s t ∧ t.course n = { s.course n with feedCur := (t.course n).feedCur } ∧
    (∀ j, j + 0x1000 ∉ addrs → wmGet (t.course n).feedCur j = wmGet (s.course n).feedCur j) ∧
    (∀ (i : Nat) (hi : i < addrs.length) (hw : i < ws.length), (∀ j, i < j → (hj : j < addrs.length) → addrs[j] ≠ addrs[i]) →
      wmGet (t.course n).feedCur (addrs[i] - 0x1000) = ws[i]) := by
  intro t
  have ht : t = s.modCourse n (Course.storeFeeds addrs ws) := s.feedStore_window n x addrs ws ha
  have hc : t.course n = (s.course n).storeFeeds addrs ws := by rw [ht, State.course_modCourse_self]
  rw [hc]
  refine ⟨ht ▸ s.modCourse_onlyCourse n _, rfl, fun j hj => ?_, fun i hi hw hlast => ?_⟩
  · refine storeAll_keeps _ (wmGet · j) addrs (fun a hmem m v => mapGet_set_ne _ _ _ fun e => hj ?_) _ ws
    have hlow := (ha a hmem).1
    have hja : j + 0x1000 = a := by omega
    exact hja ▸ hmem
  · refine storeAll_last (fun m a v => wmSet m (a - 0x1000) v) (fun m a => wmGet m (a - 0x1000)) addrs
      (fun m a v => mapGet_set_self _ _ _ _) (fun a hmem b hmem' hab m v => mapGet_set_ne _ _ _ fun e => hab ?_) _ ws i hi hw hlast
    have h1 := (ha a hmem).1
    have h2 := (ha b hmem').1
    omega

/-! ## Reads that the Course serves -/

/-- The first address of a list lies below a bound that all of them respect. -/
theorem headD_lt {addrs : List Nat} {m : Nat} (hm : 0 < m) (h : ∀ a ∈ addrs, a < m) : addrs.headD 0 < m := by
  cases addrs with
  | nil => exact hm
  | cons a as => exact h a List.mem_cons_self

/-- A read of permitted local words (R50, R66). -/
theorem State.issueRead_local (u : State) (n : CourseId) (x : CtxId) (addrs : List Nat) (hu : Unarmed u)
    (ha : ∀ a ∈ addrs, a < 0x10000 ∧ u.nearReadOk n x a = true) :
    u.issueRead n x false addrs = (.done (addrs.map (u.course n).local) 3 false, u) := by
  have hd : addrs.headD 0 < 0x10000 := headD_lt (by decide) fun a h => (ha a h).1
  have htarget : u.readTarget n x false addrs = .near := by
    simp only [State.readTarget, State.dataTarget, nearData, Bool.false_eq_true, if_false]
    exact if_pos (decide_eq_true (by omega))
  have hmbox : (addrs.any fun a => decide (0x10000 ≤ a) && decide (a < 0x10800) && u.nearReadOk n x a && !(u.course n).mboxReady) = false := by
    refine List.any_eq_false.2 fun a h => ?_
    have hlow := (ha a h).1
    simp [show ¬ 0x10000 ≤ a by omega]
  have hok : (addrs.any fun a => !u.nearReadOk n x a) = false := List.any_eq_false.2 fun a h => by simp [(ha a h).2]
  have hlat : dataLat (addrs.headD 0) = 3 := if_pos (by omega)
  have hwords : (addrs.map fun a => if u.nearReadOk n x a then u.nearWord n x a else 0) = addrs.map (u.course n).local := by
    refine List.map_congr_left fun a h => ?_
    rw [if_pos (ha a h).2]
    exact if_pos (ha a h).1
  have hslot : u.readSlot n x false addrs = .done (addrs.map (u.course n).local) 3 false := by
    simp only [State.readSlot, htarget, hmbox, Bool.false_eq_true, if_false, State.nearRead, hok, hlat, hwords]
  have hserved : u.nearServed n x addrs = u := by
    simp only [State.nearServed, hok, Bool.false_eq_true, if_false, State.memReads_unarmed _ _ _ hu]
  simp only [State.issueRead, hslot, htarget, Bool.false_eq_true, if_false, ReadSlot.isDone, if_true, hserved]

/-- A Course whose bus read adds its eight cycles to the foreground (R51). -/
def Course.ioWait (x : CtxId) (c : Course) : Course := if x = .fg then { c with ioStall := c.ioStall + 8 } else c

/-- A read of the bus window (R51, R53). -/
theorem State.issueRead_bus (u : State) (n : CourseId) (x : CtxId) (addrs : List Nat) (ha : ∀ a ∈ addrs, a < 0x400) :
    u.issueRead n x true addrs = (.done (addrs.map (u.busWord n x)) 1 false, u.modCourse n (Course.ioWait x)) := by
  have hd : addrs.headD 0 < 0x400 := headD_lt (by decide) ha
  have htarget : u.readTarget n x true addrs = .near := by
    simp only [State.readTarget, State.ioTarget, if_true, Bool.false_eq_true, if_false]
    rw [if_neg (by omega), if_pos (List.all_eq_true.2 fun a h => decide_eq_true (ha a h))]
  simp only [State.issueRead, State.readSlot, htarget, if_true]
  rfl

/-! ## Loads and inputs alone -/

theorem State.firstUse_unarmed (s : State) (h : SylHdr) (ch : Fin 16) (hu : Unarmed s) : Unarmed (s.firstUse h ch) := by
  rw [Unarmed, State.rbit, State.firstUse_reg _ _ _ _ (by decide)]
  exact hu

theorem State.firstUse_fgWords (s : State) (h : SylHdr) (ch : Fin 16) (n : CourseId) : (s.firstUse h ch).fgWords n = s.fgWords n := by
  rw [State.fgWords, State.fgWords, State.rfld, State.rfld, State.firstUse_reg]
  simp only [regC_DMEM_SPLIT]
  omega

theorem State.firstUse_declTaps (s : State) (h : SylHdr) (ch : Fin 16) (n : CourseId) : (s.firstUse h ch).declTaps n = s.declTaps n := by
  rw [State.declTaps, State.declTaps, State.rfld, State.rfld, State.firstUse_reg]
  simp only [regDLY_DECL]
  omega

theorem State.firstUse_declLines (s : State) (h : SylHdr) (ch : Fin 16) (n : CourseId) : (s.firstUse h ch).declLines n = s.declLines n := by
  rw [State.declLines, State.declLines, State.rfld, State.rfld, State.firstUse_reg]
  simp only [regDLY_DECL]
  omega

theorem State.firstUse_nearReadOk (s : State) (h : SylHdr) (ch : Fin 16) (n : CourseId) (x : CtxId) (a : Nat) :
    (s.firstUse h ch).nearReadOk n x a = s.nearReadOk n x a := by
  simp only [State.nearReadOk, State.firstUse_fgWords, State.firstUse_declTaps]

theorem State.firstUse_nearWriteOk (s : State) (h : SylHdr) (ch : Fin 16) (n : CourseId) (x : CtxId) (a : Nat) :
    (s.firstUse h ch).nearWriteOk n x a = s.nearWriteOk n x a := by
  simp only [State.nearWriteOk, State.firstUse_fgWords, State.firstUse_declLines]

theorem State.firstUse_busWord (s : State) (h : SylHdr) (ch : Fin 16) (n : CourseId) (x : CtxId) (b : Nat) :
    (s.firstUse h ch).busWord n x b = s.busWord n x b := by
  have hbus : (s.firstUse h ch).bus = s.bus := by rw [State.firstUse_frame]
  simp only [State.busWord, State.firstUse_course, hbus]

/-- A read of a form whose data are there at once: pointer update and words start their flight (R57, R66, R89). -/
theorem State.syllable_load {s v : State} {h : SylHdr} {ch : Fin 16} {f : Form} {op : Instr} {io : Bool} {r : Fin 32} {addrs : List Nat}
    {words : List Word} {lat : Nat} (hs : Solo s h) (hu : (soloSyl .agu false op).undefinedIn h.x = false) (hq : Sequential op)
    (hch : agChannel op = some ch) (hread : sylRead ((s.course h.n).ctx h.x) (s.amode h.n h.x) op = some (io, addrs, r))
    (hissue : (s.firstUse h ch).issueRead h.n h.x io addrs = (.done words lat false, v)) (hv : CtxKept h s v)
    (ham : v.amode h.n h.x = s.amode h.n h.x) (hstore : ∀ c am, sylStore c am op = none) (hext : ∀ (t : State) n x c, t.extension n x c op = none)
    (hwait : ∀ y rs, sylRead (((s.course h.n).ctx h.x).waiting y rs) (s.amode h.n h.x) op = some (io, addrs, r))
    (hpost : ∀ y rs cr seq, sylEffects (((s.course h.n).ctx h.x).waiting y rs) cr (s.amode h.n h.x) seq op =
      effPost ((s.course h.n).ctx h.x) (s.amode h.n h.x) ch f) :
    s.syllable h .agu false op = v.issued h (flights (effPost ((s.course h.n).ctx h.x) (s.amode h.n h.x) ch f ++
      effWords ((s.course h.n).ctx h.x) lat r words)) := by
  refine State.syllable_reads (rs := [.done words lat false]) hs hu hq ?_ hv ham rfl hstore hext ?_
  · rw [State.modeError_of_channel s h _ ch hch, State.issueReads, hread]
    simp only [hissue]
    rfl
  · rw [bundleEffects, hwait]
    simp only [hpost, bundleEffects, List.head?_cons, Option.map_some, Option.getD_some, readEffects, Bool.false_eq_true, if_false,
      List.append_nil]
    rfl

/-- A load of permitted local words. -/
theorem exec_ld_local (s : State) (h : SylHdr) (ch : Fin 16) (f : Form) (r : Fin 32) (sz : Size) (hs : Solo s h) (hfit : r.val + sz.count ≤ 32) :
    let c := (s.course h.n).ctx h.x
    let am := s.amode h.n h.x
    let addrs := accessAddrs c (addrMode am ch) ch f sz.count
    (∀ a ∈ addrs, a < 0x10000 ∧ s.nearReadOk h.n h.x a = true) →
      exec (.ld h ch f r sz) s = .next ((s.firstUse h ch).issued h
        (flights (effPost c am ch f ++ effWords c 3 r (addrs.map (s.course h.n).local)))) := by
  intro c am addrs ha
  have he : exec (.ld h ch f r sz) s = .next (s.syllable h .agu (!regsFit r sz) (.ld h ch f r sz)) := rfl
  rw [he, regsFit, decide_eq_true hfit]
  refine congrArg Host.Outcome.next (State.syllable_load (io := false) (r := r) (addrs := addrs) hs rfl ⟨fun _ => rfl, fun _ => rfl, rfl⟩ rfl rfl ?_
    (s.firstUse_ctxKept h ch) (s.firstUse_amode h ch) (fun _ _ => rfl) (fun _ _ _ _ => rfl) (fun _ _ => rfl) (fun _ _ _ _ => rfl))
  rw [State.issueRead_local _ _ _ _ (s.firstUse_unarmed h ch hs.2.2.2.2.2.2)
    fun a hmem => by rw [State.firstUse_nearReadOk]; exact ha a hmem, State.firstUse_course]

/-- An input from the bus window. -/
theorem exec_inp_bus (s : State) (h : SylHdr) (ch : Fin 16) (f : Form) (r : Fin 32) (sz : Size) (hs : Solo s h) (hfit : r.val + sz.count ≤ 32) :
    let c := (s.course h.n).ctx h.x
    let am := s.amode h.n h.x
    let addrs := accessAddrs c (addrMode am ch) ch f sz.count
    (∀ a ∈ addrs, a < 0x400) →
      exec (.inp h ch f r sz) s = .next (((s.firstUse h ch).modCourse h.n (Course.ioWait h.x)).issued h
        (flights (effPost c am ch f ++ effWords c 1 r (addrs.map (s.busWord h.n h.x))))) := by
  intro c am addrs ha
  have he : exec (.inp h ch f r sz) s = .next (s.syllable h .agu (!regsFit r sz) (.inp h ch f r sz)) := rfl
  have hkeep (k : Course) : (k.ioWait h.x).ctx h.x = k.ctx h.x ∧ (k.ioWait h.x).phase = k.phase ∧ (k.ioWait h.x).preemptDue = k.preemptDue := by
    unfold Course.ioWait
    split <;> exact ⟨by cases h.x <;> rfl, rfl, rfl⟩
  have hv : CtxKept h s ((s.firstUse h ch).modCourse h.n (Course.ioWait h.x)) := by
    obtain ⟨hctx, hphase, hdue⟩ := hkeep (s.course h.n)
    constructor
    all_goals rw [State.course_modCourse_self, State.firstUse_course]
    · exact hctx
    · exact hphase
    · exact hdue
  rw [he, regsFit, decide_eq_true hfit]
  refine congrArg Host.Outcome.next (State.syllable_load (io := true) (r := r) (addrs := addrs) hs rfl ⟨fun _ => rfl, fun _ => rfl, rfl⟩ rfl rfl ?_
    hv (s.firstUse_amode h ch) (fun _ _ => rfl) (fun _ _ _ _ => rfl) (fun _ _ => rfl) (fun _ _ _ _ => rfl))
  rw [State.issueRead_bus _ _ _ _ ha, show (s.firstUse h ch).busWord h.n h.x = s.busWord h.n h.x from
    funext fun b => s.firstUse_busWord h ch h.n h.x b]

/-! ## Stores alone -/

/-- A Course change that does not meet the contexts. -/
theorem State.stalled_modCourse_withCtx (v : State) (h : SylHdr) (y : Syl) (rs : List ReadSlot) (f : Course → Course)
    (hf : ∀ k c, f (k.setCtx h.x c) = (f k).setCtx h.x c) (c : Ctx) :
    ((v.stalled h y rs).modCourse h.n f).withCtx h.n h.x c = (v.modCourse h.n f).withCtx h.n h.x c := by
  simp only [State.stalled, State.withCtx, State.modCourse_modCourse, hf, Course.setCtx_setCtx]

theorem State.ctxKept_modCourse (h : SylHdr) (s v : State) (f : Course → Course) (hv : CtxKept h s v) (hctx : ∀ k, (f k).ctx h.x = k.ctx h.x)
    (hphase : ∀ k, (f k).phase = k.phase) (hdue : ∀ k, (f k).preemptDue = k.preemptDue) : CtxKept h s (v.modCourse h.n f) := by
  constructor
  all_goals rw [State.course_modCourse_self]
  · rw [hctx, hv.ctx]
  · rw [hphase, hv.phase]
  · rw [hdue, hv.preemptDue]

/-- A store whose change of its Course does not meet the contexts, and that is not refused: the words take their places, and the pointer update starts its flight (R51, R57, R92). -/
theorem State.syllable_store {s : State} {h : SylHdr} {ch : Fin 16} {f : Form} {op : Instr} {io : Bool} {addrs : List Nat}
    {words : List Word} {sat : Bool} {g : Course → Course} (hs : Solo s h) (hu : (soloSyl .agu false op).undefinedIn h.x = false) (hq : Sequential op)
    (hch : agChannel op = some ch) (hread : ∀ c am, sylRead c am op = none) (hext : ∀ (t : State) n x c, t.extension n x c op = none)
    (hstore : ∀ y rs, sylStore (((s.course h.n).ctx h.x).waiting y rs) (s.amode h.n h.x) op = some (io, addrs, words, sat))
    (hpost : ∀ y rs cr seq, sylEffects (((s.course h.n).ctx h.x).waiting y rs) cr (s.amode h.n h.x) seq op =
      effPost ((s.course h.n).ctx h.x) (s.amode h.n h.x) ch f)
    (hroom : ∀ r, ((s.firstUse h ch).stalled h (soloSyl .agu false op) []).storeTarget h.n h.x io addrs = .ridge r → (s.course h.n).posted.length < 8)
    (hok : ((s.firstUse h ch).stalled h (soloSyl .agu false op) []).nearStoreRefused h.n h.x io addrs = false)
    (hrun : ((s.firstUse h ch).stalled h (soloSyl .agu false op) []).runStore h.n h.x io addrs words =
      ((s.firstUse h ch).stalled h (soloSyl .agu false op) []).modCourse h.n g)
    (hg : ∀ k c, g (k.setCtx h.x c) = (g k).setCtx h.x c) (hctx : ∀ k, (g k).ctx h.x = k.ctx h.x)
    (hphase : ∀ k, (g k).phase = k.phase) (hdue : ∀ k, (g k).preemptDue = k.preemptDue) :
    s.syllable h .agu false op = ((s.firstUse h ch).modCourse h.n g).issued h
      (flights (effPost ((s.course h.n).ctx h.x) (s.amode h.n h.x) ch f ++ if sat then [.stick flagSV] else [])) := by
  refine State.syllable_effect (v := s.firstUse h ch) (rs := []) (es := []) (ws := if sat then [.stick flagSV] else [])
    (te := (s.firstUse h ch).stalled h (soloSyl .agu false op) [])
    (tw := ((s.firstUse h ch).stalled h (soloSyl .agu false op) []).modCourse h.n g) hs hu hq ?_ (s.firstUse_ctxKept h ch) (s.firstUse_amode h ch)
    ?_ ?_ ?_ (State.stalled_modCourse_withCtx _ h _ _ g hg) (State.ctxKept_modCourse h s _ g (s.firstUse_ctxKept h ch) hctx hphase hdue) ?_
  · rw [State.modeError_of_channel s h _ ch hch, State.issueReads, hread]
    rfl
  · have hc : (((s.firstUse h ch).stalled h (soloSyl .agu false op) []).course h.n).ctx h.x =
        ((s.course h.n).ctx h.x).waiting (soloSyl .agu false op) [] := by
      rw [State.stalled, State.course_modCourse_self, Course.ctx_setCtx_self, State.firstUse_course]
    have hp : (((s.firstUse h ch).stalled h (soloSyl .agu false op) []).course h.n).posted = (s.course h.n).posted := by
      rw [State.stalled, State.course_modCourse_self, State.firstUse_course]
      cases h.x <;> rfl
    have ham : ((s.firstUse h ch).stalled h (soloSyl .agu false op) []).amode h.n h.x = s.amode h.n h.x := s.firstUse_amode h ch
    simp only [State.bundleReady, soloStall, bundleOps_solo h.x .agu op hu, State.postedOf, List.filterMap_cons, List.filterMap_nil, hc, ham, hp,
      hstore, List.all_nil, Bool.true_and]
    cases ht : ((s.firstUse h ch).stalled h (soloSyl .agu false op) []).storeTarget h.n h.x io addrs with
    | near => rfl
    | refused k => rfl
    | ridge r => simpa using hroom r ht
  · simp only [State.runExtension, List.findSome?_cons, hext, List.findSome?_nil]
  · simp only [State.runStores, hstore, hok, hrun, Bool.false_eq_true, if_false, List.append_nil]
  · simp only [bundleEffects, hread, hpost, List.append_nil]

/-- The target and the refusals of a store of permitted local words. -/
theorem State.runStore_local (t : State) (n : CourseId) (x : CtxId) (addrs : List Nat) (words : List Word)
    (ha : ∀ a ∈ addrs, a < 0x10000 ∧ t.nearWriteOk n x a = true) :
    t.storeTarget n x false addrs = .near ∧ t.nearStoreRefused n x false addrs = false ∧
    t.runStore n x false addrs words = t.modCourse n (Course.storeLocal addrs words) := by
  have hd : addrs.headD 0 < 0x10000 := headD_lt (by decide) fun a h => (ha a h).1
  have htarget : t.storeTarget n x false addrs = .near := by
    simp only [State.storeTarget, State.dataTarget, nearData, Bool.false_eq_true, if_false]
    exact if_pos (decide_eq_true (by omega))
  refine ⟨htarget, ?_, ?_⟩
  · simp only [State.nearStoreRefused, htarget, Bool.false_eq_true, if_false]
    exact List.any_eq_false.2 fun a h => by simp [(ha a h).2]
  · simp only [State.runStore, htarget, Bool.false_eq_true, if_false, State.nearStore_local _ _ _ _ _ ha]

/-- The target and the refusals of an output to the feed window. -/
theorem State.runStore_feed (t : State) (n : CourseId) (addrs : List Nat) (words : List Word) (hne : addrs ≠ [])
    (ha : ∀ a ∈ addrs, 0x1000 ≤ a ∧ a ≤ 0x10FF) :
    t.storeTarget n .fg true addrs = .near ∧ t.nearStoreRefused n .fg true addrs = false ∧
    t.runStore n .fg true addrs words = t.modCourse n (Course.storeFeeds addrs words) := by
  have hd : 0x1000 ≤ addrs.headD 0 ∧ addrs.headD 0 ≤ 0x10FF := by
    cases addrs with
    | nil => exact absurd rfl hne
    | cons a as => exact ha a List.mem_cons_self
  have htarget : t.storeTarget n .fg true addrs = .near := by
    simp only [State.storeTarget, State.ioTarget, if_true]
    rw [if_neg (by omega), if_pos ⟨trivial, hd⟩]
  refine ⟨htarget, ?_, ?_⟩
  · simp only [State.nearStoreRefused, htarget, if_true]
    refine List.any_eq_false.2 fun a h => ?_
    have hin := ha a h
    simp [show ¬ a < 0x1000 by omega, show ¬ 0x10FF < a by omega]
  · simp only [State.runStore, htarget, if_true, State.feedStore_window _ _ _ _ _ ha]

theorem Course.storeLocal_setCtx (addrs : List Nat) (ws : List Word) (k : Course) (x : CtxId) (c : Ctx) :
    (k.setCtx x c).storeLocal addrs ws = (k.storeLocal addrs ws).setCtx x c := by cases x <;> rfl

theorem Course.storeFeeds_setCtx (addrs : List Nat) (ws : List Word) (k : Course) (x : CtxId) (c : Ctx) :
    (k.setCtx x c).storeFeeds addrs ws = (k.storeFeeds addrs ws).setCtx x c := by cases x <;> rfl

/-- A store into local memory issues alone (R50, R89, R92). -/
theorem exec_st_local (s : State) (h : SylHdr) (ch : Fin 16) (f : Form) (src : StSrc) (hs : Solo s h) (hwf : src.wf = true) :
    let c := (s.course h.n).ctx h.x
    let am := s.amode h.n h.x
    let addrs := accessAddrs c (addrMode am ch) ch f (storeCount src)
    (∀ a ∈ addrs, a < 0x10000 ∧ s.nearWriteOk h.n h.x a = true) →
      exec (.st h ch f src) s = .next (((s.firstUse h ch).nearStore h.n h.x addrs (storeWords c src).1).issued h
        (flights (effPost c am ch f ++ if (storeWords c src).2 then [.stick flagSV] else []))) := by
  intro c am addrs ha
  have he : exec (.st h ch f src) s = .next (s.syllable h .agu (!src.wf) (.st h ch f src)) := rfl
  have hu : ∀ a ∈ addrs, a < 0x10000 ∧ (s.firstUse h ch).nearWriteOk h.n h.x a = true :=
    fun a hmem => by rw [State.firstUse_nearWriteOk]; exact ha a hmem
  obtain ⟨htarget, hok, hrun⟩ := State.runStore_local ((s.firstUse h ch).stalled h (soloSyl .agu false (.st h ch f src)) []) h.n h.x addrs
    (storeWords c src).1 hu
  rw [he, hwf, State.nearStore_local _ _ _ _ _ hu]
  refine congrArg Host.Outcome.next (State.syllable_store hs rfl ⟨fun _ => rfl, fun _ => rfl, rfl⟩ rfl (fun _ _ => rfl) (fun _ _ _ _ => rfl)
    (fun _ _ => ?_) (fun _ _ _ _ => rfl) (fun r hr => nomatch htarget.symm.trans hr) hok hrun
    (fun k v => k.storeLocal_setCtx _ _ _ v) (fun k => by cases h.x <;> rfl) (fun _ => rfl) (fun _ => rfl))
  cases src <;> rfl

theorem accessAddrs_length (c : Ctx) (m : AddrMode) (i : Fin 16) (f : Form) (n : Nat) : (accessAddrs c m i f n).length = n := by
  rw [accessAddrs, List.length_map, List.length_range]

theorem storeCount_pos (src : StSrc) : 0 < storeCount src := by
  cases src with
  | regs r sz => cases sz <;> exact Nat.succ_pos _
  | acc a => exact Nat.succ_pos _

/-- An output to the feed window issues alone (R53, R54, R92). -/
theorem exec_out_feed (s : State) (h : SylHdr) (ch : Fin 16) (f : Form) (src : StSrc) (hs : Solo s h) (hwf : src.wf = true) (hx : h.x = .fg) :
    let c := (s.course h.n).ctx h.x
    let am := s.amode h.n h.x
    let addrs := accessAddrs c (addrMode am ch) ch f (storeCount src)
    (∀ a ∈ addrs, 0x1000 ≤ a ∧ a ≤ 0x10FF) →
      exec (.out h ch f src) s = .next (((s.firstUse h ch).feedStore h.n h.x addrs (storeWords c src).1).issued h
        (flights (effPost c am ch f ++ if (storeWords c src).2 then [.stick flagSV] else []))) := by
  intro c am addrs ha
  have he : exec (.out h ch f src) s = .next (s.syllable h .agu (!src.wf) (.out h ch f src)) := rfl
  have hne : addrs ≠ [] := by
    have hlen : addrs.length = storeCount src := accessAddrs_length c (addrMode am ch) ch f (storeCount src)
    exact List.ne_nil_of_length_pos (hlen ▸ storeCount_pos src)
  obtain ⟨htarget, hok, hrun⟩ := State.runStore_feed ((s.firstUse h ch).stalled h (soloSyl .agu false (.out h ch f src)) []) h.n addrs
    (storeWords c src).1 hne ha
  rw [he, hwf, State.feedStore_window _ _ _ _ _ ha]
  refine congrArg Host.Outcome.next (State.syllable_store (op := .out h ch f src) (io := true) (addrs := addrs) (words := (storeWords c src).1) hs rfl ⟨fun _ => rfl, fun _ => rfl, rfl⟩ rfl (fun _ _ => rfl)
    (fun _ _ _ _ => rfl) (fun _ _ => ?_) (fun _ _ _ _ => rfl) (fun r hr => ?_) ?_ ?_
    (fun k v => k.storeFeeds_setCtx _ _ _ v) (fun k => by cases h.x <;> rfl) (fun _ => rfl) (fun _ => rfl))
  · cases src <;> rfl
  · rw [hx] at hr
    exact nomatch htarget.symm.trans hr
  · rw [hx]
    exact hok
  · rw [hx]
    exact hrun

/-- Settles O14: loads, inputs, stores and outputs alone, what the stores change, and the words and bytes of a memory. -/
theorem nearAccesses : Obligations.NearAccesses := by
  unfold Obligations.NearAccesses
  refine ⟨?loads, ?stores, fun s n x addrs ws _ ha => s.nearStore_effect n x addrs ws ha, fun s n x addrs ws _ ha => s.feedStore_effect n x addrs ws ha,
    ?bytes⟩
  case loads =>
    intro s h ch f r sz hs hfit c am addrs u
    refine ⟨exec_ld_local s h ch f r sz hs hfit, fun ha => ?_⟩
    have hin := exec_inp_bus s h ch f r sz hs hfit ha
    refine ⟨fun hx => hin.trans ?_, fun hx => hin.trans ?_⟩
    · have hnone : Course.ioWait h.x = id := by
        funext k
        exact if_neg (by rw [hx]; decide)
      rw [hnone, State.modCourse_id _ _ _ rfl]
    · have height : Course.ioWait h.x = fun k => { k with ioStall := k.ioStall + 8 } := by
        funext k
        exact if_pos hx
      rw [height, State.modCourse, State.firstUse_course]
  case stores =>
    intro s h ch f r sz a hs hfit c am addrs ws v post sv u
    have hregs : (StSrc.regs r sz).wf = true := decide_eq_true hfit
    have hnil : post ++ (if false = true then [.stick flagSV] else []) = post := List.append_nil post
    refine ⟨fun ha => ?_, exec_st_local s h ch f (.acc a) hs rfl, fun ha hx => ?_, fun ha hx => exec_out_feed s h ch f (.acc a) hs rfl hx ha⟩
    · refine (exec_st_local s h ch f (.regs r sz) hs hregs ha).trans ?_
      exact congrArg (fun e => Host.Outcome.next ((u.nearStore h.n h.x (addrs sz.count) ws).issued h (flights e))) hnil
    · refine (exec_out_feed s h ch f (.regs r sz) hs hregs hx ha).trans ?_
      exact congrArg (fun e => Host.Outcome.next ((u.feedStore h.n h.x (addrs sz.count) ws).issued h (flights e))) hnil
  case bytes =>
    intro m w v
    refine ⟨memWord_set_self m w v, fun b hb => (byteGet_setWord m w b v).trans (if_neg hb), fun i hi => ?_⟩
    rw [byteGet_setWord, if_pos (by omega), show (4 * w + i) % 4 = i by omega]

end Sys2Proof.Machine
end

section
/-! Accesses of a Course that go through the Ridge (R51, R66, R71, R90). -/

namespace Sys2Proof.Machine

-- One theorem after another, so that the compile of the whole text stays within its memory.
set_option Elab.async false

/-! ## The target of an access does not depend on the report of a reserved mode -/

theorem State.firstUse_scrOwner (s : State) (h : SylHdr) (ch : Fin 16) (b : Nat) : (s.firstUse h ch).scrOwner b = s.scrOwner b := by
  have hown : (s.firstUse h ch).newOwner = s.newOwner := by rw [State.firstUse_frame]
  have hreg : (s.firstUse h ch).reg (regSCR_OWN b) = s.reg (regSCR_OWN b) :=
    State.firstUse_reg s h ch _ (by simp only [regSCR_OWN]; omega)
  unfold State.scrOwner State.scrPend State.rfld State.rbit
  rw [hown, hreg]

theorem State.firstUse_scrMay (s : State) (h : SylHdr) (ch : Fin 16) (m b : Nat) : (s.firstUse h ch).scrMay m b = s.scrMay m b := by
  rw [State.scrMay, State.scrMay, State.firstUse_scrOwner]

theorem State.firstUse_dramRefusal (s : State) (h : SylHdr) (ch : Fin 16) (m w : Nat) (write : Bool) :
    (s.firstUse h ch).dramRefusal m w write = s.dramRefusal m w write := by
  have hreg (r : Nat) : (s.firstUse h ch).reg (regDLY_PART r) = s.reg (regDLY_PART r) :=
    State.firstUse_reg s h ch _ (by simp only [regDLY_PART]; omega)
  simp only [State.dramRefusal, State.dramRegion, hreg]

theorem State.firstUse_dataTarget (s : State) (h : SylHdr) (ch : Fin 16) (n : CourseId) (x : CtxId) (write : Bool) (addrs : List Nat) :
    (s.firstUse h ch).dataTarget n x write addrs = s.dataTarget n x write addrs := by
  simp only [State.dataTarget, State.farData, State.firstUse_scrMay, State.firstUse_dramRefusal]

theorem State.firstUse_storeTarget (s : State) (h : SylHdr) (ch : Fin 16) (n : CourseId) (x : CtxId) (io : Bool) (addrs : List Nat) :
    (s.firstUse h ch).storeTarget n x io addrs = s.storeTarget n x io addrs := by
  simp only [State.storeTarget, State.firstUse_dataTarget]

theorem State.firstUse_readTarget (s : State) (h : SylHdr) (ch : Fin 16) (n : CourseId) (x : CtxId) (io : Bool) (addrs : List Nat) :
    (s.firstUse h ch).readTarget n x io addrs = s.readTarget n x io addrs := by
  simp only [State.readTarget, State.firstUse_dataTarget]

theorem State.stalled_storeTarget (v : State) (h : SylHdr) (y : Syl) (rs : List ReadSlot) (n : CourseId) (x : CtxId) (io : Bool) (addrs : List Nat) :
    (v.stalled h y rs).storeTarget n x io addrs = v.storeTarget n x io addrs := rfl

/-! ## Posted writes -/

/-- A Course whose posted-write buffer takes one more write. -/
def Course.post (p : Posted) (k : Course) : Course := { k with posted := k.posted ++ [p] }

/-- A store that goes through the Ridge enters the posted-write buffer with its data, and the program goes on (R51). -/
theorem State.syllable_posted {s : State} {h : SylHdr} {ch : Fin 16} {f : Form} {op : Instr} {io : Bool} {addrs : List Nat} {words : List Word}
    {q : RidgeReq} (hs : Solo s h) (hu : (soloSyl .agu false op).undefinedIn h.x = false) (hq : Sequential op) (hch : agChannel op = some ch)
    (hread : ∀ c am, sylRead c am op = none) (hext : ∀ (t : State) n x c, t.extension n x c op = none)
    (hstore : ∀ y rs, sylStore (((s.course h.n).ctx h.x).waiting y rs) (s.amode h.n h.x) op = some (io, addrs, words, false))
    (hpost : ∀ y rs cr seq, sylEffects (((s.course h.n).ctx h.x).waiting y rs) cr (s.amode h.n h.x) seq op =
      effPost ((s.course h.n).ctx h.x) (s.amode h.n h.x) ch f)
    (htarget : s.storeTarget h.n h.x io addrs = .ridge q) (hroom : (s.course h.n).posted.length < 8) :
    s.syllable h .agu false op = ((s.firstUse h ch).setCourse h.n ((s.course h.n).post { x := h.x, req := q, data := words, granted := false })).issued h
      (flights (effPost ((s.course h.n).ctx h.x) (s.amode h.n h.x) ch f)) := by
  have ht : ((s.firstUse h ch).stalled h (soloSyl .agu false op) []).storeTarget h.n h.x io addrs = .ridge q := by
    rw [State.stalled_storeTarget, State.firstUse_storeTarget, htarget]
  refine (State.syllable_store (f := f) hs hu hq hch hread hext hstore hpost (fun _ _ => hroom) ?_ ?_ (g := Course.post { x := h.x, req := q, data := words, granted := false })
    (fun k c => by cases h.x <;> rfl) (fun k => by cases h.x <;> rfl) (fun _ => rfl) (fun _ => rfl)).trans ?_
  · simp only [State.nearStoreRefused, ht]
  · simp only [State.runStore, ht]
    rfl
  · rw [State.modCourse, State.firstUse_course]
    exact congrArg (fun l => State.issued _ h (flights l)) (List.append_nil _)

/-! ## Loads through the Ridge -/

/-- The stall of a load that waits for the data of its grant, or has them. -/
def ridgeStall (op : Instr) (q : RidgeReq) (o : Option (List Word)) : Stall := soloStall (soloSyl .agu false op) [.ridge q o]

/-- A syllable whose bundle is not ready after its reads: it stalls with nothing else done (R51). -/
theorem State.syllable_stalls {s v : State} {h : SylHdr} {u : SylUnit} {op : Instr} {rs : List ReadSlot} (hs : Solo s h)
    (hu : (soloSyl u false op).undefinedIn h.x = false)
    (hread : (s.modeError h.n h.x [op]).issueReads h.n h.x ((s.course h.n).ctx h.x) (s.amode h.n h.x) [op] = (rs, v)) (hv : CtxKept h s v)
    (hready : (v.stalled h (soloSyl u false op) rs).bundleReady h.n h.x (soloStall (soloSyl u false op) rs) = false) :
    s.syllable h u false op = v.stalled h (soloSyl u false op) rs := by
  have hset := Course.mayIssue_settled _ _ hs.2.2.2.1 hs.2.2.2.2.2.1
  rw [State.syllable_alone s h u false op hs]
  simp only [bundleOps_solo h.x u op hu, hread]
  show (v.stalled h (soloSyl u false op) rs).resumeStall h.n h.x = _
  have hctx : ((v.stalled h (soloSyl u false op) rs).course h.n).ctx h.x = ((v.course h.n).ctx h.x).waiting (soloSyl u false op) rs := by
    rw [State.stalled, State.course_modCourse_self, Course.ctx_setCtx_self]
  rw [State.resumeStall_waits _ _ _ _ (by rw [hctx]; rfl) rfl hready]
  refine State.settle_id _ _ ?_
  rw [State.stalled, State.course_modCourse_self, Course.setCtx_phase, Course.setCtx_preemptDue, hv.phase, hv.preemptDue]
  exact hset

/-- A load through the Ridge stalls its bundle with nothing else done (R51). -/
theorem exec_ld_stalls (s : State) (h : SylHdr) (ch : Fin 16) (f : Form) (r : Fin 32) (sz : Size) (q : RidgeReq) (hs : Solo s h)
    (hfit : r.val + sz.count ≤ 32) :
    let k := s.course h.n
    let c := k.ctx h.x
    s.readTarget h.n h.x false (accessAddrs c (addrMode (s.amode h.n h.x) ch) ch f sz.count) = .ridge q →
      exec (.ld h ch f r sz) s = .next ((s.firstUse h ch).stalled h (soloSyl .agu false (.ld h ch f r sz)) [.ridge q none]) := by
  intro k c htarget
  have he : exec (.ld h ch f r sz) s = .next (s.syllable h .agu (!regsFit r sz) (.ld h ch f r sz)) := rfl
  have hissue : (s.firstUse h ch).issueRead h.n h.x false (accessAddrs c (addrMode (s.amode h.n h.x) ch) ch f sz.count) =
      (.ridge q none, s.firstUse h ch) := by
    simp only [State.issueRead, State.readSlot, State.firstUse_readTarget, htarget]
  rw [he, regsFit, decide_eq_true hfit]
  refine congrArg Host.Outcome.next (State.syllable_stalls hs rfl ?_ (s.firstUse_ctxKept h ch) ?_)
  · rw [State.modeError_of_channel s h _ ch rfl, State.issueReads, sylRead]
    simp only [show (s.firstUse h ch).issueRead h.n h.x false (accessAddrs ((s.course h.n).ctx h.x) (addrMode (s.amode h.n h.x) ch) ch f sz.count) =
      (.ridge q none, s.firstUse h ch) from hissue]
    rfl
  · rfl

/-- The data of a grant reach the load that waits for them: its words start their flight, and the bundle is finished (R51, R66, R71). -/
theorem exec_ridgeReadReturn_load (s : State) (h : SylHdr) (ch : Fin 16) (f : Form) (r : Fin 32) (sz : Size) (q : RidgeReq) (xs : List Word) :
    let c := (s.course h.n).ctx h.x
    c.stall = some (ridgeStall (.ld h ch f r sz) q (some xs)) → c.bundle = [] → c.rep = none →
      exec (.ridgeReadReturn h.n h.x) s = .next ((s.issued h (flights (effPost c (s.amode h.n h.x) ch f ++ effWords c 1 r xs))).settle h.n) := by
  intro c hstall hbundle hrep
  let y := soloSyl .agu false (.ld h ch f r sz)
  have hctx : ((s.stalled h y [.done xs 1 false]).course h.n).ctx h.x = c.waiting y [.done xs 1 false] := by
    rw [State.stalled, State.course_modCourse_self, Course.ctx_setCtx_self]
  have he : exec (.ridgeReadReturn h.n h.x) s = .next ((s.stalled h y [.done xs 1 false]).resumeStall h.n h.x) := by
    show execRidgeReadReturn h.n h.x s = _
    rw [execRidgeReadReturn]
    simp only [show ((s.course h.n).ctx h.x).stall = some (ridgeStall (.ld h ch f r sz) q (some xs)) from hstall]
    rfl
  have hcomplete := State.complete_one (s.stalled h y [.done xs 1 false]) h.n h.x .agu (.ld h ch f r sz) [.done xs 1 false] rfl
    ⟨fun _ => rfl, fun _ => rfl, rfl⟩ (by rw [hctx]; exact hbundle)
  rw [he, State.resumeStall_ready _ _ _ _ (by rw [hctx]; rfl) rfl (by rw [hctx]; exact hrep) rfl, hcomplete]
  simp only [hctx]
  refine congrArg (fun t => Host.Outcome.next (State.settle t h.n)) (Eq.trans (State.stalled_withCtx s h y _ _) ?_)
  have hfl : effPost c (s.amode h.n h.x) ch f ++ (effWords c 1 r xs ++ []) ++ [] ++ [] ++ [] =
      effPost c (s.amode h.n h.x) ch f ++ effWords c 1 r xs := by simp only [List.append_nil]
  rw [State.issued_eq_withCtx s h c _ rfl]
  exact congrArg (s.withCtx h.n h.x) ((Ctx.issued_stall c c.bundle _ _).trans (congrArg (fun l => c.issued (flights l)) hfl))

/-- A granted posted write leaves the buffer; no stalled bundle waits for the room (R51). -/
theorem exec_postedWriteAccept_granted (s : State) (n : CourseId) (p : Posted) (ps : List Posted) (hposted : (s.course n).posted = p :: ps)
    (hgranted : p.granted = true) (hfg : (s.course n).fg.stall = none) (hbg : (s.course n).bg.stall = none) :
    exec (.postedWriteAccept n) s = .next (s.setCourse n { s.course n with posted := ps }) := by
  show execPostedWriteAccept n s = _
  have hnone (x : CtxId) : ((s.modCourse n fun c => { c with posted := ps }).course n |>.ctx x).stall = none := by
    rw [State.course_modCourse_self]
    cases x
    · exact hfg
    · exact hbg
  have hresume (x : CtxId) : (s.modCourse n fun c => { c with posted := ps }).resumeStall n x = s.modCourse n fun c => { c with posted := ps } := by
    rw [State.resumeStall]
    simp only [hnone x]
  simp only [execPostedWriteAccept, hposted, hgranted, if_true, hresume, hfg, Option.isSome_none, Bool.false_and, Bool.false_eq_true, if_false]
  rfl

/-- Settles O15: posted writes, the stall and the return of a load, and the acceptance of a granted write. -/
theorem ridgeAccesses : Obligations.RidgeAccesses := by
  unfold Obligations.RidgeAccesses
  refine ⟨?accesses, exec_postedWriteAccept_granted⟩
  intro s h ch f r sz q xs _ _ hfit k c am addrs ws u p ldSyl waiting
  have hwf : (StSrc.regs r sz).wf = true := decide_eq_true hfit
  refine ⟨fun hs ht hroom => ?st, fun hs ht hroom => ?out, fun hs ht => ?ld, fun hstall hbundle hrep _ =>
    exec_ridgeReadReturn_load s h ch f r sz q xs hstall hbundle hrep⟩
  case st =>
    have he : exec (.st h ch f (.regs r sz)) s = .next (s.syllable h .agu (!(StSrc.regs r sz).wf) (.st h ch f (.regs r sz))) := rfl
    rw [he, hwf]
    exact congrArg Host.Outcome.next (State.syllable_posted hs rfl ⟨fun _ => rfl, fun _ => rfl, rfl⟩ rfl (fun _ _ => rfl) (fun _ _ _ _ => rfl)
      (fun _ _ => rfl) (fun _ _ _ _ => rfl) ht hroom)
  case out =>
    have he : exec (.out h ch f (.regs r sz)) s = .next (s.syllable h .agu (!(StSrc.regs r sz).wf) (.out h ch f (.regs r sz))) := rfl
    rw [he, hwf]
    exact congrArg Host.Outcome.next (State.syllable_posted hs rfl ⟨fun _ => rfl, fun _ => rfl, rfl⟩ rfl (fun _ _ => rfl) (fun _ _ _ _ => rfl)
      (fun _ _ => rfl) (fun _ _ _ _ => rfl) ht hroom)
  case ld =>
    obtain ⟨-, -, -, -, hbundle, -, -⟩ := id hs
    rw [exec_ld_stalls s h ch f r sz q hs hfit ht, State.stalled, State.modCourse, State.firstUse_course]
    have hc : c.waiting ldSyl [.ridge q none] = { c with bundle := [], stall := some (waiting none) } := by
      rw [← show c.bundle = [] from hbundle]
      rfl
    exact congrArg (fun v => Host.Outcome.next (u.setCourse h.n (k.setCtx h.x v))) hc

end Sys2Proof.Machine
end

section
/-! Extension instructions (R103 to R106, R235), and the step of an equaliser section (R152). -/

namespace Sys2Proof.Machine

-- One theorem after another, so that the compile of the whole text stays within its memory.
set_option Elab.async false

/-! ## What commutes with a change of a context -/

theorem State.stalled_eq_withCtx (s : State) (h : SylHdr) (y : Syl) (rs : List ReadSlot) :
    s.stalled h y rs = s.withCtx h.n h.x (((s.course h.n).ctx h.x).waiting y rs) := rfl

theorem State.derr_withCtx (s : State) (n m : CourseId) (x z : CtxId) (c : Ctx) (write : Bool) :
    (s.withCtx n x c).derr m z .plain write = (s.derr m z .plain write).withCtx n x c := by
  unfold State.derr
  dsimp only
  rw [State.setRbit_withCtx, State.faultOccurs_withCtx]

theorem State.derr_ctxKept (s : State) (h : SylHdr) (m : CourseId) (z : CtxId) (write : Bool) : CtxKept h s (s.derr m z .plain write) := by
  have hcourse : (s.derr m z .plain write).course h.n = s.course h.n ∨
      (s.derr m z .plain write).course h.n = { s.course h.n with resetReq := true } :=
    State.faultOccurs_course (s.setRbit (regC_STATUS m) (match z with | .fg => 18 | .bg => 19)) h.n (8 + m.val)
  rcases hcourse with e | e
  · constructor
    all_goals rw [e]
  · constructor
    all_goals rw [e]
    cases h.x <;> rfl

/-- A function of the state that changes its Course beside the contexts. -/
theorem State.withCtx_modCourse (s : State) (n : CourseId) (x : CtxId) (c : Ctx) (f : Course → Course)
    (hf : ∀ k c, f (k.setCtx x c) = (f k).setCtx x c) : (s.withCtx n x c).modCourse n f = (s.modCourse n f).withCtx n x c := by
  simp only [State.withCtx, State.modCourse_modCourse, hf]

/-! ## An extension operation that issues alone -/

section
variable {s X : State} {h : SylHdr} {op : Instr} {dd : Fin 32} {lat : Nat} {v : Word}

/-- An operation of the coprocessor class: it reaches no memory, uses no address channel and does not touch the sequence of bundles. -/
structure ExtensionOp (op : Instr) : Prop where
  noRead : ∀ c am, sylRead c am op = none
  noStore : ∀ c am, sylStore c am op = none
  noChannel : ∀ (t : State) n x, t.modeError n x [op] = t
  noEffect : ∀ c cr am seq, sylEffects c cr am seq op = []
  sequential : Sequential op

/-- What an extension operation leaves is its coprocessor's result and state (R103). -/
theorem State.syllable_extension {es : List Eff} (hs : Solo s h) (hu : (soloSyl .alu false op).undefinedIn h.x = false) (ho : ExtensionOp op)
    (hrun : (s.stalled h (soloSyl .alu false op) []).runExtension h.n h.x (((s.course h.n).ctx h.x).waiting (soloSyl .alu false op) []) [op] =
      (es, X.withCtx h.n h.x (((s.course h.n).ctx h.x).waiting (soloSyl .alu false op) []))) (hk : CtxKept h s X) :
    s.syllable h .alu false op = X.issued h (flights es) := by
  refine State.syllable_effect (v := s) (rs := []) (ws := [])
    (tw := X.withCtx h.n h.x (((s.course h.n).ctx h.x).waiting (soloSyl .alu false op) [])) hs hu ho.sequential ?_ ⟨rfl, rfl, rfl⟩ rfl ?_ hrun ?_
    (fun c => State.withCtx_withCtx X h.n h.x _ c) hk ?_
  · rw [ho.noChannel, State.issueReads, ho.noRead]
    rfl
  · simp only [State.bundleReady, soloStall, bundleOps_solo h.x .alu op hu, State.postedOf, List.filterMap_cons, ho.noStore, List.filterMap_nil,
      List.isEmpty_nil, Bool.true_or, Bool.and_true, List.all_nil]
  · simp only [State.runStores, ho.noStore]
  · simp only [bundleEffects, ho.noRead, ho.noEffect, List.nil_append, List.append_nil]

/-- An extension operation that its coprocessor answers. -/
theorem State.syllable_answered (hs : Solo s h) (hu : (soloSyl .alu false op).undefinedIn h.x = false) (ho : ExtensionOp op)
    (hext : (s.stalled h (soloSyl .alu false op) []).extension h.n h.x (((s.course h.n).ctx h.x).waiting (soloSyl .alu false op) []) op =
      some (dd, lat, some (v, X.withCtx h.n h.x (((s.course h.n).ctx h.x).waiting (soloSyl .alu false op) [])))) (hk : CtxKept h s X) :
    s.syllable h .alu false op = X.issued h [toD ((s.course h.n).ctx h.x) lat dd v] := by
  refine State.syllable_extension (es := [effD ((s.course h.n).ctx h.x) lat dd v]) hs hu ho ?_ hk
  simp only [State.runExtension, List.findSome?_cons, hext]
  rfl

/-- An extension operation that its context or binding does not admit: zero, DERR and the refusal of R55 (R104). -/
theorem State.syllable_refused (hs : Solo s h) (hu : (soloSyl .alu false op).undefinedIn h.x = false) (ho : ExtensionOp op)
    (hext : (s.stalled h (soloSyl .alu false op) []).extension h.n h.x (((s.course h.n).ctx h.x).waiting (soloSyl .alu false op) []) op =
      some (dd, lat, none)) :
    s.syllable h .alu false op =
      (s.derr h.n h.x .plain false).issued h [toD ((s.course h.n).ctx h.x) lat dd 0, stickyFlag flagDERR] := by
  refine State.syllable_extension (X := s.derr h.n h.x .plain false) (es := [effD ((s.course h.n).ctx h.x) lat dd 0, .stick flagDERR]) hs hu ho ?_
    (s.derr_ctxKept h h.n h.x false)
  simp only [State.runExtension, List.findSome?_cons, hext]
  rw [State.stalled_eq_withCtx, State.derr_withCtx]
  rfl

end

/-! ## The step of a section (R152, R155) -/

/-- A bit of a register is set by hardware where a condition holds. -/
def State.setRbitIf (s : State) (b : Bool) (a i : Nat) : State := if b then s.setRbit a i else s

/-- The lower of a section and the lowest one noted for a frame. -/
def lowestSec (k : Nat) : Option Nat → Nat
  | some t => Nat.min t k
  | none => k

/-- The state after a section has stepped to `c`, with `n` saturating members, of which some saturated in the output or in the state. -/
def State.noteStep (s : State) (k frame : Nat) (c : Section) (ysat ssat : Bool) (n : Nat) : State :=
  let s3 := (({ s with secs := mapIns (mapDel s.secs k) k c } : State).setRbitIf ysat regEQ_STATUS 30).setRbitIf ssat regEQ_STATUS 29
  if n = 0 then s3
  else { s3.count regEQ_SAT_CNT n with eqSat := mapIns (mapDel s3.eqSat frame) frame (lowestSec k (mapFind s3.eqSat frame)) }

/-- The members of a section after their step on `x`. -/
def State.stepped (s : State) (k frame : Nat) (x : Int) : Fade SecStep :=
  ((s.sec k).ready frame).fade.mapAt frame (fun m => secStep m x) secIdle

theorem State.stepSection_unarmed (s : State) (k frame : Nat) (x : Int) (hu : Unarmed s) :
    s.stepSection k frame x = ((s.stepped k frame x).value (·.y) frame,
      s.noteStep k frame { (s.sec k).ready frame with fade := (s.stepped k frame x).map (·.m) } ((s.stepped k frame x).members.any (·.ysat))
        ((s.stepped k frame x).members.any (·.ssat)) ((s.stepped k frame x).members.filter fun r => r.ysat || r.ssat).length) := by
  unfold State.stepSection
  rw [State.memTouch_unarmed s _ _ hu]
  dsimp only
  by_cases hn : ((s.stepped k frame x).members.filter fun r => r.ysat || r.ssat).length = 0
  · refine (if_pos hn).trans (congrArg (Prod.mk _) ?_)
    rw [State.noteStep, if_pos hn]
    rfl
  · refine (if_neg hn).trans (congrArg (Prod.mk _) ?_)
    rw [State.noteStep, if_neg hn]
    rfl

theorem State.setRbitIf_withCourses (s : State) (w : Vector Course 8) (b : Bool) (a i : Nat) :
    (s.withCourses w).setRbitIf b a i = (s.setRbitIf b a i).withCourses w := by cases b <;> rfl

theorem State.setRbitIf_shape (s : State) (b : Bool) (a i : Nat) : ∃ r, s.setRbitIf b a i = { s with regs := r } := by
  cases b
  · exact ⟨s.regs, rfl⟩
  · exact ⟨_, rfl⟩

theorem State.noteStep_frame (s : State) (k frame : Nat) (c : Section) (ysat ssat : Bool) (n : Nat) :
    s.noteStep k frame c ysat ssat n = { s with
      secs := mapIns (mapDel s.secs k) k c, regs := (s.noteStep k frame c ysat ssat n).regs, eqSat := (s.noteStep k frame c ysat ssat n).eqSat } := by
  obtain ⟨r1, e1⟩ := ({ s with secs := mapIns (mapDel s.secs k) k c } : State).setRbitIf_shape ysat regEQ_STATUS 30
  obtain ⟨r2, e2⟩ := ({ s with secs := mapIns (mapDel s.secs k) k c, regs := r1 } : State).setRbitIf_shape ssat regEQ_STATUS 29
  unfold State.noteStep
  rw [e1, e2]
  by_cases hn : n = 0
  · rw [if_pos hn]
  · rw [if_neg hn]
    rfl

theorem State.noteStep_withCourses (s : State) (w : Vector Course 8) (k frame : Nat) (c : Section) (ysat ssat : Bool) (n : Nat) :
    (s.withCourses w).noteStep k frame c ysat ssat n = (s.noteStep k frame c ysat ssat n).withCourses w := by
  have hsecs : ({ s.withCourses w with secs := mapIns (mapDel (s.withCourses w).secs k) k c } : State) =
      ({ s with secs := mapIns (mapDel s.secs k) k c } : State).withCourses w := rfl
  unfold State.noteStep
  rw [hsecs, State.setRbitIf_withCourses, State.setRbitIf_withCourses]
  by_cases hn : n = 0
  · rw [if_pos hn, if_pos hn]
  · rw [if_neg hn, if_neg hn]
    rfl

theorem State.noteStep_withCtx (s : State) (n : CourseId) (z : CtxId) (d : Ctx) (k frame : Nat) (c : Section) (ysat ssat : Bool) (i : Nat) :
    (s.withCtx n z d).noteStep k frame c ysat ssat i = (s.noteStep k frame c ysat ssat i).withCtx n z d :=
  State.withCtx_comm s n z d (fun t => t.noteStep k frame c ysat ssat i) (fun t w => t.noteStep_withCourses w k frame c ysat ssat i)
    (by rw [State.noteStep_frame])

theorem State.stepSection_withCtx (s : State) (n : CourseId) (z : CtxId) (c : Ctx) (k frame : Nat) (x : Int) (hu : Unarmed s) :
    (s.withCtx n z c).stepSection k frame x = ((s.stepSection k frame x).1, (s.stepSection k frame x).2.withCtx n z c) := by
  rw [State.stepSection_unarmed s k frame x hu, State.stepSection_unarmed (s.withCtx n z c) k frame x hu]
  exact congrArg (Prod.mk _) (State.noteStep_withCtx s n z c k frame _ _ _ _)

/-- A section of one member steps as that member does. -/
theorem State.stepped_single (s : State) (k frame : Nat) (x : Int) (m : SecMember) (hs : s.sec k = { fade := Fade.single m, waiting := none }) :
    s.stepped k frame x = Fade.single (secStep m x) ∧ (s.sec k).ready frame = s.sec k := by
  unfold State.stepped
  rw [hs]
  exact ⟨rfl, rfl⟩

/-- What the step of a section of one member leaves. -/
theorem State.stepSection_single (s : State) (k frame : Nat) (x : Int) (m : SecMember) (hu : Unarmed s)
    (hs : s.sec k = { fade := Fade.single m, waiting := none }) :
    s.stepSection k frame x = ((secStep m x).y,
      s.noteStep k frame { fade := Fade.single (secStep m x).m, waiting := none } (secStep m x).ysat (secStep m x).ssat
        (b2n ((secStep m x).ysat || (secStep m x).ssat))) := by
  obtain ⟨hstep, hready⟩ := s.stepped_single k frame x m hs
  have hcount : ((Fade.single (secStep m x)).members.filter fun r => r.ysat || r.ssat).length = b2n ((secStep m x).ysat || (secStep m x).ssat) := by
    show ([secStep m x].filter fun r => r.ysat || r.ssat).length = _
    rw [List.filter_singleton]
    cases (secStep m x).ysat || (secStep m x).ssat <;> rfl
  have hany (g : SecStep → Bool) : (Fade.single (secStep m x)).members.any g = g (secStep m x) := Bool.or_false _
  rw [State.stepSection_unarmed s k frame x hu, hready, hstep, hcount, hany, hany, hs]
  rfl

section
variable (s : State) (k frame : Nat) (c : Section) (ysat ssat : Bool)

theorem State.noteStep_sec (n : Nat) : (s.noteStep k frame c ysat ssat n).sec k = c := by
  rw [State.noteStep_frame, State.sec]
  dsimp only
  rw [mapFind_ins_self _ _ _ (mapFind_del_self _ _)]
  rfl

theorem State.noteStep_sec_ne (n : Nat) {j : Nat} (hj : j ≠ k) : (s.noteStep k frame c ysat ssat n).sec j = s.sec j := by
  rw [State.noteStep_frame, State.sec, State.sec]
  dsimp only
  rw [mapFind_ins_ne _ _ hj, mapFind_del_ne _ hj]
  rfl

theorem State.reg_setRbitIf (b : Bool) (a i e : Nat) (h : e ≠ a) : (s.setRbitIf b a i).reg e = s.reg e := by
  cases b
  · rfl
  · exact State.reg_setRbit_ne s a i e h

theorem State.rbit_setRbitIf (b : Bool) (a i j : Nat) (h : j < 32) :
    (s.setRbitIf b a i).rbit a j = (s.rbit a j || (b && decide (j = i))) := by
  cases b
  · exact (Bool.or_false _).symm
  · rw [State.setRbitIf, if_pos rfl, State.rbit_setRbit _ _ _ _ _ h, decide_eq_true rfl]

/-- The sticky bits that a saturating step sets (R152). -/
theorem State.noteStep_status (n i : Nat) (hi : i < 32) : (s.noteStep k frame c ysat ssat n).rbit regEQ_STATUS i =
    (s.rbit regEQ_STATUS i || (ysat && decide (i = 30)) || (ssat && decide (i = 29))) := by
  have hbits : ((({ s with secs := mapIns (mapDel s.secs k) k c } : State).setRbitIf ysat regEQ_STATUS 30).setRbitIf ssat regEQ_STATUS 29).rbit regEQ_STATUS i =
      (s.rbit regEQ_STATUS i || (ysat && decide (i = 30)) || (ssat && decide (i = 29))) := by
    rw [State.rbit_setRbitIf _ _ _ _ _ hi, State.rbit_setRbitIf _ _ _ _ _ hi]
    rfl
  rw [← hbits, State.noteStep]
  dsimp only
  by_cases hn : n = 0
  · rw [if_pos hn]
  · rw [if_neg hn]
    exact congrArg (bit · i) (State.reg_setReg_ne _ _ (by decide))

/-- The count of saturating steps (R152). -/
theorem State.noteStep_count (n : Nat) (hn : n ≠ 0) : (s.noteStep k frame c ysat ssat n).reg regEQ_SAT_CNT = satAdd (s.reg regEQ_SAT_CNT) 0 32 n := by
  have hreg : ((({ s with secs := mapIns (mapDel s.secs k) k c } : State).setRbitIf ysat regEQ_STATUS 30).setRbitIf ssat regEQ_STATUS 29).reg regEQ_SAT_CNT =
      s.reg regEQ_SAT_CNT := by
    rw [State.reg_setRbitIf _ _ _ _ _ (by decide), State.reg_setRbitIf _ _ _ _ _ (by decide)]
    rfl
  rw [State.noteStep]
  dsimp only
  rw [if_neg hn, ← hreg]
  exact State.reg_setReg_self _ _ _

end

/-- One step of a member with its state: exact sums, rounded and saturated (R152). -/
theorem secStep_exact (m : SecMember) (x s1 s2 : Int) (hm : m.st = some (s1, s2)) :
    let w := rconv (m.b0.toInt * x + s1) 29
    let y := max (-(2 ^ 31)) (min (2 ^ 31 - 1) w)
    let z1 := m.b1.toInt * x - m.a1.toInt * y + s2
    let z2 := m.b2.toInt * x - m.a2.toInt * y
    let cl (z : Int) : Int := max (-(2 ^ 63)) (min (2 ^ 63 - 1) z)
    let r := secStep m x
    r.y = y ∧ r.m = { m with st := some (cl z1, cl z2) } ∧ (r.ysat = true ↔ w ≠ y) ∧ (r.ssat = true ↔ cl z1 ≠ z1 ∨ cl z2 ≠ z2) := by
  have h64 (z : Int) : sat64 z = max (-(2 ^ 63)) (min (2 ^ 63 - 1) z) := by
    unfold sat64
    split
    · omega
    · split <;> omega
  have h32 (z : Int) : sat32 z = max (-(2 ^ 31)) (min (2 ^ 31 - 1) z) := by
    unfold sat32
    split
    · omega
    · split <;> omega
  intro w y z1 z2 cl r
  simp only [r, secStep, hm, Option.getD_some, h64, h32]
  exact ⟨rfl, rfl, decide_eq_true_iff, by rw [Bool.or_eq_true, decide_eq_true_iff, decide_eq_true_iff]⟩

/-! ## The obligations -/

/-- The Course that starts a move whose descriptor is good (R106). -/
def Course.startMove (len : Nat) (src dst : Nat) (event : Bool) (c : Course) : Course :=
  { c with
    moves := (c.moves.filter fun m => decide (m.st = .running) || decide (m.ticket ≠ c.nextTicket)) ++
      [{ ticket := c.nextTicket, src := src, dst := dst, len := len, event := event, st := .running, fresh := true }],
    nextTicket := (c.nextTicket + 1) % 16 }

theorem Course.startMove_setCtx (len src dst : Nat) (event : Bool) (k : Course) (x : CtxId) (c : Ctx) :
    (k.setCtx x c).startMove len src dst event = (k.startMove len src dst event).setCtx x c := by cases x <;> rfl

/-- The descriptor of a move that cannot start. -/
def Course.badMove (c : Course) (a : Nat) : Prop :=
  let w (i : Nat) : Word := c.local ((a + i) % 65536)
  fld (w 2) 0 17 = 0 ∨ 65536 < fld (w 2) 0 17 ∨ moveRangeOk (w 0).toNat (fld (w 2) 0 17) = false ∨ moveRangeOk (w 1).toNat (fld (w 2) 0 17) = false

section
variable (s : State) (n : CourseId) (a : Nat)

theorem State.moveStart_full (h : 4 ≤ (s.course n).movesRunning) : s.moveStart n a = (0xFFFFFFFF#32, s) := if_pos h

theorem State.moveStart_bad (h : (s.course n).movesRunning < 4) (hb : (s.course n).badMove a) : s.moveStart n a = (0xFFFFFFFE#32, s) := by
  refine (if_neg (Nat.not_le.2 h)).trans (if_pos ?_)
  simpa only [Course.badMove, Bool.not_eq_eq_eq_not, Bool.not_true] using hb

theorem State.moveStart_starts (h : (s.course n).movesRunning < 4) (hb : ¬ (s.course n).badMove a) :
    let w (i : Nat) : Word := (s.course n).local ((a + i) % 65536)
    s.moveStart n a = (BitVec.ofNat 32 (s.course n).nextTicket,
      s.modCourse n (Course.startMove (fld (w 2) 0 17) (w 0).toNat (w 1).toNat (bit (w 3) 0))) := by
  refine (if_neg (Nat.not_le.2 h)).trans (if_neg ?_)
  simpa only [Course.badMove, Bool.not_eq_eq_eq_not, Bool.not_true] using hb

theorem State.moveStart_withCtx (x : CtxId) (c : Ctx) :
    (s.withCtx n x c).moveStart n a = ((s.moveStart n a).1, (s.moveStart n a).2.withCtx n x c) := by
  have hc : (s.withCtx n x c).course n = (s.course n).setCtx x c := by rw [State.withCtx, State.course_modCourse_self]
  have hrun : ((s.withCtx n x c).course n).movesRunning = (s.course n).movesRunning := by rw [hc]; cases x <;> rfl
  have hloc : ((s.withCtx n x c).course n).local = (s.course n).local := by rw [hc]; cases x <;> rfl
  have hnext : ((s.withCtx n x c).course n).nextTicket = (s.course n).nextTicket := by rw [hc]; cases x <;> rfl
  have hbad : ((s.withCtx n x c).course n).badMove a ↔ (s.course n).badMove a := by rw [Course.badMove, hloc]; exact Iff.rfl
  by_cases hfull : 4 ≤ (s.course n).movesRunning
  · rw [State.moveStart_full _ _ _ hfull, State.moveStart_full _ _ _ (hrun ▸ hfull)]
  · have hroom := Nat.not_le.1 hfull
    by_cases hb : (s.course n).badMove a
    · rw [State.moveStart_bad _ _ _ hroom hb, State.moveStart_bad _ _ _ (hrun ▸ hroom) (hbad.2 hb)]
    · rw [State.moveStart_starts _ _ _ hroom hb, State.moveStart_starts _ _ _ (hrun ▸ hroom) (mt hbad.1 hb), hnext, hloc,
        State.withCtx_modCourse s n x c _ fun k d => k.startMove_setCtx _ _ _ _ x d]

theorem State.moveStart_ctxKept (h : SylHdr) : CtxKept h s (s.moveStart h.n a).2 := by
  by_cases hfull : 4 ≤ (s.course h.n).movesRunning
  · rw [State.moveStart_full _ _ _ hfull]
    exact ⟨rfl, rfl, rfl⟩
  · by_cases hb : (s.course h.n).badMove a
    · rw [State.moveStart_bad _ _ _ (Nat.not_le.1 hfull) hb]
      exact ⟨rfl, rfl, rfl⟩
    · rw [State.moveStart_starts _ _ _ (Nat.not_le.1 hfull) hb]
      exact State.ctxKept_modCourse h s s _ ⟨rfl, rfl, rfl⟩ (fun k => by cases h.x <;> rfl) (fun _ => rfl) (fun _ => rfl)

end

/-- The bundles of one extension operation. -/
theorem extensionOps (h : SylHdr) (dd da : Fin 32) (k : BitVec 8) (ch : Fin 512) (f : Fin 4) :
    ExtensionOp (.eqSos h dd da k) ∧ ExtensionOp (.asrcRatio h dd ch) ∧ ExtensionOp (.asrcStat h dd ch) ∧ ExtensionOp (.mtrGet h dd da f) ∧
    ExtensionOp (.dlyPoll h dd da) ∧ ExtensionOp (.dlyMove h dd da) := by
  refine ⟨?_, ?_, ?_, ?_, ?_, ?_⟩
  all_goals exact ⟨fun _ _ => rfl, fun _ _ => rfl, fun _ _ _ => rfl, fun _ _ _ _ => rfl, fun _ => rfl, fun _ => rfl, rfl⟩

theorem State.ratioNow_unlocked (s : State) (ch : Nat) (h : s.rbit (regASRC_CHSTAT ch) 31 = false) : s.ratioNow ch = (0, s) :=
  if_pos (by rw [h]; rfl)

theorem State.ratioNow_network (s : State) (ch : Nat) (h : s.rbit (regASRC_CHSTAT ch) 31 = true)
    (hm : fld (s.tabGet (0x01900004 + 16 * ch)) 29 2 = 1) : s.ratioNow ch = (wmGet s.asrcRatio ch, s) :=
  (if_neg (by rw [h]; decide)).trans (if_pos hm)

theorem State.ratioNow_measured (s : State) (ch : Nat) (h : s.rbit (regASRC_CHSTAT ch) 31 = true)
    (hm : fld (s.tabGet (0x01900004 + 16 * ch)) 29 2 ≠ 1) : s.ratioNow ch = s.draw :=
  (if_neg (by rw [h]; decide)).trans (if_neg hm)

/-- A ratio is read as it stands, or drawn as a free value: nothing but the count of free values changes. -/
theorem State.ratioNow_cases (s : State) (ch : Nat) : (s.ratioNow ch).2 = s ∨ (s.ratioNow ch).2 = s.draw.2 := by
  cases h : s.rbit (regASRC_CHSTAT ch) 31
  · exact .inl (congrArg Prod.snd (s.ratioNow_unlocked ch h))
  · by_cases hm : fld (s.tabGet (0x01900004 + 16 * ch)) 29 2 = 1
    · exact .inl (congrArg Prod.snd (s.ratioNow_network ch h hm))
    · exact .inr (congrArg Prod.snd (s.ratioNow_measured ch h hm))

theorem State.ratioNow_withCtx (s : State) (n : CourseId) (x : CtxId) (c : Ctx) (ch : Nat) :
    (s.withCtx n x c).ratioNow ch = ((s.ratioNow ch).1, (s.ratioNow ch).2.withCtx n x c) := by
  cases h : s.rbit (regASRC_CHSTAT ch) 31
  · rw [s.ratioNow_unlocked ch h, State.ratioNow_unlocked (s.withCtx n x c) ch h]
  · by_cases hm : fld (s.tabGet (0x01900004 + 16 * ch)) 29 2 = 1
    · rw [s.ratioNow_network ch h hm, State.ratioNow_network (s.withCtx n x c) ch h hm]
      rfl
    · rw [s.ratioNow_measured ch h hm, State.ratioNow_measured (s.withCtx n x c) ch h hm]
      rfl

/-- A function of the context's Course that does not meet the contexts. -/
theorem State.stalled_movePoll (s : State) (h : SylHdr) (y : Syl) (rs : List ReadSlot) (t : Nat) :
    ((s.stalled h y rs).course h.n).movePoll t = (s.course h.n).movePoll t := by
  rw [State.stalled, State.course_modCourse_self]
  cases h.x <;> rfl

/-- EQ.SOS on a bound section (R105). -/
theorem exec_eqSos_bound (s : State) (h : SylHdr) (dd da : Fin 32) (k : BitVec 8) (hs : Solo s h) (hx : h.x = .fg) (hk : k.toNat < s.bindCount h.n) :
    let c := (s.course h.n).ctx h.x
    let r := s.stepSection (s.bindFirst h.n + k.toNat) (s.course h.n).frame (c.dget da).toInt
    exec (.eqSos h dd da k) s = .next (r.2.issued h [toD c 6 dd (BitVec.ofInt 32 r.1)]) := by
  intro c r
  obtain ⟨-, -, -, -, -, -, hu⟩ := id hs
  have hframe : ((s.stalled h (soloSyl .alu false (.eqSos h dd da k)) []).course h.n).frame = (s.course h.n).frame := by
    rw [State.stalled, State.course_modCourse_self]
    cases h.x <;> rfl
  have hr : r.2 = s.noteStep _ _ _ _ _ _ := congrArg Prod.snd (State.stepSection_unarmed s _ _ _ hu)
  refine congrArg Host.Outcome.next (State.syllable_answered (X := r.2) hs rfl (extensionOps h dd da k 0 0).1 ?_ ?_)
  · have hcond : h.x = .fg ∧ k.toNat < (s.stalled h (soloSyl .alu false (.eqSos h dd da k)) []).bindCount h.n := ⟨hx, hk⟩
    have hfirst : (s.stalled h (soloSyl .alu false (.eqSos h dd da k)) []).bindFirst h.n = s.bindFirst h.n := rfl
    have hget : (c.waiting (soloSyl .alu false (.eqSos h dd da k)) []).dget da = c.dget da := rfl
    have hstep := State.stepSection_withCtx s h.n h.x (c.waiting (soloSyl .alu false (.eqSos h dd da k)) []) (s.bindFirst h.n + k.toNat)
      (s.course h.n).frame (c.dget da).toInt hu
    simp only [State.extension, if_pos hcond, hframe, hfirst]
    rw [hget, State.stalled_eq_withCtx, hstep]
    have key (q : Int × State) (y : Ctx) : some (dd, 6, some (ofInt (q.1, q.2.withCtx h.n h.x y).1, (q.1, q.2.withCtx h.n h.x y).2)) =
      some (dd, 6, some (BitVec.ofInt 32 q.1, q.2.withCtx h.n h.x y)) := rfl
    exact key r _
  · have hcourse : r.2.course h.n = s.course h.n := by
      rw [hr, State.noteStep_frame]
      rfl
    constructor
    all_goals rw [hcourse]

/-- What each coprocessor answers the background (R103, R106, R235). -/
theorem exec_extension_bg (s : State) (h : SylHdr) (dd da : Fin 32) (ch : Fin 512) (f : Fin 4) (hs : Solo s h) (hx : h.x = .bg) :
    let c := (s.course h.n).ctx h.x
    exec (.asrcRatio h dd ch) s = .next ((s.ratioNow ch.val).2.issued h [toD c 4 dd (s.ratioNow ch.val).1]) ∧
    exec (.asrcStat h dd ch) s = .next (s.issued h [toD c 4 dd (s.reg (regASRC_CHSTAT ch.val))]) ∧
    exec (.mtrGet h dd da f) s = .next (s.issued h [toD c 8 dd (s.meterWord (fld (c.dget da) 0 12) f.val)]) ∧
    exec (.dlyPoll h dd da) s = .next (s.issued h [toD c 4 dd ((s.course h.n).movePoll (fld (c.dget da) 0 4))]) ∧
    exec (.dlyMove h dd da) s = .next ((s.moveStart h.n (fld (c.dget da) 0 16)).2.issued h [toD c 4 dd (s.moveStart h.n (fld (c.dget da) 0 16)).1]) := by
  intro c
  obtain ⟨-, hratio, hstat, hmeter, hpoll, hmove⟩ := extensionOps h dd da 0 ch f
  have hself : CtxKept h s s := ⟨rfl, rfl, rfl⟩
  refine ⟨congrArg Host.Outcome.next (State.syllable_answered (X := (s.ratioNow ch.val).2) hs rfl hratio ?_ ?_),
    congrArg Host.Outcome.next (State.syllable_answered hs rfl hstat ?_ hself),
    congrArg Host.Outcome.next (State.syllable_answered hs rfl hmeter ?_ hself),
    congrArg Host.Outcome.next (State.syllable_answered hs rfl hpoll ?_ hself),
    congrArg Host.Outcome.next (State.syllable_answered (X := (s.moveStart h.n (fld (c.dget da) 0 16)).2) hs rfl hmove ?_
      (s.moveStart_ctxKept _ h))⟩
  · simp only [State.extension, if_pos hx]
    rw [State.stalled_eq_withCtx, State.ratioNow_withCtx]
  · rcases s.ratioNow_cases ch.val with e | e
    · rw [e]
      exact hself
    · rw [e]
      exact ⟨rfl, rfl, rfl⟩
  · simp only [State.extension, if_pos hx]
    rfl
  · simp only [State.extension, if_pos hx]
    rfl
  · simp only [State.extension, if_pos hx, State.stalled_movePoll]
    rfl
  · simp only [State.extension, if_pos hx]
    rw [State.stalled_eq_withCtx, State.moveStart_withCtx]
    rfl

/-- The background operations refuse the foreground (R104). -/
theorem exec_extension_fg (s : State) (h : SylHdr) (dd da : Fin 32) (ch : Fin 512) (f : Fin 4) (hs : Solo s h) (hx : h.x = .fg) :
    let refused (lat : Nat) : State := (s.derr h.n h.x .plain false).issued h [toD ((s.course h.n).ctx h.x) lat dd 0, stickyFlag flagDERR]
    exec (.asrcRatio h dd ch) s = .next (refused 4) ∧ exec (.asrcStat h dd ch) s = .next (refused 4) ∧
    exec (.mtrGet h dd da f) s = .next (refused 8) ∧ exec (.dlyPoll h dd da) s = .next (refused 4) ∧
    exec (.dlyMove h dd da) s = .next (refused 4) := by
  have hnb : ¬ h.x = .bg := by rw [hx]; decide
  obtain ⟨-, hratio, hstat, hmeter, hpoll, hmove⟩ := extensionOps h dd da 0 ch f
  refine ⟨congrArg Host.Outcome.next (State.syllable_refused hs rfl hratio ?_), congrArg Host.Outcome.next (State.syllable_refused hs rfl hstat ?_),
    congrArg Host.Outcome.next (State.syllable_refused hs rfl hmeter ?_), congrArg Host.Outcome.next (State.syllable_refused hs rfl hpoll ?_),
    congrArg Host.Outcome.next (State.syllable_refused hs rfl hmove ?_)⟩
  all_goals simp only [State.extension, if_neg hnb]

/-- Settles O13: the coprocessors' answers and refusals, the start of a move, and the step of a section. -/
theorem extensionResults : Obligations.ExtensionResults := by
  unfold Obligations.ExtensionResults
  refine ⟨?operations, fun m x s1 s2 hm => secStep_exact m x s1 s2 hm, ?sections⟩
  case operations =>
    intro s h dd da k ch f hs c refused
    refine ⟨fun hx hk => exec_eqSos_bound s h dd da k hs hx hk, fun hbad => ?_, fun hx => ?_, fun hx => exec_extension_fg s h dd da ch f hs hx,
      ?_⟩
    · refine congrArg Host.Outcome.next (State.syllable_refused hs rfl (extensionOps h dd da k ch f).1 ?_)
      have hcond : ¬ (h.x = .fg ∧ k.toNat < (s.stalled h (soloSyl .alu false (.eqSos h dd da k)) []).bindCount h.n) := by
        rintro ⟨hfg, hlt⟩
        rcases hbad with hbg | hle
        · exact absurd (hfg.symm.trans hbg) (by decide)
        · exact absurd hlt (Nat.not_lt.2 hle)
      simp only [State.extension, if_neg hcond]
    · obtain ⟨hratio, hstat, hmeter, hpoll, hmove⟩ := exec_extension_bg s h dd da ch f hs hx
      refine ⟨⟨hratio, s.ratioNow_unlocked ch.val, s.ratioNow_network ch.val, ?_⟩, hstat, hmeter, hpoll, hmove⟩
      rcases s.ratioNow_cases ch.val with e | e
      · rw [e]
      · rw [e]
        rfl
    · intro a w len r
      refine ⟨s.moveStart_full h.n a, s.moveStart_bad h.n a, fun hroom h0 hmax hsrc hdst => ?_⟩
      have hgood : ¬ (s.course h.n).badMove a := by
        rintro (e | e | e | e)
        · exact h0 e
        · exact absurd hmax (Nat.not_le.2 e)
        · exact absurd (hsrc.symm.trans e) (by decide)
        · exact absurd (hdst.symm.trans e) (by decide)
      have hstart := s.moveStart_starts h.n a hroom hgood
      simp only [r, hstart, State.course_modCourse_self]
      refine ⟨trivial, s.modCourse_onlyCourse h.n _, rfl, ?_⟩
      exact List.mem_append_right _ (List.mem_singleton.2 rfl)
  case sections =>
    intro s k frame x m hu hsec r t
    have hstep := s.stepSection_single k frame x m hu hsec
    have ht : t = s.noteStep k frame { fade := Fade.single r.m, waiting := none } r.ysat r.ssat (b2n (r.ysat || r.ssat)) :=
      congrArg Prod.snd hstep
    have hsat (hor : r.ysat = true ∨ r.ssat = true) : b2n (r.ysat || r.ssat) = 1 := by
      rw [Bool.or_eq_true_iff.2 hor]
      rfl
    rw [ht]
    refine ⟨congrArg Prod.fst hstep, ?_, s.noteStep_sec k frame _ _ _ _, fun j hj => s.noteStep_sec_ne k frame _ _ _ _ hj, fun hy hss => ?_, fun hy => ?_,
      fun hss => ?_, fun hor => ?_⟩
    · rw [State.noteStep_frame]
    · rw [hy, hss]
      exact ⟨rfl, rfl⟩
    · rw [State.noteStep_status _ _ _ _ _ _ _ _ (by decide), hy]
      simp
    · rw [State.noteStep_status _ _ _ _ _ _ _ _ (by decide), hss]
      simp
    · rw [hsat hor]
      exact s.noteStep_count k frame _ _ _ _ Nat.one_ne_zero

end Sys2Proof.Machine
end

section
/-! The grant of a target port: what a granted write leaves, and whom the round robin serves (R51, R114, R115, R131, R401). -/

namespace Sys2Proof.Machine

-- One theorem after another, so that the compile of the whole text stays within its memory.
set_option Elab.async false

/-! ## Whom a port serves -/

/-- The place of a Course in the order after the pointer of a port (R131). -/
def portRank (ptr : Nat) (k : CourseId) : Nat := if ptr < k.val then k.val else k.val + 8

/-- The Courses in the order in which a port serves them. -/
def portOrder (ptr : Nat) : List CourseId := (courseIds.filter fun n => decide (ptr < n.val)) ++ courseIds.filter fun n => decide (n.val ≤ ptr)

theorem mem_courseIds (n : CourseId) : n ∈ courseIds := by revert n; decide

theorem mem_portOrder (ptr : Nat) (n : CourseId) : n ∈ portOrder ptr := by
  rw [portOrder, List.mem_append, List.mem_filter, List.mem_filter]
  rcases Nat.lt_or_ge ptr n.val with h | h
  · exact .inl ⟨mem_courseIds n, decide_eq_true h⟩
  · exact .inr ⟨mem_courseIds n, decide_eq_true h⟩

/-- The order after the pointer is the order of the ranks. -/
theorem portOrder_pairwise (ptr : Nat) : (portOrder ptr).Pairwise fun i j => portRank ptr i ≤ portRank ptr j := by
  have hsorted : courseIds.Pairwise fun i j => i.val ≤ j.val := by decide
  have hfirst (i : CourseId) (h : i ∈ courseIds.filter fun n => decide (ptr < n.val)) : portRank ptr i = i.val := by
    rw [portRank, if_pos (of_decide_eq_true (List.mem_filter.1 h).2)]
  have hsecond (i : CourseId) (h : i ∈ courseIds.filter fun n => decide (n.val ≤ ptr)) : portRank ptr i = i.val + 8 := by
    rw [portRank, if_neg (Nat.not_lt.2 (of_decide_eq_true (List.mem_filter.1 h).2))]
  refine List.pairwise_append.2 ⟨?_, ?_, fun i hi j hj => ?_⟩
  · refine (hsorted.filter _).imp_of_mem fun {i j} hi hj hij => ?_
    rw [hfirst i hi, hfirst j hj]
    exact hij
  · refine (hsorted.filter _).imp_of_mem fun {i j} hi hj hij => ?_
    rw [hsecond i hi, hsecond j hj]
    exact Nat.add_le_add_right hij 8
  · rw [hfirst i hi, hsecond j hj]
    have hi8 := i.isLt
    omega

/-- The Course that a port grants asks, finds its ports open, and comes first of those that do (R131). -/
theorem State.portWinner_first (s : State) (t : RidgePort) (n : CourseId) (q : PortAsk) (hw : s.portWinner t = some (n, q)) :
    s.portAsk t n = some q ∧ (∀ u ∈ q.req.ports, s.portOpen u n = true) ∧
    ∀ k p, s.portAsk t k = some p → (∀ u ∈ p.req.ports, s.portOpen u k = true) →
      portRank ((mapFind s.rr (portNo t)).getD 12) n ≤ portRank ((mapFind s.rr (portNo t)).getD 12) k := by
  obtain ⟨l, m, r, horder, hm, hnone⟩ := List.findSome?_eq_some_iff.1 hw
  have hpairs := portOrder_pairwise ((mapFind s.rr (portNo t)).getD 12)
  rw [portOrder, horder] at hpairs
  have hserved : s.portAsk t m = some q ∧ (∀ u ∈ q.req.ports, s.portOpen u m = true) ∧ m = n := by
    cases hask : s.portAsk t m with
    | none =>
      simp only [hask] at hm
      exact nomatch hm
    | some p =>
      simp only [hask] at hm
      by_cases hopen : (p.req.ports.all fun u => s.portOpen u m) = true
      · rw [if_pos hopen] at hm
        obtain ⟨rfl, rfl⟩ := Prod.mk.inj (Option.some.inj hm)
        exact ⟨rfl, List.all_eq_true.1 hopen, rfl⟩
      · rw [if_neg hopen] at hm
        exact nomatch hm
  obtain ⟨hask, hopen, rfl⟩ := hserved
  refine ⟨hask, hopen, fun k p hk ho => ?_⟩
  have hmem : k ∈ l ++ m :: r := horder ▸ mem_portOrder _ k
  rcases List.mem_append.1 hmem with hl | hr
  · have hnot := hnone k hl
    simp only [hk] at hnot
    rw [if_pos (List.all_eq_true.2 ho)] at hnot
    exact nomatch hnot
  · rcases List.mem_cons.1 hr with rfl | hr
    · exact Nat.le_refl _
    · exact (List.pairwise_cons.1 (List.pairwise_append.1 hpairs).2.1).1 k hr

/-! ## What a granted write of one word leaves -/

/-- The state in which a port has moved its pointer to the Course that won (R131). -/
def State.pointPort (s : State) (t : RidgePort) (n : CourseId) : State := { s with rr := mapSet (fun _ => 12) s.rr (portNo t) n.val }

theorem State.pointPort_rr (s : State) (t : RidgePort) (n : CourseId) : (mapFind (s.pointPort t n).rr (portNo t)).getD 12 = n.val :=
  mapGet_set_self (fun _ => 12) s.rr (portNo t) n.val

/-- The oldest posted write of a Course is marked as granted. -/
def State.markGranted (s : State) (n : CourseId) (k : Course) (p : Posted) (ps : List Posted) : State :=
  s.setCourse n { k with posted := { p with granted := true } :: ps }

/-- The grant of the oldest posted write of one word. -/
theorem exec_ridgeAccessGrant_store (s : State) (t : RidgePort) (n : CourseId) (p : Posted) (ps : List Posted) (a : Nat) (x : Word)
    (hposted : (s.course n).posted = p :: ps) (ha : p.req.addrs = [a]) (hx : p.data = [x]) (hw : s.portWinner t = some (n, .store p))
    (hcourses : ((s.pointPort t n).grantStore n p.req a x).courses = s.courses) :
    exec (.ridgeAccessGrant t) s = .next (((s.pointPort t n).grantStore n p.req a x).markGranted n (s.course n) p ps) := by
  have he : exec (.ridgeAccessGrant t) s = .next ((s.pointPort t n).grant n (.store p)) := by
    show execRidgeAccessGrant t s = _
    rw [execRidgeAccessGrant]
    simp only [hw]
    rfl
  have hcourse : ((s.pointPort t n).grantStore n p.req a x).course n = s.course n := by rw [State.course, hcourses]; rfl
  have hmark : (match (s.course n).posted with | e :: es => (if e = p then { e with granted := true } else e) :: es | [] => []) =
      { p with granted := true } :: ps := by
    rw [hposted]
    exact congrArg (· :: ps) (if_pos rfl)
  rw [he, State.grant]
  simp only [ha, hx, State.grantStores, State.modCourse, hcourse]
  exact congrArg (fun l => Host.Outcome.next (State.setCourse _ n { s.course n with posted := l })) hmark

/-- A granted write to a scratch bank changes the words of the banks, the record of written words, and the masters that have waited there (R115, R117). -/
theorem State.grantStore_scratch (s : State) (n : CourseId) (r : RidgeReq) (b : Fin 64) (a : Nat) (x : Word) (hr : r.port = .scratch b)
    (hratio : s.courseRatioBad = false) : s.grantStore n r a x = (s.scrTouch n.val).scratchPut a x := by
  rw [State.grantStore]
  simp only [hr]
  exact if_neg (by rw [hratio]; decide)

theorem State.scrTouch_shape (s : State) (m : Nat) : ∃ l, s.scrTouch m = { s with scrUsed := l } ∧ m ∈ l := by
  unfold State.scrTouch
  by_cases h : m ∈ s.scrUsed
  · exact ⟨s.scrUsed, if_pos (List.contains_iff_mem.2 h), h⟩
  · exact ⟨s.scrUsed ++ [m], if_neg (mt List.contains_iff_mem.1 h), List.mem_append_right _ (List.mem_singleton.2 rfl)⟩

/-- A store in a view of a scratch bank changes one word, or none (R115). -/
theorem State.scratchPut_shape (s : State) (a : Nat) (x : Word) (hu : Unarmed s) :
    ∃ m r, s.scratchPut a x = { s with scratch := m, raced := r } := by
  unfold State.scratchPut
  split
  · exact ⟨_, _, rfl⟩
  · next v b w _ _ =>
    unfold State.scratchStore
    cases v with
    | setAlias => exact ⟨_, _, by rw [s.memRead_unarmed _ _ hu]; rfl⟩
    | clrAlias => exact ⟨_, _, by rw [s.memRead_unarmed _ _ hu]; rfl⟩
    | _ => exact ⟨_, _, rfl⟩
  · exact ⟨_, _, rfl⟩

/-- The word that a store in each view leaves (R115). -/
theorem State.scratchPut_word (s : State) (a : Nat) (x : Word) (b w : Nat) (hu : Unarmed s) :
    (scratchView a = some (.plain, b, w) → (s.scratchPut a x).scratch = memSetWord s.scratch (b * 65536 + w) x) ∧
    (scratchView a = some (.setAlias, b, w) → (s.scratchPut a x).scratch = memSetWord s.scratch (b * 65536 + w) (s.scratchGet b w ||| x)) ∧
    (scratchView a = some (.clrAlias, b, w) → (s.scratchPut a x).scratch = memSetWord s.scratch (b * 65536 + w) (s.scratchGet b w &&& ~~~x)) := by
  refine ⟨fun h => ?_, fun h => ?_, fun h => ?_⟩
  all_goals
    unfold State.scratchPut
    rw [h]
    simp only [State.scratchStore, State.memRead_unarmed _ _ _ hu]
    rfl

/-- Settles O16: what the grant of a one-word write leaves, and the round robin of a port. -/
theorem grantedAccesses : Obligations.GrantedAccesses := by
  unfold Obligations.GrantedAccesses
  refine ⟨?writes, fun s t n q hw => s.portWinner_first t n q hw⟩
  intro s n p ps a x hratio hu hposted ha hx mark
  refine ⟨fun c hport hw hlow => ?dram, fun b hport hw => ?scratch⟩
  case dram =>
    have hstore : (s.pointPort (.dram c) n).grantStore n p.req a x = (s.pointPort (.dram c) n).dramSet (a - 0x80000000) x := by
      rw [State.grantStore]
      simp only [hport]
      exact if_neg (by rw [show (s.pointPort (.dram c) n).courseRatioBad = false from hratio]; decide)
    refine ⟨_, exec_ridgeAccessGrant_store s (.dram c) n p ps a x hposted ha hx hw (by rw [hstore]; rfl), ?_, ?_⟩
    · have hrace : (s.pointPort (.dram c) n).raceAt (0x80000000 + (a - 0x80000000)) = s.raceAt a := by rw [Nat.add_sub_cancel' hlow]; rfl
      rw [hstore, State.dramSet, hrace]
      rfl
    · rw [hstore]
      exact s.pointPort_rr (.dram c) n
  case scratch =>
    have hu' : Unarmed (s.pointPort (.scratch b) n) := hu
    have hstore := State.grantStore_scratch (s.pointPort (.scratch b) n) n p.req b a x hport hratio
    obtain ⟨l, hl, hmem⟩ := (s.pointPort (.scratch b) n).scrTouch_shape n.val
    have hut : Unarmed { s.pointPort (.scratch b) n with scrUsed := l } := hu
    rw [hl] at hstore
    obtain ⟨m, r, hput⟩ := State.scratchPut_shape { s.pointPort (.scratch b) n with scrUsed := l } a x hut
    have hword := fun w => State.scratchPut_word { s.pointPort (.scratch b) n with scrUsed := l } a x b.val w hut
    rw [hput] at hstore hword
    refine ⟨_, exec_ridgeAccessGrant_store s (.scratch b) n p ps a x hposted ha hx hw (by rw [hstore]; rfl), ?_, ?_, fun w => ?_, fun w => ?_, fun w => ?_⟩
    · rw [hstore]
      rfl
    · rw [hstore]
      exact hmem
    all_goals
      obtain ⟨hplain, hset, hclr⟩ := hword w
      rw [hstore]
    · exact hplain
    · exact hset
    · exact hclr

end Sys2Proof.Machine
end

section
/-! Moves (R106): the copy in its order, the words left open by other masters, and the end of a move. -/

namespace Sys2Proof.Machine

-- One theorem after another, so that the compile of the whole text stays within its memory.
set_option Elab.async false

/-! ## The words of the two spaces -/

theorem State.moveSet_shape (s : State) (a : Nat) (v : Word) : ∃ d c, s.moveSet a v = { s with dram := d, scratch := c } := by
  unfold State.moveSet
  by_cases h : 0x80000000 ≤ a
  · exact ⟨_, s.scratch, if_pos h⟩
  · exact ⟨s.dram, _, if_neg h⟩

/-- A word of a move that is written reads as written, and no other word changes. -/
theorem State.moveGet_moveSet (s : State) (a b : Nat) (v : Word) (ha : 0x00400000 ≤ a) (hb : 0x00400000 ≤ b) :
    (s.moveSet a v).moveGet b = if b = a then v else s.moveGet b := by
  have hself (m : List (Nat × Byte)) (w u : Nat) : memWord (memSetWord m w v) u = if u = w then v else memWord m u := by
    by_cases h : u = w
    · rw [if_pos h, h, memWord_set_self]
    · rw [if_neg h, memWord_set_ne m v h]
  unfold State.moveSet State.moveGet
  by_cases hda : 0x80000000 ≤ a
  · rw [if_pos hda]
    by_cases hdb : 0x80000000 ≤ b
    · rw [if_pos hdb, if_pos hdb]
      refine (hself s.dram _ _).trans ?_
      have hiff : b - 0x80000000 = a - 0x80000000 ↔ b = a := by omega
      simp only [hiff]
      rfl
    · rw [if_neg hdb, if_neg hdb, if_neg (by omega)]
      rfl
  · rw [if_neg hda]
    by_cases hdb : 0x80000000 ≤ b
    · rw [if_pos hdb, if_pos hdb, if_neg (by omega)]
      rfl
    · rw [if_neg hdb, if_neg hdb]
      refine (hself s.scratch _ _).trans ?_
      have hiff : b - 0x00400000 = a - 0x00400000 ↔ b = a := by omega
      simp only [hiff]

theorem moveSpace_low {a : Nat} (h : (moveSpace a).isSome = true) : 0x00400000 ≤ a := by
  unfold moveSpace at h
  split at h
  · omega
  · split at h
    · omega
    · exact nomatch h

theorem moveRangeOk_low {a len : Nat} (h : moveRangeOk a len = true) : 0x00400000 ≤ a :=
  moveSpace_low (Bool.and_eq_true_iff.1 h).1

/-! ## The copy -/

/-- One word of a move is copied. -/
def State.copyWord (src dst : Nat) (s : State) (i : Nat) : State := s.moveSet (dst + i) (s.moveGet (src + i))

theorem State.copyWords_shape (src dst : Nat) (l : List Nat) (s : State) :
    ∃ d c, l.foldl (State.copyWord src dst) s = { s with dram := d, scratch := c } := by
  induction l generalizing s with
  | nil => exact ⟨s.dram, s.scratch, rfl⟩
  | cons i l ih =>
    obtain ⟨d, c, e⟩ := s.moveSet_shape (dst + i) (s.moveGet (src + i))
    obtain ⟨d', c', e'⟩ := ih { s with dram := d, scratch := c }
    refine ⟨d', c', ?_⟩
    rw [List.foldl_cons, State.copyWord, e, e']

/-- Words copied in an order in which no word is read after it was written over: each takes what its source held before the copy. -/
theorem State.copyWords_get (src dst : Nat) (hsrc : 0x00400000 ≤ src) (hdst : 0x00400000 ≤ dst) (l : List Nat)
    (hl : l.Pairwise fun j i => j ≠ i ∧ src + i ≠ dst + j) (s : State) :
    (∀ i ∈ l, (l.foldl (State.copyWord src dst) s).moveGet (dst + i) = s.moveGet (src + i)) ∧
    ∀ a, 0x00400000 ≤ a → (∀ i ∈ l, a ≠ dst + i) → (l.foldl (State.copyWord src dst) s).moveGet a = s.moveGet a := by
  induction l generalizing s with
  | nil => exact ⟨fun i hi => (nomatch hi), fun _ _ _ => rfl⟩
  | cons j l ih =>
    obtain ⟨hj, hrest⟩ := List.pairwise_cons.1 hl
    obtain ⟨hcopied, hkept⟩ := ih hrest (s.copyWord src dst j)
    have hset (a : Nat) (ha : 0x00400000 ≤ a) : (s.copyWord src dst j).moveGet a = if a = dst + j then s.moveGet (src + j) else s.moveGet a :=
      s.moveGet_moveSet _ _ _ (by omega) ha
    refine ⟨fun i hi => ?_, fun a ha hne => ?_⟩
    · rw [List.foldl_cons]
      rcases List.mem_cons.1 hi with rfl | hi
      · rw [hkept (dst + i) (by omega) fun k hk e => (hj k hk).1 (by omega), hset _ (by omega), if_pos rfl]
      · rw [hcopied i hi, hset _ (by omega), if_neg (hj i hi).2]
    · rw [List.foldl_cons, hkept a ha fun i hi => hne i (List.mem_cons_of_mem j hi), hset a ha, if_neg (hne j List.mem_cons_self)]

theorem Move.mem_order (m : Move) (i : Nat) : i ∈ m.order ↔ i < m.len := by
  unfold Move.order
  split
  · rw [List.mem_reverse, List.mem_range]
  · exact List.mem_range

theorem Move.order_length (m : Move) : m.order.length = m.len := by
  unfold Move.order
  split
  · rw [List.length_reverse, List.length_range]
  · exact List.length_range

/-- In the order of R106 no source word is read after it was written over. -/
theorem Move.order_pairwise (m : Move) : m.order.Pairwise fun j i => j ≠ i ∧ m.src + i ≠ m.dst + j := by
  unfold Move.order
  by_cases h : m.src < m.dst
  · rw [if_pos h, List.pairwise_reverse]
    refine List.pairwise_lt_range.imp fun {i j} hij => ?_
    omega
  · rw [if_neg h]
    refine List.pairwise_lt_range.imp fun {j i} hij => ?_
    omega

theorem State.moveCopy_shape (s : State) (m : Move) (count : Nat) : ∃ d c, s.moveCopy m count = { s with dram := d, scratch := c } :=
  State.copyWords_shape m.src m.dst _ s

/-- A completed move copies its words as if it read them all before it wrote any (R106). -/
theorem State.moveCopy_get (s : State) (m : Move) (hsrc : 0x00400000 ≤ m.src) (hdst : 0x00400000 ≤ m.dst) :
    (∀ i, i < m.len → (s.moveCopy m m.len).moveGet (m.dst + i) = s.moveGet (m.src + i)) ∧
    ∀ a, 0x00400000 ≤ a → (a < m.dst ∨ m.dst + m.len ≤ a) → (s.moveCopy m m.len).moveGet a = s.moveGet a := by
  have hall : m.order.take m.len = m.order := List.take_of_length_le (Nat.le_of_eq m.order_length)
  obtain ⟨hcopied, hkept⟩ := State.copyWords_get m.src m.dst hsrc hdst m.order m.order_pairwise s
  have hfold : s.moveCopy m m.len = m.order.foldl (State.copyWord m.src m.dst) s := by
    rw [State.moveCopy, hall]
    rfl
  rw [hfold]
  refine ⟨fun i hi => hcopied i ((m.mem_order i).2 hi), fun a ha hout => hkept a ha fun i hi => ?_⟩
  have hlt := (m.mem_order i).1 hi
  omega

/-! ## The words left open -/

/-- A word takes a free value (log entry 2). -/
def State.freeMove (s : State) (a : Nat) : State := s.draw.2.moveSet a s.draw.1

theorem State.freeMoves_shape (l : List Nat) (s : State) :
    ∃ d c f, l.foldl State.freeMove s = { s with dram := d, scratch := c, freeCtr := f } := by
  induction l generalizing s with
  | nil => exact ⟨s.dram, s.scratch, s.freeCtr, rfl⟩
  | cons a l ih =>
    obtain ⟨d, c, e⟩ := s.draw.2.moveSet_shape a s.draw.1
    obtain ⟨d', c', f', e'⟩ := ih { s.draw.2 with dram := d, scratch := c }
    refine ⟨d', c', f', ?_⟩
    rw [List.foldl_cons, State.freeMove, e, e']
    rfl

/-- The listed words hold free values, and no other word changes. -/
theorem State.freeMoves_get (l : List Nat) (hl : ∀ a ∈ l, 0x00400000 ≤ a) (s : State) (b : Nat) (hb : 0x00400000 ≤ b) :
    (b ∈ l → ∃ k, (l.foldl State.freeMove s).moveGet b = Config.freeWord k) ∧ (b ∉ l → (l.foldl State.freeMove s).moveGet b = s.moveGet b) := by
  induction l generalizing s with
  | nil => exact ⟨fun h => (nomatch h), fun _ => rfl⟩
  | cons a l ih =>
    obtain ⟨hfree, hkept⟩ := ih (fun c hc => hl c (List.mem_cons_of_mem a hc)) (s.freeMove a)
    have hset : (s.freeMove a).moveGet b = if b = a then s.draw.1 else s.draw.2.moveGet b :=
      s.draw.2.moveGet_moveSet a b _ (hl a List.mem_cons_self) hb
    rw [List.foldl_cons]
    refine ⟨fun hmem => ?_, fun hmem => ?_⟩
    · by_cases hin : b ∈ l
      · exact hfree hin
      · have hba : b = a := (List.mem_cons.1 hmem).resolve_right hin
        exact ⟨s.freeCtr, by rw [hkept hin, hset, if_pos hba]; rfl⟩
    · rw [hkept fun h => hmem (List.mem_cons_of_mem a h), hset, if_neg fun h : b = a => hmem (h ▸ List.mem_cons_self)]
      rfl

section
variable (s : State) (n : CourseId) (m : Move) (count : Nat)

/-- The words that the end of a move leaves open: those written during the move, and the copies of such words. -/
theorem State.mem_moveOpen (b : Nat) :
    b ∈ s.moveOpen n m count ↔ ∃ i j, (i, j) ∈ m.order.zipIdx ∧
      ((n.val, m.ticket, m.src + i) ∈ s.raced ∧ b = m.src + i ∨
        ((n.val, m.ticket, m.dst + i) ∈ s.raced ∨ (n.val, m.ticket, m.src + i) ∈ s.raced ∧ j < count) ∧ b = m.dst + i) := by
  have hone (p : Prop) [Decidable p] (a : Nat) : b ∈ (if p then [a] else []) ↔ p ∧ b = a := by
    by_cases h : p <;> simp [h]
  simp only [State.moveOpen, List.mem_flatMap, List.mem_append, hone, List.contains_iff_mem, Bool.or_eq_true, Bool.and_eq_true, decide_eq_true_eq,
    Prod.exists]

theorem State.moveOpen_low (hsrc : 0x00400000 ≤ m.src) (hdst : 0x00400000 ≤ m.dst) : ∀ a ∈ s.moveOpen n m count, 0x00400000 ≤ a := by
  intro a ha
  obtain ⟨i, j, -, ⟨-, rfl⟩ | ⟨-, rfl⟩⟩ := (s.mem_moveOpen n m count a).1 ha
  · omega
  · omega

/-- The writes noted for a move are forgotten. -/
def State.forgetRaced : State := { s with raced := s.raced.filter fun e => !(e.1 == n.val && e.2.1 == m.ticket) }

theorem State.moveResult_eq : s.moveResult n m count = ((s.moveOpen n m count).foldl State.freeMove (s.moveCopy m count)).forgetRaced n m := rfl

theorem State.moveResult_shape : ∃ d c f, s.moveResult n m count =
    { s with dram := d, scratch := c, freeCtr := f, raced := s.raced.filter fun e => !(e.1 == n.val && e.2.1 == m.ticket) } := by
  obtain ⟨d, c, e⟩ := s.moveCopy_shape m count
  obtain ⟨d', c', f', e'⟩ := State.freeMoves_shape (s.moveOpen n m count) { s with dram := d, scratch := c }
  refine ⟨d', c', f', ?_⟩
  rw [State.moveResult_eq, e, e']
  rfl

theorem State.moveResult_get (b : Nat) :
    (s.moveResult n m count).moveGet b = ((s.moveOpen n m count).foldl State.freeMove (s.moveCopy m count)).moveGet b := rfl

/-- With no write of another master noted, a move leaves exactly its copy. -/
theorem State.moveResult_unraced (h : ∀ a, (n.val, m.ticket, a) ∉ s.raced) : s.moveResult n m count = s.moveCopy m count := by
  have hopen : s.moveOpen n m count = [] := by
    refine List.eq_nil_iff_forall_not_mem.2 fun b hb => ?_
    obtain ⟨i, j, -, ⟨hr, -⟩ | ⟨hr | ⟨hr, -⟩, -⟩⟩ := (s.mem_moveOpen n m count b).1 hb
    all_goals exact h _ hr
  have hraced : s.raced.filter (fun e => !(e.1 == n.val && e.2.1 == m.ticket)) = s.raced := by
    refine List.filter_eq_self.2 fun e he => ?_
    obtain ⟨k, t, a⟩ := e
    by_cases hk : k = n.val ∧ t = m.ticket
    · exact absurd (hk.1 ▸ hk.2 ▸ he) (h a)
    · simpa only [Bool.not_eq_true', Bool.and_eq_false_iff, beq_eq_false_iff_ne, ne_eq, not_and_or] using hk
  obtain ⟨d, c, e⟩ := s.moveCopy_shape m count
  rw [State.moveResult_eq, hopen, List.foldl_nil, e, State.forgetRaced]
  exact congrArg (fun r => ({ s with dram := d, scratch := c, raced := r } : State)) hraced

end

/-- What the end of a move leaves (R106). -/
theorem State.moveResult_effect (s : State) (n : CourseId) (m : Move) (count : Nat) (hsrc : 0x00400000 ≤ m.src) (hdst : 0x00400000 ≤ m.dst) :
    let u := s.moveCopy m count
    let t := s.moveResult n m count
    let hit (a : Nat) : Prop := (n.val, m.ticket, a) ∈ s.raced
    t = { s with dram := t.dram, scratch := t.scratch, raced := t.raced, freeCtr := t.freeCtr } ∧
    (∀ e, e ∈ t.raced ↔ e ∈ s.raced ∧ ¬ (e.1 = n.val ∧ e.2.1 = m.ticket)) ∧
    ((∀ a, ¬ hit a) → t = u) ∧
    (∀ i, i < m.len → hit (m.dst + i) ∨ (hit (m.src + i) ∧ count = m.len) → ∃ k, t.moveGet (m.dst + i) = Config.freeWord k) ∧
    (∀ a, 0x00400000 ≤ a → ¬ hit a → (∀ i, i < m.len → a = m.dst + i → ¬ hit (m.src + i)) → t.moveGet a = u.moveGet a) := by
  intro u t hit
  have hlow := s.moveOpen_low n m count hsrc hdst
  refine ⟨?_, fun e => ?_, s.moveResult_unraced n m count, fun i hi hh => ?_, fun a ha hna hnc => ?_⟩
  · obtain ⟨d, c, f, e⟩ := s.moveResult_shape n m count
    show s.moveResult n m count = _
    simp only [t, e]
  · obtain ⟨d, c, f, he⟩ := s.moveResult_shape n m count
    simp only [t, he, List.mem_filter, Bool.not_eq_true', Bool.and_eq_false_iff, beq_eq_false_iff_ne, not_and_or, ne_eq]
  · obtain ⟨j, hj, hij⟩ := List.getElem_of_mem ((m.mem_order i).2 hi)
    have hmem : (i, j) ∈ m.order.zipIdx := by
      rw [List.mk_mem_zipIdx_iff_getElem?, List.getElem?_eq_getElem hj, hij]
    have hjlen : j < m.len := m.order_length ▸ hj
    refine (State.freeMoves_get _ hlow u (m.dst + i) (by omega)).1 ((s.mem_moveOpen n m count _).2 ⟨i, j, hmem, .inr ⟨?_, rfl⟩⟩)
    rcases hh with h | ⟨h, rfl⟩
    · exact .inl h
    · exact .inr ⟨h, hjlen⟩
  · refine (State.freeMoves_get _ hlow u a ha).2 fun hmem => ?_
    obtain ⟨i, j, hij, ⟨hr, rfl⟩ | ⟨hr | ⟨hr, -⟩, rfl⟩⟩ := (s.mem_moveOpen n m count a).1 hmem
    · exact hna hr
    · exact hna hr
    · exact hnc i ((m.mem_order i).1 (List.fst_mem_of_mem_zipIdx hij)) rfl hr

/-! ## The end of a move -/

/-- The refusal of a word of a move is recorded for the engine, master 8 (R106, R112, R119). -/
def State.refuseMove (s : State) (k : RefKind) (write : Bool) : State :=
  match k with
  | .scratch b a => s.scratchRefused 0 8 b (BitVec.ofNat 32 a)
  | .dram c a => s.ridgeRefused c 8 write (BitVec.ofNat 32 a)
  | _ => s

section
variable (s : State) (n : CourseId) (ticket : Fin 16) (m : Move) (hm : (s.course n).runningMove ticket.val = some m)
include hm

/-- A move waits for a hold, a handover, the DRAM clock or the DRAM requests of the Courses (R106, R114, R127). -/
theorem exec_delayMoveComplete_waits (hw : s.moveWaits m = true) : exec (.delayMoveComplete n ticket) s = .next s := by
  show execDelayMoveComplete n ticket s = _
  simp only [execDelayMoveComplete, hm, hw, Bool.or_true, if_true]

/-- A move that may touch all its words completes (R106, R194). -/
theorem exec_delayMoveComplete_done (hb : s.moveBlock n m = none) (hw : s.moveWaits m = false) (hu : Unarmed s) :
    let t := (s.moveResult n m m.len).moveEnd n m .complete
    exec (.delayMoveComplete n ticket) s = .next (if m.event then t.raiseEvent (24 + n.val) (BitVec.ofNat 32 m.ticket) else t) := by
  have hchecked : s.moveChecked m = s := by
    rw [State.moveChecked]
    dsimp only
    rw [State.memTouch_unarmed s _ _ hu, State.memTouch_unarmed s _ _ hu]
  show execDelayMoveComplete n ticket s = _
  simp only [execDelayMoveComplete, hm, hb, hw, Option.isSome_none, Bool.or_self, Bool.false_eq_true, if_false, hchecked]

/-- A move that meets a word it may not touch is aborted behind the words before it (R106, R112, R119). -/
theorem exec_delayMoveAbort_refused (i : Nat) (k : RefKind) (w : Bool) (hb : s.moveBlock n m = some (i, k, w)) :
    exec (.delayMoveAbort n ticket) s = .next (((s.moveResult n m i).moveEnd n m .aborted).refuseMove k w) := by
  show execDelayMoveAbort n ticket s = _
  simp only [execDelayMoveAbort, hm, hb]
  rfl

end

/-- Settles O17: the copy in the order of R106, the waits and ends of a move, and the words left open. -/
theorem moves : Obligations.Moves := by
  unfold Obligations.Moves
  refine ⟨fun s m hsrc hdst _ => ?copy, fun s n ticket m hm => ⟨exec_delayMoveComplete_waits s n ticket m hm,
    exec_delayMoveComplete_done s n ticket m hm, fun i c a w hb => exec_delayMoveAbort_refused s n ticket m hm i _ w hb,
    fun i b a w hb => exec_delayMoveAbort_refused s n ticket m hm i _ w hb⟩, fun s n m count hsrc hdst _ => ?result⟩
  case copy =>
    obtain ⟨hcopied, hkept⟩ := s.moveCopy_get m (moveRangeOk_low hsrc) (moveRangeOk_low hdst)
    obtain ⟨d, c, e⟩ := s.moveCopy_shape m m.len
    refine ⟨?_, hcopied, fun a ha hout _ => hkept a ha hout⟩
    rw [e]
  case result =>
    obtain ⟨hframe, hraced, hcopy, hfree, hkept⟩ := s.moveResult_effect n m count (moveRangeOk_low hsrc) (moveRangeOk_low hdst)
    exact ⟨hframe, hraced, hcopy, hfree, fun a ha _ hna hnc => hkept a ha hna hnc⟩

end Sys2Proof.Machine
end

section
/-! Handovers of scratch banks (R112 to R114) and the slow Ridge (R135, R136). -/

namespace Sys2Proof.Machine

-- One theorem after another, so that the compile of the whole text stays within its memory.
set_option Elab.async false

/-! ## Handovers -/

section
variable (s : State) (m : Master) (b : Fin 64) (v : Word)

/-- A code that is not reserved names its owner, and raises no event. -/
theorem execScrOwnWrite_defined (hv : fld v 0 4 < 11 ∨ fld v 0 4 = 15) :
    ownerOf v = fld v 0 4 ∧
    (if 11 ≤ fld v 0 4 ∧ fld v 0 4 ≤ 14 then s.configError (regSCR_OWN b.val) else s) = s := by
  have hr : ¬ (11 ≤ fld v 0 4 ∧ fld v 0 4 ≤ 14) := by omega
  exact ⟨if_neg hr, if_neg hr⟩

/-- The state in which a handover of a bank to an owner is in progress. -/
def State.requestBank (o : Nat) : State := { s.setRbit (regSCR_OWN b.val) 31 with newOwner := mapIns (mapDel s.newOwner b.val) b.val o }

/-- An accepted request of another owner (R113, R114). -/
theorem exec_scrOwnWrite_accepted (hp : s.scrPend b.val = false) (hm : s.mayHandOver m.val b.val = true) (hv : fld v 0 4 < 11 ∨ fld v 0 4 = 15)
    (ho : fld v 0 4 ≠ s.rfld (regSCR_OWN b.val) 0 4) : exec (.scrOwnWrite m b v) s = .next (s.requestBank b (fld v 0 4)) := by
  obtain ⟨hown, hs⟩ := execScrOwnWrite_defined s b v hv
  show execScrOwnWrite m b v s = _
  simp only [execScrOwnWrite, hs, hp, hm, hown, if_neg ho, Bool.not_true, Bool.false_eq_true, false_and, if_false]
  rfl

/-- A request that the master may not make is recorded (R113). -/
theorem exec_scrOwnWrite_refused (hp : s.scrPend b.val = false) (hm : s.mayHandOver m.val b.val = false) (hv : fld v 0 4 < 11 ∨ fld v 0 4 = 15) :
    exec (.scrOwnWrite m b v) s = .next (s.scratchRefused 1 m.val b.val 0) := by
  obtain ⟨-, hs⟩ := execScrOwnWrite_defined s b v hv
  show execScrOwnWrite m b v s = _
  simp only [execScrOwnWrite, hs, hp, hm, Bool.not_false, and_self, if_true]

/-- What an accepted request leaves (R114). -/
theorem State.requestBank_effect (o : Nat) :
    let t := s.requestBank b o
    t = { s with regs := t.regs, newOwner := t.newOwner } ∧
    t.reg (regSCR_OWN b.val) = s.reg (regSCR_OWN b.val) ||| 0x80000000#32 ∧ t.scrPend b.val = true ∧ t.scrOwner b.val = o ∧
    (∀ a, a ≠ regSCR_OWN b.val → t.reg a = s.reg a) ∧ (∀ d, d ≠ b.val → mapFind t.newOwner d = mapFind s.newOwner d) := by
  intro t
  have hpend : t.scrPend b.val = true := by
    show (s.setRbit (regSCR_OWN b.val) 31).rbit (regSCR_OWN b.val) 31 = true
    rw [State.rbit_setRbit _ _ _ _ _ (by decide), decide_eq_true rfl, decide_eq_true rfl, Bool.and_self, Bool.or_true]
  refine ⟨rfl, State.reg_setReg_self _ _ _, hpend, ?_, fun a ha => State.reg_setRbit_ne s _ _ _ ha, fun d hd => ?_⟩
  · have hfind : mapFind t.newOwner b.val = some o := mapFind_ins_self _ _ _ (mapFind_del_self _ _)
    rw [State.scrOwner, if_pos hpend, hfind]
    rfl
  · show mapFind (mapIns (mapDel s.newOwner b.val) b.val o) d = _
    rw [mapFind_ins_ne _ _ hd, mapFind_del_ne _ hd]

/-- The register of HO_DONE that holds the bit of a bank. -/
def hoDone (b : Nat) : Nat := if b < 32 then regSCR_HO_DONE_LO else regSCR_HO_DONE_HI

/-- The state in which a bank has its new owner, before the event (R114). -/
def State.bankOwned : State :=
  State.setRbit { s.setReg (regSCR_OWN b.val) (BitVec.ofNat 32 (s.scrOwner b.val)) with newOwner := mapDel s.newOwner b.val } (hoDone b.val) (b.val % 32)

theorem State.handOver_eq : s.handOver b = (s.bankOwned b).raiseEvent 40 (BitVec.ofNat 32 b.val) := by
  unfold State.handOver State.bankOwned hoDone
  by_cases h : b.val < 32
  · simp only [if_pos h, Nat.mod_eq_of_lt h]
    rfl
  · have hmod : b.val - 32 = b.val % 32 := by omega
    simp only [if_neg h, hmod]
    rfl

/-- What the completion of a handover leaves behind its event (R114). -/
theorem State.bankOwned_effect (ho : s.scrOwner b.val < 16) :
    let u := s.bankOwned b
    u = { s with regs := u.regs, newOwner := u.newOwner } ∧
    u.reg (regSCR_OWN b.val) = BitVec.ofNat 32 (s.scrOwner b.val) ∧ u.scrPend b.val = false ∧ u.rbit (hoDone b.val) (b.val % 32) = true ∧
    (∀ a, a ≠ regSCR_OWN b.val → a ≠ hoDone b.val → u.reg a = s.reg a) := by
  intro u
  have hne : regSCR_OWN b.val ≠ hoDone b.val := by
    have hb := b.isLt
    unfold hoDone
    split
    · simp only [regSCR_OWN, regSCR_HO_DONE_LO]
      omega
    · simp only [regSCR_OWN, regSCR_HO_DONE_HI]
      omega
  have hown : u.reg (regSCR_OWN b.val) = BitVec.ofNat 32 (s.scrOwner b.val) :=
    (State.reg_setRbit_ne _ _ _ _ hne).trans (State.reg_setReg_self s _ _)
  refine ⟨rfl, hown, ?_, ?_, fun a h1 h2 => (State.reg_setRbit_ne _ _ _ _ h2).trans (State.reg_setReg_ne s _ h1)⟩
  · show bit (u.reg (regSCR_OWN b.val)) 31 = false
    rw [hown, bit, BitVec.getLsbD_ofNat, Nat.testBit_eq_false_of_lt (by omega), Bool.and_false]
  · refine (State.rbit_setRbit _ _ _ _ _ (by omega)).trans ?_
    rw [decide_eq_true rfl, decide_eq_true rfl, Bool.and_self, Bool.or_true]

end

/-! ## The slow Ridge -/

/-- A write of SLOW in maintenance mode (R135, R136). -/
theorem exec_ridgeSlowWrite_maintenance (s : State) (m : Master) (v : Word) (h : s.rbit regGLOBAL_MODE 16 = true) :
    exec (.ridgeSlowWrite m v) s = .next ((s.setReg regRIDGE_CTRL (v &&& 1#32)).putRbit regRIDGE_STATUS 1 (bit v 0 != s.rbit regRIDGE_STATUS 0)) := by
  show execRidgeSlowWrite m v s = _
  simp only [execRidgeSlowWrite, h, if_true]

/-- Settles O18: requests and completions of handovers, and the slow Ridge. -/
theorem handoversAndSlow : Obligations.HandoversAndSlow := by
  unfold Obligations.HandoversAndSlow
  refine ⟨fun s m b v => ?handovers, fun s m v => ?slow⟩
  case handovers =>
    refine ⟨fun hp hm hv ho => ⟨_, exec_scrOwnWrite_accepted s m b v hp hm hv ho, s.requestBank_effect b _⟩,
      exec_scrOwnWrite_refused s m b v, fun hbusy => ?_, fun hp hbusy ho => ?_⟩
    · show execHandoverComplete b s = _
      simp only [execHandoverComplete, hbusy, Bool.not_true, Bool.and_false, Bool.false_eq_true, if_false]
    · refine ⟨_, s.bankOwned b, ?_, s.handOver_eq b, s.bankOwned_effect b ho⟩
      show execHandoverComplete b s = _
      simp only [execHandoverComplete, hbusy, hp, Bool.not_false, Bool.and_self, if_true]
  case slow =>
    have hne : regRIDGE_CTRL ≠ regRIDGE_STATUS := by decide
    refine ⟨fun h => ?_, fun h => ⟨_, exec_ridgeSlowWrite_maintenance s m v h, ⟨rfl, fun a ha => ?_⟩, ?_, ?_, ?_⟩, fun h => ⟨s.sliceSwitch, rfl, ?_⟩⟩
    · show execRidgeSlowWrite m v s = _
      simp only [execRidgeSlowWrite, h, Bool.false_eq_true, if_false]
    · simp only [List.mem_cons, List.not_mem_nil, or_false, not_or] at ha
      rw [State.reg_putRbit_ne _ _ _ _ _ ha.2, State.reg_setReg_ne s _ ha.1]
    · rw [State.reg_putRbit_ne _ _ _ _ _ hne, State.reg_setReg_self]
    · rw [State.rbit_putRbit _ _ _ _ _ _ (by decide), if_neg (by decide), State.rbit_setReg, if_neg hne.symm]
    · rw [State.rbit_putRbit _ _ _ _ _ _ (by decide), if_pos ⟨rfl, rfl⟩]
    · have hs : s.sliceSwitch = (s.putRbit regRIDGE_STATUS 0 (s.rbit regRIDGE_CTRL 0)).putRbit regRIDGE_STATUS 1 false := if_pos h
      rw [hs]
      refine ⟨⟨rfl, fun a ha => ?_⟩, ?_, ?_⟩
      · have hna : a ≠ regRIDGE_STATUS := fun e => ha (List.mem_singleton.2 e)
        rw [State.reg_putRbit_ne _ _ _ _ _ hna, State.reg_putRbit_ne _ _ _ _ _ hna]
      · rw [State.rbit_putRbit _ _ _ _ _ _ (by decide), if_neg (by decide), State.rbit_putRbit _ _ _ _ _ _ (by decide), if_pos ⟨rfl, rfl⟩]
      · rw [State.rbit_putRbit _ _ _ _ _ _ (by decide), if_pos ⟨rfl, rfl⟩]

end Sys2Proof.Machine
end

section
/-! Start, completion and deadlines of foreground work (R29 to R35, R70, R77). -/

namespace Sys2Proof.Machine

-- One theorem after another, so that the compile of the whole text stays within its memory.
set_option Elab.async false

/-! ## The start of the foreground work -/

/-- A Course that enters FORE for its frame (R35, R45). -/
def Course.enterFore (entry : BitVec 14) (c : Course) : Course :=
  { c with
    phase := .fore, fg := { c.fg with pc := entry, slot := none, rep := none, bundle := [], stall := none, ended := false }
    feedCur := [], tapCur := [], ioStall := 0, mboxStall := 0, ioOpen := false, mboxOpen := false
    pageOld := c.pageOld.filter fun e => decide (c.frame < e.1) }

theorem exec_foregroundStart_due (s : State) (n : CourseId) (ht : s.ticking = true) (ha : s.asleep = false) (hp : (s.course n).phase = .entry)
    (hf : (s.course n).frame ≤ s.now) (hm : s.matrixDone (s.course n).frame = true) (hh : (s.course n).haltDue = false) :
    exec (.foregroundStart n) s = .next (s.modCourse n (Course.enterFore (BitVec.ofNat 14 (s.rfld (regC_FG_ENTRY n.val) 0 14)))) := by
  show execForegroundStart n s = _
  have hdue : (s.ticking && !s.asleep && decide ((s.course n).phase = .entry) && decide ((s.course n).frame ≤ s.now) &&
      s.matrixDone (s.course n).frame && !(s.course n).haltDue) = true := by
    rw [ht, ha, hp, hm, hh, decide_eq_true hf]
    rfl
  rw [execForegroundStart]
  exact congrArg Host.Outcome.next (if_pos hdue)

/-! ## The completion of the foreground work -/

theorem State.retireTaps_shape (s : State) (n : CourseId) (k : Nat) (ws : List (Nat × Word)) : ∃ l, s.retireTaps n k ws = { s with lines := l } := by
  unfold State.retireTaps
  generalize s.linesOn n.val = ls
  induction ls generalizing s with
  | nil => exact ⟨s.lines, rfl⟩
  | cons i ls ih => exact ih _

/-- A work that met its deadline: no missed deadline at or behind its frame (R31). -/
def Course.metDeadline (c : Course) : Bool := match c.missed with | some m => decide (m < c.frame) | none => true

/-- The Course behind the completion of its foreground work: the results in flight are written, and the feeds pass on where the deadline was met (R31, R70). -/
def Course.completeFore (late : Bool) (c : Course) : Course :=
  { c with
    fg := c.fg.drain, frame := c.frame + 1, feedOut := if c.metDeadline then c.feedCur else []
    feedFrame := if c.metDeadline then some c.frame else none, phase := if late || c.haltDue then .entry else .sleep }

/-- The cycle counts of a completed work (R77). -/
def State.countWork (s : State) (n : CourseId) (cycles stall : Nat) : State :=
  let s1 := (s.setRfld (regC_CYCLES n.val) 16 16 cycles).setReg (regC_STALL_LAST n.val) (BitVec.ofNat 32 stall)
  s1.setReg (regC_FG_MAX n.val) (BitVec.ofNat 32 (Nat.max (s1.rfld (regC_FG_MAX n.val) 0 16) cycles))

/-- A work that ran late is marked, with the longest time behind (R33). -/
def State.markLate (s : State) (n : CourseId) (late : Bool) (behind : Nat) : State :=
  if late then
    (s.setRbit regGLOBAL_PIPE_STAT (8 + n.val)).setReg (regC_BACKLOG_MAX n.val) (BitVec.ofNat 32 (Nat.max (s.rfld (regC_BACKLOG_MAX n.val) 0 16) behind))
  else s

/-- The completion of a work with no task to resume, no halt due and no stall of open length. -/
theorem exec_foregroundWorkComplete_done (s : State) (n : CourseId) (cycles behind : BitVec 16) (hp : (s.course n).phase = .fore)
    (he : (s.course n).fg.ended = true) (hposted : ∀ p ∈ (s.course n).posted, p.x = .bg) (ht : (s.course n).task = none)
    (hh : (s.course n).haltDue = false) (hio : (s.course n).ioOpen = false) (hmb : (s.course n).mboxOpen = false) :
    ∃ stall lines, exec (.foregroundWorkComplete n cycles behind) s =
      .next (({ (s.countWork n cycles.toNat stall).markLate n (decide ((s.course n).frame < s.now)) behind.toNat with lines := lines } : State).setCourse n
        ((s.course n).completeFore (decide ((s.course n).frame < s.now)))) := by
  let late := decide ((s.course n).frame < s.now)
  let stall := Nat.min 65535 (s.course n).ioStall * 65536 + Nat.min 65535 (s.course n).mboxStall
  obtain ⟨lines, hlines⟩ := ((s.countWork n cycles.toNat stall).markLate n late behind.toNat).retireTaps_shape n (s.course n).frame (s.course n).tapCur
  have hdue : (decide ((s.course n).phase = .fore) && (s.course n).fg.ended && (s.course n).posted.all fun p => decide (p.x ≠ .fg)) = true := by
    rw [hp, he]
    refine List.all_eq_true.2 fun p h => ?_
    rw [hposted p h]
    rfl
  have hcourses : ((s.countWork n cycles.toNat stall).markLate n late behind.toNat).courses = s.courses := by
    unfold State.markLate
    cases late <;> rfl
  have hexec : exec (.foregroundWorkComplete n cycles behind) s =
      .next (({ (s.countWork n cycles.toNat stall).markLate n late behind.toNat with lines := lines } : State).modCourse n fun c => { c with
        fg := c.fg.drain, frame := (s.course n).frame + 1, feedOut := if (s.course n).metDeadline then c.feedCur else []
        feedFrame := if (s.course n).metDeadline then some (s.course n).frame else none
        phase := if late || c.haltDue then .entry else .sleep }) := by
    show execForegroundWorkComplete n cycles behind s = _
    rw [execForegroundWorkComplete, ← hlines]
    refine congrArg Host.Outcome.next ((if_pos hdue).trans ?_)
    rw [hio, hmb, ht, hh]
    by_cases hlate : late = true
    · exact if_pos ((Bool.or_false late).trans hlate)
    · exact (if_neg fun e => hlate ((Bool.or_false late).symm.trans e)).trans (if_neg (by decide))
  refine ⟨stall, lines, hexec.trans (congrArg Host.Outcome.next ?_)⟩
  have hcourse : State.course { (s.countWork n cycles.toNat stall).markLate n late behind.toNat with lines := lines } n = s.course n := by
    rw [State.course, State.course]
    exact congrArg (·.get n) hcourses
  rw [State.modCourse, hcourse]
  rfl

section
variable (s : State) (n : CourseId)

theorem State.reg_countWork_ne (cycles stall a : Nat) (h1 : a ≠ regC_CYCLES n.val) (h2 : a ≠ regC_STALL_LAST n.val) (h3 : a ≠ regC_FG_MAX n.val) :
    (s.countWork n cycles stall).reg a = s.reg a := by
  unfold State.countWork
  rw [State.reg_setReg_ne _ _ h3, State.reg_setReg_ne _ _ h2, State.reg_setRfld_ne _ _ _ _ _ _ h1]

theorem State.countWork_cycles (cycles stall : Nat) (hc : cycles < 65536) : (s.countWork n cycles stall).rfld (regC_CYCLES n.val) 16 16 = cycles := by
  unfold State.countWork State.rfld
  rw [State.reg_setReg_ne _ _ (by simp only [regC_CYCLES, regC_FG_MAX]; omega), State.reg_setReg_ne _ _ (by simp only [regC_CYCLES, regC_STALL_LAST]; omega)]
  exact (s.rfld_setRfld_self _ 16 16 cycles (by decide)).trans (Nat.mod_eq_of_lt hc)

theorem State.countWork_longest (cycles stall : Nat) :
    (s.countWork n cycles stall).reg (regC_FG_MAX n.val) = BitVec.ofNat 32 (max (s.rfld (regC_FG_MAX n.val) 0 16) cycles) := by
  have hkeep : ((s.setRfld (regC_CYCLES n.val) 16 16 cycles).setReg (regC_STALL_LAST n.val) (BitVec.ofNat 32 stall)).rfld (regC_FG_MAX n.val) 0 16 =
      s.rfld (regC_FG_MAX n.val) 0 16 := by
    unfold State.rfld
    rw [State.reg_setReg_ne _ _ (by simp only [regC_FG_MAX, regC_STALL_LAST]; omega),
      State.reg_setRfld_ne _ _ _ _ _ _ (by simp only [regC_FG_MAX, regC_CYCLES]; omega)]
  unfold State.countWork
  rw [State.reg_setReg_self, hkeep]

theorem State.reg_markLate_ne (late : Bool) (behind a : Nat) (h : late = true → a ≠ regGLOBAL_PIPE_STAT ∧ a ≠ regC_BACKLOG_MAX n.val) :
    (s.markLate n late behind).reg a = s.reg a := by
  cases late with
  | false => rfl
  | true =>
    obtain ⟨h1, h2⟩ := h rfl
    exact (State.reg_setReg_ne _ _ h2).trans (State.reg_setRbit_ne _ _ _ _ h1)

theorem State.markLate_late (behind : Nat) :
    (s.markLate n true behind).rbit regGLOBAL_PIPE_STAT (8 + n.val) = true ∧
    (s.markLate n true behind).reg (regC_BACKLOG_MAX n.val) = BitVec.ofNat 32 (max (s.rfld (regC_BACKLOG_MAX n.val) 0 16) behind) := by
  have hne : regGLOBAL_PIPE_STAT ≠ regC_BACKLOG_MAX n.val := by simp only [regGLOBAL_PIPE_STAT, regC_BACKLOG_MAX]; omega
  have hn := n.isLt
  refine ⟨?_, State.reg_setReg_self _ _ _⟩
  rw [State.markLate, if_pos rfl, State.rbit_setReg, if_neg hne, State.rbit_setRbit _ _ _ _ _ (by omega), decide_eq_true rfl, decide_eq_true rfl,
    Bool.and_self, Bool.or_true]

theorem State.markLate_frame (late : Bool) (behind : Nat) : s.markLate n late behind = { s with regs := (s.markLate n late behind).regs } := by
  cases late <;> rfl

end

/-- A change of registers, lines and a Course changes nothing else. -/
theorem State.setCourse_frame (s : State) (n : CourseId) (lines : List (Nat × Line)) (k : Course) {v : State} (hv : ∃ r, v = { s with regs := r }) :
    let t := ({ v with lines := lines } : State).setCourse n k
    t = { s with regs := t.regs, courses := t.courses, lines := t.lines } := by
  obtain ⟨r, rfl⟩ := hv
  rfl

/-- What the completion of a work leaves (R31, R33, R70, R77). -/
theorem foregroundWorkComplete_effect (s : State) (n : CourseId) (cycles behind : BitVec 16) : let c := s.course n
     c.phase = .fore → c.fg.ended = true → (∀ p ∈ c.posted, p.x = .bg) → c.task = none → c.haltDue = false → c.ioOpen = false → c.mboxOpen = false →
     ∃ t, exec (.foregroundWorkComplete n cycles behind) s = .next t ∧
       t = { s with regs := t.regs, courses := t.courses, lines := t.lines } ∧
       (∀ m, m ≠ n → t.course m = s.course m) ∧
       (∀ a, a ∉ [regC_CYCLES n.val, regC_STALL_LAST n.val, regC_FG_MAX n.val, regC_BACKLOG_MAX n.val, regGLOBAL_PIPE_STAT] → t.reg a = s.reg a) ∧
       t.rfld (regC_CYCLES n.val) 16 16 = cycles.toNat ∧
       t.reg (regC_FG_MAX n.val) = BitVec.ofNat 32 (max (s.rfld (regC_FG_MAX n.val) 0 16) cycles.toNat) ∧
       (t.course n).fg = c.fg.drain ∧ (t.course n).frame = c.frame + 1 ∧
       ((∀ m, c.missed = some m → m < c.frame) → (t.course n).feedOut = c.feedCur ∧ (t.course n).feedFrame = some c.frame) ∧
       ((∃ m, c.missed = some m ∧ c.frame ≤ m) → (t.course n).feedOut = [] ∧ (t.course n).feedFrame = none) ∧
       (s.now ≤ c.frame → (t.course n).phase = .sleep ∧ t.reg regGLOBAL_PIPE_STAT = s.reg regGLOBAL_PIPE_STAT) ∧
       (c.frame < s.now → (t.course n).phase = .entry ∧ t.rbit regGLOBAL_PIPE_STAT (8 + n.val) = true ∧
         t.reg (regC_BACKLOG_MAX n.val) = BitVec.ofNat 32 (max (s.rfld (regC_BACKLOG_MAX n.val) 0 16) behind.toNat)) := by
  intro c hp he hposted ht hh hio hmb
  obtain ⟨stall, lines, hexec⟩ := exec_foregroundWorkComplete_done s n cycles behind hp he hposted ht hh hio hmb
  let w := s.countWork n cycles.toNat stall
  let late := decide (c.frame < s.now)
  let u := w.markLate n late behind.toNat
  have hcourses : u.courses = s.courses := by
    show (w.markLate n late behind.toNat).courses = _
    rw [State.markLate_frame]
    rfl
  have hself : State.course (({ u with lines := lines } : State).setCourse n (c.completeFore late)) n = c.completeFore late :=
    State.course_setCourse_self _ n _
  have hwork (a : Nat) (h : late = true → a ≠ regGLOBAL_PIPE_STAT ∧ a ≠ regC_BACKLOG_MAX n.val) : u.reg a = w.reg a :=
    State.reg_markLate_ne w n late behind.toNat a h
  refine ⟨_, hexec, ?_, fun m hm => ?_, fun a ha => ?_, ?_, ?_, ?_⟩
  · exact State.setCourse_frame s n lines _ ⟨_, w.markLate_frame n late behind.toNat⟩
  · refine (State.course_setCourse_ne _ _ hm).trans ?_
    show u.courses.get m = _
    rw [hcourses]
    rfl
  · simp only [List.mem_cons, List.not_mem_nil, or_false, not_or] at ha
    obtain ⟨h1, h2, h3, h4, h5⟩ := ha
    exact (hwork a fun _ => ⟨h5, h4⟩).trans (s.reg_countWork_ne n _ _ a h1 h2 h3)
  · show fld (u.reg (regC_CYCLES n.val)) 16 16 = _
    rw [hwork _ fun _ => ⟨by simp only [regC_CYCLES, regGLOBAL_PIPE_STAT]; omega, by simp only [regC_CYCLES, regC_BACKLOG_MAX]; omega⟩]
    exact s.countWork_cycles n _ _ cycles.isLt
  · show u.reg (regC_FG_MAX n.val) = _
    rw [hwork _ fun _ => ⟨by simp only [regC_FG_MAX, regGLOBAL_PIPE_STAT]; omega, by simp only [regC_FG_MAX, regC_BACKLOG_MAX]; omega⟩]
    exact s.countWork_longest n _ _
  · rw [show State.course (({ (s.countWork n cycles.toNat stall).markLate n (decide ((s.course n).frame < s.now)) behind.toNat with
      lines := lines } : State).setCourse n ((s.course n).completeFore (decide ((s.course n).frame < s.now)))) n = c.completeFore late from hself]
    refine ⟨rfl, rfl, fun hmet => ?_, fun ⟨m, hm, hle⟩ => ?_, fun hle => ⟨?_, ?_⟩, fun hlt => ⟨?_, ?_, ?_⟩⟩
    · have hd : c.metDeadline = true := by
        unfold Course.metDeadline
        cases hm : c.missed with
        | none => rfl
        | some m => exact decide_eq_true (hmet m hm)
      exact ⟨if_pos hd, if_pos hd⟩
    · have hd : ¬ c.metDeadline = true := by
        unfold Course.metDeadline
        rw [hm]
        exact fun e => absurd hle (Nat.not_le.2 (of_decide_eq_true e))
      exact ⟨if_neg hd, if_neg hd⟩
    · have hlate : (late || c.haltDue) = false := by rw [show late = false from decide_eq_false (Nat.not_lt.2 hle), hh]; rfl
      exact if_neg (by rw [hlate]; decide)
    · have hlate : late = false := decide_eq_false (Nat.not_lt.2 hle)
      refine (hwork _ fun e => nomatch hlate.symm.trans e).trans (s.reg_countWork_ne n _ _ _ ?_ ?_ ?_)
      · simp only [regC_CYCLES, regGLOBAL_PIPE_STAT]; omega
      · simp only [regC_STALL_LAST, regGLOBAL_PIPE_STAT]; omega
      · simp only [regC_FG_MAX, regGLOBAL_PIPE_STAT]; omega
    · have hlate : late = true := decide_eq_true hlt
      exact if_pos (by rw [hlate]; rfl)
    · have hlate : late = true := decide_eq_true hlt
      show (w.markLate n late behind.toNat).rbit regGLOBAL_PIPE_STAT (8 + n.val) = true
      rw [hlate]
      exact (w.markLate_late n behind.toNat).1
    · have hlate : late = true := decide_eq_true hlt
      have hkeep : w.rfld (regC_BACKLOG_MAX n.val) 0 16 = s.rfld (regC_BACKLOG_MAX n.val) 0 16 := by
        refine congrArg (fld · 0 16) (s.reg_countWork_ne n _ _ _ ?_ ?_ ?_)
        · simp only [regC_CYCLES, regC_BACKLOG_MAX]; omega
        · simp only [regC_STALL_LAST, regC_BACKLOG_MAX]; omega
        · simp only [regC_FG_MAX, regC_BACKLOG_MAX]; omega
      show (w.markLate n late behind.toNat).reg (regC_BACKLOG_MAX n.val) = _
      rw [hlate, (w.markLate_late n behind.toNat).2, hkeep]

/-! ## Deadlines -/

/-- The state that has noted a missed deadline (R31). -/
def State.missDeadline (s : State) (n : CourseId) (k : Nat) : State :=
  (((s.setRbit regGLOBAL_PIPE_STAT (16 + n.val)).setRbit regGLOBAL_PIPE_STAT (8 + n.val)).count (regC_OVERRUN_CNT n.val) 1).modCourse n
    fun c => { c with missed := some k }

theorem exec_slackMiss_due (s : State) (n : CourseId) (ht : s.ticking = true) (h1 : 1 ≤ s.now) (hf : (s.course n).frame ≤ s.now - 1)
    (hp : (s.course n).phase = .fore ∨ (s.course n).phase = .entry) (hm : ∀ m, (s.course n).missed = some m → m < s.now - 1) :
    exec (.slackMiss n) s = .next ((s.missDeadline n (s.now - 1)).faultOccurs (24 + n.val)) := by
  have hnew : (match (s.course n).missed with | some m => decide (s.now - 1 ≤ m) | none => false) = false := by
    cases h : (s.course n).missed with
    | none => rfl
    | some m => exact decide_eq_false (Nat.not_le.2 (hm m h))
  have hphase : (decide ((s.course n).phase = .fore) || decide ((s.course n).phase = .entry)) = true := by
    rcases hp with h | h
    all_goals
      rw [h]
      rfl
  show execSlackMiss n s = _
  rw [execSlackMiss]
  refine congrArg Host.Outcome.next (if_pos ?_)
  rw [ht, decide_eq_true h1, decide_eq_true hf, hphase]
  exact congrArg Bool.not hnew

theorem State.missDeadline_effect (s : State) (n : CourseId) (k : Nat) :
    let u := s.missDeadline n k
    u = { s with regs := u.regs, courses := u.courses } ∧ u.rbit regGLOBAL_PIPE_STAT (16 + n.val) = true ∧
    u.rbit regGLOBAL_PIPE_STAT (8 + n.val) = true ∧ u.reg (regC_OVERRUN_CNT n.val) = satAdd (s.reg (regC_OVERRUN_CNT n.val)) 0 32 1 ∧
    u.course n = { s.course n with missed := some k } ∧ (∀ m, m ≠ n → u.course m = s.course m) ∧
    (∀ a, a ≠ regGLOBAL_PIPE_STAT → a ≠ regC_OVERRUN_CNT n.val → u.reg a = s.reg a) := by
  intro u
  have hn := n.isLt
  have hne : regGLOBAL_PIPE_STAT ≠ regC_OVERRUN_CNT n.val := by simp only [regGLOBAL_PIPE_STAT, regC_OVERRUN_CNT]; omega
  have hbit (i : Nat) (hi : i < 32) : u.rbit regGLOBAL_PIPE_STAT i = (s.rbit regGLOBAL_PIPE_STAT i || decide (i = 16 + n.val) || decide (i = 8 + n.val)) := by
    refine (congrArg (bit · i) (State.reg_setReg_ne _ _ hne)).trans ?_
    show State.rbit ((s.setRbit regGLOBAL_PIPE_STAT (16 + n.val)).setRbit regGLOBAL_PIPE_STAT (8 + n.val)) regGLOBAL_PIPE_STAT i = _
    rw [State.rbit_setRbit _ _ _ _ _ hi, State.rbit_setRbit _ _ _ _ _ hi, decide_eq_true rfl, Bool.true_and, Bool.true_and]
  refine ⟨rfl, ?_, ?_, ?_, State.course_modCourse_self _ _ _, fun m hm => State.course_modCourse_ne _ _ hm, fun a h1 h2 => ?_⟩
  · rw [hbit _ (by omega), decide_eq_true rfl, Bool.or_true, Bool.true_or]
  · rw [hbit _ (by omega), decide_eq_true rfl, Bool.or_true]
  · refine (State.reg_setReg_self _ _ _).trans ?_
    rw [State.reg_setRbit_ne _ _ _ _ hne.symm, State.reg_setRbit_ne _ _ _ _ hne.symm]
  · refine (State.reg_setReg_ne _ _ h2).trans ?_
    rw [State.reg_setRbit_ne _ _ _ _ h1, State.reg_setRbit_ne _ _ _ _ h1]

/-- Settles O20: the start and the completion of foreground work, and its deadlines. -/
theorem foregroundFrames : Obligations.ForegroundFrames := by
  unfold Obligations.ForegroundFrames
  refine ⟨fun s n => ?start, foregroundWorkComplete_effect, fun s n => ?deadlines⟩
  case start =>
    intro c ht ha hp hf hm hh
    refine ⟨_, exec_foregroundStart_due s n ht ha hp hf hm hh, s.modCourse_onlyCourse n _, ?_⟩
    rw [State.course_modCourse_self]
    exact ⟨rfl, rfl, rfl, rfl, rfl, rfl, rfl, rfl, rfl⟩
  case deadlines =>
    intro c ht
    refine ⟨fun h1 hf hp hm => ⟨_, exec_slackMiss_due s n ht h1 hf hp hm, s.missDeadline_effect n _⟩, fun hp hf => ?_⟩
    show execBacklogLimit n s = _
    rw [execBacklogLimit]
    refine congrArg Host.Outcome.next (if_pos ?_)
    rw [ht, decide_eq_true hf, decide_eq_true hp]
    rfl

end Sys2Proof.Machine
end

section
/-! Control of a Course (R72, R73, R77), the writes of its memories (R78, R332), the declared delay counts (R129), and the reload after a reset (R72, R329). -/

namespace Sys2Proof.Machine

-- One theorem after another, so that the compile of the whole text stays within its memory.
set_option Elab.async false

theorem fin_val (n : CourseId) : fin 7 n.val = n := Fin.ext (Nat.mod_eq_of_lt n.isLt)

/-! ## Control -/

section
variable (s : State) (m : Master) (n : CourseId) (v : Word)

theorem exec_courseHalted_due (hh : (s.course n).haltDue = true) (hd : (s.course n).preemptDue = false)
    (hp : (s.course n).phase = .entry ∨ (s.course n).phase = .sleep ∨ (s.course n).phase = .back) :
    exec (.courseHalted n) s = .next (s.setCourse n { s.course n with
      bg := if (s.course n).phase = .back then (s.course n).bg.preempt else (s.course n).bg, phase := .halted, haltDue := false,
      feedFrame := none, feedOut := [], feedLevel := 0 }) := by
  show execCourseHalted n s = _
  rw [execCourseHalted]
  refine congrArg Host.Outcome.next (if_pos ?_)
  rw [hh, hd]
  rcases hp with h | h | h
  all_goals
    rw [h]
    rfl

/-- The registers that are written only when the Course is halted, with their written bits (R77). -/
theorem haltedReg_mem (r : Nat × Word)
    (hr : r ∈ [(regC_FG_ENTRY n.val, 0x00003FFF#32), (regC_DMEM_SPLIT n.val, 0x0000007F#32), (regC_AMODE_FG n.val, 0xFFFFFFFF#32)]) :
    (BitVec.ofNat 32 r.1).toNat = r.1 ∧ haltedReg r.1 = some (n, r.2) := by
  revert r
  revert n
  decide

theorem exec_courseHaltedRegisterWrite_known (r : Nat × Word)
    (hr : r ∈ [(regC_FG_ENTRY n.val, 0x00003FFF#32), (regC_DMEM_SPLIT n.val, 0x0000007F#32), (regC_AMODE_FG n.val, 0xFFFFFFFF#32)]) :
    exec (.courseHaltedRegisterWrite m (BitVec.ofNat 32 r.1) v) s =
      .next (if (s.course n).isHalted then s.setReg r.1 (v &&& r.2) else s.setRbit (regC_STATUS n.val) 20) := by
  obtain ⟨haddr, hknown⟩ := haltedReg_mem n r hr
  show execCourseHaltedRegisterWrite m (BitVec.ofNat 32 r.1) v s = _
  simp only [execCourseHaltedRegisterWrite, haddr, hknown]

end

/-! ## The declared delay counts -/

/-- The taps that start anew lie in the Course, and nothing but the taps changes (R121). -/
theorem State.tapsAnew_shape (s : State) (n : Nat) : ∃ ts, s.tapsAnew n = { s with taps := ts } ∧ ∀ j, j / 2048 ≠ n → mapFind ts j = mapFind s.taps j := by
  have key (l : List (Nat × Tap)) (t : State) (ht : ∃ ts, t = { s with taps := ts } ∧ ∀ j, j / 2048 ≠ n → mapFind ts j = mapFind s.taps j) :
      ∃ ts, l.foldl (fun (t : State) e =>
        let j := e.1 % 2048
        if s.tapEn n j && decide (e.2.delayNow = delayOf (s.lineLen n (s.tapLine n j)) (s.tabGet (tapAddr n j 1))) then t
        else t.tapForget n j) t = { s with taps := ts } ∧ ∀ j, j / 2048 ≠ n → mapFind ts j = mapFind s.taps j := by
    induction l generalizing t with
    | nil => exact ht
    | cons e l ih =>
      refine ih _ ?_
      dsimp only
      split
      · exact ht
      · obtain ⟨ts, rfl, hts⟩ := ht
        refine ⟨_, rfl, fun j hj => ?_⟩
        have hne : j ≠ tapKey n (e.1 % 2048) := by
          intro h
          rw [h, tapKey] at hj
          omega
        exact (mapFind_del_ne ts hne).trans (hts j hj)
  exact key _ s ⟨s.taps, rfl, fun _ _ => rfl⟩

/-! ## The windows of the Course memories -/

/-- The words of the windows (R78). -/
theorem courseWindow_word (n : CourseId) (w : Nat) (hw : w < 65536) :
    (w < 16384 → courseWindow (BitVec.ofNat 32 (0x02000000 + n.val * 0x80000 + 4 * w)).toNat = some (n, true, w)) ∧
    courseWindow (BitVec.ofNat 32 (0x02040000 + n.val * 0x80000 + 4 * w)).toNat = some (n, false, w) := by
  have hn := n.isLt
  have hfin (a : Nat) (h : a = n.val) : fin 7 a = n := h ▸ fin_val n
  refine ⟨fun h16 => ?_, ?_⟩
  · rw [BitVec.toNat_ofNat, Nat.mod_eq_of_lt (by omega), courseWindow, if_pos (by omega)]
    dsimp only
    rw [if_pos (by omega), hfin _ (by omega)]
    congr 3
    omega
  · rw [BitVec.toNat_ofNat, Nat.mod_eq_of_lt (by omega), courseWindow, if_pos (by omega)]
    dsimp only
    rw [if_neg (by omega), if_pos (by omega), hfin _ (by omega)]
    congr 3
    omega

/-- A host write of a word of a Course memory (R78, R332). -/
theorem exec_courseMemoryWindowWrite_word (s : State) (n : CourseId) (prog : Bool) (w : Nat) (a v : Word) (hl : s.debugLock = false)
    (ha : courseWindow a.toNat = some (n, prog, w)) :
    exec (.courseMemoryWindowWrite 10 a v) s = .next (
      if (prog || decide (w < s.fgWords n)) && !(s.course n).isHalted then s.setRbit (regC_STATUS n.val) 20 else s.courseSet n prog w v) := by
  show execCourseMemoryWindowWrite 10 a v s = _
  have hm : ¬ (10 : Master).val ≠ 10 := by decide
  simp only [execCourseMemoryWindowWrite, if_neg hm, hl, Bool.false_eq_true, if_false, ha]

/-! ## The reload of a Course -/

/-- A list of words stored from a place on (R329). -/
theorem memWord_memSetWords (m : List (Nat × Byte)) (k : Nat) (vs : List Word) (w : Nat) :
    memWord (memSetWords m k vs) w = if h : k ≤ w ∧ w - k < vs.length then vs[w - k]'h.2 else memWord m w := by
  induction vs generalizing m k with
  | nil =>
    have hnone : ¬ (k ≤ w ∧ w - k < ([] : List Word).length) := fun h => Nat.not_lt_zero _ h.2
    rw [dif_neg hnone]
    rfl
  | cons v vs ih =>
    rw [memSetWords, ih]
    by_cases hk : k + 1 ≤ w ∧ w - (k + 1) < vs.length
    · have hle : k ≤ w ∧ w - k < (v :: vs).length := ⟨by omega, by rw [List.length_cons]; omega⟩
      rw [dif_pos hk, dif_pos hle]
      have hidx : w - k = (w - (k + 1)) + 1 := by omega
      simp only [hidx, List.getElem_cons_succ]
    · rw [dif_neg hk]
      by_cases hw : w = k
      · subst hw
        rw [memWord_set_self, dif_pos ⟨Nat.le_refl _, by rw [List.length_cons]; omega⟩]
        simp only [Nat.sub_self, List.getElem_cons_zero]
      · rw [memWord_set_ne _ _ hw, dif_neg]
        rintro ⟨hle, hlt⟩
        rw [List.length_cons] at hlt
        exact hk ⟨by omega, by omega⟩

/-- A fold that leaves the data registers alone. -/
theorem foldl_keeps_d {α : Type} (f : Ctx → α → Ctx) (l : List α) (h : ∀ c, ∀ a ∈ l, (f c a).d = c.d) (c : Ctx) : (l.foldl f c).d = c.d := by
  induction l generalizing c with
  | nil => rfl
  | cons a l ih => rw [List.foldl_cons, ih fun c b hb => h c b (List.mem_cons_of_mem a hb), h c a List.mem_cons_self]

theorem merge_all (w v : Word) : merge w (0xFFFFFFFF#32 &&& 0xFFFFFFFF#32) v = v := by
  have hall : (0xFFFFFFFF#32 &&& 0xFFFFFFFF#32 : Word) = 0xFFFFFFFF#32 := BitVec.and_self
  have hnone : (~~~0xFFFFFFFF#32 : Word) = 0#32 := by decide
  rw [hall, merge, hnone, BitVec.and_zero, BitVec.zero_or]
  exact BitVec.and_allOnes

/-- The first data registers of a context filled from words. -/
theorem putWords_d (ws : List Word) (j : Nat) (hj : j ≤ 32) (c : Ctx) (k : Fin 32) :
    ((List.range j).foldl (fun (c : Ctx) i => c.put (.d (fin 31 i)) 0xFFFFFFFF#32 (nthD ws i 0)) c).d.get k =
      if k.val < j then nthD ws k.val 0 else c.d.get k := by
  induction j with
  | zero => rfl
  | succ j ih =>
    rw [List.range_succ, List.foldl_append, List.foldl_cons, List.foldl_nil]
    have ih := ih (by omega)
    generalize (List.range j).foldl (fun (c : Ctx) i => c.put (.d (fin 31 i)) 0xFFFFFFFF#32 (nthD ws i 0)) c = b at ih ⊢
    have hfin : (fin 31 j).val = j := Nat.mod_eq_of_lt (by omega)
    by_cases hk : k = fin 31 j
    · have hkj : k.val = j := (congrArg Fin.val hk).trans hfin
      have hself := Ctx.get_put_self b 0xFFFFFFFF#32 (nthD ws j 0) (.d (fin 31 j))
      have hmerge : merge (b.get (.d (fin 31 j))) (0xFFFFFFFF#32 &&& (CReg.d (fin 31 j)).mask) (nthD ws j 0) = nthD ws j 0 := by
        exact merge_all _ _
      rw [if_pos (by omega), hkj]
      rw [hmerge] at hself
      rw [hk]
      exact hself
    · have hkj : k.val ≠ j := fun e => hk (Fin.ext (e.trans hfin.symm))
      have hne := Ctx.get_put_ne b 0xFFFFFFFF#32 (nthD ws j 0) (r := .d (fin 31 j)) (q := .d k) fun e => hk (CReg.d.inj e)
      refine Eq.trans hne (Eq.trans ih ?_)
      by_cases h : k.val < j
      · rw [if_pos h, if_pos (by omega)]
      · rw [if_neg h, if_neg (by omega)]

/-- The data registers of a context that is given as words (R329). -/
theorem ctxOf_d (ws : List Word) (k : Fin 32) : (ctxOf ws).d.get k = nthD ws k.val 0 := by
  have hacc : ∀ c : Ctx, ((List.range 8).foldl (fun (c : Ctx) i => (c.apply (.acc (fin 7 i) (accOf ws i))).apply (.accOut (fin 7 i) (accOf ws i))) c).d = c.d :=
    foldl_keeps_d _ _ fun _ _ _ => rfl
  have hreg : ∀ e ∈ ctxRegs.zipIdx, ∀ c : Ctx, (c.put e.1 0xFFFFFFFF#32 (nthD ws (56 + e.2) 0)).d = c.d := by
    have hnot : ∀ e ∈ ctxRegs.zipIdx, ∀ j, e.1 ≠ .d j := by decide
    intro e he c
    have hnd := hnot e he
    cases hr : e.1 with
    | d j => exact absurd hr (hnd j)
    | _ => rfl
  unfold ctxOf
  dsimp only
  rw [hacc, foldl_keeps_d _ _ fun c e he => hreg e he c, putWords_d ws 32 (Nat.le_refl _), if_pos k.isLt]

theorem nthD_map_range (f : Nat → Word) (len i : Nat) (h : i < len) : nthD ((List.range len).map f) i 0 = f i := by
  rw [nthD, List.getD_eq_getElem?_getD, List.getElem?_map, List.getElem?_range h]
  rfl

/-- What the reload leaves in its Course (R72, R329). -/
theorem courseResetReloadComplete_effect (s : State) (n : CourseId) : let c := s.course n
    c.phase = .reset → c.reloaded = false → s.dramOn = true → s.headBusy = false → Unarmed s →
    let base := s.resetStore n.val
    ∃ t, exec (.courseResetReloadComplete n) s = .next t ∧ OnlyCourse n s t ∧ (t.course n).reloaded = true ∧ (t.course n).phase = .reset ∧
      (∀ k : Fin 32, (t.course n).fg.d.get k = s.dramGet (base + k.val)) ∧
      (∀ w, w < s.fgWords n → (t.course n).local w = s.dramGet (base + 128 + w)) ∧
      (∀ w, s.fgWords n ≤ w → (t.course n).local w = c.local w) ∧
      (t.course n).bg = c.bg ∧ (t.course n).pmem = c.pmem := by
  intro c hp hr hd hb hu base
  let len := 128 + s.fgWords n
  let ws := (List.range len).map fun i => s.dramGet (base + i)
  let load (k : Course) : Course := { k with fg := ctxOf ws, lmem := memSetWords k.lmem 0 (ws.drop 128), reloaded := true }
  have hexec : exec (.courseResetReloadComplete n) s = .next (s.modCourse n load) := by
    show execCourseResetReloadComplete n s = _
    have hdue : (s.course n).phase = .reset ∧ !(s.course n).reloaded ∧ s.dramOn ∧ !s.headBusy := by
      refine ⟨hp, ?_, hd, ?_⟩
      · rw [show (s.course n).reloaded = false from hr]
        rfl
      · rw [hb]
        rfl
    rw [execCourseResetReloadComplete]
    refine congrArg Host.Outcome.next ((if_pos hdue).trans ?_)
    dsimp only
    rw [State.dramTouch_unarmed s _ _ hu, State.courseInit, State.modCourse_modCourse]
  have hlen : (ws.drop 128).length = s.fgWords n := by
    rw [List.length_drop, List.length_map, List.length_range]
    omega
  have hlocal (w : Nat) : (load c).local w = if w < s.fgWords n then s.dramGet (base + 128 + w) else c.local w := by
    show memWord (memSetWords c.lmem 0 (ws.drop 128)) w = _
    rw [memWord_memSetWords]
    by_cases hw : w < s.fgWords n
    · rw [dif_pos ⟨Nat.zero_le w, by rw [hlen]; exact hw⟩, if_pos hw]
      simp only [Nat.sub_zero, List.getElem_drop, ws, List.getElem_map, List.getElem_range, Nat.add_assoc]
    · rw [dif_neg fun h => hw (hlen ▸ h.2), if_neg hw]
      rfl
  refine ⟨_, hexec, s.modCourse_onlyCourse n load, ?_⟩
  rw [State.course_modCourse_self]
  refine ⟨rfl, hp, fun k => ?_, fun w hw => (hlocal w).trans (if_pos hw), fun w hw => (hlocal w).trans (if_neg (Nat.not_lt.2 hw)), rfl, rfl⟩
  have hk := k.isLt
  exact (ctxOf_d ws k).trans (nthD_map_range _ _ _ (by omega))

/-- Settles O21: the control of a Course, its registers and memories as the host writes them, and the reload after a reset. -/
theorem courseControl : Obligations.CourseControl := by
  unfold Obligations.CourseControl
  refine ⟨fun s m n v => ?control, fun s n w v hl hw => ?windows, courseResetReloadComplete_effect⟩
  case control =>
    intro c
    refine ⟨rfl, rfl, rfl, exec_courseHalted_due s n, fun r hr => ?_, fun hp => ?_, fun hp => ?_⟩
    · rw [exec_courseHaltedRegisterWrite_known s m n v r hr]
      refine ⟨fun hp => congrArg Host.Outcome.next (if_pos ?_), fun hp => congrArg Host.Outcome.next (if_neg ?_)⟩
      · exact decide_eq_true hp
      · exact fun e => hp (of_decide_eq_true e)
    · obtain ⟨ts, he, hts⟩ := (s.setReg (regDLY_DECL n.val) (v &&& 0x0FFF07FF#32)).tapsAnew_shape n.val
      refine ⟨{ s.setReg (regDLY_DECL n.val) (v &&& 0x0FFF07FF#32) with taps := ts }, ?_, rfl, hts⟩
      show execDlyDeclWrite m n v s = _
      rw [execDlyDeclWrite]
      exact congrArg Host.Outcome.next ((if_pos (decide_eq_true hp)).trans he)
    · show execDlyDeclWrite m n v s = _
      rw [execDlyDeclWrite]
      exact congrArg Host.Outcome.next (if_neg fun e => hp (of_decide_eq_true e))
  case windows =>
    intro c prog data ref
    obtain ⟨hprog, hdata⟩ := courseWindow_word n w hw
    have halted : (s.course n).isHalted = true ↔ c.phase = .halted := decide_eq_true_iff
    refine ⟨fun h16 hp => ?_, fun h16 hp => ?_, fun hor => ?_, fun hp hlt => ?_⟩
    · rw [exec_courseMemoryWindowWrite_word s n true w prog v hl (hprog h16), halted.2 hp]
      rfl
    · have hrun : (s.course n).isHalted = false := Bool.eq_false_iff.2 (mt halted.1 hp)
      rw [exec_courseMemoryWindowWrite_word s n true w prog v hl (hprog h16), hrun]
      rfl
    · rw [exec_courseMemoryWindowWrite_word s n false w data v hl hdata]
      have hok : ((false || decide (w < s.fgWords n)) && !(s.course n).isHalted) = false := by
        rcases hor with hp | hge
        · rw [halted.2 hp, Bool.not_true, Bool.and_false]
        · rw [decide_eq_false (Nat.not_lt.2 hge)]
          rfl
      rw [hok]
      rfl
    · have hrun : (s.course n).isHalted = false := Bool.eq_false_iff.2 (mt halted.1 hp)
      rw [exec_courseMemoryWindowWrite_word s n false w data v hl hdata, hrun, decide_eq_true hlt]
      rfl

end Sys2Proof.Machine
end

section
/-! The prefetch of a frame (R74, R75) and the samples that lines hold (R122). -/

namespace Sys2Proof.Machine

-- One theorem after another, so that the compile of the whole text stays within its memory.
set_option Elab.async false

/-- A map without the keys that a predicate drops. -/
theorem mapFind_filter {α : Type} (p : Nat → Bool) (m : List (Nat × α)) (k : Nat) :
    mapFind (m.filter fun e => p e.1) k = if p k then mapFind m k else none := by
  induction m with
  | nil => split <;> rfl
  | cons e m ih =>
    by_cases hp : p e.1 = true
    · rw [List.filter_cons_of_pos (p := fun e : Nat × α => p e.1) hp]
      by_cases he : e.1 = k
      · rw [mapFind, if_pos he, ← he, if_pos hp, mapFind, if_pos rfl]
      · rw [mapFind, if_neg he, ih, mapFind, if_neg he]
    · rw [List.filter_cons_of_neg (p := fun e : Nat × α => p e.1) hp, ih]
      by_cases he : e.1 = k
      · rw [if_neg (he ▸ hp), if_neg (he ▸ hp)]
      · rw [mapFind, if_neg he]

/-! ## The prefetch -/

section
variable (s : State) (n : CourseId) (k : Nat)

/-- A Course with another mailbox. -/
def Course.withMbox (m : List (Nat × Word)) (c : Course) : Course := { c with mbox := m }

/-- The prefetch of one tap writes its entry of the bank, and its members (R74). -/
theorem State.prefetchTap_shape (j : Nat) : ∃ v ts, s.prefetchTap n k j =
    { s.modCourse n (Course.withMbox (wmSet (s.course n).mbox (k % 2 * 2048 + j) v)) with taps := ts } := by
  unfold State.prefetchTap
  dsimp only
  split
  · exact ⟨_, _, rfl⟩
  · exact ⟨0, s.taps, rfl⟩

/-- The prefetch of taps writes their entries of the bank, and their members. -/
theorem State.prefetchTaps_shape (l : List Nat) : ∃ m ts, l.foldl (fun s j => s.prefetchTap n k j) s =
      { s.modCourse n (Course.withMbox m) with taps := ts } ∧
    ∀ a, (∀ j ∈ l, a ≠ k % 2 * 2048 + j) → wmGet m a = wmGet (s.course n).mbox a := by
  induction l generalizing s with
  | nil => exact ⟨(s.course n).mbox, s.taps, congrArg (fun t : State => { t with taps := s.taps }) (State.modCourse_id s n _ rfl).symm, fun _ _ => rfl⟩
  | cons j l ih =>
    obtain ⟨v, ts, e⟩ := s.prefetchTap_shape n k j
    obtain ⟨m, ts', e', hm⟩ := ih { s.modCourse n (Course.withMbox (wmSet (s.course n).mbox (k % 2 * 2048 + j) v)) with taps := ts }
    refine ⟨m, ts', ?_, fun a ha => (hm a fun i hi => ha i (List.mem_cons_of_mem j hi)).trans ?_⟩
    · rw [List.foldl_cons, e, e']
      exact congrArg (fun t : State => { t with taps := ts' }) (State.modCourse_modCourse s n _ _)
    · show wmGet ((s.modCourse n (Course.withMbox (wmSet (s.course n).mbox (k % 2 * 2048 + j) v))).course n).mbox a = _
      rw [State.course_modCourse_self]
      exact mapGet_set_ne _ _ _ (ha j List.mem_cons_self)

/-- The taps in use have their entries in the bank (R120, R129). -/
theorem State.tapsOn_lt (j : Nat) (h : j ∈ s.tapsOn n.val) : j < 2048 := by
  obtain ⟨e, -, he⟩ := List.mem_filterMap.1 h
  split at he
  · split at he
    · next d _ hd =>
      obtain ⟨-, -, -, hen⟩ := hd
      obtain rfl := Option.some.inj he
      have hdecl := of_decide_eq_true (Bool.and_eq_true_iff.1 hen).2
      have hmax : s.declTaps (fin 7 n.val) ≤ 2048 := Nat.min_le_left _ _
      omega
    · exact nomatch he
  · exact nomatch he

/-- The bank is taken for frame `k`, with no entry yet. -/
def Course.openBank (k : Nat) (c : Course) : Course :=
  { c with
    mbox := c.mbox.filter fun e => decide (e.1 / 2048 ≠ k % 2)
    mboxFrame := c.mboxFrame.set (k % 2) (some k) (Nat.mod_lt k (by decide)) }

/-- What the filling of a bank leaves (R74). -/
theorem State.fillBank_shape : ∃ m ts, s.fillBank n k = { s.modCourse n (fun c => (c.openBank k).withMbox m) with taps := ts } ∧
    (∀ j, j < 2048 → j ∉ s.tapsOn n.val → wmGet m (k % 2 * 2048 + j) = 0) ∧
    (∀ j, j < 2048 → wmGet m ((k + 1) % 2 * 2048 + j) = wmGet (s.course n).mbox ((k + 1) % 2 * 2048 + j)) := by
  obtain ⟨m, ts, e, hm⟩ := (s.modCourse n (Course.openBank k)).prefetchTaps_shape n k (s.tapsOn n.val)
  have hbox (a : Nat) : wmGet ((s.modCourse n (Course.openBank k)).course n).mbox a =
      if a / 2048 ≠ k % 2 then wmGet (s.course n).mbox a else 0 := by
    rw [State.course_modCourse_self]
    show (mapFind ((s.course n).mbox.filter fun e => decide (e.1 / 2048 ≠ k % 2)) a).getD 0 = _
    rw [mapFind_filter fun b => decide (b / 2048 ≠ k % 2)]
    by_cases ha : a / 2048 ≠ k % 2
    · rw [if_pos (decide_eq_true ha), if_pos ha]
      rfl
    · rw [if_neg fun h => ha (of_decide_eq_true h), if_neg ha]
      rfl
  refine ⟨m, ts, ?_, fun j hj hnot => ?_, fun j hj => ?_⟩
  · refine Eq.trans e ?_
    rw [State.modCourse_modCourse]
  · rw [hm (k % 2 * 2048 + j) fun i hi h => hnot ((show j = i by omega) ▸ hi), hbox, if_neg (by omega)]
  · rw [hm _ fun i hi h => ?_, hbox, if_pos (by omega)]
    have hi := s.tapsOn_lt n i hi
    omega

/-- With no bundle of the foreground stalled, none waits for the mailbox. -/
theorem State.releaseMbox_idle (h : (s.course n).fg.stall = none) : s.releaseMbox n = s := by
  unfold State.releaseMbox
  dsimp only
  rw [h]

theorem exec_tapPrefetch_due (hd : s.dramOn = true) (hg : s.gatedOff 13 = false) (hk : (s.course n).nextPrefetch ≤ s.now + 1)
    (hf : (s.course n).mboxFrame.get (fin 1 ((s.course n).nextPrefetch % 2)) ≠ some (s.course n).nextPrefetch) (hu : Unarmed s) :
    exec (.tapPrefetch n) s = .next ((s.fillBank n (s.course n).nextPrefetch).releaseMbox n) := by
  have hdue : s.dramOn ∧ !s.gatedOff 13 ∧ (s.course n).nextPrefetch ≤ s.now + 1 ∧
      (s.course n).mboxFrame.get (fin 1 ((s.course n).nextPrefetch % 2)) ≠ some (s.course n).nextPrefetch := ⟨hd, by rw [hg]; rfl, hk, hf⟩
  show execTapPrefetch n s = _
  rw [execTapPrefetch]
  refine congrArg Host.Outcome.next ((if_pos hdue).trans ?_)
  rw [State.tapReads, State.memMay_unarmed s _ _ hu]

end

/-- What a prefetch leaves (R74, R75). -/
theorem tapPrefetch_effect (s : State) (n : CourseId) : let c := s.course n
    let k := c.nextPrefetch
    s.dramOn = true → s.gatedOff 13 = false → k ≤ s.now + 1 → c.mboxFrame.get (fin 1 (k % 2)) ≠ some k → c.fg.stall = none → Unarmed s →
    ∃ t, exec (.tapPrefetch n) s = .next t ∧ t = { s with courses := t.courses, taps := t.taps } ∧ (∀ m, m ≠ n → t.course m = s.course m) ∧
      (t.course n).mboxFrame.get (fin 1 (k % 2)) = some k ∧ (t.course n).fg = c.fg ∧ (t.course n).bg = c.bg ∧
      (∀ j, j < 2048 → j ∉ s.tapsOn n.val → wmGet (t.course n).mbox (k % 2 * 2048 + j) = 0) ∧
      (∀ j, j < 2048 → wmGet (t.course n).mbox ((k + 1) % 2 * 2048 + j) = wmGet c.mbox ((k + 1) % 2 * 2048 + j)) := by
  intro c k hd hg hk hf hst hu
  obtain ⟨m, ts, e, hzero, hkeep⟩ := s.fillBank_shape n k
  have hself : State.course { s.modCourse n (fun c => (c.openBank k).withMbox m) with taps := ts } n = (c.openBank k).withMbox m :=
    State.course_modCourse_self s n fun c => (c.openBank k).withMbox m
  have hidle : State.releaseMbox { s.modCourse n (fun c => (c.openBank k).withMbox m) with taps := ts } n =
      { s.modCourse n (fun c => (c.openBank k).withMbox m) with taps := ts } := State.releaseMbox_idle _ n (by rw [hself]; exact hst)
  refine ⟨_, (exec_tapPrefetch_due s n hd hg hk hf hu).trans (congrArg Host.Outcome.next ((congrArg (State.releaseMbox · n) e).trans hidle)), rfl,
    fun i hi => State.course_modCourse_ne s (fun c => (c.openBank k).withMbox m) hi, ?_⟩
  rw [hself]
  refine ⟨?_, rfl, rfl, hzero, hkeep⟩
  have hlt := Nat.mod_lt k (by decide : 2 > 0)
  exact vectorGet_set_self c.mboxFrame ⟨k % 2, hlt⟩ (some k) ▸ congrArg (fun i => (c.openBank k).mboxFrame.get i) (Fin.ext (Nat.mod_eq_of_lt hlt))

/-! ## Held samples -/

/-- A held sample is read as it was written (R122). -/
theorem TapMember.read_held (ln : Line) (k d : Nat) (v : Word) (r : Nat) (m : TapMember)
    (hfind : ln.hist.find? (fun e => decide (e.1 + d = k ∧ d ≤ e.2.2)) = some (k - d, v, r)) (hring : d ≤ ln.ring) (hk : d ≤ k)
    (hd : m.delay = d) (hheld : m.held = true) (hfade : m.fadeAt = none) : m.read ln k = ({ m with held := true }, v.toInt) := by
  have hsample : ln.sample k m.delay = some v := by
    rw [hd, Line.sample, if_pos ⟨hring, hk⟩, hfind]
    rfl
  unfold TapMember.read
  obtain ⟨delay, held, fadeAt⟩ := m
  obtain rfl : held = true := hheld
  obtain rfl : fadeAt = none := hfade
  rw [hsample]
  rfl

/-- A member without a held sample reads zero (R122). -/
theorem TapMember.read_unheld (ln : Line) (k : Nat) (m : TapMember) (h : ln.sample k m.delay = none) :
    (m.read ln k).2 = 0 ∧ (m.read ln k).1.held = false := by
  unfold TapMember.read
  rw [h]
  exact ⟨rfl, rfl⟩

/-- What a line holds fits every ring length since it was written (R122). -/
theorem Line.post_held (ln : Line) (k : Nat) (v : Word) (e : Nat × Word × Nat) (he : e ∈ (ln.post k v).hist) :
    k + 1 - e.1 ≤ e.2.2 ∧ e.2.2 ≤ ln.ring := by
  obtain ⟨hmem, hfits⟩ := List.mem_filter.1 he
  refine ⟨of_decide_eq_true hfits, ?_⟩
  rcases List.mem_cons.1 hmem with rfl | hmem
  · exact Nat.le_refl _
  · obtain ⟨x, -, rfl⟩ := List.mem_map.1 hmem
    exact Nat.min_le_right _ _

/-- Settles O22: the prefetch of a frame, and what members read of their lines. -/
theorem tapsAndHeldSamples : Obligations.TapsAndHeldSamples := by
  unfold Obligations.TapsAndHeldSamples
  exact ⟨tapPrefetch_effect, TapMember.read_held, TapMember.read_unheld, Line.post_held, fun _ _ _ => ⟨rfl, rfl⟩⟩

end Sys2Proof.Machine
end

section
/-! The delay controller between prefetches (R119, R122 to R124), and direct writes of the delay tables (R120, R121). -/

namespace Sys2Proof.Machine

-- One theorem after another, so that the compile of the whole text stays within its memory.
set_option Elab.async false

/-! ## The samples that the delay controller writes -/

section
variable (s : State)

/-- A fault leaves the registers of the Ridge alone (R361). -/
theorem State.faultOccurs_ridgeReg (src a : Nat) (hs : src < 256) (ha : 0x100000 ≤ a) : (s.faultOccurs src).reg a = s.reg a := by
  have hblock : a / 0x10000 ≠ 3 := by omega
  have h1 : a ≠ regEVT_PEND 0 := Nat.ne_of_gt (Nat.lt_of_lt_of_le (by decide) ha)
  have h2 : a ≠ regEVT_PAYLOAD 6 := Nat.ne_of_gt (Nat.lt_of_lt_of_le (by decide) ha)
  have h3 : a ≠ regEVT_LOST_CNT := Nat.ne_of_gt (Nat.lt_of_lt_of_le (by decide) ha)
  have h4 : a ≠ regEVT_STATUS := Nat.ne_of_gt (Nat.lt_of_lt_of_le (by decide) ha)
  exact s.faultOccurs_reg src a hs hblock h1 h2 h3 h4

theorem State.recordOnce_shape (a b c : Nat) (v w : Word) :
    ∃ r, (if s.rbit a 31 = true then s else (s.setReg a v).setReg b w).count c 1 = { s with regs := r } := by
  split
  · exact ⟨_, rfl⟩
  · exact ⟨_, rfl⟩

theorem State.ridgeRecord_shape (cause m : Nat) (write : Bool) (addr : Word) : ∃ r, s.ridgeRecord cause m write addr = { s with regs := r } :=
  s.recordOnce_shape _ _ _ _ _

/-- A refusal under R119 leaves a valid record, the memories, and the DRAM partition (R119, R136). -/
theorem State.ridgeRefused_effect (cause m : Nat) (write : Bool) (addr : Word) :
    let t := s.ridgeRefused cause m write addr
    t.dram = s.dram ∧ t.rbit regRIDGE_ERR 31 = (s.rbit regRIDGE_ERR 31 || bit (BitVec.ofNat 32 (0x80000000 + cause * 2 ^ 24 + m * 2 ^ 20 + b2n write)) 31) ∧
    ∀ w, t.dramRegion w = s.dramRegion w := by
  intro t
  have hrecord (a : Nat) (h1 : a ≠ regRIDGE_ERR) (h2 : a ≠ regRIDGE_ERR_ADDR) (h3 : a ≠ regRIDGE_ERR_CNT) :
      (s.ridgeRecord cause m write addr).reg a = s.reg a := by
    unfold State.ridgeRecord
    dsimp only
    rw [State.reg_count, if_neg h3]
    split
    · rfl
    · rw [State.reg_setReg_ne _ _ h2, State.reg_setReg_ne _ _ h1]
  refine ⟨?_, ?_, fun w => ?_⟩
  · refine (State.faultOccurs_memories _ 1).1.trans ?_
    obtain ⟨r, e⟩ := s.ridgeRecord_shape cause m write addr
    rw [e]
  · show bit (t.reg regRIDGE_ERR) 31 = _
    have hkeep : t.reg regRIDGE_ERR = (s.ridgeRecord cause m write addr).reg regRIDGE_ERR := State.faultOccurs_ridgeReg _ 1 _ (by decide) (by decide)
    rw [hkeep]
    unfold State.ridgeRecord
    dsimp only
    rw [State.reg_count, if_neg (by decide)]
    split
    · next h =>
      rw [h, Bool.true_or]
      exact h
    · next h =>
      rw [State.reg_setReg_ne _ _ (by decide), State.reg_setReg_self, Bool.eq_false_iff.2 h, Bool.false_or]
  · have hreg (r : Nat) (hr : r < 5) : t.reg (regDLY_PART r) = s.reg (regDLY_PART r) := by
      have hlow : 0x100000 ≤ regDLY_PART r := Nat.le_trans (by decide) (Nat.le_add_right 0x110000 _)
      have hhigh : regDLY_PART r < 0x120000 := by simp only [regDLY_PART]; omega
      have hne (e : Nat) (he : 0x120000 ≤ e) : regDLY_PART r ≠ e := Nat.ne_of_lt (Nat.lt_of_lt_of_le hhigh he)
      exact (State.faultOccurs_ridgeReg _ 1 _ (by decide) hlow).trans (hrecord _ (hne _ (by decide)) (hne _ (by decide)) (hne _ (by decide)))
    refine List.find?_congr fun r hr => ?_
    dsimp only
    rw [hreg r (List.mem_range.1 hr)]

end

/-! ## The block of posted samples -/

/-- Samples inside the delay region reach their DRAM words (R119, R122). -/
theorem State.tapStores_inside (base : Nat) (l : List (Nat × Nat × Word)) (s : State) (h : ∀ p ∈ l, s.dramRegion (base + p.2.1) = some 0) :
    l.foldl (fun s p => s.tapStore (base + p.2.1) p.2.2) s =
      { s with dram := storeAll memSetWord s.dram (l.map fun p => base + p.2.1) (l.map fun p => p.2.2) } := by
  induction l generalizing s with
  | nil => rfl
  | cons p l ih =>
    have hstore : s.tapStore (base + p.2.1) p.2.2 = s.dramPut (base + p.2.1) p.2.2 := by
      rw [State.tapStore, h p List.mem_cons_self]
      rfl
    rw [List.foldl_cons, hstore, ih (s.dramPut (base + p.2.1) p.2.2) fun q hq => h q (List.mem_cons_of_mem p hq)]
    rfl

/-- Samples outside the delay region are refused, and a record stands (R119). -/
theorem State.tapStores_outside (base : Nat) (l : List (Nat × Nat × Word)) (s : State) (h : ∀ p ∈ l, s.dramRegion (base + p.2.1) ≠ some 0) :
    (l.foldl (fun s p => s.tapStore (base + p.2.1) p.2.2) s).dram = s.dram ∧
    (s.rbit regRIDGE_ERR 31 = true ∨ l ≠ [] → (l.foldl (fun s p => s.tapStore (base + p.2.1) p.2.2) s).rbit regRIDGE_ERR 31 = true) := by
  induction l generalizing s with
  | nil => exact ⟨rfl, fun hor => hor.resolve_right fun e => e rfl⟩
  | cons p l ih =>
    have hp := h p List.mem_cons_self
    have hstore : ∃ c, (c = 1 ∨ c = 2) ∧ s.tapStore (base + p.2.1) p.2.2 = s.ridgeRefused c 8 true (BitVec.ofNat 32 (base + p.2.1)) := by
      unfold State.tapStore
      split
      · next hr => exact absurd hr hp
      · refine ⟨_, ?_, rfl⟩
        split
        · exact .inl rfl
        · exact .inr rfl
    obtain ⟨c, hc, hstore⟩ := hstore
    obtain ⟨hdram, hbit, hregion⟩ := s.ridgeRefused_effect c 8 true (BitVec.ofNat 32 (base + p.2.1))
    have hset : (s.ridgeRefused c 8 true (BitVec.ofNat 32 (base + p.2.1))).rbit regRIDGE_ERR 31 = true := by
      rw [hbit]
      rcases hc with rfl | rfl
      · exact Bool.or_true _
      · exact Bool.or_true _
    obtain ⟨hd, hb⟩ := ih (s.ridgeRefused c 8 true (BitVec.ofNat 32 (base + p.2.1)))
      fun q hq => by rw [hregion]; exact h q (List.mem_cons_of_mem p hq)
    rw [List.foldl_cons, hstore]
    exact ⟨hd.trans hdram, fun _ => hb (.inl hset)⟩

/-- The oldest posted samples of one block of 16 ring positions (R122). -/
def Line.block (ln : Line) (e : Nat × Nat × Word) : List (Nat × Nat × Word) := ln.posted.takeWhile fun p => p.2.1 / 16 == e.2.1 / 16

section
variable (s : State) (n : CourseId) (l : Fin 1024) (e : Nat × Nat × Word) (rest : List (Nat × Nat × Word))

theorem Line.block_pos (ln : Line) (hp : ln.posted = e :: rest) : 1 ≤ (ln.block e).length := by
  rw [Line.block, hp, List.takeWhile_cons_of_pos (by exact beq_self_eq_true _), List.length_cons]
  exact Nat.succ_pos _

theorem State.line_setLine (n l : Nat) (v : Line) : (s.setLine n l v).line n l = v := by
  rw [State.line]
  show (mapFind (mapIns (mapDel s.lines (lineKey n l)) (lineKey n l) v) (lineKey n l)).getD _ = v
  rw [mapFind_ins_self _ _ _ (mapFind_del_self _ _)]
  rfl

/-- The block write (R119, R122). -/
theorem exec_delayBlockWrite_posted (hd : s.dramOn = true) (hp : (s.line n.val l.val).posted = e :: rest) :
    exec (.delayBlockWrite n l) s = .next (
      (((s.line n.val l.val).block e).foldl (fun t p => t.tapStore (s.lineBase n.val l.val + p.2.1) p.2.2) s).setLine n.val l.val
        { s.line n.val l.val with posted := (s.line n.val l.val).posted.drop ((s.line n.val l.val).block e).length }) := by
  show execDelayBlockWrite n l s = _
  rw [execDelayBlockWrite]
  simp only [hd, Bool.not_true, Bool.false_eq_true, if_false]
  split
  · next h => exact nomatch h.symm.trans hp
  · next f fs h =>
    obtain ⟨rfl, rfl⟩ := List.cons.inj (h.symm.trans hp)
    rfl

end

/-- What the delay controller does with one tap and one line (R119, R122 to R124). -/
theorem delayController_effect (s : State) (n : CourseId) (j : Fin 2048) (l : Fin 1024) :
     let tp := s.tap n.val j.val
     let ln := s.line n.val l.val
     let l2 := s.lineLen n.val l.val
     (tp.fade.over (s.course n).nextPrefetch = true →
       exec (.tapCrossfadeEnd n j) s = .next (s.setTap n.val j.val { tp with fade := Fade.single tp.fade.newest })) ∧
     (l2 ≠ ln.ring → s.lineQuiet n.val l.val (s.course n).frame = true → ln.oldUntil ≤ (s.course n).frame →
       exec (.lengthFold n l) s = .next (s.setLine n.val l.val { ln with ring := l2, pos := ln.pos % l2, oldUntil := (s.course n).frame + l2 })) ∧
     (∀ (e : Nat × Nat × Word) (rest : List (Nat × Nat × Word)), s.dramOn = true → ln.posted = e :: rest →
       let blk := ln.posted.takeWhile fun p => p.2.1 / 16 == e.2.1 / 16
       let base := s.lineBase n.val l.val
       1 ≤ blk.length ∧
       ((blk.map fun p => p.2.1).Nodup → (∀ p ∈ blk, s.dramRegion (base + p.2.1) = some 0) →
         ∃ t, exec (.delayBlockWrite n l) s = .next t ∧ t = { s with dram := t.dram, lines := t.lines } ∧
           (∀ p ∈ blk, t.dramGet (base + p.2.1) = p.2.2) ∧
           (∀ w, (∀ p ∈ blk, w ≠ base + p.2.1) → t.dramGet w = s.dramGet w) ∧
           (t.line n.val l.val).posted = ln.posted.drop blk.length) ∧
       ((∀ p ∈ blk, s.dramRegion (base + p.2.1) ≠ some 0) →
         ∃ t, exec (.delayBlockWrite n l) s = .next t ∧ t.dram = s.dram ∧ t.rbit regRIDGE_ERR 31 = true ∧
           (t.line n.val l.val).posted = ln.posted.drop blk.length)) := by
  intro tp ln l2
  refine ⟨fun h => ?_, fun h1 h2 h3 => ?_, ?_⟩
  · show execTapCrossfadeEnd n j s = _
    rw [execTapCrossfadeEnd]
    exact congrArg Host.Outcome.next (if_pos h)
  · show execLengthFold n l s = _
    rw [execLengthFold]
    exact congrArg Host.Outcome.next (if_pos ⟨h1, h2, h3⟩)
  · intro e rest hd hp blk base
    have hexec := exec_delayBlockWrite_posted s n l e rest hd hp
    have hpos : 1 ≤ blk.length := Line.block_pos e rest ln hp
    refine ⟨hpos, fun hnodup hin => ?_, fun hout => ?_⟩
    · have hstores := State.tapStores_inside base blk s hin
      refine ⟨_, hexec.trans (congrArg (fun t : State => Host.Outcome.next (t.setLine n.val l.val { ln with posted := ln.posted.drop blk.length })) hstores),
        rfl, fun p hmem => ?_, fun w hw => ?_, ?_⟩
      · obtain ⟨i, hi, rfl⟩ := List.getElem_of_mem hmem
        have hlast := storeAll_last memSetWord memWord (blk.map fun p => base + p.2.1) memWord_set_self
          (fun a _ b _ hab m v => memWord_set_ne m v hab.symm) s.dram (blk.map fun p => p.2.2) i (by rw [List.length_map]; exact hi)
          (by rw [List.length_map]; exact hi) fun j hij hj => ?_
        · simp only [List.getElem_map] at hlast
          exact hlast
        · have hj' : j < blk.length := by rw [List.length_map] at hj; exact hj
          simp only [List.getElem_map]
          intro h
          have hinj := (List.Nodup.getElem_inj_iff hnodup (i := j) (j := i) (hi := by rw [List.length_map]; exact hj')
            (hj := by rw [List.length_map]; exact hi)).1
          simp only [List.getElem_map] at hinj
          have heq := hinj (Nat.add_left_cancel h)
          omega
      · refine storeAll_keeps memSetWord (memWord · w) _ (fun a ha m v => memWord_set_ne m v ?_) s.dram _
        obtain ⟨p, hmem, rfl⟩ := List.mem_map.1 ha
        exact hw p hmem
      · rw [State.line_setLine]
    · obtain ⟨hdram, hbit⟩ := State.tapStores_outside base blk s hout
      refine ⟨_, hexec, hdram, hbit (.inr (List.ne_nil_of_length_pos hpos)), ?_⟩
      rw [State.line_setLine]
      rfl

/-! ## Direct writes of the tables -/

theorem delayWord_facts {a : Nat} {d : DelayWord} (h : delayWord a = some d) : a % 4 = 0 ∧ (d.isTap = true → d.index < 2048) := by
  unfold delayWord at h
  split at h
  · next hin =>
    dsimp only at h
    refine ⟨hin.2.2, ?_⟩
    split at h
    · obtain rfl := Option.some.inj h
      exact fun e => nomatch e
    · split at h
      · obtain rfl := Option.some.inj h
        intro _
        dsimp only
        omega
      · exact nomatch h
  · exact nomatch h

/-- The taps behind a write of a table word of a halted Course (R121). -/
theorem State.delayPut_taps (s : State) (d : DelayWord) (a : Nat) (v : Word) (hd : d.isTap = true → d.index < 2048) :
    ∃ u : State, s.delayPut d a v = u.checkDelayWord a ∧ u = { (s.tabSet a (v &&& d.mask)).shadSet a (v &&& d.mask) with taps := u.taps } ∧
      ∀ j, j / 2048 ≠ d.course → mapFind u.taps j = mapFind s.taps j := by
  have hforget (t : State) (ht : d.isTap = true) (j : Nat) (hj : j / 2048 ≠ d.course) :
      mapFind (t.tapForget d.course d.index).taps j = mapFind t.taps j := by
    have hlt := hd ht
    refine mapFind_del_ne _ fun e => hj ?_
    rw [e, tapKey]
    omega
  let s1 := s.tabLoad a (v &&& d.mask)
  let cond := d.isTap && d.word == 0 && decide (fld (s.tabGet a) 0 10 ≠ fld v 0 10)
  let s2 := if cond then s1.tapForget d.course d.index else s1
  have hs2 : ∃ ts, s2 = { s1 with taps := ts } ∧ ∀ j, j / 2048 ≠ d.course → mapFind ts j = mapFind s.taps j := by
    by_cases hc : cond = true
    · have ht : d.isTap = true := (Bool.and_eq_true_iff.1 (Bool.and_eq_true_iff.1 hc).1).1
      exact ⟨_, if_pos hc, hforget s1 ht⟩
    · exact ⟨s.taps, if_neg hc, fun _ _ => rfl⟩
  obtain ⟨ts, hts, hkeep⟩ := hs2
  obtain ⟨us, hus, hkeep'⟩ := s2.tapsAnew_shape d.course
  refine ⟨s2.tapsAnew d.course, rfl, ?_, fun j hj => ?_⟩
  · rw [hus, hts]
    rfl
  · rw [hus]
    refine (hkeep' j hj).trans ?_
    rw [hts]
    exact hkeep j hj

/-- Settles O23: the delay controller between prefetches, and the writes of its tables. -/
theorem delayMemory : Obligations.DelayMemory := by
  unfold Obligations.DelayMemory
  refine ⟨delayController_effect, fun s m a v h => ?unmapped, fun s m a v d h => ?word⟩
  case unmapped =>
    show execDelayTableWrite m a v s = _
    rw [execDelayTableWrite, h]
  case word =>
    obtain ⟨haligned, hindex⟩ := delayWord_facts h
    have hexec : exec (.delayTableWrite m a v) s =
        .next (if d.shadowed || !(s.course (fin 7 d.course)).isHalted then s.setRbit regDLY_STATUS 31 else s.delayPut d a.toNat v) := by
      show execDelayTableWrite m a v s = _
      rw [execDelayTableWrite, h]
    rw [hexec]
    refine ⟨haligned, fun hor => congrArg Host.Outcome.next (if_pos ?_), fun hsh hp => ?_⟩
    · rcases hor with hsh | hp
      · rw [hsh]
        rfl
      · rw [show (s.course (fin 7 d.course)).isHalted = false from decide_eq_false hp]
        exact Bool.or_true _
    · obtain ⟨u, hput, hframe, htaps⟩ := s.delayPut_taps d a.toNat v hindex
      refine ⟨u, congrArg Host.Outcome.next ((if_neg ?_).trans hput), hframe, htaps⟩
      rw [hsh, show (s.course (fin 7 d.course)).isHalted = true from decide_eq_true hp]
      decide

end Sys2Proof.Machine
end

section
/-! Waiting changes and their turns (R402), the crossfade arithmetic (R125, R126), and the retirement of members (R143, R146, R155). -/

namespace Sys2Proof.Machine

-- One theorem after another, so that the compile of the whole text stays within its memory.
set_option Elab.async false

/-! ## Turns -/

/-- The order of the turns: by commit frame, then by number (R402). -/
def TurnLe (d e : Nat × Nat) : Prop := d.1 < e.1 ∨ (d.1 = e.1 ∧ d.2 ≤ e.2)

theorem mem_insertTurn (e d : Nat × Nat) (l : List (Nat × Nat)) : d ∈ insertTurn e l ↔ d = e ∨ d ∈ l := by
  induction l with
  | nil => exact List.mem_singleton.trans (by simp)
  | cons c l ih =>
    rw [insertTurn]
    split
    · exact List.mem_cons
    · rw [List.mem_cons, ih, List.mem_cons]
      exact or_left_comm

theorem insertTurn_pairwise (e : Nat × Nat) (l : List (Nat × Nat)) (h : l.Pairwise TurnLe) : (insertTurn e l).Pairwise TurnLe := by
  induction l with
  | nil => exact List.pairwise_singleton _ _
  | cons c l ih =>
    obtain ⟨hc, hl⟩ := List.pairwise_cons.1 h
    rw [insertTurn]
    split
    · next hlt =>
      refine List.pairwise_cons.2 ⟨fun d hd => ?_, h⟩
      rcases List.mem_cons.1 hd with rfl | hd
      · unfold TurnLe
        omega
      · have hcd := hc d hd
        unfold TurnLe at hcd ⊢
        omega
    · next hge =>
      refine List.pairwise_cons.2 ⟨fun d hd => ?_, ih hl⟩
      rcases (mem_insertTurn e d l).1 hd with rfl | hd
      · unfold TurnLe
        omega
      · exact hc d hd

/-- The waiting changes in the order of their turns. -/
def turns (l : List (Nat × Nat)) : List (Nat × Nat) := l.foldl (fun t e => insertTurn e t) []

theorem turns_spec (l : List (Nat × Nat)) : (turns l).Pairwise TurnLe ∧ ∀ e, e ∈ turns l ↔ e ∈ l := by
  have key (l t : List (Nat × Nat)) (ht : t.Pairwise TurnLe) :
      (l.foldl (fun t e => insertTurn e t) t).Pairwise TurnLe ∧ ∀ e, e ∈ l.foldl (fun t e => insertTurn e t) t ↔ e ∈ l ∨ e ∈ t := by
    induction l generalizing t with
    | nil => exact ⟨ht, fun e => by simp⟩
    | cons c l ih =>
      obtain ⟨hp, hm⟩ := ih (insertTurn c t) (insertTurn_pairwise c t ht)
      refine ⟨hp, fun e => ?_⟩
      rw [List.foldl_cons, hm, mem_insertTurn, List.mem_cons]
      exact or_left_comm.trans or_assoc.symm
  obtain ⟨hp, hm⟩ := key l [] List.Pairwise.nil
  exact ⟨hp, fun e => by rw [turns, hm]; simp⟩

/-- The first turn with room: the earliest commit frame, then the lowest number (R402). -/
theorem firstTurn_least (l : List (Nat × Nat)) (room : Nat → Bool) (x : Nat) (h : firstTurn l room = some x) :
    room x = true ∧ ∃ c, (c, x) ∈ l ∧ ∀ e ∈ l, room e.2 = true → c < e.1 ∨ (c = e.1 ∧ x ≤ e.2) := by
  obtain ⟨hp, hm⟩ := turns_spec l
  have hfind : ((turns l).find? fun e => room e.2).map (·.2) = some x := by
    rw [← h, firstTurn, turnOrder, List.find?_map]
    rfl
  obtain ⟨⟨c, y⟩, he, rfl⟩ := Option.map_eq_some_iff.1 hfind
  obtain ⟨hroom, as, bs, hsplit, has⟩ := List.find?_eq_some_iff_append.1 he
  refine ⟨hroom, c, (hm _).1 (hsplit ▸ List.mem_append_right _ List.mem_cons_self), fun e hel hre => ?_⟩
  rw [hsplit] at hp
  have hmem : e ∈ as ++ (c, y) :: bs := hsplit ▸ (hm e).2 hel
  rcases List.mem_append.1 hmem with ha | hb
  · have hno := has e ha
    rw [hre] at hno
    exact absurd hno (by decide)
  · rcases List.mem_cons.1 hb with rfl | hb
    · exact .inr ⟨rfl, Nat.le_refl _⟩
    · exact (List.pairwise_cons.1 (List.pairwise_append.1 hp).2.1).1 e hb

/-! ## Crossfades -/

/-- A crossfade that starts later leaves the value of a frame as it is (R33, R37, R126). -/
theorem runsValue_append {M : Type} (get : M → Int) (k : Nat) (runs : List (M × Nat × Nat)) (m : M) (c len : Nat) (hk : k < c) (y : Int) :
    runsValue get k (runs ++ [(m, c, len)]) y = runsValue get k runs y := by
  induction runs generalizing y with
  | nil => exact if_pos hk
  | cons r rest ih =>
    rw [List.cons_append, runsValue, runsValue]
    split
    · rfl
    · rw [ih]
      congr 2
      cases rest with
      | nil => exact if_neg (Nat.not_le.2 hk)
      | cons d rest => rfl

theorem fadeWeight_running (t f : Nat) (h : t < f) : fadeWeight t f = (t + 1) * 2 ^ 31 / f ∧ fadeWeight t f ≤ 2 ^ 31 := by
  have he : fadeWeight t f = (t + 1) * 2 ^ 31 / f := if_neg (Nat.not_le.2 h)
  refine ⟨he, ?_⟩
  rw [he]
  exact Nat.div_le_of_le_mul (Nat.mul_le_mul_right _ h)

theorem fadeWeight_last (f : Nat) (h : 0 < f) : fadeWeight (f - 1) f = 2 ^ 31 := by
  have he : fadeWeight (f - 1) f = (f - 1 + 1) * 2 ^ 31 / f := if_neg (by omega)
  rw [he, Nat.sub_add_cancel h, Nat.mul_div_cancel_left _ h]

theorem fadeWeight_le (t f : Nat) : fadeWeight t f ≤ 2 ^ 31 := by
  rcases Nat.lt_or_ge t f with h | h
  · exact (fadeWeight_running t f h).2
  · exact Nat.le_of_eq (if_pos h)

theorem fadeWeight_mono (t1 t2 f : Nat) (h : t1 ≤ t2) : fadeWeight t1 f ≤ fadeWeight t2 f := by
  rcases Nat.lt_or_ge t2 f with h2 | h2
  · rw [(fadeWeight_running t2 f h2).1, (fadeWeight_running t1 f (Nat.lt_of_le_of_lt h h2)).1]
    exact Nat.div_le_div_right (Nat.mul_le_mul_right _ (Nat.succ_le_succ h))
  · have he : fadeWeight t2 f = 2 ^ 31 := if_pos h2
    rw [he]
    exact fadeWeight_le t1 f

/-- Convergent rounding stays between the integers that a value lies between. -/
theorem rconv_between (v lo hi : Int) (hlo : lo * 2 ^ 31 ≤ v) (hhi : v ≤ hi * 2 ^ 31) : lo ≤ rconv v 31 ∧ rconv v 31 ≤ hi := by
  unfold rconv
  dsimp only
  split
  · omega
  · omega

/-- A combination of two values lies between them (R125). -/
theorem fadePair_between (x y : Int) (g : Nat) (hg : g ≤ 2 ^ 31) : min x y ≤ fadePair x y g ∧ fadePair x y g ≤ max x y := by
  have h0 : (0 : Int) ≤ g := Int.natCast_nonneg g
  have h1 : (g : Int) ≤ 2 ^ 31 := by exact_mod_cast hg
  rcases Int.le_total x y with h | h
  · have hd : 0 ≤ y - x := Int.sub_nonneg.2 h
    have hlow := Int.mul_nonneg h0 hd
    have hhigh := Int.mul_le_mul_of_nonneg_right h1 hd
    rw [min_eq_left h, max_eq_right h]
    exact rconv_between _ _ _ (by omega) (by omega)
  · have hd : 0 ≤ x - y := Int.sub_nonneg.2 h
    have hlow := Int.mul_nonneg h0 hd
    have hhigh := Int.mul_le_mul_of_nonneg_right h1 hd
    have hneg : (g : Int) * (y - x) = -((g : Int) * (x - y)) := by ring
    rw [min_eq_right h, max_eq_left h]
    unfold fadePair
    rw [hneg]
    exact rconv_between _ _ _ (by omega) (by omega)

theorem fadePair_ends (x y : Int) : fadePair x y (2 ^ 31) = y ∧ fadePair x y 0 = x := by
  have hexact (v z : Int) (h : v = z * 2 ^ 31) : rconv v 31 = z := by
    obtain ⟨h1, h2⟩ := rconv_between v z z (Int.le_of_eq h.symm) (Int.le_of_eq h)
    exact Int.le_antisymm h2 h1
  refine ⟨hexact _ _ ?_, hexact _ _ ?_⟩
  · push_cast
    ring
  · push_cast
    ring

/-! ## Waiting changes start, and members retire -/

section
variable (s : State)

theorem exec_waitingChangeStart_tap (n : CourseId) (j : Fin 2048) (w : Nat × Nat)
    (ht : firstTurn s.tapsWaiting (fun k => s.tapRoom (k / 2048) (k % 2048) (s.course (fin 7 (k / 2048))).nextPrefetch) = some (tapKey n.val j.val))
    (hw : (s.tap n.val j.val).waiting = some w) (hc : w.1 < (s.course n).nextPrefetch) :
    exec (.waitingChangeStart (.tap n j)) s =
      .next (s.tapBegin n.val j.val (s.course n).nextPrefetch w.2 (s.lineFade n.val (s.tapLine n.val j.val))) := by
  show execWaitingChangeStart (.tap n j) s = _
  rw [execWaitingChangeStart]
  simp only [hw]
  exact congrArg Host.Outcome.next (if_pos ⟨ht, hc⟩)

theorem exec_memberRetire_eq (k : EntryKey) : exec (.memberRetire k) s = .next (
    if ((s.xent (entryKey k)).live s.now).isEmpty && (s.xent (entryKey k)).waiting.isNone then { s with xents := mapDel s.xents (entryKey k) }
    else s.setXent (entryKey k) { s.xent (entryKey k) with members := (s.xent (entryKey k)).live s.now }) := rfl

end

/-- Settles O24: the turns of waiting changes, the crossfade arithmetic, and the ends of crossfades and ramps. -/
theorem crossfades : Obligations.Crossfades := by
  unfold Obligations.Crossfades
  refine ⟨fun s n j a x p sec => ?starts, firstTurn_least, fun f k c m len hk => runsValue_append id k f.runs m c len hk f.base,
    ⟨fadeWeight_running, fadeWeight_last, fun x y => fadePair_ends x.toInt y.toInt, fun x y g hg => fadePair_between x.toInt y.toInt g hg, fadeWeight_mono⟩,
    fun s k a sec => ?ends⟩
  case starts =>
    refine ⟨exec_waitingChangeStart_tap s n j, fun y hy hsh => ?_, fun h => congrArg Host.Outcome.next (if_pos h),
      fun h => congrArg Host.Outcome.next (if_pos h), fun h => congrArg Host.Outcome.next (if_pos h)⟩
    refine congrArg Host.Outcome.next ((if_pos hy).trans ?_)
    have hg : s.selGroup a.toNat = y.group := by rw [State.selGroup, hsh]
    rw [State.selBegin, hg]
  case ends =>
    intro e kept
    have hlive : e.live s.now = kept := rfl
    refine ⟨fun h => ?_, fun h hw => ?_, fun h => congrArg Host.Outcome.next (if_pos h), fun h => congrArg Host.Outcome.next (if_pos h)⟩
    · rw [exec_memberRetire_eq]
      refine congrArg Host.Outcome.next (if_neg ?_)
      rw [show (s.xent (entryKey k)).live s.now = kept from rfl, Bool.and_eq_true]
      rintro ⟨h1, h2⟩
      rcases h with h | h
      · exact h (List.isEmpty_iff.1 h1)
      · rw [Option.isNone_iff_eq_none.1 h2] at h
        exact absurd h (by decide)
    · rw [exec_memberRetire_eq]
      refine congrArg Host.Outcome.next (if_pos ?_)
      rw [show (s.xent (entryKey k)).live s.now = kept from rfl, h, show (s.xent (entryKey k)).waiting = none from hw]
      rfl

end Sys2Proof.Machine
end

section
/-! The matrix work of a frame (R30, R149, R150), and the records of the array and the meters (R152, R162). -/

namespace Sys2Proof.Machine

-- One theorem after another, so that the compile of the whole text stays within its memory.
set_option Elab.async false

/-! ## Steps that change a few registers and nothing else -/

/-- From `s` to `t` only registers of `l` have changed. -/
def RegsKept (l : List Nat) (s t : State) : Prop := ∃ r, t = { s with regs := r } ∧ ∀ a, a ∉ l → t.reg a = s.reg a

namespace RegsKept

variable {l : List Nat} {s t u : State}

theorem refl (l : List Nat) (s : State) : RegsKept l s s := ⟨s.regs, rfl, fun _ _ => rfl⟩

theorem trans (h : RegsKept l s t) (g : RegsKept l t u) : RegsKept l s u := by
  obtain ⟨r, rfl, hr⟩ := h
  obtain ⟨q, rfl, hq⟩ := g
  exact ⟨q, rfl, fun a ha => (hq a ha).trans (hr a ha)⟩

theorem mono {m : List Nat} (h : RegsKept l s t) (hm : ∀ a ∈ l, a ∈ m) : RegsKept m s t := by
  obtain ⟨r, e, hr⟩ := h
  exact ⟨r, e, fun a ha => hr a fun hl => ha (hm a hl)⟩

theorem setReg {a : Nat} (ha : a ∈ l) (v : Word) (h : RegsKept l s t) : RegsKept l s (t.setReg a v) :=
  h.trans ⟨_, rfl, fun _ hb => State.reg_setReg_ne t v fun e => hb (e ▸ ha)⟩

theorem setRbit {a : Nat} (ha : a ∈ l) (i : Nat) (h : RegsKept l s t) : RegsKept l s (t.setRbit a i) := h.setReg ha _

theorem count {a : Nat} (ha : a ∈ l) (n : Nat) (h : RegsKept l s t) : RegsKept l s (t.count a n) := h.setReg ha _

theorem ite {c : Prop} [Decidable c] (h : RegsKept l s t) (g : RegsKept l s u) : RegsKept l s (if c then t else u) := by
  split
  · exact h
  · exact g

end RegsKept

/-! ## Maps with distinct keys -/

section
variable {α : Type}

theorem mem_mapDel (m : List (Nat × α)) (k : Nat) (e : Nat × α) : e ∈ mapDel m k → e ∈ m ∧ e.1 ≠ k := by
  induction m with
  | nil => exact fun h => nomatch h
  | cons d m ih =>
    intro h
    rw [mapDel] at h
    split at h
    · exact ⟨List.mem_cons_of_mem d (ih h).1, (ih h).2⟩
    · next hd =>
      rcases List.mem_cons.1 h with rfl | h
      · exact ⟨List.mem_cons_self, hd⟩
      · exact ⟨List.mem_cons_of_mem d (ih h).1, (ih h).2⟩

theorem mem_mapIns (m : List (Nat × α)) (k : Nat) (v : α) (e : Nat × α) : e ∈ mapIns m k v → e = (k, v) ∨ e ∈ m := by
  induction m with
  | nil => exact fun h => .inl (List.mem_singleton.1 h)
  | cons d m ih =>
    intro h
    rw [mapIns] at h
    split at h
    · exact List.mem_cons.1 h
    · rcases List.mem_cons.1 h with rfl | h
      · exact .inr List.mem_cons_self
      · exact (ih h).imp_right (List.mem_cons_of_mem d)

/-- The keys of a map differ. -/
def DistinctKeys (m : List (Nat × α)) : Prop := m.Pairwise fun d e => d.1 ≠ e.1

theorem DistinctKeys.mapDel {m : List (Nat × α)} (h : DistinctKeys m) (k : Nat) : DistinctKeys (mapDel m k) := by
  induction m with
  | nil => exact List.Pairwise.nil
  | cons d m ih =>
    obtain ⟨hd, hm⟩ := List.pairwise_cons.1 h
    rw [Machine.mapDel]
    split
    · exact ih hm
    · exact List.pairwise_cons.2 ⟨fun e he => hd e (mem_mapDel m k e he).1, ih hm⟩

theorem DistinctKeys.mapIns {m : List (Nat × α)} (h : DistinctKeys m) (k : Nat) (v : α) (hk : ∀ e ∈ m, e.1 ≠ k) : DistinctKeys (mapIns m k v) := by
  induction m with
  | nil => exact List.pairwise_singleton _ _
  | cons d m ih =>
    obtain ⟨hd, hm⟩ := List.pairwise_cons.1 h
    rw [Machine.mapIns]
    split
    · exact List.pairwise_cons.2 ⟨fun e he => (hk e he).symm, h⟩
    · refine List.pairwise_cons.2 ⟨fun e he => ?_, ih hm fun e he => hk e (List.mem_cons_of_mem d he)⟩
      rcases mem_mapIns m k v e he with rfl | he
      · exact hk d List.mem_cons_self
      · exact hd e he

theorem mapFind_none_of_keys (m : List (Nat × α)) (k : Nat) (h : ∀ e ∈ m, e.1 ≠ k) : mapFind m k = none := by
  induction m with
  | nil => rfl
  | cons d m ih => rw [mapFind, if_neg (h d List.mem_cons_self), ih fun e he => h e (List.mem_cons_of_mem d he)]

end

/-! ## The sums of the buses -/

/-- Sums of values gathered by key. -/
def sumsBy (key : Nat → Nat) (val : Nat → Int) (l : List Nat) (m : List (Nat × Int)) : List (Nat × Int) :=
  l.foldl (fun m x => mapIns (mapDel m (key x)) (key x) ((mapFind m (key x)).getD 0 + val x)) m

theorem sumsBy_spec (key : Nat → Nat) (val : Nat → Int) (l : List Nat) (m : List (Nat × Int)) (hm : DistinctKeys m) :
    DistinctKeys (sumsBy key val l m) ∧
    ∀ b, (mapFind (sumsBy key val l m) b).getD 0 = (mapFind m b).getD 0 + ((l.filter fun x => key x == b).map val).sum := by
  induction l generalizing m with
  | nil => exact ⟨hm, fun b => (Int.add_zero _).symm⟩
  | cons x l ih =>
    obtain ⟨hd, hs⟩ := ih _ ((hm.mapDel (key x)).mapIns (key x) ((mapFind m (key x)).getD 0 + val x) fun e he => (mem_mapDel m (key x) e he).2)
    refine ⟨hd, fun b => (hs b).trans ?_⟩
    by_cases hb : key x = b
    · subst hb
      rw [mapFind_ins_self _ _ _ (mapFind_del_self m (key x)), Option.getD_some, List.filter_cons_of_pos (p := fun y => key y == key x) (beq_self_eq_true (key x)), List.map_cons,
        List.sum_cons, Int.add_assoc]
    · rw [mapFind_ins_ne _ _ (Ne.symm hb), mapFind_del_ne m (Ne.symm hb), List.filter_cons_of_neg (by simpa using hb)]

theorem sumsBy_keys (key : Nat → Nat) (val : Nat → Int) (l : List Nat) (m : List (Nat × Int)) (e : Nat × Int) (h : e ∈ sumsBy key val l m) :
    e ∈ m ∨ ∃ x, e.1 = key x := by
  induction l generalizing m with
  | nil => exact .inl h
  | cons x l ih =>
    rcases ih _ h with h | h
    · rcases mem_mapIns _ _ _ e h with rfl | h
      · exact .inr ⟨x, rfl⟩
      · exact .inl (mem_mapDel m _ e h).1
    · exact .inr h

theorem State.busSums_eq (s : State) (k : Nat) : s.busSums k = sumsBy s.entryBus (s.entrySum · k) s.entryKeys [] := rfl

/-! ## The work of the buses -/

theorem State.busWork_shape (s : State) (k b : Nat) (sum : Int) :
    ∃ r, s.busWork k b sum = { s with bus := wmSet s.bus (k % 2 * 1024 + b) (busOut sum (s.busShift b)).1, regs := r } ∧
      ∀ a, a ∉ [regMIX_STATUS, regMIX_AV_CNT, regMIX_AV_BUS, regMIX_SAT_CNT] →
        State.reg { s with bus := wmSet s.bus (k % 2 * 1024 + b) (busOut sum (s.busShift b)).1, regs := r } a = s.reg a := by
  have h1 := RegsKept.refl [regMIX_STATUS, regMIX_AV_CNT, regMIX_AV_BUS, regMIX_SAT_CNT] { s with bus := wmSet s.bus (k % 2 * 1024 + b) (busOut sum (s.busShift b)).1 }
  have h2 : RegsKept [regMIX_STATUS, regMIX_AV_CNT, regMIX_AV_BUS, regMIX_SAT_CNT]
      { s with bus := wmSet s.bus (k % 2 * 1024 + b) (busOut sum (s.busShift b)).1 } (s.busWork k b sum) := by
    rw [State.busWork]
    have hav := h1.setRbit (a := regMIX_STATUS) (by simp) 30 |>.count (a := regMIX_AV_CNT) (by simp) 1
    refine RegsKept.ite (RegsKept.count (by simp) 1 (RegsKept.setRbit (by simp) 29 ?_)) ?_
    all_goals exact RegsKept.ite (RegsKept.ite hav (hav.setReg (by simp) _)) h1
  obtain ⟨r, e, hr⟩ := h2
  rw [e] at hr
  exact ⟨r, e, hr⟩

/-- The work of the buses with distinct keys: each takes its value, and no other word of the buses changes. -/
theorem State.busWorks_spec (k : Nat) (l : List (Nat × Int)) (hl : DistinctKeys l) (hb : ∀ e ∈ l, e.1 < 1024) (s : State) :
    ∃ m r, l.foldl (fun s e => s.busWork k e.1 e.2) s = { s with bus := m, regs := r } ∧
      (∀ a, a ∉ [regMIX_STATUS, regMIX_AV_CNT, regMIX_AV_BUS, regMIX_SAT_CNT] → State.reg { s with bus := m, regs := r } a = s.reg a) ∧
      (∀ b, b < 1024 → wmGet m (k % 2 * 1024 + b) =
        ((mapFind l b).map fun sum => (busOut sum (s.busShift b)).1).getD (wmGet s.bus (k % 2 * 1024 + b))) ∧
      (∀ b, b < 1024 → wmGet m ((k + 1) % 2 * 1024 + b) = wmGet s.bus ((k + 1) % 2 * 1024 + b)) := by
  induction l generalizing s with
  | nil => exact ⟨s.bus, s.regs, rfl, fun _ _ => rfl, fun _ _ => rfl, fun _ _ => rfl⟩
  | cons e l ih =>
    obtain ⟨hd, hl⟩ := List.pairwise_cons.1 hl
    have he := hb e List.mem_cons_self
    obtain ⟨r0, e0, h0⟩ := s.busWork_shape k e.1 e.2
    obtain ⟨m, r, e1, hreg, hbus, hkeep⟩ := ih hl (fun d hmem => hb d (List.mem_cons_of_mem e hmem))
      { s with bus := wmSet s.bus (k % 2 * 1024 + e.1) (busOut e.2 (s.busShift e.1)).1, regs := r0 }
    refine ⟨m, r, ?_, fun a ha => (hreg a ha).trans (h0 a ha), fun b hlt => (hbus b hlt).trans ?_, fun b hlt => (hkeep b hlt).trans ?_⟩
    · rw [List.foldl_cons, e0, e1]
    · by_cases hbe : e.1 = b
      · subst hbe
        rw [mapFind_none_of_keys l e.1 fun d hmem => (hd d hmem).symm, mapFind, if_pos rfl]
        exact mapGet_set_self _ _ _ _
      · rw [mapFind, if_neg hbe]
        refine congrArg _ (mapGet_set_ne _ _ _ fun h => hbe ?_)
        omega
    · exact mapGet_set_ne _ _ _ (by omega)

/-! ## The matrix work of a frame -/

theorem busOut_zero (h : Nat) : (busOut 0 h).1 = 0 := by
  have hr : rconv 0 (28 + h) = 0 := by
    have hp : (0 : Int) < 2 ^ (28 + h) := by positivity
    rw [rconv, Int.zero_ediv, Int.zero_emod]
    exact if_neg (by omega)
  rw [busOut, show sat64 0 = 0 from rfl, hr]
  rfl

theorem wmGet_foldl_range (g : Nat → Word) (n f : Nat) (h : f < n) : wmGet ((List.range n).foldl (fun m f => wmSet m f (g f)) []) f = g f := by
  induction n with
  | zero => exact absurd h (Nat.not_lt_zero f)
  | succ n ih =>
    rw [List.range_succ, List.foldl_append]
    by_cases hf : f = n
    · subst hf
      exact mapGet_set_self _ _ _ _
    · exact (mapGet_set_ne _ _ _ hf).trans (ih (by omega))

theorem State.foldl_modCourse_shape (f : Course → Course) (l : List CourseId) (s : State) :
    ∃ cs, l.foldl (fun s n => s.modCourse n f) s = { s with courses := cs } := by
  induction l generalizing s with
  | nil => exact ⟨s.courses, rfl⟩
  | cons n l ih =>
    obtain ⟨cs, e⟩ := ih (s.modCourse n f)
    exact ⟨cs, e⟩

/-- A bus takes its exact sum, rounded and saturated; one without members has sum zero. -/
theorem busValue (sums : List (Nat × Int)) (b h : Nat) (d : Word) (hd : d = 0) :
    ((mapFind sums b).map fun sum => (busOut sum h).1).getD d = (busOut ((mapFind sums b).getD 0) h).1 := by
  subst hd
  cases mapFind sums b with
  | none => exact (busOut_zero h).symm
  | some v => rfl

theorem wmGet_bus_filter (m : List (Nat × Word)) (k i b : Nat) (hb : b < 1024) :
    wmGet (m.filter fun e => decide (e.1 / 1024 ≠ k)) (i * 1024 + b) = if i = k then 0 else wmGet m (i * 1024 + b) := by
  have hi : (i * 1024 + b) / 1024 = i := by omega
  rw [wmGet, mapGet, mapFind_filter (fun x => decide (x / 1024 ≠ k)), hi]
  by_cases h : i = k
  · rw [if_neg (by simpa using h), if_pos h]
    rfl
  · rw [if_pos (by simpa using h), if_neg h]
    rfl

theorem State.matrixWork_spec (s : State) (k : Nat) (hu : Unarmed s) :
    ∃ cs feeds m r, s.matrixWork k = { s with courses := cs, mixFeeds := feeds, bus := m, matFrame := some k, regs := r } ∧
      (∀ b, b < 1024 → wmGet m (k % 2 * 1024 + b) =
        (busOut (((s.entryKeys.filter fun x => s.entryBus x == b).map fun x => State.entrySum { s with mixFeeds := feeds } x k).sum) (s.busShift b)).1) ∧
      (∀ b, b < 1024 → wmGet m ((k + 1) % 2 * 1024 + b) = wmGet s.bus ((k + 1) % 2 * 1024 + b)) ∧
      (∀ f, f < 2048 → fld (s.tabGet (0x01110000 + 4 * (f / 16))) 28 4 ≠ 5 → wmGet feeds f = wmGet s.captured f) ∧
      (∀ a, a ∉ [regMIX_STATUS, regMIX_AV_CNT, regMIX_AV_BUS, regMIX_SAT_CNT, regMIX_ACTIVE] →
        State.reg { s with courses := cs, mixFeeds := feeds, bus := m, matFrame := some k, regs := r } a = s.reg a) := by
  obtain ⟨cs, hcs⟩ := State.foldl_modCourse_shape (fun c => c.stepFeeds k) courseIds s
  let feeds := (List.range 2048).foldl (fun m f => wmSet m f (State.feedValue { s with courses := cs } k f)) []
  let s2 : State := { s with courses := cs, mixFeeds := feeds, bus := s.bus.filter fun e => decide (e.1 / 1024 ≠ k % 2), matFrame := some k }
  obtain ⟨hdist, hsum⟩ := sumsBy_spec s2.entryBus (s2.entrySum · k) s2.entryKeys [] List.Pairwise.nil
  have hkey (e : Nat × Int) (he : e ∈ s2.busSums k) : e.1 < 1024 := by
    rcases sumsBy_keys _ _ _ _ e he with h | ⟨x, h⟩
    · exact nomatch h
    · rw [h]
      exact Nat.mod_lt _ (by decide)
  obtain ⟨m, r, e, hreg, hbus, hkeep⟩ := State.busWorks_spec k (s2.busSums k) hdist hkey s2
  obtain ⟨v, hv⟩ : ∃ v, s.matrixWork k = State.setReg { s2 with bus := m, regs := r } regMIX_ACTIVE v := by
    apply Exists.intro
    rw [State.matrixWork, s.memTouch_unarmed _ _ hu, hcs]
    dsimp only
    rw [e]
  refine ⟨cs, feeds, m, mapSet regReset r regMIX_ACTIVE v, hv.trans ?_, fun b hb => (hbus b hb).trans ?_, fun b hb => (hkeep b hb).trans ?_, fun f hf h5 => ?_, fun a ha => ?_⟩
  · rw [State.setReg]
  · have h0 : wmGet s2.bus (k % 2 * 1024 + b) = 0 := (wmGet_bus_filter s.bus (k % 2) (k % 2) b hb).trans (if_pos rfl)
    rw [busValue _ b _ _ h0, State.busSums_eq, hsum b, show mapFind ([] : List (Nat × Int)) b = none from rfl,
      Option.getD_none, Int.zero_add]
    rfl
  · exact (wmGet_bus_filter s.bus (k % 2) ((k + 1) % 2) b hb).trans (if_neg (by omega))
  · refine (wmGet_foldl_range _ _ f hf).trans ?_
    exact if_neg h5
  · simp only [List.mem_cons, List.not_mem_nil, or_false, not_or] at ha
    obtain ⟨h1, h2, h3, h4, h5⟩ := ha
    exact (mapGet_set_ne regReset r v h5).trans (hreg a (by simp [h1, h2, h3, h4]))

/-! ## The records of the array and the meters -/

theorem exec_meterReadingWord0Read (m : Master) (p : Fin 4096) (s : State) :
    exec (.meterReadingWord0Read m p) s = .next ((((s.setLatch m.val (readingAddr p.val 1) (s.meterWord p.val 1)).setLatch m.val (readingAddr p.val 2)
      (s.meterWord p.val 2)).setLatch m.val (readingAddr p.val 3) (s.meterWord p.val 3)).returnTo m.val (s.meterWord p.val 0)) := rfl

/-- Settles O25: the matrix work, and the records of the array and the meters. -/
theorem matrixAndArrays : Obligations.MatrixAndArrays := by
  unfold Obligations.MatrixAndArrays
  refine ⟨fun s htick hfresh hdue hgate hu => ?_, ⟨fun s e rest hsat hdone => ⟨fun h31 => ?_, fun h31 => ?_⟩, fun s m p => ⟨_, exec_meterReadingWord0Read m p s, rfl, ?_, fun k hk => ?_, fun w h1 h3 => ?_⟩⟩⟩
  · intro k
    obtain ⟨cs, feeds, m, r, e, hbus, hkeep, hfeed, hreg⟩ := s.matrixWork_spec k hu
    have hwork : exec .matrixWorkStart s = .next (s.matrixWork k) := by
      show execMatrixWorkStart s = _
      rw [execMatrixWorkStart]
      dsimp only
      refine congrArg Host.Outcome.next ((if_pos ?_).trans (if_neg (Bool.eq_false_iff.1 hgate)))
      rw [htick, hdue, Bool.true_and, Bool.and_true]
      split
      · next m hm => exact decide_eq_true (hfresh m hm)
      · rfl
    rw [e] at hwork
    exact ⟨_, hwork, rfl, hbus, hkeep, hfeed, hreg⟩
  · show execEqSatRecord s = _
    rw [execEqSatRecord, hsat]
    dsimp only
    rw [hdone]
    exact congrArg Host.Outcome.next (if_neg (Bool.eq_false_iff.1 h31))
  · show execEqSatRecord s = _
    rw [execEqSatRecord, hsat]
    dsimp only
    rw [hdone]
    exact congrArg Host.Outcome.next (if_pos h31)
  · exact State.rdata_returnTo_self _ _ _
  · exact State.rdata_returnTo_ne _ _ hk
  · rw [State.latched_returnTo]
    obtain rfl | rfl | rfl : w = 1 ∨ w = 2 ∨ w = 3 := by omega
    · rw [State.latched_setLatch_ne _ _ _ (by unfold readingAddr; omega), State.latched_setLatch_ne _ _ _ (by unfold readingAddr; omega)]
      exact State.latched_setLatch_self _ _ _ _
    · rw [State.latched_setLatch_ne _ _ _ (by unfold readingAddr; omega)]
      exact State.latched_setLatch_self _ _ _ _
    · exact State.latched_setLatch_self _ _ _ _

end Sys2Proof.Machine
end

section
/-! Direct writes of tables (R138, R168, R269, R270), and what masters write to the Peg queue (R172, R174, R349). -/

namespace Sys2Proof.Machine

-- One theorem after another, so that the compile of the whole text stays within its memory.
set_option Elab.async false

/-! ## Ignored writes -/

theorem State.hostRef_some (s : State) (a r b : Nat) (h : hostRefBit a = some (r, b)) : s.hostRef a = s.setReg r (s.reg r ||| oneHot b) := by
  rw [State.hostRef, h]
  rfl

theorem State.hostRef_none (s : State) (a : Nat) (h : hostRefBit a = none) : s.hostRef a = s := by rw [State.hostRef, h]

theorem exec_bootOnlyWordWrite (s : State) (m : Master) (a v : Word) {k : TabKind} {mask : Word} (h : tabWord a.toNat = some (k, mask))
    (hk : k = .boot ∨ k = .readOnly) : exec (.bootOnlyWordWrite m a v) s = .next (s.hostRef a.toNat) := by
  show execBootOnlyWordWrite m a v s = _
  rw [execBootOnlyWordWrite, h]
  rcases hk with rfl | rfl
  · rfl
  · rfl

theorem exec_shadowedWordDirectWrite (s : State) (m : Master) (a v : Word) (h : (s.shadowed a.toNat).isSome = true) :
    exec (.shadowedWordDirectWrite m a v) s = .next (s.hostRef a.toNat) := congrArg Host.Outcome.next (if_pos h)

/-! ## The partner table -/

/-- The bits of word `w` of a partner entry that hold state (R269). -/
def partnerMask (w : Nat) : Word := if w = 0 then 0xFC00FFFF#32 else if w = 6 then 0x0000FFFF#32 else 0xFFFFFFFF#32

theorem tabWord_partner (p w : Nat) (hp : p < 512) (hw : w < 8) : tabWord (partnerAddr p w) = some (.direct, partnerMask w) := by
  have h32 : partnerAddr p w % 32 = 4 * w := by unfold partnerAddr; omega
  have hlo : 0x01A30000 ≤ partnerAddr p w := by unfold partnerAddr; omega
  have hhi : partnerAddr p w < 0x01A34000 := by unfold partnerAddr; omega
  rw [tabWord, if_neg (by omega), if_neg (by omega), if_neg (by omega), tabNet, if_neg (by omega), if_neg (by omega), if_pos ⟨hlo, hhi⟩, h32]
  rcases (by omega : w = 0 ∨ w = 1 ∨ w = 2 ∨ w = 3 ∨ w = 4 ∨ w = 5 ∨ w = 6 ∨ w = 7) with rfl | rfl | rfl | rfl | rfl | rfl | rfl | rfl <;> rfl

theorem exec_partnerTableWrite (s : State) (m : Master) (a v : Word) (p w : Nat) (ha : a.toNat = partnerAddr p w) (hp : p < 512) (hw : w < 8) :
    exec (.partnerTableWrite m a v) s =
      .next (let s1 := s.partnerSet p w (v &&& partnerMask w)
        let s2 : State := if s1.partnerValid p then s1 else { s1 with partnerFlows := mapDel s1.partnerFlows p }
        if w = 0 then s2.connect else s2) := by
  have ho : partnerAddr p w - 0x01A30000 = 32 * p + 4 * w := by unfold partnerAddr; omega
  show execPartnerTableWrite m a v s = _
  rw [execPartnerTableWrite, ha]
  refine congrArg Host.Outcome.next ((if_pos (by unfold partnerAddr; omega)).trans ?_)
  dsimp only
  rw [tabWord_partner p w hp hw, ho, show (32 * p + 4 * w) / 32 = p by omega, show (32 * p + 4 * w) % 32 / 4 = w by omega]
  by_cases h0 : w = 0
  · rw [if_pos h0]
    exact if_pos (by omega)
  · rw [if_neg h0]
    exact if_neg (by omega)

theorem State.raiseEvent_tab (s : State) (e : Nat) (pl : Word) : (s.raiseEvent e pl).tab = s.tab := by rw [State.raiseEvent_frame]

theorem State.raiseEvent_ticking (s : State) (e : Nat) (pl : Word) : (s.raiseEvent e pl).ticking = s.ticking := by rw [State.raiseEvent_frame]

theorem State.partnerSet_zero (s : State) (p : Nat) (v : Word) :
    s.partnerSet p 0 v = if bit v 31 = s.partnerValid p then s.tabSet (partnerAddr p 0) v
      else (s.tabSet (partnerAddr p 0) v).raiseEvent 63 (BitVec.ofNat 32 p) := by
  by_cases h : bit v 31 = s.partnerValid p
  · rw [if_pos h]
    exact if_neg fun e => e.2 h
  · rw [if_neg h]
    exact if_pos ⟨rfl, h⟩

theorem State.partnerSet_pos (s : State) (p w : Nat) (v : Word) (hw : w ≠ 0) : s.partnerSet p w v = s.tabSet (partnerAddr p w) v :=
  if_neg fun e => hw e.1

theorem State.partnerValid_of_tab (s t : State) (p : Nat) (h : t.tab = s.tab) : t.partnerValid p = s.partnerValid p := by
  unfold State.partnerValid State.tabGet
  rw [h]

theorem State.partnerValid_set_zero (s : State) (p : Nat) (v : Word) : (s.tabSet (partnerAddr p 0) v).partnerValid p = bit v 31 := by
  rw [State.partnerValid, State.tabGet_tabSet_self]

theorem State.partnerValid_set_pos (s : State) (p w : Nat) (v : Word) (hw : w ≠ 0) : (s.tabSet (partnerAddr p w) v).partnerValid p = s.partnerValid p := by
  rw [State.partnerValid, State.tabGet_tabSet_ne _ _ (by unfold partnerAddr; omega), State.partnerValid]

theorem bit_partnerMask_zero (v : Word) : bit (v &&& partnerMask 0) 31 = bit v 31 := by
  rw [bit_and, show bit (partnerMask 0) 31 = true from rfl, Bool.and_true]

theorem State.connect_idle (s : State) (h : s.ticking = false) : s.connect = s := if_neg (Bool.eq_false_iff.1 h)

/-! ## Headers and payload words -/

theorem State.pegClose_none (s : State) (m : Nat) (h : s.openEntry m = none) : s.pegClose m = s := by rw [State.pegClose, h]

/-- A master whose header R174 does not refuse has the way to the queue (R349). -/
theorem State.pegVerdict_none (s : State) (m : Nat) (v : Word) (h : s.pegVerdict m v = none) : ¬ (s.pegClosed = true ∧ m ≠ 11) := fun hc => by
  rw [State.pegVerdict, if_pos hc] at h
  exact nomatch h

theorem State.pegHeader_verdict (s : State) (m : Nat) (v : Word) (ho : s.openEntry m = none) (hc : ¬ (s.pegClosed = true ∧ m ≠ 11)) :
    s.pegHeader m v = match s.pegVerdict m v with
      | some 30 => (s.faultOccurs 3).pegRefuse m 30
      | some b => s.pegRefuse m b
      | none => if hdrLen v = 0 then s.joinQueue m v [] none else { s with pegOpen := s.pegOpen ++ [{ master := m, hdr := v, words := [] }] } := by
  rw [State.pegHeader, s.pegClose_none m ho]
  exact if_neg hc

theorem State.pegData_some (s : State) (m : Nat) (v : Word) (e : PegOpen) (h : s.openEntry m = some e) :
    s.pegData m v = if hdrLen e.hdr ≤ e.words.length + 1 then
        ({ s with pegOpen := s.pegOpen.filter fun e => decide (e.master ≠ m) } : State).joinQueue m e.hdr (e.words ++ [v]) none
      else { s with pegOpen := s.pegOpen.map fun o => if o.master = m then { o with words := e.words ++ [v] } else o } := by
  rw [State.pegData, h]
  dsimp only
  rw [List.length_append, List.length_singleton]

/-- Settles O26: the ignored direct writes, the partner table, and the entries of the Peg queue. -/
theorem tableAndQueueWrites : Obligations.TableAndQueueWrites := by
  unfold Obligations.TableAndQueueWrites
  refine ⟨fun s m a v => ⟨fun k mask h hk => ⟨_, exec_bootOnlyWordWrite s m a v h hk, s.hostRef_some a.toNat, s.hostRef_none a.toNat⟩,
    fun h => ⟨_, exec_shadowedWordDirectWrite s m a v h, s.hostRef_some a.toNat, s.hostRef_none a.toNat⟩, fun p w ha hp hw => ?_⟩, fun s m v => ?_⟩
  · have he := exec_partnerTableWrite s m a v p w ha hp hw
    intro mask t u u'
    refine ⟨fun h0 hv => ?_, fun h0 hv => ?_, fun h0 => ?_, fun htick => State.connect_idle u' ?_⟩
    · rw [he]
      dsimp only
      rw [s.partnerSet_pos p w _ h0, if_neg h0, s.partnerValid_set_pos p w _ h0, hv]
      exact congrArg (fun x => Host.Outcome.next (s.tabSet x (v &&& partnerMask w))) ha.symm
    · rw [he]
      dsimp only
      rw [s.partnerSet_pos p w _ h0, if_neg h0, s.partnerValid_set_pos p w _ h0, hv, ← (show a.toNat = partnerAddr p w from ha)]
      rfl
    · subst h0
      rw [he]
      have hu : s.partnerSet p 0 (v &&& partnerMask 0) = u := by
        rw [State.partnerSet_zero, bit_partnerMask_zero, ← (show a.toNat = partnerAddr p 0 from ha)]
        rfl
      have hval : u.partnerValid p = bit v 31 := by
        have hset : t.partnerValid p = bit v 31 := by
          have h := s.partnerValid_set_zero p (v &&& partnerMask 0)
          rwa [bit_partnerMask_zero, ← (show a.toNat = partnerAddr p 0 from ha)] at h
        refine (State.partnerValid_of_tab t u p ?_).trans hset
        show (if _ then t else _).tab = t.tab
        split
        · rfl
        · exact t.raiseEvent_tab _ _
      dsimp only
      rw [hu, hval]
      rfl
    · show (if _ then u else _).ticking = false
      have hut : u.ticking = false := by
        show (if _ then t else _).ticking = false
        split
        · exact htick
        · exact (t.raiseEvent_ticking _ _).trans htick
      split
      · exact hut
      · exact hut
  · refine ⟨fun ho hv hl => congrArg Host.Outcome.next ?_, fun ho hv hl => congrArg Host.Outcome.next ?_, fun ho hc hv => congrArg Host.Outcome.next ?_,
      fun ho hc hv => congrArg Host.Outcome.next ?_, fun e ho hl => congrArg Host.Outcome.next ?_, fun e ho hl => congrArg Host.Outcome.next ?_,
      fun ho => congrArg Host.Outcome.next ?_⟩
    · rw [s.pegHeader_verdict _ _ ho (s.pegVerdict_none _ _ hv), hv]
      exact if_neg hl
    · rw [s.pegHeader_verdict _ _ ho (s.pegVerdict_none _ _ hv), hv]
      exact if_pos hl
    · rw [s.pegHeader_verdict _ _ ho fun h => Bool.eq_false_iff.1 hc h.1, hv]
      rfl
    · rw [s.pegHeader_verdict _ _ ho fun h => Bool.eq_false_iff.1 hc h.1, hv]
      rfl
    · rw [s.pegData_some _ _ e ho]
      exact if_neg (by omega)
    · rw [s.pegData_some _ _ e ho]
      exact if_pos hl
    · rw [State.pegData, ho]

end Sys2Proof.Machine
end

section
/-! A WRITE entry of the Peg queue: it stages its words, or stalls on a sealed group (R13, R142, R176, R177). -/

namespace Sys2Proof.Machine

-- One theorem after another, so that the compile of the whole text stays within its memory.
set_option Elab.async false

theorem State.shadowed_shad (s : State) (m : List (Nat × Word)) (a : Nat) : State.shadowed { s with shad := m } a = s.shadowed a := rfl

theorem State.stage_defined (s : State) (a : Nat) (mask v : Word) (h : reservedShadow a v = false) :
    s.stage a mask v = s.shadSet a (shadowTrim a (v &&& mask)) := if_neg (Bool.eq_false_iff.1 h)

theorem State.stageWords_cons (s : State) (e : PegEntry) (base : Nat) (v : Word) (vs : List Word) (w : Shadowed)
    (hw : s.shadowed (base + 4 * e.pos) = some w) :
    s.stageWords e base (v :: vs) = if s.isSealed w.group then (s, e)
      else (s.stage (base + 4 * e.pos) w.mask v).stageWords { e with pos := e.pos + 1 } base vs := by
  rw [State.stageWords, hw]

/-- Words that are shadowed, unsealed and defined reach their shadow copies, and only those. -/
theorem State.stageWords_spec (base : Nat) (vs : List Word) (s : State) (e : PegEntry)
    (h : ∀ i, i < vs.length → ∃ w, s.shadowed (base + 4 * (e.pos + i)) = some w ∧ s.isSealed w.group = false ∧
      reservedShadow (base + 4 * (e.pos + i)) (nthD vs i 0) = false) :
    ∃ m, s.stageWords e base vs = ({ s with shad := m }, { e with pos := e.pos + vs.length }) ∧
      (∀ i w, i < vs.length → s.shadowed (base + 4 * (e.pos + i)) = some w →
        mapGet tabDefault m (base + 4 * (e.pos + i)) = shadowTrim (base + 4 * (e.pos + i)) (nthD vs i 0 &&& w.mask)) ∧
      (∀ a, (∀ i, i < vs.length → a ≠ base + 4 * (e.pos + i)) → mapGet tabDefault m a = s.shadGet a) := by
  induction vs generalizing s e with
  | nil => exact ⟨s.shad, rfl, fun i w hi => absurd hi (Nat.not_lt_zero i), fun _ _ => rfl⟩
  | cons v vs ih =>
    obtain ⟨w, hw, hopen, hdef⟩ := h 0 (Nat.zero_lt_succ _)
    rw [Nat.add_zero] at hw hdef
    obtain ⟨m, hstage, hin, hout⟩ := ih (s.shadSet (base + 4 * e.pos) (shadowTrim (base + 4 * e.pos) (v &&& w.mask))) { e with pos := e.pos + 1 } fun i hi => by
      have hn := h (i + 1) (Nat.succ_lt_succ hi)
      rw [show e.pos + (i + 1) = e.pos + 1 + i by omega] at hn
      exact hn
    refine ⟨m, ?_, fun i x hi hx => ?_, fun a ha => ?_⟩
    · rw [s.stageWords_cons e base v vs w hw, if_neg (Bool.eq_false_iff.1 hopen), s.stage_defined _ _ v hdef, hstage, List.length_cons,
        show e.pos + (vs.length + 1) = e.pos + 1 + vs.length by omega]
      rfl
    · cases i with
      | zero =>
        obtain rfl : w = x := Option.some.inj (hw.symm.trans hx)
        exact (hout _ fun i _ => by dsimp only; omega).trans (mapGet_set_self _ _ _ _)
      | succ i =>
        have hn := hin i x (Nat.lt_of_succ_lt_succ hi)
        rw [show e.pos + 1 + i = e.pos + (i + 1) by omega] at hn
        exact hn hx
    · refine (hout a fun i hi => ?_).trans (mapGet_set_ne _ _ _ (ha 0 (Nat.zero_lt_succ _)))
      have hn := ha (i + 1) (Nat.succ_lt_succ hi)
      dsimp only
      omega

theorem exec_pegWrite (s : State) (e : PegEntry) (rest : List PegEntry) (hq : s.pegQueue = e :: rest) (hop : hdrOp e.hdr = 1) (hgo : s.pegHalted = false) :
    exec .pegWrite s = .next (let r := s.stageWords e (nthD e.words 0 0).toNat (e.words.drop (e.pos + 1))
      if e.words.length ≤ r.2.pos + 1 then r.1.popHead else r.1.setHead r.2) := by
  show execPegWrite s = _
  rw [execPegWrite, hq]
  exact congrArg Host.Outcome.next (if_pos ⟨hop, by rw [hgo]; rfl⟩)

theorem exec_pegWrite_halted (s : State) (hgo : s.pegHalted = true) : exec .pegWrite s = .next s := by
  show execPegWrite s = _
  rw [execPegWrite]
  split
  · refine congrArg Host.Outcome.next (if_neg fun h => ?_)
    rw [hgo] at h
    exact absurd h.2 (by decide)
  · rfl

theorem State.popHead_queue (s : State) (e : PegEntry) (rest : List PegEntry) (hq : s.pegQueue = e :: rest) : s.popHead.pegQueue = rest := by
  show s.pegQueue.drop 1 = rest
  rw [hq]
  rfl

theorem State.setHead_same (s : State) (e : PegEntry) (rest : List PegEntry) (hq : s.pegQueue = e :: rest) : s.setHead e = s := by
  rw [State.setHead, hq]
  show { s with pegQueue := e :: rest } = s
  rw [← hq]

/-- Settles O27: a WRITE entry that is staged, and one that stalls. -/
theorem pegWrites : Obligations.PegWrites := by
  unfold Obligations.PegWrites
  refine ⟨fun s e rest base vs hq hop hgo hwords hpos hall => ?_, fun s e rest base v vs w hq hop hwords hpos hw hseal => ⟨?_, ?_⟩⟩
  · obtain ⟨m, hstage, hin, hout⟩ := s.stageWords_spec base.toNat vs e fun i hi => by
      rw [hpos, Nat.zero_add]
      exact hall i hi
    rw [hpos] at hin hout
    simp only [Nat.zero_add] at hin hout
    have he := exec_pegWrite s e rest hq hop hgo
    rw [hwords, hpos, show nthD (base :: vs) 0 0 = base from rfl, show (base :: vs).drop (0 + 1) = vs from rfl] at he
    dsimp only at he
    rw [hstage] at he
    refine ⟨_, he.trans (congrArg Host.Outcome.next (if_pos ?_)), ?_, hin, hout⟩
    · rw [hpos, List.length_cons]
      dsimp only
      omega
    · have hr : (State.popHead { s with shad := m }).pegQueue = rest := State.popHead_queue _ e rest hq
      rw [← hr]
      rfl
  · cases hgo : s.pegHalted with
    | true => exact exec_pegWrite_halted s hgo
    | false =>
      have he := exec_pegWrite s e rest hq hop hgo
      rw [hwords, hpos, show nthD (base :: v :: vs) 0 0 = base from rfl, show (base :: v :: vs).drop (0 + 1) = v :: vs from rfl,
        s.stageWords_cons e _ v vs w (by rw [hpos]; exact hw), if_pos hseal] at he
      refine he.trans (congrArg Host.Outcome.next ((if_neg ?_).trans (s.setHead_same e rest hq)))
      rw [hpos, List.length_cons, List.length_cons]
      omega
  · rw [State.pegStall, hq]
    dsimp only
    rw [hop, hwords, hpos, show (nthD (base :: v :: vs) 0 0).toNat + 4 * 0 = base.toNat from rfl, hw]
    exact hseal

end Sys2Proof.Machine
end

section
/-! The resolution of a commit, local and forwarded (R178, R180, R190, R356). -/

namespace Sys2Proof.Machine

-- One theorem after another, so that the compile of the whole text stays within its memory.
set_option Elab.async false

/-! ## The log record of a ticket -/

/-- The registers of log record `r`. -/
def logRegs (r : Nat) : List Nat := (List.range 8).map (regPEG_LOG r)

theorem regPEG_LOG_mem (r i : Nat) (hi : i < 8) : regPEG_LOG r i ∈ logRegs r := List.mem_map.2 ⟨i, List.mem_range.2 hi, rfl⟩

theorem not_mem_logRegs (r a : Nat) (h : ∀ i, i < 8 → a ≠ regPEG_LOG r i) : a ∉ logRegs r := fun hm => by
  obtain ⟨i, hi, rfl⟩ := List.mem_map.1 hm
  exact h i (List.mem_range.1 hi) rfl

/-- The log is the block of registers from 0x51000 to 0x517FF. -/
theorem not_mem_logRegs_of_block (tk a : Nat) (h : a < 0x51000 ∨ 0x51800 ≤ a) : a ∉ logRegs (tk % 64) :=
  not_mem_logRegs _ a fun i _ => by simp only [regPEG_LOG]; omega

section
variable (s : State) (ticket state : Nat) (late hold : Bool) (scene : Option Nat) (mode master tb : Nat) (mask : Word) (c : Nat) (ws : List Word)

theorem State.writeLog_kept : RegsKept (logRegs (ticket % 64)) s (s.writeLog ticket state late hold scene mode master tb mask c ws) := by
  have hm (i : Nat) (hi : i < 8) := regPEG_LOG_mem (ticket % 64) i hi
  rw [State.writeLog]
  exact RegsKept.setReg (hm 7 (by decide)) _ (.setReg (hm 6 (by decide)) _ (.setReg (hm 5 (by decide)) _ (.setReg (hm 4 (by decide)) _
    (.setReg (hm 3 (by decide)) _ (.setReg (hm 2 (by decide)) _ (.setReg (hm 1 (by decide)) _ (.setReg (hm 0 (by decide)) _ (.refl _ s))))))))

theorem State.reg_setLog_ne (t : State) (r i j : Nat) (v : Word) (h : j ≠ i) : (t.setReg (regPEG_LOG r i) v).reg (regPEG_LOG r j) = t.reg (regPEG_LOG r j) :=
  State.reg_setReg_ne _ _ ((regPEG_LOG_injective r).ne h)

theorem State.writeLog_mask : (s.writeLog ticket state late hold scene mode master tb mask c ws).reg (regPEG_LOG (ticket % 64) 1) = mask := by
  rw [State.writeLog]
  dsimp only
  iterate 6 rw [State.reg_setLog_ne _ _ _ _ _ (by decide)]
  exact State.reg_setReg_self _ _ _

theorem State.writeLog_frameLow :
    (s.writeLog ticket state late hold scene mode master tb mask c ws).reg (regPEG_LOG (ticket % 64) 2) = BitVec.ofNat 32 c := by
  rw [State.writeLog]
  dsimp only
  iterate 5 rw [State.reg_setLog_ne _ _ _ _ _ (by decide)]
  rw [State.reg_setReg_self]
  apply BitVec.eq_of_toNat_eq
  rw [BitVec.toNat_ofNat, BitVec.toNat_ofNat, Nat.mod_mod]

theorem State.writeLog_resolved : (s.writeLog ticket state late hold scene mode master tb mask c ws).reg (regPEG_LOG (ticket % 64) 7) = lo32 s.fc := by
  rw [State.writeLog]
  exact State.reg_setReg_self _ _ _

end

/-! ## Seals and forwarding -/

theorem State.sealed_append (s t : State) (k : Commit) (h : t.commits = s.commits ++ [k]) (hk : k.fixed = none) : t.sealed = s.sealed ||| k.mask := by
  rw [State.sealed, h, List.filter_append, List.foldl_append, List.filter_cons_of_pos (by rw [hk]; rfl)]
  rfl

theorem State.forward_idle (s : State) (h : s.forwards = false) : s.forward = s := if_neg (Bool.eq_false_iff.1 h)

/-- Forwarding depends on the sync record and on PAIR.STATUS alone. -/
theorem State.forwards_congr (s t : State) (hsync : t.syncSent = s.syncSent) (hreg : t.reg regPAIR_STATUS = s.reg regPAIR_STATUS) :
    t.forwards = s.forwards := by
  unfold State.forwards State.pairState State.rfld State.rbit
  rw [hsync, hreg]

theorem State.ackScene_none (s : State) (e : PegEntry) (tk : Nat) (h : e.ack = none) : s.ackScene e tk = s := by rw [State.ackScene, h]

/-! ## The two resolutions -/

theorem State.logged_kept (s : State) (tk state : Nat) (late hold : Bool) (scene : Option Nat) (mode master tb : Nat) (mask : Word) (c : Nat) (ws : List Word) :
    RegsKept (regPEG_TICKET :: logRegs (tk % 64)) s ((s.setRfld regPEG_TICKET 0 8 tk).writeLog tk state late hold scene mode master tb mask c ws) := by
  have h1 : RegsKept (regPEG_TICKET :: logRegs (tk % 64)) s (s.setRfld regPEG_TICKET 0 8 tk) := (RegsKept.refl _ s).setReg List.mem_cons_self _
  exact h1.trans ((State.writeLog_kept _ tk state late hold scene mode master tb mask c ws).mono fun a h => List.mem_cons_of_mem _ h)

theorem State.logged_ticket (s : State) (tk state : Nat) (late hold : Bool) (scene : Option Nat) (mode master tb : Nat) (mask : Word) (c : Nat) (ws : List Word)
    (htk : tk < 256) : ((s.setRfld regPEG_TICKET 0 8 tk).writeLog tk state late hold scene mode master tb mask c ws).rfld regPEG_TICKET 0 8 = tk := by
  obtain ⟨_, _, hr⟩ := (s.setRfld regPEG_TICKET 0 8 tk).writeLog_kept tk state late hold scene mode master tb mask c ws
  rw [State.rfld, hr _ (not_mem_logRegs_of_block _ _ (by decide))]
  exact (State.rfld_setRfld_self s regPEG_TICKET 0 8 tk (by decide)).trans (Nat.mod_eq_of_lt htk)

/-- The registers `r` after a ticket has been taken and logged: the ticket, the words of its log record, and no other register of `s`. -/
structure TicketLogged (s : State) (tk : Nat) (mask : Word) (c : Nat) (r : List (Nat × Word)) : Prop where
  ticket : fld (mapGet regReset r regPEG_TICKET) 0 8 = tk
  mask : mapGet regReset r (regPEG_LOG (tk % 64) 1) = mask
  frame : mapGet regReset r (regPEG_LOG (tk % 64) 2) = BitVec.ofNat 32 c
  resolved : mapGet regReset r (regPEG_LOG (tk % 64) 7) = lo32 s.fc
  other : ∀ a, a ≠ regPEG_TICKET → (∀ i, i < 8 → a ≠ regPEG_LOG (tk % 64) i) → mapGet regReset r a = s.reg a

theorem State.logged_spec (s : State) (tk state : Nat) (late hold : Bool) (scene : Option Nat) (mode master tb : Nat) (mask : Word) (c : Nat) (ws : List Word)
    (htk : tk < 256) :
    ∃ r, (s.setRfld regPEG_TICKET 0 8 tk).writeLog tk state late hold scene mode master tb mask c ws = { s with regs := r } ∧ TicketLogged s tk mask c r := by
  have h1 := s.logged_ticket tk state late hold scene mode master tb mask c ws htk
  have h2 := (s.setRfld regPEG_TICKET 0 8 tk).writeLog_mask tk state late hold scene mode master tb mask c ws
  have h3 := (s.setRfld regPEG_TICKET 0 8 tk).writeLog_frameLow tk state late hold scene mode master tb mask c ws
  have h4 := (s.setRfld regPEG_TICKET 0 8 tk).writeLog_resolved tk state late hold scene mode master tb mask c ws
  obtain ⟨r, e, hr⟩ := s.logged_kept tk state late hold scene mode master tb mask c ws
  rw [e] at h1 h2 h3 h4 hr
  refine ⟨r, e, ⟨h1, h2, h3, h4, fun a ha hlog => hr a fun hm => ?_⟩⟩
  rcases List.mem_cons.1 hm with h | h
  · exact ha h
  · exact not_mem_logRegs _ a hlog h

/-- The log does not reach PAIR.STATUS. -/
theorem TicketLogged.pairStatus {s : State} {tk : Nat} {mask : Word} {c : Nat} {r : List (Nat × Word)} (h : TicketLogged s tk mask c r) :
    mapGet regReset r regPAIR_STATUS = s.reg regPAIR_STATUS :=
  h.other _ (by decide) fun i hi => by simp only [regPEG_LOG, regPAIR_STATUS]; omega

/-- A commit of MODE NEXT: its ticket and log record, and its place among the pending commits. -/
theorem State.resolve_next (s : State) (e : PegEntry) (mask : Word) (tb : Nat) (ws : List Word) (hack : e.ack = none) (hf : s.forwards = false) :
    ∃ r, s.resolve e mask 0 tb ws none = { s with
        regs := r, commits := s.commits ++ [{ ticket := (s.rfld regPEG_TICKET 0 8 + 1) % 256, mask := mask, frame := s.now + 2, fixed := none }] } ∧
      TicketLogged s ((s.rfld regPEG_TICKET 0 8 + 1) % 256) mask (s.now + 2) r := by
  obtain ⟨r, e1, hr⟩ := s.logged_spec ((s.rfld regPEG_TICKET 0 8 + 1) % 256) logPending false false none 0 e.master tb mask (s.now + 2) ws (Nat.mod_lt _ (by decide))
  refine ⟨r, ?_, hr⟩
  have hv : s.verdict s.now 0 tb ws = .frame (s.now + 2) false false := rfl
  rw [State.resolve, hv]
  dsimp only [State.takeTicket]
  rw [if_neg Bool.false_ne_true, if_neg Bool.false_ne_true, State.ackScene_none _ _ _ hack, e1]
  exact State.forward_idle { s with regs := r, commits := _ } ((State.forwards_congr s { s with regs := r, commits := _ } rfl hr.pairStatus).trans hf)

theorem State.resolveForwarded_eq (s : State) (tk : Nat) (mask : Word) (c : Nat) (htk : tk < 256) :
    ∃ r, s.resolveForwarded tk mask c = { s with regs := r, commits := s.commits ++ [{ ticket := tk, mask := mask, frame := c, fixed := none }] } ∧
      TicketLogged s tk mask c r := by
  obtain ⟨r, e1, hr⟩ := s.logged_spec tk logPending false false none 1 11 0 mask c [BitVec.ofNat 32 c, BitVec.ofNat 32 (c / 2 ^ 32)] htk
  refine ⟨r, ?_, hr⟩
  rw [State.resolveForwarded]
  rw [e1]

theorem exec_pegCommit_local (s : State) (e : PegEntry) (rest : List PegEntry) (hq : s.pegQueue = e :: rest) (hop : hdrOp e.hdr = 2)
    (hgo : s.pegHalted = false) (hst : s.commitStalls (nthD e.words 0 0) = false) :
    exec .pegCommit s = .next (s.popHead.resolve e (nthD e.words 0 0) (hdrArg e.hdr % 4) (hdrArg e.hdr / 16 % 4) (e.words.drop 1) none) := by
  show execPegCommit s = _
  rw [execPegCommit, hq]
  dsimp only
  rw [hgo, hst, hop]
  rfl

theorem exec_pegCommit_forwarded (s : State) (e : PegEntry) (rest : List PegEntry) (hq : s.pegQueue = e :: rest) (hop : hdrOp e.hdr = 6)
    (hgo : s.pegHalted = false) (hst : s.commitStalls (nthD e.words 0 0) = false) :
    exec .pegCommit s = .next (s.popHead.resolveForwarded (hdrArg e.hdr % 256) (nthD e.words 0 0)
      ((nthD e.words 1 0).toNat + (nthD e.words 2 0).toNat * 2 ^ 32)) := by
  show execPegCommit s = _
  rw [execPegCommit, hq]
  dsimp only
  rw [hgo, hst, hop]
  rfl

/-- Settles O28: a COMMIT of MODE NEXT, and a resolution record of the active. -/
theorem commitResolution : Obligations.CommitResolution := by
  unfold Obligations.CommitResolution
  refine ⟨fun s e rest hq hop harg hgo hst hack hf => ?_, fun s e rest hq hop hgo hst => ?_⟩
  · intro mask tk
    have he := exec_pegCommit_local s e rest hq hop hgo hst
    obtain ⟨r, e1, hr⟩ := State.resolve_next s.popHead e mask (hdrArg e.hdr / 16 % 4) (e.words.drop 1) hack hf
    rw [harg, e1] at he
    refine ⟨_, he, ?_, hr.ticket, State.sealed_append s _ { ticket := tk, mask := mask, frame := s.now + 2, fixed := none } rfl rfl, hr.mask, hr.frame, hr.resolved, hr.other⟩
    rw [← s.popHead_queue e rest hq]
    rfl
  · intro c
    have he := exec_pegCommit_forwarded s e rest hq hop hgo hst
    obtain ⟨r, e1, hr⟩ := s.popHead.resolveForwarded_eq (hdrArg e.hdr % 256) (nthD e.words 0 0) c (Nat.mod_lt _ (by decide))
    exact ⟨_, he.trans (congrArg Host.Outcome.next e1), rfl, hr.ticket, rfl, rfl, s.popHead_queue e rest hq⟩

end Sys2Proof.Machine
end

section
/-! REVERT and MARK entries (R173, R177), and scenes from their load to their resolution or refusal (R186 to R188). -/

namespace Sys2Proof.Machine

-- One theorem after another, so that the compile of the whole text stays within its memory.
set_option Elab.async false

/-! ## Reverting -/

/-- A word without a listed copy is at its default in every copy. -/
theorem State.unlisted (s : State) (a : Nat) (h : a ∉ s.shadowKeys) : s.shadGet a = s.newest a := by
  simp only [State.shadowKeys, List.mem_append, List.mem_filter, List.mem_map, List.mem_flatMap, Bool.and_eq_true, not_or] at h
  obtain ⟨⟨hshad, htab⟩, hfix⟩ := h
  have h1 : mapFind s.shad a = none := mapFind_none_of_keys _ _ fun e he hk => hshad ⟨e, he, hk⟩
  have h2 : mapFind s.tab a = none := mapFind_none_of_keys _ _ fun e he hk => htab ⟨⟨e, he, hk⟩, by rw [h1]; rfl⟩
  have h3 : (s.commits.filterMap fun c => c.fixed.bind fun f => (mapFind f a).map fun v => (c.frame, v)) = [] := by
    rw [List.filterMap_eq_nil_iff]
    intro c hc
    cases hf : c.fixed with
    | none => rfl
    | some f =>
      have hn : mapFind f a = none := mapFind_none_of_keys _ _ fun e he hk =>
        hfix ⟨⟨c, hc, e, by rw [hf]; exact he, hk⟩, by rw [h1]; rfl, by rw [h2]; rfl⟩
      rw [Option.bind_some, hn]
      rfl
  rw [State.newest, h3]
  show mapGet tabDefault s.shad a = mapGet tabDefault s.tab a
  rw [mapGet, mapGet, h1, h2]

/-- The word at `a` belongs to a group of the mask. -/
def State.Named (s : State) (mask : Word) (a : Nat) : Prop := ∃ w, s.shadowed a = some w ∧ bit mask w.group = true

theorem State.mem_keysIn (s : State) (mask : Word) (a : Nat) : a ∈ s.keysIn mask ↔ a ∈ s.shadowKeys ∧ s.Named mask a := by
  rw [State.keysIn, List.mem_filter, State.Named]
  cases s.shadowed a with
  | none => simp
  | some w => simp

theorem foldl_mapSet_spec (g : Nat → Word) (l : List Nat) (s : State) :
    ∃ m, l.foldl (fun (t : State) a => t.shadSet a (g a)) s = { s with shad := m } ∧
      ∀ a, mapGet tabDefault m a = if a ∈ l then g a else s.shadGet a := by
  induction l generalizing s with
  | nil => exact ⟨s.shad, rfl, fun a => (if_neg List.not_mem_nil).symm⟩
  | cons x l ih =>
    obtain ⟨m, e, hm⟩ := ih (s.shadSet x (g x))
    refine ⟨m, e, fun a => (hm a).trans ?_⟩
    by_cases hl : a ∈ l
    · rw [if_pos hl, if_pos (List.mem_cons_of_mem x hl)]
    · rw [if_neg hl]
      by_cases hx : a = x
      · subst hx
        rw [if_pos List.mem_cons_self, State.shadGet_shadSet_self]
      · rw [if_neg fun h => (List.mem_cons.1 h).elim hx hl, State.shadGet_shadSet_ne _ _ hx]

theorem State.revert_spec (s : State) (mask : Word) :
    ∃ m, s.revert mask = { s with shad := m } ∧ (∀ a, s.Named mask a → mapGet tabDefault m a = s.newest a) ∧
      ∀ a, ¬ s.Named mask a → mapGet tabDefault m a = s.shadGet a := by
  obtain ⟨m, e, hm⟩ := foldl_mapSet_spec s.newest (s.keysIn mask) s
  refine ⟨m, e, fun a ha => (hm a).trans ?_, fun a ha => (hm a).trans (if_neg fun h => ha ((s.mem_keysIn mask a).1 h).2)⟩
  by_cases hk : a ∈ s.shadowKeys
  · exact if_pos ((s.mem_keysIn mask a).2 ⟨hk, ha⟩)
  · rw [if_neg fun h => hk ((s.mem_keysIn mask a).1 h).1, s.unlisted a hk]

theorem exec_pegRevert_waits (s : State) (e : PegEntry) (rest : List PegEntry) (hq : s.pegQueue = e :: rest) (h : nthD e.words 0 0 &&& s.sealed ≠ 0) :
    exec .pegRevert s = .next s := by
  show execPegRevert s = _
  rw [execPegRevert, hq]
  exact congrArg Host.Outcome.next (if_neg fun hc => h hc.2.1)

theorem exec_pegRevert (s : State) (e : PegEntry) (rest : List PegEntry) (hq : s.pegQueue = e :: rest) (hgo : s.pegHalted = false)
    (hop : hdrOp e.hdr = 4) (h : nthD e.words 0 0 &&& s.sealed = 0) :
    exec .pegRevert s = .next (s.revert (nthD e.words 0 0)).popHead := by
  show execPegRevert s = _
  rw [execPegRevert, hq]
  exact congrArg Host.Outcome.next (if_pos ⟨hop, h, by rw [hgo]; rfl⟩)

theorem exec_pegMark (s : State) (e : PegEntry) (rest : List PegEntry) (hq : s.pegQueue = e :: rest) (hgo : s.pegHalted = false) (hop : hdrOp e.hdr = 5) :
    exec .pegMark s = .next ((s.popHead.setReg regPEG_MARK (BitVec.ofNat 32 (hdrArg e.hdr))).raiseEvent 32 (BitVec.ofNat 32 (hdrArg e.hdr))) := by
  show execPegMark s = _
  rw [execPegMark, hq]
  exact congrArg Host.Outcome.next (if_pos ⟨hop, by rw [hgo]; rfl⟩)

/-! ## The load of a scene -/

/-- Which words are shadowed, and in which groups, depends on the tables and on registers outside the events and the counters of the Peg unit. -/
theorem State.shadowed_congr (s t : State) (a : Nat) (htab : t.tab = s.tab)
    (hreg : ∀ a, a / 0x10000 ≠ 4 → a ≠ regPEG_STATUS → a ≠ regPEG_DROP_CNT → t.reg a = s.reg a) : t.shadowed a = s.shadowed a := by
  have hT (x : Nat) : t.tabGet x = s.tabGet x := by rw [State.tabGet, htab]; rfl
  have hmtr : t.reg regMTR_CTRL = s.reg regMTR_CTRL := hreg _ (by decide) (by decide) (by decide)
  have hnet : t.reg regNET_CTRL = s.reg regNET_CTRL := hreg _ (by decide) (by decide) (by decide)
  have htdm (i : Nat) : t.reg (regTDM_CFG i) = s.reg (regTDM_CFG i) := by
    apply hreg <;> simp only [regTDM_CFG, regPEG_STATUS, regPEG_DROP_CNT] <;> omega
  have haes (i : Nat) : t.reg (regAES_TXCTRL i) = s.reg (regAES_TXCTRL i) := by
    apply hreg <;> simp only [regAES_TXCTRL, regPEG_STATUS, regPEG_DROP_CNT] <;> omega
  have hbind (i : Nat) : t.reg (regEQ_BIND i) = s.reg (regEQ_BIND i) := by
    apply hreg <;> simp only [regEQ_BIND, regPEG_STATUS, regPEG_DROP_CNT] <;> omega
  have hsec (x : Nat) : t.secGroup x = s.secGroup x := by
    simp only [State.secGroup, State.chainOf, State.chainsOn, State.chainFirst, State.chainCount, State.chainCfg, State.bindOf, State.bindFirst,
      State.bindCount, State.rfld, htab, hT, hbind] <;> rfl
  have hpage (i : Nat) : t.reg (regPEG_PAGEGRP i) = s.reg (regPEG_PAGEGRP i) := by
    apply hreg <;> simp only [regPEG_PAGEGRP, regPEG_STATUS, regPEG_DROP_CNT] <;> omega
  simp only [State.shadowed, State.shadowReg, State.shadowMix, State.shadowPage, State.shadowNet, State.shadowDelay, State.busGroup, State.entryBus,
    State.tapLine, State.rfld, hsec, hT, hmtr, hnet, htdm, haes, hpage]

/-- What the load of a scene leaves alone: active copies, commits, memories, Courses and the queue, the registers but for events and counters, and the shadow copy of every word that is sealed or not shadowed. -/
structure SceneKept (s t : State) : Prop where
  tab : t.tab = s.tab
  commits : t.commits = s.commits
  dram : t.dram = s.dram
  courses : t.courses = s.courses
  queue : t.pegQueue = s.pegQueue
  reg : ∀ a, a / 0x10000 ≠ 4 → a ≠ regPEG_STATUS → a ≠ regPEG_DROP_CNT → t.reg a = s.reg a
  shad : ∀ a, (∀ w, s.shadowed a = some w → s.isSealed w.group = true) → t.shadGet a = s.shadGet a

namespace SceneKept

variable {s t u : State}

theorem refl (s : State) : SceneKept s s := ⟨rfl, rfl, rfl, rfl, rfl, fun _ _ _ _ => rfl, fun _ _ => rfl⟩

theorem isSealed (h : SceneKept s t) (g : Nat) : t.isSealed g = s.isSealed g := by
  rw [State.isSealed, State.sealed, h.commits]
  rfl

theorem trans (h : SceneKept s t) (g : SceneKept t u) : SceneKept s u where
  tab := g.tab.trans h.tab
  commits := g.commits.trans h.commits
  dram := g.dram.trans h.dram
  courses := g.courses.trans h.courses
  queue := g.queue.trans h.queue
  reg a h4 hst hdrop := (g.reg a h4 hst hdrop).trans (h.reg a h4 hst hdrop)
  shad a ha := (g.shad a fun w hw => (h.isSealed w.group).trans (ha w ((State.shadowed_congr s t a h.tab h.reg).symm.trans hw))).trans (h.shad a ha)

theorem unarmed (h : SceneKept s t) (hu : Unarmed s) : Unarmed t := by
  rw [Unarmed, State.rbit, h.reg _ (by decide) (by decide) (by decide)]
  exact hu

theorem raiseEvent (s : State) (e : Nat) (pl : Word) (he : e < 128) : SceneKept s (s.raiseEvent e pl) := by
  have hr (a : Nat) (h4 : a / 0x10000 ≠ 4) : (s.raiseEvent e pl).reg a = s.reg a := s.raiseEvent_reg_block e pl a he h4
  have hf := s.raiseEvent_frame e pl
  generalize s.raiseEvent e pl = t at hr hf
  rw [hf] at hr ⊢
  exact ⟨rfl, rfl, rfl, rfl, rfl, fun a h4 _ _ => hr a h4, fun _ _ => rfl⟩

theorem setReg (s : State) (a : Nat) (v : Word) (ha : a = regPEG_STATUS ∨ a = regPEG_DROP_CNT) : SceneKept s (s.setReg a v) :=
  ⟨rfl, rfl, rfl, rfl, rfl, fun _ _ hst hdrop => State.reg_setReg_ne s v fun hb => ha.elim (fun h => hst (hb.trans h)) fun h => hdrop (hb.trans h),
    fun _ _ => rfl⟩

theorem stage (s : State) (a : Nat) (w : Shadowed) (v : Word) (hw : s.shadowed a = some w) (hopen : ¬ s.isSealed w.group = true) :
    SceneKept s (s.stage a w.mask v) := by
  have h1 : SceneKept s (s.shadSet a (shadowTrim a (v &&& w.mask))) :=
    ⟨rfl, rfl, rfl, rfl, rfl, fun _ _ _ _ => rfl, fun b hb => State.shadGet_shadSet_ne _ _ fun e => hopen (hb w (e ▸ hw))⟩
  rw [State.stage]
  split
  · exact h1.trans (raiseEvent _ 5 _ (by decide))
  · exact h1

theorem skipWord (s : State) (e : PegEntry) : SceneKept s (s.skipWord e).1 := by
  have h1 : SceneKept s (s.setRbit regPEG_STATUS 27) := setReg s _ _ (.inl rfl)
  rw [State.skipWord]
  split
  · exact h1
  · exact h1.trans (setReg _ regPEG_DROP_CNT _ (.inr rfl))

end SceneKept

theorem State.sceneLoad_spec (off len fuel : Nat) (s : State) (e : PegEntry) :
    SceneKept s (s.sceneLoad e off len fuel).1 ∧ (s.sceneLoad e off len fuel).2.hdr = e.hdr ∧ (s.sceneLoad e off len fuel).2.dir = e.dir := by
  induction fuel generalizing s e with
  | zero => exact ⟨.refl s, rfl, rfl⟩
  | succ n ih =>
    rw [State.sceneLoad]
    dsimp only
    split
    · exact ⟨.refl s, rfl, rfl⟩
    · split
      · split
        · next w hw =>
          split
          · exact ⟨.refl s, rfl, rfl⟩
          · next hopen =>
            obtain ⟨hk, hh, hd⟩ := ih (s.stage e.recA w.mask (s.sceneWord (off + e.pos))) _
            exact ⟨(SceneKept.stage s e.recA w _ hw hopen).trans hk, hh, hd⟩
        · obtain ⟨hk, hh, hd⟩ := ih (s.skipWord e).1 _
          exact ⟨(SceneKept.skipWord s e).trans hk, hh, hd⟩
      · split
        · exact ⟨.refl s, rfl, rfl⟩
        · exact ih s _

/-- The directory entry that a SCENE entry uses: read once, at its start (R188). -/
def State.sceneDirOf (s : State) (e : PegEntry) : List Word := if e.loading then e.dir else s.sceneEntry (sceneNo e.hdr)

theorem exec_pegScene (s : State) (e : PegEntry) (rest : List PegEntry) (hq : s.pegQueue = e :: rest) (hop : hdrOp e.hdr = 3)
    (hld : e.loaded = false) (hgo : s.pegHalted = false) (hu : Unarmed s) :
    exec .pegScene s = .next (if !s.sceneDirOk (s.sceneDirOf e) then s.setHead { e with loaded := true, failed := true, dir := s.sceneDirOf e }
      else
        let off := fld (nthD (s.sceneDirOf e) 0 0) 0 31
        let len := (nthD (s.sceneDirOf e) 1 0).toNat
        let r := s.sceneLoad { e with loading := true, dir := s.sceneDirOf e } off len (2 * len + 2)
        r.1.setHead r.2) := by
  have ht (t : State) (w n : Nat) (h : Unarmed t) : t.sceneTouch w n = t := t.dramTouch_unarmed _ _ h
  show execPegScene s = _
  rw [execPegScene, hq]
  refine congrArg Host.Outcome.next ((if_pos ⟨hop, by rw [hld]; rfl, by rw [hgo]; rfl⟩).trans ?_)
  dsimp only
  rw [ht s _ _ hu, ite_self]
  exact if_congr Iff.rfl rfl (congrArg (State.setHead · _) (ht _ _ _ ((State.sceneLoad_spec _ _ _ s _).1.unarmed hu)))

theorem State.setHead_eq (s : State) (e d : PegEntry) (rest : List PegEntry) (hq : s.pegQueue = e :: rest) : s.setHead d = { s with pegQueue := d :: rest } := by
  rw [State.setHead, hq]
  rfl

/-- A load that has its records behind it is complete (R188). -/
theorem State.sceneLoad_done (s : State) (e : PegEntry) (off len fuel : Nat) (hrec : e.recLeft = 0) (hlen : len ≤ e.pos) :
    s.sceneLoad e off len (fuel + 1) = (s, { e with loaded := true }) := by
  rw [State.sceneLoad, if_pos hlen, hrec, show decide ((0 : Nat) ≠ 0) = false from rfl, Bool.or_false]

/-! ## Refusal and resolution of a loaded scene -/

/-- LOAD_ONLY, or an entry that the pair engine forwarded: no ticket of its own. -/
theorem PegEntry.sceneQuiet_iff (e : PegEntry) : e.sceneQuiet = true ↔ hdrArg e.hdr / 16384 % 2 = 1 ∨ e.master = 11 := by
  rw [PegEntry.sceneQuiet, Bool.or_eq_true, decide_eq_true_eq, decide_eq_true_eq]

theorem PegEntry.sceneBad_iff (e : PegEntry) : e.sceneBad = true ↔ ¬ (e.failed = false ∧ ~~~e.crc = nthD e.dir 3 0) := by
  rw [PegEntry.sceneBad, Bool.or_eq_true, decide_eq_true_eq, Classical.not_and_iff_not_or_not, Bool.not_eq_false]

theorem exec_sceneResolve (s : State) (e : PegEntry) (rest : List PegEntry) (hq : s.pegQueue = e :: rest) (hop : hdrOp e.hdr = 3) (hld : e.loaded = true) :
    exec .sceneResolve s = .next (if e.sceneQuiet then (if e.sceneBad then s.popHead.sceneRefuse e e.sceneMask else s.popHead)
      else if s.sceneStalls e then s
      else if e.sceneBad then s.popHead.sceneRefuse e e.sceneMask
      else s.popHead.resolve e e.sceneMask (hdrArg e.hdr / 1024 % 4) (hdrArg e.hdr / 4096 % 4) e.words (some (sceneNo e.hdr))) := by
  show execSceneResolve s = _
  rw [execSceneResolve, hq]
  exact congrArg Host.Outcome.next (if_pos ⟨hop, hld⟩)

/-- Word 0 of a log record that is no more than its fields: STATE is [30:29]. -/
theorem fld_logWord0 (state scene mode master tb ticket : Nat) (h1 : state < 4) (h2 : scene < 1024) (h3 : mode < 4) (h4 : master < 16) (h5 : tb < 4)
    (h6 : ticket < 256) :
    fld (BitVec.ofNat 32 (2 ^ 31 + state * 2 ^ 29 + b2n false * 2 ^ 28 + b2n false * 2 ^ 27 + b2n true * 2 ^ 26 + mode * 2 ^ 24 + master * 2 ^ 20
      + tb * 2 ^ 18 + scene * 256 + ticket)) 29 2 = state := by
  rw [fld, BitVec.toNat_ofNat, show b2n false = 0 from rfl, show b2n true = 1 from rfl]
  omega

theorem State.writeLog_state (s : State) (ticket state n mode master tb : Nat) (mask : Word) (c : Nat) (ws : List Word) (h1 : state < 4) (h2 : n < 1024)
    (h3 : mode < 4) (h4 : master < 16) (h5 : tb < 4) (h6 : ticket < 256) :
    (s.writeLog ticket state false false (some n) mode master tb mask c ws).rfld (regPEG_LOG (ticket % 64) 0) 29 2 = state := by
  have htb : (if mode = 2 then tb else 0) < 4 := by split <;> omega
  rw [State.writeLog, State.rfld]
  dsimp only
  iterate 7 rw [State.reg_setLog_ne _ _ _ _ _ (by decide)]
  rw [State.reg_setReg_self]
  exact fld_logWord0 _ _ _ _ _ _ h1 h2 h3 h4 htb h6

theorem State.sceneRefuse_quiet (s : State) (e : PegEntry) (mask : Word) (h : e.sceneQuiet = true) :
    s.sceneRefuse e mask = ((s.revert (mask &&& ~~~s.sealed)).setRbit regPEG_STATUS 23).raiseEvent 39 (BitVec.ofNat 32 (sceneNo e.hdr)) := if_pos h

theorem State.sceneRefuse_loud_eq (s s1 : State) (e : PegEntry) (mask : Word) (tk : Nat) (h : e.sceneQuiet = false) (hack : e.ack = none)
    (h1 : (s.revert (mask &&& ~~~s.sealed)).setRbit regPEG_STATUS 23 = s1) (htk : (s1.rfld regPEG_TICKET 0 8 + 1) % 256 = tk) :
    s.sceneRefuse e mask = (((s1.setRfld regPEG_TICKET 0 8 tk).writeLog tk 3 false false (some (sceneNo e.hdr)) (hdrArg e.hdr / 1024 % 4) e.master
      (hdrArg e.hdr / 4096 % 4) mask 0 e.words).raiseEvent 37 (BitVec.ofNat 32 tk)).raiseEvent 39 (BitVec.ofNat 32 (sceneNo e.hdr)) := by
  rw [State.sceneRefuse, h1, h, if_neg Bool.false_ne_true]
  dsimp only [State.takeTicket]
  rw [htk, State.ackScene_none _ _ _ hack]

/-- The refused scene takes the next ticket, with its log record. -/
theorem State.sceneRefuse_loud (s : State) (e : PegEntry) (mask : Word) (h : e.sceneQuiet = false) (hack : e.ack = none) :
    ∃ m r, s.sceneRefuse e mask = (State.raiseEvent { s with shad := m, regs := r } 37 (BitVec.ofNat 32 ((s.rfld regPEG_TICKET 0 8 + 1) % 256))).raiseEvent 39
        (BitVec.ofNat 32 (sceneNo e.hdr)) ∧
      fld (mapGet regReset r regPEG_TICKET) 0 8 = (s.rfld regPEG_TICKET 0 8 + 1) % 256 ∧ bit (mapGet regReset r regPEG_STATUS) 23 = true ∧
      (e.master < 16 → fld (mapGet regReset r (regPEG_LOG ((s.rfld regPEG_TICKET 0 8 + 1) % 256 % 64) 0)) 29 2 = 3) := by
  obtain ⟨m, em, -, -⟩ := s.revert_spec (mask &&& ~~~s.sealed)
  generalize htk : (s.rfld regPEG_TICKET 0 8 + 1) % 256 = tk
  have hlt : tk < 256 := htk ▸ Nat.mod_lt _ (by decide)
  obtain ⟨s1, hs1⟩ : ∃ s1, State.setRbit { s with shad := m } regPEG_STATUS 23 = s1 := ⟨_, rfl⟩
  have htk1 : (s1.rfld regPEG_TICKET 0 8 + 1) % 256 = tk := by
    rw [← hs1, State.rfld_setRbit _ _ _ _ _ _ (.inl (by decide))]
    exact htk
  have hst : s1.rbit regPEG_STATUS 23 = true := by
    rw [← hs1, State.rbit_setRbit _ _ _ _ _ (by decide)]
    exact Bool.or_true _
  obtain ⟨r, er, hr⟩ := s1.logged_spec tk 3 false false (some (sceneNo e.hdr)) (hdrArg e.hdr / 1024 % 4) e.master (hdrArg e.hdr / 4096 % 4) mask 0 e.words hlt
  have hfld (hm : e.master < 16) := (s1.setRfld regPEG_TICKET 0 8 tk).writeLog_state tk 3 (sceneNo e.hdr) (hdrArg e.hdr / 1024 % 4) e.master (hdrArg e.hdr / 4096 % 4)
    mask 0 e.words (by decide) (Nat.mod_lt _ (by decide)) (Nat.mod_lt _ (by decide)) hm (Nat.mod_lt _ (by decide)) hlt
  rw [er] at hfld
  have hother := hr.other regPEG_STATUS (by decide) fun i hi => by simp only [regPEG_LOG, regPEG_STATUS]; omega
  refine ⟨m, r, ?_, hr.ticket, ?_, hfld⟩
  · rw [s.sceneRefuse_loud_eq s1 e mask tk h hack (by rw [em, hs1]) htk1, er, ← hs1]
    rfl
  · rw [hother]
    exact hst

theorem State.sceneRefuse_quiet_eq (s : State) (e : PegEntry) (mask : Word) (h : e.sceneQuiet = true) :
    ∃ m r, s.sceneRefuse e mask = State.raiseEvent { s with shad := m, regs := r } 39 (BitVec.ofNat 32 (sceneNo e.hdr)) ∧
      bit (mapGet regReset r regPEG_STATUS) 23 = true := by
  obtain ⟨m, em, -, -⟩ := s.revert_spec (mask &&& ~~~s.sealed)
  have hst : (State.setRbit { s with shad := m } regPEG_STATUS 23).rbit regPEG_STATUS 23 = true := by
    rw [State.rbit_setRbit _ _ _ _ _ (by decide)]
    exact Bool.or_true _
  refine ⟨m, (State.setRbit { s with shad := m } regPEG_STATUS 23).regs, ?_, hst⟩
  rw [s.sceneRefuse_quiet e mask h, em]
  rfl

theorem State.raiseEvent_commits (s : State) (e : Nat) (pl : Word) : (s.raiseEvent e pl).commits = s.commits := by rw [State.raiseEvent_frame]

theorem State.raiseEvent_pegQueue (s : State) (e : Nat) (pl : Word) : (s.raiseEvent e pl).pegQueue = s.pegQueue := by rw [State.raiseEvent_frame]

theorem State.raiseEvent_pend_self (s : State) (e : Nat) (pl : Word) (h : e < 128) : (s.raiseEvent e pl).rbit (regEVT_PEND (e / 32)) (e % 32) = true := by
  rw [State.raiseEvent_pend s e e pl h h, decide_eq_true rfl, Bool.or_true]

/-- What both kinds of a refused scene have in common, and what one that takes a ticket has beyond it (R188). -/
theorem State.sceneRefuse_spec (s : State) (e : PegEntry) (mask : Word) (hack : e.ack = none) :
    let t := s.sceneRefuse e mask
    let n := BitVec.ofNat 32 (sceneNo e.hdr)
    let tk := (s.rfld regPEG_TICKET 0 8 + 1) % 256
    t.tab = s.tab ∧ t.commits = s.commits ∧ t.pegQueue = s.pegQueue ∧ t.rbit regPEG_STATUS 23 = true ∧ t.reg (regEVT_PAYLOAD 39) = n ∧
      t.rbit (regEVT_PEND 1) 7 = true ∧
      (e.sceneQuiet = false → t.rfld regPEG_TICKET 0 8 = tk ∧ t.reg (regEVT_PAYLOAD 37) = BitVec.ofNat 32 tk ∧ t.rbit (regEVT_PEND 1) 5 = true ∧
        (e.master < 16 → t.rfld (regPEG_LOG (tk % 64) 0) 29 2 = 3)) := by
  intro t n tk
  cases hq : e.sceneQuiet with
  | true =>
    obtain ⟨m, r, et, hst⟩ := s.sceneRefuse_quiet_eq e mask hq
    have ht : t = State.raiseEvent { s with shad := m, regs := r } 39 n := et
    rw [ht]
    refine ⟨State.raiseEvent_tab _ _ _, State.raiseEvent_commits _ _ _, State.raiseEvent_pegQueue _ _ _, ?_, State.raiseEvent_payload _ _ _ (by decide),
      State.raiseEvent_pend_self _ 39 _ (by decide), fun h => absurd h (by decide)⟩
    rw [State.rbit, State.raiseEvent_reg_block _ _ _ _ (by decide) (by decide)]
    exact hst
  | false =>
    obtain ⟨m, r, et, htk, hst, hlog⟩ := s.sceneRefuse_loud e mask hq hack
    have ht : t = (State.raiseEvent { s with shad := m, regs := r } 37 (BitVec.ofNat 32 tk)).raiseEvent 39 n := et
    have hreg (a : Nat) (ha : a / 0x10000 ≠ 4) : t.reg a = mapGet regReset r a := by
      rw [ht, State.raiseEvent_reg_block _ _ _ _ (by decide) ha, State.raiseEvent_reg_block _ _ _ _ (by decide) ha]
      rfl
    refine ⟨?_, ?_, ?_, ?_, ?_, ?_, fun _ => ⟨?_, ?_, ?_, fun hm => ?_⟩⟩
    · rw [ht, State.raiseEvent_tab, State.raiseEvent_tab]
    · rw [ht, State.raiseEvent_commits, State.raiseEvent_commits]
    · rw [ht, State.raiseEvent_pegQueue, State.raiseEvent_pegQueue]
    · rw [State.rbit, hreg _ (by decide)]
      exact hst
    · rw [ht]
      exact State.raiseEvent_payload _ _ _ (by decide)
    · rw [ht]
      exact State.raiseEvent_pend_self _ 39 _ (by decide)
    · rw [State.rfld, hreg _ (by decide)]
      exact htk
    · rw [ht, State.raiseEvent_reg _ _ _ _ (by decide) (by decide) (by decide) (by decide)]
      exact State.raiseEvent_payload _ _ _ (by decide)
    · rw [ht]
      refine (State.raiseEvent_pend _ 39 37 _ (by decide) (by decide)).trans ?_
      rw [State.raiseEvent_pend_self _ 37 _ (by decide)]
      rfl
    · rw [State.rfld, hreg _ (by simp only [regPEG_LOG]; omega)]
      exact hlog hm

/-- Settles O29: REVERT, MARK, and the load, the refusal and the resolution of a scene. -/
theorem revertMarkAndScenes : Obligations.RevertMarkAndScenes := by
  unfold Obligations.RevertMarkAndScenes
  refine ⟨fun s e rest hq hgo => ⟨fun _ h => exec_pegRevert_waits s e rest hq h, fun hop h => ?_, fun hop => ?_⟩, fun s e rest hq hop hld hgo hu => ?_,
    fun s e rest hq hop hld => ?_⟩
  · intro named
    obtain ⟨m, em, hin, hout⟩ := s.revert_spec (nthD e.words 0 0)
    have he := exec_pegRevert s e rest hq hgo hop h
    rw [em] at he
    refine ⟨_, he, ?_, hin, hout⟩
    rw [← s.popHead_queue e rest hq]
    rfl
  · refine ⟨_, exec_pegMark s e rest hq hgo hop, ?_, State.reg_setReg_self _ _ _, fun a ha => State.reg_setReg_ne _ _ ha⟩
    rw [← s.popHead_queue e rest hq]
    rfl
  · intro d
    have he := exec_pegScene s e rest hq hop hld hgo hu
    have hd : s.sceneDirOf e = d := rfl
    rw [hd] at he
    refine ⟨fun hdir => ?_, fun hdir hrec hlen => ?_, ?_⟩
    · rw [he, hdir]
      exact congrArg Host.Outcome.next (s.setHead_eq e _ rest hq)
    · rw [he, hdir]
      dsimp only
      rw [State.sceneLoad_done s { e with loading := true, dir := d } _ _ (2 * (nthD d 1 0).toNat + 1) hrec hlen]
      exact congrArg Host.Outcome.next (s.setHead_eq e _ rest hq)
    · cases hdir : s.sceneDirOk d with
      | false =>
        rw [hdir] at he
        exact ⟨_, he, rfl, rfl, rfl, rfl, fun _ _ => rfl, { e with loaded := true, failed := true, dir := d }, congrArg State.pegQueue (s.setHead_eq e _ rest hq), rfl, rfl⟩
      | true =>
        rw [hdir] at he
        obtain ⟨hk, hh, hdd⟩ := s.sceneLoad_spec (fld (nthD d 0 0) 0 31) (nthD d 1 0).toNat (2 * (nthD d 1 0).toNat + 2) { e with loading := true, dir := d }
        exact ⟨_, he, hk.tab, hk.commits, hk.dram, hk.courses, hk.shad, _, congrArg State.pegQueue (State.setHead_eq _ e _ rest (hk.queue.trans hq)), hh, hdd⟩
  · intro n mask quiet good tk
    have he := exec_sceneResolve s e rest hq hop hld
    have hquiet : e.sceneQuiet = true ↔ quiet := e.sceneQuiet_iff
    have hbad : e.sceneBad = true ↔ ¬ good := e.sceneBad_iff
    refine ⟨fun h1 h2 => ?_, fun h1 h2 h3 => ?_, fun h1 h2 h3 => ?_, fun h1 h2 hack => ?_⟩
    · rw [he, if_pos (hquiet.2 h1), if_neg fun h => hbad.1 h h2]
    · have hst : ¬ s.sceneStalls e = true := by
        rw [State.sceneStalls, if_neg fun h => hbad.1 h h2]
        exact Bool.eq_false_iff.1 h3
      rw [he, if_neg fun h => h1 (hquiet.1 h), if_neg hst, if_neg fun h => hbad.1 h h2]
      rfl
    · have hst : s.sceneStalls e = true := by
        rw [State.sceneStalls]
        split
        · next h => exact decide_eq_true (h3 (hbad.1 h))
        · next h => exact h2 (Classical.not_not.1 fun hg => h (hbad.2 hg))
      rw [he, if_neg fun h => h1 (hquiet.1 h), if_pos hst]
    · have href : exec .sceneResolve s = .next (s.popHead.sceneRefuse e mask) := by
        by_cases hqt : e.sceneQuiet = true
        · rw [he, if_pos hqt, if_pos (hbad.2 h1)]
          rfl
        · have hst : ¬ s.sceneStalls e = true := by
            rw [State.sceneStalls, if_pos (hbad.2 h1)]
            exact fun h => of_decide_eq_true h (h2.resolve_left fun hx => hqt (hquiet.2 hx))
          rw [he, if_neg hqt, if_neg hst, if_pos (hbad.2 h1)]
          rfl
      obtain ⟨htab, hcom, hpq, hst, hpay, hpend, hloud⟩ := s.popHead.sceneRefuse_spec e mask hack
      exact ⟨_, href, htab, hcom, hpq.trans (s.popHead_queue e rest hq), hst, hpay, hpend,
        fun hn => hloud (Bool.eq_false_iff.2 fun h => hn (hquiet.1 h))⟩

end Sys2Proof.Machine
end

section
/-! The ticks at which commits are fixed and applied (R170, R178, R179). -/

namespace Sys2Proof.Machine

/- The many short proofs below are elaborated one after another: as tasks of their own they need more threads than the memory limit admits. -/
set_option Elab.async false

/-! ## What the start of changes leaves alone -/

/-- The copies of the shadowed words and the pending commits stay as they are, and so does the report of the applied commit in EV35. -/
structure CopiesKept (s t : State) : Prop where
  tab : t.tab = s.tab
  shad : t.shad = s.shad
  commits : t.commits = s.commits
  payload : t.reg (regEVT_PAYLOAD 35) = s.reg (regEVT_PAYLOAD 35)
  pend : s.rbit (regEVT_PEND 1) 3 = true → t.rbit (regEVT_PEND 1) 3 = true

namespace CopiesKept

variable {s t u : State}

theorem refl (s : State) : CopiesKept s s := ⟨rfl, rfl, rfl, rfl, id⟩

/-- Only the copies, the commits and the registers matter. -/
theorem of_fields (h : CopiesKept s t) (e : (u.tab, u.shad, u.commits, u.regs) = (t.tab, t.shad, t.commits, t.regs) := by with_reducible rfl) : CopiesKept s u := by
  simp only [Prod.mk.injEq] at e
  obtain ⟨etab, eshad, ecom, ereg⟩ := e
  have hr (a : Nat) : u.reg a = t.reg a := by rw [State.reg, ereg]; rfl
  exact ⟨etab.trans h.tab, eshad.trans h.shad, ecom.trans h.commits, (hr _).trans h.payload, fun hs => by rw [State.rbit, hr]; exact h.pend hs⟩

theorem ite {c : Prop} [Decidable c] {a b : State} (ha : CopiesKept s a) (hb : CopiesKept s b) : CopiesKept s (if c then a else b) := by
  split
  · exact ha
  · exact hb

theorem foldl {α : Type} {f : State → α → State} {l : List α} (hf : ∀ t a, CopiesKept s t → CopiesKept s (f t a)) (h : CopiesKept s t) :
    CopiesKept s (l.foldl f t) := by
  induction l generalizing t with
  | nil => exact h
  | cons a l ih => exact ih (hf t a h)

/-- A register outside the block EVT. -/
theorem setReg {a : Nat} {v : Word} (ha : a / 0x10000 ≠ 4) (h : CopiesKept s t) : CopiesKept s (t.setReg a v) := by
  have hr (b : Nat) (hb : b / 0x10000 = 4) : (t.setReg a v).reg b = t.reg b := State.reg_setReg_ne _ _ fun e => ha (e ▸ hb)
  exact ⟨h.tab, h.shad, h.commits, (hr _ (by decide)).trans h.payload, fun hs => by rw [State.rbit, hr _ (by decide)]; exact h.pend hs⟩

theorem setRbit {a i : Nat} (ha : a / 0x10000 ≠ 4) (h : CopiesKept s t) : CopiesKept s (t.setRbit a i) := setReg ha h

theorem count {a n : Nat} (ha : a / 0x10000 ≠ 4) (h : CopiesKept s t) : CopiesKept s (t.count a n) := setReg ha h

/-- An event other than EV35. -/
theorem raiseEvent {e : Nat} {pl : Word} (he : e < 128) (h35 : e ≠ 35) (h : CopiesKept s t) : CopiesKept s (t.raiseEvent e pl) where
  tab := (t.raiseEvent_tab e pl).trans h.tab
  shad := by rw [State.raiseEvent_frame]; exact h.shad
  commits := (t.raiseEvent_commits e pl).trans h.commits
  payload := by
    rw [State.raiseEvent_reg _ _ _ _ (by simp only [regEVT_PAYLOAD, regEVT_PEND]; omega) (by simp only [regEVT_PAYLOAD]; omega) (by decide) (by decide)]
    exact h.payload
  pend hs := by
    rw [show (t.raiseEvent e pl).rbit (regEVT_PEND 1) 3 = _ from State.raiseEvent_pend t e 35 pl he (by decide), show t.rbit (regEVT_PEND (35 / 32)) (35 % 32) = true from h.pend hs]
    rfl

theorem configError {a : Nat} (h : CopiesKept s t) : CopiesKept s (t.configError a) := raiseEvent (by decide) (by decide) h

/-! ### Delay taps -/

theorem setLine {n l : Nat} {v : Line} (h : CopiesKept s t) : CopiesKept s (t.setLine n l v) := h.of_fields rfl

theorem tapBegin {n j c d f : Nat} (h : CopiesKept s t) : CopiesKept s (t.tapBegin n j c d f) := h.of_fields rfl

theorem tapDefer {n j c d : Nat} (h : CopiesKept s t) : CopiesKept s (t.tapDefer n j c d) := by
  have h1 : CopiesKept s (t.setTap n j { t.tap n j with waiting := some (c, d) }) := h.of_fields rfl
  exact raiseEvent (by decide) (by decide) (count (by decide) h1)

theorem tapChange {n j c d f : Nat} (h : CopiesKept s t) : CopiesKept s (t.tapChange n j c d f) := ite (tapBegin h) (tapDefer h)

theorem tapTurns {fixed : List (Nat × Word)} {replaced : List Nat} {c : Nat} (h : CopiesKept s t) : CopiesKept s (t.tapTurns fixed replaced c) := by
  unfold State.tapTurns
  refine foldl ?_ h
  intro _ _ h
  dsimp only
  split
  · exact ite (tapBegin h) h
  · exact h

theorem delayFix {fixed : List (Nat × Word)} {c : Nat} (h : CopiesKept s t) : CopiesKept s (t.delayFix fixed c) :=
  foldl (fun _ _ h => foldl (fun _ _ h => tapChange (setLine h)) h) (tapTurns h)

theorem delayError {kind n i : Nat} (h : CopiesKept s t) : CopiesKept s (t.delayError kind n i) := by
  have h1 : CopiesKept s (t.setRbit regDLY_STATUS 30) := setRbit (by decide) h
  exact raiseEvent (by decide) (by decide) (ite h1 (setReg (by decide) h1))

theorem checkLine {n l : Nat} (h : CopiesKept s t) : CopiesKept s (t.checkLine n l) := ite (ite (delayError h) (ite (delayError h) h)) h

theorem checkTap {n j : Nat} (h : CopiesKept s t) : CopiesKept s (t.checkTap n j) := ite (ite (delayError h) (ite (delayError h) h)) h

theorem checkDelayWord {a : Nat} (h : CopiesKept s t) : CopiesKept s (t.checkDelayWord a) := by
  unfold State.checkDelayWord
  split
  · exact h
  · exact ite (checkTap h) (foldl (fun _ _ h => checkTap h) (checkLine h))

/-! ### Matrix, selectors, sections and meters -/

theorem setXent {k : Nat} {e : XEntry} (h : CopiesKept s t) : CopiesKept s (t.setXent k e) := h.of_fields rfl

theorem setSelector {a : Nat} {v : Selector} (h : CopiesKept s t) : CopiesKept s (t.setSelector a v) := h.of_fields rfl

theorem setSec {k : Nat} {v : Section} (h : CopiesKept s t) : CopiesKept s (t.setSec k v) := h.of_fields rfl

theorem mixDefer {p : Nat} (h : CopiesKept s t) : CopiesKept s (t.mixDefer p) := raiseEvent (by decide) (by decide) (count (by decide) h)

theorem routeBegin {k c : Nat} (h : CopiesKept s t) : CopiesKept s (t.routeBegin k c) := setXent h

theorem routeChange {k c : Nat} (h : CopiesKept s t) : CopiesKept s (t.routeChange k c) := ite (routeBegin h) (mixDefer (setXent h))

theorem entryChange {k c : Nat} {old : Word} (h : CopiesKept s t) : CopiesKept s (t.entryChange k c old) :=
  ite (ite (routeChange h) (ite (setXent h) (routeChange h))) (ite (setXent h) (setXent h))

theorem selBegin {a c g : Nat} (h : CopiesKept s t) : CopiesKept s (t.selBegin a c g) := setSelector h

theorem selChange {a c g old : Nat} (h : CopiesKept s t) : CopiesKept s (t.selChange a c g old) :=
  ite (selBegin (setSelector h)) (mixDefer (setSelector (setSelector h)))

theorem selChanges {w : Change} {c : Nat} (h : CopiesKept s t) : CopiesKept s (t.selChanges w c) := foldl (fun _ _ h => ite h (selChange h)) h

theorem secBegin {k c : Nat} (h : CopiesKept s t) : CopiesKept s (t.secBegin k c) := setSec h

theorem secChange {k c : Nat} (h : CopiesKept s t) : CopiesKept s (t.secChange k c) :=
  ite (secBegin h) (raiseEvent (by decide) (by decide) (count (by decide) (setSec h)))

theorem meterChange {w : Change} (h : CopiesKept s t) : CopiesKept s (t.meterChange w) := by
  unfold State.meterChange
  split
  · exact h
  · exact ite (ite (h.of_fields rfl) h) (ite (raiseEvent (by decide) (by decide) (setRbit (by decide) h)) h)

theorem xfadeChange {w : Change} (h : CopiesKept s t) : CopiesKept s (t.xfadeChange w) := ite (configError h) h

theorem waitingTurns {ws : List Change} {c : Nat} (h : CopiesKept s t) : CopiesKept s (t.waitingTurns ws c) := by
  unfold State.waitingTurns
  extract_lets due halves s1 s2
  have h1 : CopiesKept s s1 := foldl (fun _ _ h => ite (selBegin h) h) h
  have h2 : CopiesKept s s2 := foldl (fun _ _ h => ite (routeBegin h) h) h1
  exact foldl (fun _ _ h => ite (secBegin h) h) h2

/-! ### Rate-conversion channels and flows -/

theorem asrcUnlocked {c : Nat} {acq : Bool} {rate : Nat} (h : CopiesKept s t) : CopiesKept s (t.asrcUnlocked c acq rate) := by
  have forget (v : State) (h : CopiesKept s v) : CopiesKept s { v with
      asrcRatio := mapDel v.asrcRatio c, conv := { hist := mapDel v.conv.hist c, turn := mapDel v.conv.turn c },
      asrcLost := if v.asrcLost.contains c then v.asrcLost else v.asrcLost ++ [c] } := h.of_fields
  unfold State.asrcUnlocked
  exact raiseEvent (by decide) (by decide) (forget _ (setRbit (by decide) (count (by decide) (setReg (by simp only [regASRC_CHSTAT]; omega) h))))

theorem asrcFollow {c : Nat} (h : CopiesKept s t) : CopiesKept s (t.asrcFollow c) :=
  ite (asrcUnlocked h) (setReg (by simp only [regASRC_CHSTAT]; omega) h.of_fields)

theorem asrcEndpoints {p : Nat → Nat → Bool} (h : CopiesKept s t) : CopiesKept s (t.asrcEndpoints p) := foldl (fun _ _ h => asrcFollow h) h

theorem asrcMisfit {c : Nat} (h : CopiesKept s t) : CopiesKept s (t.asrcMisfit c) := configError (setRbit (by decide) h)

theorem asrcRival {c d : Nat} (h : CopiesKept s t) : CopiesKept s (t.asrcRival c d) := ite h (asrcFollow (ite (asrcMisfit h) h))

theorem asrcChanged {c : Nat} (h : CopiesKept s t) : CopiesKept s (t.asrcChanged c) := by
  unfold State.asrcChanged
  extract_lets _ s1 s2
  have h1 : CopiesKept s s1 := ite (asrcMisfit h) h
  have h2 : CopiesKept s s2 := ite (asrcFollow h1) (ite (asrcUnlocked h1) (setReg (by simp only [regASRC_CHSTAT]; omega) h1))
  exact foldl (fun _ _ h => asrcRival h) h2

theorem setRxFlow {f : Nat} {v : RxFlow} (h : CopiesKept s t) : CopiesKept s (t.setRxFlow f v) := h.of_fields rfl

theorem setTxFlow {f : Nat} {v : TxFlow} (h : CopiesKept s t) : CopiesKept s (t.setTxFlow f v) := h.of_fields rfl

theorem flowStart {d f : Nat} (h : CopiesKept s t) : CopiesKept s (t.flowStart d f) := ite (setRxFlow h) (setTxFlow h)

theorem flowLeave {d f : Nat} {off : Bool} (h : CopiesKept s t) : CopiesKept s (t.flowLeave d f off) := by
  unfold State.flowLeave
  refine ite ?_ ?_
  · split
    · exact setRxFlow h
    · exact h
  · split
    · exact setTxFlow h
    · exact h

theorem flowFollow {d f : Nat} (h : CopiesKept s t) : CopiesKept s (t.flowFollow d f) :=
  ite (ite (flowStart h) h) (ite (flowLeave h) (ite (flowStart h) (ite (flowLeave h) h)))

theorem flowCheck {d : Nat} (h : CopiesKept s t) : CopiesKept s (t.flowCheck d) := by
  unfold State.flowCheck
  extract_lets held s1 s2
  have h1 : CopiesKept s s1 := h.of_fields
  have h2 : CopiesKept s s2 := foldl (fun _ _ h => configError (setRbit (by decide) h)) h1
  exact asrcEndpoints (foldl (fun _ _ h => flowFollow h) h2)

theorem startChanges {ws : List Change} {c : Nat} (h : CopiesKept s t) : CopiesKept s (t.startChanges ws c) := by
  unfold State.startChanges
  extract_lets _ s1 s2 s3 s4 s5
  have h1 : CopiesKept s s1 := foldl (fun _ _ h => selChanges h) (waitingTurns h)
  have h2 : CopiesKept s s2 := foldl (fun _ _ h => entryChange h) h1
  have h3 : CopiesKept s s3 := foldl (fun _ _ h => secChange h) h2
  have h4 : CopiesKept s s4 := foldl (fun _ _ h => checkDelayWord (xfadeChange (meterChange h))) h3
  have h5 : CopiesKept s s5 := foldl (fun _ _ h => asrcChanged h) h4
  exact flowCheck (flowCheck h5)

theorem keepOld {ws : List Change} (h : CopiesKept s t) : CopiesKept s (t.keepOld ws) := by
  unfold State.keepOld
  extract_lets s1
  have h1 : CopiesKept s s1 := foldl (fun _ _ h => setSec h) h
  exact foldl (fun _ _ h => setXent h) h1

theorem keepPages {ws : List Change} {c : Nat} (h : CopiesKept s t) : CopiesKept s (t.keepPages ws c) :=
  foldl (fun _ _ h => ite (h.of_fields rfl) h) h

end CopiesKept

/-! ## The words that a commit changes -/

theorem State.changedWords_spec (s : State) (mask : Word) (a : Nat) :
    mapFind (s.changedWords mask) a = if a ∈ s.keysIn mask ∧ s.shadGet a ≠ s.newest a then some (s.shadGet a) else none := by
  have key (l : List Nat) (m : List (Nat × Word)) :
      mapFind (l.foldl (fun m a => if s.shadGet a = s.newest a then m else mapIns (mapDel m a) a (s.shadGet a)) m) a =
        if a ∈ l ∧ s.shadGet a ≠ s.newest a then some (s.shadGet a) else mapFind m a := by
    induction l generalizing m with
    | nil => exact (if_neg fun h => List.not_mem_nil h.1).symm
    | cons x l ih =>
      rw [List.foldl_cons, ih]
      by_cases hl : a ∈ l ∧ s.shadGet a ≠ s.newest a
      · rw [if_pos hl, if_pos ⟨List.mem_cons_of_mem x hl.1, hl.2⟩]
      · rw [if_neg hl]
        by_cases hx : a = x
        · subst hx
          by_cases hne : s.shadGet a = s.newest a
          · rw [if_pos hne, if_neg fun h => h.2 hne]
          · rw [if_neg hne, if_pos ⟨List.mem_cons_self, hne⟩, mapFind_ins_self _ _ _ (mapFind_del_self m a)]
        · rw [if_neg fun h : a ∈ x :: l ∧ s.shadGet a ≠ s.newest a => hl ⟨(List.mem_cons.1 h.1).resolve_left hx, h.2⟩]
          split
          · rfl
          · rw [mapFind_ins_ne _ _ hx, mapFind_del_ne m hx]
  exact key (s.keysIn mask) []

/-! ## The commit frame -/

/-- The fixed words, each named once, become the active copies. -/
theorem tabSet_foldl_spec (g : Nat × Word → Word) (fixed : List (Nat × Word)) (hn : (fixed.map (·.1)).Nodup) (s : State) :
    ∃ m, (fixed.map fun e => ({ a := e.1, old := g e, new := e.2 } : Change)).foldl (fun (t : State) w => t.tabSet w.a w.new) s = { s with tab := m } ∧
      ∀ a, mapGet tabDefault m a = (mapFind fixed a).getD (s.tabGet a) := by
  induction fixed generalizing s with
  | nil => exact ⟨s.tab, rfl, fun _ => rfl⟩
  | cons e l ih =>
    obtain ⟨he, hl⟩ := List.nodup_cons.1 hn
    obtain ⟨m, em, hm⟩ := ih hl (s.tabSet e.1 e.2)
    refine ⟨m, em, fun a => (hm a).trans ?_⟩
    rw [mapFind]
    by_cases ha : e.1 = a
    · subst ha
      have hnone : mapFind l e.1 = none := mapFind_none_of_keys _ _ fun d hd hk => he (List.mem_map.2 ⟨d, hd, hk⟩)
      rw [if_pos rfl, hnone, Option.getD_none, State.tabGet_tabSet_self, Option.getD_some]
    · rw [if_neg ha, State.tabGet_tabSet_ne _ _ (Ne.symm ha)]

/-- A commit taking effect: the copies, the list of commits, and EV35 (R170, R179). -/
theorem State.applyCommit_spec (s : State) (k : Commit) (fixed : List (Nat × Word)) (hn : (fixed.map (·.1)).Nodup) :
    let t := s.applyCommit k fixed
    (∀ a, t.tabGet a = (mapFind fixed a).getD (s.tabGet a)) ∧ t.shad = s.shad ∧ t.commits = s.commits.erase k ∧
      t.reg (regEVT_PAYLOAD 35) = BitVec.ofNat 32 k.ticket ∧ t.rbit (regEVT_PEND 1) 3 = true := by
  intro t
  let ws := fixed.map fun e => ({ a := e.1, old := s.tabGet e.1, new := e.2 } : Change)
  have h1 : CopiesKept s ((s.keepOld ws).keepPages ws k.frame) := .keepPages (.keepOld (.refl s))
  generalize hs1 : (s.keepOld ws).keepPages ws k.frame = s1 at h1
  obtain ⟨m, em, hm⟩ := tabSet_foldl_spec (fun e => s.tabGet e.1) fixed hn s1
  obtain ⟨r, er⟩ : ∃ r, (State.setRfld { s1 with tab := m } regPEG_TICKET 8 8 k.ticket).logState k 1 = { s1 with tab := m, regs := r } := by
    rw [State.logState_frame]
    exact ⟨_, rfl⟩
  have ht : t = (State.raiseEvent { s1 with tab := m, regs := r, commits := s1.commits.erase k } 35 (BitVec.ofNat 32 k.ticket)).startChanges ws k.frame := by
    show s.applyCommit k fixed = _
    rw [State.applyCommit]
    rw [hs1, em, er]
  have hk : CopiesKept (State.raiseEvent { s1 with tab := m, regs := r, commits := s1.commits.erase k } 35 (BitVec.ofNat 32 k.ticket)) t :=
    ht ▸ .startChanges (.refl _)
  refine ⟨fun a => ?_, ?_, ?_, ?_, ?_⟩
  · rw [State.tabGet, hk.tab, State.raiseEvent_tab]
    refine (hm a).trans ?_
    rw [State.tabGet, h1.tab]
    rfl
  · rw [hk.shad, State.raiseEvent_frame]
    exact h1.shad
  · rw [hk.commits, State.raiseEvent_commits]
    exact congrArg (List.erase · k) h1.commits
  · rw [hk.payload]
    exact State.raiseEvent_payload _ _ _ (by decide)
  · exact hk.pend (State.raiseEvent_pend_self _ 35 _ (by decide))

/-- Settles O30: the tick that fixes the copies of a commit, and the tick at which they take effect. -/
theorem commitTicks : Obligations.CommitTicks := by
  unfold Obligations.CommitTicks
  refine ⟨fun s c hc => ?_, fun s k fixed hk hfix hn => ?_⟩
  · have he : exec .commitCopyFix s = .next (State.delayFix { s with commits := replaceFirst c { c with fixed := some (s.changedWords c.mask) } s.commits }
        (s.changedWords c.mask) c.frame) := by
      show execCommitCopyFix s = _
      rw [execCommitCopyFix, hc]
    have hkept := CopiesKept.delayFix (fixed := s.changedWords c.mask) (c := c.frame)
      (.refl { s with commits := replaceFirst c { c with fixed := some (s.changedWords c.mask) } s.commits })
    refine ⟨_, he, hkept.tab, hkept.shad, hkept.commits, fun a v hv => ?_, fun a w hw hg hne => ?_⟩
    · rw [s.changedWords_spec] at hv
      split at hv
      · next h =>
        obtain rfl := Option.some.inj hv
        exact ⟨rfl, h.2, h.1⟩
      · exact nomatch hv
    · have hkey : a ∈ s.shadowKeys := Classical.not_not.1 fun h => hne (s.unlisted a h)
      rw [s.changedWords_spec, if_pos ⟨(s.mem_keysIn _ a).2 ⟨hkey, w, hw, hg⟩, hne⟩]
  · have he : exec .commitApplied s = .next (s.applyCommit k fixed) := by
      show execCommitApplied s = _
      rw [execCommitApplied, hk]
      dsimp only
      rw [hfix, Option.getD_some]
    exact ⟨_, he, s.applyCommit_spec k fixed hn⟩

end Sys2Proof.Machine
end

section
/-! The dispatch and the ends of background tasks (R46, R102, R201 to R205, R306). -/

namespace Sys2Proof.Machine

-- One theorem after another, so that the compile of the whole text stays within its memory.
set_option Elab.async false

/-! ## The best candidate -/

/-- `e` is served no later than `d`: of higher PRI, or of the same and ready no later (R203). -/
def State.NotAfter (s : State) (e d : StoreEntry) : Prop :=
  s.tmplPri d.tmplNo ≤ s.tmplPri e.tmplNo ∧ (s.tmplPri d.tmplNo = s.tmplPri e.tmplNo → e.ready.getD 0 ≤ d.ready.getD 0)

theorem State.better_iff (s : State) (a b : StoreEntry) :
    s.better a b = true ↔ s.tmplPri b.tmplNo < s.tmplPri a.tmplNo ∨ (s.tmplPri a.tmplNo = s.tmplPri b.tmplNo ∧ a.ready.getD 0 < b.ready.getD 0) := by
  simp only [State.better, Bool.or_eq_true, Bool.and_eq_true, decide_eq_true_eq]

theorem State.notAfter_of_better (s : State) {a b d : StoreEntry} (h : s.better a b = true) (hb : s.NotAfter b d) : s.NotAfter a d := by
  rw [s.better_iff] at h
  obtain ⟨h1, h2⟩ := hb
  constructor <;> omega

theorem State.notAfter_of_not_better (s : State) {a b : StoreEntry} (h : ¬ s.better a b = true) : s.NotAfter b a := by
  rw [s.better_iff] at h
  constructor <;> omega

/-- One step of the choice among candidates (R203). -/
def State.pick (s : State) (best : Option StoreEntry) (e : StoreEntry) : Option StoreEntry :=
  match best with
  | none => some e
  | some b => if s.better e b then some e else some b

theorem State.bestFor_eq (s : State) (n : CourseId) : s.bestFor n = (s.store.filter (s.isCandidate n)).foldl s.pick none := rfl

theorem State.pick_some (s : State) (b e : StoreEntry) : s.pick (some b) e = if s.better e b then some e else some b := rfl

/-- The choice among candidates: one of them that no other precedes. -/
theorem State.best_spec (s : State) (l seen : List StoreEntry) (best : Option StoreEntry)
    (hb : ∀ b, best = some b → b ∈ seen ∧ ∀ d ∈ seen, s.NotAfter b d) (hnone : best = none → seen = []) (e : StoreEntry)
    (he : l.foldl s.pick best = some e) :
    e ∈ seen ++ l ∧ ∀ d ∈ seen ++ l, s.NotAfter e d := by
  induction l generalizing seen best with
  | nil =>
    rw [List.append_nil]
    exact hb e he
  | cons x l ih =>
    have hself : s.NotAfter x x := ⟨Nat.le_refl _, fun _ => Nat.le_refl _⟩
    rw [show seen ++ x :: l = (seen ++ [x]) ++ l by rw [List.append_assoc]; rfl]
    refine ih (seen ++ [x]) _ (fun b heq => ?_) (fun heq => ?_) he
    · cases best with
      | none =>
        obtain rfl := Option.some.inj heq
        rw [hnone rfl]
        exact ⟨List.mem_singleton_self x, fun d hd => List.mem_singleton.1 hd ▸ hself⟩
      | some c =>
        obtain ⟨hc, hle⟩ := hb c rfl
        rw [s.pick_some] at heq
        split at heq
        · next hx =>
          obtain rfl := Option.some.inj heq
          refine ⟨List.mem_append_right _ (List.mem_singleton_self _), fun d hd => ?_⟩
          rcases List.mem_append.1 hd with h | h
          · exact s.notAfter_of_better hx (hle d h)
          · exact List.mem_singleton.1 h ▸ hself
        · next hx =>
          obtain rfl := Option.some.inj heq
          refine ⟨List.mem_append_left _ hc, fun d hd => ?_⟩
          rcases List.mem_append.1 hd with h | h
          · exact hle d h
          · exact List.mem_singleton.1 h ▸ s.notAfter_of_not_better hx
    · cases best with
      | none => exact nomatch heq
      | some c =>
        rw [s.pick_some] at heq
        split at heq
        · exact nomatch heq
        · exact nomatch heq

theorem State.bestFor_spec (s : State) (n : CourseId) (e : StoreEntry) (h : s.bestFor n = some e) :
    e ∈ s.store ∧ s.isCandidate n e = true ∧ ∀ d ∈ s.store, s.isCandidate n d = true → s.NotAfter e d := by
  obtain ⟨he, hle⟩ := s.best_spec (s.store.filter (s.isCandidate n)) [] none (fun _ h => nomatch h) (fun _ => rfl) e h
  obtain ⟨hmem, hcand⟩ := List.mem_filter.1 he
  exact ⟨hmem, hcand, fun d hd hc => hle d (List.mem_filter.2 ⟨hd, hc⟩)⟩

/-! ## The dispatch -/

theorem find?_first {p : CourseId → Bool} {n : CourseId} (hn : p n = true) (hlt : ∀ k, k < n → p k = false) (l : List CourseId)
    (hl : l.Pairwise (· < ·)) (hmem : n ∈ l) : l.find? p = some n := by
  induction l with
  | nil => exact nomatch hmem
  | cons x l ih =>
    obtain ⟨hx, hl⟩ := List.pairwise_cons.1 hl
    rcases List.mem_cons.1 hmem with rfl | h
    · exact List.find?_cons_of_pos hn
    · rw [List.find?_cons_of_neg (Bool.eq_false_iff.1 (hlt x (hx n h)))]
      exact ih hl h

theorem exec_dispatch (s : State) (n : CourseId) (e : StoreEntry) (hn : s.offers n = true) (he : s.bestFor n = some e)
    (hlt : ∀ k, k < n → s.offers k = true → s.bestFor k = none) : exec .dispatch s = .next (s.dispatchTo n e) := by
  have hf : courseIds.find? (fun n => s.offers n && (s.bestFor n).isSome) = some n := by
    refine find?_first ?_ (fun k hk => ?_) courseIds (by decide) (mem_courseIds n)
    · rw [hn, he]
      rfl
    · cases ho : s.offers k with
      | false => rfl
      | true => rw [hlt k hk ho]; rfl
  show execDispatch s = _
  rw [execDispatch, hf]
  dsimp only
  rw [he]

/-- The operands in the registers from `k` on. -/
theorem operands_get (ops : List (Option Word)) (k : Nat) (v : Vector Word 32) (hk : k + ops.length ≤ 32) (j : Fin 32) :
    ((ops.zipIdx k).foldl (fun (v : Vector Word 32) e => v.set (e.2 % 32) (e.1.getD 0) (Nat.mod_lt _ (by decide))) v).get j =
      if k ≤ j.val ∧ j.val < k + ops.length then ((ops[j.val - k]?).join).getD 0 else v.get j := by
  induction ops generalizing k v with
  | nil => exact (if_neg (by simp only [List.length_nil]; omega)).symm
  | cons o ops ih =>
    rw [List.length_cons] at hk ⊢
    rw [List.zipIdx_cons, List.foldl_cons, ih (k + 1) _ (by omega)]
    by_cases h1 : k + 1 ≤ j.val ∧ j.val < k + 1 + ops.length
    · rw [if_pos h1, if_pos (by omega), show j.val - k = (j.val - (k + 1)) + 1 by omega, List.getElem?_cons_succ]
    · rw [if_neg h1]
      have hmod : k % 32 = k := Nat.mod_eq_of_lt (by omega)
      have hget (w : Vector Word 32) : w.get j = w[j.val] := rfl
      by_cases h2 : j.val = k
      · rw [if_pos (by omega), hget, Vector.getElem_set, if_pos (hmod.trans h2.symm), h2, Nat.sub_self, List.getElem?_cons_zero, Option.join_some]
      · rw [if_neg (by omega), hget, Vector.getElem_set, if_neg fun h => h2 (h.symm.trans hmod), hget]

theorem Ctx.reset_d_get (j : Fin 32) : Ctx.reset.d.get j = 0 := by revert j; decide

theorem dispatchCtx_operands (ops : List (Option Word)) (entry : Nat) (h : ops.length ≤ 4) (j : Fin 32) :
    (dispatchCtx ops entry).d.get j = ((ops[j.val]?).join).getD 0 := by
  refine (operands_get ops 0 Ctx.reset.d (by omega) j).trans ?_
  rw [Nat.sub_zero]
  split
  · rfl
  · next hj =>
    rw [List.getElem?_eq_none (by omega)]
    exact Ctx.reset_d_get j

/-- The Course that has taken a task (R46, R203). -/
def Course.dispatched (c : Course) (e : StoreEntry) (entry : Nat) : Course :=
  { c with
    bg := dispatchCtx e.ops entry, task := some { tag := e.key, ticks := 0 }, phase := .back, bgRan := true, preemptDue := false,
    moves := c.moves.map fun m => { m with fresh := false } }

theorem State.dispatchTo_eq (s : State) (n : CourseId) (e : StoreEntry) :
    s.dispatchTo n e = { (((s.modCourse n fun c => c.dispatched e (fld (s.tmpl e.tmplNo 0) 0 14)).setReg (regC_AMODE_BG n.val) (s.tmpl e.tmplNo 2)).count
      regEVT_DISPATCH_CNT 1) with store := s.store.filter fun d => d.ready != e.ready } := rfl

theorem State.course_dispatchTo (s : State) (n m : CourseId) (e : StoreEntry) :
    (s.dispatchTo n e).course m = (s.modCourse n fun c => c.dispatched e (fld (s.tmpl e.tmplNo 0) 0 14)).course m := rfl

theorem State.reg_dispatchTo (s : State) (n : CourseId) (e : StoreEntry) (a : Nat) :
    (s.dispatchTo n e).reg a = ((s.setReg (regC_AMODE_BG n.val) (s.tmpl e.tmplNo 2)).count regEVT_DISPATCH_CNT 1).reg a := rfl

theorem regEVT_DISPATCH_CNT_ne (n : Nat) : regEVT_DISPATCH_CNT ≠ regC_AMODE_BG n := by simp only [regEVT_DISPATCH_CNT, regC_AMODE_BG]; omega

/-- Settles O33: the dispatch of the best candidate, the end of a task, and a task past its LIMIT. -/
theorem tasks : Obligations.Tasks := by
  unfold Obligations.Tasks
  refine ⟨fun s n e hn he hlt => ?_, fun s n k => ?_⟩
  · intro t0
    refine ⟨s.bestFor_spec n e he, _, exec_dispatch s n e hn he hlt, rfl, rfl, fun a h1 h2 => ?_, ?_, ?_, fun m hm => ?_, ?_⟩
    · rw [State.reg_dispatchTo, State.reg_count, if_neg h2, State.reg_setReg_ne _ _ h1]
    · rw [State.reg_dispatchTo, State.reg_count, if_neg (regEVT_DISPATCH_CNT_ne n.val).symm, State.reg_setReg_self]
      rfl
    · rw [State.reg_dispatchTo, State.reg_count, if_pos rfl, State.reg_setReg_ne _ _ (regEVT_DISPATCH_CNT_ne n.val)]
    · rw [State.course_dispatchTo, State.course_modCourse_ne _ _ hm]
    · rw [State.course_dispatchTo, State.course_modCourse_self]
      exact ⟨rfl, rfl, rfl, rfl, rfl, rfl, rfl, fun h j => dispatchCtx_operands e.ops _ h j, rfl⟩
  · intro c hk
    refine ⟨fun hend hposted => congrArg Host.Outcome.next (if_pos ?_), fun h0 hlim hph => ?_⟩
    · have hall : (c.posted.all fun p => decide (p.x ≠ .bg)) = true := List.all_eq_true.2 fun p hp => by
        rw [hposted p hp]
        rfl
      rw [show (s.course n).task = some k from hk, show (s.course n).bg.ended = true from hend, hall]
      rfl
    · show execTaskOvertime n s = _
      rw [execTaskOvertime]
      dsimp only
      rw [show (s.course n).task = some k from hk]
      exact congrArg Host.Outcome.next (if_pos ⟨h0, hlim, hph⟩)

end Sys2Proof.Machine
end

section
/-! The raising of a fault source (R361, R363, R366, R367). -/

namespace Sys2Proof.Machine

-- One theorem after another, so that the compile of the whole text stays within its memory.
set_option Elab.async false

variable (s : State) (src : Nat)

/-! ## The latch, the class count and the reactions -/

theorem State.latchFault_classCount :
    (s.latchFault src).reg regFAULT_CLASSCNT = satAdd (s.reg regFAULT_CLASSCNT) (8 * faultClass src) 8 1 := by
  have hne : regFAULT_CLASSCNT ≠ regFAULT_LATCH (src / 32) := by simp only [regFAULT_CLASSCNT, regFAULT_LATCH]; omega
  rw [State.latchFault, State.reactions_reg, State.reg_setReg_self, State.reg_setRbit_ne _ _ _ _ hne]

/-- The setting of a source is not among the registers that its raising changes. -/
theorem State.latchFault_setting (a : Nat) (hs : src < 256) (ha : 0x30100 ≤ a) : (s.latchFault src).reg a = s.reg a :=
  s.latchFault_reg src a (by simp only [regFAULT_LATCH]; omega) (by simp only [regFAULT_CLASSCNT]; omega)

theorem State.reactions_mute : (s.reactions src).reactMute =
    if bit (s.reg (regFAULT_CFG src)) 0 then (s.reactMute.filter fun r => r != src) ++ [src] else s.reactMute.filter fun r => r != src := by
  rw [State.reactions]
  dsimp only
  split
  · rfl
  · rfl

theorem State.reactions_release : (s.reactions src).releaseReq = (s.releaseReq || bit (s.reg (regFAULT_CFG src)) 2) := by
  rw [State.reactions]
  dsimp only
  cases bit (s.reg (regFAULT_CFG src)) 2
  · exact (Bool.or_false _).symm
  · exact (Bool.or_true _).symm

theorem State.latchFault_eq : s.latchFault src =
    ((s.setRbit (regFAULT_LATCH (src / 32)) (src % 32)).setReg regFAULT_CLASSCNT
      (satAdd ((s.setRbit (regFAULT_LATCH (src / 32)) (src % 32)).reg regFAULT_CLASSCNT) (8 * faultClass src) 8 1)).reactions src := rfl

/-- The reactions of a raising follow the setting that its source has before it. -/
theorem State.latchFault_cfg (hs : src < 256) (v : Word) :
    ((s.setRbit (regFAULT_LATCH (src / 32)) (src % 32)).setReg regFAULT_CLASSCNT v).reg (regFAULT_CFG src) = s.reg (regFAULT_CFG src) := by
  rw [State.reg_setReg_ne _ _ (by simp only [regFAULT_CFG, regFAULT_CLASSCNT]; omega),
    State.reg_setRbit_ne _ _ _ _ (by simp only [regFAULT_CFG, regFAULT_LATCH]; omega)]

theorem State.latchFault_mute (hs : src < 256) : (s.latchFault src).reactMute =
    if bit (s.reg (regFAULT_CFG src)) 0 then (s.reactMute.filter fun r => r != src) ++ [src] else s.reactMute.filter fun r => r != src := by
  rw [s.latchFault_eq, State.reactions_mute, s.latchFault_cfg src hs]
  rfl

theorem State.latchFault_release (hs : src < 256) : (s.latchFault src).releaseReq = (s.releaseReq || bit (s.reg (regFAULT_CFG src)) 2) := by
  rw [s.latchFault_eq, State.reactions_release, s.latchFault_cfg src hs]
  rfl

/-! ## The record -/

/-- Word 0 of the first-fault record (R366). -/
def recordWord (src : Nat) (inj : Bool) (stat fc : Nat) : Word :=
  BitVec.ofNat 32 (0x80000000 + b2n inj * 2 ^ 30 + faultClass src * 2 ^ 28 + stat * 2 ^ 26 + (fc / 2 ^ 32 % 2 ^ 16) * 256 + src)

theorem State.tb0Words_fc : s.tb0Words.2.fc = s.fc := by
  unfold State.tb0Words
  split
  · rfl
  · rfl

/-- The registers of the record, as they stand before EV6. -/
def State.recordRegs (inj : Bool) (det syn : Word) : State :=
  ((((((s.tb0Words.2.setReg regFAULT_FFR0 (recordWord src inj (s.rfld (regTIME_STAT 0) 0 2) s.now)).setReg (regFAULT_FFR1 0) (lo32 s.fc)).setReg (regFAULT_FFR1 1)
    s.tb0Words.1.1).setReg (regFAULT_FFR1 2) s.tb0Words.1.2).setReg regFAULT_FFDET det).setReg regFAULT_FFSYN syn)

theorem State.recordFault_eq (inj : Bool) (det syn : Word) : s.recordFault src inj det syn = (s.recordRegs src inj det syn).raiseEvent 6 (BitVec.ofNat 32 src) := rfl

theorem State.recordFault_reg_event (inj : Bool) (det syn : Word) (a : Nat) (h : a / 0x10000 ≠ 4) :
    (s.recordFault src inj det syn).reg a = (s.recordRegs src inj det syn).reg a := State.raiseEvent_reg_block _ _ _ _ (by decide) h

theorem State.recordFault_word0 (inj : Bool) (det syn : Word) :
    (s.recordFault src inj det syn).reg regFAULT_FFR0 = recordWord src inj (s.rfld (regTIME_STAT 0) 0 2) s.now := by
  rw [s.recordFault_reg_event _ _ _ _ _ (by decide), State.recordRegs]
  iterate 5 rw [State.reg_setReg_ne _ _ (by decide)]
  exact State.reg_setReg_self _ _ _

theorem State.recordFault_frame (inj : Bool) (det syn : Word) : (s.recordFault src inj det syn).reg (regFAULT_FFR1 0) = lo32 s.fc := by
  rw [s.recordFault_reg_event _ _ _ _ _ (by decide), State.recordRegs]
  iterate 4 rw [State.reg_setReg_ne _ _ (by decide)]
  exact State.reg_setReg_self _ _ _

theorem State.recordFault_det (inj : Bool) (det syn : Word) : (s.recordFault src inj det syn).reg regFAULT_FFDET = det := by
  rw [s.recordFault_reg_event _ _ _ _ _ (by decide), State.recordRegs, State.reg_setReg_ne _ _ (by decide)]
  exact State.reg_setReg_self _ _ _

theorem State.recordFault_syn (inj : Bool) (det syn : Word) : (s.recordFault src inj det syn).reg regFAULT_FFSYN = syn := by
  rw [s.recordFault_reg_event _ _ _ _ _ (by decide), State.recordRegs]
  exact State.reg_setReg_self _ _ _

/-- The registers of the block FAULT that the record does not hold. -/
theorem State.recordFault_outside (inj : Bool) (det syn : Word) (a : Nat) (h : 0x30018 ≤ a) (h4 : a / 0x10000 ≠ 4) :
    (s.recordFault src inj det syn).reg a = s.reg a := by
  rw [s.recordFault_reg_event _ _ _ _ _ h4, State.recordRegs]
  simp only [State.reg_setReg, regFAULT_FFR0, regFAULT_FFR1, regFAULT_FFDET, regFAULT_FFSYN]
  iterate 6 rw [if_neg (by omega)]
  exact s.tb0Words_reg a

theorem State.tb0Words_mute : s.tb0Words.2.reactMute = s.reactMute ∧ s.tb0Words.2.releaseReq = s.releaseReq := by
  unfold State.tb0Words
  split
  · exact ⟨rfl, rfl⟩
  · exact ⟨rfl, rfl⟩

theorem State.raiseEvent_reactMute (e : Nat) (pl : Word) : (s.raiseEvent e pl).reactMute = s.reactMute := by rw [State.raiseEvent_frame]

theorem State.raiseEvent_releaseReq (e : Nat) (pl : Word) : (s.raiseEvent e pl).releaseReq = s.releaseReq := by rw [State.raiseEvent_frame]

theorem State.recordFault_reactMute (inj : Bool) (det syn : Word) : (s.recordFault src inj det syn).reactMute = s.reactMute := by
  rw [State.recordFault_eq, State.raiseEvent_reactMute, State.recordRegs]
  iterate 6 rw [State.setReg_reactMute]
  exact s.tb0Words_mute.1

theorem State.recordFault_releaseReq (inj : Bool) (det syn : Word) : (s.recordFault src inj det syn).releaseReq = s.releaseReq := by
  rw [State.recordFault_eq, State.raiseEvent_releaseReq, State.recordRegs]
  iterate 6 rw [State.setReg_releaseReq]
  exact s.tb0Words_mute.2

theorem ite_lt_four {c : Prop} [Decidable c] {a b : Nat} (ha : a < 4) (hb : b < 4) : (if c then a else b) < 4 := by
  split
  · exact ha
  · exact hb

theorem faultClass_lt : faultClass src < 4 := by
  unfold faultClass
  repeat' apply ite_lt_four
  all_goals decide

theorem recordWord_toNat (inj : Bool) (stat fc : Nat) (hs : src < 256) (ht : stat < 4) :
    (recordWord src inj stat fc).toNat = 0x80000000 + b2n inj * 2 ^ 30 + faultClass src * 2 ^ 28 + stat * 2 ^ 26 + (fc / 2 ^ 32 % 2 ^ 16) * 256 + src := by
  have hc := faultClass_lt src
  have hb : b2n inj ≤ 1 := by cases inj <;> decide
  rw [recordWord, BitVec.toNat_ofNat]
  exact Nat.mod_eq_of_lt (by omega)

theorem bit_of_toNat (w : Word) (i : Nat) : bit w i = decide (w.toNat / 2 ^ i % 2 = 1) := by
  rw [bit, BitVec.getLsbD, Nat.testBit_eq_decide_div_mod_eq]

theorem recordWord_fields (stat fc : Nat) (hs : src < 256) (ht : stat < 4) :
    let w := recordWord src false stat fc
    bit w 31 = true ∧ bit w 30 = false ∧ fld w 0 8 = src ∧ fld w 28 2 = faultClass src ∧ fld w 8 16 = fc / 2 ^ 32 % 2 ^ 16 := by
  have hc := faultClass_lt src
  have hn := recordWord_toNat src false stat fc hs ht
  rw [show b2n false = 0 from rfl] at hn
  refine ⟨?_, ?_, ?_, ?_, ?_⟩
  · rw [bit_of_toNat, hn]
    exact decide_eq_true (by omega)
  · rw [bit_of_toNat, hn]
    exact decide_eq_false (by omega)
  · rw [fld, hn]
    omega
  · rw [fld, hn]
    omega
  · rw [fld, hn]
    omega

/-! ## A single raising -/

theorem State.firstFault_single : s.firstFault [src] = if s.rbit (regFAULT_CFG src) 8 then some src else none := rfl

theorem State.raiseAll_single : s.raiseAll [src] none =
    if s.rbit regFAULT_FFR0 31 then (s.latchFault src).count regFAULT_COUNT 1
    else if s.rbit (regFAULT_CFG src) 8 then ((s.latchFault src).count regFAULT_COUNT 0).recordFault src false 0 0
    else s.latchFault src := by
  rw [State.raiseAll, s.firstFault_single src]
  cases s.rbit regFAULT_FFR0 31
  · cases s.rbit (regFAULT_CFG src) 8
    · rfl
    · rfl
  · rfl

/-! ## What one raising leaves -/

/-- A raising of one source goes through the latch and then touches, of what the latch concerns, nothing any more. -/
theorem State.raiseAll_classCount : (s.raiseAll [src] none).reg regFAULT_CLASSCNT = satAdd (s.reg regFAULT_CLASSCNT) (8 * faultClass src) 8 1 := by
  have hc (t : State) (n : Nat) : (t.count regFAULT_COUNT n).reg regFAULT_CLASSCNT = t.reg regFAULT_CLASSCNT := State.reg_setReg_ne _ _ (by decide)
  rw [s.raiseAll_single, ← s.latchFault_classCount src]
  split
  · exact hc _ _
  · split
    · exact (State.recordFault_outside _ _ _ _ _ _ (by decide) (by decide)).trans (hc _ _)
    · rfl

theorem State.raiseAll_reactMute (hs : src < 256) : (s.raiseAll [src] none).reactMute =
    if bit (s.reg (regFAULT_CFG src)) 0 then (s.reactMute.filter fun r => r != src) ++ [src] else s.reactMute.filter fun r => r != src := by
  rw [s.raiseAll_single, ← s.latchFault_mute src hs]
  split
  · rfl
  · split
    · exact State.recordFault_reactMute _ _ _ _ _
    · rfl

theorem State.raiseAll_releaseReq (hs : src < 256) : (s.raiseAll [src] none).releaseReq = (s.releaseReq || bit (s.reg (regFAULT_CFG src)) 2) := by
  rw [s.raiseAll_single, ← s.latchFault_release src hs]
  split
  · rfl
  · split
    · exact State.recordFault_releaseReq _ _ _ _ _
    · rfl

/-- While the record is held a raising counts, and leaves the record alone (R367). -/
theorem State.raiseAll_held (h : s.rbit regFAULT_FFR0 31 = true) :
    (s.raiseAll [src] none).reg regFAULT_COUNT = satAdd (s.reg regFAULT_COUNT) 0 32 1 ∧
      ∀ a, a < regFAULT_COUNT → (s.raiseAll [src] none).reg a = s.reg a := by
  have hl (a : Nat) (ha : a ≤ regFAULT_COUNT) : (s.latchFault src).reg a = s.reg a :=
    s.latchFault_reg src a (by simp only [regFAULT_COUNT] at ha; simp only [regFAULT_LATCH]; omega) (by simp only [regFAULT_COUNT] at ha; simp only [regFAULT_CLASSCNT]; omega)
  rw [s.raiseAll_single, if_pos h]
  refine ⟨?_, fun a ha => ?_⟩
  · rw [State.reg_count, if_pos rfl, hl _ (Nat.le_refl _)]
  · rw [State.reg_count, if_neg (Nat.ne_of_lt ha), hl a (Nat.le_of_lt ha)]

/-- A source with REC = 0 does not enter the free record (R366). -/
theorem State.raiseAll_unrecorded (h : s.rbit regFAULT_FFR0 31 = false) (hrec : s.rbit (regFAULT_CFG src) 8 = false) :
    s.raiseAll [src] none = s.latchFault src := by
  rw [s.raiseAll_single, h, hrec]
  rfl

/-- The state of a raising as the record sees it. -/
theorem State.raiseAll_recorded (h : s.rbit regFAULT_FFR0 31 = false) (hrec : s.rbit (regFAULT_CFG src) 8 = true) :
    s.raiseAll [src] none = ((s.latchFault src).count regFAULT_COUNT 0).recordFault src false 0 0 := by
  rw [s.raiseAll_single, h, hrec]
  rfl

theorem State.latchFault_fc : (s.latchFault src).fc = s.fc := by
  have h := s.latchFault_shape src
  unfold State.faultShape at h
  rw [h]

theorem State.creset_of_some {n : Nat} (hn : faultCourse src = some n) (h : s.rbit (regFAULT_CFG src) 1 = true) :
    s.creset src = s.modCourse (fin 7 n) fun c => { c with resetReq := true } := by
  rw [State.creset, hn]
  exact if_pos h

theorem State.creset_of_none (h : faultCourse src = none ∨ s.rbit (regFAULT_CFG src) 1 = false) : s.creset src = s := by
  rw [State.creset]
  split
  · next n hn => exact if_neg (Bool.eq_false_iff.1 (h.resolve_left fun he => nomatch he.symm.trans hn))
  · rfl

/-- Settings of the sources, which a raising leaves alone. -/
theorem State.raiseAll_setting (hs : src < 256) : (s.raiseAll [src] none).reg (regFAULT_CFG src) = s.reg (regFAULT_CFG src) := by
  have hl : (s.latchFault src).reg (regFAULT_CFG src) = s.reg (regFAULT_CFG src) :=
    s.latchFault_setting src _ hs (by simp only [regFAULT_CFG]; omega)
  have hc (t : State) (n : Nat) : (t.count regFAULT_COUNT n).reg (regFAULT_CFG src) = t.reg (regFAULT_CFG src) :=
    State.reg_setReg_ne _ _ (by simp only [regFAULT_CFG, regFAULT_COUNT]; omega)
  rw [s.raiseAll_single, ← hl]
  split
  · exact hc _ _
  · split
    · exact (State.recordFault_outside _ _ _ _ _ _ (by simp only [regFAULT_CFG]; omega) (by simp only [regFAULT_CFG]; omega)).trans (hc _ _)
    · rfl

/-- What an occurrence leaves, but for the Courses: the raising where the latch is clear, else nothing. -/
def State.raisedOnce : State := if s.faultLatched src then s else s.raiseAll [src] none

theorem State.raisedOnce_shape : s.faultShape (s.raisedOnce src) := by
  rw [State.raisedOnce]
  split
  · exact s.faultShape_refl
  · exact s.raiseAll_shape _ _

theorem State.raisedOnce_setting (hs : src < 256) : (s.raisedOnce src).reg (regFAULT_CFG src) = s.reg (regFAULT_CFG src) := by
  rw [State.raisedOnce]
  split
  · rfl
  · exact s.raiseAll_setting src hs

theorem State.faultOccurs_eq : s.faultOccurs src = (s.raisedOnce src).creset src := rfl

theorem State.creset_frame : s.creset src = { s with courses := (s.creset src).courses } := by
  rcases s.creset_cases src with h | ⟨n, _, h⟩
  · rw [h]
  · rw [h]
    rfl

theorem State.faultOccurs_frame : s.faultOccurs src = { s with
    regs := (s.faultOccurs src).regs, courses := (s.faultOccurs src).courses, tokens := (s.faultOccurs src).tokens, seq := (s.faultOccurs src).seq,
    reactMute := (s.faultOccurs src).reactMute, releaseReq := (s.faultOccurs src).releaseReq, freeCtr := (s.faultOccurs src).freeCtr } := by
  have h1 := s.raisedOnce_shape src
  have h2 := (s.raisedOnce src).creset_frame src
  unfold State.faultShape at h1
  rw [s.faultOccurs_eq src]
  generalize s.raisedOnce src = t at h1 h2
  rw [h2, h1]

theorem State.faultOccurs_raised (hl : s.faultLatched src = false) :
    (∀ a, (s.faultOccurs src).reg a = (s.raiseAll [src] none).reg a) ∧ (s.faultOccurs src).reactMute = (s.raiseAll [src] none).reactMute ∧
      (s.faultOccurs src).releaseReq = (s.raiseAll [src] none).releaseReq := by
  have he : s.faultOccurs src = (s.raiseAll [src] none).creset src := by
    rw [s.faultOccurs_eq src, State.raisedOnce, hl]
    rfl
  rw [he]
  refine ⟨fun a => State.creset_reg _ _ _, ?_, ?_⟩
  · rw [State.creset_frame]
  · rw [State.creset_frame]

/-- Settles O34: every effect of the raising of a fault source. -/
theorem faultRaising : Obligations.FaultRaising := by
  unfold Obligations.FaultRaising
  intro s src hs t cfg
  have hset : (s.raisedOnce src).rbit (regFAULT_CFG src) 1 = bit cfg 1 := congrArg (bit · 1) (s.raisedOnce_setting src hs)
  refine ⟨fun h hc => s.faultOccurs_latched src h hc, fun n hn h1 => ?_, fun h => ?_, fun hl => ?_⟩
  · show ((s.faultOccurs src).course (fin 7 n)).resetReq = true
    rw [s.faultOccurs_eq src, State.creset_of_some _ _ hn (hset.trans h1), State.course_modCourse_self]
  · show (s.faultOccurs src).courses = s.courses
    rw [s.faultOccurs_eq src, State.creset_of_none _ _ (h.imp_right hset.trans)]
    have hsh := s.raisedOnce_shape src
    unfold State.faultShape at hsh
    rw [hsh]
  · obtain ⟨hreg, hmute, hrel⟩ := s.faultOccurs_raised src hl
    refine ⟨s.faultOccurs_frame src, fun f hf => s.faultOccurs_latch src f hf, (hreg _).trans (s.raiseAll_classCount src), fun h0 => ?_, fun h0 => ?_,
      hrel.trans (s.raiseAll_releaseReq src hs), fun hffr => ?_, fun hffr h8 => ?_, fun hffr h8 => ?_⟩
    · rw [show t.reactMute = _ from hmute, s.raiseAll_reactMute src hs, if_pos h0]
      exact List.mem_append_right _ (List.mem_singleton_self src)
    · rw [show t.reactMute = _ from hmute, s.raiseAll_reactMute src hs, if_neg (Bool.eq_false_iff.1 h0)]
    · obtain ⟨hcount, hkeep⟩ := s.raiseAll_held src hffr
      refine ⟨(hreg _).trans hcount, fun a ha => (hreg a).trans (hkeep a ?_), (hreg _).trans (hkeep _ (by decide))⟩
      revert a
      decide
    · have hraw := s.raiseAll_unrecorded src hffr h8
      have hlat (a : Nat) (ha : a ≤ regFAULT_COUNT) : t.reg a = s.reg a := by
        refine (hreg a).trans ((congrArg (State.reg · a) hraw).trans (s.latchFault_reg src a ?_ ?_))
        · simp only [regFAULT_COUNT] at ha
          simp only [regFAULT_LATCH]
          omega
        · simp only [regFAULT_COUNT] at ha
          simp only [regFAULT_CLASSCNT]
          omega
      exact ⟨hlat _ (by decide), hlat _ (by decide)⟩
    · have hraw := s.raiseAll_recorded src hffr h8
      have hr (a : Nat) : t.reg a = (((s.latchFault src).count regFAULT_COUNT 0).recordFault src false 0 0).reg a :=
        (hreg a).trans (congrArg (State.reg · a) hraw)
      have hfc : ((s.latchFault src).count regFAULT_COUNT 0).fc = s.fc := s.latchFault_fc src
      have hw := (hr regFAULT_FFR0).trans (State.recordFault_word0 _ _ _ _ _)
      rw [State.now, hfc] at hw
      obtain ⟨f31, f30, fsrc, fclass, ftime⟩ := recordWord_fields src (((s.latchFault src).count regFAULT_COUNT 0).rfld (regTIME_STAT 0) 0 2) s.fc.toNat hs
        (Nat.mod_lt _ (by decide))
      unfold State.rbit State.rfld
      rw [hw]
      refine ⟨f31, f30, fsrc, fclass, ftime, ?_, ?_, ?_, ?_, ?_⟩
      · rw [hr, State.recordFault_frame, hfc]
      · rw [hr, State.recordFault_det]
      · rw [hr, State.recordFault_syn]
      · rw [hr, State.recordFault_eq]
        exact State.raiseEvent_payload _ _ _ (by decide)
      · rw [hr, State.recordFault_eq]
        exact State.raiseEvent_pend_self _ 6 _ (by decide)

end Sys2Proof.Machine
end

section
/-! Faults as software handles them (R365, R367, R370, R377), and register accesses (R11 to R17, R22, R130, R360). -/

namespace Sys2Proof.Machine

-- One theorem after another, so that the compile of the whole text stays within its memory.
set_option Elab.async false

variable (s : State)

/-! ## The first-fault record -/

theorem clearAll_spec (m : Nat) (l : List Nat) (s : State) :
    let t := l.foldl (fun (t : State) a => (t.setReg a 0).setLatch m a 0) s
    t = { s with regs := t.regs, latch := t.latch } ∧ (∀ a, t.reg a = if a ∈ l then 0 else s.reg a) ∧
      ∀ a, t.latched m a = if a ∈ l then 0 else s.latched m a := by
  induction l generalizing s with
  | nil => exact ⟨rfl, fun a => (if_neg List.not_mem_nil).symm, fun a => (if_neg List.not_mem_nil).symm⟩
  | cons x l ih =>
    obtain ⟨hf, hr, hl⟩ := ih ((s.setReg x 0).setLatch m x 0)
    refine ⟨hf, fun a => (hr a).trans ?_, fun a => (hl a).trans ?_⟩
    · by_cases h : a ∈ l
      · rw [if_pos h, if_pos (List.mem_cons_of_mem x h)]
      · rw [if_neg h]
        by_cases hx : a = x
        · rw [if_pos (List.mem_cons.2 (.inl hx)), hx]
          exact State.reg_setReg_self s x 0
        · rw [if_neg fun he => (List.mem_cons.1 he).elim hx h]
          exact State.reg_setReg_ne s 0 hx
    · by_cases h : a ∈ l
      · rw [if_pos h, if_pos (List.mem_cons_of_mem x h)]
      · rw [if_neg h]
        by_cases hx : a = x
        · rw [if_pos (List.mem_cons.2 (.inl hx)), hx]
          exact State.latched_setLatch_self _ _ _ _
        · rw [if_neg fun he => (List.mem_cons.1 he).elim hx h]
          exact State.latched_setLatch_ne _ _ _ hx

/-! ## The injection control -/

theorem reservedReg_injection (v : Word) : s.reservedReg regFAULT_INJCTRL v = decide (21 < fld v 16 5) := rfl

/-- The armed value: the settings take the written bits, and nothing else changes (R370). -/
theorem regStore_injection (v : Word) :
    s.regStore regFAULT_INJCTRL v = (s.setReg regFAULT_INJCTRL ((s.reg regFAULT_INJCTRL &&& ~~~0x801F00FF#32) ||| (v &&& 0x801F00FF#32))).checkReserved regFAULT_INJCTRL v := by
  have h1 : rwBits regFAULT_INJCTRL = 0x801F00FF#32 := by decide
  have h2 : w1cBits regFAULT_INJCTRL = 0#32 := by decide
  have h3 : clampReg regFAULT_INJCTRL v = v := rfl
  rw [State.regStore, h1, h2, h3, merge, BitVec.and_zero, BitVec.not_zero, BitVec.and_allOnes]

theorem exec_injectionArm (m : Master) (v : Word)
    (h : (bit (s.reg regFAULT_INJCTRL) 31 && bit v 31 && decide (fld v 16 5 ≠ fld (s.reg regFAULT_INJCTRL) 16 5)) = false) :
    exec (.injectionArm m v) s = .next (s.regStore regFAULT_INJCTRL v) := congrArg Host.Outcome.next (if_neg (Bool.eq_false_iff.1 h))

/-! ## The register port -/

theorem State.serve_register (m : Master) (a : Nat) (ha : a < 0x01000000) : s.serve m a = s.servePort 66 m.val := by
  have hk : mapKind a = 0 := if_pos ha
  rw [State.serve, State.mapPort, hk]
  rfl

theorem State.serve_shape (m : Master) (a : Nat) : ∃ q, s.serve m a = { s with rr := q } := by
  rw [State.serve]
  split
  · exact ⟨_, rfl⟩
  · exact ⟨s.rr, rfl⟩

theorem State.unhold_idle (h : s.held = false) : s.unhold = s := if_neg (Bool.eq_false_iff.1 h)

theorem State.ratioBad_register (m : Master) (a : Nat) (hm : m.val ≤ 7 → s.courseRatioBad = false) (ha : a < 0x140000) : s.ratioBad m a = false := by
  have h20 : decide (a / 0x10000 = 20) = false := decide_eq_false (by omega)
  have h21 : decide (a / 0x10000 = 21) = false := decide_eq_false (by omega)
  rw [State.ratioBad, h20, h21, Bool.or_self, Bool.false_and, Bool.or_false]
  by_cases h : m.val ≤ 7
  · rw [hm h, Bool.and_false]
  · rw [decide_eq_false h, Bool.false_and]

section
variable (m : Master) (a v : Word)

theorem exec_registerWrite_deep (h : s.deep = true) : exec (.registerWrite m a v) s = .next s := by
  show Host.Outcome.next (s.busWrite m a.toNat v).1 = _
  rw [State.busWrite, if_pos h]

/-- A write of a register by a master with a path to it, outside the blocks on the peripheral bus. -/
theorem exec_registerWrite (hp : csrPath m = true) (hm : m.val ≤ 7 → s.courseRatioBad = false) (hd : s.deep = false) (hh : s.held = false)
    (ha : a.toNat < 0x140000) : exec (.registerWrite m a v) s = .next ((s.servePort 66 m.val).regWrite m a.toNat v).1 := by
  have hk : mapKind a.toNat = 0 := if_pos (by omega)
  have hb : (s.servePort 66 m.val).ratioBad m a.toNat = false := State.ratioBad_register (s.servePort 66 m.val) m a.toNat hm ha
  have hpath : kindPath m 0 = true := hp
  show Host.Outcome.next (s.busWrite m a.toNat v).1 = _
  rw [State.busWrite, hd, hk, hpath, s.unhold_idle hh, s.serve_register m a.toNat (by omega)]
  dsimp only
  rw [hb, State.kindWrite, hk]
  rfl

theorem exec_registerWrite_pathless (hp : csrPath m = false) (hd : s.deep = false) (ha : a.toNat < 0x01000000) :
    exec (.registerWrite m a v) s = .next ((s.ridgeRecord 0 m.val true (BitVec.ofNat 32 a.toNat)).faultOccurs 0) := by
  have hk : mapKind a.toNat = 0 := if_pos ha
  have hpath : kindPath m 0 = false := hp
  have h7 : ¬ m.val ≤ 7 := fun h => by
    rw [csrPath, decide_eq_true h] at hp
    exact nomatch hp
  show Host.Outcome.next (s.busWrite m a.toNat v).1 = _
  rw [State.busWrite, hd, hk, hpath]
  exact congrArg Host.Outcome.next (if_neg h7)

theorem exec_rcFieldRead_bus (ev : Word) (h : rcBits a.toNat = 0 ∨ csrPath m = false ∨ s.deep = true) :
    exec (.rcFieldRead m a ev) s = .next ((s.busRead m a.toNat).1.2.returnTo m.val (s.busRead m a.toNat).1.1) := by
  have hc : rcBits a.toNat = 0 ∨ (!csrPath m) = true ∨ s.deep = true := h.imp_right fun h => h.imp_left fun h => by rw [h]; rfl
  show execRcFieldRead m a ev s = _
  rw [execRcFieldRead, if_pos hc]

end

/-- Outside the ports' alignments and the reference slots, what a register calls reserved depends on no register but GLOBAL.RATE. -/
theorem State.reservedReg_congr (t : State) (a : Nat) (v : Word) (hr : t.rbit regGLOBAL_RATE 0 = s.rbit regGLOBAL_RATE 0) (h1 : inArr a 0xA0004 64 16 = false)
    (h2 : inArr a 0xE0040 32 8 = false) : t.reservedReg a v = s.reservedReg a v := by
  simp only [State.reservedReg, State.reservedTimeRef, h1, h2, hr, Bool.false_eq_true, if_false]

/-- A register without a rule of its own: its RW bits take the value and its W1C bits clear where a 1 is written (R12). -/
theorem State.regWrite_plain (m : Master) (a : Nat) (v : Word) (hb : a / 0x10000 ∈ [2, 6, 7, 8, 9, 11]) (ha : a % 4 = 0) (hi : (regInfo a).isSome = true)
    (hs : shadowBits a = 0) (hr : s.reservedReg a v = false) :
    (s.regWrite m a v).1 = s.setReg a (((s.reg a &&& ~~~(rwBits a)) ||| (v &&& rwBits a)) &&& ~~~(v &&& w1cBits a)) := by
  have hlt : a < 0xC0000 := by
    simp only [List.mem_cons, List.not_mem_nil, or_false] at hb
    omega
  have hclamp : clampReg a v = v := by
    have hn (base st n : Nat) (h : 0xC0000 ≤ base) : inArr a base st n = false := by
      rw [inArr, decide_eq_false (by omega)]
      rfl
    have hfree : (a == regREF_FREE) = false := beq_eq_false_iff_ne.2 (by simp only [regREF_FREE]; omega)
    rw [clampReg, hn _ _ _ (by decide), hn _ _ _ (by decide), hfree, hn _ _ _ (by decide), hn _ _ _ (by decide)]
    rfl
  have hwrite : s.writeListed m a v = s.writeEngine m a v := by
    simp only [List.mem_cons, List.not_mem_nil, or_false] at hb
    rw [State.writeListed]
    rcases hb with h | h | h | h | h | h
    all_goals
      rw [h]
      rfl
  have hengine : s.writeEngine m a v = s.regStore a v := by
    have hn (base st n : Nat) (h : 0xC0000 ≤ base) : ¬ inArr a base st n = true := by
      rw [inArr, decide_eq_false (by omega)]
      exact Bool.false_ne_true
    rw [State.writeEngine, if_neg (by omega), if_neg (hn _ _ _ (by decide)), if_neg (hn _ _ _ (by decide)), if_neg (by simp only [regRIDGE_CTRL]; omega)]
  have hmap : ¬ (a % 4 ≠ 0 ∨ (regInfo a).isNone = true) := by
    rw [ha, Option.isNone_eq_false_iff.2 hi]
    simp
  have hres (w : Word) : ¬ (s.setReg a w).reservedReg a v = true := by
    have hA : inArr a 0xA0004 64 16 = false := by
      rw [inArr]
      simp only [List.mem_cons, List.not_mem_nil, or_false] at hb
      by_cases hlo : 0xA0004 ≤ a
      · rw [decide_eq_false (p := (a - 0xA0004) / 64 < 16) (by omega), Bool.and_false]
      · rw [decide_eq_false hlo]
        rfl
    have hE : inArr a 0xE0040 32 8 = false := by
      rw [inArr, decide_eq_false (by omega)]
      rfl
    rw [State.reservedReg_congr s (s.setReg a w) a v (by
      rw [State.rbit_setReg, if_neg]
      simp only [regGLOBAL_RATE]
      simp only [List.mem_cons, List.not_mem_nil, or_false] at hb
      omega) hA hE]
    exact Bool.eq_false_iff.1 hr
  rw [State.regWrite, if_neg hmap, if_neg (by rw [hs]; simp), hwrite, hengine, State.regStore, hclamp, State.checkReserved]
  exact if_neg (hres _)

theorem State.regWrite_unmapped (m : Master) (a : Nat) (v : Word) (h : a % 4 ≠ 0 ∨ regInfo a = none) : (s.regWrite m a v).1 = s.faultOccurs 0 := by
  rw [State.regWrite, if_pos (h.imp_right Option.isNone_iff_eq_none.2)]
  rfl

/-! ## Reads -/

theorem State.busRead_unlisted (m : Master) (a : Nat) (hp : csrPath m = true) (hm : m.val ≤ 7 → s.courseRatioBad = false) (hd : s.deep = false)
    (hh : s.held = false) (ha : a < 0x140000) (hi : regInfo a = none) : (s.busRead m a).1 = (0, (s.servePort 66 m.val).faultOccurs 0) := by
  have hk : mapKind a = 0 := if_pos (by omega)
  have hpath : kindPath m 0 = true := hp
  have hb : (s.servePort 66 m.val).ratioBad m a = false := State.ratioBad_register (s.servePort 66 m.val) m a hm ha
  have hread : (s.servePort 66 m.val).regRead m a = ((0, (s.servePort 66 m.val).unmapped), 1) := if_pos (.inr (Option.isNone_iff_eq_none.2 hi))
  rw [State.busRead, hd, hk, hpath, s.unhold_idle hh, s.serve_register m a (by omega)]
  dsimp only
  rw [State.kindRead, hk]
  rw [hread, State.readBack, hb]
  rfl

theorem State.busRead_pathless (m : Master) (a : Nat) (hp : csrPath m = false) (hd : s.deep = false) (ha : a < 0x01000000) :
    (s.busRead m a).1 = (0, (s.ridgeRecord 0 m.val false (BitVec.ofNat 32 a)).faultOccurs 0) := by
  have hk : mapKind a = 0 := if_pos ha
  have hpath : kindPath m 0 = false := hp
  have h7 : ¬ m.val ≤ 7 := fun h => by
    rw [csrPath, decide_eq_true h] at hp
    exact nomatch hp
  rw [State.busRead, hd, hk, hpath]
  exact congrArg (Prod.mk 0) (if_neg h7)

theorem rcBits_of_unlisted (a : Nat) (h : regInfo a = none) : rcBits a = 0 := by
  rw [rcBits, h]
  rfl

/-- The value of a register that has no count and no control word behind it: its live fields over the stored word, and its open bits. -/
def State.plainValue (a : Nat) : Word × State :=
  let stored := if shadowBits a ≠ 0 then s.tabGet a else s.reg a
  let v := match s.live a with | some l => merge stored l.1 l.2 | none => stored
  if s.openBits a = 0 then (v, s) else (merge v (s.openBits a) s.draw.1, s.draw.2)

/-- A register with RC fields has such a value. -/
theorem State.regValue_rc (a : Nat) (h : rcBits a ≠ 0) : s.regValue a = s.plainValue a := by
  have h1 : a ≠ regREF_DCO := fun e => h (e ▸ by decide)
  have h2 : a ≠ regFAULT_TESTSTAT := fun e => h (e ▸ by decide)
  have h3 : a ≠ regPWR_LPOTMR := fun e => h (e ▸ by decide)
  rw [State.regValue, if_neg fun e => h1 e.1, if_neg fun e => h2 e.1, if_neg fun e => h3 e.1]
  rfl

theorem State.regValue_rc_state (a : Nat) (h : rcBits a ≠ 0) : ∃ c, (s.regValue a).2 = { s with freeCtr := c } := by
  rw [s.regValue_rc a h, State.plainValue]
  split
  · exact ⟨s.freeCtr, rfl⟩
  · exact ⟨_, rfl⟩

theorem State.regValue_stored (a : Nat) (h : rcBits a ≠ 0) (hl : s.live a = none) (ho : s.openBits a = 0) (hs : shadowBits a = 0) :
    s.regValue a = (s.reg a, s) := by
  rw [s.regValue_rc a h, State.plainValue, hl, ho, hs]
  rfl

/-- A read of a register with RC fields clears them, but for the events of the same cycle. -/
theorem State.readClear_rc (a : Nat) (ev : Word) (h : rcBits a ≠ 0) :
    ∃ r c q, (s.readClear a ev).2 = { s with regs := r, freeCtr := c, scrUsed := q } ∧ (s.readClear a ev).1 = (s.regValue a).1 ∧
      c = (s.regValue a).2.freeCtr ∧ r = mapSet regReset s.regs a ((s.reg a &&& ~~~(rcBits a)) ||| (ev &&& rcBits a)) := by
  obtain ⟨c, hc⟩ := s.regValue_rc_state a h
  rw [State.readClear]
  dsimp only
  rw [if_neg h, hc]
  dsimp only
  split
  · exact ⟨_, c, _, rfl, rfl, rfl, rfl⟩
  · exact ⟨_, c, s.scrUsed, rfl, rfl, rfl, rfl⟩

theorem State.readBack_shape (m : Master) (a : Nat) (r : Word × State) : ∃ c, (s.readBack m a r).2 = { r.2 with freeCtr := c } := by
  rw [State.readBack]
  split
  · exact ⟨_, rfl⟩
  · exact ⟨r.2.freeCtr, rfl⟩

theorem State.readBack_good (m : Master) (a : Nat) (r : Word × State) (h : s.ratioBad m a = false) : s.readBack m a r = r :=
  if_neg (Bool.eq_false_iff.1 h)

theorem exec_rcFieldRead_rc (m : Master) (a ev : Word) (hp : csrPath m = true) (hd : s.deep = false) (hh : s.held = false) (hrc : rcBits a.toNat ≠ 0) :
    exec (.rcFieldRead m a ev) s = .next (((s.serve m a.toNat).readBack m a.toNat ((s.serve m a.toNat).readClear a.toNat ev)).2.returnTo m.val
      ((s.serve m a.toNat).readBack m a.toNat ((s.serve m a.toNat).readClear a.toNat ev)).1) := by
  show execRcFieldRead m a ev s = _
  have hc : ¬ (rcBits a.toNat = 0 ∨ (!csrPath m) = true ∨ s.deep = true) := by
    rw [hp, hd]
    simpa using hrc
  rw [execRcFieldRead, if_neg hc, s.unhold_idle hh]

theorem rcFieldRead_effect (m : Master) (a ev : Word) (hp : csrPath m = true) (hd : s.deep = false) (hh : s.held = false) (hrc : rcBits a.toNat ≠ 0) :
    ∃ t, exec (.rcFieldRead m a ev) s = .next t ∧
      t = { s with regs := t.regs, rdata := t.rdata, freeCtr := t.freeCtr, rr := t.rr, scrUsed := t.scrUsed } ∧
      t.reg a.toNat = (s.reg a.toNat &&& ~~~(rcBits a.toNat)) ||| (ev &&& rcBits a.toNat) ∧ (∀ b, b ≠ a.toNat → t.reg b = s.reg b) ∧
      (∀ k, k ≠ m.val → wmGet t.rdata k = wmGet s.rdata k) ∧
      (s.ratioBad m a.toNat = false → s.live a.toNat = none → s.openBits a.toNat = 0 → shadowBits a.toNat = 0 →
        wmGet t.rdata m.val = s.reg a.toNat ∧ t.freeCtr = s.freeCtr) := by
  have he := exec_rcFieldRead_rc s m a ev hp hd hh hrc
  obtain ⟨q, hq⟩ := s.serve_shape m a.toNat
  rw [hq] at he
  obtain ⟨r, c, w, h2, h1, hc, hr⟩ := State.readClear_rc { s with rr := q } a.toNat ev hrc
  obtain ⟨c', hb⟩ := State.readBack_shape { s with rr := q } m a.toNat (State.readClear { s with rr := q } a.toNat ev)
  rw [hb, h2] at he
  refine ⟨_, he, rfl, ?_, fun b hne => ?_, fun k hk => State.rdata_returnTo_ne _ _ hk, fun hgood hl ho hs => ?_⟩
  · rw [hr]
    exact mapGet_set_self _ _ _ _
  · rw [hr]
    exact mapGet_set_ne _ _ _ hne
  · have hrb := State.readBack_good { s with rr := q } m a.toNat (State.readClear { s with rr := q } a.toNat ev) hgood
    have hval := State.regValue_stored { s with rr := q } a.toNat hrc hl ho hs
    rw [hval] at h1 hc
    refine ⟨(State.rdata_returnTo_self _ _ _).trans ((congrArg Prod.fst hrb).trans h1), ?_⟩
    have hfree : c = c' := by
      have e := congrArg State.freeCtr hb
      rw [hrb, h2] at e
      exact e
    exact hfree.symm.trans hc

/-- Settles O35: the faults as software handles them, and the accesses to registers. -/
theorem faultsAndRegisters : Obligations.FaultsAndRegisters := by
  unfold Obligations.FaultsAndRegisters
  refine ⟨fun s m k v => ?_, fun s m a v ev => ?_⟩
  · intro arm
    have hfree (h : s.rbit regFAULT_INJCTRL 31 = false ∨ bit v 31 = false ∨ fld v 16 5 = s.rfld regFAULT_INJCTRL 16 5) :
        (bit (s.reg regFAULT_INJCTRL) 31 && bit v 31 && decide (fld v 16 5 ≠ fld (s.reg regFAULT_INJCTRL) 16 5)) = false := by
      rcases h with h | h | h
      · rw [show bit (s.reg regFAULT_INJCTRL) 31 = false from h]
        rfl
      · rw [h, Bool.and_false]
        rfl
      · rw [decide_eq_false fun hne => hne h, Bool.and_false]
    refine ⟨rfl, ?_, ?_, fun h => ⟨fun hc => ?_, fun hc => ?_⟩, fun h1 h2 h3 => congrArg Host.Outcome.next (if_pos ?_)⟩
    · obtain ⟨hf, hr, hl⟩ := clearAll_spec holdMaster ffrRest (s.setReg regFAULT_FFR0 0)
      refine ⟨_, rfl, hf.trans rfl, ?_, fun a ha => ⟨(hr a).trans (if_pos ha), (hl a).trans (if_pos ha)⟩, fun a ha h0 => ?_⟩
      · exact ((hr _).trans (if_neg (by decide))).trans (State.reg_setReg_self _ _ _)
      · exact ((hr a).trans (if_neg ha)).trans (State.reg_setReg_ne _ _ h0)
    · have hs := s.latchWords_frame holdMaster id s.reg ffrRest
      refine ⟨(s.latchWords holdMaster id s.reg ffrRest).returnTo m.val (s.reg regFAULT_FFR0), rfl, ?_, State.rdata_returnTo_self _ _ _, fun a ha => ?_⟩
      · rw [hs]
        rfl
      · rw [State.latched_returnTo]
        exact (s.latchWords_latched holdMaster id s.reg Function.injective_id ffrRest a).trans (if_pos ha)
    · rw [exec_injectionArm s m v (hfree h), regStore_injection, State.checkReserved, reservedReg_injection]
      exact congrArg Host.Outcome.next (if_neg fun hd => absurd (of_decide_eq_true hd) (by omega))
    · rw [exec_injectionArm s m v (hfree h), regStore_injection, State.checkReserved, reservedReg_injection]
      exact congrArg Host.Outcome.next (if_pos (decide_eq_true hc))
    · rw [show bit (s.reg regFAULT_INJCTRL) 31 = true from h1, h2, Bool.true_and, Bool.true_and]
      exact decide_eq_true h3
  · intro u
    refine ⟨rfl, mapGet_set_self (fun _ => 12) s.rr 66 m.val, fun hd => ⟨exec_registerWrite_deep s m a v hd, ?_⟩, fun hp hm hd hh => ⟨fun hb ha hi hs hr => ?_, fun ha h => ?_, fun ha hi => ?_⟩,
      fun hp hd ha => ⟨exec_registerWrite_pathless s m a v hp hd ha, ?_⟩, fun hp hd hh hrc => rcFieldRead_effect s m a ev hp hd hh hrc, rfl, rfl⟩
    · rw [exec_rcFieldRead_bus s m a ev (.inr (.inr hd)), State.busRead, if_pos hd]
    · have hlt : a.toNat < 0x140000 := by
        simp only [List.mem_cons, List.not_mem_nil, or_false] at hb
        omega
      rw [exec_registerWrite s m a v hp hm hd hh hlt]
      exact congrArg Host.Outcome.next (State.regWrite_plain u m a.toNat v hb ha hi hs hr)
    · rw [exec_registerWrite s m a v hp hm hd hh ha]
      exact congrArg Host.Outcome.next (State.regWrite_unmapped u m a.toNat v h)
    · rw [exec_rcFieldRead_bus s m a ev (.inl (rcBits_of_unlisted _ hi)), s.busRead_unlisted m a.toNat hp hm hd hh ha hi]
    · rw [exec_rcFieldRead_bus s m a ev (.inr (.inl hp)), s.busRead_pathless m a.toNat hp hd ha]

end Sys2Proof.Machine
end

section
/-! Slot words, port frames and the samples a frame captures and sends (R8, R213 to R216, R220, R221, R230, R237, R348). -/

namespace Sys2Proof.Machine

-- One theorem after another, so that the compile of the whole text stays within its memory.
set_option Elab.async false

/-! ## Words in slots -/

/-- The word that keeps the leading bits of another one. -/
theorem slotIn_toNat (w : Word) (len : Nat) (h : len ≤ 32) : (slotIn w len).toNat = w.toNat / 2 ^ (32 - len) * 2 ^ (32 - len) := by
  refine Nat.eq_of_testBit_eq fun i => ?_
  rw [← Nat.shiftRight_eq_div_pow, ← Nat.shiftLeft_eq, Nat.testBit_shiftLeft, Nat.testBit_shiftRight]
  rcases Nat.lt_or_ge i 32 with hi | hi
  · have hb : (slotIn w len).toNat.testBit i = (bit w i && bit (fmask (32 - len) len) i) := bit_and w (fmask (32 - len) len) i
    rw [hb, bit_fmask _ _ _ (by omega)]
    by_cases hl : 32 - len ≤ i
    · rw [decide_eq_true hl, decide_eq_true (show i < 32 - len + len by omega), Nat.add_sub_cancel' hl, Bool.and_true, Bool.and_true, Bool.true_and]
      rfl
    · rw [decide_eq_false hl, Bool.false_and, Bool.false_and, Bool.and_false]
  · have h0 (v : Word) : v.toNat.testBit i = false :=
      Nat.testBit_lt_two_pow (Nat.lt_of_lt_of_le v.isLt (Nat.pow_le_pow_right (by decide) hi))
    rw [h0]
    by_cases hl : 32 - len ≤ i
    · rw [Nat.add_sub_cancel' hl, h0, Bool.and_false]
    · rw [decide_eq_false hl, Bool.false_and]

theorem ofInt_toInt (v : Int) (hlo : -2 ^ 31 ≤ v) (hhi : v < 2 ^ 31) : (ofInt v).toInt = v := by
  rw [ofInt, BitVec.toInt_ofInt, Int.bmod_eq_of_le (by omega) (by omega)]

/-- A rounded value is at most half a step from the exact one. -/
theorem rconv_near (x : Int) (q : Nat) : 2 * (rconv x q * 2 ^ q - x) ≤ 2 ^ q ∧ 2 * (x - rconv x q * 2 ^ q) ≤ 2 ^ q := by
  have hp : (0 : Int) < 2 ^ q := Int.pow_pos (by decide)
  have hd := Int.mul_ediv_add_emod x (2 ^ q)
  have hl := Int.emod_nonneg x (Int.ne_of_gt hp)
  have hu := Int.emod_lt_of_pos x hp
  generalize ha : x / 2 ^ q = a at hd
  generalize hr : x % 2 ^ q = r at hd hl hu
  have he : rconv x q = if 2 * r > 2 ^ q ∨ (2 * r = 2 ^ q ∧ a % 2 = 1) then a + 1 else a := by rw [rconv, ha, hr]
  rw [he]
  generalize (2 : Int) ^ q = m at *
  split
  · have h1 : (a + 1) * m = m * a + m := by ring
    omega
  · have h1 : a * m = m * a := Int.mul_comm a m
    omega

/-- The sample of an output slot: a multiple of the slot's step, within half a step unless it is saturated. -/
theorem slotOut_spec (w : Word) (len : Nat) (hl : len ∈ [16, 24, 32]) :
    ∃ v : Int, (slotOut w len).toInt = v * 2 ^ (32 - len) ∧ -(2 ^ (len - 1)) ≤ v ∧ v ≤ 2 ^ (len - 1) - 1 ∧
      2 * (v * 2 ^ (32 - len) - w.toInt) ≤ 2 ^ (32 - len) ∧ (v < 2 ^ (len - 1) - 1 → 2 * (w.toInt - v * 2 ^ (32 - len)) ≤ 2 ^ (32 - len)) := by
  have hw1 := BitVec.le_toInt w
  have hw2 := BitVec.toInt_lt (x := w)
  obtain ⟨n1, n2⟩ := rconv_near w.toInt (32 - len)
  generalize hr : rconv w.toInt (32 - len) = r at n1 n2
  have he : slotOut w len = ofInt ((if (2 : Int) ^ (len - 1) - 1 < r then 2 ^ (len - 1) - 1 else r) * 2 ^ (32 - len)) := by
    rw [← hr]
    rfl
  rw [he]
  generalize hv : (if (2 : Int) ^ (len - 1) - 1 < r then (2 : Int) ^ (len - 1) - 1 else r) = v
  have h3 : len = 16 ∨ len = 24 ∨ len = 32 := by
    rwa [List.mem_cons, List.mem_cons, List.mem_singleton] at hl
  have hb : -(2 ^ (len - 1)) ≤ v ∧ v ≤ 2 ^ (len - 1) - 1 ∧ 2 * (v * 2 ^ (32 - len) - w.toInt) ≤ 2 ^ (32 - len) ∧
      (v < 2 ^ (len - 1) - 1 → 2 * (w.toInt - v * 2 ^ (32 - len)) ≤ 2 ^ (32 - len)) := by
    rw [← hv]
    rcases h3 with rfl | rfl | rfl <;> (split <;> omega)
  obtain ⟨h1, h2, hrest⟩ := hb
  refine ⟨v, ofInt_toInt _ ?_ ?_, h1, h2, hrest⟩ <;> (rcases h3 with rfl | rfl | rfl <;> omega)

/-! ## Levels -/

theorem levelled_exact (x : Word) (n : Int) (h : n = x.toInt * 2 ^ 18) : ofInt (rconv n 18) = x := by
  obtain ⟨h1, h2⟩ := rconv_near n 18
  have he : rconv n 18 = x.toInt := by omega
  rw [he, ofInt, BitVec.ofInt_toInt]

theorem levelled_zero (x : Word) (l v m : Nat) (h : l = 0 ∨ v = 0 ∨ m = 0) : levelled x l v m = 0 := by
  have hz : x.toInt * l * v * m = 0 := by
    rcases h with rfl | rfl | rfl <;> ring
  rw [levelled, hz]
  rfl

theorem levelled_laws (x : Word) (f m : Nat) : levelled x 64 64 m = levelled x m 64 64 ∧ levelled x 64 64 64 = x ∧ levelled x f m 0 = 0 ∧
    levelled x f 0 m = 0 ∧ levelled x 0 f m = 0 := by
  refine ⟨?_, levelled_exact x _ (by ring), levelled_zero x f m 0 (.inr (.inr rfl)), levelled_zero x f 0 m (.inr (.inl rfl)), levelled_zero x 0 f m (.inl rfl)⟩
  have h : x.toInt * (64 : Nat) * (64 : Nat) * m = x.toInt * m * (64 : Nat) * (64 : Nat) := by ring
  rw [levelled, levelled, h]

theorem stepTo_spec (m t : Nat) (hm : m ≤ 64) (ht : t ≤ 64) : (stepTo m t = t ∨ stepTo m t = m + 1 ∨ stepTo m t + 1 = m) ∧ stepTo m t ≤ 64 := by
  unfold stepTo
  split
  · omega
  · split <;> omega

/-! ## Samples for the rate-conversion channels -/

/-- The place of the next sample of a channel (R233). -/
def State.nextPlace (s : State) (c : Nat) : Int :=
  match s.asrcPlaced c with
  | e :: _ => e.1 + s.fi
  | [] => (s.now * s.asrcRateHz c : Nat)

theorem State.nextPlace_conv (u : State) (k : Conversions) (c : Nat) (h : ({ u with conv := k } : State).asrcPlaced c = u.asrcPlaced c) :
    ({ u with conv := k } : State).nextPlace c = u.nextPlace c := by
  rw [State.nextPlace, State.nextPlace, h]
  rfl

theorem State.asrcPlaced_placeNext_self (s : State) (c : Nat) (w : Word) : (s.asrcPlaceNext c w).asrcPlaced c = (s.nextPlace c, w) :: s.asrcPlaced c := by
  have h : mapFind (s.asrcPlaceNext c w).conv.hist c = some ((s.nextPlace c, w) :: s.asrcPlaced c) := mapFind_ins_self _ _ _ (mapFind_del_self _ _)
  rw [State.asrcPlaced, h]
  rfl

theorem State.asrcPlaced_placeNext_ne (s : State) {c d : Nat} (w : Word) (h : d ≠ c) : (s.asrcPlaceNext c w).asrcPlaced d = s.asrcPlaced d := by
  have hd : mapFind (s.asrcPlaceNext c w).conv.hist d = mapFind s.conv.hist d := (mapFind_ins_ne _ _ h).trans (mapFind_del_ne _ h)
  rw [State.asrcPlaced, hd]
  rfl

/-- A sample for the channels of a list: each that stands in it once takes it, and nothing else changes. -/
theorem State.placeAll_spec (l : List Nat) (w : Word) (s : State) :
    let t := l.foldl (fun (t : State) c => t.asrcPlaceNext c w) s
    (∃ k, t = { s with conv := k }) ∧ (∀ c, c ∉ l → t.asrcPlaced c = s.asrcPlaced c) ∧
      ∀ c, l.count c = 1 → t.asrcPlaced c = (s.nextPlace c, w) :: s.asrcPlaced c := by
  induction l generalizing s with
  | nil => exact ⟨⟨s.conv, rfl⟩, fun _ _ => rfl, fun c h => absurd h (by simp)⟩
  | cons x l ih =>
    obtain ⟨⟨k, hk⟩, hout, hone⟩ := ih (s.asrcPlaceNext x w)
    refine ⟨⟨k, hk⟩, fun c hc => ?_, fun c hc => ?_⟩
    · exact (hout c fun h => hc (List.mem_cons_of_mem x h)).trans (State.asrcPlaced_placeNext_ne s w fun e => hc (e ▸ List.mem_cons_self))
    · by_cases he : x = c
      · subst he
        have h0 : x ∉ l := List.count_eq_zero.1 (by rw [List.count_cons_self] at hc; omega)
        exact (hout x h0).trans (State.asrcPlaced_placeNext_self s x w)
      · have h1 : l.count c = 1 := by rwa [List.count_cons_of_ne he] at hc
        have hp : (s.asrcPlaceNext x w).asrcPlaced c = s.asrcPlaced c := State.asrcPlaced_placeNext_ne s w (Ne.symm he)
        have hn : (s.asrcPlaceNext x w).nextPlace c = s.nextPlace c := State.nextPlace_conv s _ c hp
        exact (hone c h1).trans (by rw [hp, hn])

theorem State.endpointSample_spec (s : State) (etype eidx : Nat) (w : Word) :
    (∃ k, s.endpointSample etype eidx w = { s with conv := k }) ∧
      (∀ c, c ∉ s.asrcTakers etype eidx → (s.endpointSample etype eidx w).asrcPlaced c = s.asrcPlaced c) ∧
      ∀ c, (s.asrcTakers etype eidx).count c = 1 → (s.endpointSample etype eidx w).asrcPlaced c = (s.nextPlace c, w) :: s.asrcPlaced c :=
  State.placeAll_spec _ _ _

/-- A channel takes the samples of one endpoint only. -/
theorem State.asrcTakers_unique (s : State) {e i j c : Nat} (hi : c ∈ s.asrcTakers e i) (hj : c ∈ s.asrcTakers e j) : i = j := by
  have hx {k : Nat} (h : c ∈ s.asrcTakers e k) : s.asrcIdx c = k := by
    have h1 := (List.mem_filter.1 h).2
    rw [Bool.and_eq_true, decide_eq_true_eq] at h1
    exact h1.2
  rw [← hx hi, hx hj]

/-- Consecutive samples of an endpoint range, from number `n` on. -/
theorem State.portSamples_from (b : Nat) (ws : List Word) (n : Nat) (u : State) :
    let t := (ws.zipIdx n).foldl (fun (t : State) e => t.endpointSample 1 (b + e.2) e.1) u
    (∃ k, t = { u with conv := k }) ∧
      (∀ c, (∀ i, n ≤ i → i < n + ws.length → c ∉ u.asrcTakers 1 (b + i)) → t.asrcPlaced c = u.asrcPlaced c) ∧
      ∀ i c, n ≤ i → i < n + ws.length → (u.asrcTakers 1 (b + i)).count c = 1 → t.asrcPlaced c = (u.nextPlace c, nthD ws (i - n) 0) :: u.asrcPlaced c := by
  induction ws generalizing n u with
  | nil => exact ⟨⟨u.conv, rfl⟩, fun _ _ => rfl, fun i c h1 h2 => absurd h2 (Nat.not_lt.2 h1)⟩
  | cons w ws ih =>
    obtain ⟨⟨k1, e1⟩, out1, one1⟩ := State.endpointSample_spec u 1 (b + n) w
    obtain ⟨⟨k2, e2⟩, out2, one2⟩ := ih (n + 1) (u.endpointSample 1 (b + n) w)
    have htake (i : Nat) : (u.endpointSample 1 (b + n) w).asrcTakers 1 (b + i) = u.asrcTakers 1 (b + i) := by
      rw [e1]
      rfl
    refine ⟨⟨k2, ?_⟩, fun c hc => ?_, fun i c h1 h2 hcount => ?_⟩
    · rw [e1] at e2
      rw [List.zipIdx_cons, List.foldl_cons, e1]
      exact e2
    · refine (out2 c fun i h1 h2 => ?_).trans (out1 c (hc n (Nat.le_refl n) (by rw [List.length_cons]; omega)))
      rw [htake]
      exact hc i (by omega) (by rw [List.length_cons]; omega)
    · have hmem : c ∈ u.asrcTakers 1 (b + i) := List.count_pos_iff.1 (by omega)
      rw [List.length_cons] at h2
      rcases Nat.eq_or_lt_of_le h1 with rfl | h1
      · refine (out2 c fun j h3 _ hj => ?_).trans ?_
        · rw [htake] at hj
          have := u.asrcTakers_unique hmem hj
          omega
        · rw [Nat.sub_self]
          exact one1 c hcount
      · have hno : c ∉ u.asrcTakers 1 (b + n) := fun hn => by
          have := u.asrcTakers_unique hmem hn
          omega
        have hp := out1 c hno
        refine (one2 i c h1 (by omega) (by rw [htake]; exact hcount)).trans ?_
        have hnx : (u.endpointSample 1 (b + n) w).nextPlace c = u.nextPlace c := by
          rw [e1] at hp ⊢
          exact State.nextPlace_conv u k1 c hp
        have hix : i - n = i - (n + 1) + 1 := by omega
        rw [hp, hnx, hix]
        rfl

theorem State.portSamples_spec (u : State) (p : Fin 16) (ws : List Word) (h : ws.length = 32) :
    u.portSamples p ws = { u with conv := (u.portSamples p ws).conv } ∧
      (∀ i c, i < 32 → (u.asrcTakers 1 (32 * p.val + i)).count c = 1 → (u.portSamples p ws).asrcPlaced c = (u.nextPlace c, nthD ws i 0) :: u.asrcPlaced c) ∧
      ∀ c, (∀ i, i < 32 → c ∉ u.asrcTakers 1 (32 * p.val + i)) → (u.portSamples p ws).asrcPlaced c = u.asrcPlaced c := by
  obtain ⟨⟨k, hk⟩, hout, hone⟩ := State.portSamples_from (32 * p.val) ws 0 u
  refine ⟨?_, fun i c hi hc => hone i c (Nat.zero_le i) (by omega) hc, fun c hc => hout c fun i _ hi => hc i (by omega)⟩
  have he : u.portSamples p ws = { u with conv := k } := hk
  rw [he]

/-! ## Frames of a port -/

variable {s : State} {p : Fin 16}

/-- The input side of a port is replaced. -/
def State.setBuf (s : State) (p : Fin 16) (b : InBuf) (sl : Bool) : State := s.setPort p { s.port p with buf := b, slipped := sl }

/-- The words of a completed frame: the slots of the port, with zeros above them (R214). -/
def frameWords (c : Word) (slots : List Word) : List Word := (List.range 32).map fun i => if i < cfgSlots c then slotIn (nthD slots i 0) (cfgWlen c) else 0

theorem exec_tdmFrameEnd_off (slots : List Word) (h : s.portOn p = false) : exec (.tdmFrameEnd p slots) s = .next s := by
  refine congrArg Host.Outcome.next (if_pos ?_)
  rw [h]
  rfl

theorem exec_tdmFrameEnd_invalid (slots : List Word) (h : s.portOn p = true) (hv : s.portValid p = false) :
    exec (.tdmFrameEnd p slots) s = .next (s.setRbit (regTDM_STAT p.val) 30) := by
  refine congrArg Host.Outcome.next ((if_neg ?_).trans (if_neg ?_))
  · rw [h]
    exact Bool.false_ne_true
  · rw [hv]
    exact Bool.false_ne_true

theorem exec_tdmFrameEnd_valid (slots : List Word) (h : s.portOn p = true) (hv : s.portValid p = true) :
    exec (.tdmFrameEnd p slots) s = .next ((s.portFrame p (frameWords (s.port p).cfg slots)).portSamples p (frameWords (s.port p).cfg slots)) := by
  refine congrArg Host.Outcome.next ((if_neg ?_).trans (if_pos hv))
  rw [h]
  exact Bool.false_ne_true

theorem State.portFrame_master (ws : List Word) (h : cfgMaster (s.port p).cfg = true) :
    s.portFrame p ws = s.setPort p { s.port p with buf := { (s.port p).buf with taken := ws, cap := ws } } := if_pos h

theorem State.portFrame_converted (ws : List Word) (h : cfgMaster (s.port p).cfg = false) (ha : bit (s.port p).cfg 16 = true) : s.portFrame p ws = s :=
  (if_neg (Bool.eq_false_iff.1 h)).trans (if_pos ha)

theorem InBuf.complete_room (b : InBuf) (f : Nat) (ws : List Word) (h : b.held.length < 2) : b.complete f ws = { b with held := b.held ++ [(f, ws)] } := by
  rw [InBuf.complete, if_neg (Nat.not_le.2 h)]

theorem InBuf.complete_full (b : InBuf) (f : Nat) (ws : List Word) (h : 2 ≤ b.held.length) : b.complete f ws = { b with held := b.held.tail ++ [(f, ws)] } := by
  rw [InBuf.complete, if_pos h, List.drop_one]

theorem State.portFrame_held (ws : List Word) (h : cfgMaster (s.port p).cfg = false) (ha : bit (s.port p).cfg 16 = false) (hl : (s.port p).buf.held.length < 2) :
    s.portFrame p ws = s.setBuf p { (s.port p).buf with held := (s.port p).buf.held ++ [(s.now, ws)] } (s.port p).slipped := by
  refine (if_neg (Bool.eq_false_iff.1 h)).trans ((if_neg (Bool.eq_false_iff.1 ha)).trans ((if_neg (Nat.not_le.2 hl)).trans ?_))
  rw [InBuf.complete_room _ _ _ hl, decide_eq_false (Nat.not_le.2 hl), Bool.or_false]
  rfl

theorem State.portFrame_overrun (ws : List Word) (h : cfgMaster (s.port p).cfg = false) (ha : bit (s.port p).cfg 16 = false) (hl : 2 ≤ (s.port p).buf.held.length) :
    s.portFrame p ws = ((s.setBuf p { (s.port p).buf with held := (s.port p).buf.held.tail ++ [(s.now, ws)] } true).portSlip p true).putRbit (regTDM_STAT p.val) 24 false := by
  refine (if_neg (Bool.eq_false_iff.1 h)).trans ((if_neg (Bool.eq_false_iff.1 ha)).trans ((if_pos hl).trans ?_))
  rw [InBuf.complete_full _ _ _ hl, decide_eq_true hl, Bool.or_true]
  rfl

/-- A valid slave whose slots reach the matrix directly. -/
structure DirectSlave (s : State) (p : Fin 16) : Prop where
  on : s.portOn p = true
  slave : cfgMaster (s.port p).cfg = false
  valid : s.portValid p = true
  direct : bit (s.port p).cfg 16 = false

theorem State.portSlave_of (h : s.portOn p = true) (hm : cfgMaster (s.port p).cfg = false) : s.portSlave p = true := by
  rw [State.portSlave, h, hm]
  rfl

theorem DirectSlave.guard (h : DirectSlave s p) : (s.portSlave p && s.portValid p && !bit (s.port p).cfg 16) = true := by
  rw [State.portSlave_of h.on h.slave, h.valid, h.direct]
  rfl

theorem exec_captureDeadline_held (h : DirectSlave s p) (e : Nat × List Word) (rest : List (Nat × List Word)) (hh : (s.port p).buf.held = e :: rest) :
    exec (.captureDeadline p) s = .next ((s.setBuf p { (s.port p).buf with held := rest, taken := e.2, begun := true, cap := e.2 } (s.port p).slipped).putRbit (regTDM_STAT p.val) 24 ((s.port p).slipped && decide (e.1 < s.now))) := by
  have hb : (s.port p).buf.held.isEmpty = false := by
    rw [hh]
    rfl
  refine congrArg Host.Outcome.next ((if_pos h.guard).trans ((if_neg (Bool.eq_false_iff.1 hb)).trans ?_))
  have ht : (s.port p).buf.takeNext = { (s.port p).buf with held := rest, taken := e.2, begun := true, cap := e.2 } := by
    generalize (s.port p).buf = b at hh
    rw [InBuf.takeNext, hh]
  rw [ht, hh]
  rfl

theorem exec_captureDeadline_empty (h : DirectSlave s p) (hh : (s.port p).buf.held = []) (hb : (s.port p).buf.begun = true) :
    exec (.captureDeadline p) s = .next ((s.setBuf p { (s.port p).buf with cap := (s.port p).buf.taken } true).portSlip p true) := by
  have he : (s.port p).buf.held.isEmpty = true := by
    rw [hh]
    rfl
  refine congrArg Host.Outcome.next ((if_pos h.guard).trans ((if_pos he).trans ((if_pos hb).trans ?_)))
  have ht : (s.port p).buf.takeNext = { (s.port p).buf with cap := (s.port p).buf.taken } := by
    generalize (s.port p).buf = b at hh
    cases b
    cases hh
    rfl
  rw [ht]
  rfl

theorem exec_resyncSlip_port (h : s.portSlave p = true) :
    exec (.resyncSlip (.port p)) s = .next ((((s.setReg (regTDM_RESYNC p.val) (satAdd (s.reg (regTDM_RESYNC p.val)) 0 16 1)).setRbit (regTDM_STAT p.val) 26).setPort p
      { s.port p with buf := (s.port p).buf.resync s.now }).raiseEvent 49 (BitVec.ofNat 32 p.val)) := congrArg Host.Outcome.next (if_pos h)

/-! ## Frame starts -/

theorem State.portSlips_iff : s.portSlips p = true ↔ cfgMaster (s.port p).cfg = false ∧ bit (s.port p).cfg 16 = false := by
  rw [State.portSlips, Bool.and_eq_true, Bool.not_eq_true', Bool.not_eq_true']

theorem exec_tdmFrameStart_off (h : s.portOn p = false) : exec (.tdmFrameStart p) s = .next s := by
  refine congrArg Host.Outcome.next (if_pos ?_)
  rw [h]
  rfl

/-- A port with a clock in a ticking module. -/
structure PortRuns (s : State) (p : Fin 16) : Prop where
  on : s.portOn p = true
  valid : s.portValid p = true
  ticking : s.ticking = true

theorem PortRuns.guard (h : PortRuns s p) : ¬ (!(s.portOn p && s.portValid p && s.ticking)) = true := by
  rw [h.on, h.valid, h.ticking]
  exact Bool.false_ne_true

theorem exec_tdmFrameStart_first (h : PortRuns s p) (hs : (s.port p).sent = none) : exec (.tdmFrameStart p) s = .next (s.portSend p) := by
  refine congrArg Host.Outcome.next ((if_neg h.guard).trans ?_)
  rw [hs]

theorem exec_tdmFrameStart_new (h : PortRuns s p) (j : Nat) (hs : (s.port p).sent = some j) (hj : j < s.now ∨ bit (s.port p).cfg 16 = true) :
    exec (.tdmFrameStart p) s = .next (if (decide (j + 1 < s.now) && s.portSlips p) = true then (s.portSend p).portSlip p false else s.portSend p) := by
  refine congrArg Host.Outcome.next ((if_neg h.guard).trans ?_)
  rw [hs]
  exact if_pos hj

theorem exec_tdmFrameStart_repeat (h : PortRuns s p) (j : Nat) (hs : (s.port p).sent = some j) (hj : ¬ (j < s.now ∨ bit (s.port p).cfg 16 = true)) :
    exec (.tdmFrameStart p) s = .next (if s.portSlips p = true then s.portSlip p false else s) := by
  refine congrArg Host.Outcome.next ((if_neg h.guard).trans ?_)
  rw [hs]
  exact if_neg hj

/-! ## Output slots -/

/-- The level of an output slot in the frame that begins (R221). -/
def State.slotLevel (s : State) (p : Fin 16) (i : Nat) : Nat :=
  stepTo (nthD (s.port p).levOut i 0) (if bit (s.tabGet (regTDM_MASKOUT p.val)) i then 64 else 0)

theorem State.slotPin_silent (i k : Nat) (h : cfgSlots (s.port p).cfg ≤ i ∨ s.slotLevel p i = 0) :
    s.slotPin p i k = (if bit (s.port p).cfg 15 then none else some 0, s) := if_pos h

theorem State.slotPin_value (i k : Nat) (h : i < cfgSlots (s.port p).cfg) (hl : s.slotLevel p i ≠ 0) :
    s.slotPin p i k = (some (slotOut (s.outLevelled (s.slotValue p i k).1 (s.slotLevel p i) (s.port p).lev) (cfgWlen (s.port p).cfg)), (s.slotValue p i k).2) :=
  if_neg fun e => e.elim (Nat.not_le.2 h) hl

theorem State.slotValue_selector (i k : Nat) (h : s.asrcDriver 1 (32 * p.val + i) = none) :
    s.slotValue p i k = (if bit (s.port p).cfg 16 then 0 else s.selValue (slotSelAddr p.val i) k, s) := by
  rw [State.slotValue, State.endpointValue, h]
  cases bit (s.port p).cfg 16 <;> rfl

theorem State.slotValue_channel (i k c : Nat) (h : s.asrcDriver 1 (32 * p.val + i) = some c) : s.slotValue p i k = s.asrcSample c k := by
  have hn : ¬ (bit (s.port p).cfg 16 && (s.asrcDriver 1 (32 * p.val + i)).isNone) = true := by
    rw [h, Option.isNone_some, Bool.and_false]
    exact Bool.false_ne_true
  rw [State.slotValue, if_neg hn, State.endpointValue, h]

/-- Settles O37: a slot word is the value rounded to the slot's step; the samples of a frame reach the channels one after another. -/
theorem portSamples : Obligations.PortSamples := by
  refine ⟨fun w len hl => ⟨slotIn_toNat w len ?_, slotOut_spec w len hl⟩, fun s p slots h => ⟨exec_tdmFrameEnd_off slots h, exec_tdmFrameStart_off h⟩,
    fun u p ws h => u.portSamples_spec p ws h, ?_, ?_⟩
  · rw [List.mem_cons, List.mem_cons, List.mem_singleton] at hl
    omega
  · intro s p slots hon
    refine ⟨fun hm => ?_, fun _ hv => exec_tdmFrameEnd_invalid slots hon hv, fun hm hv => ⟨fun ha => ?_, fun ha hl => ?_, fun ha hl => ?_, fun ha => ?_⟩,
      fun hm => exec_resyncSlip_port (State.portSlave_of hon hm), fun hv ht => ?_⟩
    · have hv : s.portValid p = true := by rw [State.portValid, if_pos hm, hon]
      rw [exec_tdmFrameEnd_valid slots hon hv, State.portFrame_master _ hm]
      rfl
    · rw [exec_tdmFrameEnd_valid slots hon hv, State.portFrame_converted _ hm ha]
      rfl
    · rw [exec_tdmFrameEnd_valid slots hon hv, State.portFrame_held _ hm ha hl]
      rfl
    · rw [exec_tdmFrameEnd_valid slots hon hv, State.portFrame_overrun _ hm ha hl]
      rfl
    · have hd : DirectSlave s p := ⟨hon, hm, hv, ha⟩
      exact ⟨fun e rest hh => exec_captureDeadline_held hd e rest hh, exec_captureDeadline_empty hd⟩
    · have hr : PortRuns s p := ⟨hon, hv, ht⟩
      refine ⟨exec_tdmFrameStart_first hr, fun j hs hj hn => ?_, fun j hs hj hn => ?_, fun j hs hj hn => ?_, fun j hs hj hm ha => ?_, fun ho => ?_⟩
      · refine (exec_tdmFrameStart_new hr j hs hj).trans (congrArg Host.Outcome.next (if_neg fun he => ?_))
        rw [Bool.and_eq_true, decide_eq_true_eq, State.portSlips_iff] at he
        obtain ⟨hlt, hslips⟩ := he
        exact hn.elim (fun h => h hslips) (fun h => by omega)
      · refine (exec_tdmFrameStart_new hr j hs (.inl (by omega))).trans (congrArg Host.Outcome.next (if_pos ?_))
        rw [decide_eq_true hj, State.portSlips_iff.2 hn]
        rfl
      · refine (exec_tdmFrameStart_repeat hr j hs ?_).trans (congrArg Host.Outcome.next (if_pos (State.portSlips_iff.2 hn)))
        rw [hn.2]
        exact fun h => h.elim (Nat.not_lt.2 hj) Bool.false_ne_true
      · refine (exec_tdmFrameStart_repeat hr j hs ?_).trans (congrArg Host.Outcome.next (if_neg fun he => ?_))
        · rw [ha]
          exact fun h => h.elim (Nat.not_lt.2 hj) Bool.false_ne_true
        · exact Bool.false_ne_true ((State.portSlips_iff.1 he).1.symm.trans hm)
      · refine if_pos ?_
        rw [ho]
        rfl
  · intro s p i k
    refine ⟨State.slotPin_silent i k, fun h hl hd => ?_, fun c h hl hd => ?_, fun x f m => levelled_laws x f m, stepTo_spec⟩
    · rw [State.slotPin_value i k h hl, State.slotValue_selector i k hd]
      rfl
    · rw [State.slotPin_value i k h hl, State.slotValue_channel i k c hd]
      rfl

end Sys2Proof.Machine
end

section
/-! Clock supervision of ports (R212, R217 to R219, R221, R223, R236). -/

namespace Sys2Proof.Machine

-- One theorem after another, so that the compile of the whole text stays within its memory.
set_option Elab.async false

/-! ## Blocks of registers -/

/-- Only registers of the blocks of a list may differ; a block is an address divided by 0x10000. -/
def OnlyBlocks (bs : List Nat) (s t : State) : Prop := ∀ a, a / 0x10000 ∉ bs → t.reg a = s.reg a

namespace OnlyBlocks

variable {bs : List Nat} {s t u : State}

theorem refl (bs : List Nat) (s : State) : OnlyBlocks bs s s := fun _ _ => rfl

theorem trans (h : OnlyBlocks bs s t) (g : OnlyBlocks bs t u) : OnlyBlocks bs s u := fun a ha => (g a ha).trans (h a ha)

/-- Only the registers matter. -/
theorem of_regs (h : OnlyBlocks bs s t) (e : u.regs = t.regs) : OnlyBlocks bs s u := fun a ha => by
  rw [State.reg, e]
  exact h a ha

theorem setReg {a : Nat} (ha : a / 0x10000 ∈ bs) (v : Word) (h : OnlyBlocks bs s t) : OnlyBlocks bs s (t.setReg a v) := fun b hb =>
  (State.reg_setReg_ne _ _ fun e : b = a => hb (e ▸ ha)).trans (h b hb)

theorem raiseEvent {e : Nat} {pl : Word} (h4 : 4 ∈ bs) (he : e < 128) (h : OnlyBlocks bs s t) : OnlyBlocks bs s (t.raiseEvent e pl) := fun a ha =>
  (State.raiseEvent_reg_block t e pl a he fun e => ha (e ▸ h4)).trans (h a ha)

theorem ite {c : Prop} [Decidable c] (h : OnlyBlocks bs s t) (g : OnlyBlocks bs s u) : OnlyBlocks bs s (if c then t else u) := by
  split
  · exact h
  · exact g

theorem foldl {α : Type} {f : State → α → State} {l : List α} (hf : ∀ t, ∀ a ∈ l, OnlyBlocks bs s t → OnlyBlocks bs s (f t a)) (h : OnlyBlocks bs s t) :
    OnlyBlocks bs s (l.foldl f t) := by
  induction l generalizing t with
  | nil => exact h
  | cons a l ih => exact ih (fun t b hb => hf t b (List.mem_cons_of_mem a hb)) (hf t a List.mem_cons_self h)

theorem causeBegins {src : Nat} (h3 : 3 ∈ bs) (h4 : 4 ∈ bs) (hs : src < 256) (h : OnlyBlocks bs s t) : OnlyBlocks bs s (t.causeBegins src) := fun a ha => by
  have hn : a / 0x10000 ≠ 4 := fun e => ha (e ▸ h4)
  rw [State.causeBegins_reg t src a hs (fun e => ha (e ▸ h3)) (fun e => hn (e ▸ rfl)) (fun e => hn (e ▸ rfl)) (fun e => hn (e ▸ rfl)) fun e => hn (e ▸ rfl)]
  exact h a ha

end OnlyBlocks

/-! ## The rate-conversion channels follow their endpoints -/

theorem State.asrcOn_lt (s : State) (c : Nat) (h : c ∈ s.asrcOn) : c < 512 := by
  obtain ⟨e, _, he⟩ := List.mem_filterMap.1 h
  have hc := ite_eq_iff.1 he
  rcases hc with ⟨⟨h1, h2, _⟩, h3⟩ | ⟨_, h3⟩
  · cases h3
    omega
  · cases h3

theorem chstat_block (c : Nat) (h : c < 512) : regASRC_CHSTAT c / 0x10000 = 9 := by
  rw [regASRC_CHSTAT]
  omega

section
variable {bs : List Nat} {s t : State} {c : Nat}

theorem OnlyBlocks.asrcUnlocked {acq : Bool} {rate : Nat} (h4 : 4 ∈ bs) (h9 : 9 ∈ bs) (hc : c < 512) (h : OnlyBlocks bs s t) :
    OnlyBlocks bs s (t.asrcUnlocked c acq rate) := by
  have h1 : OnlyBlocks bs s (((t.setReg (regASRC_CHSTAT c) (t.asrcStatus c false acq false rate)).count regASRC_UNLOCK_CNT 1).setRbit regASRC_STATUS 29) :=
    setReg h9 _ (setReg h9 _ (setReg (chstat_block c hc ▸ h9) _ h))
  exact raiseEvent h4 (by decide) (h1.of_regs rfl)

theorem OnlyBlocks.asrcFollow (h4 : 4 ∈ bs) (h9 : 9 ∈ bs) (hc : c < 512) (h : OnlyBlocks bs s t) : OnlyBlocks bs s (t.asrcFollow c) :=
  ite (asrcUnlocked h4 h9 hc h) (setReg (chstat_block c hc ▸ h9) _ (h.of_regs rfl))

theorem OnlyBlocks.asrcEndpoints {p : Nat → Nat → Bool} (h4 : 4 ∈ bs) (h9 : 9 ∈ bs) (h : OnlyBlocks bs s t) : OnlyBlocks bs s (t.asrcEndpoints p) :=
  foldl (fun _ c hc h => asrcFollow h4 h9 (t.asrcOn_lt c (List.mem_filter.1 hc).1) h) h

end

/-! ## A port that is marked invalid -/

variable {s : State} {p : Fin 16}

/-- What becomes of a port that is marked invalid, before the channels follow it (R217, R218). -/
def State.portUnclocked (u : State) (p : Fin 16) : State :=
  ((((u.putRbit (regTDM_STAT p.val) 31 false).setRbit (regTDM_STAT p.val) 25).modPort p fun q => { q with buf := { q.buf with held := [], begun := false } }).causeBegins
    (56 + p.val)).raiseEvent 50 (BitVec.ofNat 32 p.val)

theorem State.portInvalid_still (u : State) (p : Fin 16) : u.portInvalid p false = (u.portUnclocked p).asrcEndpoints (onPort p) := rfl

theorem State.portInvalid_moved (u : State) (p : Fin 16) :
    u.portInvalid p true = ((u.portUnclocked p).raiseEvent 51 (BitVec.ofNat 32 p.val)).asrcEndpoints (onPort p) := rfl

theorem tdmStat_ne (p : Fin 16) (i : Nat) : regTDM_CFG i ≠ regTDM_STAT p.val ∧ regTDM_RATE i ≠ regTDM_STAT p.val ∧ regGLOBAL_RATE ≠ regTDM_STAT p.val := by
  simp only [regTDM_CFG, regTDM_STAT, regTDM_RATE, regGLOBAL_RATE]
  omega

/-- Marking a port invalid changes TDM.STAT of the port and registers of the blocks FAULT, EVT and ASRC. -/
theorem State.portInvalid_reg (u : State) (p : Fin 16) (a : Nat) (hb : a / 0x10000 ∉ [3, 4, 9]) (ha : a ≠ regTDM_STAT p.val) :
    (u.portInvalid p false).reg a = u.reg a := by
  let s1 := ((u.putRbit (regTDM_STAT p.val) 31 false).setRbit (regTDM_STAT p.val) 25).modPort p fun q => { q with buf := { q.buf with held := [], begun := false } }
  have h1 : s1.reg a = u.reg a := (State.reg_setReg_ne _ _ ha).trans (State.reg_setReg_ne _ _ ha)
  have h2 : OnlyBlocks [3, 4, 9] s1 (u.portInvalid p false) :=
    .asrcEndpoints (by decide) (by decide) (.raiseEvent (by decide) (by decide) (.causeBegins (by decide) (by decide) (by omega) (.refl _ _)))
  exact (h2 a hb).trans h1

theorem State.cfgRefused_congr {s t : State} (c : Word) (h : t.reg regGLOBAL_RATE = s.reg regGLOBAL_RATE) : t.cfgRefused c = s.cfgRefused c := by
  have hb : t.rbit regGLOBAL_RATE 0 = s.rbit regGLOBAL_RATE 0 := by rw [State.rbit, h]; rfl
  rw [State.cfgRefused, State.cfgRefused, State.fi, State.fi, State.framesPerMs, State.framesPerMs, hb]

/-! ## Clock losses and changes of rate -/

theorem exec_portClockLoss_valid (h : s.portSlave p = true) (hv : s.portValid p = true) :
    exec (.portClockLoss p) s = .next ((s.putRbit (regTDM_STAT p.val) 30 false).portInvalid p false) := by
  refine congrArg Host.Outcome.next (if_pos ?_)
  rw [h, hv]
  rfl

theorem exec_portRateChange_valid (h : s.portSlave p = true) (hv : s.portValid p = true) :
    exec (.portRateChange (.port p)) s = .next ((s.portInvalid p true).setRbit (regTDM_STAT p.val) 30) := by
  refine congrArg Host.Outcome.next (if_pos ?_)
  rw [h, hv]
  rfl

theorem State.slaveValid_false (h : s.portSlave p = false ∨ s.portValid p = false) : ¬ (s.portSlave p && s.portValid p) = true := by
  rcases h with h | h <;> rw [h]
  · exact Bool.false_ne_true
  · rw [Bool.and_false]
    exact Bool.false_ne_true

theorem exec_portClockLoss_invalid (h : s.portSlave p = false ∨ s.portValid p = false) :
    exec (.portClockLoss p) s = .next (s.putRbit (regTDM_STAT p.val) 30 false) ∧ exec (.portRateChange (.port p)) s = .next s :=
  ⟨congrArg Host.Outcome.next (if_neg (State.slaveValid_false h)), congrArg Host.Outcome.next (if_neg (State.slaveValid_false h))⟩

/-! ## Qualification -/

/-- The state of a slave whose rate has been measured (R217). -/
def State.portRated (s : State) (p : Fin 16) (rate : BitVec 18) : State := (s.setRfld (regTDM_RATE p.val) 0 18 rate.toNat).putRbit (regTDM_STAT p.val) 30 false

theorem exec_portQualified_off (rate : BitVec 18) (h : s.portSlave p = true) (hv : s.portValid p = false) (ha : bit (s.port p).cfg 16 = false)
    (hn : s.nearFi rate.toNat = false) : exec (.portQualified p rate) s = .next (((s.portRated p rate).setRbit (regTDM_STAT p.val) 29).portInvalid p false) := by
  refine congrArg Host.Outcome.next ((if_pos ?_).trans (if_pos ?_))
  · rw [h, hv]
    rfl
  · rw [ha, hn]
    rfl

/-- The registers of a slave that has qualified: VALID set, RATEERR and LAG clear (R217). -/
def State.portMarked (s : State) (p : Fin 16) (rate : BitVec 18) : State :=
  (((s.portRated p rate).setRbit (regTDM_STAT p.val) 31).putRbit (regTDM_STAT p.val) 29 false).putRbit (regTDM_STAT p.val) 24 false

/-- A port begins with nothing held (R217). -/
def State.portCleared (t : State) (p : Fin 16) : State := t.modPort p fun q => { q with slipped := false, buf := { q.buf with held := [], begun := false } }

theorem State.portCleared_reg (t : State) (p : Fin 16) (a : Nat) : (t.portCleared p).reg a = t.reg a := rfl

theorem State.portCleared_frame (t : State) (p : Fin 16) : t.portCleared p = { t with ports := (t.portCleared p).ports } := rfl

/-- The state of a slave that has qualified, before the channels follow it (R217). -/
def State.portQualifies (s : State) (p : Fin 16) (rate : BitVec 18) : State :=
  (((s.portMarked p rate).portCleared p).raiseEvent 50 (BitVec.ofNat 32 p.val)).causeEnds (56 + p.val)

theorem exec_portQualified_taken (rate : BitVec 18) (h : s.portSlave p = true) (hv : s.portValid p = false)
    (ha : bit (s.port p).cfg 16 = true ∨ s.nearFi rate.toNat = true) :
    exec (.portQualified p rate) s = .next ((s.portQualifies p rate).asrcEndpoints (onPort p)) := by
  refine congrArg Host.Outcome.next ((if_pos ?_).trans (if_neg ?_))
  · rw [h, hv]
    rfl
  · rcases ha with ha | ha <;> rw [ha]
    · exact Bool.false_ne_true
    · rw [Bool.not_true, Bool.and_false]
      exact Bool.false_ne_true

theorem State.port_setPort_self (s : State) (p : Fin 16) (v : Port) : (s.setPort p v).port p = v := Vector.getElem_set_self _

theorem State.port_setPort_ne (s : State) {p o : Fin 16} (v : Port) (h : o ≠ p) : (s.setPort p v).port o = s.port o :=
  Vector.getElem_set_ne p.isLt o.isLt fun e => h (Fin.ext e.symm)

theorem tdmStat_block (p : Fin 16) : regTDM_STAT p.val / 0x10000 = 10 ∧ regTDM_RATE p.val / 0x10000 = 10 := by
  simp only [regTDM_STAT, regTDM_RATE]
  omega

theorem State.portMarked_regs (s : State) (p : Fin 16) (rate : BitVec 18) :
    (s.portMarked p rate).rbit (regTDM_STAT p.val) 31 = true ∧ (s.portMarked p rate).rbit (regTDM_STAT p.val) 29 = false ∧
      (s.portMarked p rate).rbit (regTDM_STAT p.val) 24 = false ∧ (s.portMarked p rate).rfld (regTDM_RATE p.val) 0 18 = rate.toNat := by
  have hne := (tdmStat_ne p p.val).2.1
  rw [State.portMarked]
  refine ⟨?_, ?_, ?_, ?_⟩
  · rw [State.rbit_putRbit _ _ _ _ _ _ (by decide), State.rbit_putRbit _ _ _ _ _ _ (by decide), State.rbit_setRbit _ _ _ _ _ (by decide)]
    simp
  · rw [State.rbit_putRbit _ _ _ _ _ _ (by decide), State.rbit_putRbit _ _ _ _ _ _ (by decide)]
    simp
  · rw [State.rbit_putRbit _ _ _ _ _ _ (by decide)]
    simp
  · have hr : (s.setRfld (regTDM_RATE p.val) 0 18 rate.toNat).rfld (regTDM_RATE p.val) 0 18 = rate.toNat :=
      (State.rfld_setRfld_self s _ 0 18 _ (by decide)).trans (Nat.mod_eq_of_lt rate.isLt)
    rw [State.rfld_putRbit _ _ _ _ _ _ _ (by decide) (.inl hne), State.rfld_putRbit _ _ _ _ _ _ _ (by decide) (.inl hne),
      State.rfld_setRbit _ _ _ _ _ _ (.inl hne), State.portRated, State.rfld_putRbit _ _ _ _ _ _ _ (by decide) (.inl hne), hr]

theorem State.portQualifies_reg (s : State) (p : Fin 16) (rate : BitVec 18) (a : Nat) (h3 : a / 0x10000 ≠ 3) :
    (s.portQualifies p rate).reg a = (((s.portMarked p rate).portCleared p).raiseEvent 50 (BitVec.ofNat 32 p.val)).reg a := by
  rw [State.portQualifies]
  exact State.causeEnds_reg _ _ _ (by omega) h3

theorem State.portQualifies_block (s : State) (p : Fin 16) (rate : BitVec 18) (a : Nat) (h3 : a / 0x10000 ≠ 3) (h4 : a / 0x10000 ≠ 4) :
    (s.portQualifies p rate).reg a = (s.portMarked p rate).reg a := by
  rw [s.portQualifies_reg p rate a h3, State.raiseEvent_reg_block _ 50 _ a (by decide) h4, State.portCleared_reg]

theorem State.portQualifies_spec (s : State) (p : Fin 16) (rate : BitVec 18) :
    let t := s.portQualifies p rate
    let st := regTDM_STAT p.val
    t = { s with regs := t.regs, ports := t.ports, tokens := t.tokens, seq := t.seq } ∧ t.rbit st 31 = true ∧ t.rbit st 29 = false ∧ t.rbit st 24 = false ∧
      t.rfld (regTDM_RATE p.val) 0 18 = rate.toNat ∧ t.port p = { s.port p with slipped := false, buf := { (s.port p).buf with held := [], begun := false } } ∧
      (∀ o, o ≠ p → t.port o = s.port o) ∧ t.rbit (regEVT_PEND 1) 18 = true ∧ t.reg (regEVT_PAYLOAD 50) = BitVec.ofNat 32 p.val ∧
      t.rbit (regFAULT_CAUSE ((56 + p.val) / 32)) ((56 + p.val) % 32) = false := by
  intro t st
  obtain ⟨m1, m2, m3, m4⟩ := s.portMarked_regs p rate
  obtain ⟨b1, b2⟩ := tdmStat_block p
  have hst : t.reg st = (s.portMarked p rate).reg st := s.portQualifies_block p rate st (by omega) (by omega)
  have hrate : t.reg (regTDM_RATE p.val) = (s.portMarked p rate).reg (regTDM_RATE p.val) := s.portQualifies_block p rate _ (by omega) (by omega)
  have hbit (i : Nat) : t.rbit st i = (s.portMarked p rate).rbit st i := congrArg (bit · i) hst
  have hfr := State.raiseEvent_frame ((s.portMarked p rate).portCleared p) 50 (BitVec.ofNat 32 p.val)
  have ht : t.ports = ((s.portMarked p rate).portCleared p).ports := by
    show (((s.portMarked p rate).portCleared p).raiseEvent 50 (BitVec.ofNat 32 p.val)).ports = _
    rw [hfr]
  have hport (o : Fin 16) : t.port o = ((s.portMarked p rate).portCleared p).port o := by
    rw [State.port, ht]
    rfl
  refine ⟨?_, (hbit 31).trans m1, (hbit 29).trans m2, (hbit 24).trans m3, (congrArg (fld · 0 18) hrate).trans m4, (hport p).trans (State.port_setPort_self _ _ _),
    fun o ho => (hport o).trans (State.port_setPort_ne _ _ ho), ?_, ?_, ?_⟩
  · have he : t = (((s.portMarked p rate).portCleared p).raiseEvent 50 (BitVec.ofNat 32 p.val)).causeEnds (56 + p.val) := rfl
    rw [he, hfr]
    rfl
  · refine (congrArg (bit · 18) (s.portQualifies_reg p rate (regEVT_PEND 1) (by decide))).trans
      ((State.raiseEvent_pend ((s.portMarked p rate).portCleared p) 50 50 _ (by decide) (by decide)).trans ?_)
    rw [decide_eq_true rfl, Bool.or_true]
  · rw [s.portQualifies_reg p rate _ (by decide)]
    exact State.raiseEvent_payload _ 50 _ (by decide)
  · refine (State.rbit_putRbit _ _ _ _ _ _ (Nat.mod_lt _ (by decide))).trans (if_pos ⟨rfl, rfl⟩)

/-! ## Configurations -/

/-- The value that a write gives TDM.CFG (R236). -/
def cfgTaken (old v : Word) : Word := (old &&& ~~~0xFFFF8000#32) ||| (v &&& 0xFFFF8000#32)

/-- The state before the settings change: a reserved FMT or WLEN has raised EV5 (R236). -/
def State.cfgScreened (s : State) (p : Fin 16) (v : Word) : State := if fld v 28 2 = 3 ∨ fld v 21 2 = 3 then s.raiseEvent 5 (BitVec.ofNat 32 (regTDM_CFG p.val)) else s

/-- What a changed configuration does after the check of R212 (R221, R236). -/
def State.cfgFollowed (u : State) (p : Fin 16) (new : Word) : State :=
  if cfgMaster new then u.modPort p fun q => { q with restart := true }
  else (u.modPort p fun q => { q with cfg := new, restart := false, clk := false }).asrcEndpoints (onPort p)

theorem State.cfgScreened_rate (s : State) (p : Fin 16) (v : Word) : (s.cfgScreened p v).reg regGLOBAL_RATE = s.reg regGLOBAL_RATE :=
  OnlyBlocks.ite (.raiseEvent (by decide) (by decide) (.refl [4] s)) (.refl [4] s) regGLOBAL_RATE (by decide)

/-- The check of a configuration, which reads the configuration just written (R212). -/
theorem State.portCfgCheck_written (s u : State) (p : Fin 16) (new : Word) (h : u.reg (regTDM_CFG p.val) = new) (hr : u.reg regGLOBAL_RATE = s.reg regGLOBAL_RATE) :
    u.portCfgCheck p = if s.cfgRefused new then (u.setRbit (regTDM_STAT p.val) 28).raiseEvent 5 (BitVec.ofNat 32 (regTDM_CFG p.val)) else u := by
  rw [State.portCfgCheck, h, State.cfgRefused_congr new hr]
  rfl

theorem exec_tdmCfgWrite_same (m : Master) (v : Word) (h : cfgTaken (s.reg (regTDM_CFG p.val)) v = s.reg (regTDM_CFG p.val)) :
    exec (.tdmCfgWrite m p v) s = .next ((s.cfgScreened p v).setReg (regTDM_CFG p.val) (cfgTaken (s.reg (regTDM_CFG p.val)) v)) :=
  congrArg Host.Outcome.next (if_pos h)

theorem exec_tdmCfgWrite_changed (m : Master) (v : Word) (h : cfgTaken (s.reg (regTDM_CFG p.val)) v ≠ s.reg (regTDM_CFG p.val)) :
    let new := cfgTaken (s.reg (regTDM_CFG p.val)) v
    let s1 := (s.cfgScreened p v).setReg (regTDM_CFG p.val) new
    let s2 := if s.portSlave p ∧ s.portValid p then s1.portInvalid p false else s1
    exec (.tdmCfgWrite m p v) s = .next (((s2.portCfgCheck p).putRbit (regTDM_STAT p.val) 30 false).cfgFollowed p new) :=
  congrArg Host.Outcome.next (if_neg h)

/-- Settles O38: each command supervises the clock as stated, and what marking a port invalid leaves alone keeps the check of the new configuration. -/
theorem portClocks : Obligations.PortClocks := by
  intro s m p rate v
  refine ⟨fun h hv => ⟨exec_portClockLoss_valid h hv, exec_portRateChange_valid h hv⟩, exec_portClockLoss_invalid, fun h hv => ⟨fun ha hn => ?_, fun ha => ?_⟩, ⟨?_, ?_, ?_⟩, ?_, ?_⟩
  · exact exec_portQualified_off rate h hv ha hn
  · exact ⟨s.portQualifies p rate, exec_portQualified_taken rate h hv ha, s.portQualifies_spec p rate⟩
  · exact exec_tdmCfgWrite_same m v
  · intro hne hs
    have hr : ((s.cfgScreened p v).setReg (regTDM_CFG p.val) (cfgTaken (s.reg (regTDM_CFG p.val)) v)).reg regGLOBAL_RATE = s.reg regGLOBAL_RATE :=
      (State.reg_setReg_ne _ _ (by simp only [regGLOBAL_RATE, regTDM_CFG]; omega)).trans (s.cfgScreened_rate p v)
    have hn : ¬ (s.portSlave p = true ∧ s.portValid p = true) := fun h => State.slaveValid_false hs (by rw [h.1, h.2]; rfl)
    refine (exec_tdmCfgWrite_changed m v hne).trans ?_
    rw [if_neg hn, State.portCfgCheck_written s _ p _ (State.reg_setReg_self _ _ _) hr]
    rfl
  · intro hne hs hv
    generalize hs1 : (s.cfgScreened p v).setReg (regTDM_CFG p.val) (cfgTaken (s.reg (regTDM_CFG p.val)) v) = s1
    have hr : (s1.portInvalid p false).reg regGLOBAL_RATE = s.reg regGLOBAL_RATE := by
      refine (State.portInvalid_reg s1 p _ (by decide) (tdmStat_ne p 0).2.2).trans ?_
      rw [← hs1]
      exact (State.reg_setReg_ne _ _ (by simp only [regGLOBAL_RATE, regTDM_CFG]; omega)).trans (s.cfgScreened_rate p v)
    have hc : (s1.portInvalid p false).reg (regTDM_CFG p.val) = cfgTaken (s.reg (regTDM_CFG p.val)) v := by
      refine (State.portInvalid_reg s1 p _ ?_ (tdmStat_ne p p.val).1).trans ?_
      · have hb : regTDM_CFG p.val / 0x10000 = 10 := by simp only [regTDM_CFG]; omega
        rw [hb]
        decide
      · rw [← hs1]
        exact State.reg_setReg_self _ _ _
    refine (exec_tdmCfgWrite_changed m v hne).trans ?_
    rw [if_pos ⟨hs, hv⟩, hs1, State.portCfgCheck_written s _ p _ hc hr, ← hs1]
    rfl
  · exact fun h => congrArg Host.Outcome.next (if_pos h)
  · exact fun h => congrArg Host.Outcome.next (if_neg (Bool.eq_false_iff.1 h))

end Sys2Proof.Machine
end

section
/-! The choice of a reference, and how the selector follows it (R284, R287, R288, R290, R291). -/

namespace Sys2Proof.Machine

-- One theorem after another, so that the compile of the whole text stays within its memory.
set_option Elab.async false

/-! ## The choice (R287) -/

/-- A slot comes before another one, or is the same: a lower rank, else a nearer offset, else a lower number (R287). -/
def State.SlotFirst (s : State) (i j : Nat) : Prop :=
  s.slotRank i ≤ s.slotRank j ∧ (s.slotRank i = s.slotRank j → (s.slotOffset i - s.refTarget).natAbs ≤ (s.slotOffset j - s.refTarget).natAbs ∧
    ((s.slotOffset i - s.refTarget).natAbs = (s.slotOffset j - s.refTarget).natAbs → i ≤ j))

theorem State.SlotFirst.refl (s : State) (i : Nat) : s.SlotFirst i i := ⟨Nat.le_refl _, fun _ => ⟨Nat.le_refl _, fun _ => Nat.le_refl _⟩⟩

theorem State.slotBefore_iff (s : State) (a b : Nat) : s.slotBefore a b = true ↔ s.slotRank a < s.slotRank b ∨
    (s.slotRank a = s.slotRank b ∧ (s.slotOffset a - s.refTarget).natAbs ≤ (s.slotOffset b - s.refTarget).natAbs) := by
  rw [State.slotBefore, Bool.or_eq_true, Bool.and_eq_true, decide_eq_true_eq, decide_eq_true_eq, decide_eq_true_eq]

theorem State.SlotFirst.of_before {s : State} {a b : Nat} (h : s.slotBefore a b = true) (hab : a ≤ b) : s.SlotFirst a b := by
  rw [State.slotBefore_iff] at h
  exact ⟨by omega, fun _ => ⟨by omega, fun _ => hab⟩⟩

theorem State.SlotFirst.of_not_before {s : State} {a b x : Nat} (h : ¬ s.slotBefore x b = true) (hx : s.SlotFirst x a) : s.SlotFirst b a := by
  rw [State.slotBefore_iff] at h
  obtain ⟨h1, h2⟩ := hx
  refine ⟨by omega, fun he => ⟨by omega, fun hd => ?_⟩⟩
  omega

/-- The choice among no slot is none; among rising slots it is one that comes before each of them. -/
theorem State.chooseSlot_spec (s : State) (l : List Nat) (h : l.Pairwise (· < ·)) :
    (l = [] ∧ s.chooseSlot l = none) ∨ ∃ i ∈ l, s.chooseSlot l = some i ∧ ∀ j ∈ l, s.SlotFirst i j := by
  induction l using List.reverseRecOn with
  | nil => exact .inl ⟨rfl, rfl⟩
  | append_singleton l a ih =>
    refine .inr ?_
    obtain ⟨hl, -, hlt⟩ := List.pairwise_append.1 h
    have hstep : s.chooseSlot (l ++ [a]) = match s.chooseSlot l with
        | none => some a
        | some x => if s.slotBefore x a then some x else some a := by
      rw [State.chooseSlot, List.foldl_append]
      rfl
    have ha : a ∈ l ++ [a] := List.mem_append_right l (List.mem_singleton.2 rfl)
    rcases ih hl with ⟨rfl, hn⟩ | ⟨i, hi, hc, hf⟩
    · refine ⟨a, ha, by rw [hstep, hn], fun j hj => ?_⟩
      rw [List.nil_append, List.mem_singleton] at hj
      exact hj ▸ .refl s a
    · have hia : i < a := hlt i hi a (List.mem_singleton.2 rfl)
      by_cases hb : s.slotBefore i a = true
      · refine ⟨i, List.mem_append_left _ hi, by rw [hstep, hc]; exact if_pos hb, fun j hj => ?_⟩
        rcases List.mem_append.1 hj with hj | hj
        · exact hf j hj
        · exact List.mem_singleton.1 hj ▸ .of_before hb (Nat.le_of_lt hia)
      · refine ⟨a, ha, by rw [hstep, hc]; exact if_neg hb, fun j hj => ?_⟩
        rcases List.mem_append.1 hj with hj | hj
        · exact .of_not_before hb (hf j hj)
        · exact List.mem_singleton.1 hj ▸ .refl s a

theorem State.candidates_rising (s : State) : s.candidates.Pairwise (· < ·) := List.Pairwise.filter _ (by decide)

theorem State.mem_candidates (s : State) (i : Nat) :
    i ∈ s.candidates ↔ i < 8 ∧ (s.slotState i = 3 ∨ s.slotState i = 4) ∧ (s.rbit regREF_CTRL 30 = true → s.rfld regREF_CTRL 0 3 = i) := by
  have hi : i ∈ slotIds ↔ i < 8 := by
    simp only [slotIds, List.mem_cons, List.not_mem_nil, or_false]
    omega
  rw [State.candidates, List.mem_filter, hi, State.slotCandidate, Bool.and_eq_true, Bool.or_eq_true, decide_eq_true_eq, decide_eq_true_eq, Bool.or_eq_true,
    Bool.not_eq_true', decide_eq_true_eq]
  cases s.rbit regREF_CTRL 30 <;> simp [slWTR, slVALID]

/-! ## The registers of the selector -/

theorem State.refSel_some (s : State) (i : Nat) : s.refSel = some i ↔ s.rbit regREF_STATE 7 = true ∧ s.rfld regREF_STATE 4 3 = i := by
  rw [State.refSel]
  split
  · next h => simp [h]
  · next h => simp [h]

theorem State.refSel_none (s : State) : s.refSel = none ↔ s.rbit regREF_STATE 7 = false := by
  rw [State.refSel]
  split
  · next h => simp [h]
  · next h => simpa using h

/-- The selector's state word decides the state and the slot. -/
theorem State.selector_congr {s t : State} (h : t.reg regREF_STATE = s.reg regREF_STATE) : t.refState = s.refState ∧ t.refSel = s.refSel := by
  rw [State.refState, State.refState, State.refSel, State.refSel, State.rbit, State.rbit, State.rfld, State.rfld, State.rfld, State.rfld, h]
  exact ⟨rfl, rfl⟩

/-- The selector with its new state, its history and the holdover average, before its causes follow (R288, R291, R297). -/
def State.refHead (s : State) (st : Nat) : State :=
  let s1 := s.setRfld regREF_STATE 0 3 st
  let s2 := match histBit st with | some b => s1.setRbit regREF_HIST b | none => s1
  if s.refState = rLOCKED then s2.setRbit regREF_HOCNT 31 else if st = rLOCKED then (s2.putRbit regREF_HOCNT 31 false).hoUpdate else s2

/-- The causes, the event and the time bases follow the new state (R280, R288, R362). -/
def State.refTail (u : State) (st : Nat) : State :=
  ((((u.setCause 47 (decide (st = rFAULT))).setCause 48 (decide (st = rHOLDOVER))).raiseEvent 73 (BitVec.ofNat 32 st))).alignBits

theorem State.refGo_ne (s : State) (st : Nat) (h : s.refState ≠ st) : s.refGo st = (s.refHead st).refTail st := if_neg h

theorem State.refGo_eq (s : State) (st : Nat) (h : s.refState = st) : s.refGo st = (s.setRfld regREF_STATE 0 3 st).alignBits := if_pos h

theorem OnlyBlocks.alignBits {bs : List Nat} {s t : State} (h13 : 13 ∈ bs) (h : OnlyBlocks bs s t) : OnlyBlocks bs s t.alignBits := by
  refine foldl (fun t b hb h => setReg ?_ _ h) h
  have hb' : b < 4 := by
    simp only [List.mem_cons, List.not_mem_nil, or_false] at hb
    omega
  have he : regTIME_STAT b / 0x10000 = 13 := by rw [regTIME_STAT]; omega
  exact he ▸ h13

theorem OnlyBlocks.causeEnds {bs : List Nat} {s t : State} {src : Nat} (h3 : 3 ∈ bs) (hs : src < 256) (h : OnlyBlocks bs s t) : OnlyBlocks bs s (t.causeEnds src) := by
  have he : regFAULT_CAUSE (src / 32) / 0x10000 = 3 := by rw [regFAULT_CAUSE]; omega
  exact setReg (he ▸ h3) _ h

theorem OnlyBlocks.setCause {bs : List Nat} {s t : State} {src : Nat} {b : Bool} (h3 : 3 ∈ bs) (h4 : 4 ∈ bs) (hs : src < 256) (h : OnlyBlocks bs s t) :
    OnlyBlocks bs s (t.setCause src b) := ite (causeBegins h3 h4 hs h) (causeEnds h3 hs h)

theorem State.refTail_blocks (u : State) (st : Nat) : OnlyBlocks [3, 4, 13] u (u.refTail st) :=
  .alignBits (by decide) (.raiseEvent (by decide) (by decide) (.setCause (by decide) (by decide) (by decide) (.setCause (by decide) (by decide) (by decide)
    (.refl _ _))))

/-- A selector in a new state has raised EV73 with the state (R288). -/
theorem State.refTail_event (u : State) (st : Nat) :
    (u.refTail st).reg (regEVT_PAYLOAD 73) = BitVec.ofNat 32 st ∧ (u.refTail st).rbit (regEVT_PEND 2) 9 = true := by
  generalize hv : (u.setCause 47 (decide (st = rFAULT))).setCause 48 (decide (st = rHOLDOVER)) = v
  have he : u.refTail st = (v.raiseEvent 73 (BitVec.ofNat 32 st)).alignBits := by rw [← hv]; rfl
  have hr := OnlyBlocks.alignBits (by decide) (.refl [13] (v.raiseEvent 73 (BitVec.ofNat 32 st)))
  rw [he]
  refine ⟨(hr _ (by decide)).trans (State.raiseEvent_payload v 73 _ (by decide)), ?_⟩
  refine (congrArg (bit · 9) (hr _ (by decide))).trans ((State.raiseEvent_pend v 73 73 _ (by decide) (by decide)).trans ?_)
  rw [decide_eq_true rfl, Bool.or_true]

/-- The live causes of FAULT and HOLDOVER follow the state (R362). -/
theorem State.refTail_cause (u : State) : (u.refTail rHOLDOVER).rbit (regFAULT_CAUSE 1) 16 = true ∧ (u.refTail rFAULT).rbit (regFAULT_CAUSE 1) 15 = true := by
  have hev (v : State) (st i : Nat) : ((v.raiseEvent 73 (BitVec.ofNat 32 st)).alignBits).rbit (regFAULT_CAUSE 1) i = v.rbit (regFAULT_CAUSE 1) i :=
    congrArg (bit · i) (OnlyBlocks.alignBits (by decide) (.raiseEvent (by decide) (by decide) (.refl [4, 13] v)) _ (by decide))
  refine ⟨?_, ?_⟩
  · refine (hev _ rHOLDOVER 16).trans ((State.causeBegins_cause (u.setCause 47 false) 48 48 (by decide) (by decide)).trans ?_)
    rw [decide_eq_true rfl, Bool.or_true]
  · have h1 : (u.causeBegins 47).rbit (regFAULT_CAUSE 1) 15 = true := by
      refine (State.causeBegins_cause u 47 47 (by decide) (by decide)).trans ?_
      rw [decide_eq_true rfl, Bool.or_true]
    refine (hev _ rFAULT 15).trans ((State.rbit_putRbit (u.causeBegins 47) _ _ _ _ _ (by decide)).trans ?_)
    exact (if_neg (by decide)).trans h1

theorem State.hoUpdate_reg (s : State) (a : Nat) (h1 : a ≠ regREF_HOCNT) (h2 : a ≠ regREF_HOAVG) : s.hoUpdate.reg a = s.reg a := by
  have hc : (s.setRfld regREF_HOCNT 0 11 (s.hoWindow s.refSec).length).reg a = s.reg a := State.reg_setReg_ne _ _ h1
  rw [State.hoUpdate]
  split
  · exact hc
  · exact (State.reg_setReg_ne _ _ h2).trans hc

theorem State.refHist_reg (s : State) (st a : Nat) (h : a ≠ regREF_HIST) :
    (match histBit st with | some b => s.setRbit regREF_HIST b | none => s).reg a = s.reg a := by
  split
  · exact State.reg_setReg_ne _ _ h
  · rfl

theorem State.refHead_reg (s : State) (st a : Nat) (h2 : a ≠ regREF_HIST) (h3 : a ≠ regREF_HOCNT) (h4 : a ≠ regREF_HOAVG) :
    (s.refHead st).reg a = (s.setRfld regREF_STATE 0 3 st).reg a := by
  have h := State.refHist_reg (s.setRfld regREF_STATE 0 3 st) st a h2
  rw [State.refHead]
  split
  · exact (State.reg_setReg_ne _ _ h3).trans h
  · split
    · exact (State.hoUpdate_reg _ a h3 h4).trans ((State.reg_setReg_ne _ _ h3).trans h)
    · exact h

/-- A change of state writes the state field; of the other registers only the history, the holdover average and those of faults, events and time bases change. -/
theorem State.refGo_reg (s : State) (st a : Nat) (hb : a / 0x10000 ∉ [3, 4, 13]) (h2 : a ≠ regREF_HIST) (h3 : a ≠ regREF_HOCNT) (h4 : a ≠ regREF_HOAVG) :
    (s.refGo st).reg a = (s.setRfld regREF_STATE 0 3 st).reg a := by
  by_cases h : s.refState = st
  · rw [State.refGo_eq s st h]
    exact OnlyBlocks.alignBits (by decide) (.refl [3, 4, 13] _) a hb
  · rw [State.refGo_ne s st h, (s.refHead st).refTail_blocks st a hb]
    exact State.refHead_reg s st a h2 h3 h4

theorem State.refGo_state (s : State) (st : Nat) (h : st < 8) : (s.refGo st).refState = st ∧ (s.refGo st).refSel = s.refSel := by
  have hr := State.refGo_reg s st regREF_STATE (by decide) (by decide) (by decide) (by decide)
  obtain ⟨h1, h2⟩ := State.selector_congr hr
  rw [h1, h2]
  refine ⟨(State.rfld_setRfld_self s regREF_STATE 0 3 st (by decide)).trans (Nat.mod_eq_of_lt h), ?_⟩
  have hb : (s.setRfld regREF_STATE 0 3 st).rbit regREF_STATE 7 = s.rbit regREF_STATE 7 :=
    (State.rbit_setRfld s _ _ _ _ _ _ (by decide)).trans (if_neg (by omega))
  have hf : (s.setRfld regREF_STATE 0 3 st).rfld regREF_STATE 4 3 = s.rfld regREF_STATE 4 3 :=
    State.rfld_setRfld_ne s _ _ _ _ _ _ _ (by decide) (.inr (.inl (by decide)))
  rw [State.refSel, State.refSel, hb, hf]

theorem State.refGo_event (s : State) (st : Nat) (h : s.refState ≠ st) :
    (s.refGo st).reg (regEVT_PAYLOAD 73) = BitVec.ofNat 32 st ∧ (s.refGo st).rbit (regEVT_PEND 2) 9 = true := by
  rw [State.refGo_ne s st h]
  exact State.refTail_event _ st

theorem State.refGo_keeps (s : State) (st a : Nat) (hb : a / 0x10000 ∉ [3, 4, 13]) (h1 : a ≠ regREF_STATE) (h2 : a ≠ regREF_HIST) (h3 : a ≠ regREF_HOCNT)
    (h4 : a ≠ regREF_HOAVG) : (s.refGo st).reg a = s.reg a :=
  (State.refGo_reg s st a hb h2 h3 h4).trans (State.reg_setReg_ne _ _ h1)

/-! ## A slot is selected or deselected -/

theorem State.selectSlot_ne (s : State) (i : Nat) (h : s.refSel ≠ some i) :
    s.selectSlot i = (((s.setRbit regREF_STATE 7).setRfld regREF_STATE 4 3 i).count regREF_SWITCH_CNT 1).setRbit regREF_HIST 6 := if_neg h

theorem State.selectSlot_state (s : State) (i : Nat) (hi : i < 8) : (s.selectSlot i).refSel = some i ∧ (s.selectSlot i).refState = s.refState := by
  by_cases h : s.refSel = some i
  · have he : s.selectSlot i = s := if_pos h
    rw [he]
    exact ⟨h, rfl⟩
  · have hr : (s.selectSlot i).reg regREF_STATE = ((s.setRbit regREF_STATE 7).setRfld regREF_STATE 4 3 i).reg regREF_STATE := by
      rw [State.selectSlot_ne s i h]
      exact (State.reg_setReg_ne _ _ (by decide)).trans (State.reg_setReg_ne _ _ (by decide))
    obtain ⟨h1, h2⟩ := State.selector_congr hr
    rw [h1, h2]
    refine ⟨(State.refSel_some _ i).2 ⟨?_, ?_⟩, ?_⟩
    · rw [State.rbit_setRfld _ _ _ _ _ _ _ (by decide), if_neg (by omega), State.rbit_setRbit _ _ _ _ _ (by decide)]
      simp
    · exact (State.rfld_setRfld_self _ _ 4 3 i (by decide)).trans (Nat.mod_eq_of_lt hi)
    · rw [State.refState, State.refState, State.rfld_setRfld_ne _ _ _ _ _ _ _ _ (by decide) (.inr (.inr (by decide))), State.rfld_setRbit _ _ _ _ _ _ (.inr (.inr (by decide)))]

theorem State.selectSlot_count (s : State) (i : Nat) (h : s.refSel ≠ some i) : (s.selectSlot i).reg regREF_SWITCH_CNT = satAdd (s.reg regREF_SWITCH_CNT) 0 32 1 := by
  rw [State.selectSlot_ne s i h]
  refine (State.reg_setReg_ne _ _ (by decide)).trans ((State.reg_setReg_self _ _ _).trans ?_)
  rw [State.reg_setRfld_ne _ _ _ _ _ _ (by decide), State.reg_setRbit_ne _ _ _ _ (by decide)]

/-- The selector acquires slot `i`: its state, and the events and the count of a change (R288). -/
def AcquiredOn (s t : State) (i : Nat) : Prop :=
  t.refState = 1 ∧ t.refSel = some i ∧ (s.refState ≠ 1 → t.reg (regEVT_PAYLOAD 73) = 1 ∧ t.rbit (regEVT_PEND 2) 9 = true) ∧
    (s.refSel ≠ some i → t.reg (regEVT_PAYLOAD 74) = BitVec.ofNat 32 i ∧ t.rbit (regEVT_PEND 2) 10 = true ∧
      t.reg regREF_SWITCH_CNT = satAdd (s.reg regREF_SWITCH_CNT) 0 32 1)

theorem State.acquire_spec (s : State) (i : Nat) (hi : i < 8) : AcquiredOn s (s.acquire i) i := by
  obtain ⟨hsel, hst⟩ := State.selectSlot_state s i hi
  obtain ⟨gst, gsel⟩ := State.refGo_state (s.selectSlot i) rACQUIRING (by decide)
  have hev (h : s.refState ≠ 1) := State.refGo_event (s.selectSlot i) rACQUIRING (by rw [hst]; exact h)
  by_cases h : s.refSel = some i
  · have he : s.acquire i = (s.selectSlot i).refGo rACQUIRING := if_pos h
    rw [he]
    exact ⟨gst, gsel.trans hsel, hev, fun hn => absurd h hn⟩
  · have he : s.acquire i = ((s.selectSlot i).refGo rACQUIRING).raiseEvent 74 (BitVec.ofNat 32 i) := if_neg h
    rw [he]
    generalize ht : (s.selectSlot i).refGo rACQUIRING = t at *
    obtain ⟨c1, c2⟩ := State.selector_congr (State.raiseEvent_reg_block t 74 (BitVec.ofNat 32 i) regREF_STATE (by decide) (by decide))
    refine ⟨c1.trans gst, c2.trans (gsel.trans hsel), fun h1 => ?_, fun _ => ⟨State.raiseEvent_payload t 74 _ (by decide), ?_, ?_⟩⟩
    · obtain ⟨e1, e2⟩ := hev h1
      refine ⟨(State.raiseEvent_reg t 74 _ _ (by decide) (by decide) (by decide) (by decide)).trans e1, ?_⟩
      refine (State.raiseEvent_pend t 74 73 (BitVec.ofNat 32 i) (by decide) (by decide)).trans ?_
      have e3 : t.rbit (regEVT_PEND (73 / 32)) (73 % 32) = true := e2
      rw [e3, Bool.true_or]
    · refine (State.raiseEvent_pend t 74 74 (BitVec.ofNat 32 i) (by decide) (by decide)).trans ?_
      rw [decide_eq_true rfl, Bool.or_true]
    · refine (State.raiseEvent_reg_block t 74 (BitVec.ofNat 32 i) regREF_SWITCH_CNT (by decide) (by decide)).trans ?_
      rw [← ht]
      exact (State.refGo_keeps _ _ _ (by decide) (by decide) (by decide) (by decide) (by decide)).trans (State.selectSlot_count s i h)

theorem State.deselect_spec (s : State) : s.deselect.refSel = none ∧ s.deselect.refState = s.refState ∧ ∀ a, a ≠ regREF_STATE → s.deselect.reg a = s.reg a := by
  by_cases h : s.rbit regREF_STATE 7 = true
  · have he : s.deselect = (s.draw.2.putRbit regREF_STATE 7 false).setRfld regREF_STATE 4 3 (fld s.draw.1 0 3) := if_pos h
    rw [he]
    refine ⟨(State.refSel_none _).2 ?_, ?_, fun a ha => ?_⟩
    · rw [State.rbit_setRfld _ _ _ _ _ _ _ (by decide), if_neg (by omega), State.rbit_putRbit _ _ _ _ _ _ (by decide)]
      simp
    · rw [State.refState, State.refState, State.rfld_setRfld_ne _ _ _ _ _ _ _ _ (by decide) (.inr (.inr (by decide))),
        State.rfld_putRbit _ _ _ _ _ _ _ (by decide) (.inr (.inr (by decide)))]
      rfl
    · rw [State.reg_setRfld_ne _ _ _ _ _ _ ha, State.reg_putRbit_ne _ _ _ _ _ ha]
      rfl
  · have he : s.deselect = s := if_neg h
    rw [he]
    exact ⟨(State.refSel_none s).2 (Bool.eq_false_iff.2 h), rfl, fun _ _ => rfl⟩

/-- The selector lets go of its slot, takes a control word and goes to a state (R288). -/
def State.refRelease (s : State) (w : Word) (st : Nat) : State := (s.deselect.setReg regREF_DCO w).refGo st

theorem State.refRelease_spec (s : State) (w : Word) (st : Nat) (h : st < 8) :
    (s.refRelease w st).refState = st ∧ (s.refRelease w st).refSel = none ∧ (s.refRelease w st).reg regREF_DCO = w := by
  obtain ⟨d1, -, -⟩ := s.deselect_spec
  obtain ⟨g1, g2⟩ := State.refGo_state (s.deselect.setReg regREF_DCO w) st h
  obtain ⟨-, c2⟩ := State.selector_congr (State.reg_setReg_ne s.deselect w (show regREF_STATE ≠ regREF_DCO by decide))
  refine ⟨g1, g2.trans (c2.trans d1), ?_⟩
  exact (State.refGo_keeps _ _ _ (by decide) (by decide) (by decide) (by decide) (by decide)).trans (State.reg_setReg_self _ _ _)

theorem State.refRelease_holdover (s : State) (w : Word) (h : s.refState ≠ 3) : (s.refRelease w rHOLDOVER).rbit (regFAULT_CAUSE 1) 16 = true := by
  obtain ⟨-, d2, -⟩ := s.deselect_spec
  obtain ⟨c1, -⟩ := State.selector_congr (State.reg_setReg_ne s.deselect w (show regREF_STATE ≠ regREF_DCO by decide))
  rw [State.refRelease, State.refGo_ne _ _ (by rw [c1, d2]; exact h)]
  exact (State.refTail_cause _).1

/-! ## How the selector follows -/

section
variable {s : State}

theorem State.refMove_fault (h : s.refState = 4) : s.refMove = s := if_pos h

theorem State.refMove_suspended (h : s.refState ≠ 4) (hs : s.rbit regREF_CTRL 29 = true) : s.refMove = if s.refState = rFREERUN then s.deselect else s.toFreerun :=
  (if_neg h).trans (if_pos hs)

theorem State.refMove_free (hs : s.rbit regREF_CTRL 29 = false) (h : s.refState = 0 ∨ s.refState = 3) :
    s.refMove = match s.chooseSlot s.candidates with
      | some i => s.acquire i
      | none => s := by
  have h4 : s.refState ≠ 4 := by omega
  refine (if_neg h4).trans ((if_neg (Bool.eq_false_iff.1 hs)).trans ((if_pos h).trans ?_))
  cases s.chooseSlot s.candidates <;> rfl

theorem State.refMove_selected (hs : s.rbit regREF_CTRL 29 = false) (h : s.refState = 1 ∨ s.refState = 2) (k : Nat) (hk : s.refSel = some k) :
    s.refMove = if !s.slotCandidate k then s.refLoss
      else if s.refState = rLOCKED ∧ s.rbit regREF_CTRL 31 ∧ !s.rbit regREF_CTRL 30 then
        match s.chooseSlot (s.revertTargets k) with
        | some i => s.acquire i
        | none => s
      else s := by
  have h4 : s.refState ≠ 4 := by omega
  have h03 : ¬ (s.refState = 0 ∨ s.refState = 3) := by omega
  refine (if_neg h4).trans ((if_neg (Bool.eq_false_iff.1 hs)).trans ((if_neg h03).trans ?_))
  rw [hk] <;> rfl

theorem State.refLoss_some (i : Nat) (h : s.chooseSlot s.candidates = some i) : s.refLoss = s.acquire i := by rw [State.refLoss, h]

theorem State.refLoss_none (h : s.candidates = []) :
    s.refLoss = if 0 < s.hoCount then s.refRelease (s.reg regREF_HOAVG) rHOLDOVER else s.refRelease (s.reg regREF_FREE) rFREERUN := by
  rw [State.refLoss, h]
  rfl

end

/-- What becomes of a selector on slot `k` in ACQUIRING or LOCKED (R288). -/
theorem State.refMove_on (s : State) (hs : s.rbit regREF_CTRL 29 = false) (h : s.refState = 1 ∨ s.refState = 2) (k : Nat) (hk : s.refSel = some k) :
    (s.slotCandidate k = false →
      (∀ i, i < 8 → s.chooseSlot s.candidates = some i → AcquiredOn s s.refMove i) ∧
      (s.candidates = [] → 0 < s.hoCount → s.refMove.refState = 3 ∧ s.refMove.refSel = none ∧ s.refMove.reg regREF_DCO = s.reg regREF_HOAVG ∧
        s.refMove.rbit (regFAULT_CAUSE 1) 16 = true) ∧
      (s.candidates = [] → s.hoCount = 0 → s.refMove.refState = 0 ∧ s.refMove.refSel = none ∧ s.refMove.reg regREF_DCO = s.reg regREF_FREE)) ∧
    (s.slotCandidate k = true →
      ((s.refState = 1 ∨ s.rbit regREF_CTRL 31 = false ∨ s.rbit regREF_CTRL 30 = true ∨ s.revertTargets k = []) → s.refMove = s) ∧
      (∀ i, i < 8 → s.refState = 2 → s.rbit regREF_CTRL 31 = true → s.rbit regREF_CTRL 30 = false → s.chooseSlot (s.revertTargets k) = some i →
        AcquiredOn s s.refMove i)) := by
  rw [State.refMove_selected hs h k hk]
  refine ⟨fun hc => ?_, fun hc => ?_⟩
  · have hn : (!s.slotCandidate k) = true := by rw [hc]; rfl
    rw [if_pos hn]
    refine ⟨fun i hi hch => ?_, fun he ho => ?_, fun he ho => ?_⟩
    · rw [State.refLoss_some i hch]
      exact s.acquire_spec i hi
    · obtain ⟨r1, r2, r3⟩ := s.refRelease_spec (s.reg regREF_HOAVG) rHOLDOVER (by decide)
      rw [State.refLoss_none he, if_pos ho]
      exact ⟨r1, r2, r3, s.refRelease_holdover _ (by omega)⟩
    · rw [State.refLoss_none he, if_neg (by omega)]
      exact s.refRelease_spec _ rFREERUN (by decide)
  · have hn : ¬ (!s.slotCandidate k) = true := by rw [hc]; exact Bool.false_ne_true
    rw [if_neg hn]
    refine ⟨fun hw => ?_, fun i hi h2 h31 h30 hch => ?_⟩
    · by_cases hr : s.refState = rLOCKED ∧ s.rbit regREF_CTRL 31 = true ∧ (!s.rbit regREF_CTRL 30) = true
      · obtain ⟨r1, r2, r3⟩ := hr
        have he : s.revertTargets k = [] := by
          rcases hw with hw | hw | hw | hw
          · exact absurd (hw.symm.trans r1) (by decide)
          · exact absurd (hw.symm.trans r2) (by decide)
          · rw [hw] at r3
            exact absurd r3 (by decide)
          · exact hw
        rw [if_pos ⟨r1, r2, r3⟩, he]
        rfl
      · exact if_neg hr
    · have hr : s.refState = rLOCKED ∧ s.rbit regREF_CTRL 31 = true ∧ (!s.rbit regREF_CTRL 30) = true := ⟨h2, h31, by rw [h30]; rfl⟩
      rw [if_pos hr, hch]
      exact s.acquire_spec i hi

/-- Settles O48: the fold of the choice keeps the first slot of those it has seen, and each transition of R288 goes through the entry to ACQUIRING or through a release. -/
theorem selectorFollows : Obligations.SelectorFollows := by
  refine ⟨fun s => ⟨s.mem_candidates, fun h => ?_, fun i hi => ?_, fun h => ?_⟩, fun s => ⟨fun h => ?_, rfl, fun h4 hs => ?_, fun hs h => ⟨fun i hi hc => ?_, fun hc => ?_⟩,
    fun hs h k hk => s.disFollow.refMove_on hs h k hk⟩⟩
  · rw [h]
    rfl
  · rcases s.chooseSlot_spec _ s.candidates_rising with ⟨-, hn⟩ | ⟨j, hj, hc, hf⟩
    · exact absurd (hn.symm.trans hi) (by simp)
    · obtain rfl : j = i := Option.some.inj (hc.symm.trans hi)
      exact ⟨hj, hf⟩
  · rcases s.chooseSlot_spec _ s.candidates_rising with ⟨hn, -⟩ | ⟨j, hj, hc, hf⟩
    · exact absurd hn h
    · rw [hc]
      rfl
  · exact State.refMove_fault (s := s.disFollow) h
  · have he : s.refEval = _ := State.refMove_suspended (s := s.disFollow) h4 hs
    by_cases h0 : s.disFollow.refState = rFREERUN
    · obtain ⟨d1, d2, -⟩ := s.disFollow.deselect_spec
      rw [he, if_pos h0]
      exact ⟨d2.trans h0, d1, fun hn => absurd h0 hn⟩
    · obtain ⟨r1, r2, r3⟩ := s.disFollow.refRelease_spec (s.reg regREF_FREE) rFREERUN (by decide)
      rw [he, if_neg h0]
      exact ⟨r1, r2, fun _ => r3⟩
  · have he : s.refEval = _ := State.refMove_free (s := s.disFollow) hs h
    have hc' : s.disFollow.chooseSlot s.disFollow.candidates = some i := hc
    rw [he, hc']
    exact s.disFollow.acquire_spec i hi
  · have he : s.refEval = _ := State.refMove_free (s := s.disFollow) hs h
    have hc' : s.disFollow.candidates = [] := hc
    rw [he, hc']
    rfl

end Sys2Proof.Machine
end

section
/-! Lock, fault and control of the selector (R286 to R292); alignment of the pulse generators (R294, R295, R297). -/

namespace Sys2Proof.Machine

-- One theorem after another, so that the compile of the whole text stays within its memory.
set_option Elab.async false

/-! ## Alignments of the generators (R294) -/

variable (s : State) (g : Nat)

theorem State.genRequest_shape : ∃ q r, s.genRequest g = { s with genReq := q, regs := r } ∧ g ∈ q ∧ (∀ x, x ≠ g → (x ∈ q ↔ x ∈ s.genReq)) ∧
    (∀ a, a ≠ regREF_OUTSTAT g → mapGet regReset r a = s.reg a) ∧
    bit (mapGet regReset r (regREF_OUTSTAT g)) 30 = (s.rbit (regREF_OUTSTAT g) 30 || !s.genSource g) := by
  have hq : ∃ q, (if s.genReq.contains g then s else { s with genReq := s.genReq ++ [g] } : State) = { s with genReq := q } ∧ g ∈ q ∧
      ∀ x, x ≠ g → (x ∈ q ↔ x ∈ s.genReq) := by
    by_cases h : s.genReq.contains g = true
    · exact ⟨s.genReq, if_pos h, List.contains_iff_mem.1 h, fun _ _ => Iff.rfl⟩
    · exact ⟨s.genReq ++ [g], if_neg h, by simp, fun x hx => by simp [hx]⟩
  obtain ⟨q, hs, hg, hx⟩ := hq
  rw [State.genRequest, hs]
  by_cases h : s.genSource g = true
  · refine ⟨q, s.regs, if_pos h, hg, hx, fun _ _ => rfl, ?_⟩
    rw [h, Bool.not_true, Bool.or_false]
    rfl
  · refine ⟨q, (s.setRbit (regREF_OUTSTAT g) 30).regs, if_neg h, hg, hx, fun a ha => State.reg_setRbit_ne s _ 30 _ ha, ?_⟩
    refine (State.rbit_setRbit s (regREF_OUTSTAT g) 30 (regREF_OUTSTAT g) 30 (by decide)).trans ?_
    rw [decide_eq_true rfl, decide_eq_true rfl, Bool.eq_false_iff.2 h]
    rfl

theorem outStat_ne (g : Nat) : regREF_STATE ≠ regREF_OUTSTAT g := by
  simp only [regREF_STATE, regREF_OUTSTAT]
  omega

/-- A request for alignments leaves the selector's state word alone. -/
theorem State.genRequestAll_state : s.genRequestAll.reg regREF_STATE = s.reg regREF_STATE := by
  have hone (t : State) (g : Nat) : (if t.rbit (regREF_OUTCFG g) 31 then t.genRequest g else t).reg regREF_STATE = t.reg regREF_STATE := by
    split
    · obtain ⟨q, r, he, -, -, hr, -⟩ := t.genRequest_shape g
      rw [he]
      exact hr regREF_STATE (outStat_ne g)
    · rfl
  rw [State.genRequestAll]
  simp only [List.foldl_cons, List.foldl_nil, hone]

/-! ## Writes -/

theorem State.regStore_shape (a : Nat) (v : Word) : ∃ r k q, s.regStore a v = { s with regs := r, tokens := k, seq := q } := by
  rw [State.regStore, State.checkReserved]
  split
  · rw [State.configError, State.raiseEvent_frame]
    exact ⟨_, _, _, rfl⟩
  · exact ⟨_, _, _, rfl⟩

theorem State.regStore_refCtrl (v : Word) :
    s.regStore regREF_CTRL v = s.setReg regREF_CTRL ((s.reg regREF_CTRL &&& ~~~(rwBits regREF_CTRL)) ||| (v &&& rwBits regREF_CTRL)) := by
  have h1 : w1cBits regREF_CTRL = 0#32 := by decide
  have h2 : clampReg regREF_CTRL v = v := rfl
  have h3 (t : State) : t.checkReserved regREF_CTRL v = t := if_neg Bool.false_ne_true
  rw [State.regStore, h1, h2, h3, merge, BitVec.and_zero, BitVec.not_zero, BitVec.and_allOnes]

theorem clampSigned_toInt (v : Word) : (clampSigned 500000000 v).toInt = max (-500000000) (min 500000000 v.toInt) := by
  rw [clampSigned]
  split
  · rw [ofInt_toInt _ (by decide) (by decide)]
    omega
  · split
    · rw [ofInt_toInt _ (by decide) (by decide)]
      omega
    · omega

/-! ## Lock and fault (R286, R288, R289) -/

section
variable {s}

theorem exec_lockAchieved_acquired (err : Word) (h : s.refState = 1) (hs : s.refSel.isSome = true) (he : err.toInt.natAbs ≤ s.lockWindow) :
    exec (.lockAchieved err) s = .next (((s.setReg regREF_PHERR err).refGo 2).genRequestAll).refEval := congrArg Host.Outcome.next (if_pos ⟨h, hs, he⟩)

theorem State.refLocked_state (err : Word) : (((s.setReg regREF_PHERR err).refGo 2).genRequestAll).refState = 2 :=
  ((State.selector_congr (State.genRequestAll_state _)).1).trans (State.refGo_state _ 2 (by decide)).1

theorem exec_lockLost_far (err : Word) (h : s.refState = 2) (hw : 4 * s.lockWindow < err.toInt.natAbs) :
    exec (.lockLost err) s = .next (((s.setReg regREF_PHERR err).setRbit regREF_HIST 2).refGo rACQUIRING) := congrArg Host.Outcome.next (if_pos ⟨h, hw⟩)

/-- A selector that leaves LOCKED for ACQUIRING keeps its history and marks the average as frozen (R288, R291). -/
theorem State.refHead_lost (u : State) (h : u.refState = 2) : u.refHead rACQUIRING = (u.setRfld regREF_STATE 0 3 rACQUIRING).setRbit regREF_HOCNT 31 := if_pos h

theorem State.lockLost_spec (err : Word) (h : s.refState = 2) :
    let t := ((s.setReg regREF_PHERR err).setRbit regREF_HIST 2).refGo rACQUIRING
    t.refState = 1 ∧ t.refSel = s.refSel ∧ t.rbit regREF_HIST 2 = true ∧ t.reg regREF_PHERR = err ∧ t.rbit regREF_HOCNT 31 = true ∧ t.reg (regEVT_PAYLOAD 73) = 1 := by
  intro t
  let u := (s.setReg regREF_PHERR err).setRbit regREF_HIST 2
  obtain ⟨c1, c2⟩ := State.selector_congr (s := s) (t := u) ((State.reg_setReg_ne _ _ (by decide)).trans (State.reg_setReg_ne _ _ (by decide)))
  obtain ⟨g1, g2⟩ := State.refGo_state u rACQUIRING (by decide)
  have hne : u.refState ≠ rACQUIRING := by
    rw [c1, h]
    decide
  have ht : t = ((u.setRfld regREF_STATE 0 3 rACQUIRING).setRbit regREF_HOCNT 31).refTail rACQUIRING := by
    rw [← State.refHead_lost u (c1.trans h)]
    exact State.refGo_ne u rACQUIRING hne
  have hreg (a : Nat) (hb : a / 0x10000 ∉ [3, 4, 13]) : t.reg a = ((u.setRfld regREF_STATE 0 3 rACQUIRING).setRbit regREF_HOCNT 31).reg a := by
    rw [ht]
    exact State.refTail_blocks _ _ a hb
  refine ⟨g1, g2.trans c2, ?_, ?_, ?_, (State.refGo_event u rACQUIRING hne).1⟩
  · refine (congrArg (bit · 2) ((hreg regREF_HIST (by decide)).trans ((State.reg_setReg_ne _ _ (by decide)).trans (State.reg_setReg_ne _ _ (by decide))))).trans ?_
    refine (State.rbit_setRbit (s.setReg regREF_PHERR err) _ _ _ _ (by decide)).trans ?_
    rw [decide_eq_true rfl, decide_eq_true rfl, Bool.and_self, Bool.or_true]
  · refine (hreg regREF_PHERR (by decide)).trans ((State.reg_setReg_ne _ _ (by decide)).trans ((State.reg_setReg_ne _ _ (by decide)).trans ?_))
    exact (State.reg_setReg_ne _ _ (by decide)).trans (State.reg_setReg_self _ _ _)
  · refine (congrArg (bit · 31) (hreg regREF_HOCNT (by decide))).trans ((State.rbit_setRbit _ _ _ _ _ (by decide)).trans ?_)
    rw [decide_eq_true rfl, decide_eq_true rfl, Bool.and_self, Bool.or_true]

theorem exec_refFault_raised (h : s.refState ≠ 4) (hc : s.refCause = true ∨ s.refLoop = true) :
    exec .refFault s = .next (s.refRelease (if 0 < s.hoCount then s.reg regREF_HOAVG else s.reg regREF_FREE) rFAULT) := by
  refine congrArg Host.Outcome.next ((if_pos ?_).trans (if_neg h))
  rcases hc with hc | hc <;> rw [hc]
  · rfl
  · exact Bool.or_true _

theorem exec_refFault_idle (h : s.refState = 4 ∨ (s.refCause = false ∧ s.refLoop = false)) : exec .refFault s = .next s := by
  have hf (h4 : s.refState = 4) : s.refFault = s := if_pos h4
  refine congrArg Host.Outcome.next ?_
  rcases h with h | ⟨h1, h2⟩
  · rw [hf h, ite_self]
  · rw [h1, h2]
    rfl

theorem State.refRelease_fault (w : Word) (h : s.refState ≠ 4) : (s.refRelease w rFAULT).rbit (regFAULT_CAUSE 1) 15 = true := by
  obtain ⟨-, d2, -⟩ := s.deselect_spec
  obtain ⟨c1, -⟩ := State.selector_congr (State.reg_setReg_ne s.deselect w (show regREF_STATE ≠ regREF_DCO by decide))
  rw [State.refRelease, State.refGo_ne _ _ (by rw [c1, d2]; exact h)]
  exact (State.refTail_cause _).2

theorem State.refCause_iff : s.refCause = true ↔ s.rbit regCLK_STATUS 21 = true ∨ s.rbit (regFAULT_CAUSE 1) 12 = true ∨
    (s.refLoop = false ∧ (s.reg regREF_DCO).toInt.natAbs = 500000000) := by
  rw [State.refCause, Bool.or_eq_true, Bool.or_eq_true, Bool.and_eq_true, Bool.not_eq_true', decide_eq_true_eq, or_assoc]

end

/-! ## A second of the selector (R283, R284, R290, R291) -/

/-- What a second does to slot `i`, with the offset that its source has shown (R283, R284). -/
def State.slotSecond (t : State) (offsets : List Word) (i : Nat) : State :=
  let t1 := if slQUAL ≤ t.slotState i then t.setReg (regREF_SLOTOFF i) (nthD offsets i 0) else t
  let t2 := t1.setReg (regREF_SLOTOFF i) (ofInt (t1.slotOffset i))
  let t3 := if t2.slotState i = slWTR then t2.setRfld (regREF_SLOTSTAT i) 16 12 (Nat.max 1 (t2.rfld (regREF_SLOTSTAT i) 16 12 - 1)) else t2
  if decide (slQUAL ≤ t3.slotState i) && t3.slotFar i then t3.slotInvalid i else t3

/-- What a second leaves of slot `i`, by its state, its offset and its wait (R283, R284). -/
def SlotUpdated (s : State) (offsets : List Word) (i : Nat) (t : State) : Prop :=
  let off : Int := if s.slotType i = 0 then (s.reg (regTIME_RATE (s.slotIndex i % 4))).toInt else (nthD offsets i 0).toInt
  (s.slotState i < 2 → t.slotState i = s.slotState i) ∧
  (2 ≤ s.slotState i → (t.reg (regREF_SLOTOFF i)).toInt = off ∧
    (off.natAbs ≤ 495000000 → t.slotState i = s.slotState i) ∧ (495000000 < off.natAbs → t.slotState i = 1)) ∧
  (s.slotState i = 3 → off.natAbs ≤ 495000000 → t.rfld (regREF_SLOTSTAT i) 16 12 = max 1 (s.rfld (regREF_SLOTSTAT i) 16 12 - 1))

section
variable {s} {offsets : List Word} {i : Nat}

/-- Only the slot's own words matter. -/
theorem SlotUpdated.of_words {t u : State} (h : SlotUpdated s offsets i t) (h1 : u.reg (regREF_SLOTSTAT i) = t.reg (regREF_SLOTSTAT i))
    (h2 : u.reg (regREF_SLOTOFF i) = t.reg (regREF_SLOTOFF i)) : SlotUpdated s offsets i u := by
  obtain ⟨ha, hb, hc⟩ := h
  have hs : u.slotState i = t.slotState i := congrArg (fld · 29 3) h1
  have hw : u.rfld (regREF_SLOTSTAT i) 16 12 = t.rfld (regREF_SLOTSTAT i) 16 12 := congrArg (fld · 16 12) h1
  refine ⟨fun h => hs.trans (ha h), fun h => ?_, fun h h' => hw.trans (hc h h')⟩
  rw [h2, hs]
  exact hb h

theorem State.slotOffset_congr (t : State) (h1 : t.reg (regREF_SLOTCFG i) = s.reg (regREF_SLOTCFG i))
    (h2 : t.reg (regTIME_RATE (s.slotIndex i % 4)) = s.reg (regTIME_RATE (s.slotIndex i % 4))) :
    t.slotOffset i = if s.slotType i = 0 then (s.reg (regTIME_RATE (s.slotIndex i % 4))).toInt else (t.reg (regREF_SLOTOFF i)).toInt := by
  have ht : t.slotType i = s.slotType i := congrArg (fld · 28 3) h1
  have hx : t.slotIndex i = s.slotIndex i := congrArg (fld · 24 4) h1
  rw [State.slotOffset, ht, hx, h2]

theorem slotWords_ne (i j k : Nat) : regREF_SLOTSTAT i ≠ regREF_SLOTOFF j ∧ regREF_SLOTCFG k ≠ regREF_SLOTOFF j ∧ regREF_SLOTCFG k ≠ regREF_SLOTSTAT i ∧
    regREF_SLOTOFF j ≠ regREF_SLOTSTAT i ∧ regREF_HIST ≠ regREF_SLOTSTAT i ∧ regREF_HIST ≠ regREF_SLOTOFF i ∧ regREF_HIST ≠ regREF_SLOTCFG i := by
  simp only [regREF_SLOTSTAT, regREF_SLOTOFF, regREF_SLOTCFG, regREF_HIST]
  omega

theorem rate_ne (k j : Nat) : regTIME_RATE (k % 4) ≠ regREF_SLOTOFF j ∧ regTIME_RATE (k % 4) ≠ regREF_SLOTSTAT j ∧ regTIME_RATE (k % 4) ≠ regREF_HIST := by
  simp only [regTIME_RATE, regREF_SLOTOFF, regREF_SLOTSTAT, regREF_HIST]
  omega

end

theorem State.slotInvalid_shape (i : Nat) : ∃ r, s.slotInvalid i = { s with regs := r } ∧ (∀ a, a ≠ regREF_HIST → a ≠ regREF_SLOTSTAT i → mapGet regReset r a = s.reg a) ∧
    fld (mapGet regReset r (regREF_SLOTSTAT i)) 29 3 = 1 := by
  generalize hs1 : (if s.slotState i = slWTR ∨ s.slotState i = slVALID then s.setRbit regREF_HIST (24 + i) else s) = s1
  have h1 : ∃ r, s1 = { s with regs := r } ∧ ∀ a, a ≠ regREF_HIST → mapGet regReset r a = s.reg a := by
    rw [← hs1]
    split
    · exact ⟨_, rfl, fun a ha => State.reg_setRbit_ne s _ _ _ ha⟩
    · exact ⟨s.regs, rfl, fun _ _ => rfl⟩
  obtain ⟨r, hr, hk⟩ := h1
  have he : s.slotInvalid i = (s1.setSlot i slINVALID).setRfld (regREF_SLOTSTAT i) 16 12 0 := by rw [← hs1]; rfl
  refine ⟨((s1.setSlot i slINVALID).setRfld (regREF_SLOTSTAT i) 16 12 0).regs, ?_, fun a ha hb => ?_, ?_⟩
  · rw [he, hr]
    rfl
  · refine (State.reg_setRfld_ne (s1.setSlot i slINVALID) _ _ _ _ _ hb).trans ((State.reg_setRfld_ne s1 _ _ _ _ _ hb).trans ?_)
    rw [hr]
    exact hk a ha
  · refine (State.rfld_setRfld_ne (s1.setSlot i slINVALID) _ _ _ _ _ _ _ (by decide) (.inr (.inl (by decide)))).trans ?_
    exact State.rfld_setRfld_self s1 _ 29 3 slINVALID (by decide)

/-- The part of a second before the offset is judged: the offset and the wait (R283, R284). -/
def State.slotMeasured (t : State) (offsets : List Word) (i : Nat) : State :=
  let t1 := if slQUAL ≤ t.slotState i then t.setReg (regREF_SLOTOFF i) (nthD offsets i 0) else t
  let t2 := t1.setReg (regREF_SLOTOFF i) (ofInt (t1.slotOffset i))
  if t2.slotState i = slWTR then t2.setRfld (regREF_SLOTSTAT i) 16 12 (Nat.max 1 (t2.rfld (regREF_SLOTSTAT i) 16 12 - 1)) else t2

theorem State.slotMeasured_spec (t : State) (offsets : List Word) (i : Nat) :
    ∃ r, t.slotMeasured offsets i = { t with regs := r } ∧ (∀ a, a ≠ regREF_SLOTSTAT i → a ≠ regREF_SLOTOFF i → mapGet regReset r a = t.reg a) ∧
      fld (mapGet regReset r (regREF_SLOTSTAT i)) 29 3 = t.slotState i ∧
      (t.slotState i = 3 → fld (mapGet regReset r (regREF_SLOTSTAT i)) 16 12 = max 1 (t.rfld (regREF_SLOTSTAT i) 16 12 - 1)) ∧
      (2 ≤ t.slotState i → (mapGet regReset r (regREF_SLOTOFF i)).toInt =
        if t.slotType i = 0 then (t.reg (regTIME_RATE (t.slotIndex i % 4))).toInt else (nthD offsets i 0).toInt) := by
  obtain ⟨n1, n2, n3, n4, -, -, -⟩ := slotWords_ne i i i
  obtain ⟨m1, m2, -⟩ := rate_ne (t.slotIndex i) i
  generalize hw : (if slQUAL ≤ t.slotState i then nthD offsets i 0 else t.reg (regREF_SLOTOFF i)) = w
  generalize h1 : (if slQUAL ≤ t.slotState i then t.setReg (regREF_SLOTOFF i) (nthD offsets i 0) else t) = t1
  have hr1 (a : Nat) : t1.reg a = if a = regREF_SLOTOFF i then w else t.reg a := by
    rw [← h1, ← hw]
    split
    · exact State.reg_setReg t _ a _
    · split
      · next h => rw [h]
      · rfl
  have hf1 : ∃ r, t1 = { t with regs := r } := by
    rw [← h1]
    split <;> exact ⟨_, rfl⟩
  have hoff : t1.slotOffset i = if t.slotType i = 0 then (t.reg (regTIME_RATE (t.slotIndex i % 4))).toInt else w.toInt := by
    rw [State.slotOffset_congr t1 ((hr1 _).trans (if_neg n2)) ((hr1 _).trans (if_neg m1)), hr1, if_pos rfl]
  generalize h2 : t1.setReg (regREF_SLOTOFF i) (ofInt (t1.slotOffset i)) = t2
  have hr2 (a : Nat) (h : a ≠ regREF_SLOTOFF i) : t2.reg a = t.reg a := by
    rw [← h2, State.reg_setReg_ne _ _ h, hr1, if_neg h]
  have hf2 : ∃ r, t2 = { t with regs := r } := by
    obtain ⟨r, e⟩ := hf1
    rw [← h2, e]
    exact ⟨_, rfl⟩
  have hs2 : t2.reg (regREF_SLOTSTAT i) = t.reg (regREF_SLOTSTAT i) := hr2 _ n1
  have hst : t2.slotState i = t.slotState i := congrArg (fld · 29 3) hs2
  have hwt : t2.rfld (regREF_SLOTSTAT i) 16 12 = t.rfld (regREF_SLOTSTAT i) 16 12 := congrArg (fld · 16 12) hs2
  have hbound (w v : Word) : -2 ^ 31 ≤ (if t.slotType i = 0 then w.toInt else v.toInt) ∧ (if t.slotType i = 0 then w.toInt else v.toInt) < 2 ^ 31 := by
    have ha := BitVec.le_toInt w
    have hb := BitVec.toInt_lt (x := w)
    have hc := BitVec.le_toInt v
    have hd := BitVec.toInt_lt (x := v)
    split <;> omega
  have ho2 : (t2.reg (regREF_SLOTOFF i)).toInt = if t.slotType i = 0 then (t.reg (regTIME_RATE (t.slotIndex i % 4))).toInt else w.toInt := by
    rw [← h2, State.reg_setReg_self, hoff]
    exact ofInt_toInt _ (hbound _ _).1 (hbound _ _).2
  have hw2 (h : 2 ≤ t.slotState i) : w = nthD offsets i 0 := by
    rw [← hw]
    exact if_pos h
  generalize h3 : (if t2.slotState i = slWTR then t2.setRfld (regREF_SLOTSTAT i) 16 12 (Nat.max 1 (t2.rfld (regREF_SLOTSTAT i) 16 12 - 1)) else t2) = t3
  have he : t.slotMeasured offsets i = t3 := by rw [← h3, ← h2, ← h1]; rfl
  obtain ⟨r2, e2⟩ := hf2
  by_cases hwtr : t2.slotState i = slWTR
  · have e3 : t3 = t2.setRfld (regREF_SLOTSTAT i) 16 12 (Nat.max 1 (t2.rfld (regREF_SLOTSTAT i) 16 12 - 1)) := by rw [← h3]; exact if_pos hwtr
    refine ⟨t3.regs, ?_, fun a ha hb => ?_, ?_, fun _ => ?_, fun h => ?_⟩
    · rw [he, e3, e2]
      rfl
    · rw [e3]
      exact (State.reg_setReg_ne t2 _ ha).trans (hr2 a hb)
    · rw [e3]
      exact (State.rfld_setRfld_ne t2 _ _ _ _ _ _ _ (by decide) (.inr (.inl (by decide)))).trans hst
    · rw [e3]
      refine (State.rfld_setRfld_self t2 _ 16 12 _ (by decide)).trans ?_
      rw [hwt]
      have hlt : t.rfld (regREF_SLOTSTAT i) 16 12 < 2 ^ 12 := Nat.mod_lt _ (by decide)
      exact Nat.mod_eq_of_lt (Nat.max_lt.2 ⟨by decide, by omega⟩)
    · rw [e3, ← hw2 h]
      exact (congrArg BitVec.toInt (State.reg_setReg_ne t2 _ n4)).trans ho2
  · have e3 : t3 = t2 := by rw [← h3]; exact if_neg hwtr
    refine ⟨t2.regs, ?_, fun a _ hb => hr2 a hb, hst, fun h => absurd (hst.trans h) hwtr, fun h => ?_⟩
    · rw [he, e3, e2]
    · rw [← hw2 h]
      exact ho2

/-- A second of slot `i`, seen from a state with the same configuration and the same word of the slot. -/
theorem State.slotSecond_spec (s t : State) (offsets : List Word) (i : Nat) (hcfg : t.reg (regREF_SLOTCFG i) = s.reg (regREF_SLOTCFG i))
    (hrate : t.reg (regTIME_RATE (s.slotIndex i % 4)) = s.reg (regTIME_RATE (s.slotIndex i % 4))) (hstat : t.reg (regREF_SLOTSTAT i) = s.reg (regREF_SLOTSTAT i)) :
    (∃ r, t.slotSecond offsets i = { t with regs := r } ∧
      ∀ a, a ≠ regREF_HIST → a ≠ regREF_SLOTSTAT i → a ≠ regREF_SLOTOFF i → mapGet regReset r a = t.reg a) ∧ SlotUpdated s offsets i (t.slotSecond offsets i) := by
  obtain ⟨n1, n2, n3, n4, -, n6, -⟩ := slotWords_ne i i i
  obtain ⟨m1, m2, m3⟩ := rate_ne (s.slotIndex i) i
  have hst : t.slotState i = s.slotState i := congrArg (fld · 29 3) hstat
  have hty : t.slotType i = s.slotType i := congrArg (fld · 28 3) hcfg
  have hix : t.slotIndex i = s.slotIndex i := congrArg (fld · 24 4) hcfg
  have hwt : t.rfld (regREF_SLOTSTAT i) 16 12 = s.rfld (regREF_SLOTSTAT i) 16 12 := congrArg (fld · 16 12) hstat
  obtain ⟨r3, e3, k3, st3, w3, o3⟩ := t.slotMeasured_spec offsets i
  rw [hst] at st3 w3 o3
  rw [hwt] at w3
  rw [hty, hix, hrate] at o3
  generalize hm : t.slotMeasured offsets i = t3 at e3
  have hreg3 (a : Nat) : t3.reg a = mapGet regReset r3 a := by rw [e3]; rfl
  have hs3 : t3.slotState i = s.slotState i := (congrArg (fld · 29 3) (hreg3 (regREF_SLOTSTAT i))).trans st3
  have he : t.slotSecond offsets i = if decide (slQUAL ≤ t3.slotState i) && t3.slotFar i then t3.slotInvalid i else t3 := by rw [← hm]; rfl
  have hoff : t3.slotOffset i = if s.slotType i = 0 then (s.reg (regTIME_RATE (s.slotIndex i % 4))).toInt else (t3.reg (regREF_SLOTOFF i)).toInt :=
    State.slotOffset_congr t3 ((hreg3 _).trans ((k3 _ n3 n2).trans hcfg)) ((hreg3 _).trans ((k3 _ m2 m1).trans hrate))
  have hoff2 (h : 2 ≤ s.slotState i) : t3.slotOffset i = if s.slotType i = 0 then (s.reg (regTIME_RATE (s.slotIndex i % 4))).toInt else (nthD offsets i 0).toInt := by
    rw [hoff, hreg3, o3 h]
    split <;> rfl
  by_cases hfar : (decide (slQUAL ≤ t3.slotState i) && t3.slotFar i) = true
  · obtain ⟨r4, e4, k4, st4⟩ := t3.slotInvalid_shape i
    have hq : 2 ≤ s.slotState i ∧ 495000000 < (t3.slotOffset i).natAbs := by
      rw [Bool.and_eq_true, decide_eq_true_eq, State.slotFar, decide_eq_true_eq, hs3] at hfar
      exact hfar
    rw [he, if_pos hfar, e4]
    refine ⟨⟨r4, by rw [e3], fun a h1 h2 h3 => (k4 a h1 h2).trans ((hreg3 a).trans (k3 a h2 h3))⟩, fun h => absurd hq.1 (by omega), fun h => ⟨?_, fun hn => ?_, fun _ => st4⟩,
      fun _ hn => ?_⟩
    · exact (congrArg BitVec.toInt ((k4 _ (Ne.symm n6) n4).trans (hreg3 _))).trans (o3 h)
    · rw [← hoff2 h] at hn
      exact absurd hq.2 (by omega)
    · rw [← hoff2 hq.1] at hn
      exact absurd hq.2 (by omega)
  · rw [he, if_neg hfar]
    have hnear (h : 2 ≤ s.slotState i) : ¬ 495000000 < (t3.slotOffset i).natAbs := fun hn => hfar (by
      rw [Bool.and_eq_true, decide_eq_true_eq, State.slotFar, decide_eq_true_eq, hs3]
      exact ⟨h, hn⟩)
    refine ⟨⟨r3, e3, fun a _ h2 h3 => k3 a h2 h3⟩, fun _ => hs3, fun h => ⟨?_, fun _ => hs3, fun hn => ?_⟩, fun h _ => ?_⟩
    · exact (congrArg BitVec.toInt (hreg3 _)).trans (o3 h)
    · rw [← hoff2 h] at hn
      exact absurd hn (hnear h)
    · exact (congrArg (fld · 16 12) (hreg3 _)).trans (w3 h)

theorem slotWords_other {i j : Nat} (h : i ≠ j) : regREF_SLOTSTAT i ≠ regREF_SLOTSTAT j ∧ regREF_SLOTSTAT i ≠ regREF_SLOTOFF j ∧
    regREF_SLOTOFF i ≠ regREF_SLOTSTAT j ∧ regREF_SLOTOFF i ≠ regREF_SLOTOFF j ∧ regREF_SLOTSTAT i ≠ regREF_HIST ∧ regREF_SLOTOFF i ≠ regREF_HIST := by
  simp only [regREF_SLOTSTAT, regREF_SLOTOFF, regREF_HIST]
  omega

/-- A second of several slots, each of which sees the configuration of `s` and its own word of `s`. -/
theorem State.slotsSecond_spec (s : State) (offsets : List Word) (l : List Nat) (hl : l.Nodup) (t : State) (hcfg : ∀ i, t.reg (regREF_SLOTCFG i) = s.reg (regREF_SLOTCFG i))
    (hrate : ∀ k, t.reg (regTIME_RATE (k % 4)) = s.reg (regTIME_RATE (k % 4))) (hstat : ∀ i ∈ l, t.reg (regREF_SLOTSTAT i) = s.reg (regREF_SLOTSTAT i)) :
    let u := l.foldl (fun (t : State) i => t.slotSecond offsets i) t
    (∃ r, u = { t with regs := r }) ∧ (∀ i ∈ l, SlotUpdated s offsets i u) ∧
      ∀ i, i ∉ l → u.reg (regREF_SLOTSTAT i) = t.reg (regREF_SLOTSTAT i) ∧ u.reg (regREF_SLOTOFF i) = t.reg (regREF_SLOTOFF i) := by
  induction l generalizing t with
  | nil => exact ⟨⟨t.regs, rfl⟩, fun i hi => absurd hi List.not_mem_nil, fun _ _ => ⟨rfl, rfl⟩⟩
  | cons x l ih =>
    obtain ⟨hx, hl'⟩ := List.nodup_cons.1 hl
    obtain ⟨⟨r, e, hk⟩, hone⟩ := State.slotSecond_spec s t offsets x (hcfg x) (hrate _) (hstat x List.mem_cons_self)
    have hreg (a : Nat) (h1 : a ≠ regREF_HIST) (h2 : a ≠ regREF_SLOTSTAT x) (h3 : a ≠ regREF_SLOTOFF x) : (t.slotSecond offsets x).reg a = t.reg a := by
      rw [e]
      exact hk a h1 h2 h3
    have hother (i : Nat) (h : i ≠ x) : (t.slotSecond offsets x).reg (regREF_SLOTSTAT i) = t.reg (regREF_SLOTSTAT i) ∧
        (t.slotSecond offsets x).reg (regREF_SLOTOFF i) = t.reg (regREF_SLOTOFF i) := by
      obtain ⟨o1, o2, o3, o4, o5, o6⟩ := slotWords_other h
      exact ⟨hreg _ o5 o1 o2, hreg _ o6 o3 o4⟩
    obtain ⟨⟨r2, e2⟩, hall, hrest⟩ := ih hl' (t.slotSecond offsets x)
      (fun i => (hreg _ (slotWords_ne i i i).2.2.2.2.2.2.symm (slotWords_ne x x i).2.2.1 (slotWords_ne x x i).2.1).trans (hcfg i))
      (fun k => (hreg _ (rate_ne k x).2.2 (rate_ne k x).2.1 (rate_ne k x).1).trans (hrate k))
      fun i hi => (hother i fun h => hx (h ▸ hi)).1.trans (hstat i (List.mem_cons_of_mem x hi))
    refine ⟨⟨r2, ?_⟩, fun i hi => ?_, fun i hi => ?_⟩
    · rw [e] at e2
      exact (congrArg (fun u : State => l.foldl (fun (t : State) i => t.slotSecond offsets i) u) e).trans e2
    · rcases List.mem_cons.1 hi with rfl | hi
      · exact hone.of_words (hrest i hx).1 (hrest i hx).2
      · exact hall i hi
    · have hn : i ≠ x ∧ i ∉ l := ⟨fun h => hi (h ▸ List.mem_cons_self), fun h => hi (List.mem_cons_of_mem x h)⟩
      exact ⟨(hrest i hn.2).1.trans (hother i hn.1).1, (hrest i hn.2).2.trans (hother i hn.1).2⟩

/-! ## What follows a second leaves the slots alone -/

/-- The words of the slots and the recorded means are kept. -/
structure SlotsKept (s t : State) : Prop where
  means : t.refMeans = s.refMeans
  sec : t.refSec = s.refSec
  words : ∀ a, a / 0x10000 = 14 → 0xE0040 ≤ a → t.reg a = s.reg a

namespace SlotsKept

variable {s t u : State}

theorem refl (s : State) : SlotsKept s s := ⟨rfl, rfl, fun _ _ _ => rfl⟩

theorem of_fields (h : SlotsKept s t) (e : (u.refMeans, u.refSec, u.regs) = (t.refMeans, t.refSec, t.regs) := by with_reducible rfl) : SlotsKept s u := by
  simp only [Prod.mk.injEq] at e
  obtain ⟨e1, e2, e3⟩ := e
  refine ⟨e1.trans h.means, e2.trans h.sec, fun a ha hb => ?_⟩
  rw [State.reg, e3]
  exact h.words a ha hb

theorem ite {c : Prop} [Decidable c] (h : SlotsKept s t) (g : SlotsKept s u) : SlotsKept s (if c then t else u) := by
  split
  · exact h
  · exact g

theorem foldl {α : Type} {f : State → α → State} {l : List α} (hf : ∀ t, ∀ a ∈ l, SlotsKept s t → SlotsKept s (f t a)) (h : SlotsKept s t) :
    SlotsKept s (l.foldl f t) := by
  induction l generalizing t with
  | nil => exact h
  | cons a l ih => exact ih (fun t b hb => hf t b (List.mem_cons_of_mem a hb)) (hf t a List.mem_cons_self h)

theorem setReg {a : Nat} {v : Word} (ha : a < 0xE0040) (h : SlotsKept s t) : SlotsKept s (t.setReg a v) :=
  ⟨h.means, h.sec, fun b hb hc => (State.reg_setReg_ne _ _ (by omega)).trans (h.words b hb hc)⟩

theorem raiseEvent {e : Nat} {pl : Word} (he : e < 128) (h : SlotsKept s t) : SlotsKept s (t.raiseEvent e pl) := by
  refine ⟨?_, ?_, fun a ha hb => (State.raiseEvent_reg_block t e pl a he (by omega)).trans (h.words a ha hb)⟩
  · rw [State.raiseEvent_frame]
    exact h.means
  · rw [State.raiseEvent_frame]
    exact h.sec

theorem raiseAll {src : Nat} (hs : src < 256) (h : SlotsKept s t) : SlotsKept s (t.raiseAll [src] none) := by
  have hf := t.raiseAll_shape [src] none
  unfold State.faultShape at hf
  refine ⟨?_, ?_, fun a ha hb => (State.raiseAll_reg t src none a hs (by omega) (fun e => by rw [e] at ha; exact absurd ha (by decide))
    (fun e => by rw [e] at ha; exact absurd ha (by decide)) (fun e => by rw [e] at ha; exact absurd ha (by decide))
    fun e => by rw [e] at ha; exact absurd ha (by decide)).trans (h.words a ha hb)⟩
  · rw [hf]
    exact h.means
  · rw [hf]
    exact h.sec

theorem creset {src : Nat} (h : SlotsKept s t) : SlotsKept s (t.creset src) := by
  rw [State.creset_frame]
  exact h.of_fields rfl

theorem causeBegins {src : Nat} (hs : src < 256) (h : SlotsKept s t) : SlotsKept s (t.causeBegins src) := by
  have h1 : SlotsKept s (t.setRbit (regFAULT_CAUSE (src / 32)) (src % 32)) := setReg (by rw [regFAULT_CAUSE]; omega) h
  exact ite h1 (ite h1 (creset (raiseAll hs h1)))

theorem setCause {src : Nat} {b : Bool} (hs : src < 256) (h : SlotsKept s t) : SlotsKept s (t.setCause src b) :=
  ite (causeBegins hs h) (setReg (by rw [regFAULT_CAUSE]; omega) h)

theorem alignBits (h : SlotsKept s t) : SlotsKept s t.alignBits := by
  refine foldl (fun t b hb h => setReg ?_ h) h
  simp only [List.mem_cons, List.not_mem_nil, or_false] at hb
  rw [regTIME_STAT]
  omega

theorem hoUpdate (h : SlotsKept s t) : SlotsKept s t.hoUpdate := ite (setReg (by decide) h) (setReg (by decide) (setReg (by decide) h))

theorem refHead {st : Nat} (h : SlotsKept s t) : SlotsKept s (t.refHead st) := by
  have h1 : SlotsKept s (t.setRfld regREF_STATE 0 3 st) := setReg (by decide) h
  have h2 : SlotsKept s (match histBit st with | some b => (t.setRfld regREF_STATE 0 3 st).setRbit regREF_HIST b | none => t.setRfld regREF_STATE 0 3 st) := by
    split
    · exact setReg (by decide) h1
    · exact h1
  exact ite (setReg (by decide) h2) (ite (hoUpdate (setReg (by decide) h2)) h2)

theorem refGo {st : Nat} (h : SlotsKept s t) : SlotsKept s (t.refGo st) := by
  by_cases he : t.refState = st
  · rw [State.refGo_eq t st he]
    exact alignBits (setReg (by decide) h)
  · rw [State.refGo_ne t st he]
    exact alignBits (raiseEvent (by decide) (setCause (by decide) (setCause (by decide) (refHead h))))

theorem deselect (h : SlotsKept s t) : SlotsKept s t.deselect := by
  have h1 : SlotsKept s t.draw.2 := h.of_fields rfl
  exact ite (setReg (by decide) (setReg (by decide) h1)) h

theorem acquire {i : Nat} (h : SlotsKept s t) : SlotsKept s (t.acquire i) := by
  have h1 : SlotsKept s (t.selectSlot i) := ite h (setReg (by decide) (setReg (by decide) (setReg (by decide) (setReg (by decide) h))))
  exact ite (refGo h1) (raiseEvent (by decide) (refGo h1))

theorem refRelease {w : Word} {st : Nat} (h : SlotsKept s t) : SlotsKept s (t.refRelease w st) := refGo (setReg (by decide) (deselect h))

theorem refLoss (h : SlotsKept s t) : SlotsKept s t.refLoss := by
  unfold State.refLoss
  split
  · exact acquire h
  · exact ite (refRelease h) (refRelease h)

theorem refMove (h : SlotsKept s t) : SlotsKept s t.refMove := by
  refine ite h (ite (ite (deselect h) (refRelease h)) (ite ?_ ?_))
  · split
    · exact acquire h
    · exact h
  · split
    · exact refLoss h
    · refine ite (refLoss h) (ite ?_ h)
      split
      · exact acquire h
      · exact h

theorem refEval (h : SlotsKept s t) : SlotsKept s t.refEval := by
  have h1 : SlotsKept s t.disFollow := h.of_fields rfl
  exact refMove h1

theorem disagree (h : SlotsKept s t) : SlotsKept s t.disagree := by
  unfold State.disagree
  extract_lets thr diff still fresh
  have h1 : SlotsKept s { t with disPairs := still ++ fresh.map fun p => p.1 * 8 + p.2 } := h.of_fields rfl
  exact foldl (fun _ _ _ h => raiseEvent (by decide) (setReg (by decide) h)) h1

end SlotsKept

/-- The state at the end of a second, before the selector follows (R283, R291). -/
def State.secondTaken (s : State) (mean : Word) (whole : Bool) : State :=
  let rec1 := if whole && decide (s.refState = rLOCKED) then (s.refSec, mean.toInt) :: s.refMeans else s.refMeans
  { s with refMeans := rec1.take 1280, refSec := s.refSec + 1 }

/-- The whole of a second (R283, R284, R290, R291). -/
def State.secondDone (s : State) (mean : Word) (whole : Bool) (offsets : List Word) : State :=
  let s3 := (slotIds.foldl (fun (t : State) i => t.slotSecond offsets i) (s.secondTaken mean whole)).refEval
  (if s3.refState = rLOCKED then s3.hoUpdate else s3).disagree

theorem exec_selectorSecond (mean : Word) (whole : Bool) (offsets : List Word) :
    exec (.selectorSecond mean whole offsets) s = .next (s.secondDone mean whole offsets) := rfl

theorem State.secondDone_spec (mean : Word) (whole : Bool) (offsets : List Word) :
    let t := s.secondDone mean whole offsets
    t.refSec = s.refSec + 1 ∧ (whole = true → s.refState = 2 → t.refMeans = ((s.refSec, mean.toInt) :: s.refMeans).take 1280) ∧
      ((whole = false ∨ s.refState ≠ 2) → t.refMeans = s.refMeans.take 1280) ∧ ∀ i, i < 8 → SlotUpdated s offsets i t := by
  intro t
  obtain ⟨⟨r, e⟩, hall, -⟩ := State.slotsSecond_spec s offsets slotIds (by decide) (s.secondTaken mean whole) (fun _ => rfl) (fun _ => rfl) fun _ _ => rfl
  generalize hu : slotIds.foldl (fun (t : State) i => t.slotSecond offsets i) (s.secondTaken mean whole) = u at e hall
  have hk : SlotsKept u t := by
    rw [← hu]
    exact .disagree (.ite (.hoUpdate (.refEval (.refl _))) (.refEval (.refl _)))
  have hmeans : t.refMeans = (s.secondTaken mean whole).refMeans := by
    rw [hk.means, e]
  refine ⟨?_, fun hw hs => ?_, fun h => ?_, fun i hi => ?_⟩
  · rw [hk.sec, e]
    rfl
  · have hc : (whole && decide (s.refState = rLOCKED)) = true := by
      rw [hw, hs]
      rfl
    rw [hmeans, State.secondTaken, if_pos hc]
  · have hc : ¬ (whole && decide (s.refState = rLOCKED)) = true := by
      rw [Bool.and_eq_true, decide_eq_true_eq]
      rintro ⟨h1, h2⟩
      rcases h with h | h
      · exact Bool.false_ne_true (h.symm.trans h1)
      · exact h h2
    rw [hmeans, State.secondTaken, if_neg hc]
  · have hmem : i ∈ slotIds := by
      simp only [slotIds, List.mem_cons, List.not_mem_nil, or_false]
      omega
    refine (hall i hmem).of_words (hk.words _ ?_ ?_) (hk.words _ ?_ ?_) <;> simp only [regREF_SLOTSTAT, regREF_SLOTOFF] <;> omega

/-! ## Commands of the generators (R294, R295, R297) -/

section
variable {s} {g : Fin 4}

theorem exec_realign_off (m : Master) (v : Word) (h : bit v 31 = false) :
    exec (.realign m g v) s = .next ({ (((s.regStore (regREF_OUTCFG g.val) v).putRbit (regREF_OUTSTAT g.val) 31 false).putRbit (regREF_OUTSTAT g.val) 30 false) with
      genReq := (s.regStore (regREF_OUTCFG g.val) v).genReq.filter fun x => decide (x ≠ g.val) } : State).genPins :=
  congrArg (fun u : State => Host.Outcome.next u.genPins) (if_pos (by rw [h]; rfl))

theorem exec_realign_on (m : Master) (v : Word) (h : bit v 31 = true) :
    exec (.realign m g v) s = .next (if !s.rbit (regREF_OUTCFG g.val) 31 || bit v 24 then (s.regStore (regREF_OUTCFG g.val) v).genRequest g.val
      else s.regStore (regREF_OUTCFG g.val) v).genPins :=
  congrArg (fun u : State => Host.Outcome.next u.genPins) (if_neg (by rw [h]; exact Bool.false_ne_true))

theorem exec_generatorAlign_none (present : Bool) (h : g.val ∉ s.genReq) : exec (.generatorAlign g present) s = .next s :=
  congrArg Host.Outcome.next (if_neg fun hc => h (List.contains_iff_mem.1 hc))

theorem exec_generatorAlign_absent (present : Bool) (h : g.val ∈ s.genReq) (hp : (present && s.genSource g.val) = false) :
    exec (.generatorAlign g present) s = .next (s.setRbit (regREF_OUTSTAT g.val) 30) :=
  congrArg Host.Outcome.next ((if_pos (List.contains_iff_mem.2 h)).trans (if_neg (Bool.eq_false_iff.1 hp)))

theorem exec_generatorAlign_present (h : g.val ∈ s.genReq) (hp : s.genSource g.val = true) :
    exec (.generatorAlign g true) s = .next ({ ((s.setRbit (regREF_OUTSTAT g.val) 31).putRbit (regREF_OUTSTAT g.val) 30 false).setRbit (regREF_OUTSTAT g.val) 29 with
      genReq := s.genReq.filter fun x => decide (x ≠ g.val) } : State).genPins :=
  congrArg Host.Outcome.next ((if_pos (List.contains_iff_mem.2 h)).trans (if_pos hp))

theorem State.genPins_pin : s.genPins.timing.pins[g.val]? = some (s.genPin g.val) := by
  fin_cases g <;> rfl

theorem State.genPin_spec : ((s.ticking = false ∨ s.ownCur = false) → s.genPin g.val = .highZ) ∧
    (s.ticking = true → s.ownCur = true →
      (s.rbit (regREF_OUTCFG g.val) 31 = true → s.rbit (regREF_OUTSTAT g.val) 31 = true → s.genPin g.val = .edges) ∧
      ((s.rbit (regREF_OUTCFG g.val) 31 = false ∨ s.rbit (regREF_OUTSTAT g.val) 31 = false) → s.genPin g.val = .level (s.rbit (regREF_OUTCFG g.val) 25))) := by
  refine ⟨fun h => if_pos ?_, fun ht ho => ⟨fun hc hs => ?_, fun h => ?_⟩⟩
  · rcases h with h | h <;> rw [h]
    · rfl
    · exact Bool.or_true _
  · rw [State.genPin, ht, ho, hc, hs]
    rfl
  · have hn : ¬ (s.rbit (regREF_OUTCFG g.val) 31 && s.rbit (regREF_OUTSTAT g.val) 31) = true := by
      rw [Bool.and_eq_true]
      rintro ⟨h1, h2⟩
      rcases h with h | h
      · exact Bool.false_ne_true (h.symm.trans h1)
      · exact Bool.false_ne_true (h.symm.trans h2)
    rw [State.genPin, ht, ho]
    exact if_neg hn

end

/-- Settles O49: what a state change and a second leave alone, and the requests of the generators. -/
theorem selectorAndGenerators : Obligations.SelectorAndGenerators := by
  refine ⟨fun s m err v mean whole offs => ⟨fun h hs he => ⟨exec_lockAchieved_acquired err h hs he, State.refLocked_state err⟩,
    fun h hw => ⟨_, exec_lockLost_far err h hw, State.lockLost_spec err h⟩, fun h hc => ?_, exec_refFault_idle, State.refCause_iff, fun h hc => ?_, fun hc => ?_, ?_, ?_,
    s.secondDone mean whole offs, rfl, s.secondDone_spec mean whole offs⟩, fun s m g v => ⟨?_, ?_, ?_, ?_, ?_, ?_, rfl, rfl⟩⟩
  · obtain ⟨r1, r2, r3⟩ := s.refRelease_spec (if 0 < s.hoCount then s.reg regREF_HOAVG else s.reg regREF_FREE) rFAULT (by decide)
    exact ⟨_, exec_refFault_raised h hc, r1, r2, s.refRelease_fault _ h, r3⟩
  · have hn : s.refState = rFAULT ∧ (!s.refCause) = true := ⟨h, by rw [hc]; rfl⟩
    exact ⟨congrArg Host.Outcome.next (if_pos hn), s.refRelease_spec (s.reg regREF_FREE) rFREERUN (by decide)⟩
  · have hn : ¬ (s.refState = rFAULT ∧ (!s.refCause) = true) := by
      rw [hc]
      exact fun h => Bool.false_ne_true h.2
    exact congrArg Host.Outcome.next (if_neg hn)
  · exact congrArg (fun u : State => Host.Outcome.next u.refEval) (s.regStore_refCtrl v)
  · exact ⟨clampSigned 500000000 v, clampSigned_toInt v, fun h => congrArg Host.Outcome.next (if_pos h), fun h => congrArg Host.Outcome.next (if_neg h)⟩
  · intro hv
    exact exec_realign_off m v hv
  · intro hv hc h24
    refine (exec_realign_on m v hv).trans (congrArg (fun u : State => Host.Outcome.next u.genPins) (if_neg ?_))
    have hc' : s.rbit (regREF_OUTCFG g.val) 31 = true := hc
    rw [hc', h24]
    exact Bool.false_ne_true
  · intro hv hc
    obtain ⟨r0, k0, q0, e0⟩ := s.regStore_shape (regREF_OUTCFG g.val) v
    generalize hu : s.regStore (regREF_OUTCFG g.val) v = u at e0
    obtain ⟨q, r, e, hg, hx, hreg, hbit⟩ := u.genRequest_shape g.val
    refine ⟨u.genRequest g.val, ?_, ?_, ?_, fun x hne => ?_, ⟨?_, fun a ha => ?_⟩, ?_⟩
    · refine (exec_realign_on m v hv).trans ?_
      rw [hu]
      refine congrArg (fun u : State => Host.Outcome.next u.genPins) (if_pos ?_)
      have hc' : s.rbit (regREF_OUTCFG g.val) 31 = false ∨ bit v 24 = true := hc
      rcases hc' with h | h <;> rw [h]
      · rfl
      · exact Bool.or_true _
    · rw [e]
    · rw [e]
      exact hg
    · rw [e]
      refine (hx x hne).trans ?_
      rw [e0]
    · rw [e]
    · rw [e]
      exact hreg a fun h => ha (List.mem_singleton.2 h)
    · rw [e]
      exact hbit
  · intro hmem
    refine ⟨fun hp => exec_generatorAlign_present hmem hp, fun hp => ?_, exec_generatorAlign_absent false hmem rfl⟩
    exact exec_generatorAlign_absent true hmem hp
  · exact fun h => ⟨exec_generatorAlign_none true h, exec_generatorAlign_none false h⟩
  · exact ⟨_, State.genPins_pin, State.genPin_spec⟩

end Sys2Proof.Machine
end

section
/-! Reference slots: qualification, loss and configuration (R283, R284). -/

namespace Sys2Proof.Machine

-- One theorem after another, so that the compile of the whole text stays within its memory.
set_option Elab.async false

/-! ## A register written twice -/

section
variable {α : Type}

theorem mapDel_mapDel (m : List (Nat × α)) (k : Nat) : mapDel (mapDel m k) k = mapDel m k := by
  induction m with
  | nil => rfl
  | cons e t ih =>
    rw [mapDel]
    split
    · exact ih
    · next h => rw [mapDel, if_neg h, ih]

theorem mapDel_mapIns (m : List (Nat × α)) (k : Nat) (v : α) : mapDel (mapIns m k v) k = mapDel m k := by
  induction m with
  | nil => exact if_pos rfl
  | cons e t ih =>
    rw [mapIns]
    split
    · exact if_pos rfl
    · rw [mapDel, mapDel, ih]

theorem mapSet_mapSet [DecidableEq α] (d : Nat → α) (m : List (Nat × α)) (k : Nat) (v w : α) : mapSet d (mapSet d m k v) k w = mapSet d m k w := by
  have h : mapDel (mapSet d m k v) k = mapDel m k := by
    rw [mapSet]
    split
    · exact mapDel_mapDel m k
    · exact (mapDel_mapIns _ k v).trans (mapDel_mapDel m k)
  rw [mapSet, h]
  rfl

end

theorem State.setReg_setReg (s : State) (a : Nat) (v w : Word) : (s.setReg a v).setReg a w = s.setReg a w := by
  have h : mapSet regReset (mapSet regReset s.regs a v) a w = mapSet regReset s.regs a w := mapSet_mapSet _ _ _ _ _
  show { s with regs := mapSet regReset (mapSet regReset s.regs a v) a w } = { s with regs := mapSet regReset s.regs a w }
  rw [h]

/-! ## The source of a slot (R283) -/

section
variable {s : State} {i : Fin 8}

/-- A slot that has found its source, with the offset measured there (R283). -/
def State.slotFound (s : State) (i : Nat) (off : Word) : State :=
  let s1 := (s.putRbit (regREF_SLOTSTAT i) 28 false).setReg (regREF_SLOTOFF i) off
  s1.setReg (regREF_SLOTOFF i) (ofInt (s1.slotOffset i))

theorem exec_sourcePresent_idle (hz : BitVec 18) (off : Word) (h : s.slotState i.val ≠ 1 ∨ s.slotSource i.val = false) : exec (.sourcePresent i hz off) s = .next s := by
  refine congrArg Host.Outcome.next (if_neg ?_)
  rintro ⟨h1, h2⟩
  rcases h with h | h
  · exact h h1
  · exact Bool.false_ne_true (h.symm.trans h2)

theorem exec_sourcePresent_rateError (hz : BitVec 18) (off : Word) (h : s.slotState i.val = 1) (hs : s.slotSource i.val = true) (hr : s.slotRateOk i.val hz.toNat = false) :
    exec (.sourcePresent i hz off) s = .next (s.setRbit (regREF_SLOTSTAT i.val) 28) := by
  refine congrArg Host.Outcome.next ((if_pos ⟨h, hs⟩).trans (if_pos ?_))
  rw [hr]
  rfl

theorem exec_sourcePresent_found (hz : BitVec 18) (off : Word) (h : s.slotState i.val = 1) (hs : s.slotSource i.val = true) (hr : s.slotRateOk i.val hz.toNat = true) :
    exec (.sourcePresent i hz off) s = .next (if ((s.slotFound i.val off).slotOffset i.val).natAbs ≤ 490000000 then (s.slotFound i.val off).setSlot i.val slQUAL
      else s.slotFound i.val off) := by
  refine congrArg Host.Outcome.next ((if_pos ⟨h, hs⟩).trans (if_neg ?_))
  rw [hr]
  exact Bool.false_ne_true

/-- What the slot's configuration says stays readable through the words of the slot. -/
theorem State.slotFound_config (i : Nat) (t : State) (ht : ∀ a, a ≠ regREF_SLOTSTAT i → a ≠ regREF_SLOTOFF i → t.reg a = s.reg a) :
    t.slotOffset i = if s.slotType i = 0 then (s.reg (regTIME_RATE (s.slotIndex i % 4))).toInt else (t.reg (regREF_SLOTOFF i)).toInt :=
  State.slotOffset_congr t (ht _ (slotWords_ne i i i).2.2.1 (slotWords_ne i i i).2.1) (ht _ (rate_ne _ i).2.1 (rate_ne _ i).1)

theorem State.slotFound_spec (s : State) (i : Nat) (off : Word) :
    s.slotFound i off = (s.putRbit (regREF_SLOTSTAT i) 28 false).setReg (regREF_SLOTOFF i)
      (if s.slotType i = 0 then s.reg (regTIME_RATE (s.slotIndex i % 4)) else off) ∧
    (s.slotFound i off).slotOffset i = (if s.slotType i = 0 then s.reg (regTIME_RATE (s.slotIndex i % 4)) else off).toInt := by
  have hkeep (w : Word) : ∀ a, a ≠ regREF_SLOTSTAT i → a ≠ regREF_SLOTOFF i → ((s.putRbit (regREF_SLOTSTAT i) 28 false).setReg (regREF_SLOTOFF i) w).reg a = s.reg a :=
    fun a h1 h2 => (State.reg_setReg_ne _ _ h2).trans (State.reg_putRbit_ne s _ _ _ _ h1)
  have hoff (w : Word) : ((s.putRbit (regREF_SLOTSTAT i) 28 false).setReg (regREF_SLOTOFF i) w).slotOffset i =
      if s.slotType i = 0 then (s.reg (regTIME_RATE (s.slotIndex i % 4))).toInt else w.toInt := by
    rw [State.slotFound_config i _ (hkeep w), State.reg_setReg_self]
  have hword : ofInt (((s.putRbit (regREF_SLOTSTAT i) 28 false).setReg (regREF_SLOTOFF i) off).slotOffset i) =
      if s.slotType i = 0 then s.reg (regTIME_RATE (s.slotIndex i % 4)) else off := by
    rw [hoff]
    split <;> exact BitVec.ofInt_toInt
  have he : s.slotFound i off = (s.putRbit (regREF_SLOTSTAT i) 28 false).setReg (regREF_SLOTOFF i)
      (if s.slotType i = 0 then s.reg (regTIME_RATE (s.slotIndex i % 4)) else off) := by
    rw [State.slotFound, hword]
    exact State.setReg_setReg _ _ _ _
  refine ⟨he, ?_⟩
  rw [he, hoff]
  split <;> rfl

/-- A slot of a time base takes the rate of its base as offset (R283). -/
theorem State.slotFound_timeBase (off : Word) (h : s.slotState i.val = 1) (ht : s.slotType i.val = 0) :
    let rate := s.reg (regTIME_RATE (s.slotIndex i.val % 4))
    let u := s.slotFound i.val off
    let t := if (u.slotOffset i.val).natAbs ≤ 490000000 then u.setSlot i.val slQUAL else u
    OnlyRegs [regREF_SLOTSTAT i.val, regREF_SLOTOFF i.val] s t ∧ t.reg (regREF_SLOTOFF i.val) = rate ∧ t.slotState i.val = if rate.toInt.natAbs ≤ 490000000 then 2 else 1 := by
  intro rate u t
  obtain ⟨he, ho⟩ := s.slotFound_spec i.val off
  rw [if_pos ht] at he ho
  have hu (a : Nat) : u.reg a = if a = regREF_SLOTOFF i.val then rate else (s.putRbit (regREF_SLOTSTAT i.val) 28 false).reg a := by
    show (s.slotFound i.val off).reg a = _
    rw [he]
    exact State.reg_setReg _ _ _ _
  have hstat : u.slotState i.val = 1 := by
    have h1 : u.reg (regREF_SLOTSTAT i.val) = (s.putRbit (regREF_SLOTSTAT i.val) 28 false).reg (regREF_SLOTSTAT i.val) := (hu _).trans (if_neg (slotWords_ne i.val i.val 0).1)
    exact (congrArg (fld · 29 3) h1).trans ((State.rfld_putRbit s _ _ _ _ _ _ (by decide) (.inr (.inl (by decide)))).trans h)
  have hkeep (a : Nat) (ha : a ∉ [regREF_SLOTSTAT i.val, regREF_SLOTOFF i.val]) : u.reg a = s.reg a := by
    rw [List.mem_cons, List.mem_singleton, not_or] at ha
    exact (hu a).trans ((if_neg ha.2).trans (State.reg_putRbit_ne s _ _ _ _ ha.1))
  have hframe : u = { s with regs := u.regs } := by
    show s.slotFound i.val off = { s with regs := (s.slotFound i.val off).regs }
    rw [he]
    rfl
  by_cases hc : (u.slotOffset i.val).natAbs ≤ 490000000
  · have htu : t = u.setSlot i.val slQUAL := if_pos hc
    have hc' : rate.toInt.natAbs ≤ 490000000 := by rwa [ho] at hc
    rw [htu, if_pos hc']
    refine ⟨⟨?_, fun a ha => ?_⟩, ?_, State.rfld_setRfld_self u _ 29 3 slQUAL (by decide)⟩
    · rw [hframe]
      rfl
    · exact (State.reg_setRfld_ne u _ _ _ _ _ fun h => ha (by rw [h]; exact List.mem_cons_self)).trans (hkeep a ha)
    · exact (State.reg_setRfld_ne u _ _ _ _ _ (slotWords_ne i.val i.val 0).2.2.2.1).trans ((hu _).trans (if_pos rfl))
  · have htu : t = u := if_neg hc
    have hc' : ¬ rate.toInt.natAbs ≤ 490000000 := by rwa [ho] at hc
    rw [htu, if_neg hc']
    exact ⟨⟨hframe, hkeep⟩, (hu _).trans (if_pos rfl), hstat⟩

theorem State.slotRateOk_timeBase (n : Nat) (h : s.slotType i.val = 0) : s.slotRateOk i.val n = true := by
  rw [State.slotRateOk, h]
  rfl

theorem nearRate_iff (hz nominal : Nat) : nearRate hz nominal = true ↔ nominal * 99 ≤ hz * 100 ∧ hz * 100 ≤ nominal * 101 := by
  rw [nearRate, Bool.and_eq_true, decide_eq_true_eq, decide_eq_true_eq]

theorem State.slotRateOk_iff (n : Nat) (h : s.slotType i.val = 2 ∨ s.slotType i.val = 3) :
    s.slotRateOk i.val n = true ↔ ∃ f ∈ slotRates (s.slotType i.val), f * 99 ≤ n * 100 ∧ n * 100 ≤ f * 101 := by
  have h0 : s.slotType i.val ≠ 0 := by omega
  have hz : s.slotHz i.val n = n := by
    rw [State.slotHz]
    rcases h with h | h <;> (rw [h]; rfl)
  rw [State.slotRateOk, decide_eq_false h0, Bool.false_or, hz, List.any_eq_true]
  simp only [nearRate_iff]

/-! ## Timers, losses and configurations (R284) -/

theorem exec_qualificationTimer_seen (h : s.slotState i.val = 2) (hs : i.val ∈ s.slotSeen) :
    exec (.qualificationTimerExpiry i) s = .next (if s.slotWtr i.val ≠ 0 then ((s.setSlot i.val slWTR).setRfld (regREF_SLOTSTAT i.val) 16 12 (s.slotWtr i.val)).refEval
      else (s.setSlot i.val slVALID).refEval) := by
  have hc := List.contains_iff_mem.2 hs
  refine congrArg Host.Outcome.next ((if_pos h).trans ?_)
  rw [hc, if_pos rfl]
  by_cases h0 : s.slotWtr i.val ≠ 0
  · rw [if_pos ⟨rfl, h0⟩, if_pos h0]
  · rw [if_neg fun h => h0 h.2, if_neg h0]

theorem exec_qualificationTimer_new (h : s.slotState i.val = 2) (hs : i.val ∉ s.slotSeen) :
    exec (.qualificationTimerExpiry i) s = .next (({ s with slotSeen := s.slotSeen ++ [i.val] } : State).setSlot i.val slVALID).refEval := by
  have hc : s.slotSeen.contains i.val = false := Bool.eq_false_iff.2 fun h => hs (List.contains_iff_mem.1 h)
  refine congrArg Host.Outcome.next ((if_pos h).trans ?_)
  rw [hc]
  exact if_neg fun h => Bool.false_ne_true h.1

theorem State.slotCanLose_iff : s.slotCanLose i.val = true ↔
    2 ≤ s.slotState i.val ∧ (s.slotType i.val ≠ 0 ∨ s.slotSource i.val = false ∨ 495000000 < (s.slotOffset i.val).natAbs) := by
  rw [State.slotCanLose, Bool.and_eq_true, decide_eq_true_eq, Bool.or_eq_true, Bool.or_eq_true, decide_eq_true_eq, Bool.not_eq_true', State.slotFar, decide_eq_true_eq,
    or_assoc]
  rfl

/-- A slot configuration leaves the state of the slot alone. -/
theorem State.regStore_slotState (v : Word) : (s.regStore (regREF_SLOTCFG i.val) v).slotState i.val = s.slotState i.val := by
  have hne := (slotWords_ne i.val i.val i.val).2.2.1
  have hr (u : State) (h : u.reg (regREF_SLOTSTAT i.val) = s.reg (regREF_SLOTSTAT i.val)) :
      (u.checkReserved (regREF_SLOTCFG i.val) v).reg (regREF_SLOTSTAT i.val) = s.reg (regREF_SLOTSTAT i.val) := by
    rw [State.checkReserved]
    split
    · exact (State.raiseEvent_reg_block u 5 _ _ (by decide) (by simp only [regREF_SLOTSTAT]; omega)).trans h
    · exact h
  exact congrArg (fld · 29 3) (hr _ (State.reg_setReg_ne s _ (Ne.symm hne)))

/-- A slot that a configuration moves is lost (R284). -/
theorem State.slotInvalid_regStore (v : Word) :
    (s.regStore (regREF_SLOTCFG i.val) v).slotInvalid i.val = (((if s.slotState i.val = 3 ∨ s.slotState i.val = 4 then
      (s.regStore (regREF_SLOTCFG i.val) v).setRbit regREF_HIST (24 + i.val) else s.regStore (regREF_SLOTCFG i.val) v).setSlot i.val 1).setRfld (regREF_SLOTSTAT i.val) 16 12 0) := by
  rw [State.slotInvalid, State.regStore_slotState v]
  rfl

/-- What the slot becomes by a written configuration (R284). -/
def State.slotConfigured (s : State) (i : Nat) (v : Word) : State :=
  let u := s.regStore (regREF_SLOTCFG i) v
  if !bit v 31 then (u.setSlot i slDISABLED).setRfld (regREF_SLOTSTAT i) 16 12 0
  else if !bit (s.reg (regREF_SLOTCFG i)) 31 then u.setSlot i slINVALID
  else if decide (fld (s.reg (regREF_SLOTCFG i)) 24 7 ≠ fld v 24 7) then u.slotInvalid i
  else u

section
variable {v : Word}

theorem State.slotConfigured_off (h : bit v 31 = false) :
    s.slotConfigured i.val v = ((s.regStore (regREF_SLOTCFG i.val) v).setSlot i.val 0).setRfld (regREF_SLOTSTAT i.val) 16 12 0 := if_pos (by rw [h]; rfl)

theorem State.slotConfigured_new (h : bit v 31 = true) (ho : s.rbit (regREF_SLOTCFG i.val) 31 = false) :
    s.slotConfigured i.val v = (s.regStore (regREF_SLOTCFG i.val) v).setSlot i.val 1 := by
  have ho' : bit (s.reg (regREF_SLOTCFG i.val)) 31 = false := ho
  refine (if_neg ?_).trans (if_pos ?_)
  · rw [h]
    exact Bool.false_ne_true
  · rw [ho']
    rfl

theorem State.slotConfigured_on (h : bit v 31 = true) (ho : s.rbit (regREF_SLOTCFG i.val) 31 = true) :
    s.slotConfigured i.val v = if decide (fld (s.reg (regREF_SLOTCFG i.val)) 24 7 ≠ fld v 24 7) then (s.regStore (regREF_SLOTCFG i.val) v).slotInvalid i.val
      else s.regStore (regREF_SLOTCFG i.val) v := by
  have ho' : bit (s.reg (regREF_SLOTCFG i.val)) 31 = true := ho
  refine (if_neg ?_).trans (if_neg ?_)
  · rw [h]
    exact Bool.false_ne_true
  · rw [ho']
    exact Bool.false_ne_true

/-- A configuration that keeps TYPE, INDEX and EN keeps RATEERR (R297). -/
theorem exec_slotCfgWrite_same (m : Master) (hs : fld (s.reg (regREF_SLOTCFG i.val)) 24 7 = fld v 24 7) (he : bit v 31 = s.rbit (regREF_SLOTCFG i.val) 31) :
    exec (.slotCfgWrite m i v) s = .next (s.slotConfigured i.val v).refEval := by
  refine congrArg (fun t : State => Host.Outcome.next t.refEval) (if_neg ?_)
  have he' : (bit v 31 != bit (s.reg (regREF_SLOTCFG i.val)) 31) = false := by
    rw [show bit (s.reg (regREF_SLOTCFG i.val)) 31 = bit v 31 from he.symm, bne_self_eq_false]
  rw [decide_eq_false (not_not_intro hs), he']
  exact Bool.false_ne_true

theorem exec_slotCfgWrite_moved (m : Master) (h : fld (s.reg (regREF_SLOTCFG i.val)) 24 7 ≠ fld v 24 7 ∨ bit v 31 ≠ s.rbit (regREF_SLOTCFG i.val) 31) :
    exec (.slotCfgWrite m i v) s = .next ((s.slotConfigured i.val v).putRbit (regREF_SLOTSTAT i.val) 28 false).refEval := by
  refine congrArg (fun t : State => Host.Outcome.next t.refEval) (if_pos ?_)
  rw [Bool.or_eq_true, decide_eq_true_eq, bne_iff_ne]
  exact h

end

end

/-- Settles O47: each command of a slot, by the state and the source of the slot. -/
theorem referenceSlots : Obligations.ReferenceSlots := by
  intro s m i hz off v st a go lost
  refine ⟨fun h hs => ⟨fun _ hr => exec_sourcePresent_rateError hz off h hs hr, fun ht hr => ?_, fun ht => ?_⟩, exec_sourcePresent_idle hz off, fun n ht => ?_, fun n ht => ?_,
    fun h => ⟨fun hs hw => ?_, fun hs hw => ?_, fun hs => exec_qualificationTimer_new h hs⟩, fun h => ⟨fun hw => ?_, fun hw => ?_⟩, fun h => ?_, fun h => ?_, State.slotCanLose_iff,
    fun h h1 h4 => ?_, fun h => ?_, ?_⟩
  · obtain ⟨he, ho⟩ := s.slotFound_spec i.val off
    rw [if_neg ht] at he ho
    refine (exec_sourcePresent_found hz off h hs hr).trans ?_
    rw [ho, he]
    rfl
  · exact ⟨_, exec_sourcePresent_found hz off h hs (State.slotRateOk_timeBase _ ht), State.slotFound_timeBase off h ht⟩
  · rw [State.slotRateOk_iff n (.inl ht), ht]
    rfl
  · rw [State.slotRateOk_iff n (.inr ht), ht]
    have h1 : slotRates 3 = [1] := rfl
    simp only [h1, List.mem_singleton, exists_eq_left]
    omega
  · exact (exec_qualificationTimer_seen h hs).trans (congrArg Host.Outcome.next (if_pos hw))
  · exact (exec_qualificationTimer_seen h hs).trans (congrArg Host.Outcome.next (if_neg fun hn => hn hw))
  · exact congrArg Host.Outcome.next (if_pos ⟨h, hw⟩)
  · exact congrArg Host.Outcome.next (if_neg fun hn => Nat.not_le.2 hw hn.2)
  · exact congrArg Host.Outcome.next (if_pos h)
  · exact congrArg Host.Outcome.next (if_neg (Bool.eq_false_iff.1 h))
  · exact congrArg Host.Outcome.next (if_pos ⟨h, h1, h4⟩)
  · refine congrArg Host.Outcome.next (if_neg ?_)
    rintro ⟨h0, h1, h4⟩
    have h0' : s.slotState i.val ≠ 0 := h0
    omega
  · intro u same
    refine ⟨fun hv hc hs => ?_, fun hv hc => ?_, fun hv hc => ?_, fun hv hc hs => ?_, fun hv hc hs => ?_⟩
    · rw [exec_slotCfgWrite_same m hs (hv.trans hc.symm), State.slotConfigured_off hv]
      rfl
    · have hm : fld (s.reg (regREF_SLOTCFG i.val)) 24 7 ≠ fld v 24 7 ∨ bit v 31 ≠ s.rbit (regREF_SLOTCFG i.val) 31 := by
        refine hc.elim (fun hc => .inr ?_) .inl
        rw [hv, hc]
        exact Bool.false_ne_true
      rw [exec_slotCfgWrite_moved m hm, State.slotConfigured_off hv]
      rfl
    · have hm : bit v 31 ≠ s.rbit (regREF_SLOTCFG i.val) 31 := by
        rw [hv, hc]
        exact Bool.false_ne_true.symm
      rw [exec_slotCfgWrite_moved m (.inr hm), State.slotConfigured_new hv hc]
      rfl
    · rw [exec_slotCfgWrite_same m hs (hv.trans hc.symm), State.slotConfigured_on hv hc, if_neg (by rw [decide_eq_false (not_not_intro hs)]; exact Bool.false_ne_true)]
    · rw [exec_slotCfgWrite_moved m (.inl hs), State.slotConfigured_on hv hc, if_pos (decide_eq_true hs), State.slotInvalid_regStore]
      rfl

end Sys2Proof.Machine
end

section
/-! Time bases: states, counters, readings, alarms and captures (R272 to R282, R296). -/

namespace Sys2Proof.Machine

-- One theorem after another, so that the compile of the whole text stays within its memory.
set_option Elab.async false

/-! ## Alarms (R281) -/

/-- What the alarms of time base `t` may change: their control registers, events, and the trigger of a snapshot. -/
structure AlarmsKept (t : Nat) (s u : State) : Prop where
  frame : u = { s with regs := u.regs, tokens := u.tokens, seq := u.seq, snap := { s.snap with pend := u.snap.pend } }
  regs : ∀ a, a ≠ regTIME_ALM_CTRL t 0 → a ≠ regTIME_ALM_CTRL t 1 → a / 0x10000 ≠ 4 → u.reg a = s.reg a

namespace AlarmsKept

variable {t : Nat} {s u w : State}

theorem refl (t : Nat) (s : State) : AlarmsKept t s s := ⟨rfl, fun _ _ _ _ => rfl⟩

theorem trans (h : AlarmsKept t s u) (g : AlarmsKept t u w) : AlarmsKept t s w := by
  refine ⟨?_, fun a h0 h1 h4 => (g.regs a h0 h1 h4).trans (h.regs a h0 h1 h4)⟩
  have h1 := h.frame
  have h2 := g.frame
  rw [h1] at h2
  rw [h2]

theorem count (h : AlarmsKept t s u) : u.tbCount = s.tbCount := by rw [h.frame]

theorem free (h : AlarmsKept t s u) : u.freeCtr = s.freeCtr := by rw [h.frame]

end AlarmsKept

section
variable {s : State} {t j : Nat}

/-- A fired alarm, before it triggers a snapshot (R281). -/
def State.alarmFired (s : State) (t j : Nat) : State :=
  ((s.putRbit (regTIME_ALM_CTRL t j) 31 false).setRbit (regTIME_ALM_CTRL t j) 30).raiseEvent (68 + t) (BitVec.ofNat 32 j)

theorem almCtrl_block (t j : Nat) (ht : t < 4) (hj : j < 2) : regTIME_ALM_CTRL t j / 0x10000 = 13 := by
  rw [regTIME_ALM_CTRL]
  omega

theorem State.alarmFired_reg (ht : t < 4) (a : Nat) (h : a ≠ regTIME_ALM_CTRL t j) (h4 : a / 0x10000 ≠ 4) : (s.alarmFired t j).reg a = s.reg a :=
  (State.raiseEvent_reg_block _ _ _ a (by omega) h4).trans ((State.reg_setRbit_ne (s.putRbit (regTIME_ALM_CTRL t j) 31 false) _ _ _ h).trans (State.reg_putRbit_ne s _ _ _ _ h))

theorem State.alarmFired_ctrl (ht : t < 4) (hj : j < 2) :
    (s.alarmFired t j).rbit (regTIME_ALM_CTRL t j) 31 = false ∧ (s.alarmFired t j).rbit (regTIME_ALM_CTRL t j) 30 = true := by
  have h4 : regTIME_ALM_CTRL t j / 0x10000 ≠ 4 := by rw [almCtrl_block t j ht hj]; decide
  have hr := State.raiseEvent_reg_block ((s.putRbit (regTIME_ALM_CTRL t j) 31 false).setRbit (regTIME_ALM_CTRL t j) 30) (68 + t) (BitVec.ofNat 32 j) _ (by omega) h4
  refine ⟨(congrArg (bit · 31) hr).trans ?_, (congrArg (bit · 30) hr).trans ?_⟩
  · refine (State.rbit_setRbit (s.putRbit (regTIME_ALM_CTRL t j) 31 false) _ _ _ _ (by decide)).trans ?_
    rw [State.rbit_putRbit _ _ _ _ _ _ (by decide)]
    simp
  · refine (State.rbit_setRbit (s.putRbit (regTIME_ALM_CTRL t j) 31 false) _ _ _ _ (by decide)).trans ?_
    simp

theorem State.alarmFires_idle (h : s.rbit (regTIME_ALM_CTRL t j) 31 = false) : s.alarmFires t j = s := if_neg (Bool.eq_false_iff.1 h)

theorem State.alarmFires_armed (ht : t < 4) (hj : j < 2) (h : s.rbit (regTIME_ALM_CTRL t j) 31 = true) :
    s.alarmFires t j = if s.rbit regSNAP_CTRL 1 = true ∧ s.rfld regSNAP_CTRL 2 2 = t ∧ s.rfld regSNAP_CTRL 4 1 = j
      then (s.alarmFired t j).snapTrigger 4 else s.alarmFired t j := by
  have hs : (s.alarmFired t j).reg regSNAP_CTRL = s.reg regSNAP_CTRL := State.alarmFired_reg ht _ (fun e => by
    have := almCtrl_block t j ht hj
    rw [← e] at this
    exact absurd this (by decide)) (by decide)
  have h1 : (s.alarmFired t j).rbit regSNAP_CTRL 1 = s.rbit regSNAP_CTRL 1 := congrArg (bit · 1) hs
  have h2 : (s.alarmFired t j).rfld regSNAP_CTRL 2 2 = s.rfld regSNAP_CTRL 2 2 := congrArg (fld · 2 2) hs
  have h3 : (s.alarmFired t j).rfld regSNAP_CTRL 4 1 = s.rfld regSNAP_CTRL 4 1 := congrArg (fld · 4 1) hs
  have he : s.alarmFires t j = if (s.alarmFired t j).rbit regSNAP_CTRL 1 = true ∧ (s.alarmFired t j).rfld regSNAP_CTRL 2 2 = t ∧ (s.alarmFired t j).rfld regSNAP_CTRL 4 1 = j
      then (s.alarmFired t j).snapTrigger 4 else s.alarmFired t j := if_pos h
  rw [he, h1, h2, h3]

/-- A fired alarm and the registers: whether or not it triggers a snapshot. -/
theorem State.alarmFires_regs (ht : t < 4) (hj : j < 2) (h : s.rbit (regTIME_ALM_CTRL t j) 31 = true) (a : Nat) : (s.alarmFires t j).reg a = (s.alarmFired t j).reg a := by
  rw [State.alarmFires_armed ht hj h]
  split <;> rfl

theorem State.alarmFires_other (ht : t < 4) (hj : j < 2) (a : Nat) (h : a ≠ regTIME_ALM_CTRL t j) (h4 : a / 0x10000 ≠ 4) : (s.alarmFires t j).reg a = s.reg a := by
  by_cases ha : s.rbit (regTIME_ALM_CTRL t j) 31 = true
  · rw [State.alarmFires_regs ht hj ha, State.alarmFired_reg ht a h h4]
  · rw [State.alarmFires_idle (Bool.eq_false_iff.2 ha)]

theorem AlarmsKept.alarmFires (ht : t < 4) (hj : j < 2) : AlarmsKept t s (s.alarmFires t j) := by
  refine ⟨?_, fun a h0 h1 h4 => State.alarmFires_other ht hj a (fun e => ?_) h4⟩
  · by_cases ha : s.rbit (regTIME_ALM_CTRL t j) 31 = true
    · rw [State.alarmFires_armed ht hj ha, State.alarmFired, State.raiseEvent_frame]
      split <;> rfl
    · rw [State.alarmFires_idle (Bool.eq_false_iff.2 ha)]
  · interval_cases j
    · exact h0 e
    · exact h1 e

end

section
variable {s : State} {t : Fin 4} {j : Nat}

theorem State.alarmDue_past (h : s.alarmNs t.val j ≤ s.tbNs t) : s.alarmDue t j = s.alarmFires t.val j := if_pos h

theorem State.alarmDue_ahead (h : s.tbNs t < s.alarmNs t.val j) : s.alarmDue t j = s := if_neg (Nat.not_le.2 h)

theorem AlarmsKept.alarmDue (hj : j < 2) : AlarmsKept t.val s (s.alarmDue t j) := by
  rw [State.alarmDue]
  split
  · exact .alarmFires t.isLt hj
  · exact .refl _ _

theorem AlarmsKept.alarmsDue : AlarmsKept t.val s (s.alarmsDue t) := .trans (.alarmDue (by decide)) (.alarmDue (by decide))

theorem almTime_ne (t i k : Nat) (ht : t < 4) (hi : i < 2) : regTIME_ALM_NS t i ≠ regTIME_ALM_CTRL t k ∧ regTIME_ALM_SEC_LO t i ≠ regTIME_ALM_CTRL t k ∧
    regTIME_ALM_SEC_HI t i ≠ regTIME_ALM_CTRL t k ∧ regTIME_ALM_NS t i / 0x10000 = 13 ∧ regTIME_ALM_SEC_LO t i / 0x10000 = 13 ∧ regTIME_ALM_SEC_HI t i / 0x10000 = 13 := by
  simp only [regTIME_ALM_NS, regTIME_ALM_SEC_LO, regTIME_ALM_SEC_HI, regTIME_ALM_CTRL]
  omega

/-- The times of the alarms depend on registers that the alarms do not change. -/
theorem State.alarmNs_congr {s u : State} {t i : Nat} (ht : t < 4) (hi : i < 2)
    (h : ∀ a, a ≠ regTIME_ALM_CTRL t 0 → a ≠ regTIME_ALM_CTRL t 1 → a / 0x10000 = 13 → u.reg a = s.reg a) : u.alarmNs t i = s.alarmNs t i := by
  obtain ⟨a0, b0, c0, ba, bb, bc⟩ := almTime_ne t i 0 ht hi
  obtain ⟨a1, b1, c1, -, -, -⟩ := almTime_ne t i 1 ht hi
  rw [State.alarmNs, State.alarmNs, State.rfld, State.rfld, State.rfld, State.rfld, h _ a0 a1 ba, h _ b0 b1 bb, h _ c0 c1 bc]

theorem AlarmsKept.alarmNs {s u : State} {t i : Nat} (h : AlarmsKept t s u) (ht : t < 4) (hi : i < 2) : u.alarmNs t i = s.alarmNs t i :=
  State.alarmNs_congr ht hi fun a h0 h1 hb => h.regs a h0 h1 (by omega)

theorem AlarmsKept.tbNs {s u : State} {t : Nat} (h : AlarmsKept t s u) (b : Fin 4) : u.tbNs b = s.tbNs b := by rw [State.tbNs, State.tbNs, h.count]

theorem almCtrl_ne {i k : Nat} (t : Nat) (h : i ≠ k) : regTIME_ALM_CTRL t i ≠ regTIME_ALM_CTRL t k := by
  simp only [regTIME_ALM_CTRL]
  omega

/-- The control register of each alarm after both alarms have followed the time (R281). -/
theorem State.alarmsDue_ctrl (i : Nat) (hi : i < 2) :
    (s.rbit (regTIME_ALM_CTRL t.val i) 31 = true → s.alarmNs t.val i ≤ s.tbNs t →
      (s.alarmsDue t).rbit (regTIME_ALM_CTRL t.val i) 31 = false ∧ (s.alarmsDue t).rbit (regTIME_ALM_CTRL t.val i) 30 = true) ∧
    (s.tbNs t < s.alarmNs t.val i → (s.alarmsDue t).reg (regTIME_ALM_CTRL t.val i) = s.reg (regTIME_ALM_CTRL t.val i)) := by
  have hb : regTIME_ALM_CTRL t.val i / 0x10000 ≠ 4 := by rw [almCtrl_block _ i t.isLt hi]; decide
  have hother (u : State) (k : Nat) (hk : k < 2) (hki : i ≠ k) : (u.alarmDue t k).reg (regTIME_ALM_CTRL t.val i) = u.reg (regTIME_ALM_CTRL t.val i) := by
    rw [State.alarmDue]
    split
    · exact State.alarmFires_other t.isLt hk _ (almCtrl_ne _ hki) hb
    · rfl
  have hown (u : State) : (u.rbit (regTIME_ALM_CTRL t.val i) 31 = true → u.alarmNs t.val i ≤ u.tbNs t →
      (u.alarmDue t i).rbit (regTIME_ALM_CTRL t.val i) 31 = false ∧ (u.alarmDue t i).rbit (regTIME_ALM_CTRL t.val i) 30 = true) ∧
      (u.tbNs t < u.alarmNs t.val i → (u.alarmDue t i).reg (regTIME_ALM_CTRL t.val i) = u.reg (regTIME_ALM_CTRL t.val i)) := by
    refine ⟨fun ha hn => ?_, fun hn => by rw [State.alarmDue_ahead hn]⟩
    rw [State.alarmDue_past hn, State.rbit, State.rbit, State.alarmFires_regs t.isLt hi ha]
    exact State.alarmFired_ctrl t.isLt hi
  have h01 : i = 0 ∨ i = 1 := by omega
  rcases h01 with rfl | rfl
  · have hr := hother (s.alarmDue t 0) 1 (by decide) (by decide)
    have hbit (n : Nat) : (s.alarmsDue t).rbit (regTIME_ALM_CTRL t.val 0) n = (s.alarmDue t 0).rbit (regTIME_ALM_CTRL t.val 0) n := congrArg (bit · n) hr
    rw [hbit, hbit]
    exact ⟨(hown s).1, fun hn => hr.trans ((hown s).2 hn)⟩
  · have hr := hother s 0 (by decide) (by decide)
    have hk : AlarmsKept t.val s (s.alarmDue t 0) := .alarmDue (by decide)
    obtain ⟨h1, h2⟩ := hown (s.alarmDue t 0)
    rw [hk.tbNs t, hk.alarmNs t.isLt (by decide)] at h1 h2
    exact ⟨fun ha hn => h1 ((congrArg (bit · 31) hr).trans ha) hn, fun hn => (h2 hn).trans hr⟩

end

/-! ## The passage of time (R272) -/

/-- What the passage of time may change at time base `t`. -/
structure TimeKept (t : Fin 4) (s u : State) : Prop where
  frame : u = { s with
    regs := u.regs, tbCount := u.tbCount, tokens := u.tokens, seq := u.seq, snap := { s.snap with pend := u.snap.pend }, freeCtr := u.freeCtr }
  regs : ∀ a, a ≠ regTIME_ALM_CTRL t.val 0 → a ≠ regTIME_ALM_CTRL t.val 1 → a / 0x10000 ≠ 4 → u.reg a = s.reg a

section
variable {s : State} {t : Fin 4}

theorem State.setTb_shape (s : State) (t : Fin 4) (v : Nat) : ∃ c, s.setTb t v = { s with tbCount := c } ∧ c = s.tbCount.set t.val (v % tbModulus) t.isLt := ⟨_, rfl, rfl⟩

theorem State.tbAdvanced_off (xo : Nat) (h : s.rbit (regTIME_CFG t.val) 31 = false) : s.tbAdvanced t xo = s := if_neg (Bool.eq_false_iff.1 h)

/-- The counter that has advanced, with its alarms still to follow (R272). -/
def State.tbMoved (s : State) (t : Fin 4) (xo : Nat) : State := s.setTb t (s.tbCount.get t + tbAdvance xo (s.reg (regTIME_RATE t.val)).toInt)

theorem State.tbMoved_shape (s : State) (t : Fin 4) (xo : Nat) : ∃ c, s.tbMoved t xo = { s with tbCount := c } ∧
    c = s.tbCount.set t.val ((s.tbCount.get t + tbAdvance xo (s.reg (regTIME_RATE t.val)).toInt) % tbModulus) t.isLt := s.setTb_shape t _

theorem State.tbAdvanced_on (xo : Nat) (h : s.rbit (regTIME_CFG t.val) 31 = true) : s.tbAdvanced t xo = (s.tbMoved t xo).alarmsDue t := if_pos h

theorem State.tbPass_off (h : s.rbit (regTIME_CFG t.val) 31 = false) : s.tbPass t = s := if_neg (Bool.eq_false_iff.1 h)

/-- The open number of XO cycles before a command (log entry 2). -/
def passedXo (n : Nat) : Nat := (Config.freeWord n).toNat + (Config.freeWord (n + 1)).toNat * 2 ^ 32

theorem State.tbPass_on (h : s.rbit (regTIME_CFG t.val) 31 = true) :
    s.tbPass t = ({ s with freeCtr := s.freeCtr + 2 } : State).tbAdvanced t (passedXo s.freeCtr) := if_pos h

theorem State.tbPass_moved (h : s.rbit (regTIME_CFG t.val) 31 = true) :
    s.tbPass t = (({ s with freeCtr := s.freeCtr + 2 } : State).tbMoved t (passedXo s.freeCtr)).alarmsDue t :=
  (State.tbPass_on h).trans (State.tbAdvanced_on (s := { s with freeCtr := s.freeCtr + 2 }) _ h)

theorem TimeKept.of_alarms {c : Vector Nat 4} {f : Nat} {u w : State} (hu : u = { s with tbCount := c, freeCtr := f }) (h : AlarmsKept t.val u w) : TimeKept t s w := by
  subst hu
  obtain ⟨hf, hr⟩ := h
  refine ⟨?_, fun a h0 h1 h4 => hr a h0 h1 h4⟩
  rw [hf]

theorem TimeKept.tbPass : TimeKept t s (s.tbPass t) := by
  by_cases h : s.rbit (regTIME_CFG t.val) 31 = true
  · obtain ⟨c, hc, -⟩ := ({ s with freeCtr := s.freeCtr + 2 } : State).tbMoved_shape t (passedXo s.freeCtr)
    rw [State.tbPass_moved h]
    exact .of_alarms (c := c) (f := s.freeCtr + 2) hc .alarmsDue
  · rw [State.tbPass_off (Bool.eq_false_iff.2 h)]
    exact ⟨rfl, fun _ _ _ _ => rfl⟩

theorem State.tbPass_count_on (h : s.rbit (regTIME_CFG t.val) 31 = true) : (s.tbPass t).tbCount =
    s.tbCount.set t.val ((s.tbCount.get t + tbAdvance (passedXo s.freeCtr) (s.reg (regTIME_RATE t.val)).toInt) % tbModulus) t.isLt := by
  obtain ⟨c, hc, he⟩ := ({ s with freeCtr := s.freeCtr + 2 } : State).tbMoved_shape t (passedXo s.freeCtr)
  have hk : AlarmsKept t.val (({ s with freeCtr := s.freeCtr + 2 } : State).tbMoved t (passedXo s.freeCtr)) (s.tbPass t) := by
    rw [State.tbPass_moved h]
    exact .alarmsDue
  rw [hk.count, hc]
  exact he

/-- The counter after the passage of time depends on no more than the counter, the configuration, the rate and the free values. -/
theorem State.tbPass_count {s u : State} (hc : u.tbCount = s.tbCount) (hf : u.freeCtr = s.freeCtr) (hr : ∀ a, u.reg a = s.reg a) : (u.tbPass t).tbCount = (s.tbPass t).tbCount := by
  have hb : u.rbit (regTIME_CFG t.val) 31 = s.rbit (regTIME_CFG t.val) 31 := congrArg (bit · 31) (hr _)
  by_cases h : s.rbit (regTIME_CFG t.val) 31 = true
  · rw [State.tbPass_count_on h, State.tbPass_count_on (hb.trans h), hc, hf, hr]
  · have h0 := Bool.eq_false_iff.2 h
    rw [State.tbPass_off h0, State.tbPass_off (hb.trans h0), hc]

end

/-! ## States (R273) -/

/-- A time base takes state `k`, with EV64 + t where that is a change (R273, R296). -/
def State.tbTo (u : State) (t k : Nat) (changed : Bool) : State :=
  let w := (u.setRfld (regTIME_STAT t) 0 2 k).putRbit (regTIME_STAT t) 4 (decide (k = 0))
  let x : State := if k = 1 ∧ t ∉ w.timing.seen then { w with timing := { w.timing with seen := w.timing.seen ++ [t] } } else w
  if changed then x.raiseEvent (64 + t) (BitVec.ofNat 32 k) else x

theorem State.tbGo_eq (u : State) (t k : Nat) : u.tbGo t k = u.tbTo t k (decide (u.tbState t ≠ k)) := by
  generalize hw : (u.setRfld (regTIME_STAT t) 0 2 k).putRbit (regTIME_STAT t) 4 (decide (k = 0)) = w
  have hc : (k = tLOCKED ∧ (!w.timing.seen.contains t) = true) ↔ (k = 1 ∧ t ∉ w.timing.seen) := by simp [tLOCKED]
  have hx : (if k = tLOCKED ∧ (!w.timing.seen.contains t) = true then ({ w with timing := { w.timing with seen := w.timing.seen ++ [t] } } : State) else w) =
      if k = 1 ∧ t ∉ w.timing.seen then { w with timing := { w.timing with seen := w.timing.seen ++ [t] } } else w := if_congr hc rfl rfl
  have h1 : u.tbGo t k = if u.tbState t = k then _ else _ := rfl
  by_cases h : u.tbState t = k
  · rw [h1, if_pos h, State.tbTo, decide_eq_false (not_not_intro h)]
    exact (by rw [← hw] at hx; exact hx)
  · rw [h1, if_neg h, State.tbTo, decide_eq_true h]
    exact congrArg (fun x : State => x.raiseEvent (64 + t) (BitVec.ofNat 32 k)) (by rw [← hw] at hx; exact hx)

section
variable {s u : State} {t : Fin 4}

/-- A state that keeps the state word of a time base keeps its state. -/
theorem State.tbState_congr {t : Nat} (h : u.reg (regTIME_STAT t) = s.reg (regTIME_STAT t)) : u.tbState t = s.tbState t := congrArg (fld · 0 2) h

theorem State.tbState_put {t i : Nat} {b : Bool} (hi : 2 ≤ i) (hi2 : i < 32) : (s.putRbit (regTIME_STAT t) i b).tbState t = s.tbState t :=
  State.rfld_putRbit s _ _ _ _ _ _ hi2 (.inr (.inr hi))

theorem State.tbState_set {t i : Nat} (hi : 2 ≤ i) : (s.setRbit (regTIME_STAT t) i).tbState t = s.tbState t := State.rfld_setRbit s _ _ _ _ _ (.inr (.inr hi))

/-- The anchor of a time base is dropped, before the conversions follow (R279). -/
def State.anchorGone (s : State) (t : Nat) : State :=
  { s.putRbit (regTIME_STAT t) 7 false with anchors := mapDel s.anchors t, ancPend := mapDel s.ancPend t }

theorem State.dropAnchor_state (t : Nat) (ht : t < 4) : (s.dropAnchor t).tbState t = s.tbState t := by
  have hb : OnlyBlocks [4, 9] (s.anchorGone t) (s.anchorGone t).asrcAnchors :=
    .foldl (fun _ c hc h => .asrcUnlocked (by decide) (by decide) ((s.anchorGone t).asrcOn_lt c (List.mem_filter.1 hc).1) h) (.refl _ _)
  have hn : regTIME_STAT t / 0x10000 ∉ [4, 9] := by
    have he : regTIME_STAT t / 0x10000 = 13 := by rw [regTIME_STAT]; omega
    rw [he]
    decide
  have h1 : (s.dropAnchor t).tbState t = (s.anchorGone t).tbState t := State.tbState_congr (hb _ hn)
  exact h1.trans (State.tbState_put (by decide) (by decide))

theorem timeStat_ne (t i : Nat) (ht : t < 4) (hi : i < 2) : regTIME_STAT t ≠ regTIME_ALM_CTRL t i ∧ regTIME_STAT t / 0x10000 ≠ 4 := by
  simp only [regTIME_STAT, regTIME_ALM_CTRL]
  omega

theorem TimeKept.state (h : TimeKept t s u) : u.tbState t.val = s.tbState t.val :=
  State.tbState_congr (h.regs _ (timeStat_ne _ 0 t.isLt (by decide)).1 (timeStat_ne _ 1 t.isLt (by decide)).1 (timeStat_ne _ 0 t.isLt (by decide)).2)

end

/-! ## Commands of a time base (R273, R274) -/

section
variable {s : State} {t : Fin 4}

/-- The counter moved by the step (R273). -/
def State.tbMovedBy (n s : State) (t : Fin 4) : State :=
  n.setTb t (((n.tbCount.get t : Int) + (s.reg (regTIME_STEP_HI t.val) ++ s.reg (regTIME_STEP_LO t.val)).toInt * 2 ^ 32) % (tbModulus : Int)).toNat

theorem stepWords_ne (t i : Nat) (ht : t < 4) (hi : i < 2) : regTIME_STEP_HI t ≠ regTIME_ALM_CTRL t i ∧ regTIME_STEP_LO t ≠ regTIME_ALM_CTRL t i ∧
    regTIME_STEP_HI t / 0x10000 ≠ 4 ∧ regTIME_STEP_LO t / 0x10000 ≠ 4 := by
  simp only [regTIME_STEP_HI, regTIME_STEP_LO, regTIME_ALM_CTRL]
  omega

theorem State.tbStepped_passed : (s.tbPass t).tbStepped t = (s.tbPass t).tbMovedBy s t := by
  have hk : TimeKept t s (s.tbPass t) := .tbPass
  obtain ⟨a0, b0, c, d⟩ := stepWords_ne t.val 0 t.isLt (by decide)
  obtain ⟨a1, b1, -, -⟩ := stepWords_ne t.val 1 t.isLt (by decide)
  rw [State.tbStepped, State.tbStep, hk.regs _ a0 a1 c, hk.regs _ b0 b1 d, State.tbMovedBy]

theorem exec_tbCmdStep_unlocked (h : s.tbState t.val = 0) : exec (.tbCmdStep t) s = .next
    ((((((s.tbPass t).tbMovedBy s t).setRbit (regTIME_STAT t.val) 28).tbTo t.val 1 true).alarmDue t 0).alarmDue t 1) := by
  have hs : (((s.tbPass t).tbMovedBy s t).setRbit (regTIME_STAT t.val) 28).tbState t.val = 0 :=
    (State.tbState_set (by decide)).trans ((TimeKept.state .tbPass).trans h)
  have hc : decide ((((s.tbPass t).tbMovedBy s t).setRbit (regTIME_STAT t.val) 28).tbState t.val ≠ 1) = true := by
    rw [hs]
    rfl
  refine congrArg Host.Outcome.next ((if_pos h).trans ?_)
  rw [State.tbStepped_passed, State.tbGo_eq]
  show ((((((s.tbPass t).tbMovedBy s t).setRbit (regTIME_STAT t.val) 28).tbTo t.val 1 _).alarmDue t 0).alarmDue t 1) = _
  rw [show decide ((((s.tbPass t).tbMovedBy s t).setRbit (regTIME_STAT t.val) 28).tbState t.val ≠ tLOCKED) = true from hc]

theorem exec_tbCmdQualify_freerun (h : s.tbState t.val = 2) : exec (.tbCmdQualify t) s = .next (s.tbTo t.val 1 true) := by
  refine congrArg Host.Outcome.next ((if_pos h).trans ?_)
  rw [State.tbGo_eq, h]
  rfl

theorem exec_tbCmdQualify_locked (h : s.tbState t.val = 1) : exec (.tbCmdQualify t) s = .next (s.putRbit (regTIME_STAT t.val) 5 false) := by
  have hn : s.tbState t.val ≠ tFREERUN := by rw [h]; decide
  exact congrArg Host.Outcome.next ((if_neg hn).trans (if_pos h))

theorem State.tbLose_locked (h : s.tbState t.val = 1) : s.tbLose t.val = (s.putRbit (regTIME_STAT t.val) 5 false).tbTo t.val 2 true := by
  rw [State.tbLose, State.tbGo_eq, State.tbState_put (by decide) (by decide), h]
  rfl

/-- The drop of the anchor and the state UNLOCKED (R273). -/
theorem State.tbHold_eq (u : State) (t : Nat) (ht : t < 4) : u.tbHold t = (u.dropAnchor t).tbTo t 0 (decide (u.tbState t ≠ 0)) := by
  rw [State.tbHold, State.tbGo_eq, State.dropAnchor_state t ht]
  rfl

theorem exec_tbCmdArm : exec (.tbCmdArm t) s = .next (((s.putRbit (regTIME_STAT t.val) 5 false).dropAnchor t.val).tbTo t.val 0 (decide (s.tbState t.val ≠ 0))) := by
  have h := State.tbHold_eq (s.putRbit (regTIME_STAT t.val) 5 false) t.val t.isLt
  rw [State.tbState_put (by decide) (by decide)] at h
  exact congrArg Host.Outcome.next h

theorem exec_tbCmdGrandmaster_other (h : s.tbState t.val ≠ 1) : exec (.tbCmdGrandmaster t) s = .next ((s.setRbit (regTIME_STAT t.val) 5).tbTo t.val 1 true) := by
  refine congrArg Host.Outcome.next ((if_neg h).trans ?_)
  rw [State.tbGo_eq, State.tbState_set (by decide), show decide (s.tbState t.val ≠ tLOCKED) = true from decide_eq_true h]
  rfl

theorem exec_rateWatchdogTrip (h : s.tbState t.val = 1) (hg : s.rbit (regTIME_STAT t.val) 5 = false) (hw : s.rfld (regTIME_CFG t.val) 0 8 ≠ 0) :
    exec (.rateWatchdogTrip t) s = .next (((s.setRbit (regTIME_STAT t.val) 29).putRbit (regTIME_STAT t.val) 5 false).tbTo t.val 2 true) := by
  have hc : s.tbState t.val = tLOCKED ∧ (!s.rbit (regTIME_STAT t.val) 5) = true ∧ s.rfld (regTIME_CFG t.val) 0 8 ≠ 0 := ⟨h, by rw [hg]; rfl, hw⟩
  exact congrArg Host.Outcome.next ((if_pos hc).trans (State.tbLose_locked ((State.tbState_set (by decide)).trans h)))

/-- A configuration of a time base, with EV5 for the reserved PROFILE (R296). -/
def State.tbConfigured (u : State) (t : Nat) (w v : Word) : State :=
  let x := u.setReg (regTIME_CFG t) ((w &&& ~~~(rwBits (regTIME_CFG t))) ||| (v &&& rwBits (regTIME_CFG t)))
  if fld v 29 2 = 3 then x.raiseEvent 5 (BitVec.ofNat 32 (regTIME_CFG t)) else x

theorem w1cBits_timeCfg (t : Fin 4) : w1cBits (regTIME_CFG t.val) = 0#32 := by
  revert t
  decide

theorem clampReg_timeCfg (t : Fin 4) (v : Word) : clampReg (regTIME_CFG t.val) v = v := by
  fin_cases t <;> rfl

theorem reservedReg_timeCfg (u : State) (t : Fin 4) (v : Word) : u.reservedReg (regTIME_CFG t.val) v = decide (fld v 29 2 = 3) := by
  fin_cases t <;> rfl

theorem State.regStore_timeCfg (u : State) (t : Fin 4) (v : Word) : u.regStore (regTIME_CFG t.val) v = u.tbConfigured t.val (u.reg (regTIME_CFG t.val)) v := by
  rw [State.regStore, w1cBits_timeCfg, clampReg_timeCfg, merge, BitVec.and_zero, BitVec.not_zero, BitVec.and_allOnes, State.checkReserved, reservedReg_timeCfg,
    State.tbConfigured]
  simp only [decide_eq_true_eq]
  rfl

theorem timeCfg_ne (t i : Nat) (ht : t < 4) (hi : i < 2) : regTIME_CFG t ≠ regTIME_ALM_CTRL t i ∧ regTIME_CFG t / 0x10000 ≠ 4 ∧ regTIME_STAT t ≠ regTIME_CFG t := by
  simp only [regTIME_CFG, regTIME_ALM_CTRL, regTIME_STAT]
  omega

theorem State.tbConfigured_state (u : State) (t : Nat) (w v : Word) (ht : t < 4) : (u.tbConfigured t w v).tbState t = u.tbState t := by
  obtain ⟨-, -, hne⟩ := timeCfg_ne t 0 ht (by decide)
  refine State.tbState_congr ?_
  have h1 (x : Word) : (u.setReg (regTIME_CFG t) x).reg (regTIME_STAT t) = u.reg (regTIME_STAT t) := State.reg_setReg_ne u x hne
  rw [State.tbConfigured]
  split
  · exact (State.raiseEvent_reg_block _ 5 _ _ (by decide) (timeStat_ne t 0 ht (by decide)).2).trans (h1 _)
  · exact h1 _

theorem exec_tbCfgWrite_off (m : Master) (v : Word) (h : bit v 31 = false) : exec (.tbCfgWrite m t v) s =
    .next ((((s.tbPass t).tbConfigured t.val (s.reg (regTIME_CFG t.val)) v).dropAnchor t.val).tbTo t.val 0 (decide (s.tbState t.val ≠ 0))) := by
  have hk : TimeKept t s (s.tbPass t) := .tbPass
  have hr := hk.regs _ (timeCfg_ne _ 0 t.isLt (by decide)).1 (timeCfg_ne _ 1 t.isLt (by decide)).1 (timeCfg_ne _ 0 t.isLt (by decide)).2.1
  refine congrArg Host.Outcome.next ((if_neg (Bool.eq_false_iff.1 h)).trans ?_)
  rw [State.regStore_timeCfg, hr, State.tbHold_eq _ _ t.isLt, State.tbConfigured_state _ _ _ _ t.isLt, hk.state]

end

/-! ## ALIGN in force (R296) -/

section
variable {s : State} {t : Fin 4}

theorem clampSigned_bounds (v : Word) : -500000000 ≤ (clampSigned 500000000 v).toInt ∧ (clampSigned 500000000 v).toInt ≤ 500000000 := by
  rw [clampSigned_toInt]
  omega

theorem State.alignWrite_now (v : Word) :
    (s.alignWrite t v).alignFrom t.val ((s.tbPass t).tbNs t / 1000000000) = (s.tbPass t).alignFrom t.val ((s.tbPass t).tbNs t / 1000000000) := by
  generalize ho : (s.tbPass t).alignFrom t.val ((s.tbPass t).tbNs t / 1000000000) = old
  have hb : -500000000 ≤ old ∧ old ≤ 500000000 := by
    rw [← ho]
    exact clampSigned_bounds _
  generalize hsec : (s.tbPass t).tbNs t / 1000000000 = sec at ho
  have hl : ∃ l, (s.alignWrite t v).timing.aligns = (t.val, sec + 1, v) :: (t.val, 0, ofInt old) :: l := ⟨_, by rw [← ho, ← hsec]; rfl⟩
  obtain ⟨l, hl⟩ := hl
  have hf : ((s.alignWrite t v).timing.aligns.find? fun e => decide (e.1 = t.val) && decide (e.2.1 ≤ sec)) = some (t.val, 0, ofInt old) := by
    rw [hl, List.find?_cons_of_neg (by simp), List.find?_cons_of_pos (by simp)]
  have hi := ofInt_toInt old (by omega) (by omega)
  rw [State.alignFrom, hf]
  show (clampSigned 500000000 (ofInt old)).toInt = old
  rw [clampSigned_toInt, hi]
  omega

theorem State.alignWrite_next (v : Word) (k : Nat) (h : (s.tbPass t).tbNs t / 1000000000 < k) :
    (s.alignWrite t v).alignFrom t.val k = max (-500000000) (min 500000000 v.toInt) := by
  generalize hsec : (s.tbPass t).tbNs t / 1000000000 = sec at h
  have hl : ∃ l, (s.alignWrite t v).timing.aligns = (t.val, sec + 1, v) :: l := ⟨_, by rw [← hsec]; rfl⟩
  obtain ⟨l, hl⟩ := hl
  have hf : ((s.alignWrite t v).timing.aligns.find? fun e => decide (e.1 = t.val) && decide (e.2.1 ≤ k)) = some (t.val, sec + 1, v) := by
    rw [hl, List.find?_cons_of_pos (by simp; omega)]
  rw [State.alignFrom, hf]
  exact clampSigned_toInt v

theorem State.alignAt_plain (t : Nat) (h : ∀ e ∈ s.timing.aligns, e.1 ≠ t) (k : Nat) : s.alignAt t k = max (-500000000) (min 500000000 (s.reg (regTIME_ALIGN t)).toInt) := by
  have hf (k : Nat) : s.alignFrom t k = max (-500000000) (min 500000000 (s.reg (regTIME_ALIGN t)).toInt) := by
    have hn : (s.timing.aligns.find? fun e => decide (e.1 = t) && decide (e.2.1 ≤ k)) = none := List.find?_eq_none.2 fun e he => by
      rw [decide_eq_false (h e he)]
      exact Bool.false_ne_true
    rw [State.alignFrom, hn]
    exact clampSigned_toInt _
  rw [State.alignAt, hf, hf, ite_self]

end

/-! ## Readings (R272, R296) -/

section
variable {s : State} {t : Fin 4}

/-- The counter of a time base after a number of XO cycles (R272). -/
def State.tbLater (s : State) (t : Fin 4) (xo : Nat) : Nat :=
  if s.rbit (regTIME_CFG t.val) 31 then (s.tbCount.get t + tbAdvance xo (s.reg (regTIME_RATE t.val)).toInt) % tbModulus else s.tbCount.get t

theorem AlarmsKept.advanced {c : Vector Nat 4} {v u : State} {t : Nat} (hv : v = { s with tbCount := c }) (h : AlarmsKept t v u) :
    u = { s with regs := u.regs, tbCount := u.tbCount, tokens := u.tokens, seq := u.seq, snap := { s.snap with pend := u.snap.pend } } := by
  subst hv
  obtain ⟨hf, -⟩ := h
  rw [hf]

theorem State.tbAdvanced_spec (xo : Nat) :
    let u := s.tbAdvanced t xo
    u = { s with regs := u.regs, tbCount := u.tbCount, tokens := u.tokens, seq := u.seq, snap := { s.snap with pend := u.snap.pend } } ∧
      u.tbCount.get t = s.tbLater t xo ∧ (∀ o, o ≠ t → u.tbCount.get o = s.tbCount.get o) ∧
      (∀ i, i < 2 → s.rbit (regTIME_CFG t.val) 31 = true → s.rbit (regTIME_ALM_CTRL t.val i) 31 = true → s.alarmNs t.val i ≤ s.tbLater t xo / 2 ^ 32 →
        u.rbit (regTIME_ALM_CTRL t.val i) 31 = false ∧ u.rbit (regTIME_ALM_CTRL t.val i) 30 = true) ∧
      ∀ i, i < 2 → (s.rbit (regTIME_CFG t.val) 31 = false ∨ s.tbLater t xo / 2 ^ 32 < s.alarmNs t.val i) →
        u.reg (regTIME_ALM_CTRL t.val i) = s.reg (regTIME_ALM_CTRL t.val i) := by
  by_cases h : s.rbit (regTIME_CFG t.val) 31 = true
  · have hl : s.tbLater t xo = (s.tbCount.get t + tbAdvance xo (s.reg (regTIME_RATE t.val)).toInt) % tbModulus := if_pos h
    rw [State.tbAdvanced_on xo h]
    obtain ⟨c, hm, hc⟩ := s.tbMoved_shape t xo
    rw [← hl] at hc
    generalize s.tbMoved t xo = v at hm
    have hself : c.get t = s.tbLater t xo := by
      rw [hc]
      exact Vector.getElem_set_self _
    have hvc : v.tbCount = c := by rw [hm]
    have hns : v.tbNs t = s.tbLater t xo / 2 ^ 32 := by rw [State.tbNs, hvc, hself]
    have hreg (a : Nat) : v.reg a = s.reg a := by
      rw [hm]
      rfl
    have halarm (i : Nat) (hi : i < 2) : v.alarmNs t.val i = s.alarmNs t.val i := State.alarmNs_congr t.isLt hi fun a _ _ _ => hreg a
    have hk : AlarmsKept t.val v (v.alarmsDue t) := .alarmsDue
    refine ⟨hk.advanced hm, by rw [hk.count, hvc, hself], fun o ho => ?_, fun i hi _ ha hn => ?_, fun i hi hn => ?_⟩
    · rw [hk.count, hvc, hc]
      exact Vector.getElem_set_ne t.isLt o.isLt fun e => ho (Fin.ext e.symm)
    · exact (State.alarmsDue_ctrl i hi).1 ((congrArg (bit · 31) (hreg _)).trans ha) (by rw [hns, halarm i hi]; exact hn)
    · refine ((State.alarmsDue_ctrl i hi).2 ?_).trans (hreg _)
      rw [hns, halarm i hi]
      exact hn.elim (fun h0 => absurd (h0.symm.trans h) Bool.false_ne_true) id
  · have h0 := Bool.eq_false_iff.2 h
    rw [State.tbAdvanced_off xo h0]
    exact ⟨rfl, (if_neg h).symm, fun _ _ => rfl, fun _ _ hon => absurd hon h, fun _ _ _ => rfl⟩

theorem nsWords_ne (t i : Nat) : regTIME_ALM_CTRL t i ≠ regTIME_NS t ∧ regTIME_ALM_CTRL t i ≠ regTIME_SEC_LO t ∧ regTIME_ALM_CTRL t i ≠ regTIME_SEC_HI t ∧
    regTIME_SEC_LO t ≠ regTIME_SEC_HI t := by
  simp only [regTIME_ALM_CTRL, regTIME_NS, regTIME_SEC_LO, regTIME_SEC_HI]
  omega

/-- The state that a read of NS leaves (R272). -/
def State.nsRead (u : State) (t : Fin 4) (m : Nat) (n : Nat) : State :=
  (((u.setReg (regTIME_NS t.val) (timeWords n).1).setReg (regTIME_SEC_LO t.val) (timeWords n).2.1).setReg (regTIME_SEC_HI t.val) (timeWords n).2.2).returnTo m (timeWords n).1

theorem State.nsRead_shape (u : State) (t : Fin 4) (m n : Nat) : ∃ r d, u.nsRead t m n = { u with regs := r, rdata := d } ∧
    (∀ i, mapGet regReset r (regTIME_ALM_CTRL t.val i) = u.reg (regTIME_ALM_CTRL t.val i)) ∧ wmGet d m = BitVec.ofNat 32 (n % 1000000000) ∧
    mapGet regReset r (regTIME_SEC_LO t.val) = BitVec.ofNat 32 (n / 1000000000) ∧ mapGet regReset r (regTIME_SEC_HI t.val) = BitVec.ofNat 32 (n / 1000000000 / 2 ^ 32 % 65536) := by
  refine ⟨_, _, rfl, fun i => ?_, State.rdata_returnTo_self _ m _, ?_, State.reg_setReg_self _ _ _⟩
  · obtain ⟨n1, n2, n3, -⟩ := nsWords_ne t.val i
    exact (State.reg_setReg_ne _ _ n3).trans ((State.reg_setReg_ne _ _ n2).trans (State.reg_setReg_ne u _ n1))
  · exact (State.reg_setReg_ne _ _ (nsWords_ne t.val 0).2.2.2).trans (State.reg_setReg_self _ _ _)

theorem exec_tbNsRead_spec (m : Master) (xo : BitVec 64) :
    let cnt := s.tbLater t xo.toNat
    ∃ u, exec (.tbNsRead m t xo) s = .next u ∧
      u = { s with regs := u.regs, tbCount := u.tbCount, rdata := u.rdata, tokens := u.tokens, seq := u.seq, snap := { s.snap with pend := u.snap.pend } } ∧
      u.tbCount.get t = cnt ∧ (∀ o, o ≠ t → u.tbCount.get o = s.tbCount.get o) ∧ wmGet u.rdata m.val = BitVec.ofNat 32 (cnt / 2 ^ 32 % 1000000000) ∧
      u.reg (regTIME_SEC_LO t.val) = BitVec.ofNat 32 (cnt / 2 ^ 32 / 1000000000) ∧
      u.reg (regTIME_SEC_HI t.val) = BitVec.ofNat 32 (cnt / 2 ^ 32 / 1000000000 / 2 ^ 32 % 65536) ∧
      (∀ i, i < 2 → s.rbit (regTIME_CFG t.val) 31 = true → s.rbit (regTIME_ALM_CTRL t.val i) 31 = true → s.alarmNs t.val i ≤ cnt / 2 ^ 32 →
        u.rbit (regTIME_ALM_CTRL t.val i) 31 = false ∧ u.rbit (regTIME_ALM_CTRL t.val i) 30 = true) ∧
      ∀ i, i < 2 → (s.rbit (regTIME_CFG t.val) 31 = false ∨ cnt / 2 ^ 32 < s.alarmNs t.val i) → u.reg (regTIME_ALM_CTRL t.val i) = s.reg (regTIME_ALM_CTRL t.val i) := by
  intro cnt
  obtain ⟨hf, hc, ho, hfire, hkeep⟩ := State.tbAdvanced_spec (s := s) (t := t) xo.toNat
  have he : exec (.tbNsRead m t xo) s = .next ((s.tbAdvanced t xo.toNat).nsRead t m.val ((s.tbAdvanced t xo.toNat).tbNs t)) := rfl
  have hns : (s.tbAdvanced t xo.toNat).tbNs t = cnt / 2 ^ 32 := congrArg (· / 2 ^ 32) hc
  rw [hns] at he
  generalize s.tbAdvanced t xo.toNat = v at he hf hc ho hfire hkeep
  obtain ⟨r, d, hr, hctrl, hd, hlo, hhi⟩ := v.nsRead_shape t m.val (cnt / 2 ^ 32)
  have hbit (i n : Nat) : bit (mapGet regReset r (regTIME_ALM_CTRL t.val i)) n = v.rbit (regTIME_ALM_CTRL t.val i) n := congrArg (bit · n) (hctrl i)
  rw [hr] at he
  refine ⟨_, he, by rw [hf], hc, ho, hd, hlo, hhi, fun i hi hon ha hn => ?_, fun i hi hn => (hctrl i).trans (hkeep i hi hn)⟩
  obtain ⟨f1, f2⟩ := hfire i hi hon ha hn
  exact ⟨(hbit i 31).trans f1, (hbit i 30).trans f2⟩

/-- The anchor words that a read of ANC_NS latches (R296). -/
def State.ancRead (s : State) (t m : Nat) (a : Anchor) : State :=
  let ns := BitVec.ofNat 32 (a.ns % 1000000000).toNat
  let sec := (a.ns / 1000000000 % 2 ^ 48).toNat
  (((((s.setReg (regTIME_ANC_NS t) ns).setReg (regTIME_ANC_SEC_LO t) (BitVec.ofNat 32 sec)).setReg (regTIME_ANC_SEC_HI t) (BitVec.ofNat 32 (sec / 2 ^ 32))).setReg
    (regTIME_ANC_FC_LO t) (BitVec.ofNat 32 a.frame)).setReg (regTIME_ANC_FC_HI t) (BitVec.ofNat 32 (a.frame / 2 ^ 32))).returnTo m ns

theorem State.ancRead_spec (s : State) (t m : Nat) (a : Anchor) :
    let u := s.ancRead t m a
    u = { s with regs := u.regs, rdata := u.rdata } ∧ wmGet u.rdata m = BitVec.ofNat 32 (a.ns % 1000000000).toNat ∧
      u.reg (regTIME_ANC_SEC_LO t) = BitVec.ofNat 32 (a.ns / 1000000000 % 2 ^ 48).toNat ∧ u.reg (regTIME_ANC_FC_LO t) = BitVec.ofNat 32 a.frame ∧
      u.reg (regTIME_ANC_FC_HI t) = BitVec.ofNat 32 (a.frame / 2 ^ 32) := by
  have n1 : regTIME_ANC_SEC_LO t ≠ regTIME_ANC_FC_HI t := by simp only [regTIME_ANC_SEC_LO, regTIME_ANC_FC_HI]; omega
  have n2 : regTIME_ANC_SEC_LO t ≠ regTIME_ANC_FC_LO t := by simp only [regTIME_ANC_SEC_LO, regTIME_ANC_FC_LO]; omega
  have n3 : regTIME_ANC_SEC_LO t ≠ regTIME_ANC_SEC_HI t := by simp only [regTIME_ANC_SEC_LO, regTIME_ANC_SEC_HI]; omega
  have n4 : regTIME_ANC_FC_LO t ≠ regTIME_ANC_FC_HI t := by simp only [regTIME_ANC_FC_LO, regTIME_ANC_FC_HI]; omega
  refine ⟨rfl, State.rdata_returnTo_self _ m _, ?_, ?_, State.reg_setReg_self _ _ _⟩
  · exact (State.reg_setReg_ne _ _ n1).trans ((State.reg_setReg_ne _ _ n2).trans ((State.reg_setReg_ne _ _ n3).trans (State.reg_setReg_self _ _ _)))
  · exact (State.reg_setReg_ne _ _ n4).trans (State.reg_setReg_self _ _ _)

theorem exec_tbAncNsRead (m : Master) : exec (.tbAncNsRead m t) s = .next (s.ancRead t.val m.val ((mapFind s.anchors t.val).getD { ns := 0, frame := 0 })) := rfl

/-! ## Anchors (R279) -/

theorem exec_anchorEstablish_fixed (sec : BitVec 48) (ht : s.ticking = true) (ho : s.rbit (regTIME_CFG t.val) 31 = true) (hl : s.tbState t.val = 1) :
    ∃ u, exec (.anchorEstablish t sec) s = .next u ∧ u = { s with ancPend := u.ancPend } ∧
      mapFind u.ancPend t.val = some { ns := (sec.toNat : Int) * 1000000000 + s.alignAt t.val sec.toNat, frame := s.now } ∧
      ∀ o, o ≠ t.val → mapFind u.ancPend o = mapFind s.ancPend o := by
  have hc : (s.ticking && s.tbOn t.val && decide (s.tbState t.val = tLOCKED)) = true := by
    rw [ht, State.tbOn, ho, decide_eq_true (show s.tbState t.val = tLOCKED from hl)]
    rfl
  exact ⟨_, congrArg Host.Outcome.next (if_pos hc), rfl, mapFind_ins_self _ _ _ (mapFind_del_self _ _), fun o h => (mapFind_ins_ne _ _ h).trans (mapFind_del_ne _ h)⟩

theorem exec_anchorEstablish_idle (sec : BitVec 48) (h : s.ticking = false ∨ s.rbit (regTIME_CFG t.val) 31 = false ∨ s.tbState t.val ≠ 1) :
    exec (.anchorEstablish t sec) s = .next s := by
  refine congrArg Host.Outcome.next (if_neg ?_)
  rw [Bool.and_eq_true, Bool.and_eq_true, decide_eq_true_eq]
  rintro ⟨⟨h1, h2⟩, h3⟩
  rcases h with h | h | h
  · exact Bool.false_ne_true (h.symm.trans h1)
  · exact Bool.false_ne_true (h.symm.trans h2)
  · exact h h3

/-! ## Alarms by command (R281) -/

theorem exec_alarmFire_armed (j : Fin 2) (h : s.rbit (regTIME_ALM_CTRL t.val j.val) 31 = true) (ho : s.rbit (regTIME_CFG t.val) 31 = true ∨ s.alarmNs t.val j.val ≤ s.tbNs t) :
    exec (.alarmFire t j) s = .next ((((s.tbReach t (s.alarmNs t.val j.val)).alarmFires t.val j.val).alarmDue t 0).alarmDue t 1) := by
  refine congrArg Host.Outcome.next (if_pos ?_)
  rw [h, Bool.true_and, Bool.or_eq_true, decide_eq_true_eq]
  exact ho

theorem exec_alarmFire_idle (j : Fin 2) (h : s.rbit (regTIME_ALM_CTRL t.val j.val) 31 = false ∨ (s.rbit (regTIME_CFG t.val) 31 = false ∧ s.tbNs t < s.alarmNs t.val j.val)) :
    exec (.alarmFire t j) s = .next s := by
  refine congrArg Host.Outcome.next (if_neg ?_)
  rw [Bool.and_eq_true, Bool.or_eq_true, decide_eq_true_eq]
  rintro ⟨h1, h2⟩
  rcases h with h | ⟨h3, h4⟩
  · exact Bool.false_ne_true (h.symm.trans h1)
  · exact h2.elim (fun h => Bool.false_ne_true (h3.symm.trans h)) fun h => absurd h (Nat.not_le.2 h4)

/-- The value that a write gives an alarm's control register: EN follows, and a 1 clears FIRED (R281). -/
def almCtrlTaken (w v : Word) : Word := merge w 0x80000000#32 v &&& ~~~(v &&& 0x40000000#32)

theorem almCtrl_bits (t : Fin 4) (j : Fin 2) : rwBits (regTIME_ALM_CTRL t.val j.val) = 0x80000000#32 ∧ w1cBits (regTIME_ALM_CTRL t.val j.val) = 0x40000000#32 := by
  revert t j
  decide

theorem State.regStore_almCtrl (u : State) (t : Fin 4) (j : Fin 2) (v : Word) :
    u.regStore (regTIME_ALM_CTRL t.val j.val) v = u.setReg (regTIME_ALM_CTRL t.val j.val) (almCtrlTaken (u.reg (regTIME_ALM_CTRL t.val j.val)) v) := by
  have hc : clampReg (regTIME_ALM_CTRL t.val j.val) v = v := by
    fin_cases t <;> fin_cases j <;> rfl
  have hr (x : State) : x.reservedReg (regTIME_ALM_CTRL t.val j.val) v = false := by
    fin_cases t <;> fin_cases j <;> rfl
  obtain ⟨h1, h2⟩ := almCtrl_bits t j
  rw [State.regStore, h1, h2, hc, State.checkReserved, hr]
  rfl

theorem almCtrlTaken_bits (w v : Word) : bit (almCtrlTaken w v) 31 = bit v 31 ∧ bit (almCtrlTaken w v) 30 = (bit w 30 && !bit v 30) := by
  have h1 : bit (0x80000000#32) 31 = true := by decide
  have h2 : bit (0x80000000#32) 30 = false := by decide
  have h3 : bit (0x40000000#32) 31 = false := by decide
  have h4 : bit (0x40000000#32) 30 = true := by decide
  rw [almCtrlTaken, bit_and, bit_and, bit_not _ _ (by decide), bit_not _ _ (by decide), bit_and, bit_and, bit_merge, bit_merge, h1, h2, h3, h4]
  simp

theorem exec_alarmCtrlWrite (m : Master) (j : Fin 2) (v : Word) : exec (.alarmCtrlWrite m t j v) s =
    .next (((s.tbPass t).setReg (regTIME_ALM_CTRL t.val j.val) (almCtrlTaken ((s.tbPass t).reg (regTIME_ALM_CTRL t.val j.val)) v)).alarmDue t j.val) := by
  rw [← State.regStore_almCtrl]
  rfl

theorem State.alarmSet_ns (j : Fin 2) (w : Word) : ((s.tbPass t).setReg (regTIME_ALM_CTRL t.val j.val) w).alarmNs t.val j.val = s.alarmNs t.val j.val := by
  have hk : TimeKept t s (s.tbPass t) := .tbPass
  refine State.alarmNs_congr t.isLt j.isLt fun a h0 h1 hb => (State.reg_setReg_ne _ _ ?_).trans (hk.regs a h0 h1 (by omega))
  intro e
  have h01 : j.val = 0 ∨ j.val = 1 := by omega
  rcases h01 with h | h <;> rw [h] at e
  · exact h0 e
  · exact h1 e

theorem exec_alarmCtrlWrite_ahead (m : Master) (j : Fin 2) (v : Word) (h : (s.tbPass t).tbNs t < s.alarmNs t.val j.val) :
    ∃ u, exec (.alarmCtrlWrite m t j v) s = .next u ∧ OnlyRegs [regTIME_ALM_CTRL t.val j.val] (s.tbPass t) u ∧ u.rbit (regTIME_ALM_CTRL t.val j.val) 31 = bit v 31 ∧
      u.rbit (regTIME_ALM_CTRL t.val j.val) 30 = ((s.tbPass t).rbit (regTIME_ALM_CTRL t.val j.val) 30 && !bit v 30) := by
  obtain ⟨b1, b2⟩ := almCtrlTaken_bits ((s.tbPass t).reg (regTIME_ALM_CTRL t.val j.val)) v
  have hd := State.alarmDue_ahead (s := (s.tbPass t).setReg (regTIME_ALM_CTRL t.val j.val) (almCtrlTaken ((s.tbPass t).reg (regTIME_ALM_CTRL t.val j.val)) v)) (t := t)
    (j := j.val) (by rw [State.alarmSet_ns]; exact h)
  refine ⟨_, exec_alarmCtrlWrite m j v, ?_⟩
  rw [hd]
  generalize s.tbPass t = n at b1 b2
  refine ⟨⟨rfl, fun a ha => State.reg_setReg_ne n _ fun e => ha (List.mem_singleton.2 e)⟩, ?_, ?_⟩
  · rw [State.rbit_setReg, if_pos rfl, b1]
  · rw [State.rbit_setReg, if_pos rfl, b2]
    rfl

theorem exec_alarmCtrlWrite_past (m : Master) (j : Fin 2) (v : Word) (h : s.alarmNs t.val j.val ≤ (s.tbPass t).tbNs t) (hv : bit v 31 = true) :
    ∃ u, exec (.alarmCtrlWrite m t j v) s = .next u ∧ u.rbit (regTIME_ALM_CTRL t.val j.val) 31 = false ∧ u.rbit (regTIME_ALM_CTRL t.val j.val) 30 = true ∧
      u.reg (regEVT_PAYLOAD (68 + t.val)) = BitVec.ofNat 32 j.val := by
  obtain ⟨b1, -⟩ := almCtrlTaken_bits ((s.tbPass t).reg (regTIME_ALM_CTRL t.val j.val)) v
  have hd := State.alarmDue_past (s := (s.tbPass t).setReg (regTIME_ALM_CTRL t.val j.val) (almCtrlTaken ((s.tbPass t).reg (regTIME_ALM_CTRL t.val j.val)) v)) (t := t)
    (j := j.val) (by rw [State.alarmSet_ns]; exact h)
  refine ⟨_, exec_alarmCtrlWrite m j v, ?_⟩
  rw [hd]
  generalize hu : (s.tbPass t).setReg (regTIME_ALM_CTRL t.val j.val) (almCtrlTaken ((s.tbPass t).reg (regTIME_ALM_CTRL t.val j.val)) v) = u
  have ha : u.rbit (regTIME_ALM_CTRL t.val j.val) 31 = true := by
    rw [← hu, State.rbit_setReg, if_pos rfl, b1, hv]
  have hr := State.alarmFires_regs t.isLt j.isLt ha
  obtain ⟨f1, f2⟩ := State.alarmFired_ctrl (s := u) t.isLt j.isLt
  refine ⟨(congrArg (bit · 31) (hr _)).trans f1, (congrArg (bit · 30) (hr _)).trans f2, (hr _).trans ?_⟩
  exact State.raiseEvent_payload _ (68 + t.val) _ (by omega)

end

/-! ## Edge captures (R282) -/

section
variable {s : State} {k : Fin 4}

theorem exec_captureEdge_idle (falling : Bool) (h : bit (s.reg (regTIME_CAPCFG k.val)) 31 = false ∨ bit (s.reg (regTIME_CAPCFG k.val)) 30 ≠ falling) :
    exec (.captureEdge k falling) s = .next s := by
  refine congrArg Host.Outcome.next (if_neg ?_)
  rw [Bool.and_eq_true, beq_iff_eq]
  rintro ⟨h1, h2⟩
  exact h.elim (fun h => Bool.false_ne_true (h.symm.trans h1)) fun h => h h2

/-- The timestamp of a captured edge on the time that has passed, its flags and its event (R282). -/
def State.edgeTaken (u : State) (k : Nat) (b : Fin 4) : State :=
  let w := timeWords (u.tbNs b)
  let s1 := if u.rbit regTIME_CAPSTAT k then u.setRbit regTIME_CAPSTAT (4 + k) else u
  let s2 : State := { s1 with capSec := mapIns (mapDel s1.capSec k) k (w.2.1.toNat + w.2.2.toNat * 2 ^ 32) }
  ((s2.setReg (regTIME_CAPNS k) w.1).setRbit regTIME_CAPSTAT k).raiseEvent 72 (BitVec.ofNat 32 k)

theorem exec_captureEdge_counted (falling : Bool) (h : bit (s.reg (regTIME_CAPCFG k.val)) 31 = true) (hf : bit (s.reg (regTIME_CAPCFG k.val)) 30 = falling) :
    exec (.captureEdge k falling) s = .next (
      if (mapFind s.capCnt k.val).getD 0 + 1 < Nat.max 1 (fld (s.reg (regTIME_CAPCFG k.val)) 0 16) then
        { s with capCnt := mapIns (mapDel s.capCnt k.val) k.val ((mapFind s.capCnt k.val).getD 0 + 1) }
      else (({ s with capCnt := mapDel s.capCnt k.val } : State).tbPass (fin 3 (fld (s.reg (regTIME_CAPCFG k.val)) 28 2))).edgeTaken k.val
        (fin 3 (fld (s.reg (regTIME_CAPCFG k.val)) 28 2))) := by
  refine congrArg Host.Outcome.next (if_pos ?_)
  rw [Bool.and_eq_true, beq_iff_eq]
  exact ⟨h, hf⟩

theorem capNs_ne (k : Nat) : regTIME_CAPSTAT ≠ regTIME_CAPNS k ∨ 15 ≤ k := by
  simp only [regTIME_CAPSTAT, regTIME_CAPNS]
  omega

theorem State.edgeTaken_spec (u : State) (k : Nat) (hk : k < 4) (b : Fin 4) :
    let v := u.edgeTaken k b
    v.capCnt = u.capCnt ∧ v.rbit regTIME_CAPSTAT k = true ∧ (u.rbit regTIME_CAPSTAT k = true → v.rbit regTIME_CAPSTAT (4 + k) = true) ∧
      v.reg (regTIME_CAPNS k) = BitVec.ofNat 32 (u.tbNs b % 1000000000) ∧ v.rbit (regEVT_PEND 2) 8 = true ∧ v.reg (regEVT_PAYLOAD 72) = BitVec.ofNat 32 k := by
  intro v
  have hne : regTIME_CAPSTAT ≠ regTIME_CAPNS k := (capNs_ne k).resolve_right (by omega)
  generalize h1 : (if u.rbit regTIME_CAPSTAT k then u.setRbit regTIME_CAPSTAT (4 + k) else u) = s1
  generalize hw : (timeWords (u.tbNs b)) = w
  have hcnt : s1.capCnt = u.capCnt := by
    rw [← h1]
    split <;> rfl
  have hovr : u.rbit regTIME_CAPSTAT k = true → s1.rbit regTIME_CAPSTAT (4 + k) = true := fun h => by
    rw [← h1, if_pos h, State.rbit_setRbit _ _ _ _ _ (by omega)]
    simp
  have hv : v = ((({ s1 with capSec := mapIns (mapDel s1.capSec k) k (w.2.1.toNat + w.2.2.toNat * 2 ^ 32) } : State).setReg (regTIME_CAPNS k) w.1).setRbit regTIME_CAPSTAT k).raiseEvent
      72 (BitVec.ofNat 32 k) := by
    rw [← hw, ← h1]
    rfl
  generalize h2 : ({ s1 with capSec := mapIns (mapDel s1.capSec k) k (w.2.1.toNat + w.2.2.toNat * 2 ^ 32) } : State) = s2 at hv
  have hreg2 (a : Nat) : s2.reg a = s1.reg a := by rw [← h2]; rfl
  have hcnt2 : s2.capCnt = s1.capCnt := by rw [← h2]
  have hb (i : Nat) (hi : i < 32) : v.rbit regTIME_CAPSTAT i = (s1.rbit regTIME_CAPSTAT i || decide (i = k)) := by
    rw [hv]
    refine (congrArg (bit · i) (State.raiseEvent_reg_block _ 72 _ _ (by decide) (by decide))).trans ?_
    refine (State.rbit_setRbit (s2.setReg (regTIME_CAPNS k) w.1) _ _ _ _ hi).trans ?_
    rw [State.rbit_setReg, if_neg hne, decide_eq_true rfl, Bool.true_and, State.rbit, hreg2]
    rfl
  refine ⟨?_, ?_, fun h => ?_, ?_, ?_, ?_⟩
  · rw [hv, State.raiseEvent_frame]
    exact hcnt2.trans hcnt
  · rw [hb k (by omega), decide_eq_true rfl, Bool.or_true]
  · rw [hb (4 + k) (by omega), hovr h, Bool.true_or]
  · rw [hv]
    refine (State.raiseEvent_reg_block _ 72 _ _ (by decide) (by rw [regTIME_CAPNS]; omega)).trans ?_
    refine (State.reg_setRbit_ne (s2.setReg (regTIME_CAPNS k) w.1) _ _ _ hne.symm).trans ((State.reg_setReg_self _ _ _).trans ?_)
    rw [← hw]
    rfl
  · rw [hv]
    refine (State.raiseEvent_pend _ 72 72 (BitVec.ofNat 32 k) (by decide) (by decide)).trans ?_
    rw [decide_eq_true rfl, Bool.or_true]
  · rw [hv]
    exact State.raiseEvent_payload _ 72 _ (by decide)

theorem exec_captureEdge_taken (falling : Bool) (h : bit (s.reg (regTIME_CAPCFG k.val)) 31 = true) (hf : bit (s.reg (regTIME_CAPCFG k.val)) 30 = falling)
    (hn : max 1 (fld (s.reg (regTIME_CAPCFG k.val)) 0 16) ≤ (mapFind s.capCnt k.val).getD 0 + 1) :
    ∃ u, exec (.captureEdge k falling) s = .next u ∧ mapFind u.capCnt k.val = none ∧ u.rbit regTIME_CAPSTAT k.val = true ∧
      (s.rbit regTIME_CAPSTAT k.val = true → u.rbit regTIME_CAPSTAT (4 + k.val) = true) ∧
      (let b : Fin 4 := fin 3 (fld (s.reg (regTIME_CAPCFG k.val)) 28 2)
       u.reg (regTIME_CAPNS k.val) = BitVec.ofNat 32 ((s.tbPass b).tbNs b % 1000000000)) ∧
      u.rbit (regEVT_PEND 2) 8 = true ∧ u.reg (regEVT_PAYLOAD 72) = BitVec.ofNat 32 k.val := by
  generalize hb : (fin 3 (fld (s.reg (regTIME_CAPCFG k.val)) 28 2)) = b
  have hk : TimeKept b { s with capCnt := mapDel s.capCnt k.val } (({ s with capCnt := mapDel s.capCnt k.val } : State).tbPass b) := .tbPass
  have hns : (({ s with capCnt := mapDel s.capCnt k.val } : State).tbPass b).tbNs b = (s.tbPass b).tbNs b := by
    have hc := State.tbPass_count (t := b) (s := s) (u := { s with capCnt := mapDel s.capCnt k.val }) rfl rfl fun _ => rfl
    exact congrArg (fun c => c.get b / 2 ^ 32) hc
  have hstat : (({ s with capCnt := mapDel s.capCnt k.val } : State).tbPass b).rbit regTIME_CAPSTAT k.val = s.rbit regTIME_CAPSTAT k.val := by
    refine congrArg (bit · k.val) (hk.regs _ ?_ ?_ (by decide)) <;> simp only [regTIME_CAPSTAT, regTIME_ALM_CTRL] <;> omega
  obtain ⟨e1, e2, e3, e4, e5, e6⟩ := State.edgeTaken_spec (({ s with capCnt := mapDel s.capCnt k.val } : State).tbPass b) k.val k.isLt b
  have hcnt : (({ s with capCnt := mapDel s.capCnt k.val } : State).tbPass b).capCnt = mapDel s.capCnt k.val := by rw [hk.frame]
  refine ⟨_, (exec_captureEdge_counted falling h hf).trans (congrArg Host.Outcome.next (if_neg (Nat.not_lt.2 hn))), ?_⟩
  rw [hb]
  refine ⟨?_, e2, fun hs => e3 (hstat.trans hs), e4.trans (by rw [hns]), e5, e6⟩
  rw [e1, hcnt]
  exact mapFind_del_self _ _

theorem exec_capnsRead_spec (m : Master) : ∃ u, exec (.capnsRead m k) s = .next u ∧ u = { s with regs := u.regs, rdata := u.rdata } ∧
    wmGet u.rdata m.val = s.reg (regTIME_CAPNS k.val) ∧ u.reg (regTIME_CAPSECLO k.val) = BitVec.ofNat 32 ((mapFind s.capSec k.val).getD 0) ∧
    u.reg (regTIME_CAPSECHI k.val) = BitVec.ofNat 32 ((mapFind s.capSec k.val).getD 0 / 2 ^ 32) := by
  have hne : regTIME_CAPSECLO k.val ≠ regTIME_CAPSECHI k.val := by
    simp only [regTIME_CAPSECLO, regTIME_CAPSECHI]
    omega
  exact ⟨_, rfl, rfl, State.rdata_returnTo_self _ m.val _, (State.reg_setReg_ne _ _ hne).trans (State.reg_setReg_self _ _ _), State.reg_setReg_self _ _ _⟩

end

/-- Settles O46: the passage of time goes through one frame lemma, and every command of a time base through its change of state. -/
theorem timeBases : Obligations.TimeBases := by
  refine ⟨fun s m t v => ⟨State.tbPass_off, fun h => ⟨_, State.tbPass_on h⟩, exec_tbCmdStep_unlocked, fun h => congrArg Host.Outcome.next (if_neg h), exec_tbCmdQualify_freerun,
    fun h => ⟨exec_tbCmdQualify_locked h, congrArg Host.Outcome.next ((if_pos h).trans (State.tbLose_locked h))⟩, fun h => congrArg Host.Outcome.next (if_neg h), exec_tbCmdArm,
    exec_tbCmdGrandmaster_other, fun h => congrArg Host.Outcome.next (if_pos h), exec_rateWatchdogTrip, fun h => congrArg Host.Outcome.next (if_pos h),
    fun h => ⟨clampSigned 500000000 v, congrArg Host.Outcome.next (if_neg h), clampSigned_toInt v⟩, ⟨fun h => ?_, fun h => exec_tbCfgWrite_off m v h⟩,
    State.alignWrite_now v, State.alignWrite_next v, fun h => State.alignAt_plain t.val h⟩,
    fun s m t k j xo sec v falling => ⟨exec_tbNsRead_spec m xo, ⟨_, exec_tbAncNsRead m, ?_⟩, exec_anchorEstablish_fixed sec, exec_anchorEstablish_idle sec,
      State.alarmFires_armed t.isLt j.isLt, State.alarmFires_idle, exec_alarmFire_armed j, exec_alarmFire_idle j, State.alarmDue_past, State.alarmDue_ahead,
      ⟨exec_alarmCtrlWrite_ahead m j v, exec_alarmCtrlWrite_past m j v⟩, fun h hf => ⟨fun hn => ?_, exec_captureEdge_taken falling h hf⟩, exec_captureEdge_idle falling,
      exec_capnsRead_spec m⟩⟩
  · exact congrArg Host.Outcome.next ((if_pos h).trans (s.regStore_timeCfg t v))
  · obtain ⟨hf, h1, h2, h3, h4⟩ := s.ancRead_spec t.val m.val ((mapFind s.anchors t.val).getD { ns := 0, frame := 0 })
    refine ⟨hf, fun a ha => ?_, fun hn => ?_⟩
    · rw [ha] at h1 h2 h3 h4 ⊢
      exact ⟨h1, h2, h3, h4⟩
    · rw [hn] at h1 h3 ⊢
      exact ⟨h1, h3⟩
  · exact ⟨_, (exec_captureEdge_counted falling h hf).trans (congrArg Host.Outcome.next (if_pos hn)), rfl, mapFind_ins_self _ _ _ (mapFind_del_self _ _)⟩

end Sys2Proof.Machine
end

section
/-! Fuse burns and flash commands (R333, R341). -/

namespace Sys2Proof.Machine

-- One theorem after another, so that the compile of the whole text stays within its memory.
set_option Elab.async false

variable {s : State}

/-! ## The fuses (R333) -/

theorem State.fused_iff : (!s.unfused) = true ↔ ∃ w ∈ s.fuseKey, w ≠ 0 := by
  rw [Bool.not_eq_true', State.unfused, List.all_eq_false]
  simp

theorem State.flashBusy_iff : s.flashBusy = true ↔ s.flCmd.isSome = true ∨ s.otpRun.isSome = true := by rw [State.flashBusy, Bool.or_eq_true]

/-- A write of OTPCTRL that is refused (R333). -/
def State.otpRefused (s : State) (v : Word) : Prop :=
  fld v 16 16 ≠ 0xB01A ∨ s.rbit regGLOBAL_MODE 16 = false ∨ (bit v 0 = true ∧ ∃ w ∈ s.fuseKey, w ≠ 0) ∨ s.flCmd.isSome = true ∨ s.otpRun.isSome = true

theorem State.otpRefused_iff (v : Word) : s.otpRefused v ↔
    (fld v 16 16 ≠ 0xB01A ∨ (!s.rbit regGLOBAL_MODE 16) = true ∨ (bit v 0 = true ∧ (!s.unfused) = true) ∨ s.flashBusy = true) := by
  rw [State.fused_iff, State.flashBusy_iff, Bool.not_eq_true', State.otpRefused]

theorem exec_otpBurn_refused (m : Master) (v : Word) (h : s.otpRefused v) : exec (.otpBurn m v) s = .next (s.setRbit regBOOT_STATUS 21) :=
  congrArg Host.Outcome.next (if_pos ((State.otpRefused_iff v).1 h))

theorem exec_otpBurn_taken (m : Master) (v : Word) (h : ¬ s.otpRefused v) (hb : bit v 0 = true ∨ bit v 1 = true) :
    exec (.otpBurn m v) s = .next { s.setRbit regBOOT_STATUS 22 with otpRun := some (bit v 0, bit v 1, (List.range 8).map fun i => s.reg (regBOOT_KEYHASH i)) } := by
  refine congrArg Host.Outcome.next ((if_neg fun hn => h ((State.otpRefused_iff v).2 hn)).trans (if_neg ?_))
  rcases hb with hb | hb <;> rw [hb]
  · exact Bool.false_ne_true
  · rw [Bool.not_true, Bool.and_false]
    exact Bool.false_ne_true

theorem exec_otpBurn_nothing (m : Master) (v : Word) (h : ¬ s.otpRefused v) (h0 : bit v 0 = false) (h1 : bit v 1 = false) : exec (.otpBurn m v) s = .next s := by
  refine congrArg Host.Outcome.next ((if_neg fun hn => h ((State.otpRefused_iff v).2 hn)).trans (if_pos ?_))
  rw [h0, h1]
  rfl

theorem exec_otpBurnComplete_idle (h : s.otpRun = none) : exec .otpBurnComplete s = .next s := by
  refine congrArg Host.Outcome.next ?_
  rw [h]

theorem exec_otpBurnComplete_running (k l : Bool) (d : List Word) (h : s.otpRun = some (k, l, d)) :
    exec .otpBurnComplete s =
      .next { s.putRbit regBOOT_STATUS 22 false with otpRun := none, fuseKey := if k then d else s.fuseKey, fuseLock := s.fuseLock || l } := by
  refine congrArg Host.Outcome.next ?_
  rw [h]

theorem State.rbit_put_self (a i : Nat) (b : Bool) (h : i < 32) : (s.putRbit a i b).rbit a i = b := by
  rw [State.rbit_putRbit _ _ _ _ _ _ h, if_pos ⟨rfl, rfl⟩]

/-! ## Bytes and words -/

theorem wordsLE_length (ws : List Word) : (wordsLE ws).length = 4 * ws.length := by
  induction ws with
  | nil => rfl
  | cons w ws ih =>
    have h : (wordsLE (w :: ws)).length = (wordsLE ws).length + 4 := rfl
    rw [h, ih, List.length_cons]
    omega

/-- A byte of a list of words is a lane of its word. -/
theorem nthD_wordsLE (ws : List Word) (i : Nat) (h : i < 4 * ws.length) : nthD (wordsLE ws) i 0 = lane (nthD ws (i / 4) 0) (i % 4) := by
  induction ws generalizing i with
  | nil => exact absurd h (by simp)
  | cons w ws ih =>
    rw [List.length_cons] at h
    rcases Nat.lt_or_ge i 4 with h4 | h4
    · interval_cases i <;> rfl
    · obtain ⟨j, rfl⟩ := Nat.exists_eq_add_of_le' h4
      have h1 : nthD (wordsLE (w :: ws)) (j + 4) 0 = nthD (wordsLE ws) j 0 := rfl
      have h2 : (j + 4) / 4 = j / 4 + 1 := by omega
      have h3 : (j + 4) % 4 = j % 4 := by omega
      rw [h1, ih j (by omega), h2, h3]
      rfl

/-- The words that the buffer takes stand there one after another. -/
theorem State.bufferSet_from (ws : List Word) (n : Nat) (t : State) :
    let u := (ws.zipIdx n).foldl (fun (t : State) e => t.tabSet (0x01B00000 + 4 * e.2) e.1) t
    (∃ b, u = { t with tab := b }) ∧ (∀ i, i < n → u.tabGet (0x01B00000 + 4 * i) = t.tabGet (0x01B00000 + 4 * i)) ∧
      ∀ i, i < ws.length → u.tabGet (0x01B00000 + 4 * (n + i)) = nthD ws i 0 := by
  induction ws generalizing n t with
  | nil => exact ⟨⟨t.tab, rfl⟩, fun _ _ => rfl, fun i h => absurd h (Nat.not_lt_zero i)⟩
  | cons w ws ih =>
    obtain ⟨⟨b, hb⟩, hlow, hall⟩ := ih (n + 1) (t.tabSet (0x01B00000 + 4 * n) w)
    refine ⟨⟨b, hb⟩, fun i hi => (hlow i (by omega)).trans (State.tabGet_tabSet_ne t w (by omega)), fun i hi => ?_⟩
    cases i with
    | zero => exact (hlow n (by omega)).trans (State.tabGet_tabSet_self t _ _)
    | succ i =>
      have h := hall i (by rw [List.length_cons] at hi; omega)
      have hn : n + 1 + i = n + (i + 1) := by omega
      rw [hn] at h
      exact h

/-! ## Bytes of flash (R341) -/

theorem State.flashByte_set_ne (t : State) {a b : Nat} (v : Byte) (h : b ≠ a) : (t.setFlash a v).flashByte b = t.flashByte b := mapGet_set_ne _ _ _ h

theorem State.flashByte_set_self (t : State) (a : Nat) (v : Byte) : (t.setFlash a v).flashByte a = v := mapGet_set_self _ _ _ _

/-- Only the flash and the free values differ, and of the flash no byte outside the range from `a` to `e`. -/
structure FlashOnly (a e : Nat) (s t : State) : Prop where
  frame : ∃ f c, t = { s with flash := f, freeCtr := c }
  bytes : ∀ b, (b < a ∨ e ≤ b) → t.flashByte b = s.flashByte b

theorem FlashOnly.refl (a e : Nat) (s : State) : FlashOnly a e s s := ⟨⟨s.flash, s.freeCtr, rfl⟩, fun _ _ => rfl⟩

theorem FlashOnly.trans {a e : Nat} {s t u : State} (h : FlashOnly a e s t) (g : FlashOnly a e t u) : FlashOnly a e s u := by
  obtain ⟨f1, c1, h1⟩ := h.frame
  obtain ⟨f2, c2, h2⟩ := g.frame
  refine ⟨⟨f2, c2, ?_⟩, fun b hb => (g.bytes b hb).trans (h.bytes b hb)⟩
  rw [h1] at h2
  exact h2

theorem FlashOnly.setFlash {a e : Nat} (t : State) (b : Nat) (v : Byte) (h1 : a ≤ b) (h2 : b < e) : FlashOnly a e t (t.setFlash b v) :=
  ⟨⟨_, t.freeCtr, rfl⟩, fun c hc => State.flashByte_set_ne t v (by omega)⟩

theorem State.programByte_spec (t : State) (a e : Nat) (v : Byte) (he : a < e) :
    FlashOnly a e t (t.programByte a v) ∧ (∀ b, b ≠ a → (t.programByte a v).flashByte b = t.flashByte b) ∧ (t.flashByte a = 0xFF → (t.programByte a v).flashByte a = v) := by
  by_cases h : t.flashByte a = 0xFF#8
  · have hp : t.programByte a v = t.setFlash a v := if_pos h
    rw [hp]
    exact ⟨.setFlash t a v (Nat.le_refl a) he, fun b hb => State.flashByte_set_ne t v hb, fun _ => State.flashByte_set_self t a v⟩
  · have hp : t.programByte a v = t.draw.2.setFlash a (t.draw.1.extractLsb' 0 8) := if_neg h
    rw [hp]
    have hd : FlashOnly a e t t.draw.2 := ⟨⟨t.flash, _, rfl⟩, fun _ _ => rfl⟩
    exact ⟨.trans hd (.setFlash t.draw.2 a _ (Nat.le_refl a) he), fun b hb => State.flashByte_set_ne t.draw.2 _ hb, fun h' => absurd h' h⟩

theorem FlashOnly.mono {a e a' e' : Nat} {s t : State} (h : FlashOnly a e s t) (h1 : a' ≤ a) (h2 : e ≤ e') : FlashOnly a' e' s t :=
  ⟨h.frame, fun b hb => h.bytes b (by omega)⟩

/-- Bytes programmed one after another: an erased one takes its value. -/
theorem State.programBytes_from (a : Nat) (bs : List Byte) (n : Nat) (t : State) :
    let u := (bs.zipIdx n).foldl (fun (t : State) e => t.programByte (a + e.2) e.1) t
    FlashOnly (a + n) (a + n + bs.length) t u ∧ ∀ i, i < bs.length → t.flashByte (a + n + i) = 0xFF → u.flashByte (a + n + i) = nthD bs i 0 := by
  induction bs generalizing n t with
  | nil => exact ⟨.refl _ _ _, fun i h => absurd h (Nat.not_lt_zero i)⟩
  | cons v bs ih =>
    obtain ⟨h1, h2, h3⟩ := t.programByte_spec (a + n) (a + n + 1) v (by omega)
    obtain ⟨hf, hall⟩ := ih (n + 1) (t.programByte (a + n) v)
    rw [List.length_cons]
    refine ⟨.trans (h1.mono (by omega) (by omega)) (hf.mono (by omega) (by omega)), fun i hi he => ?_⟩
    cases i with
    | zero => exact (hf.bytes _ (by omega)).trans (h3 he)
    | succ i =>
      have hn : a + (n + 1) + i = a + n + (i + 1) := by omega
      have h := hall i (by omega)
      rw [hn, h2 _ (by omega)] at h
      exact h he

theorem State.flashPut_spec (bs : List Byte) (a : Nat) (t : State) : FlashOnly a (a + bs.length) t (t.flashPut a bs) := by
  induction bs generalizing a t with
  | nil => exact .refl _ _ _
  | cons v bs ih =>
    rw [List.length_cons]
    exact .trans (.setFlash t a v (Nat.le_refl a) (by omega)) ((ih (a + 1) (t.setFlash a v)).mono (by omega) (by omega))

theorem State.drawMany_spec (n : Nat) (t : State) : (t.drawMany n).1.length = n ∧ ∃ c, (t.drawMany n).2 = { t with freeCtr := c } := by
  induction n generalizing t with
  | zero => exact ⟨rfl, t.freeCtr, rfl⟩
  | succ n ih =>
    obtain ⟨h1, c, h2⟩ := ih t.draw.2
    exact ⟨congrArg Nat.succ h1, c, h2⟩

theorem State.flashErase_byte (t : State) (a n b : Nat) : (t.flashErase a n).flashByte b = if a ≤ b ∧ b < a + n then 0xFF else t.flashByte b := by
  have h : (t.flashErase a n).flashByte b = (mapFind (t.flash.filter fun e => decide (e.1 < a) || decide (a + n ≤ e.1)) b).getD 0xFF#8 := rfl
  rw [h, mapFind_filter (fun k => decide (k < a) || decide (a + n ≤ k))]
  by_cases hb : a ≤ b ∧ b < a + n
  · rw [if_pos hb, if_neg (by simp; omega)]
    rfl
  · rw [if_neg hb, if_pos (by simp; omega)]
    rfl

/-! ## Flash commands (R341) -/

/-- The bytes that a command covers: a sector for an erase, else a page. -/
def flashLen (k : Nat) : Nat := if k = 3 then 65536 else 256

theorem flashAddrOk_iff (k a : Nat) : flashAddrOk k a = false ↔ a % flashLen k ≠ 0 ∨ flashSize ≤ a ∨ (k ≠ 1 ∧ logBase < a + flashLen k) := by
  rw [← Bool.not_eq_true, flashAddrOk, Bool.and_eq_true, Bool.and_eq_true, Bool.or_eq_true, decide_eq_true_eq, decide_eq_true_eq, decide_eq_true_eq, decide_eq_true_eq]
  show ¬ ((a % flashLen k = 0 ∧ a < flashSize) ∧ (k = 1 ∨ a + flashLen k ≤ logBase)) ↔ _
  omega

theorem State.flashStart_ignored (k : Nat) (h : s.flCmd.isSome = true ∨ s.otpRun.isSome = true ∨ s.rfld regBOOT_FLADDR 0 28 % flashLen k ≠ 0 ∨
    flashSize ≤ s.rfld regBOOT_FLADDR 0 28 ∨ (k ≠ 1 ∧ logBase < s.rfld regBOOT_FLADDR 0 28 + flashLen k)) : s.flashStart k = s.setRbit regBOOT_STATUS 21 := by
  refine if_pos ?_
  rw [Bool.or_eq_true, State.flashBusy_iff, Bool.not_eq_true', flashAddrOk_iff, or_assoc]
  exact h

theorem State.flashStart_taken (k : Nat) (h : ¬ (s.flCmd.isSome = true ∨ s.otpRun.isSome = true ∨ s.rfld regBOOT_FLADDR 0 28 % flashLen k ≠ 0 ∨
    flashSize ≤ s.rfld regBOOT_FLADDR 0 28 ∨ (k ≠ 1 ∧ logBase < s.rfld regBOOT_FLADDR 0 28 + flashLen k))) :
    s.flashStart k = { s.setRbit regBOOT_STATUS 22 with flCmd := some (k, s.rfld regBOOT_FLADDR 0 28) } := by
  refine if_neg ?_
  rw [Bool.or_eq_true, State.flashBusy_iff, Bool.not_eq_true', flashAddrOk_iff, or_assoc]
  exact h

/-- The state in which a command has ended, before it takes effect (R341). -/
def State.flashEnded (s : State) : State := { s.putRbit regBOOT_STATUS 22 false with flCmd := none }

theorem exec_flashCommandComplete_idle (dev : Bool) (h : s.flCmd = none) : exec (.flashCommandComplete dev) s = .next s := by
  refine congrArg Host.Outcome.next ?_
  rw [h]

theorem exec_flashCommandComplete_ended (dev : Bool) (k a : Nat) (h : s.flCmd = some (k, a)) : exec (.flashCommandComplete dev) s =
    .next (if dev || !s.flashOn then (s.flashEnded.setRbit regBOOT_STATUS 21).flashFailed k a else s.flashEnded.flashDone k a) := by
  refine congrArg Host.Outcome.next ?_
  rw [h]
  rfl

/-- What a failed command leaves: no byte outside its range changes, and FLERR and FLBUSY stay (R341). -/
theorem State.flashFailed_spec (t : State) (k a : Nat) (hk : k = 1 ∨ k = 2 ∨ k = 3) : (t.flashFailed k a).flCmd = t.flCmd ∧ (∀ r, (t.flashFailed k a).reg r = t.reg r) ∧
    (k ≠ 1 → ∀ b, (b < a ∨ a + flashLen k ≤ b) → (t.flashFailed k a).flashByte b = t.flashByte b) := by
  obtain ⟨hl, c, hc⟩ := t.drawMany_spec (if k = 3 then 16384 else 64)
  have he : t.flashFailed k a = if k = 1 then (t.drawMany (if k = 3 then 16384 else 64)).2.bufferSet (t.drawMany (if k = 3 then 16384 else 64)).1
      else (t.drawMany (if k = 3 then 16384 else 64)).2.flashPut a (wordsLE (t.drawMany (if k = 3 then 16384 else 64)).1) := rfl
  generalize (t.drawMany (if k = 3 then 16384 else 64)).1 = ws at he hl
  rw [hc] at he
  by_cases h1 : k = 1
  · obtain ⟨⟨b, hb⟩, -, -⟩ := State.bufferSet_from ws 0 { t with freeCtr := c }
    have hb' : ({ t with freeCtr := c } : State).bufferSet ws = { ({ t with freeCtr := c } : State) with tab := b } := hb
    rw [he, if_pos h1, hb']
    exact ⟨rfl, fun _ => rfl, fun hn => absurd h1 hn⟩
  · have hf := State.flashPut_spec (wordsLE ws) a { t with freeCtr := c }
    obtain ⟨f, c2, hfr⟩ := hf.frame
    rw [he, if_neg h1]
    refine ⟨by rw [hfr], fun r => by rw [hfr]; rfl, fun _ b hb => hf.bytes b ?_⟩
    have hlen : (wordsLE ws).length = flashLen k := by
      rw [wordsLE_length, hl]
      rcases hk with rfl | rfl | rfl <;> rfl
    rw [hlen]
    exact hb

/-- What a command that ends well does: the buffer, the page or the sector (R341). -/
theorem State.flashDone_spec (t : State) (k a : Nat) (hk : k = 1 ∨ k = 2 ∨ k = 3) : (t.flashDone k a).flCmd = t.flCmd ∧ (∀ r, (t.flashDone k a).reg r = t.reg r) ∧
    (∀ b, (k = 1 ∨ b < a ∨ a + flashLen k ≤ b) → (t.flashDone k a).flashByte b = t.flashByte b) ∧
    (k = 1 → ∀ i, i < 64 → (t.flashDone k a).tabGet (0x01B00000 + 4 * i) = t.flashWord (a + 4 * i)) ∧
    (k = 2 → ∀ i, i < 256 → t.flashByte (a + i) = 0xFF → (t.flashDone k a).flashByte (a + i) = lane (t.tabGet (0x01B00000 + 4 * (i / 4))) (i % 4)) ∧
    (k = 3 → ∀ i, i < 65536 → (t.flashDone k a).flashByte (a + i) = 0xFF) := by
  rcases hk with rfl | rfl | rfl
  · obtain ⟨⟨b, hb⟩, -, hall⟩ := State.bufferSet_from ((List.range 64).map fun i => t.flashWord (a + 4 * i)) 0 t
    have he : t.flashDone 1 a = { t with tab := b } := hb
    refine ⟨by rw [he], fun r => by rw [he]; rfl, fun x _ => by rw [he]; rfl, fun _ i hi => ?_, fun h => absurd h (by decide), fun h => absurd h (by decide)⟩
    have h := hall i (by rw [List.length_map, List.length_range]; exact hi)
    rw [Nat.zero_add, nthD_map_range _ _ _ hi] at h
    exact h
  · have hlen : (wordsLE ((List.range 64).map fun i => t.tabGet (0x01B00000 + 4 * i))).length = 256 := by rw [wordsLE_length, List.length_map, List.length_range]
    obtain ⟨hf, hall⟩ := State.programBytes_from a (wordsLE ((List.range 64).map fun i => t.tabGet (0x01B00000 + 4 * i))) 0 t
    rw [hlen] at hf hall
    obtain ⟨f, c, hfr⟩ := hf.frame
    have he : t.flashDone 2 a = { t with flash := f, freeCtr := c } := hfr
    refine ⟨by rw [he], fun r => by rw [he]; rfl, fun b hb => hf.bytes b (hb.resolve_left (by decide)), fun h => absurd h (by decide),
      fun _ i hi he => (hall i hi he).trans ?_, fun h => absurd h (by decide)⟩
    rw [nthD_wordsLE _ i (by rw [List.length_map, List.length_range]; omega), nthD_map_range _ _ _ (by omega)]
  · have he : t.flashDone 3 a = t.flashErase a 65536 := rfl
    rw [he]
    refine ⟨rfl, fun _ => rfl, fun b hb => ?_, fun h => absurd h (by decide), fun h => absurd h (by decide), fun _ i hi => ?_⟩
    · have hb' := hb.resolve_left (by decide)
      rw [State.flashErase_byte, if_neg fun h => hb'.elim (Nat.not_lt.2 h.1) (Nat.not_le.2 h.2)]
    · rw [State.flashErase_byte, if_pos (by omega)]

/-- Settles O55: the bytes of a page or a sector are written one after another, each by one lemma. -/
theorem fusesAndFlash : Obligations.FusesAndFlash := by
  refine ⟨fun s m v => ⟨exec_otpBurn_refused m v, exec_otpBurn_taken m v, exec_otpBurn_nothing m v, exec_otpBurnComplete_idle, fun k l d h => ?_⟩, fun s m dev k c hc => ?_⟩
  · exact ⟨_, exec_otpBurnComplete_running k l d h, rfl, State.rbit_put_self regBOOT_STATUS 22 false (by decide), rfl, rfl⟩
  · have hk : k = 1 ∨ k = 2 ∨ k = 3 := by
      rcases hc with ⟨h, -⟩ | ⟨h, -⟩ | ⟨h, -⟩ <;> omega
    have hexec : exec c s = .next (s.flashStart k) := by
      rcases hc with ⟨rfl, rfl⟩ | ⟨rfl, rfl⟩ | ⟨rfl, rfl⟩ <;> rfl
    refine ⟨fun h => by rw [hexec, State.flashStart_ignored k h], fun h => by rw [hexec, State.flashStart_taken k h], exec_flashCommandComplete_idle dev, fun a hrun => ?_⟩
    have hbusy : s.flashEnded.rbit regBOOT_STATUS 22 = false := State.rbit_put_self (s := s) regBOOT_STATUS 22 false (by decide)
    by_cases hd : (dev || !s.flashOn) = true
    · obtain ⟨h1, h2, h3⟩ := State.flashFailed_spec (s.flashEnded.setRbit regBOOT_STATUS 21) k a hk
      have hbit (i : Nat) (hi : i < 32) : ((s.flashEnded.setRbit regBOOT_STATUS 21).flashFailed k a).rbit regBOOT_STATUS i = (s.flashEnded.rbit regBOOT_STATUS i || decide (i = 21)) := by
        refine (congrArg (bit · i) (h2 _)).trans ((State.rbit_setRbit s.flashEnded _ _ _ _ hi).trans ?_)
        rw [decide_eq_true rfl, Bool.true_and]
      refine ⟨_, (exec_flashCommandComplete_ended dev k a hrun).trans (congrArg Host.Outcome.next (if_pos hd)), h1, ?_, fun b hb => ⟨fun hdev hon => ?_, fun hn => ?_⟩, fun _ => ?_,
        fun hdev hon => ?_⟩
      · rw [hbit 22 (by decide), hbusy]
        rfl
      · rw [hdev, hon] at hd
        exact absurd hd Bool.false_ne_true
      · exact h3 hn b (hb.resolve_left hn)
      · rw [hbit 21 (by decide), decide_eq_true rfl, Bool.or_true]
      · rw [hdev, hon] at hd
        exact absurd hd Bool.false_ne_true
    · obtain ⟨h1, h2, h3, h4, h5, h6⟩ := State.flashDone_spec s.flashEnded k a hk
      have hok : dev = false ∧ s.flashOn = true := by
        rw [Bool.not_eq_true, Bool.or_eq_false_iff, Bool.not_eq_false'] at hd
        exact hd
      refine ⟨_, (exec_flashCommandComplete_ended dev k a hrun).trans (congrArg Host.Outcome.next (if_neg hd)), h1, (congrArg (bit · 22) (h2 _)).trans hbusy,
        fun b hb => ⟨fun _ _ => h3 b hb, fun _ => h3 b hb⟩, fun h => ?_, fun _ _ => ⟨?_, h4, h5, h6⟩⟩
      · rcases h with h | h
        · exact absurd (hok.1.symm.trans h) Bool.false_ne_true
        · exact absurd (h.symm.trans hok.2) Bool.false_ne_true
      · refine (congrArg (bit · 21) (h2 _)).trans ?_
        exact (State.rbit_putRbit s _ _ _ _ _ (by decide)).trans (if_neg (by omega))

end Sys2Proof.Machine
end

section
/-! Requests of the SPI host port (R335 to R339). -/

namespace Sys2Proof.Machine

-- One theorem after another, so that the compile of the whole text stays within its memory.
set_option Elab.async false

variable {s t u : State}

/-! ## The chip select as a wake source (R308) -/

/-- What a served request needs of the state: the rails, the boot status, and a mode that is the one before or RUN. -/
def HostKept (s t : State) : Prop :=
  t.railsUp = s.railsUp ∧ t.reg regBOOT_STATUS = s.reg regBOOT_STATUS ∧ (t.modeCur = s.modeCur ∨ t.modeCur = 0)

namespace HostKept

theorem refl (s : State) : HostKept s s := ⟨rfl, rfl, .inl rfl⟩

theorem trans (h : HostKept s t) (g : HostKept t u) : HostKept s u := by
  obtain ⟨h1, h2, h3⟩ := h
  obtain ⟨g1, g2, g3⟩ := g
  exact ⟨g1.trans h1, g2.trans h2, g3.elim (fun e => h3.imp e.trans e.trans) .inr⟩

theorem ite {c : Prop} [Decidable c] (h : HostKept s t) (g : HostKept s u) : HostKept s (if c then t else u) := by
  split
  · exact h
  · exact g

/-- A word that is neither the boot status nor the mode. -/
theorem setReg {a : Nat} {v : Word} (h : HostKept s t) (hb : a ≠ regBOOT_STATUS) (hm : a ≠ regGLOBAL_MODE) : HostKept s (t.setReg a v) :=
  h.trans ⟨rfl, State.reg_setReg_ne t v hb.symm, .inl (congrArg (fld · 4 2) (State.reg_setReg_ne t v hm.symm))⟩

/-- A field of the mode word beside the mode in force. -/
theorem modeFld {lo len v : Nat} (h : HostKept s t) (hl : lo + len ≤ 32) (hd : lo + len ≤ 4 ∨ 6 ≤ lo) : HostKept s (t.setRfld regGLOBAL_MODE lo len v) :=
  h.trans ⟨rfl, State.reg_setReg_ne t _ (by decide), .inl (State.rfld_setRfld_ne t _ _ _ _ _ _ _ hl (.inr hd))⟩

/-- The mode in force becomes RUN. -/
theorem modeRun (h : HostKept s t) : HostKept s (t.setRfld regGLOBAL_MODE 4 2 0) :=
  h.trans ⟨rfl, State.reg_setReg_ne t _ (by decide), .inr (State.rfld_setRfld_self t _ _ _ _ (by decide))⟩

theorem modeRefused (h : HostKept s t) : HostKept s (t.setRbit regGLOBAL_MODE 8) :=
  h.trans ⟨rfl, State.reg_setReg_ne t _ (by decide), .inl (State.rfld_setRbit t _ _ _ _ _ (.inr (.inr (by decide))))⟩

theorem raiseEvent {e : Nat} {pl : Word} (he : e < 128) (h : HostKept s t) : HostKept s (t.raiseEvent e pl) :=
  h.trans ⟨by rw [State.raiseEvent_frame], State.raiseEvent_reg_block t e pl _ he (by decide),
    .inl (State.raiseEvent_rfld_block t e pl _ _ _ he (by decide))⟩

theorem wakeCause {b : Nat} {more : Bool} (h : HostKept s t) : HostKept s (t.wakeCause b more) := setReg h (by decide) (by decide)

theorem modeStep {m : Option Nat} (h : HostKept s t) : HostKept s { t with modeStep := m } := h

theorem modeQueued {m : Option Nat} (h : HostKept s t) : HostKept s { t with modeQueued := m } := h

theorem wakePend {b : Bool} (h : HostKept s t) : HostKept s { t with wakePend := b } := h

theorem sup {x : Service} (h : HostKept s t) : HostKept s { t with sup := x } := h

theorem sleepExit (h : HostKept s t) : HostKept s t.sleepExit :=
  sup (raiseEvent (by decide) (modeRun (modeFld h (by decide) (.inl (by decide)))))

theorem modeAct {r : Nat} (h : HostKept s t) : HostKept s (t.modeAct r) := by
  have low {v : State} {x : Nat} (hv : HostKept s v) : HostKept s (v.setRfld regGLOBAL_MODE 0 2 x) := modeFld hv (by decide) (.inl (by decide))
  exact ite (low (modeRefused h)) (ite (low h) (ite (sleepExit (low h)) (modeStep (low h))))

theorem modeDone (h : HostKept s t) : HostKept s t.modeDone := by
  unfold State.modeDone
  split
  · exact h
  · exact modeAct (modeQueued h)

end HostKept

/-- Out of DEEP a wake keeps what a served request needs. -/
theorem HostKept.wakeBy (src : WakeSrc) (h : s.modeCur ≠ 2) : HostKept s (s.wakeBy src) := by
  unfold State.wakeBy
  refine .ite (.refl s) ?_
  dsimp only
  split
  · exact .ite (.wakePend (.wakeCause (.refl s)))
      (.modeDone (.raiseEvent (by decide) (.modeFld (.wakeCause (.modeStep (.refl s))) (by decide) (.inl (by decide)))))
  · refine .ite (.sleepExit (.wakeCause (.refl s))) ?_
    rw [if_neg h]
    exact .ite (.wakeCause (.refl s)) (.refl s)

/-! ## Served, alive -/

theorem State.spiAlive_iff : s.spiAlive = true ↔ s.railsUp = true ∧ s.modeCur ≠ 2 := by rw [State.spiAlive, Bool.and_eq_true, decide_eq_true_eq]

theorem HostKept.alive (h : HostKept s t) (ha : s.spiAlive = true) : t.spiAlive = true := by
  obtain ⟨hr, hm⟩ := State.spiAlive_iff.1 ha
  obtain ⟨h1, -, h3⟩ := h
  refine State.spiAlive_iff.2 ⟨h1.trans hr, ?_⟩
  rcases h3 with e | e <;> rw [e]
  · exact hm
  · decide

theorem HostKept.served (h : HostKept s t) (ha : s.spiAlive = true) : t.spiServed = s.spiServed := by
  have hb : t.bootStage = s.bootStage := congrArg (fld · 28 4) h.2.1
  rw [State.spiServed, State.spiServed, h.alive ha, ha, hb]

theorem State.spiServed_alive (h : s.spiServed = true) : s.spiAlive = true := by
  rw [State.spiServed, Bool.and_eq_true, Bool.and_eq_true] at h
  exact h.1.1

theorem State.spiSelect_dark (h : s.railsUp = false) : s.spiSelect = s := by
  rw [State.spiSelect, h]
  rfl

theorem State.spiSelect_powered (h : s.railsUp = true) : s.spiSelect = s.wakeBy .spi := if_pos h

theorem State.spiSelect_kept (ha : s.spiAlive = true) : HostKept s s.spiSelect := by
  obtain ⟨hr, hm⟩ := State.spiAlive_iff.1 ha
  rw [State.spiSelect_powered hr]
  exact .wakeBy .spi hm

/-- The response of a module that answers. -/
def State.answering (s : State) (code : Nat) (fields : List Byte) : State := { s with spiResp := spiFrame code fields }

theorem State.respond_alive (h : s.spiAlive = true) (code : Nat) (fields : List Byte) : s.respond code fields = s.answering code fields := if_pos h

theorem State.selected_respond (h : s.spiAlive = true) (code : Nat) (fields : List Byte) :
    s.spiSelect.respond code fields = s.spiSelect.answering code fields := State.respond_alive ((State.spiSelect_kept h).alive h) code fields

/-! ## What every request but STATUS meets first (R337, R338) -/

theorem State.spiRequest_dead (ok : Bool) (f : State → State) (h : s.spiAlive = false) : s.spiRequest ok f = s.spiSelect := by
  refine if_pos ?_
  rw [h]
  rfl

theorem State.spiRequest_crc (f : State → State) (h : s.spiAlive = true) : s.spiRequest false f = s.spiSelect.answering 2 [] := by
  refine (if_neg ?_).trans ((if_pos rfl).trans (State.selected_respond h 2 []))
  rw [h]
  exact Bool.false_ne_true

theorem State.spiRequest_busy (f : State → State) (h : s.spiAlive = true) (hv : s.spiServed = false) :
    s.spiRequest true f = s.spiSelect.answering 3 [] := by
  refine (if_neg ?_).trans ((if_neg Bool.false_ne_true).trans ((if_pos ?_).trans (State.selected_respond h 3 [])))
  · rw [h]
    exact Bool.false_ne_true
  · rw [(State.spiSelect_kept h).served h, hv]
    rfl

theorem State.spiRequest_served (f : State → State) (hv : s.spiServed = true) : s.spiRequest true f = f s.spiSelect := by
  have h := State.spiServed_alive hv
  refine (if_neg ?_).trans ((if_neg Bool.false_ne_true).trans (if_neg ?_))
  · rw [h]
    exact Bool.false_ne_true
  · rw [(State.spiSelect_kept h).served h, hv]
    exact Bool.false_ne_true

/-- A command that is a request of the port: whatever its work, dead, damaged and early ones answer alike. -/
theorem exec_spiRequest {c : Instr} {ok : Bool} {f : State → State} (hc : exec c s = .next (s.spiRequest ok f)) :
    (s.spiAlive = false → exec c s = .next s.spiSelect) ∧
    (s.spiAlive = true → ok = false → exec c s = .next (s.spiSelect.answering 2 [])) ∧
    (s.spiAlive = true → ok = true → s.spiServed = false → exec c s = .next (s.spiSelect.answering 3 [])) := by
  rw [hc]
  refine ⟨fun h => congrArg _ (State.spiRequest_dead ok f h), ?_, ?_⟩
  · rintro h rfl
    exact congrArg _ (State.spiRequest_crc f h)
  · rintro h rfl hv
    exact congrArg _ (State.spiRequest_busy f h hv)

theorem exec_spiRequests (a v : Word) (ws : List Word) (count len : BitVec 16) (msg : List Byte) (ok : Bool) (c : Instr)
    (h : c = .spiRead a count ok ∨ c = .spiWrite a ws count ok ∨ c = .delronSend len msg ok ∨ c = .delronRecv ok ∨ c = .doorbell v ok) :
    ∃ f, exec c s = .next (s.spiRequest ok f) := by
  rcases h with rfl | rfl | rfl | rfl | rfl <;> exact ⟨_, rfl⟩

/-! ## STATUS and abandoned transactions -/

theorem State.respond_regValue (h : s.spiAlive = true) :
    (s.regValue regBOOT_STATUS).2.respond 0 (bytesBE (s.regValue regBOOT_STATUS).1) =
      (s.regValue regBOOT_STATUS).2.answering 0 (bytesBE (s.regValue regBOOT_STATUS).1) := by
  refine State.respond_alive ?_ _ _
  have e : (s.regValue regBOOT_STATUS).2 = s ∨ (s.regValue regBOOT_STATUS).2 = s.draw.2 := by
    unfold State.regValue
    rw [if_neg fun g => absurd g.1 (by decide), if_neg fun g => absurd g.1 (by decide), if_neg fun g => absurd g.1 (by decide)]
    dsimp only
    split
    · exact .inl rfl
    · exact .inr rfl
  rcases e with e | e <;> rw [e]
  · exact h
  · exact h

theorem exec_spiStatus_damaged (h : s.spiAlive = true) : exec (.spiStatus none) s = .next (s.spiSelect.answering 2 []) :=
  congrArg Host.Outcome.next ((if_pos h).trans (State.selected_respond h 2 []))

theorem exec_spiStatus_dead (h : s.spiAlive = false) : exec (.spiStatus none) s = .next s.spiSelect :=
  congrArg Host.Outcome.next (if_neg (h ▸ Bool.false_ne_true))

theorem exec_spiStatus_other (cmd : Byte) (h1 : 1 ≤ cmd.toNat) (h6 : cmd.toNat ≤ 6) (h5 : cmd ≠ 5) : exec (.spiStatus (some cmd)) s = .next s :=
  congrArg Host.Outcome.next (if_pos ⟨h5, h1, h6⟩)

/-- A CMD of its own row: STATUS itself, or none of R336. -/
theorem exec_spiStatus_own (cmd : Byte) (hc : cmd = 5 ∨ cmd = 0 ∨ 7 ≤ cmd.toNat) :
    (s.spiAlive = false → exec (.spiStatus (some cmd)) s = .next s.spiSelect) ∧
    (s.spiAlive = true → cmd ≠ 5 → exec (.spiStatus (some cmd)) s = .next (s.spiSelect.answering 4 [])) ∧
    (s.spiAlive = true → cmd = 5 → exec (.spiStatus (some cmd)) s =
      .next ((s.spiSelect.regValue regBOOT_STATUS).2.answering 0 (bytesBE (s.spiSelect.regValue regBOOT_STATUS).1))) := by
  have hn : ¬ (cmd ≠ 5#8 ∧ 1 ≤ cmd.toNat ∧ cmd.toNat ≤ 6) := by
    rintro ⟨g5, g1, g6⟩
    rcases hc with rfl | rfl | h7
    · exact g5 rfl
    · exact absurd g1 (by decide)
    · omega
  refine ⟨fun h => congrArg _ ((if_neg hn).trans (if_pos ?_)), fun h h5 => congrArg _ ((if_neg hn).trans ((if_neg ?_).trans ?_)), fun h h5 =>
    congrArg _ ((if_neg hn).trans ((if_neg ?_).trans ?_))⟩
  · rw [h]
    rfl
  · rw [h]
    exact Bool.false_ne_true
  · exact (if_pos h5).trans (State.selected_respond h 4 [])
  · rw [h]
    exact Bool.false_ne_true
  · exact (if_neg fun g => g h5).trans (State.respond_regValue ((State.spiSelect_kept h).alive h))

theorem exec_spiAbandon_write (a : Word) (ws : List Word) : exec (.spiTransactionAbandon (some (a, ws))) s =
    .next { (if s.spiServed then (s.spiSelect.spiWrites a.toNat ws).1.2 else s.spiSelect) with spiResp := [] } := rfl

/-! ## Words read and written (R336) -/

theorem State.spiReads_length (s : State) (a n : Nat) : (s.spiReads a n).1.1.length = n := by
  induction n generalizing s a with
  | zero => rfl
  | succ n ih => exact congrArg (· + 1) (ih _ _)

theorem State.spiWrites_le (s : State) (a : Nat) (ws : List Word) : (s.spiWrites a ws).1.1 ≤ ws.length := by
  induction ws generalizing s a with
  | nil => exact Nat.le_refl 0
  | cons v vs ih =>
    unfold State.spiWrites
    split
    · refine (Nat.add_le_add ?_ (ih (s.busWrite 10 (a % 2 ^ 32) v).1 (a + 4))).trans (Nat.add_comm 1 vs.length).le
      split <;> decide
    · exact Nat.zero_le _

theorem countOk_iff (count : BitVec 16) : countOk count = true ↔ 1 ≤ count.toNat ∧ count.toNat ≤ 256 := by
  rw [countOk, Bool.and_eq_true, decide_eq_true_eq, decide_eq_true_eq]

theorem not_countOk {count : BitVec 16} (h : ¬ (1 ≤ count.toNat ∧ count.toNat ≤ 256)) : (!countOk count) = true := by
  rw [Bool.not_eq_true', Bool.eq_false_iff]
  exact fun g => h ((countOk_iff count).1 g)

theorem countOk_not {count : BitVec 16} (h : 1 ≤ count.toNat ∧ count.toNat ≤ 256) : (!countOk count) = false := by
  rw [(countOk_iff count).2 h]
  rfl

theorem exec_spiRead_range (a : Word) (count : BitVec 16) (hv : s.spiServed = true) (h : ¬ (1 ≤ count.toNat ∧ count.toNat ≤ 256)) :
    exec (.spiRead a count true) s = .next (s.spiSelect.answering 6 []) :=
  congrArg Host.Outcome.next ((State.spiRequest_served _ hv).trans ((if_pos (not_countOk h)).trans (State.selected_respond (State.spiServed_alive hv) 6 [])))

theorem exec_spiRead_counted (a : Word) (count : BitVec 16) (hv : s.spiServed = true) (h : 1 ≤ count.toNat ∧ count.toNat ≤ 256) :
    ∃ vs w code, s.spiSelect.spiReads a.toNat count.toNat = ((vs, w), code) ∧ vs.length = count.toNat ∧
      exec (.spiRead a count true) s = .next (w.respond code (if code = 5 then [] else vs.flatMap bytesBE)) :=
  ⟨_, _, _, rfl, State.spiReads_length _ _ _, congrArg Host.Outcome.next ((State.spiRequest_served _ hv).trans
    (if_neg (by rw [countOk_not h]; exact Bool.false_ne_true)))⟩

theorem exec_spiWrite_range (a : Word) (ws : List Word) (count : BitVec 16) (hv : s.spiServed = true)
    (h : ¬ (1 ≤ count.toNat ∧ count.toNat ≤ 256) ∨ ws.length ≠ count.toNat) :
    exec (.spiWrite a ws count true) s = .next (s.spiSelect.answering 6 []) := by
  refine congrArg Host.Outcome.next ((State.spiRequest_served _ hv).trans ((if_pos ?_).trans (State.selected_respond (State.spiServed_alive hv) 6 [])))
  rw [Bool.or_eq_true, decide_eq_true_eq]
  exact h.imp_left not_countOk

theorem exec_spiWrite_counted (a : Word) (ws : List Word) (count : BitVec 16) (hv : s.spiServed = true)
    (h : 1 ≤ count.toNat ∧ count.toNat ≤ 256) (hl : ws.length = count.toNat) :
    ∃ n w code, s.spiSelect.spiWrites a.toNat ws = ((n, w), code) ∧ n ≤ count.toNat ∧
      exec (.spiWrite a ws count true) s = .next (w.respond code (if code = 5 then [] else beBytes 2 n)) := by
  refine ⟨_, _, _, rfl, (State.spiWrites_le _ _ _).trans hl.le, congrArg Host.Outcome.next ((State.spiRequest_served _ hv).trans (if_neg ?_))⟩
  rw [countOk_not h, decide_eq_false fun g => g hl]
  exact Bool.false_ne_true

/-! ## Messages and slots (R339) -/

/-- The bytes that fill the last word of a packed message. -/
def packPad (msg : List Byte) : List Byte := List.replicate ((4 - msg.length % 4) % 4) 0#8

theorem bytesBE_pack (a b c d : Byte) : bytesBE (a ++ b ++ c ++ d) = [a, b, c, d] := by
  unfold bytesBE bytesLE
  simp only [List.reverse_cons, List.reverse_nil, List.nil_append, List.cons_append, List.cons.injEq, and_true]
  refine ⟨?_, ?_, ?_, ?_⟩ <;>
    · ext i hi
      simp
      grind

theorem packTail_two (a b : Byte) : a ++ b ++ 0#16 = a ++ b ++ 0#8 ++ 0#8 := by
  refine BitVec.eq_of_getLsbD_eq fun i hi => ?_
  simp only [BitVec.getLsbD_append, BitVec.getLsbD_zero]
  grind

theorem packTail_one (a : Byte) : a ++ 0#24 = a ++ 0#8 ++ 0#8 ++ 0#8 := by
  refine BitVec.eq_of_getLsbD_eq fun i hi => ?_
  simp only [BitVec.getLsbD_append, BitVec.getLsbD_zero]
  grind

theorem packBE_bytes (msg : List Byte) : (packBE msg).flatMap bytesBE = msg ++ packPad msg ∧ (packBE msg).length = (msg.length + 3) / 4 := by
  induction msg using packBE.induct with
  | case1 a b c d t ih =>
    obtain ⟨h1, h2⟩ := ih
    refine ⟨?_, ?_⟩
    · have hp : packPad (a :: b :: c :: d :: t) = packPad t := by
        simp only [packPad, List.length_cons]
        congr 1
        omega
      rw [packBE, List.flatMap_cons, bytesBE_pack, h1, hp]
      rfl
    · rw [packBE, List.length_cons, h2]
      simp only [List.length_cons]
      omega
  | case2 a b c => exact ⟨(List.append_nil _).trans (bytesBE_pack a b c 0), by simp [packBE]⟩
  | case3 a b => exact ⟨(List.append_nil _).trans ((congrArg bytesBE (packTail_two a b)).trans (bytesBE_pack a b 0 0)), by simp [packBE]⟩
  | case4 a => exact ⟨(List.append_nil _).trans ((congrArg bytesBE (packTail_one a)).trans (bytesBE_pack a 0 0 0)), by simp [packBE]⟩
  | case5 => exact ⟨rfl, by simp [packBE]⟩

/-- Words written one after another from an address. -/
theorem tabSet_words (ws : List Word) (base k : Nat) (s : State) :
    ((ws.zipIdx k).foldl (fun (t : State) e => t.tabSet (base + 4 * e.2) e.1) s).regs = s.regs ∧
    (∀ b, b < base + 4 * k → ((ws.zipIdx k).foldl (fun (t : State) e => t.tabSet (base + 4 * e.2) e.1) s).tabGet b = s.tabGet b) ∧
    (∀ i (h : i < ws.length), ((ws.zipIdx k).foldl (fun (t : State) e => t.tabSet (base + 4 * e.2) e.1) s).tabGet (base + 4 * (k + i)) = ws[i]) := by
  induction ws generalizing k s with
  | nil => exact ⟨rfl, fun _ _ => rfl, fun i h => nomatch h⟩
  | cons w ws ih =>
    obtain ⟨h1, h2, h3⟩ := ih (k + 1) (s.tabSet (base + 4 * k) w)
    refine ⟨h1, fun b hb => (h2 b (by omega)).trans (State.tabGet_tabSet_ne _ _ (by omega)), fun i h => ?_⟩
    cases i with
    | zero => exact (h2 _ (by omega)).trans (State.tabGet_tabSet_self _ _ _)
    | succ i =>
      have e := h3 i (Nat.lt_of_succ_lt_succ h)
      rwa [Nat.add_assoc, Nat.add_comm 1 i] at e

theorem State.writeSlot_regs (base : Nat) (msg : List Byte) : (s.writeSlot base msg).regs = s.regs := (tabSet_words (packBE msg) (base + 4) 0 s).1

theorem State.writeSlot_railsUp (base : Nat) (msg : List Byte) : (s.writeSlot base msg).railsUp = s.railsUp := by
  unfold State.writeSlot
  generalize (packBE msg).zipIdx = l
  refine Eq.trans (rfl : _ = (l.foldl (fun (t : State) e => t.tabSet (base + 4 + 4 * e.2) e.1) s).railsUp) ?_
  induction l generalizing s with
  | nil => rfl
  | cons e l ih => exact ih (s := s.tabSet (base + 4 + 4 * e.2) e.1)

theorem State.writeSlot_len (base : Nat) (msg : List Byte) : (s.writeSlot base msg).tabGet base = BitVec.ofNat 32 msg.length :=
  State.tabGet_tabSet_self _ _ _

theorem State.writeSlot_word (base : Nat) (msg : List Byte) (i : Nat) (h : i < (packBE msg).length) :
    (s.writeSlot base msg).tabGet (base + 4 + 4 * i) = (packBE msg)[i] := by
  have e := (tabSet_words (packBE msg) (base + 4) 0 s).2.2 i h
  rw [Nat.zero_add] at e
  exact (State.tabGet_tabSet_ne _ _ (by omega)).trans e

/-- A message of a slot reads as written (R339). -/
theorem State.slotBytes_writeSlot (base : Nat) (msg : List Byte) (h : msg.length ≤ 1532) : (s.writeSlot base msg).slotBytes base = msg := by
  obtain ⟨hb, hl⟩ := packBE_bytes msg
  have hn : Nat.min 1532 (BitVec.ofNat 32 msg.length).toNat = msg.length := by
    rw [BitVec.toNat_ofNat, Nat.mod_eq_of_lt (by omega)]
    exact Nat.min_eq_right h
  have hw : (List.range ((msg.length + 3) / 4)).map (fun i => (s.writeSlot base msg).tabGet (base + 4 + 4 * i)) = packBE msg := by
    refine List.ext_getElem (by rw [List.length_map, List.length_range, hl]) fun i h1 h2 => ?_
    rw [List.getElem_map, List.getElem_range]
    exact State.writeSlot_word base msg i h2
  have hf : (List.range ((msg.length + 3) / 4)).flatMap (fun i => bytesBE ((s.writeSlot base msg).tabGet (base + 4 + 4 * i))) = msg ++ packPad msg := by
    rw [← hb, ← hw, List.flatMap_map]
  unfold State.slotBytes
  rw [State.writeSlot_len, hn]
  exact (congrArg (List.take msg.length) hf).trans (List.take_left' rfl)

/-- The full-slot test and the boot stage of the port are read off registers and rails. -/
theorem State.spiAlive_congr (hr : t.regs = s.regs) (hu : t.railsUp = s.railsUp) : t.spiAlive = s.spiAlive := by
  have hm : t.modeCur = s.modeCur := by
    rw [State.modeCur, State.rfld, State.reg, hr]
    rfl
  rw [State.spiAlive, State.spiAlive, hu, hm]

theorem State.writeSlot_alive (base : Nat) (msg : List Byte) : (s.writeSlot base msg).spiAlive = s.spiAlive :=
  State.spiAlive_congr (State.writeSlot_regs base msg) (State.writeSlot_railsUp base msg)

theorem State.raiseEvent_alive (e : Nat) (pl : Word) (he : e < 128) (h : s.spiAlive = true) : (s.raiseEvent e pl).spiAlive = true :=
  (HostKept.raiseEvent he (.refl s)).alive h

theorem State.fillSlots_alive (n : Nat) : (s.fillSlots n).spiAlive = s.spiAlive := by
  induction n generalizing s with
  | zero => rfl
  | succ n ih =>
    unfold State.fillSlots
    split
    · rfl
    · split
      · exact ih.trans (State.writeSlot_alive _ _)
      · rfl

theorem State.fillSlots_idle (n : Nat) (h : s.outWait = []) : s.fillSlots n = s := by
  cases n with
  | zero => rfl
  | succ n =>
    unfold State.fillSlots
    rw [h]

theorem exec_doorbell_served (v : Word) (hv : s.spiServed = true) : exec (.doorbell v true) s = .next ((s.spiSelect.raiseEvent 89 v).answering 0 []) :=
  congrArg Host.Outcome.next ((State.spiRequest_served _ hv).trans
    (State.respond_alive (State.raiseEvent_alive _ _ (by decide) ((State.spiSelect_kept (State.spiServed_alive hv)).alive (State.spiServed_alive hv))) _ _))

theorem exec_delronSend_busy (len : BitVec 16) (msg : List Byte) (hv : s.spiServed = true) (hf : s.spiSelect.tabGet inSlot ≠ 0) :
    exec (.delronSend len msg true) s = .next (s.spiSelect.answering 3 []) :=
  congrArg Host.Outcome.next ((State.spiRequest_served _ hv).trans ((if_pos hf).trans (State.selected_respond (State.spiServed_alive hv) 3 [])))

theorem exec_delronSend_length (len : BitVec 16) (msg : List Byte) (hv : s.spiServed = true) (hf : s.spiSelect.tabGet inSlot = 0)
    (hl : len.toNat < 20 ∨ 1420 < len.toNat ∨ msg.length ≠ len.toNat) :
    exec (.delronSend len msg true) s = .next (s.spiSelect.answering 6 []) :=
  congrArg Host.Outcome.next ((State.spiRequest_served _ hv).trans
    ((if_neg fun g => g hf).trans ((if_pos hl).trans (State.selected_respond (State.spiServed_alive hv) 6 []))))

/-- A message that finds room is in the inbound slot, with EV88. -/
theorem exec_delronSend_taken (len : BitVec 16) (msg : List Byte) (hv : s.spiServed = true) (hf : s.spiSelect.tabGet inSlot = 0)
    (h1 : 20 ≤ len.toNat) (h2 : len.toNat ≤ 1420) (hl : msg.length = len.toNat) :
    ∃ t, exec (.delronSend len msg true) s = .next t ∧ t.tabGet inSlot = BitVec.ofNat 32 len.toNat ∧ t.slotBytes inSlot = msg ∧
      t.reg (regEVT_PAYLOAD 88) = BitVec.ofNat 32 len.toNat ∧ t.rbit (regEVT_PEND 2) 24 = true ∧ t.spiResp = spiFrame 0 [] := by
  have ha := (State.spiSelect_kept (State.spiServed_alive hv)).alive (State.spiServed_alive hv)
  have hw := (State.writeSlot_alive (s := s.spiSelect) inSlot msg).trans ha
  have hx : exec (.delronSend len msg true) s = .next (((s.spiSelect.writeSlot inSlot msg).raiseEvent 88 (BitVec.ofNat 32 len.toNat)).answering 0 []) :=
    congrArg Host.Outcome.next ((State.spiRequest_served _ hv).trans ((if_neg fun g => g hf).trans
      ((if_neg (by omega)).trans (State.respond_alive (State.raiseEvent_alive _ _ (by decide) hw) 0 []))))
  generalize hu : s.spiSelect = u at hx
  have ht : ((u.writeSlot inSlot msg).raiseEvent 88 (BitVec.ofNat 32 len.toNat)).tab = (u.writeSlot inSlot msg).tab := State.raiseEvent_tab _ _ _
  have hs : ∀ {v w : State}, v.tab = w.tab → v.slotBytes inSlot = w.slotBytes inSlot := fun {v w} e => by
    unfold State.slotBytes State.tabGet
    rw [e]
  refine ⟨_, hx, ?_, ?_, State.raiseEvent_payload _ _ _ (by decide), State.raiseEvent_pend_self _ _ _ (by decide), rfl⟩
  · refine (congrArg (fun m => mapGet tabDefault m inSlot) ht).trans ((State.writeSlot_len inSlot msg).trans ?_)
    rw [hl]
  · exact (hs ht).trans (State.slotBytes_writeSlot inSlot msg (by omega))

theorem exec_delronRecv_none (hv : s.spiServed = true) (h : s.spiSelect.outOldest = none) : exec (.delronRecv true) s = .next (s.spiSelect.answering 0 [0, 0]) := by
  refine congrArg Host.Outcome.next ((State.spiRequest_served _ hv).trans ?_)
  rw [h]
  exact State.selected_respond (State.spiServed_alive hv) 0 [0, 0]

theorem exec_delronRecv_some {k : Nat} (hv : s.spiServed = true) (h : s.spiSelect.outOldest = some k) :
    ∃ t, exec (.delronRecv true) s = .next t ∧
      t.spiResp = spiFrame 0 (beBytes 2 (s.spiSelect.slotBytes (outSlot k)).length ++ s.spiSelect.slotBytes (outSlot k)) ∧
      (s.spiSelect.outWait = [] → t.tabGet (outSlot k) = 0) := by
  have ha := (State.spiSelect_kept (State.spiServed_alive hv)).alive (State.spiServed_alive hv)
  have hx : exec (.delronRecv true) s = .next (((s.spiSelect.tabSet (outSlot k) 0).fillSlots 16).answering 0
      (beBytes 2 (s.spiSelect.slotBytes (outSlot k)).length ++ s.spiSelect.slotBytes (outSlot k))) := by
    refine congrArg Host.Outcome.next ((State.spiRequest_served _ hv).trans ?_)
    rw [h]
    exact State.respond_alive ((State.fillSlots_alive (s := s.spiSelect.tabSet (outSlot k) 0) 16).trans ha) _ _
  refine ⟨_, hx, rfl, fun hw => ?_⟩
  exact (congrArg (fun v : State => v.tabGet (outSlot k)) (State.fillSlots_idle (s := s.spiSelect.tabSet (outSlot k) 0) 16 hw)).trans
    (State.tabGet_tabSet_self _ _ _)

/-! ## The oldest full outbound slot (R339) -/

theorem State.outOldest_none : s.outOldest = none ↔ ∀ k, k < 4 → s.tabGet (outSlot k) = 0 := by
  have hmod : ∀ k, outSlot (k % 4) = outSlot k := fun k => by rw [outSlot, outSlot, Nat.mod_mod]
  rw [State.outOldest, List.find?_eq_none]
  refine ⟨fun h k hk => ?_, fun h x _ => ?_⟩
  · have hx : s.outFill + (k + 4 - s.outFill % 4) % 4 ∈ (List.range 4).map (s.outFill + ·) :=
      List.mem_map.2 ⟨_, List.mem_range.2 (Nat.mod_lt _ (by decide)), rfl⟩
    have e := h _ hx
    rw [decide_eq_true_eq, not_not] at e
    rw [← hmod] at e
    have hk' : (s.outFill + (k + 4 - s.outFill % 4) % 4) % 4 = k := by omega
    rwa [hk'] at e
  · rw [decide_eq_true_eq, not_not, ← hmod]
    exact h _ (Nat.mod_lt _ (by decide))

theorem State.outOldest_some {k : Nat} (h : s.outOldest = some k) :
    s.outFill ≤ k ∧ k < s.outFill + 4 ∧ s.tabGet (outSlot k) ≠ 0 ∧ ∀ i, s.outFill ≤ i → i < k → s.tabGet (outSlot i) = 0 := by
  rw [State.outOldest, List.find?_map, Option.map_eq_some_iff] at h
  obtain ⟨i, hf, rfl⟩ := h
  obtain ⟨hp, hm, hlt⟩ := List.find?_range_eq_some.1 hf
  rw [List.mem_range] at hm
  refine ⟨Nat.le_add_right _ _, Nat.add_lt_add_left hm _, of_decide_eq_true hp, fun j h1 h2 => ?_⟩
  have e := hlt (j - s.outFill) (by omega)
  simp only [Function.comp_apply, Nat.add_sub_cancel' h1, Bool.not_eq_true', decide_eq_false_iff_not, not_not] at e
  exact e

/-- Settles O56, clause by clause. -/
theorem hostRequests : Obligations.HostRequests := by
  unfold Obligations.HostRequests
  intro s a v ws count len msg ok u answer counted
  refine ⟨State.spiSelect_dark, State.spiSelect_powered, fun c hc => ?_, exec_spiStatus_dead, exec_spiStatus_damaged,
    fun cmd => ⟨exec_spiStatus_other cmd, exec_spiStatus_own cmd⟩, rfl, fun hv => ?_, fun hv => ?_, ?_, State.outOldest_none,
    fun k => State.outOldest_some, fun n => ⟨rfl, rfl⟩⟩
  · obtain ⟨f, hf⟩ := exec_spiRequests (s := s) a v ws count len msg ok c hc
    exact exec_spiRequest hf
  · rw [exec_spiAbandon_write, if_pos hv]
  · rw [exec_spiAbandon_write, if_neg (hv ▸ Bool.false_ne_true)]
  · rintro hv rfl
    exact ⟨exec_spiRead_range a count hv, exec_spiRead_counted a count hv, exec_spiWrite_range a ws count hv, exec_spiWrite_counted a ws count hv,
      exec_doorbell_served v hv, exec_delronSend_busy len msg hv, exec_delronSend_length len msg hv, exec_delronSend_taken len msg hv,
      exec_delronRecv_none hv, fun k => exec_delronRecv_some hv⟩

end Sys2Proof.Machine
end

section
/-! Module resets (R333, R334, R343, R395) and the test access port (R332, R396). -/

namespace Sys2Proof.Machine

-- One theorem after another, so that the compile of the whole text stays within its memory.
set_option Elab.async false

variable {s t u : State}

/-! ## The state of a module reset -/

theorem State.reset_reg (a : Nat) : State.reset.reg a = regReset a := rfl

/-- The state of a module reset with a register file: what the reset keeps, beside the reset values. -/
def State.cold (s : State) (r : List (Nat × Word)) : State :=
  { State.reset with
    regs := r, flash := s.flash, fuseKey := s.fuseKey, fuseLock := s.fuseLock, railsUp := s.railsUp, testPort := s.testPort, freeCtr := s.freeCtr,
    pending := s.pending }

/-- Key words written one after another to BOOT.KEYHASH. -/
theorem keyHash_fold (ks : List Word) (k : Nat) (t : State) :
    ∃ r, (ks.zipIdx k).foldl (fun (t : State) e => t.setReg (regBOOT_KEYHASH e.2) e.1) t = { t with regs := r } ∧
      (∀ a, (∀ i, i < ks.length → a ≠ regBOOT_KEYHASH (k + i)) → mapGet regReset r a = t.reg a) ∧
      (∀ i w, ks[i]? = some w → mapGet regReset r (regBOOT_KEYHASH (k + i)) = w) := by
  induction ks generalizing k t with
  | nil => exact ⟨t.regs, rfl, fun a _ => rfl, fun i w h => nomatch h⟩
  | cons x ks ih =>
    obtain ⟨r, e, h1, h2⟩ := ih (k + 1) (t.setReg (regBOOT_KEYHASH k) x)
    have inj : ∀ i j, regBOOT_KEYHASH i = regBOOT_KEYHASH j → i = j := fun i j g => by
      unfold regBOOT_KEYHASH at g
      omega
    refine ⟨r, e, fun a ha => ?_, fun i w hw => ?_⟩
    · refine (h1 a fun i hi => ?_).trans (State.reg_setReg_ne t x (ha 0 (Nat.succ_pos _)))
      rw [Nat.add_assoc, Nat.add_comm 1 i]
      exact ha (i + 1) (Nat.succ_lt_succ hi)
    · cases i with
      | zero =>
        obtain rfl : x = w := Option.some.inj hw
        exact (h1 _ fun i _ g => by have := inj _ _ g; omega).trans (State.reg_setReg_self t _ _)
      | succ i =>
        have g := h2 i w hw
        rwa [Nat.add_assoc, Nat.add_comm 1 i] at g

/-- The registers of the supply and the strap. -/
def supplyRegs (p q : Word) : List (Nat × Word) :=
  mapSet regReset (mapSet regReset [] regPWR_STATUS (p &&& 0x880003FF#32)) regPAIR_STATUS (q &&& 0x20000000#32)

theorem State.liveRegs_eq (s : State) : s.liveRegs = if bit (s.reg regPWR_STATUS) 31 then
      mapSet regReset (supplyRegs (s.reg regPWR_STATUS) (s.reg regPAIR_STATUS)) (regFAULT_CAUSE 1)
        (mapGet regReset (supplyRegs (s.reg regPWR_STATUS) (s.reg regPAIR_STATUS)) (regFAULT_CAUSE 1) ||| oneHot 14)
    else supplyRegs (s.reg regPWR_STATUS) (s.reg regPAIR_STATUS) := by
  unfold State.liveRegs
  dsimp only
  split <;> rfl

theorem supplyRegs_rest (p q : Word) (a : Nat) (h1 : a ≠ regPWR_STATUS) (h2 : a ≠ regPAIR_STATUS) : mapGet regReset (supplyRegs p q) a = regReset a :=
  (mapGet_set_ne _ _ _ h2).trans (mapGet_set_ne _ _ _ h1)

/-- Beside the live cause of a brown-out the registers are those of the supply and the strap. -/
theorem State.liveRegs_ne (s : State) (a : Nat) (h : a ≠ regFAULT_CAUSE 1) :
    mapGet regReset s.liveRegs a = mapGet regReset (supplyRegs (s.reg regPWR_STATUS) (s.reg regPAIR_STATUS)) a := by
  rw [State.liveRegs_eq]
  split
  · exact mapGet_set_ne _ _ _ h
  · rfl

theorem liveRegs_pwr : mapGet regReset s.liveRegs regPWR_STATUS = s.reg regPWR_STATUS &&& 0x880003FF#32 :=
  (s.liveRegs_ne _ (by decide)).trans ((mapGet_set_ne _ _ _ (by decide)).trans (mapGet_set_self _ _ _ _))

theorem liveRegs_pair : mapGet regReset s.liveRegs regPAIR_STATUS = s.reg regPAIR_STATUS &&& 0x20000000#32 :=
  (s.liveRegs_ne _ (by decide)).trans (mapGet_set_self _ _ _ _)

theorem liveRegs_fault : bit (mapGet regReset s.liveRegs (regFAULT_CAUSE 1)) 14 = s.rbit regPWR_STATUS 31 := by
  rw [State.liveRegs_eq, State.rbit]
  have h0 : bit (regReset (regFAULT_CAUSE 1)) 14 = false := by decide
  have hr := supplyRegs_rest (s.reg regPWR_STATUS) (s.reg regPAIR_STATUS) (regFAULT_CAUSE 1) (by decide) (by decide)
  split
  case isTrue h => rw [mapGet_set_self, bit_or, bit_oneHot _ _ (by decide), h, decide_eq_true rfl, Bool.or_true]
  case isFalse h => rw [hr, h0, Bool.eq_false_iff.2 h]

theorem liveRegs_rest (a : Nat) (h1 : a ≠ regPWR_STATUS) (h2 : a ≠ regPAIR_STATUS) (h3 : a ≠ regFAULT_CAUSE 1) :
    mapGet regReset s.liveRegs a = regReset a := (s.liveRegs_ne a h3).trans (supplyRegs_rest _ _ a h1 h2)

/-- The register file of a module reset with a cause. -/
structure ResetRegs (s : State) (cause : Word) (r : List (Nat × Word)) : Prop where
  cause : mapGet regReset r regGLOBAL_RSTCAUSE = cause
  power : mapGet regReset r regPWR_STATUS = s.reg regPWR_STATUS &&& 0x880003FF#32
  pair : mapGet regReset r regPAIR_STATUS = s.reg regPAIR_STATUS &&& 0x20000000#32
  fault : bit (mapGet regReset r (regFAULT_CAUSE 1)) 14 = s.rbit regPWR_STATUS 31
  keys : ∀ i w, s.fuseKey[i]? = some w → mapGet regReset r (regBOOT_KEYHASH i) = w
  rest : ∀ a, a ≠ regGLOBAL_RSTCAUSE → a ≠ regPWR_STATUS → a ≠ regPAIR_STATUS → a ≠ regFAULT_CAUSE 1 →
    (∀ i, i < s.fuseKey.length → a ≠ regBOOT_KEYHASH i) → mapGet regReset r a = regReset a

/-- What a module reset leaves (R334). -/
theorem State.moduleReset_spec (s : State) (c : Word) : ∃ r, s.moduleReset c = s.cold r ∧ ResetRegs s c r := by
  obtain ⟨r, e, h1, h2⟩ := keyHash_fold s.fuseKey 0 (s.cold s.liveRegs)
  have low : ∀ a, a < 0x150020 → mapGet regReset r a = mapGet regReset s.liveRegs a := fun a ha => h1 a fun i _ => by
    rw [regBOOT_KEYHASH]
    omega
  refine ⟨mapSet regReset r regGLOBAL_RSTCAUSE c, congrArg (fun t => t.setReg regGLOBAL_RSTCAUSE c) e, ?_⟩
  have skip : ∀ a, a ≠ regGLOBAL_RSTCAUSE → mapGet regReset (mapSet regReset r regGLOBAL_RSTCAUSE c) a = mapGet regReset r a :=
    fun a ha => mapGet_set_ne _ _ _ ha
  refine ⟨mapGet_set_self _ _ _ _, ?_, ?_, ?_, fun i w hw => ?_, fun a g0 g1 g2 g3 g4 => ?_⟩
  · exact (skip _ (by decide)).trans ((low _ (by decide)).trans liveRegs_pwr)
  · exact (skip _ (by decide)).trans ((low _ (by decide)).trans liveRegs_pair)
  · rw [skip _ (by decide), low _ (by decide)]
    exact liveRegs_fault
  · have g := h2 i w hw
    rw [Nat.zero_add] at g
    exact (skip _ (by rw [regBOOT_KEYHASH, regGLOBAL_RSTCAUSE]; omega)).trans g
  · refine (skip a g0).trans ((h1 a fun i hi => ?_).trans (liveRegs_rest a g1 g2 g3))
    rw [Nat.zero_add]
    exact g4 i hi

/-- The registers in which a module reset may show something else than their reset values. -/
def resetShown : List Nat := regPWR_STATUS :: regPAIR_STATUS :: regFAULT_CAUSE 1 :: regGLOBAL_RSTCAUSE :: (List.range 8).map regBOOT_KEYHASH

theorem ResetRegs.unshown {c : Word} {r : List (Nat × Word)} (h : ResetRegs s c r) (hl : s.fuseKey.length = 8) {a : Nat} (ha : a ∉ resetShown) :
    mapGet regReset r a = regReset a := by
  rw [resetShown, List.mem_cons, List.mem_cons, List.mem_cons, List.mem_cons, not_or, not_or, not_or, not_or] at ha
  obtain ⟨a1, a2, a3, a4, a5⟩ := ha
  refine h.rest a a4 a1 a2 a3 fun i hi e => a5 (List.mem_map.2 ⟨i, List.mem_range.2 (hl ▸ hi), e.symm⟩)

/-- A state that is one of a module reset of `s` (R334). -/
def AtReset (s t : State) : Prop :=
  t = { State.reset with
    regs := t.regs, flash := s.flash, fuseKey := s.fuseKey, fuseLock := s.fuseLock, railsUp := t.railsUp, testPort := t.testPort, freeCtr := s.freeCtr,
    pending := s.pending } ∧
  (∀ a, a ∉ resetShown → t.reg a = State.reset.reg a) ∧ (∀ i w, i < 8 → s.fuseKey[i]? = some w → t.reg (regBOOT_KEYHASH i) = w)

/-- A module reset while the supply stays. -/
def WarmReset (s t : State) : Prop :=
  AtReset s t ∧ t.railsUp = s.railsUp ∧ t.testPort = s.testPort ∧ t.reg regPWR_STATUS = s.reg regPWR_STATUS &&& 0x880003FF#32 ∧
    t.reg regPAIR_STATUS = s.reg regPAIR_STATUS &&& 0x20000000#32 ∧ t.rbit (regFAULT_CAUSE 1) 14 = s.rbit regPWR_STATUS 31

theorem ResetRegs.atReset {c : Word} {r : List (Nat × Word)} (h : ResetRegs s c r) (hl : s.fuseKey.length = 8) : AtReset s (s.cold r) :=
  ⟨rfl, fun _ ha => h.unshown hl ha, fun i w _ hw => h.keys i w hw⟩

theorem State.moduleReset_warm (s : State) (c : Word) (hl : s.fuseKey.length = 8) :
    WarmReset s (s.moduleReset c) ∧ (s.moduleReset c).reg regGLOBAL_RSTCAUSE = c ∧ (s.moduleReset c).rstOut = false := by
  obtain ⟨r, e, h⟩ := s.moduleReset_spec c
  rw [e]
  exact ⟨⟨h.atReset hl, rfl, rfl, h.power, h.pair, h.fault⟩, h.cause, rfl⟩

theorem exec_globalReset_keyed (m : Master) (v : Word) (hk : fld v 16 16 = 0xB01A) (hs : bit v 0 = true) :
    exec (.globalResetWrite m v) s = .next (s.moduleReset 4) := congrArg Host.Outcome.next (if_pos ⟨hk, hs⟩)

theorem exec_globalReset_other (m : Master) (v : Word) (h : fld v 16 16 ≠ 0xB01A ∨ bit v 0 = false) : exec (.globalResetWrite m v) s = .next s := by
  refine congrArg Host.Outcome.next (if_neg ?_)
  rintro ⟨h1, h2⟩
  rcases h with h | h
  · exact h h1
  · exact absurd (h.symm.trans h2) Bool.false_ne_true

theorem exec_powerGood_up (bulk : BitVec 10) (dc : Bool) (h : s.railsUp = true) : exec (.powerGood bulk dc) s = .next s :=
  congrArg Host.Outcome.next (if_pos h)

/-- Power-status word of the supply at power good. -/
def powerWord (bulk : BitVec 10) (dc : Bool) : Word := BitVec.ofNat 32 (b2n dc * 2 ^ 27 + bulk.toNat)

theorem powerWord_toNat (bulk : BitVec 10) (dc : Bool) : (powerWord bulk dc).toNat = b2n dc * 2 ^ 27 + bulk.toNat := by
  have hb := bulk.isLt
  have hd : b2n dc ≤ 1 := by cases dc <;> decide
  rw [powerWord, BitVec.toNat_ofNat, Nat.mod_eq_of_lt (by omega)]

/-- The reset keeps the input and the bulk voltage of the word, which holds no brown-out. -/
theorem powerWord_masked (bulk : BitVec 10) (dc : Bool) :
    fld (powerWord bulk dc &&& 0x880003FF#32) 0 10 = bulk.toNat ∧ bit (powerWord bulk dc &&& 0x880003FF#32) 27 = dc ∧ bit (powerWord bulk dc) 31 = false := by
  have hb := bulk.isLt
  have hw := powerWord_toNat bulk dc
  refine ⟨?_, ?_, ?_⟩
  · have hm : (b2n dc * 2 ^ 27 + bulk.toNat) % 2 ^ 10 = bulk.toNat := by omega
    rw [fld, BitVec.toNat_and, hw, Nat.pow_zero, Nat.div_one, Nat.and_mod_two_pow, hm]
    exact (Nat.and_two_pow_sub_one_eq_mod bulk.toNat 10).trans (Nat.mod_eq_of_lt hb)
  · rw [bit_and, bit, BitVec.getLsbD, hw]
    cases dc with
    | false => exact congrArg (· && true) (Nat.testBit_lt_two_pow (by rw [b2n]; simp; omega))
    | true =>
      have e : (b2n true * 2 ^ 27 + bulk.toNat).testBit 27 = true := by
        rw [Nat.testBit_eq_decide_div_mod_eq]
        refine decide_eq_true ?_
        show (1 * 2 ^ 27 + bulk.toNat) / 2 ^ 27 % 2 = 1
        omega
      exact congrArg (· && true) e
  · rw [bit, BitVec.getLsbD, hw]
    have hd : b2n dc ≤ 1 := by cases dc <;> decide
    exact Nat.testBit_lt_two_pow (by omega)

/-- A module reset with a change of the supply, which `w` describes: the rails are then `up`. -/
def State.coldReset (s : State) (w c : Word) (up : Bool) : State :=
  { (s.setReg regPWR_STATUS w).moduleReset c with railsUp := up, testPort := TestPort.reset }

theorem State.coldReset_spec (s : State) (w c : Word) (up : Bool) (hl : s.fuseKey.length = 8) :
    AtReset s (s.coldReset w c up) ∧ (s.coldReset w c up).railsUp = up ∧ (s.coldReset w c up).testPort = TestPort.reset ∧ (s.coldReset w c up).dram = [] ∧
      (s.coldReset w c up).reg regGLOBAL_RSTCAUSE = c ∧ (s.coldReset w c up).reg regPWR_STATUS = w &&& 0x880003FF#32 ∧
      (s.coldReset w c up).rbit (regFAULT_CAUSE 1) 14 = bit w 31 := by
  obtain ⟨r, e, hr⟩ := (s.setReg regPWR_STATUS w).moduleReset_spec c
  have hp := hr.power
  have hf := hr.fault
  rw [State.reg_setReg_self] at hp
  rw [State.rbit, State.reg_setReg_self] at hf
  rw [State.coldReset, e]
  exact ⟨⟨rfl, fun a ha => hr.unshown hl ha, fun i w _ hw => hr.keys i w hw⟩, rfl, rfl, rfl, hr.cause, hp, hf⟩

theorem exec_powerGood_eq (bulk : BitVec 10) (dc : Bool) (h : s.railsUp = false) :
    exec (.powerGood bulk dc) s = .next (s.coldReset (powerWord bulk dc) 1 true) :=
  congrArg Host.Outcome.next (if_neg (h ▸ Bool.false_ne_true))

theorem exec_powerGood_down (bulk : BitVec 10) (dc : Bool) (hl : s.fuseKey.length = 8) (h : s.railsUp = false) :
    ∃ t, exec (.powerGood bulk dc) s = .next t ∧ AtReset s t ∧ t.railsUp = true ∧ t.testPort = TestPort.reset ∧ t.reg regGLOBAL_RSTCAUSE = 1 ∧
      t.rfld regPWR_STATUS 0 10 = bulk.toNat ∧ t.rbit regPWR_STATUS 27 = dc ∧ t.rbit (regFAULT_CAUSE 1) 14 = false := by
  obtain ⟨h1, h2, h3, -, h5, h6, h7⟩ := s.coldReset_spec (powerWord bulk dc) 1 true hl
  obtain ⟨m1, m2, m3⟩ := powerWord_masked bulk dc
  exact ⟨_, exec_powerGood_eq bulk dc h, h1, h2, h3, h5, (congrArg (fld · 0 10) h6).trans m1, (congrArg (bit · 27) h6).trans m2, h7.trans m3⟩

theorem exec_railsFall_spec (hl : s.fuseKey.length = 8) :
    ∃ t, exec .railsFall s = .next t ∧ AtReset s t ∧ t.railsUp = false ∧ t.testPort = TestPort.reset ∧ t.dram = [] ∧ t.reg regPWR_STATUS = 0 ∧
      t.rbit (regFAULT_CAUSE 1) 14 = false := by
  obtain ⟨h1, h2, h3, h4, -, h6, h7⟩ := s.coldReset_spec 0 0 false hl
  exact ⟨s.coldReset 0 0 false, rfl, h1, h2, h3, h4, h6.trans BitVec.zero_and, h7⟩

theorem exec_rstOutRise_released (hr : s.railsUp = true) (hs : s.supState ≠ 0) : exec .rstOutRise s = .next { s with rstOut := true } := by
  refine congrArg Host.Outcome.next (if_pos ?_)
  rw [hr, Bool.true_and]
  exact decide_eq_true hs

theorem exec_rstOutRise_held (h : s.railsUp = false ∨ s.supState = 0) : exec .rstOutRise s = .next s := by
  refine congrArg Host.Outcome.next (if_neg ?_)
  rw [Bool.and_eq_true]
  rintro ⟨h1, h2⟩
  rcases h with h | h
  · exact absurd (h.symm.trans h1) Bool.false_ne_true
  · exact of_decide_eq_true h2 h

/-! ## The test access port (R332, R396) -/

theorem State.tapEdge_held (trst tms tdi : Bool) (pins : List Bool) (h : trst = false ∨ s.railsUp = false ∨ s.rbit regBOOT_STATUS 25 = true) :
    s.tapEdge trst tms tdi pins = { s with testPort := TestPort.reset } := by
  have hh : s.tapHeld trst = true := by
    rw [State.tapHeld, State.tapLocked, State.debugLock]
    rcases h with h | h | h <;> rw [h]
    · rfl
    · exact Bool.or_true _
    · rw [Bool.true_or, Bool.or_true, Bool.true_or]
  rw [State.tapEdge, if_pos hh]

theorem State.tdo_dark (h : s.railsUp = false ∨ s.rbit regBOOT_STATUS 25 = true) : s.tdo = none := by
  refine if_pos ?_
  rw [State.tapLocked, State.debugLock]
  rcases h with h | h <;> rw [h]
  · exact Bool.or_true _
  · rfl

/-- Out of reset the port steps by its own edges, whatever they are. -/
theorem State.tapEdges_free (ms : List Bool) (tdi : Bool) (pins : List Bool) (hl : s.tapLocked = false) (hr : s.railsUp = true) :
    ms.foldl (fun (u : State) tms => u.tapEdge true tms tdi pins) s =
      { s with testPort := ms.foldl (fun (p : TestPort) tms => p.edge tms tdi pins) s.testPort } := by
  induction ms generalizing s with
  | nil => rfl
  | cons m ms ih =>
    have hh : s.tapHeld true = false := by
      rw [State.tapHeld, hl, hr]
      rfl
    have e : s.tapEdge true m tdi pins = { s with testPort := s.testPort.edge m tdi pins } := by
      rw [State.tapEdge, hh]
      rfl
    rw [List.foldl_cons, e]
    exact ih hl hr

theorem TestPort.edge_state (p : TestPort) (tms tdi : Bool) (pins : List Bool) : (p.edge tms tdi pins).state = p.state.next tms := by
  unfold TestPort.edge
  dsimp only
  split
  case isTrue h => exact h.symm
  case isFalse h => rfl

theorem TapState.five_ones (t : TapState) : ((((t.next true).next true).next true).next true).next true = .testLogicReset := by
  cases t <;> rfl

/-- Five edges with TMS at 1 reset the port, from every state. -/
theorem TestPort.five_ones (p : TestPort) (tdi : Bool) (pins : List Bool) :
    [true, true, true, true, true].foldl (fun (p : TestPort) tms => p.edge tms tdi pins) p = TestPort.reset := by
  simp only [List.foldl_cons, List.foldl_nil]
  generalize h : ((((p.edge true tdi pins).edge true tdi pins).edge true tdi pins).edge true tdi pins) = q
  have hq : q.state.next true = .testLogicReset := by
    rw [← h, TestPort.edge_state, TestPort.edge_state, TestPort.edge_state, TestPort.edge_state]
    exact TapState.five_ones p.state
  unfold TestPort.edge
  exact if_pos hq

/-- The port while a data register with the given bits shifts. -/
def shiftingPort (w : List Bool) : TestPort := { state := .shiftDr, sel := .idcode, scan := w, drive := [] }

theorem TestPort.to_shift (tdi : Bool) (pins : List Bool) :
    [false, true, false, false].foldl (fun (p : TestPort) tms => p.edge tms tdi pins) TestPort.reset = shiftingPort (bitsLow 32 tapIdcode) := rfl

theorem shiftingPort_edge (w : List Bool) (tdi : Bool) (pins : List Bool) : (shiftingPort w).edge false tdi pins = shiftingPort (w.drop 1 ++ [tdi]) := rfl

/-- After `k` shifts the bit at TDO is bit `k` of what was loaded. -/
theorem shifted_head (k : Nat) (tdi : Bool) (pins : List Bool) (w : List Bool) (h : k < w.length) :
    ∃ v, (List.replicate k false).foldl (fun (p : TestPort) tms => p.edge tms tdi pins) (shiftingPort w) = shiftingPort v ∧ v.headD false = w[k] := by
  induction k generalizing w with
  | zero =>
    refine ⟨w, rfl, ?_⟩
    cases w with
    | nil => exact nomatch h
    | cons b w => rfl
  | succ k ih =>
    have hl : (w.drop 1 ++ [tdi]).length = w.length := by
      rw [List.length_append, List.length_drop, List.length_singleton]
      omega
    obtain ⟨v, e, hv⟩ := ih (w.drop 1 ++ [tdi]) (by omega)
    refine ⟨v, ?_, ?_⟩
    · rw [List.replicate_succ, List.foldl_cons, shiftingPort_edge]
      exact e
    · rw [hv, List.getElem_append_left (by rw [List.length_drop]; omega), List.getElem_drop]
      exact getElem_congr rfl (Nat.add_comm 1 k) _

theorem State.tdo_shifting (w : List Bool) (hl : s.tapLocked = false) (hr : s.railsUp = true) :
    ({ s with testPort := shiftingPort w } : State).tdo = some (w.headD false) := by
  refine (if_neg ?_).trans (if_pos (.inl rfl))
  have hl' : ({ s with testPort := shiftingPort w } : State).tapLocked = false := hl
  have hr' : ({ s with testPort := shiftingPort w } : State).railsUp = true := hr
  rw [hl', hr']
  exact Bool.false_ne_true

/-- From reset the port shifts IDCODE out, bit 0 first (R396). -/
theorem State.tdo_idcode (tdi : Bool) (pins : List Bool) (hl : s.tapLocked = false) (hr : s.railsUp = true) (hp : s.testPort = TestPort.reset)
    (k : Nat) (hk : k < 32) :
    (([false, true, false, false] ++ List.replicate k false).foldl (fun (u : State) tms => u.tapEdge true tms tdi pins) s).tdo =
      some ((0x1B09A0C1 : Nat).testBit k) := by
  have hw : k < (bitsLow 32 tapIdcode).length := by
    rw [bitsLow, List.length_map, List.length_range]
    exact hk
  obtain ⟨v, e, hv⟩ := shifted_head k tdi pins (bitsLow 32 tapIdcode) hw
  rw [State.tapEdges_free _ _ _ hl hr, hp, List.foldl_append, TestPort.to_shift, e, State.tdo_shifting v hl hr, hv]
  simp only [bitsLow, List.getElem_map, List.getElem_range]
  rfl

/-- Settles O50, clause by clause. -/
theorem moduleResets : Obligations.ModuleResets := by
  unfold Obligations.ModuleResets
  intro s m v bulk dc hl shown atReset warm
  refine ⟨fun hk hs => ⟨_, exec_globalReset_keyed m v hk hs, ?_⟩, exec_globalReset_other m v, ⟨_, rfl, ?_⟩, exec_powerGood_down bulk dc hl,
    exec_powerGood_up bulk dc, exec_railsFall_spec hl, exec_rstOutRise_released, exec_rstOutRise_held,
    fun trst tms tdi pins h => ⟨State.tapEdge_held trst tms tdi pins h, State.tdo_dark⟩, fun h1 h2 tdi pins => ⟨?_, fun hp k => State.tdo_idcode tdi pins h1 h2 hp k⟩⟩
  · obtain ⟨hw, hc, -⟩ := s.moduleReset_warm 4 hl
    exact ⟨hw, hc⟩
  · exact s.moduleReset_warm 2 hl
  · exact (congrArg State.testPort (State.tapEdges_free _ tdi pins h1 h2)).trans (TestPort.five_ones _ tdi pins)

end Sys2Proof.Machine
end

section
/-! Power modes: requests, entries and wakes (R305 to R308, R314). -/

namespace Sys2Proof.Machine

-- One theorem after another, so that the compile of the whole text stays within its memory.
set_option Elab.async false

variable {s t u : State}

/-! ## The mode word -/

theorem State.modeSet_cur (m : Nat) (h : m < 4) : (s.modeSet m).modeCur = m := by
  refine (State.raiseEvent_rfld_block _ _ _ _ _ _ (by decide) (by decide)).trans ((State.rfld_setRfld_self _ _ _ _ _ (by decide)).trans ?_)
  exact Nat.mod_eq_of_lt h

theorem State.modeSet_rfld (m lo len : Nat) (h : lo + len ≤ 4 ∨ 6 ≤ lo) : (s.modeSet m).rfld regGLOBAL_MODE lo len = s.rfld regGLOBAL_MODE lo len :=
  (State.raiseEvent_rfld_block _ _ _ _ _ _ (by decide) (by decide)).trans (State.rfld_setRfld_ne _ _ _ _ _ _ _ _ (by decide) (.inr (by omega)))

theorem State.modeSet_rbit (m i : Nat) (h : 6 ≤ i) : (s.modeSet m).rbit regGLOBAL_MODE i = s.rbit regGLOBAL_MODE i :=
  (State.raiseEvent_rbit_block _ _ _ _ _ (by decide) (by decide)).trans ((State.rbit_setRfld _ _ _ _ _ _ _ (by decide)).trans (if_neg (by omega)))

theorem State.modeSet_event (m : Nat) : (s.modeSet m).reg (regEVT_PAYLOAD 82) = BitVec.ofNat 32 m ∧ (s.modeSet m).rbit (regEVT_PEND 2) 18 = true :=
  ⟨State.raiseEvent_payload _ _ _ (by decide), State.raiseEvent_pend_self _ _ _ (by decide)⟩

/-- A change of mode takes registers, tokens and sequence counters alone. -/
theorem State.modeSet_frame (m : Nat) :
    s.modeSet m = { s with regs := (s.modeSet m).regs, tokens := (s.modeSet m).tokens, seq := (s.modeSet m).seq } :=
  State.raiseEvent_frame _ _ _

theorem State.modeSet_reg (m a : Nat) (h : a / 0x10000 ≠ 4) (hm : a ≠ regGLOBAL_MODE) : (s.modeSet m).reg a = s.reg a :=
  (State.raiseEvent_reg_block _ _ _ _ (by decide) h).trans (State.reg_setReg_ne _ _ hm)

/-- The request field of the mode word. -/
def State.modeReq (s : State) (r : Nat) : State := s.setRfld regGLOBAL_MODE 0 2 r

theorem State.modeReq_req (r : Nat) (h : r < 4) : (s.modeReq r).rfld regGLOBAL_MODE 0 2 = r :=
  (State.rfld_setRfld_self _ _ _ _ _ (by decide)).trans (Nat.mod_eq_of_lt h)

theorem State.modeReq_cur (r : Nat) : (s.modeReq r).modeCur = s.modeCur := State.rfld_setRfld_ne _ _ _ _ _ _ _ _ (by decide) (.inr (.inl (by decide)))

theorem State.modeReq_rbit (r i : Nat) (h : 2 ≤ i) : (s.modeReq r).rbit regGLOBAL_MODE i = s.rbit regGLOBAL_MODE i :=
  (State.rbit_setRfld _ _ _ _ _ _ _ (by decide)).trans (if_neg (by omega))

theorem State.modeReq_reg (r a : Nat) (h : a ≠ regGLOBAL_MODE) : (s.modeReq r).reg a = s.reg a := State.reg_setReg_ne _ _ h

theorem State.sleepExit_eq : s.sleepExit = { (s.modeReq 0).modeSet 0 with sup := { s.sup with exitDue := true } } := rfl

/-- What the exit from SLEEP shows (R306). -/
theorem State.sleepExit_spec (s : State) : s.sleepExit.modeCur = 0 ∧ s.sleepExit.rfld regGLOBAL_MODE 0 2 = 0 ∧ s.sleepExit.sup.exitDue = true ∧
    s.sleepExit.reg (regEVT_PAYLOAD 82) = 0 ∧ s.sleepExit.rbit (regEVT_PEND 2) 18 = true := by
  rw [State.sleepExit_eq]
  obtain ⟨h1, h2⟩ := (s.modeReq 0).modeSet_event 0
  exact ⟨State.modeSet_cur 0 (by decide), (State.modeSet_rfld 0 0 2 (.inl (by decide))).trans (State.modeReq_req 0 (by decide)), rfl, h1, h2⟩

theorem State.sleepExit_rbit (i : Nat) (h : 6 ≤ i) : s.sleepExit.rbit regGLOBAL_MODE i = s.rbit regGLOBAL_MODE i :=
  (State.modeSet_rbit 0 i h).trans (State.modeReq_rbit 0 i (by omega))

theorem State.sleepExit_reg (a : Nat) (h : a / 0x10000 ≠ 4) (hm : a ≠ regGLOBAL_MODE) : s.sleepExit.reg a = s.reg a :=
  (State.modeSet_reg 0 a h hm).trans (State.modeReq_reg 0 a hm)

theorem State.sleepExit_steps : s.sleepExit.modeStep = s.modeStep ∧ s.sleepExit.modeQueued = s.modeQueued ∧ s.sleepExit.wakePend = s.wakePend := by
  rw [State.sleepExit_eq, State.modeSet_frame]
  exact ⟨rfl, rfl, rfl⟩

/-! ## Requests of GLOBAL.MODE -/

theorem State.modeAct_refused {r : Nat} (h : r = 3 ∨ (r ≠ s.modeCur ∧ s.rbit regPAIR_STATUS 30 = true)) :
    s.modeAct r = (s.setRbit regGLOBAL_MODE 8).modeReq s.modeCur := if_pos h

theorem State.modeAct_open {r : Nat} (h3 : r ≠ 3) (h : r = s.modeCur ∨ s.rbit regPAIR_STATUS 30 = false) :
    s.modeAct r = if r = s.modeCur then s.modeReq r else if r = 0 then (s.modeReq r).sleepExit else { s.modeReq r with modeStep := some r } := by
  refine if_neg ?_
  rintro (g | ⟨g1, g2⟩)
  · exact h3 g
  · rcases h with h | h
    · exact g1 h
    · exact Bool.false_ne_true (h.symm.trans g2)

/-- A write of GLOBAL.MODE beside its request: REFUSED and MAINT (R314). -/
def State.modeMaint (s : State) (v : Word) : State :=
  let s1 := if bit v 8 then s.putRbit regGLOBAL_MODE 8 false else s
  if bit v 16 && s1.rbit regPAIR_STATUS 30 then s1.setRbit regGLOBAL_MODE 8 else s1.putRbit regGLOBAL_MODE 16 (bit v 16)

theorem State.modeWrite_eq (v : Word) (h : s.modeCur ≠ 2) : s.modeWrite v =
    if (s.modeMaint v).modeStep.isSome then { (s.modeMaint v).modeReq (fld v 0 2) with modeQueued := some (fld v 0 2) } else (s.modeMaint v).modeAct (fld v 0 2) :=
  if_neg h

/-- The state with REFUSED cleared where a 1 is written. -/
def State.modeAcked (s : State) (v : Word) : State := if bit v 8 then s.putRbit regGLOBAL_MODE 8 false else s

theorem State.modeAcked_spec (v : Word) : ∃ r, s.modeAcked v = { s with regs := r } ∧ (∀ a, a ≠ regGLOBAL_MODE → mapGet regReset r a = s.reg a) ∧
    fld (mapGet regReset r regGLOBAL_MODE) 4 2 = s.modeCur ∧ bit (mapGet regReset r regGLOBAL_MODE) 16 = s.rbit regGLOBAL_MODE 16 ∧
    (bit v 8 = true → bit (mapGet regReset r regGLOBAL_MODE) 8 = false) := by
  unfold State.modeAcked
  split
  · exact ⟨_, rfl, fun a ha => State.reg_setReg_ne _ _ ha, State.rfld_putRbit _ _ _ _ _ _ _ (by decide) (.inr (.inr (by decide))),
      (State.rbit_putRbit _ _ _ _ _ _ (by decide)).trans (if_neg (by decide)), fun _ => State.rbit_put_self _ _ _ (by decide)⟩
  case isFalse h => exact ⟨s.regs, rfl, fun _ _ => rfl, rfl, rfl, fun g => absurd g h⟩

/-- MAINT takes the written bit, but is refused while the module holds BATTEN; nothing but the mode word changes (R314). -/
theorem State.modeMaint_spec (v : Word) : ∃ r, s.modeMaint v = { s with regs := r } ∧ (∀ a, a ≠ regGLOBAL_MODE → mapGet regReset r a = s.reg a) ∧
    fld (mapGet regReset r regGLOBAL_MODE) 4 2 = s.modeCur ∧
    ((bit v 16 = false ∨ s.rbit regPAIR_STATUS 30 = false) → bit (mapGet regReset r regGLOBAL_MODE) 16 = bit v 16 ∧
      (bit v 8 = true → bit (mapGet regReset r regGLOBAL_MODE) 8 = false)) ∧
    (bit v 16 = true → s.rbit regPAIR_STATUS 30 = true → bit (mapGet regReset r regGLOBAL_MODE) 16 = s.rbit regGLOBAL_MODE 16 ∧
      bit (mapGet regReset r regGLOBAL_MODE) 8 = true) := by
  obtain ⟨r, e, h1, h2, h3, h4⟩ := s.modeAcked_spec v
  have hb : (s.modeAcked v).rbit regPAIR_STATUS 30 = s.rbit regPAIR_STATUS 30 := by
    rw [e]
    exact congrArg (bit · 30) (h1 _ (by decide))
  have hm : s.modeMaint v = if bit v 16 && (s.modeAcked v).rbit regPAIR_STATUS 30 then (s.modeAcked v).setRbit regGLOBAL_MODE 8
    else (s.modeAcked v).putRbit regGLOBAL_MODE 16 (bit v 16) := rfl
  rw [hm, hb, e]
  generalize hx : ({ s with regs := r } : State) = x
  have hr : ∀ a, x.reg a = mapGet regReset r a := fun a => by
    rw [← hx]
    rfl
  split
  case isTrue h =>
    rw [Bool.and_eq_true] at h
    refine ⟨(x.setRbit regGLOBAL_MODE 8).regs, ?_, fun a ha => (State.reg_setReg_ne _ _ ha).trans ((hr a).trans (h1 a ha)), ?_, fun g => ?_, fun _ _ => ⟨?_, ?_⟩⟩
    · rw [← hx]
      rfl
    · exact (State.rfld_setRbit _ _ _ _ _ _ (.inr (.inr (by decide)))).trans ((congrArg (fld · 4 2) (hr _)).trans h2)
    · rcases g with g | g
      · exact absurd (g.symm.trans h.1) Bool.false_ne_true
      · exact absurd (g.symm.trans h.2) Bool.false_ne_true
    · refine (State.rbit_setRbit _ _ _ _ _ (by decide)).trans ?_
      rw [State.rbit, hr, h3]
      exact Bool.or_false _
    · refine (State.rbit_setRbit _ _ _ _ _ (by decide)).trans ?_
      exact Bool.or_true _
  case isFalse h =>
    rw [Bool.and_eq_true] at h
    refine ⟨(x.putRbit regGLOBAL_MODE 16 (bit v 16)).regs, ?_, fun a ha => (State.reg_setReg_ne _ _ ha).trans ((hr a).trans (h1 a ha)), ?_, fun _ => ⟨?_, fun g => ?_⟩,
      fun g1 g2 => absurd ⟨g1, g2⟩ h⟩
    · rw [← hx]
      rfl
    · exact (State.rfld_putRbit _ _ _ _ _ _ _ (by decide) (.inr (.inr (by decide)))).trans ((congrArg (fld · 4 2) (hr _)).trans h2)
    · exact State.rbit_put_self _ _ _ (by decide)
    · refine ((State.rbit_putRbit _ _ _ _ _ _ (by decide)).trans (if_neg (by decide))).trans ?_
      rw [State.rbit, hr]
      exact h4 g

/-- What a write of GLOBAL.MODE makes of the state before its request is looked at. -/
structure MaintOf (s : State) (v : Word) (m : State) : Prop where
  step : m.modeStep = s.modeStep
  queued : m.modeQueued = s.modeQueued
  cur : m.modeCur = s.modeCur
  batten : m.rbit regPAIR_STATUS 30 = s.rbit regPAIR_STATUS 30
  taken : (bit v 16 = false ∨ s.rbit regPAIR_STATUS 30 = false) → m.rbit regGLOBAL_MODE 16 = bit v 16 ∧ (bit v 8 = true → m.rbit regGLOBAL_MODE 8 = false)
  refused : bit v 16 = true → s.rbit regPAIR_STATUS 30 = true → m.rbit regGLOBAL_MODE 16 = s.rbit regGLOBAL_MODE 16 ∧ m.rbit regGLOBAL_MODE 8 = true

theorem State.modeMaint_of (v : Word) : MaintOf s v (s.modeMaint v) := by
  obtain ⟨r, e, h1, h2, h3, h4⟩ := s.modeMaint_spec v
  rw [e]
  exact ⟨rfl, rfl, h2, congrArg (bit · 30) (h1 _ (by decide)), h3, h4⟩

/-- MAINT and REFUSED stay shown where the rest of the write keeps bit 16, and bit 8 where it is set. -/
theorem MaintOf.shown {v : Word} {m : State} (h : MaintOf s v m) (x : State) (hx : x.rbit regGLOBAL_MODE 16 = m.rbit regGLOBAL_MODE 16)
    (h8 : m.rbit regGLOBAL_MODE 8 = true → x.rbit regGLOBAL_MODE 8 = true) :
    ((bit v 16 = false ∨ s.rbit regPAIR_STATUS 30 = false) → x.rbit regGLOBAL_MODE 16 = bit v 16) ∧
    (bit v 16 = true → s.rbit regPAIR_STATUS 30 = true → x.rbit regGLOBAL_MODE 16 = s.rbit regGLOBAL_MODE 16 ∧ x.rbit regGLOBAL_MODE 8 = true) := by
  rw [hx]
  exact ⟨fun g => (h.taken g).1, fun g1 g2 => ⟨(h.refused g1 g2).1, h8 (h.refused g1 g2).2⟩⟩

theorem State.modeCur_lt : s.modeCur < 4 := Nat.mod_lt _ (by decide)

/-- A request that is refused (R305). -/
theorem State.modeAct_refused_spec {r : Nat} (h : r = 3 ∨ (r ≠ s.modeCur ∧ s.rbit regPAIR_STATUS 30 = true)) :
    (s.modeAct r).modeQueued = s.modeQueued ∧ (s.modeAct r).modeStep = s.modeStep ∧ (s.modeAct r).rbit regGLOBAL_MODE 8 = true ∧
    (s.modeAct r).rbit regGLOBAL_MODE 16 = s.rbit regGLOBAL_MODE 16 ∧ (s.modeAct r).rfld regGLOBAL_MODE 0 2 = s.modeCur ∧ (s.modeAct r).modeCur = s.modeCur := by
  rw [State.modeAct_refused h]
  have hb (i : Nat) (hi : 2 ≤ i) (h32 : i < 32) :
      ((s.setRbit regGLOBAL_MODE 8).modeReq s.modeCur).rbit regGLOBAL_MODE i = (s.rbit regGLOBAL_MODE i || (decide (regGLOBAL_MODE = regGLOBAL_MODE) && decide (i = 8))) :=
    (State.modeReq_rbit _ i hi).trans (State.rbit_setRbit _ _ _ _ _ h32)
  exact ⟨rfl, rfl, (hb 8 (by decide) (by decide)).trans (Bool.or_true _), (hb 16 (by decide) (by decide)).trans (Bool.or_false _),
    State.modeReq_req _ State.modeCur_lt, (State.modeReq_cur _).trans (State.rfld_setRbit _ _ _ _ _ _ (.inr (.inr (by decide))))⟩

/-- A request that is acted on: of the mode in force, of RUN, of another one (R305). -/
theorem State.modeAct_open_spec {r : Nat} (hr : r < 4) (h3 : r ≠ 3) (h : r = s.modeCur ∨ s.rbit regPAIR_STATUS 30 = false) :
    (s.modeAct r).modeQueued = s.modeQueued ∧ (∀ i, 6 ≤ i → (s.modeAct r).rbit regGLOBAL_MODE i = s.rbit regGLOBAL_MODE i) ∧
    (s.modeAct r).rfld regGLOBAL_MODE 0 2 = r ∧
    (r = s.modeCur → (s.modeAct r).modeStep = s.modeStep ∧ (s.modeAct r).modeCur = s.modeCur) ∧
    (r ≠ s.modeCur → r ≠ 0 → (s.modeAct r).modeStep = some r ∧ (s.modeAct r).modeCur = s.modeCur) ∧
    (r ≠ s.modeCur → r = 0 → (s.modeAct r).modeStep = s.modeStep ∧ (s.modeAct r).modeCur = 0 ∧ (s.modeAct r).sup.exitDue = true ∧
      (s.modeAct r).reg (regEVT_PAYLOAD 82) = 0 ∧ (s.modeAct r).rbit (regEVT_PEND 2) 18 = true) := by
  rw [State.modeAct_open h3 h]
  have hb (i : Nat) (hi : 6 ≤ i) : (s.modeReq r).rbit regGLOBAL_MODE i = s.rbit regGLOBAL_MODE i := State.modeReq_rbit r i (by omega)
  by_cases hc : r = s.modeCur
  · rw [if_pos hc]
    exact ⟨rfl, hb, State.modeReq_req r hr, fun _ => ⟨rfl, State.modeReq_cur r⟩, fun g => absurd hc g, fun g => absurd hc g⟩
  · rw [if_neg hc]
    by_cases h0 : r = 0
    · rw [if_pos h0]
      obtain ⟨e1, e2, e3, e4, e5⟩ := (s.modeReq r).sleepExit_spec
      obtain ⟨g1, g2, -⟩ := State.sleepExit_steps (s := s.modeReq r)
      exact ⟨g2, fun i hi => (State.sleepExit_rbit i hi).trans (hb i hi), e2.trans h0.symm, fun g => absurd g hc, fun _ g => absurd h0 g, fun _ _ => ⟨g1, e1, e3, e4, e5⟩⟩
    · rw [if_neg h0]
      exact ⟨rfl, hb, State.modeReq_req r hr, fun g => absurd g hc, fun _ _ => ⟨rfl, State.modeReq_cur r⟩, fun _ g => absurd g h0⟩

/-- What a write of GLOBAL.MODE out of DEEP leaves (R305, R314). -/
def ModeWritten (s : State) (v : Word) (t : State) : Prop :=
  ((bit v 16 = false ∨ s.rbit regPAIR_STATUS 30 = false) → t.rbit regGLOBAL_MODE 16 = bit v 16) ∧
  (bit v 16 = true → s.rbit regPAIR_STATUS 30 = true → t.rbit regGLOBAL_MODE 16 = s.rbit regGLOBAL_MODE 16 ∧ t.rbit regGLOBAL_MODE 8 = true) ∧
  (s.modeStep.isSome = true → t.modeStep = s.modeStep ∧ t.modeQueued = some (fld v 0 2) ∧ t.rfld regGLOBAL_MODE 0 2 = fld v 0 2 ∧ t.modeCur = s.modeCur) ∧
  (s.modeStep = none → t.modeQueued = s.modeQueued ∧
    ((fld v 0 2 = 3 ∨ (fld v 0 2 ≠ s.modeCur ∧ s.rbit regPAIR_STATUS 30 = true)) →
      t.rbit regGLOBAL_MODE 8 = true ∧ t.rfld regGLOBAL_MODE 0 2 = s.modeCur ∧ t.modeCur = s.modeCur ∧ t.modeStep = none) ∧
    (fld v 0 2 ≠ 3 → (fld v 0 2 = s.modeCur ∨ s.rbit regPAIR_STATUS 30 = false) → t.rfld regGLOBAL_MODE 0 2 = fld v 0 2 ∧
      (bit v 8 = true → (bit v 16 = false ∨ s.rbit regPAIR_STATUS 30 = false) → t.rbit regGLOBAL_MODE 8 = false) ∧
      (fld v 0 2 = s.modeCur → t.modeStep = none ∧ t.modeCur = s.modeCur) ∧
      (fld v 0 2 ≠ s.modeCur → fld v 0 2 ≠ 0 → t.modeStep = some (fld v 0 2) ∧ t.modeCur = s.modeCur) ∧
      (fld v 0 2 ≠ s.modeCur → fld v 0 2 = 0 → t.modeStep = none ∧ t.modeCur = 0 ∧ t.sup.exitDue = true ∧ t.reg (regEVT_PAYLOAD 82) = 0 ∧
        t.rbit (regEVT_PEND 2) 18 = true)))

/-- During a transition the request waits. -/
theorem MaintOf.waits {v : Word} {m : State} (h : MaintOf s v m) (hs : s.modeStep.isSome = true) :
    ModeWritten s v { m.modeReq (fld v 0 2) with modeQueued := some (fld v 0 2) } := by
  obtain ⟨k1, k2⟩ := h.shown { m.modeReq (fld v 0 2) with modeQueued := some (fld v 0 2) } (State.modeReq_rbit _ 16 (by decide)) fun g =>
    (State.modeReq_rbit _ 8 (by decide)).trans g
  refine ⟨k1, k2, fun _ => ⟨h.step, rfl, State.modeReq_req _ (Nat.mod_lt _ (by decide)), (State.modeReq_cur _).trans h.cur⟩, fun g => ?_⟩
  rw [g] at hs
  exact absurd hs Bool.false_ne_true

/-- Without one it is acted on. -/
theorem MaintOf.acts {v : Word} {m : State} (h : MaintOf s v m) (hs : s.modeStep = none) : ModeWritten s v (m.modeAct (fld v 0 2)) := by
  have hn : ¬ s.modeStep.isSome = true := by
    rw [hs]
    exact Bool.false_ne_true
  by_cases hq : fld v 0 2 = 3 ∨ (fld v 0 2 ≠ s.modeCur ∧ s.rbit regPAIR_STATUS 30 = true)
  · obtain ⟨e1, e2, e3, e4, e5, e6⟩ := State.modeAct_refused_spec (s := m) (r := fld v 0 2) (by rw [h.cur, h.batten]; exact hq)
    obtain ⟨k1, k2⟩ := h.shown (m.modeAct (fld v 0 2)) e4 fun _ => e3
    refine ⟨k1, k2, fun g => absurd g hn, fun _ => ⟨e1.trans h.queued, fun _ => ⟨e3, e5.trans h.cur, e6.trans h.cur, e2.trans (h.step.trans hs)⟩, fun g3 g => ?_⟩⟩
    rcases hq with hq | ⟨hq1, hq2⟩
    · exact absurd hq g3
    · exact g.elim (fun g => absurd g hq1) fun g => absurd (g.symm.trans hq2) Bool.false_ne_true
  · rw [not_or, not_and_or, not_not, Bool.not_eq_true] at hq
    obtain ⟨h3, ho⟩ := hq
    obtain ⟨e1, e2, e3, e4, e5, e6⟩ := State.modeAct_open_spec (s := m) (r := fld v 0 2) (Nat.mod_lt _ (by decide)) h3 (by rw [h.cur, h.batten]; exact ho)
    rw [h.cur, h.step, hs] at e4
    rw [h.cur] at e5
    rw [h.cur, h.step, hs] at e6
    obtain ⟨k1, k2⟩ := h.shown (m.modeAct (fld v 0 2)) (e2 16 (by decide)) fun g => (e2 8 (by decide)).trans g
    refine ⟨k1, k2, fun g => absurd g hn, fun _ => ⟨e1.trans h.queued, fun g => ?_, fun _ _ => ⟨e3, fun g1 g2 => (e2 8 (by decide)).trans ((h.taken g2).2 g1), e4, e5, e6⟩⟩⟩
    rcases g with g | ⟨g1, g2⟩
    · exact absurd g h3
    · exact ho.elim (fun k => absurd k g1) fun k => absurd (k.symm.trans g2) Bool.false_ne_true

theorem State.modeWrite_spec (v : Word) (hc : s.modeCur ≠ 2) : ModeWritten s v (s.modeWrite v) := by
  have hm := s.modeMaint_of v
  rw [State.modeWrite_eq v hc, hm.step]
  split
  case isTrue hs => exact hm.waits hs
  case isFalse hs => exact hm.acts (Option.not_isSome_iff_eq_none.1 hs)

theorem exec_modeWrite (m : Master) (v : Word) (c : Instr) (h : c = .modeReqWrite m v ∨ c = .maintWrite m v) : exec c s = .next (s.modeWrite v) := by
  rcases h with rfl | rfl <;> rfl

theorem State.modeWrite_deep (v : Word) (h : s.modeCur = 2) : s.modeWrite v = s := if_pos h

/-! ## The entry to SLEEP (R306) -/

theorem State.modeDone_none (h : s.modeQueued = none) : s.modeDone = s := by
  unfold State.modeDone
  rw [h]

/-- The state that enters SLEEP, before a wake is looked at. -/
def State.slept (s : State) : State :=
  ((({ s with modeStep := none, wakePend := false, sup := { s.sup with exitDue := false } } : State).modeReq 1).modeSet 1).collapse

theorem exec_sleepEntry_due (h1 : s.modeStep = some 1) (h2 : s.ticking = true) (h3 : s.fadedOut = true) :
    exec .sleepEntry s = .next (if s.wakePend then s.slept.sleepExit else s.slept).modeDone := congrArg Host.Outcome.next (if_pos ⟨h1, h2, h3⟩)

theorem exec_sleepEntry_idle (h : s.modeStep ≠ some 1 ∨ s.ticking = false ∨ s.fadedOut = false) : exec .sleepEntry s = .next s := by
  refine congrArg Host.Outcome.next (if_neg ?_)
  rintro ⟨g1, g2, g3⟩
  rcases h with h | h | h
  · exact h g1
  · exact Bool.false_ne_true (h.symm.trans g2)
  · exact Bool.false_ne_true (h.symm.trans g3)

/-- The stopped blocks keep registers and all but their members (R306). -/
theorem State.collapse_frame : s.collapse = { s with xents := s.collapse.xents, sels := s.collapse.sels, taps := s.collapse.taps, secs := s.collapse.secs } := rfl

theorem State.collapse_members : (s.gatedOff 8 = true → s.collapse.xents = []) ∧ (s.gatedOff 13 = true → s.collapse.taps = []) ∧
    (∀ e, e ∈ s.collapse.sels ↔ e ∈ s.sels ∧ s.selStopped e.1 = false) := by
  refine ⟨fun h => if_pos h, fun h => if_pos h, fun e => ?_⟩
  refine List.mem_filter.trans (and_congr_right fun _ => ?_)
  rw [Bool.not_eq_true']

theorem State.gatedOff_congr {i : Nat} (h : t.regs = s.regs) (hs : t.sup = s.sup) : t.gatedOff i = s.gatedOff i := by
  unfold State.gatedOff State.asleep State.rbit State.rfld State.reg
  rw [h, hs]

theorem State.selStopped_congr (a : Nat) (h : t.regs = s.regs) (hs : t.sup = s.sup) : t.selStopped a = s.selStopped a := by
  unfold State.selStopped
  simp only [State.gatedOff_congr h hs]

theorem State.slept_spec (s : State) : s.slept.modeStep = none ∧ s.slept.wakePend = false ∧ s.slept.modeQueued = s.modeQueued ∧
    s.slept.rfld regGLOBAL_MODE 0 2 = 1 ∧ s.slept.modeCur = 1 ∧ s.slept.reg (regEVT_PAYLOAD 82) = 1 ∧ s.slept.rbit (regEVT_PEND 2) 18 = true ∧ s.slept.sup.exitDue = false := by
  unfold State.slept
  generalize hb : ({ s with modeStep := none, wakePend := false, sup := { s.sup with exitDue := false } } : State) = b
  obtain ⟨h1, h2⟩ := (b.modeReq 1).modeSet_event 1
  have hr : (((b.modeReq 1).modeSet 1).collapse).modeStep = b.modeStep ∧ (((b.modeReq 1).modeSet 1).collapse).wakePend = b.wakePend ∧
      (((b.modeReq 1).modeSet 1).collapse).modeQueued = b.modeQueued ∧ (((b.modeReq 1).modeSet 1).collapse).sup = b.sup := by
    rw [State.collapse_frame, State.modeSet_frame]
    exact ⟨rfl, rfl, rfl, rfl⟩
  obtain ⟨r1, r2, r3, r4⟩ := hr
  rw [r1, r2, r3, r4]
  refine ⟨?_, ?_, ?_, (State.modeSet_rfld 1 0 2 (.inl (by decide))).trans (State.modeReq_req 1 (by decide)), State.modeSet_cur 1 (by decide), h1, h2, ?_⟩ <;> rw [← hb]

/-- What the stopped blocks hold in SLEEP. -/
theorem State.slept_members (s : State) : (s.slept.gatedOff 8 = true → s.slept.xents = []) ∧ (s.slept.gatedOff 13 = true → s.slept.taps = []) ∧
    (∀ e, e ∈ s.slept.sels ↔ e ∈ s.sels ∧ s.slept.selStopped e.1 = false) := by
  unfold State.slept
  generalize hb : ({ s with modeStep := none, wakePend := false, sup := { s.sup with exitDue := false } } : State) = b
  have hs : ((b.modeReq 1).modeSet 1).sels = s.sels := by
    rw [State.modeSet_frame, ← hb]
    rfl
  obtain ⟨h1, h2, h3⟩ := State.collapse_members (s := (b.modeReq 1).modeSet 1)
  rw [State.gatedOff_congr (i := 8) (congrArg State.regs State.collapse_frame) (congrArg State.sup State.collapse_frame), State.gatedOff_congr (i := 13) (congrArg State.regs State.collapse_frame) (congrArg State.sup State.collapse_frame)]
  refine ⟨h1, h2, fun e => ?_⟩
  rw [State.selStopped_congr e.1 (congrArg State.regs State.collapse_frame) (congrArg State.sup State.collapse_frame), ← hs]
  exact h3 e

/-- The state after the entry to SLEEP: asleep, or woken again at once. -/
theorem exec_sleepEntry_spec (h1 : s.modeStep = some 1) (h2 : s.ticking = true) (h3 : s.fadedOut = true) (h4 : s.modeQueued = none) :
    ∃ t, exec .sleepEntry s = .next t ∧ t.modeStep = none ∧ t.wakePend = false ∧ t.rfld regGLOBAL_MODE 0 2 = t.modeCur ∧ t.modeCur = (if s.wakePend then 0 else 1) ∧
      t.reg (regEVT_PAYLOAD 82) = BitVec.ofNat 32 t.modeCur ∧ t.rbit (regEVT_PEND 2) 18 = true ∧ t.sup.exitDue = s.wakePend ∧
      (s.wakePend = false → (t.gatedOff 8 = true → t.xents = []) ∧ (t.gatedOff 13 = true → t.taps = []) ∧
        (∀ e, e ∈ t.sels ↔ e ∈ s.sels ∧ t.selStopped e.1 = false)) := by
  obtain ⟨e1, e2, e3, e4, e5, e6, e7, e8⟩ := s.slept_spec
  refine ⟨_, exec_sleepEntry_due h1 h2 h3, ?_⟩
  cases hw : s.wakePend with
  | false =>
    rw [if_neg Bool.false_ne_true, State.modeDone_none (e3.trans h4), e5]
    exact ⟨e1, e2, e4, rfl, e6, e7, e8, fun _ => s.slept_members⟩
  | true =>
    obtain ⟨g1, g2, g3, g4, g5⟩ := s.slept.sleepExit_spec
    obtain ⟨k1, k2, k3⟩ := State.sleepExit_steps (s := s.slept)
    rw [if_pos rfl, State.modeDone_none (k2.trans (e3.trans h4)), g1]
    exact ⟨k1.trans e1, k3.trans e2, g2, rfl, g4, g5, g3, fun h => Bool.noConfusion h⟩

/-! ## Wakes (R308) -/

theorem State.wakeBy_disabled (src : WakeSrc) (h : s.rbit regPWR_WAKE (wakeBit src) = false) : s.wakeBy src = s := by
  refine if_pos ?_
  unfold State.wakeLive
  rw [h, Bool.false_and]
  rfl

/-- A train line that is enabled as a wake source. -/
theorem State.wakeBy_line (i : Fin 8) (h : s.rbit regPWR_WAKE i.val = true) : s.wakeBy (.tl i) =
    match s.modeStep with
    | some _ =>
      if s.fadedOut then { s.wakeCause i.val s.wakePend with wakePend := true }
      else (((({ s with modeStep := none } : State).wakeCause i.val false).modeReq 0).raiseEvent 82 0).modeDone
    | none =>
      if s.modeCur = 1 then (s.wakeCause i.val false).sleepExit
      else if s.modeCur = 2 then s.deepWake (2 ^ i.val)
      else if s.waking then s.wakeCause i.val true
      else s := by
  have hl : s.wakeLive (.tl i) = true := (Bool.and_true _).trans h
  refine (if_neg ?_).trans rfl
  rw [hl]
  exact Bool.false_ne_true

theorem State.wakeCause_field (b : Nat) (h : b < 12) : (s.wakeCause b false).rfld regPWR_WAKE 16 12 = 2 ^ b :=
  (State.rfld_setRfld_self _ _ _ _ _ (by decide)).trans (Nat.mod_eq_of_lt (Nat.pow_lt_pow_right (by decide) h))

theorem State.wakeCause_bit (b : Nat) (more : Bool) (h : b < 12) : (s.wakeCause b more).rbit regPWR_WAKE (16 + b) = true := by
  refine (State.rbit_setRfld _ _ _ _ _ _ _ (by decide)).trans ((if_pos ⟨rfl, by omega, by omega⟩).trans ?_)
  rw [Nat.add_sub_cancel_left]
  cases more with
  | false => exact Nat.testBit_two_pow_self
  | true => exact (Nat.testBit_or _ _ _).trans ((congrArg (_ || ·) Nat.testBit_two_pow_self).trans (Bool.or_true _))

theorem exec_wake_asleep (i : Fin 8) (h : s.rbit regPWR_WAKE i.val = true) (hs : s.modeStep = none) (hc : s.modeCur = 1) :
    ∃ t, exec (.wake (.tl i)) s = .next t ∧ t.modeCur = 0 ∧ t.rfld regGLOBAL_MODE 0 2 = 0 ∧ t.sup.exitDue = true ∧ t.rfld regPWR_WAKE 16 12 = 2 ^ i.val ∧
      t.reg (regEVT_PAYLOAD 82) = 0 ∧ t.rbit (regEVT_PEND 2) 18 = true := by
  have e : s.wakeBy (.tl i) = (s.wakeCause i.val false).sleepExit := by
    rw [State.wakeBy_line i h, hs]
    exact if_pos hc
  obtain ⟨g1, g2, g3, g4, g5⟩ := (s.wakeCause i.val false).sleepExit_spec
  refine ⟨_, congrArg Host.Outcome.next e, g1, g2, g3, ?_, g4, g5⟩
  exact (congrArg (fld · 16 12) (State.sleepExit_reg _ (by decide) (by decide))).trans (State.wakeCause_field _ (by omega))

theorem exec_wake_fading (i : Fin 8) (r : Nat) (h : s.rbit regPWR_WAKE i.val = true) (hs : s.modeStep = some r) :
    (s.fadedOut = true → ∃ t, exec (.wake (.tl i)) s = .next t ∧ t = { s with regs := t.regs, wakePend := true } ∧ t.rbit regPWR_WAKE (16 + i.val) = true) ∧
    (s.fadedOut = false → s.modeQueued = none → ∃ t, exec (.wake (.tl i)) s = .next t ∧ t.modeStep = none ∧ t.modeCur = s.modeCur ∧ t.rfld regGLOBAL_MODE 0 2 = 0 ∧
      t.rfld regPWR_WAKE 16 12 = 2 ^ i.val ∧ t.reg (regEVT_PAYLOAD 82) = 0) := by
  have e : exec (.wake (.tl i)) s = .next (if s.fadedOut then { s.wakeCause i.val s.wakePend with wakePend := true }
      else (((({ s with modeStep := none } : State).wakeCause i.val false).modeReq 0).raiseEvent 82 0).modeDone) := by
    refine congrArg Host.Outcome.next ?_
    rw [State.wakeBy_line i h, hs]
  rw [e]
  refine ⟨fun hf => ?_, fun hf hq => ?_⟩
  · rw [if_pos hf]
    exact ⟨_, rfl, rfl, State.wakeCause_bit _ _ (by omega)⟩
  · rw [hf, if_neg Bool.false_ne_true]
    generalize hb : ({ s with modeStep := none } : State) = b
    have hm : (((b.wakeCause i.val false).modeReq 0).raiseEvent 82 0).modeQueued = none ∧ (((b.wakeCause i.val false).modeReq 0).raiseEvent 82 0).modeStep = none := by
      rw [State.raiseEvent_frame, ← hb]
      exact ⟨hq, rfl⟩
    have hcur : b.modeCur = s.modeCur := by rw [← hb]; rfl
    rw [State.modeDone_none hm.1]
    refine ⟨_, rfl, hm.2, ?_, ?_, ?_, State.raiseEvent_payload _ _ _ (by decide)⟩
    · refine (State.raiseEvent_rfld_block _ _ _ _ _ _ (by decide) (by decide)).trans ((State.modeReq_cur 0).trans (Eq.trans ?_ hcur))
      exact congrArg (fld · 4 2) (State.reg_setReg_ne b _ (by decide))
    · exact (State.raiseEvent_rfld_block _ _ _ _ _ _ (by decide) (by decide)).trans (State.modeReq_req 0 (by decide))
    · refine (State.raiseEvent_rfld_block _ _ _ _ _ _ (by decide) (by decide)).trans ?_
      exact (congrArg (fld · 16 12) (State.modeReq_reg 0 _ (by decide))).trans (State.wakeCause_field _ (by omega))

theorem exec_lpoTimer_expired (h : s.reg regPWR_LPOTMR ≠ 0) : exec .lpoTimerExpiry s =
    .next ((if s.modeCur = 2 then s.setReg regPWR_LPOTMR 0 else (s.setReg regPWR_LPOTMR 0).raiseEvent 81 0).wakeBy .lpo) := by
  refine congrArg Host.Outcome.next ((if_pos h).trans (congrArg (State.wakeBy · .lpo) ?_))
  have hd : (s.setReg regPWR_LPOTMR 0).deep = decide (s.modeCur = 2) :=
    congrArg (fun w => decide (fld w 4 2 = 2)) (State.reg_setReg_ne s 0 (by decide))
  rw [State.awakeEvent, hd]
  simp only [decide_eq_true_eq]

theorem exec_lpoTimer_stopped (h : s.reg regPWR_LPOTMR = 0) : exec .lpoTimerExpiry s = .next s := congrArg Host.Outcome.next (if_neg fun g => g h)

/-! ## DEEP (R307, R308) -/

/-- Registers copied into a state one after another. -/
theorem setRegs_fold (f : Nat → Word) (kept : List Nat) (t : State) :
    ∃ r, kept.foldl (fun (u : State) a => u.setReg a (f a)) t = { t with regs := r } ∧ (∀ a, a ∈ kept → mapGet regReset r a = f a) ∧
      (∀ a, a ∉ kept → mapGet regReset r a = t.reg a) := by
  induction kept generalizing t with
  | nil => exact ⟨t.regs, rfl, fun _ h => absurd h List.not_mem_nil, fun _ _ => rfl⟩
  | cons b kept ih =>
    obtain ⟨r, e, h1, h2⟩ := ih (t.setReg b (f b))
    refine ⟨r, e, fun a ha => ?_, fun a ha => ?_⟩
    · by_cases hk : a ∈ kept
      · exact h1 a hk
      · obtain rfl : a = b := (List.mem_cons.1 ha).resolve_right hk
        exact (h2 a hk).trans (State.reg_setReg_self _ _ _)
    · rw [List.mem_cons, not_or] at ha
      exact (h2 a ha.2).trans (State.reg_setReg_ne _ _ ha.1)

/-- The state of a reset that keeps DRAM and the rails that are off. -/
def State.coldKeeping (s : State) (r : List (Nat × Word)) : State := { s.cold r with dram := s.dram, railsOff := s.railsOff }

theorem State.resetKeeping_spec (s : State) (c : Word) (kept : List Nat) : ∃ r r0, s.resetKeeping c kept = s.coldKeeping r ∧ ResetRegs s c r0 ∧
    (∀ a, a ∈ kept → mapGet regReset r a = s.reg a) ∧ (∀ a, a ∉ kept → mapGet regReset r a = mapGet regReset r0 a) := by
  obtain ⟨r0, e0, h0⟩ := s.moduleReset_spec c
  obtain ⟨r, e, h1, h2⟩ := setRegs_fold s.reg kept (s.coldKeeping r0)
  refine ⟨r, r0, ?_, h0, h1, h2⟩
  rw [State.resetKeeping, e0]
  exact e

/-- Whatever the length of the key hash, the mode register is reset with the rest. -/
theorem ResetRegs.low {c : Word} {r : List (Nat × Word)} (h : ResetRegs s c r) {a : Nat} (ha : a < 0x150020) (h0 : a ≠ regGLOBAL_RSTCAUSE)
    (h1 : a ≠ regPWR_STATUS) (h2 : a ≠ regPAIR_STATUS) (h3 : a ≠ regFAULT_CAUSE 1) : mapGet regReset r a = regReset a :=
  h.rest a h0 h1 h2 h3 fun i _ => by
    rw [regBOOT_KEYHASH]
    omega

/-- What a start-up out of DEEP shows and keeps (R307 to R309). -/
structure DeepWoken (s : State) (causes : Nat) (t : State) : Prop where
  shape : t = s.coldKeeping t.regs
  timer : t.reg regPWR_LPOTMR = s.reg regPWR_LPOTMR
  lines : t.reg regHVIO_TLSTAT = s.reg regHVIO_TLSTAT
  mode : t.modeCur = 0
  cause : t.rfld regPWR_WAKE 16 12 = causes % 2 ^ 12
  rst : t.reg regGLOBAL_RSTCAUSE = 8
  woke : t.rbit regBOOT_STATUS 24 = true

theorem State.deepWake_spec (s : State) (causes : Nat) : DeepWoken s causes (s.deepWake causes) := by
  obtain ⟨r, r0, e, h0, h1, h2⟩ := s.resetKeeping_spec 8#32 [regPWR_LPOTMR, regHVIO_TLSTAT]
  have hd : s.deepWake causes = ((s.coldKeeping r).setRbit regBOOT_STATUS 24).setRfld regPWR_WAKE 16 12 causes := by
    rw [State.deepWake, e]
  rw [hd]
  have hr : ∀ a, a ≠ regPWR_WAKE → a ≠ regBOOT_STATUS →
      (((s.coldKeeping r).setRbit regBOOT_STATUS 24).setRfld regPWR_WAKE 16 12 causes).reg a = mapGet regReset r a :=
    fun a ha hb => (State.reg_setReg_ne _ _ ha).trans (State.reg_setReg_ne _ _ hb)
  refine ⟨rfl, (hr _ (by decide) (by decide)).trans (h1 _ (by decide)), (hr _ (by decide) (by decide)).trans (h1 _ (by decide)), ?_,
    State.rfld_setRfld_self _ _ _ _ _ (by decide), (hr _ (by decide) (by decide)).trans ((h2 _ (by decide)).trans h0.cause), ?_⟩
  · have hm := (h2 regGLOBAL_MODE (by decide)).trans (h0.low (by decide) (by decide) (by decide) (by decide) (by decide))
    exact (congrArg (fld · 4 2) ((hr _ (by decide) (by decide)).trans hm)).trans (by decide : fld (regReset regGLOBAL_MODE) 4 2 = 0)
  · refine ((State.rbit_setRfld _ _ _ _ _ _ _ (by decide)).trans (if_neg (by decide))).trans ((State.rbit_setRbit _ _ _ _ _ (by decide)).trans ?_)
    exact Bool.or_true _

theorem exec_wake_deep (i : Fin 8) (h : s.rbit regPWR_WAKE i.val = true) (hs : s.modeStep = none) (hc : s.modeCur = 2) :
    ∃ t, exec (.wake (.tl i)) s = .next t ∧ t.dram = s.dram ∧ t.flash = s.flash ∧ t.fuseKey = s.fuseKey ∧ t.railsOff = s.railsOff ∧ t.pending = s.pending ∧
      t.courses = State.reset.courses ∧ t.reg regPWR_LPOTMR = s.reg regPWR_LPOTMR ∧ t.reg regHVIO_TLSTAT = s.reg regHVIO_TLSTAT ∧ t.modeCur = 0 ∧
      t.rfld regPWR_WAKE 16 12 = 2 ^ i.val ∧ t.reg regGLOBAL_RSTCAUSE = 8 ∧ t.rbit regBOOT_STATUS 24 = true := by
  have e : s.wakeBy (.tl i) = s.deepWake (2 ^ i.val) := by
    rw [State.wakeBy_line i h, hs]
    exact (if_neg (by omega)).trans (if_pos hc)
  have hd := s.deepWake_spec (2 ^ i.val)
  have hi : 2 ^ i.val % 2 ^ 12 = 2 ^ i.val := Nat.mod_eq_of_lt (Nat.pow_lt_pow_right (by decide) (by omega))
  refine ⟨_, congrArg Host.Outcome.next e, ?_, ?_, ?_, ?_, ?_, ?_, hd.timer, hd.lines, hd.mode, hd.cause.trans hi, hd.rst, hd.woke⟩ <;> rw [hd.shape] <;> rfl

/-- What an entry to DEEP must still find of the state that asked for it: only event and log words, the flash, and the free values have moved. -/
structure LogKept (s t : State) : Prop where
  frame : ∃ r f c tk sq, t = { s with regs := r, flash := f, freeCtr := c, tokens := tk, seq := sq }
  regs : ∀ a, a ≠ regBOOT_STATUS → a ≠ regBOOT_LOG → a ≠ regPWR_STATUS → a / 0x10000 ≠ 4 → t.reg a = s.reg a

theorem LogKept.refl (s : State) : LogKept s s := ⟨⟨_, _, _, _, _, rfl⟩, fun _ _ _ _ _ => rfl⟩

theorem LogKept.trans (h : LogKept s t) (g : LogKept t u) : LogKept s u := by
  obtain ⟨⟨r, f, c, tk, sq, e⟩, h⟩ := h
  obtain ⟨⟨r2, f2, c2, tk2, sq2, e2⟩, g⟩ := g
  refine ⟨⟨r2, f2, c2, tk2, sq2, ?_⟩, fun a h1 h2 h3 h4 => (g a h1 h2 h3 h4).trans (h a h1 h2 h3 h4)⟩
  rw [e2, e]

theorem LogKept.setReg {a : Nat} {v : Word} (h : LogKept s t) (ha : a = regBOOT_STATUS ∨ a = regBOOT_LOG ∨ a = regPWR_STATUS) : LogKept s (t.setReg a v) :=
  h.trans ⟨⟨_, _, _, _, _, rfl⟩, fun b h1 h2 h3 _ => State.reg_setReg_ne _ _ fun e => by
    rcases ha with ha | ha | ha
    · exact h1 (e.trans ha)
    · exact h2 (e.trans ha)
    · exact h3 (e.trans ha)⟩

theorem LogKept.raiseEvent {e : Nat} {pl : Word} (h : LogKept s t) (he : e < 128) : LogKept s (t.raiseEvent e pl) :=
  h.trans ⟨⟨_, _, _, _, _, State.raiseEvent_frame t e pl⟩, fun a _ _ _ h4 => State.raiseEvent_reg_block t e pl a he h4⟩

theorem LogKept.flash {f : List (Nat × Byte)} (h : LogKept s t) : LogKept s { t with flash := f } :=
  h.trans ⟨⟨_, _, _, _, _, rfl⟩, fun _ _ _ _ _ => rfl⟩

theorem LogKept.draw (h : LogKept s t) : LogKept s t.draw.2 := h.trans ⟨⟨_, _, _, _, _, rfl⟩, fun _ _ _ _ _ => rfl⟩

theorem LogKept.ite {c : Prop} [Decidable c] (h : LogKept s t) (g : LogKept s u) : LogKept s (if c then t else u) := by
  split
  · exact h
  · exact g

theorem LogKept.flashPut {a : Nat} (h : LogKept s t) (bs : List Byte) : LogKept s (t.flashPut a bs) := by
  induction bs generalizing t a with
  | nil => exact h
  | cons b bs ih => exact ih (.flash h)

theorem LogKept.logStore {ws : List Word} (h : LogKept s t) : LogKept s (t.logStore ws) := by
  have hq : LogKept s (if t.rbit regBOOT_LOG 31 then (t.flashWord (logBase + 64 * t.rfld regBOOT_LOG 16 14 + 4) + 1, t) else t.draw).2 := by
    split
    · exact h
    · exact h.draw
  unfold State.logStore
  refine .ite h ?_
  dsimp only
  refine .ite (.setReg h (.inl rfl)) (.setReg (.ite (.flash ?_) ?_) (.inr (.inr rfl)))
  · exact .setReg (.flashPut hq _) (.inr (.inl rfl))
  · exact .setReg (.flashPut hq _) (.inr (.inl rfl))

theorem LogKept.logStores {l : List (List Word)} (h : LogKept s t) : LogKept s (l.foldl State.logStore t) := by
  induction l generalizing t with
  | nil => exact h
  | cons ws l ih => exact ih h.logStore

theorem LogKept.gateDeepCheck (h : LogKept s t) : LogKept s t.gateDeepCheck := .ite (.raiseEvent h (by decide)) h

/-- The state before the blocks lose theirs: LEAVE is on its way and the captures are stored. -/
def State.leaving (s : State) : State := (s.holdup ++ [s.holdupWords]).foldl State.logStore s.gateDeepCheck.sendLeave

/-- LEAVE goes out with an open SEQ, and the captures behind it leave what DEEP keeps. -/
theorem State.leaving_spec (s : State) : ∃ q, LogKept { s with delronNet := some (0xEFC0B01A#32, 0xB01A#16, delronMsg s.devId 0x02 q []) } s.leaving := by
  have hg : LogKept s s.gateDeepCheck := .gateDeepCheck (.refl s)
  have hd : s.gateDeepCheck.devId = s.devId := by
    rw [State.devId, hg.regs _ (by decide) (by decide) (by decide) (by decide), hg.regs _ (by decide) (by decide) (by decide) (by decide)]
    rfl
  have he : s.gateDeepCheck.sendLeave = { s.gateDeepCheck.draw.2 with
      delronNet := some (0xEFC0B01A#32, 0xB01A#16, delronMsg s.gateDeepCheck.devId 0x02 (s.gateDeepCheck.draw.1.extractLsb' 0 16) []) } := rfl
  refine ⟨s.gateDeepCheck.draw.1.extractLsb' 0 16, .logStores ?_⟩
  rw [he, hd]
  generalize delronMsg s.devId 0x02 (s.gateDeepCheck.draw.1.extractLsb' 0 16) [] = msg
  obtain ⟨⟨r, f, c, tk, sq, e⟩, hr⟩ := hg.draw
  refine ⟨⟨r, f, c, tk, sq, ?_⟩, hr⟩
  rw [e]

/-- The state of DEEP, of the state that entered it (R307). -/
structure DeepState (s t : State) : Prop where
  shape : t = { s.coldKeeping t.regs with rstOut := s.rstOut }
  timer : t.reg regPWR_LPOTMR = s.reg regPWR_LPOTMR
  wake : t.reg regPWR_WAKE = s.reg regPWR_WAKE
  mode : t.modeCur = 2

theorem State.deepState_spec (s : State) : DeepState s s.deepState := by
  obtain ⟨r, r0, e, h0, h1, h2⟩ := s.resetKeeping_spec (s.reg regGLOBAL_RSTCAUSE) [regPWR_WAKE, regPWR_LPOTMR, regCLK_GATE_DEEP, regHVIO_TLCFG, regHVIO_TLSTAT,
    regNET_PMACLO 0, regNET_PMACHI 0, regNET_PMACLO 1, regNET_PMACHI 1]
  have hd : s.deepState = { (s.coldKeeping r).setReg regGLOBAL_MODE 0x22#32 with rstOut := s.rstOut } := by
    rw [State.deepState, e]
  rw [hd]
  have hr : ∀ a, a ≠ regGLOBAL_MODE → ((s.coldKeeping r).setReg regGLOBAL_MODE 0x22#32).reg a = mapGet regReset r a := fun a ha =>
    State.reg_setReg_ne (s.coldKeeping r) _ ha
  exact ⟨rfl, (hr regPWR_LPOTMR (by decide)).trans (h1 _ (by decide)), (hr regPWR_WAKE (by decide)).trans (h1 _ (by decide)),
    (congrArg (fld · 4 2) (State.reg_setReg_self (s.coldKeeping r) regGLOBAL_MODE 0x22#32)).trans (by decide)⟩

theorem exec_deepEntry_due (h1 : s.modeStep = some 2) (h2 : s.ticking = true) (h3 : s.fadedOut = true) : exec .deepEntry s =
    .next (if s.wakePend then ({ s.leaving.deepState with delronNet := s.leaving.delronNet } : State).deepWake (s.rfld regPWR_WAKE 16 12)
      else { s.leaving.deepState with delronNet := s.leaving.delronNet }) := congrArg Host.Outcome.next (if_pos ⟨h1, h2, h3⟩)

theorem exec_deepEntry_idle (h : s.modeStep ≠ some 2 ∨ s.ticking = false ∨ s.fadedOut = false) : exec .deepEntry s = .next s := by
  refine congrArg Host.Outcome.next (if_neg ?_)
  rintro ⟨g1, g2, g3⟩
  rcases h with h | h | h
  · exact h g1
  · exact Bool.false_ne_true (h.symm.trans g2)
  · exact Bool.false_ne_true (h.symm.trans g3)

/-- What DEEP, or the wake out of it that follows at once, has in common. -/
def DeepCommon (s t : State) : Prop :=
  t.courses = State.reset.courses ∧ t.tab = State.reset.tab ∧ t.dram = s.dram ∧ t.fuseKey = s.fuseKey ∧ t.fuseLock = s.fuseLock ∧ t.railsOff = s.railsOff ∧
    t.ticking = false ∧ t.modeStep = none ∧ t.reg regPWR_LPOTMR = s.reg regPWR_LPOTMR

/-- The state of DEEP after the last words of the module (R307). -/
def State.inDeep (s : State) : State := { s.leaving.deepState with delronNet := s.leaving.delronNet }

theorem State.inDeep_spec (s : State) : DeepCommon s s.inDeep ∧ s.inDeep.modeCur = 2 ∧ s.inDeep.reg regPWR_WAKE = s.reg regPWR_WAKE ∧ s.inDeep.rstOut = s.rstOut ∧
    ∃ q, s.inDeep.delronNet = some (0xEFC0B01A#32, 0xB01A#16, delronMsg s.devId 0x02 q []) := by
  obtain ⟨q, hk⟩ := s.leaving_spec
  have hd := s.leaving.deepState_spec
  obtain ⟨r, f, c, tk, sq, e⟩ := hk.frame
  have hl : s.leaving.dram = s.dram ∧ s.leaving.fuseKey = s.fuseKey ∧ s.leaving.fuseLock = s.fuseLock ∧ s.leaving.railsOff = s.railsOff ∧ s.leaving.rstOut = s.rstOut ∧
      s.leaving.delronNet = some (0xEFC0B01A#32, 0xB01A#16, delronMsg s.devId 0x02 q []) := by
    rw [e]
    exact ⟨rfl, rfl, rfl, rfl, rfl, rfl⟩
  have hreg : ∀ a, a ≠ regBOOT_STATUS → a ≠ regBOOT_LOG → a ≠ regPWR_STATUS → a / 0x10000 ≠ 4 → s.leaving.reg a = s.reg a := hk.regs
  have htm := hd.timer.trans (hreg _ (by decide) (by decide) (by decide) (by decide))
  have hwk := hd.wake.trans (hreg _ (by decide) (by decide) (by decide) (by decide))
  have hmd := hd.mode
  have hsh := hd.shape
  unfold State.inDeep
  generalize s.leaving.deepState = d at *
  generalize s.leaving = l at *
  obtain ⟨l1, l2, l3, l4, l5, l6⟩ := hl
  rw [hsh]
  exact ⟨⟨rfl, rfl, l1, l2, l3, l4, rfl, rfl, htm⟩, hmd, hwk, l5, q, l6⟩

theorem exec_deepEntry_spec (h1 : s.modeStep = some 2) (h2 : s.ticking = true) (h3 : s.fadedOut = true) :
    ∃ t, exec .deepEntry s = .next t ∧ DeepCommon s t ∧
      (s.wakePend = false → t.modeCur = 2 ∧ t.reg regPWR_WAKE = s.reg regPWR_WAKE ∧ t.rstOut = s.rstOut ∧
        ∃ q, t.delronNet = some (0xEFC0B01A#32, 0xB01A#16, delronMsg s.devId 0x02 q [])) ∧
      (s.wakePend = true → t.modeCur = 0 ∧ t.rfld regPWR_WAKE 16 12 = s.rfld regPWR_WAKE 16 12 ∧ t.reg regGLOBAL_RSTCAUSE = 8 ∧ t.rbit regBOOT_STATUS 24 = true) := by
  have hx := exec_deepEntry_due h1 h2 h3
  rw [show ({ s.leaving.deepState with delronNet := s.leaving.delronNet } : State) = s.inDeep from rfl] at hx
  obtain ⟨hc, hs⟩ := s.inDeep_spec
  refine ⟨_, hx, ?_⟩
  generalize s.inDeep = d at *
  cases hw : s.wakePend with
  | false => exact ⟨hc, fun _ => hs, fun h => Bool.noConfusion h⟩
  | true =>
    have hd := d.deepWake_spec (s.rfld regPWR_WAKE 16 12)
    have hcl : s.rfld regPWR_WAKE 16 12 % 2 ^ 12 = s.rfld regPWR_WAKE 16 12 := Nat.mod_eq_of_lt (Nat.mod_lt _ (by decide))
    obtain ⟨-, -, c3, c4, c5, c6, -, -, c9⟩ := hc
    refine ⟨?_, fun h => Bool.noConfusion h, fun _ => ⟨hd.mode, hd.cause.trans hcl, hd.rst, hd.woke⟩⟩
    rw [if_pos rfl]
    have ht := hd.timer
    have hsh := hd.shape
    generalize d.deepWake (s.rfld regPWR_WAKE 16 12) = w at *
    rw [hsh]
    exact ⟨rfl, rfl, c3, c4, c5, c6, rfl, rfl, ht.trans c9⟩

/-- Settles O52, clause by clause. -/
theorem powerModes : Obligations.PowerModes := by
  unfold Obligations.PowerModes
  refine ⟨fun s m v c hc => ?_, fun s i => ⟨exec_sleepEntry_spec, exec_sleepEntry_idle, fun h1 h2 h3 => ?_, exec_deepEntry_idle, exec_wake_asleep i,
    exec_wake_deep i, exec_wake_fading i, fun src => ⟨rfl, State.wakeBy_disabled src⟩, exec_lpoTimer_expired, exec_lpoTimer_stopped⟩⟩
  · rw [exec_modeWrite m v c hc]
    exact ⟨fun h => congrArg _ (State.modeWrite_deep v h), fun h => ⟨_, rfl, State.modeWrite_spec v h⟩⟩
  · obtain ⟨t, hx, ⟨c1, c2, c3, c4, c5, c6, c7, c8, c9⟩, h⟩ := exec_deepEntry_spec h1 h2 h3
    exact ⟨t, hx, c1, c2, c3, c4, c5, c6, c7, c8, c9, h⟩

end Sys2Proof.Machine
end

section
/-! The supply and the hold-up store, train lines and auxiliary rails (R128, R311 to R313, R342, R388). -/

namespace Sys2Proof.Machine

-- One theorem after another, so that the compile of the whole text stays within its memory.
set_option Elab.async false

variable {s t u : State}

/-! ## Brown-out and recovery (R311) -/

/-- A level cause that begins sets its live bit, and is an occurrence where neither it nor the latch was set. -/
theorem State.causeBegins_cases (src : Nat) :
    s.causeBegins src = s.setRbit (regFAULT_CAUSE (src / 32)) (src % 32) ∨
    s.causeBegins src = (s.setRbit (regFAULT_CAUSE (src / 32)) (src % 32)).faultOccurs src := by
  unfold State.causeBegins
  dsimp only
  split
  · exact .inl rfl
  · split
    · exact .inl rfl
    case isFalse h =>
      refine .inr ?_
      have hl : (s.setRbit (regFAULT_CAUSE (src / 32)) (src % 32)).faultLatched src = s.faultLatched src := by
        unfold State.faultLatched State.rbit
        rw [State.reg_setRbit_ne]
        simp only [regFAULT_CAUSE, regFAULT_LATCH]
        omega
      unfold State.faultOccurs
      rw [hl, if_neg h]

theorem State.causeBegins_frame (src : Nat) : s.causeBegins src = { s with
    regs := (s.causeBegins src).regs, courses := (s.causeBegins src).courses, tokens := (s.causeBegins src).tokens, seq := (s.causeBegins src).seq,
    reactMute := (s.causeBegins src).reactMute, releaseReq := (s.causeBegins src).releaseReq, freeCtr := (s.causeBegins src).freeCtr } := by
  rcases s.causeBegins_cases src with e | e <;> rw [e]
  · rfl
  · rw [State.faultOccurs_frame]
    rfl

/-- The supply word at a brown-out. -/
def State.browned (s : State) (bulk : BitVec 10) : State := ((s.setRfld regPWR_STATUS 0 10 bulk.toNat).setRbit regPWR_STATUS 31).setRbit regPWR_STATUS 30

theorem State.browned_spec (bulk : BitVec 10) : (s.browned bulk).rfld regPWR_STATUS 0 10 = bulk.toNat ∧ (s.browned bulk).rbit regPWR_STATUS 31 = true ∧
    (s.browned bulk).rbit regPWR_STATUS 30 = true ∧ (s.browned bulk).rbit regPWR_STATUS 28 = s.rbit regPWR_STATUS 28 ∧
    (∀ a, a ≠ regPWR_STATUS → (s.browned bulk).reg a = s.reg a) := by
  have hb (i : Nat) (h : i < 32) : (s.browned bulk).rbit regPWR_STATUS i =
      ((s.setRfld regPWR_STATUS 0 10 bulk.toNat).rbit regPWR_STATUS i || (decide (regPWR_STATUS = regPWR_STATUS) && decide (i = 31)) ||
        (decide (regPWR_STATUS = regPWR_STATUS) && decide (i = 30))) :=
    (State.rbit_setRbit _ _ _ _ _ h).trans (congrArg (· || _) (State.rbit_setRbit _ _ _ _ _ h))
  refine ⟨?_, ?_, ?_, ?_, fun a ha => ?_⟩
  · refine (State.rfld_setRbit _ _ _ _ _ _ (.inr (.inr (by decide)))).trans ((State.rfld_setRbit _ _ _ _ _ _ (.inr (.inr (by decide)))).trans ?_)
    exact (State.rfld_setRfld_self _ _ _ _ _ (by decide)).trans (Nat.mod_eq_of_lt bulk.isLt)
  · refine (hb 31 (by decide)).trans ?_
    rw [decide_eq_true (rfl : regPWR_STATUS = regPWR_STATUS), decide_eq_true (rfl : 31 = 31), Bool.true_and, Bool.or_true, Bool.true_or]
  · exact (hb 30 (by decide)).trans (Bool.or_true _)
  · refine (hb 28 (by decide)).trans (((Bool.or_false _).trans (Bool.or_false _)).trans ?_)
    exact (State.rbit_setRfld _ _ _ _ _ _ _ (by decide)).trans (if_neg (by decide))
  · exact (State.reg_setReg_ne _ _ ha).trans ((State.reg_setReg_ne _ _ ha).trans (State.reg_setReg_ne _ _ ha))

/-- The module hears of a brown-out: source 46 and EV79. -/
def State.brownHeard (s : State) : State := (s.causeBegins 46).raiseEvent 79 0

theorem State.brownHeard_spec (s : State) : s.brownHeard.reg regPWR_STATUS = s.reg regPWR_STATUS ∧ s.brownHeard.reg (regEVT_PAYLOAD 79) = 0 ∧
    s.brownHeard.rbit (regEVT_PEND 2) 15 = true ∧ s.brownHeard.rbit (regFAULT_CAUSE 1) 14 = true ∧
    (s.rbit (regFAULT_CAUSE 1) 14 = false → s.brownHeard.faultLatched 46 = true) ∧ s.brownHeard.sup = s.sup ∧ s.brownHeard.holdupDue = s.holdupDue := by
  have hf : s.brownHeard.sup = s.sup ∧ s.brownHeard.holdupDue = s.holdupDue := by
    rw [State.brownHeard, State.raiseEvent_frame, State.causeBegins_frame]
    exact ⟨rfl, rfl⟩
  refine ⟨?_, State.raiseEvent_payload _ _ _ (by decide), State.raiseEvent_pend_self _ _ _ (by decide), ?_, fun h => ?_, hf⟩
  · refine (State.raiseEvent_reg_block _ _ _ _ (by decide) (by decide)).trans ?_
    exact State.causeBegins_reg _ _ _ (by decide) (by decide) (by decide) (by decide) (by decide) (by decide)
  · refine (State.raiseEvent_rbit_block _ _ _ _ _ (by decide) (by decide)).trans ((State.causeBegins_cause s 46 46 (by decide) (by decide)).trans ?_)
    rw [decide_eq_true rfl, Bool.or_true]
  · have e : (s.causeBegins 46).faultLatched 46 = true := by
      rw [State.causeBegins_latch _ _ _ (by decide), h, decide_eq_true rfl]
      exact Bool.or_true _
    exact (State.raiseEvent_rbit_block _ _ _ _ _ (by decide) (by decide)).trans e

theorem exec_brownOut_due (bulk : BitVec 10) (h1 : s.railsUp = true) (h2 : bulk.toNat < 330) (h3 : s.rbit regPWR_STATUS 31 = false) :
    exec (.brownOut bulk) s = .next (if s.modeCur = 2 then s.browned bulk
      else if (s.browned bulk).brownHeard.sup.ticked then { (s.browned bulk).brownHeard with holdupDue := true }
      else (s.browned bulk).brownHeard.setRbit regPWR_STATUS 28 ) := by
  have hf : (s.browned bulk).brownHeard.sup = s.sup := (s.browned bulk).brownHeard_spec.2.2.2.2.2.1
  rw [hf]
  refine congrArg Host.Outcome.next (if_pos ⟨h1, h2, ?_⟩)
  rw [h3]
  rfl

theorem exec_brownOut_awake (bulk : BitVec 10) (h1 : s.railsUp = true) (h2 : bulk.toNat < 330) (h3 : s.rbit regPWR_STATUS 31 = false) (h4 : s.modeCur ≠ 2) :
    ∃ t, exec (.brownOut bulk) s = .next t ∧ t.rfld regPWR_STATUS 0 10 = bulk.toNat ∧ t.rbit regPWR_STATUS 31 = true ∧ t.rbit regPWR_STATUS 30 = true ∧
      t.reg (regEVT_PAYLOAD 79) = 0 ∧ t.rbit (regEVT_PEND 2) 15 = true ∧ t.rbit (regFAULT_CAUSE 1) 14 = true ∧
      (s.rbit (regFAULT_CAUSE 1) 14 = false → t.faultLatched 46 = true) ∧
      (s.sup.ticked = true → t.holdupDue = true ∧ t.rbit regPWR_STATUS 28 = s.rbit regPWR_STATUS 28) ∧
      (s.sup.ticked = false → t.holdupDue = s.holdupDue ∧ t.rbit regPWR_STATUS 28 = true) := by
  refine ⟨_, (exec_brownOut_due bulk h1 h2 h3).trans (congrArg _ (if_neg h4)), ?_⟩
  obtain ⟨b1, b2, b3, b4, b5⟩ := s.browned_spec bulk
  have hc : (s.browned bulk).rbit (regFAULT_CAUSE 1) 14 = s.rbit (regFAULT_CAUSE 1) 14 := congrArg (bit · 14) (b5 _ (by decide))
  have hd : (s.browned bulk).sup = s.sup ∧ (s.browned bulk).holdupDue = s.holdupDue := ⟨rfl, rfl⟩
  generalize s.browned bulk = b at *
  obtain ⟨e1, e2, e3, e4, e5, e6, e7⟩ := b.brownHeard_spec
  generalize b.brownHeard = v at *
  obtain ⟨hd1, hd2⟩ := hd
  rw [hc] at e5
  rw [e6, hd1]
  have hfl : v.rfld regPWR_STATUS 0 10 = bulk.toNat := (congrArg (fld · 0 10) e1).trans b1
  have hbt (i : Nat) : v.rbit regPWR_STATUS i = b.rbit regPWR_STATUS i := congrArg (bit · i) e1
  cases s.sup.ticked with
  | true =>
    rw [if_pos rfl]
    exact ⟨hfl, (hbt 31).trans b2, (hbt 30).trans b3, e2, e3, e4, e5, fun _ => ⟨rfl, (hbt 28).trans b4⟩, fun h => Bool.noConfusion h⟩
  | false =>
    rw [if_neg Bool.false_ne_true]
    have hp (i : Nat) (hi : i < 32) (h : v.rbit regPWR_STATUS i = true) : (v.setRbit regPWR_STATUS 28).rbit regPWR_STATUS i = true := by
      rw [State.rbit_setRbit _ _ _ _ _ hi, h, Bool.true_or]
    have hne (a i : Nat) (ha : a ≠ regPWR_STATUS) : (v.setRbit regPWR_STATUS 28).rbit a i = v.rbit a i := congrArg (bit · i) (State.reg_setReg_ne _ _ ha)
    refine ⟨(State.rfld_setRbit _ _ _ _ _ _ (.inr (.inr (by decide)))).trans hfl, hp 31 (by decide) ((hbt 31).trans b2), hp 30 (by decide) ((hbt 30).trans b3),
      (State.reg_setReg_ne _ _ (by decide)).trans e2, (hne _ _ (by decide)).trans e3, (hne _ _ (by decide)).trans e4, fun h => (hne _ _ (by decide)).trans (e5 h),
      fun h => Bool.noConfusion h, fun _ => ⟨e7.trans hd2, ?_⟩⟩
    refine (State.rbit_setRbit _ _ _ _ _ (by decide)).trans ?_
    rw [decide_eq_true rfl, decide_eq_true rfl]
    exact Bool.or_true _

theorem exec_brownOut_deep (bulk : BitVec 10) (h1 : s.railsUp = true) (h2 : bulk.toNat < 330) (h3 : s.rbit regPWR_STATUS 31 = false) (h4 : s.modeCur = 2) :
    exec (.brownOut bulk) s = .next (s.browned bulk) := (exec_brownOut_due bulk h1 h2 h3).trans (congrArg _ (if_pos h4))

theorem exec_brownOut_idle (bulk : BitVec 10) (h : s.railsUp = false ∨ 330 ≤ bulk.toNat ∨ s.rbit regPWR_STATUS 31 = true) : exec (.brownOut bulk) s = .next s := by
  refine congrArg Host.Outcome.next (if_neg ?_)
  rintro ⟨g1, g2, g3⟩
  rcases h with h | h | h
  · exact Bool.false_ne_true (h.symm.trans g1)
  · omega
  · rw [h] at g3
    exact Bool.false_ne_true g3

theorem exec_bulkRecover_due (bulk : BitVec 10) (h1 : s.railsUp = true) (h2 : 370 < bulk.toNat) (h3 : s.rbit regPWR_STATUS 31 = true) : exec (.bulkRecover bulk) s =
    .next (((s.setRfld regPWR_STATUS 0 10 bulk.toNat).putRbit regPWR_STATUS 31 false).putRbit (regFAULT_CAUSE 1) 14 false) :=
  congrArg Host.Outcome.next (if_pos ⟨h1, h2, h3⟩)

theorem exec_bulkRecover_idle (bulk : BitVec 10) (h : bulk.toNat ≤ 370 ∨ s.rbit regPWR_STATUS 31 = false) : exec (.bulkRecover bulk) s = .next s := by
  refine congrArg Host.Outcome.next (if_neg ?_)
  rintro ⟨-, g2, g3⟩
  rcases h with h | h
  · omega
  · exact Bool.false_ne_true (h.symm.trans g3)

/-! ## The hold-up store (R128, R342) -/

theorem exec_holdupCapture_due (h1 : s.holdupDue = true) (h2 : s.ticking = true) : exec .holdupCapture s =
    .next { s with holdupDue := false, holdup := s.holdup ++ [s.holdupWords] } := congrArg Host.Outcome.next (if_pos ⟨h1, h2⟩)

theorem exec_holdupCapture_idle (h : s.holdupDue = false ∨ s.ticking = false) : exec .holdupCapture s = .next s := by
  refine congrArg Host.Outcome.next (if_neg ?_)
  rintro ⟨g1, g2⟩
  rcases h with h | h
  · exact Bool.false_ne_true (h.symm.trans g1)
  · exact Bool.false_ne_true (h.symm.trans g2)

theorem exec_holdupStoreDone_none (h : s.holdup = []) : exec .holdupStoreDone s = .next s := by
  refine congrArg Host.Outcome.next ?_
  rw [h]

theorem exec_holdupStoreDone_some (ws : List Word) (rest : List (List Word)) (h : s.holdup = ws :: rest) :
    exec .holdupStoreDone s = .next (({ s with holdup := rest } : State).logStore ws) := by
  refine congrArg Host.Outcome.next ?_
  rw [h]

/-- Bytes written one after another read as written. -/
theorem State.flashPut_byte (bs : List Byte) (a : Nat) (t : State) (i : Nat) (h : i < bs.length) : (t.flashPut a bs).flashByte (a + i) = nthD bs i 0 := by
  induction bs generalizing a t i with
  | nil => exact nomatch h
  | cons v bs ih =>
    cases i with
    | zero =>
      have hf := State.flashPut_spec bs (a + 1) (t.setFlash a v)
      exact (hf.bytes a (.inl (Nat.lt_succ_self a))).trans (flashByte_set_self t a v)
    | succ i =>
      have e := ih (a + 1) (t.setFlash a v) i (Nat.lt_of_succ_lt_succ h)
      rw [Nat.add_assoc, Nat.add_comm 1 i] at e
      exact e

theorem logEntry_length (seq : Word) (ws : List Word) (h : ws.length = 13) : (wordsLE (logEntry seq ws)).length = 64 := by
  rw [wordsLE_length, logEntry, List.length_append, List.length_append, h]
  rfl

/-- The sequence number of the next log entry, and the state that follows its choice (R342). -/
def State.logSeqNext (s : State) : Word × State :=
  if s.rbit regBOOT_LOG 31 then (s.flashWord (logBase + 64 * s.rfld regBOOT_LOG 16 14 + 4) + 1, s) else s.draw

/-- The log after an entry in slot `k`: its bytes, the position, the sector behind. -/
def State.logEntered (s : State) (k : Nat) (seq : Word) (ws : List Word) : State :=
  let s2 := (s.flashPut (logBase + 64 * k) (wordsLE (logEntry seq ws))).setReg regBOOT_LOG (BitVec.ofNat 32 (0x80000000 + k * 65536 + (k + 1) % 16384))
  (if k % 1024 = 0 then s2.flashErase (logBase + 65536 * ((k / 1024 + 1) % 16)) 65536 else s2).setRbit regPWR_STATUS 29

theorem State.logStore_blank (ws : List Word) (h : s.flashOn = true) (hb : s.flashBlank (logBase + 64 * s.rfld regBOOT_LOG 0 14) 64 = true) :
    s.logStore ws = s.logSeqNext.2.logEntered (s.rfld regBOOT_LOG 0 14) s.logSeqNext.1 ws := by
  refine (if_neg ?_).trans (if_neg ?_)
  · rw [h]
    exact Bool.false_ne_true
  · rw [hb]
    exact Bool.false_ne_true

theorem State.logStore_full (ws : List Word) (h : s.flashOn = true) (hb : s.flashBlank (logBase + 64 * s.rfld regBOOT_LOG 0 14) 64 = false) :
    s.logStore ws = s.setRbit regBOOT_STATUS 23 := by
  refine (if_neg ?_).trans (if_pos ?_)
  · rw [h]
    exact Bool.false_ne_true
  · rw [hb]
    rfl

theorem State.logSeqNext_spec (s : State) : (∃ c, s.logSeqNext.2 = { s with freeCtr := c }) ∧
    (s.rbit regBOOT_LOG 31 = true → s.logSeqNext.1 = s.flashWord (logBase + 64 * s.rfld regBOOT_LOG 16 14 + 4) + 1) := by
  unfold State.logSeqNext
  split
  · exact ⟨⟨s.freeCtr, rfl⟩, fun _ => rfl⟩
  case isFalse h => exact ⟨⟨_, rfl⟩, fun g => absurd g h⟩

/-- A position word of the log. -/
theorem logWord_fields (k : Nat) (h : k < 16384) (w : Word) (hw : w = BitVec.ofNat 32 (0x80000000 + k * 65536 + (k + 1) % 16384)) :
    bit w 31 = true ∧ fld w 16 14 = k ∧ fld w 0 14 = (k + 1) % 16384 := by
  have hm : (k + 1) % 16384 < 16384 := Nat.mod_lt _ (by decide)
  generalize (k + 1) % 16384 = m at *
  have hn : w.toNat = 2147483648 + k * 65536 + m := by
    rw [hw, BitVec.toNat_ofNat]
    omega
  refine ⟨?_, ?_, ?_⟩
  · rw [bit, BitVec.getLsbD, hn, Nat.testBit_eq_decide_div_mod_eq]
    exact decide_eq_true (by omega)
  · show w.toNat / 65536 % 16384 = k
    omega
  · show w.toNat / 1 % 16384 = m
    omega

/-- The bytes after an entry: those of the slot, and beyond the log none other. -/
theorem State.logEntered_bytes (s : State) (k : Nat) (seq : Word) (ws : List Word) (hk : k < 16384) (hl : ws.length = 13) :
    (∀ i, i < 64 → (s.logEntered k seq ws).flashByte (logBase + 64 * k + i) = nthD (wordsLE (logEntry seq ws)) i 0) ∧
    (∀ b, (b < logBase ∨ logBase + 0x100000 ≤ b) → (s.logEntered k seq ws).flashByte b = s.flashByte b) := by
  have hlen := logEntry_length seq ws hl
  generalize hw : wordsLE (logEntry seq ws) = bs at *
  have hput := State.flashPut_spec bs (logBase + 64 * k) s
  generalize hp : s.flashPut (logBase + 64 * k) bs = p at *
  have hbyte : ∀ i, i < 64 → p.flashByte (logBase + 64 * k + i) = nthD bs i 0 := fun i hi => by
    rw [← hp]
    exact State.flashPut_byte bs _ s i (hlen ▸ hi)
  have he : ∀ b, (s.logEntered k seq ws).flashByte b =
      if k % 1024 = 0 ∧ logBase + 65536 * ((k / 1024 + 1) % 16) ≤ b ∧ b < logBase + 65536 * ((k / 1024 + 1) % 16) + 65536 then 0xFF else p.flashByte b := fun b => by
    have hu : s.logEntered k seq ws = (if k % 1024 = 0 then
        (p.setReg regBOOT_LOG (BitVec.ofNat 32 (0x80000000 + k * 65536 + (k + 1) % 16384))).flashErase (logBase + 65536 * ((k / 1024 + 1) % 16)) 65536
        else p.setReg regBOOT_LOG (BitVec.ofNat 32 (0x80000000 + k * 65536 + (k + 1) % 16384))).setRbit regPWR_STATUS 29 := by
      rw [State.logEntered, hw, hp]
    rw [hu]
    generalize (BitVec.ofNat 32 (0x80000000 + k * 65536 + (k + 1) % 16384)) = w
    by_cases hz : k % 1024 = 0
    · rw [if_pos hz]
      refine (State.flashErase_byte (p.setReg regBOOT_LOG w) _ _ b).trans ?_
      simp only [hz, true_and]
      rfl
    · rw [if_neg hz, if_neg fun g => hz g.1]
      rfl
  refine ⟨fun i hi => (he _).trans ((if_neg ?_).trans (hbyte i hi)), fun b hb => (he b).trans ((if_neg ?_).trans (hput.bytes b ?_))⟩
  · omega
  · omega
  · omega

theorem State.logEntered_shows (s : State) (k : Nat) (seq : Word) (ws : List Word) (hk : k < 16384) :
    (s.logEntered k seq ws).holdup = s.holdup ∧ (s.logEntered k seq ws).rbit regPWR_STATUS 29 = true ∧ (s.logEntered k seq ws).rbit regBOOT_LOG 31 = true ∧
    (s.logEntered k seq ws).rfld regBOOT_LOG 16 14 = k ∧ (s.logEntered k seq ws).rfld regBOOT_LOG 0 14 = (k + 1) % 16384 := by
  obtain ⟨f, c, hf⟩ := (State.flashPut_spec (wordsLE (logEntry seq ws)) (logBase + 64 * k) s).frame
  unfold State.logEntered
  rw [hf]
  generalize hw : BitVec.ofNat 32 (0x80000000 + k * 65536 + (k + 1) % 16384) = w
  obtain ⟨h1, h2, h3⟩ := logWord_fields k hk w hw.symm
  generalize hx : ({ s with flash := f, freeCtr := c } : State) = x
  have hr : (if k % 1024 = 0 then (x.setReg regBOOT_LOG w).flashErase (logBase + 65536 * ((k / 1024 + 1) % 16)) 65536 else x.setReg regBOOT_LOG w).reg regBOOT_LOG = w := by
    split
    · exact State.reg_setReg_self x _ _
    · exact State.reg_setReg_self x _ _
  have hh : (if k % 1024 = 0 then (x.setReg regBOOT_LOG w).flashErase (logBase + 65536 * ((k / 1024 + 1) % 16)) 65536 else x.setReg regBOOT_LOG w).holdup = s.holdup := by
    rw [← hx]
    split <;> rfl
  dsimp only
  generalize (if k % 1024 = 0 then (x.setReg regBOOT_LOG w).flashErase (logBase + 65536 * ((k / 1024 + 1) % 16)) 65536 else x.setReg regBOOT_LOG w) = y at *
  have hy : (y.setRbit regPWR_STATUS 29).reg regBOOT_LOG = w := (State.reg_setReg_ne _ _ (by decide)).trans hr
  refine ⟨hh, ?_, ?_, ?_, ?_⟩
  · refine (State.rbit_setRbit _ _ _ _ _ (by decide)).trans ?_
    rw [decide_eq_true rfl, decide_eq_true rfl]
    exact Bool.or_true _
  · exact (congrArg (bit · 31) hy).trans h1
  · exact (congrArg (fld · 16 14) hy).trans h2
  · exact (congrArg (fld · 0 14) hy).trans h3

/-- A capture that finds its slot erased is stored in it. -/
theorem State.logStore_stored (ws : List Word) (h : s.flashOn = true) (hl : ws.length = 13) (hb : s.flashBlank (logBase + 64 * s.rfld regBOOT_LOG 0 14) 64 = true) :
    ∃ seq, (s.logStore ws).holdup = s.holdup ∧ (s.logStore ws).rbit regPWR_STATUS 29 = true ∧
      (∀ i, i < 64 → (s.logStore ws).flashByte (logBase + 64 * s.rfld regBOOT_LOG 0 14 + i) = nthD (wordsLE (logEntry seq ws)) i 0) ∧
      (s.rbit regBOOT_LOG 31 = true → seq = s.flashWord (logBase + 64 * s.rfld regBOOT_LOG 16 14 + 4) + 1) ∧
      (s.logStore ws).rbit regBOOT_LOG 31 = true ∧ (s.logStore ws).rfld regBOOT_LOG 16 14 = s.rfld regBOOT_LOG 0 14 ∧
      (s.logStore ws).rfld regBOOT_LOG 0 14 = (s.rfld regBOOT_LOG 0 14 + 1) % 16384 ∧
      (∀ b, (b < logBase ∨ logBase + 0x100000 ≤ b) → (s.logStore ws).flashByte b = s.flashByte b) := by
  have hk : s.rfld regBOOT_LOG 0 14 < 16384 := Nat.mod_lt _ (by decide)
  obtain ⟨⟨c, hc⟩, hq⟩ := s.logSeqNext_spec
  rw [State.logStore_blank ws h hb, hc]
  generalize s.rfld regBOOT_LOG 0 14 = k at *
  obtain ⟨h1, h2⟩ := State.logEntered_bytes { s with freeCtr := c } k s.logSeqNext.1 ws hk hl
  obtain ⟨g1, g2, g3, g4, g5⟩ := State.logEntered_shows { s with freeCtr := c } k s.logSeqNext.1 ws hk
  exact ⟨_, g1, g2, h1, hq, g3, g4, g5, h2⟩

/-! ## Train lines and auxiliary rails (R312, R313, R388) -/

/-- The input word with a new level. -/
def State.lineTaken (s : State) (i : Nat) (level : Bool) : State := (s.putRbit regHVIO_TLSTAT i level).setRbit regHVIO_TLSTAT (8 + i)

theorem State.lineTaken_bit (i k : Nat) (level : Bool) (hi : i < 8) (hk : k < 32) :
    (s.lineTaken i level).rbit regHVIO_TLSTAT k = ((if k = i then level else s.rbit regHVIO_TLSTAT k) || decide (k = 8 + i)) := by
  refine (State.rbit_setRbit _ _ _ _ _ hk).trans ?_
  rw [State.rbit_putRbit _ _ _ _ _ _ (by omega), decide_eq_true rfl, Bool.true_and]
  simp only [true_and]

theorem State.lineTaken_spec (i : Fin 8) (level : Bool) : OnlyRegs [regHVIO_TLSTAT] s (s.lineTaken i.val level) ∧
    (s.lineTaken i.val level).rbit regHVIO_TLSTAT i.val = level ∧ (s.lineTaken i.val level).rbit regHVIO_TLSTAT (8 + i.val) = true ∧
    (∀ k, k < 32 → k ≠ i.val → k ≠ 8 + i.val → (s.lineTaken i.val level).rbit regHVIO_TLSTAT k = s.rbit regHVIO_TLSTAT k) := by
  refine ⟨⟨rfl, fun a ha => ?_⟩, ?_, ?_, fun k hk h1 h2 => ?_⟩
  · have hn : a ≠ regHVIO_TLSTAT := fun e => ha (List.mem_singleton.2 e)
    exact (State.reg_setReg_ne _ _ hn).trans (State.reg_setReg_ne _ _ hn)
  · rw [State.lineTaken_bit _ _ _ i.isLt (by omega), if_pos rfl, decide_eq_false (by omega), Bool.or_false]
  · rw [State.lineTaken_bit _ _ _ i.isLt (by omega), decide_eq_true rfl, Bool.or_true]
  · rw [State.lineTaken_bit _ _ _ i.isLt hk, if_neg h1, decide_eq_false h2, Bool.or_false]

theorem exec_trainLineInput_new (i : Fin 8) (level : Bool) (h : s.rbit regHVIO_TLSTAT i.val ≠ level) : exec (.trainLineInputChange i level) s =
    .next ((if s.modeCur = 2 then s.lineTaken i.val level
      else (s.lineTaken i.val level).raiseEvent 80 (BitVec.ofNat 32 ((s.lineTaken i.val level).rfld regHVIO_TLSTAT 0 8))).wakeBy (.tl i)) := by
  refine congrArg Host.Outcome.next ((if_neg h).trans (congrArg (State.wakeBy · (.tl i)) ?_))
  have hd : (s.lineTaken i.val level).deep = decide (s.modeCur = 2) :=
    congrArg (fun w => decide (fld w 4 2 = 2)) ((State.lineTaken_spec i level).1.2 regGLOBAL_MODE (by decide))
  refine Eq.trans (rfl : _ = (s.lineTaken i.val level).awakeEvent 80 (BitVec.ofNat 32 ((s.lineTaken i.val level).rfld regHVIO_TLSTAT 0 8))) ?_
  rw [State.awakeEvent, hd]
  simp only [decide_eq_true_eq]

theorem exec_trainLineInput_same (i : Fin 8) (level : Bool) (h : s.rbit regHVIO_TLSTAT i.val = level) : exec (.trainLineInputChange i level) s = .next s :=
  congrArg Host.Outcome.next (if_pos h)

theorem exec_trainLineOutput_spec (m : Master) (v : Word) : ∃ t, exec (.trainLineOutputWrite m v) s = .next t ∧ t.reg regHVIO_TOCTRL = v &&& 3 ∧
    (∀ k, k < 2 → (k ∈ t.toOpen ↔ k ∈ s.toOpen ∧ ¬(s.rbit regHVIO_TOCTRL k = false ∧ bit v k = true))) := by
  refine ⟨_, rfl, State.reg_setReg_self s regHVIO_TOCTRL _, fun k _ => List.mem_filter.trans (and_congr_right fun _ => ?_)⟩
  cases s.rbit regHVIO_TOCTRL k <;> cases bit v k <;> decide

theorem State.toClosed_congr (j : Nat) (hr : ∀ a, a = regHVIO_TOCTRL ∨ a = regCLK_STATUS ∨ a = regBOOT_STATUS ∨ a = regPAIR_STATUS → t.reg a = s.reg a)
    (hu : t.railsUp = s.railsUp) (ho : t.toOpen.contains j = s.toOpen.contains j) : t.toClosed j = s.toClosed j := by
  unfold State.toClosed State.toForced State.standby State.pairState State.bootStage State.supState State.rbit State.rfld
  rw [hr regHVIO_TOCTRL (.inl rfl), hr regCLK_STATUS (.inr (.inl rfl)), hr regBOOT_STATUS (.inr (.inr (.inl rfl))), hr regPAIR_STATUS (.inr (.inr (.inr rfl))), hu, ho]

/-- A closed output opens with OC and source 52, and no other one does (R313). -/
theorem exec_trainLineOvercurrent_closed (j : Fin 2) (h : s.toClosed j.val = true) : ∃ t, exec (.trainLineOvercurrent j) s = .next t ∧ t.toClosed j.val = false ∧
    t.rbit regHVIO_TOSTAT (4 + j.val) = true ∧ t.faultLatched 52 = true ∧ ∀ k, k ≠ j.val → t.toClosed k = s.toClosed k := by
  refine ⟨_, congrArg Host.Outcome.next (if_pos h), ?_⟩
  generalize hb : ({ s with toOpen := s.toOpen ++ [j.val] } : State) = b
  have hreg : ∀ a, a / 0x10000 ≠ 3 → a / 0x10000 ≠ 4 → ((b.setRbit regHVIO_TOSTAT (4 + j.val)).faultOccurs 52).reg a = (b.setRbit regHVIO_TOSTAT (4 + j.val)).reg a :=
    fun a h3 h4 => State.faultOccurs_reg _ _ _ (by decide) h3 (fun e => h4 (e ▸ rfl)) (fun e => h4 (e ▸ rfl)) (fun e => h4 (e ▸ rfl)) fun e => h4 (e ▸ rfl)
  have hown : ∀ a, a = regHVIO_TOCTRL ∨ a = regCLK_STATUS ∨ a = regBOOT_STATUS ∨ a = regPAIR_STATUS →
      ((b.setRbit regHVIO_TOSTAT (4 + j.val)).faultOccurs 52).reg a = s.reg a := fun a ha => by
    have hs : b.reg a = s.reg a := by
      rw [← hb]
      rfl
    rcases ha with rfl | rfl | rfl | rfl <;> exact (hreg _ (by decide) (by decide)).trans ((State.reg_setReg_ne _ _ (by decide)).trans hs)
  have hfr : ((b.setRbit regHVIO_TOSTAT (4 + j.val)).faultOccurs 52).toOpen = s.toOpen ++ [j.val] ∧
      ((b.setRbit regHVIO_TOSTAT (4 + j.val)).faultOccurs 52).railsUp = s.railsUp := by
    rw [State.faultOccurs_frame, ← hb]
    exact ⟨rfl, rfl⟩
  refine ⟨?_, ?_, ?_, fun k hk => State.toClosed_congr k hown hfr.2 ?_⟩
  · rw [State.toClosed, hfr.1, List.contains_eq_mem, decide_eq_true (List.mem_append_right _ (List.mem_singleton.2 rfl))]
    exact Bool.and_false _
  · refine (congrArg (bit · (4 + j.val)) (hreg _ (by decide) (by decide))).trans ((State.rbit_setRbit _ _ _ _ _ (by omega)).trans ?_)
    rw [decide_eq_true rfl, decide_eq_true rfl]
    exact Bool.or_true _
  · rw [State.faultOccurs_latch _ _ _ (by decide), decide_eq_true rfl, Bool.or_true]
  · rw [hfr.1, List.contains_eq_mem, List.contains_eq_mem, decide_eq_decide, List.mem_append, List.mem_singleton]
    exact or_iff_left hk

theorem exec_trainLineOvercurrent_open (j : Fin 2) (h : s.toClosed j.val = false) : exec (.trainLineOvercurrent j) s = .next s :=
  congrArg Host.Outcome.next (if_neg (h ▸ Bool.false_ne_true))

/-- The number of an auxiliary rail among those that are off. -/
def railNo : AuxRail → Nat
  | .v3p3 => 0
  | .v1p8 => 1

theorem exec_currentLimit (rail : AuxRail) : exec (.currentLimitShutdown rail) s =
    .next (if s.railsOff.contains (railNo rail) then s else { s with railsOff := s.railsOff ++ [railNo rail] }) := by cases rail <;> rfl

theorem exec_currentLimit_new (rail : AuxRail) (h : railNo rail ∉ s.railsOff) :
    exec (.currentLimitShutdown rail) s = .next { s with railsOff := s.railsOff ++ [railNo rail] } := by
  refine (exec_currentLimit rail).trans (congrArg _ (if_neg ?_))
  rw [List.contains_eq_mem, decide_eq_true_eq]
  exact h

theorem exec_currentLimit_flash : ∃ t, exec (.currentLimitShutdown .v1p8) s = .next t ∧ t.flashOn = false := by
  refine ⟨_, exec_currentLimit .v1p8, ?_⟩
  have hm : ∀ u : State, u.railsOff.contains 1 = true → u.flashOn = false := fun u h => by
    rw [State.flashOn, h]
    rfl
  refine hm _ ?_
  split
  case isTrue h => exact h
  case isFalse h =>
    rw [List.contains_eq_mem]
    exact decide_eq_true (List.mem_append_right _ (List.mem_singleton.2 rfl))

/-- Settles O53, clause by clause. -/
theorem supplyAndLines : Obligations.SupplyAndLines := by
  unfold Obligations.SupplyAndLines
  refine ⟨fun s bulk => ⟨exec_brownOut_awake bulk, exec_brownOut_deep bulk, exec_brownOut_idle bulk, exec_holdupCapture_due, exec_holdupCapture_idle,
    exec_holdupStoreDone_none, fun ws rest h hf hl => ⟨fun hb => ?_, fun hb => ?_⟩, exec_bulkRecover_due bulk, exec_bulkRecover_idle bulk⟩,
    fun s m v i j level => ⟨exec_trainLineInput_same i level, fun h => ?_, exec_trainLineOutput_spec m v, exec_trainLineOvercurrent_closed j,
      exec_trainLineOvercurrent_open j, exec_currentLimit_new .v1p8, exec_currentLimit_new .v3p3, exec_currentLimit_flash⟩⟩
  · obtain ⟨seq, g1, g2, g3, g4, g5, g6, g7, g8⟩ := State.logStore_stored (s := { s with holdup := rest }) ws hf hl hb
    exact ⟨_, seq, exec_holdupStoreDone_some ws rest h, g1, g2, g3, g4, g5, g6, g7, g8⟩
  · exact (exec_holdupStoreDone_some ws rest h).trans (congrArg _ (State.logStore_full (s := { s with holdup := rest }) ws hf hb))
  · obtain ⟨h1, h2, h3, h4⟩ := State.lineTaken_spec (s := s) i level
    exact ⟨_, h1, h2, h3, h4, exec_trainLineInput_new i level h⟩

end Sys2Proof.Machine
end

section
/-! The clock supervisor, losses of PLLs, dividers and spread (R299 to R304, R309, R319). -/

namespace Sys2Proof.Machine

-- One theorem after another, so that the compile of the whole text stays within its memory.
set_option Elab.async false

variable {s t u : State}

/-! ## What follows a loss -/

/-- After a loss of a clock: only the blocks FAULT, EVT, ASRC, TIME and REF have changed, and no live cause but those of the selector has ended. -/
structure LossKept (s t : State) : Prop where
  blocks : OnlyBlocks [3, 4, 9, 13, 14] s t
  causes : ∀ k, k < 256 → k ≠ 47 → k ≠ 48 → s.rbit (regFAULT_CAUSE (k / 32)) (k % 32) = true → t.rbit (regFAULT_CAUSE (k / 32)) (k % 32) = true
  latches : ∀ k, k < 256 → s.faultLatched k = true → t.faultLatched k = true

namespace LossKept

theorem refl (s : State) : LossKept s s := ⟨.refl _ _, fun _ _ _ _ h => h, fun _ _ h => h⟩

theorem trans (h : LossKept s t) (g : LossKept t u) : LossKept s u :=
  ⟨h.blocks.trans g.blocks, fun k hk h1 h2 e => g.causes k hk h1 h2 (h.causes k hk h1 h2 e), fun k hk e => g.latches k hk (h.latches k hk e)⟩

/-- A change that leaves the block FAULT alone. -/
theorem of_blocks {bs : List Nat} (h : LossKept s t) (g : OnlyBlocks bs t u) (hb : bs ⊆ [4, 9, 13, 14]) : LossKept s u := by
  have hf : ∀ a, a / 0x10000 = 3 → u.reg a = t.reg a := fun a ha => g a fun hm => by
    have := hb hm
    rw [ha] at this
    exact absurd this (by decide)
  refine h.trans ⟨fun a ha => g a fun hm => ha (List.mem_cons_of_mem 3 (hb hm)), fun k hk _ _ e => ?_, fun k hk e => ?_⟩
  · exact (congrArg (bit · (k % 32)) (hf _ (by rw [regFAULT_CAUSE]; omega))).trans e
  · exact (congrArg (bit · (k % 32)) (hf (regFAULT_LATCH (k / 32)) (by rw [regFAULT_LATCH]; omega))).trans e

theorem ite {c : Prop} [Decidable c] (h : LossKept s t) (g : LossKept s u) : LossKept s (if c then t else u) := by
  split
  · exact h
  · exact g

theorem foldl {α : Type} {f : State → α → State} {l : List α} (hf : ∀ t, ∀ a ∈ l, LossKept s t → LossKept s (f t a)) (h : LossKept s t) :
    LossKept s (l.foldl f t) := by
  induction l generalizing t with
  | nil => exact h
  | cons a l ih => exact ih (fun t b hb => hf t b (List.mem_cons_of_mem a hb)) (hf t a List.mem_cons_self h)

theorem setReg {a : Nat} {v : Word} (ha : a / 0x10000 ∈ [4, 9, 13, 14]) (h : LossKept s t) : LossKept s (t.setReg a v) :=
  h.of_blocks (.setReg ha v (.refl _ t)) (List.Subset.refl _)

theorem raiseEvent {e : Nat} {pl : Word} (he : e < 128) (h : LossKept s t) : LossKept s (t.raiseEvent e pl) :=
  h.of_blocks (.raiseEvent (List.mem_singleton.2 rfl) he (.refl [4] t)) (by decide)

theorem causeBegins {src : Nat} (hs : src < 256) (h : LossKept s t) : LossKept s (t.causeBegins src) := by
  refine h.trans ⟨.causeBegins (by decide) (by decide) hs (.refl _ t), fun k hk _ _ e => ?_, fun k hk e => ?_⟩
  · rw [State.causeBegins_cause _ _ _ hs hk, e, Bool.true_or]
  · rw [State.causeBegins_latch _ _ _ hk, e, Bool.true_or]

/-- A cause of the selector ends. -/
theorem causeEnds {src : Nat} (hs : src = 47 ∨ src = 48) (h : LossKept s t) : LossKept s (t.causeEnds src) := by
  have hlt : src < 256 := by omega
  refine h.trans ⟨.causeEnds (by decide) hlt (.refl _ t), fun k hk h1 h2 e => ?_, fun k hk e => ?_⟩
  · refine (State.rbit_putRbit _ _ _ _ _ _ (Nat.mod_lt _ (by decide))).trans ((if_neg ?_).trans e)
    rw [regFAULT_CAUSE, regFAULT_CAUSE]
    omega
  · refine (congrArg (bit · (k % 32)) (State.reg_setReg_ne t _ ?_)).trans e
    rw [regFAULT_LATCH, regFAULT_CAUSE]
    omega

theorem setCause {src : Nat} {b : Bool} (hs : src = 47 ∨ src = 48) (h : LossKept s t) : LossKept s (t.setCause src b) :=
  ite (causeBegins (by omega) h) (causeEnds hs h)

theorem alignBits (h : LossKept s t) : LossKept s t.alignBits := h.of_blocks (.alignBits (List.mem_singleton.2 rfl) (.refl [13] t)) (by decide)

theorem hoUpdate (h : LossKept s t) : LossKept s t.hoUpdate := ite (setReg (by decide) h) (setReg (by decide) (setReg (by decide) h))

theorem refHead {st : Nat} (h : LossKept s t) : LossKept s (t.refHead st) := by
  have h1 : LossKept s (t.setRfld regREF_STATE 0 3 st) := setReg (by decide) h
  have h2 : LossKept s (match histBit st with | some b => (t.setRfld regREF_STATE 0 3 st).setRbit regREF_HIST b | none => t.setRfld regREF_STATE 0 3 st) := by
    split
    · exact setReg (by decide) h1
    · exact h1
  exact ite (setReg (by decide) h2) (ite (hoUpdate (setReg (by decide) h2)) h2)

theorem refGo {st : Nat} (h : LossKept s t) : LossKept s (t.refGo st) := by
  by_cases e : t.refState = st
  · rw [State.refGo_eq t st e]
    exact alignBits (setReg (by decide) h)
  · rw [State.refGo_ne t st e]
    exact alignBits (raiseEvent (by decide) (setCause (.inr rfl) (setCause (.inl rfl) (refHead h))))

theorem deselect (h : LossKept s t) : LossKept s t.deselect :=
  ite (setReg (by decide) (setReg (by decide) (h.of_blocks (fun _ _ => rfl : OnlyBlocks [4] t t.draw.2) (by decide)))) h

theorem refFault (h : LossKept s t) : LossKept s t.refFault := ite h (refGo (setReg (by decide) (deselect h)))

end LossKept

theorem State.refFault_state : s.refFault.refState = 4 := by
  unfold State.refFault
  split
  case isTrue h => exact h
  case isFalse h => exact (State.refGo_state _ 4 (by decide)).1

/-- A register of another block is what it was after a loss. -/
theorem LossKept.reg (h : LossKept s t) {a : Nat} (ha : a / 0x10000 ∉ [3, 4, 9, 13, 14]) : t.reg a = s.reg a := h.blocks a ha

theorem LossKept.rbit (h : LossKept s t) {a i : Nat} (ha : a / 0x10000 ∉ [3, 4, 9, 13, 14]) : t.rbit a i = s.rbit a i := congrArg (bit · i) (h.reg ha)

theorem LossKept.rfld (h : LossKept s t) {a lo len : Nat} (ha : a / 0x10000 ∉ [3, 4, 9, 13, 14]) : t.rfld a lo len = s.rfld a lo len :=
  congrArg (fld · lo len) (h.reg ha)

/-! ## SLOW on the limp clock (R135) -/

theorem State.limpClock_slow : s.limpClock.rbit regRIDGE_CTRL 0 = true := by
  unfold State.limpClock
  split
  case isTrue h => exact h
  case isFalse h =>
    refine ((State.rbit_putRbit _ _ _ _ _ _ (by decide)).trans (if_neg (by decide))).trans ?_
    exact State.rbit_put_self _ _ _ (by decide)

theorem State.limpClock_reg (a : Nat) (h1 : a ≠ regRIDGE_CTRL) (h2 : a ≠ regRIDGE_STATUS) : s.limpClock.reg a = s.reg a := by
  unfold State.limpClock
  split
  · rfl
  · exact (State.reg_setReg_ne _ _ h2).trans (State.reg_setReg_ne _ _ h1)

theorem State.limpClock_frame : s.limpClock = { s with regs := s.limpClock.regs } := by
  unfold State.limpClock
  split <;> rfl

/-! ## LIMP (R303) -/

/-- The module in LIMP, out of boot stage `stage` (R135, R289, R303, R327, R345). -/
structure InLimp (stage : Nat) (t : State) : Prop where
  sup : t.supState = 4
  limp : t.rbit regCLK_STATUS 21 = true
  slow : t.rbit regRIDGE_CTRL 0 = true
  batten : t.rbit regPAIR_STATUS 30 = false
  stage : t.bootStage = if stage = 7 then 7 else 8
  ref : t.refState = 4

/-- The module on the limp clock, before the selector follows. -/
def State.limped (s : State) : State := ((((s.setSup 4).setRbit regCLK_STATUS 21).limpClock).putRbit regPAIR_STATUS 30 false).limpStage

theorem State.enterLimp_eq : s.enterLimp = { s.limped.refFault with sup := { s.sup with muxDue := none } } := rfl

theorem State.limpStage_stage : s.limpStage.bootStage = if s.bootStage = 7 then 7 else 8 := by
  unfold State.limpStage
  split
  case isTrue h => exact h
  case isFalse h => exact State.rfld_setRfld_self _ _ _ _ _ (by decide)

theorem State.limpStage_reg (a : Nat) (h : a ≠ regBOOT_STATUS) : s.limpStage.reg a = s.reg a := by
  unfold State.limpStage
  split
  · rfl
  · exact State.reg_setReg_ne _ _ h

/-- The supervisor in LIMP on the limp clock. -/
def State.onLimp (s : State) : State := (s.setSup 4).setRbit regCLK_STATUS 21

theorem State.onLimp_spec : s.onLimp.supState = 4 ∧ s.onLimp.rbit regCLK_STATUS 21 = true ∧ s.onLimp.rbit regCLK_STATUS 26 = s.rbit regCLK_STATUS 26 ∧
    ∀ a, a ≠ regCLK_STATUS → s.onLimp.reg a = s.reg a := by
  refine ⟨?_, ?_, ?_, fun a ha => (State.reg_setReg_ne _ _ ha).trans (State.reg_setReg_ne _ _ ha)⟩
  · exact (State.rfld_setRbit _ _ _ _ _ _ (.inr (.inl (by decide)))).trans (State.rfld_setRfld_self _ _ _ _ _ (by decide))
  · refine (State.rbit_setRbit _ _ _ _ _ (by decide)).trans ?_
    rw [decide_eq_true rfl, decide_eq_true rfl]
    exact Bool.or_true _
  · refine (State.rbit_setRbit _ _ _ _ _ (by decide)).trans ((Bool.or_false _).trans ?_)
    exact (State.rbit_setRfld _ _ _ _ _ _ _ (by decide)).trans (if_neg (by decide))

theorem State.limped_spec : s.limped.supState = 4 ∧ s.limped.rbit regCLK_STATUS 21 = true ∧ s.limped.rbit regCLK_STATUS 26 = s.rbit regCLK_STATUS 26 ∧
    s.limped.rbit regRIDGE_CTRL 0 = true ∧ s.limped.rbit regPAIR_STATUS 30 = false ∧ (s.limped.bootStage = if s.bootStage = 7 then 7 else 8) ∧
    ∀ a, a / 0x10000 = 3 → s.limped.reg a = s.reg a := by
  have he : s.limped = ((s.onLimp.limpClock).putRbit regPAIR_STATUS 30 false).limpStage := rfl
  rw [he]
  obtain ⟨h1, h2, h3, h4⟩ := s.onLimp_spec
  have hc : (((s.onLimp.limpClock).putRbit regPAIR_STATUS 30 false).limpStage).reg regCLK_STATUS = s.onLimp.reg regCLK_STATUS :=
    (State.limpStage_reg _ (by decide)).trans ((State.reg_setReg_ne _ _ (by decide)).trans (State.limpClock_reg _ (by decide) (by decide)))
  refine ⟨(congrArg (fld · 29 3) hc).trans h1, (congrArg (bit · 21) hc).trans h2, (congrArg (bit · 26) hc).trans h3, ?_, ?_, State.limpStage_stage.trans ?_,
    fun a ha => ?_⟩
  · refine (congrArg (bit · 0) ((State.limpStage_reg _ (by decide)).trans (State.reg_setReg_ne _ _ (by decide)))).trans ?_
    exact State.limpClock_slow
  · exact (congrArg (bit · 30) (State.limpStage_reg _ (by decide))).trans (State.rbit_put_self _ _ _ (by decide))
  · have hb : ((s.onLimp.limpClock).putRbit regPAIR_STATUS 30 false).bootStage = s.bootStage :=
      congrArg (fld · 28 4) ((State.reg_setReg_ne _ _ (by decide)).trans ((State.limpClock_reg _ (by decide) (by decide)).trans (h4 _ (by decide))))
    rw [hb]
  · have hn : ∀ b, b / 0x10000 ≠ 3 → a ≠ b := fun b hb e => hb (e ▸ ha)
    exact (State.limpStage_reg _ (hn _ (by decide))).trans ((State.reg_setReg_ne _ _ (hn _ (by decide))).trans
      ((State.limpClock_reg _ (hn _ (by decide)) (hn _ (by decide))).trans (h4 _ (hn _ (by decide)))))

/-- An entry to LIMP: what it shows, and that causes and latches stand (R303). -/
theorem State.enterLimp_spec (s : State) : InLimp s.bootStage s.enterLimp ∧ s.enterLimp.rbit regCLK_STATUS 26 = s.rbit regCLK_STATUS 26 ∧
    (∀ k, k < 256 → k ≠ 47 → k ≠ 48 → s.rbit (regFAULT_CAUSE (k / 32)) (k % 32) = true → s.enterLimp.rbit (regFAULT_CAUSE (k / 32)) (k % 32) = true) ∧
    (∀ k, k < 256 → s.faultLatched k = true → s.enterLimp.faultLatched k = true) := by
  obtain ⟨h1, h2, h3, h4, h5, h6, h7⟩ := s.limped_spec
  have hk : LossKept s.limped s.limped.refFault := .refFault (.refl _)
  have hs := State.refFault_state (s := s.limped)
  rw [State.enterLimp_eq]
  refine ⟨⟨(hk.rfld (by decide)).trans h1, (hk.rbit (by decide)).trans h2, (hk.rbit (by decide)).trans h4, (hk.rbit (by decide)).trans h5,
    (hk.rfld (by decide)).trans h6, hs⟩, (hk.rbit (by decide)).trans h3, fun k hk' g1 g2 e => hk.causes k hk' g1 g2 ?_, fun k hk' e => hk.latches k hk' ?_⟩
  · exact (congrArg (bit · (k % 32)) (h7 _ (by rw [regFAULT_CAUSE]; omega))).trans e
  · exact (congrArg (bit · (k % 32)) (h7 (regFAULT_LATCH (k / 32)) (by rw [regFAULT_LATCH]; omega))).trans e

/-- An event behind an entry to LIMP. -/
theorem InLimp.raiseEvent {n e : Nat} {pl : Word} (h : InLimp n t) (he : e < 128) : InLimp n (t.raiseEvent e pl) := by
  have hr : ∀ a, a / 0x10000 ≠ 4 → (t.raiseEvent e pl).reg a = t.reg a := fun a ha => State.raiseEvent_reg_block t e pl a he ha
  exact ⟨(congrArg (fld · 29 3) (hr _ (by decide))).trans h.sup, (congrArg (bit · 21) (hr _ (by decide))).trans h.limp,
    (congrArg (bit · 0) (hr _ (by decide))).trans h.slow, (congrArg (bit · 30) (hr _ (by decide))).trans h.batten,
    (congrArg (fld · 28 4) (hr _ (by decide))).trans h.stage, (State.selector_congr (hr _ (by decide))).1.trans h.ref⟩

/-- The source of a clock failure: live, and latched where it was not live before. -/
def ClockSource (s t : State) (k : Nat) : Prop :=
  t.rbit (regFAULT_CAUSE 1) (k % 32) = true ∧ (s.rbit (regFAULT_CAUSE 1) (k % 32) = false → t.faultLatched k = true)

/-- A cause that begins, the entry to LIMP, and EV77 with a code (R303). -/
theorem State.limp_source (k code : Nat) (hk : k / 32 = 1) (h47 : k < 47) :
    InLimp s.bootStage ((s.causeBegins k).enterLimp.clkEvent code) ∧ ClockSource s ((s.causeBegins k).enterLimp.clkEvent code) k ∧
    ((s.causeBegins k).enterLimp.clkEvent code).reg (regEVT_PAYLOAD 77) = BitVec.ofNat 32 code := by
  have hlt : k < 256 := by omega
  have hb : (s.causeBegins k).bootStage = s.bootStage :=
    congrArg (fld · 28 4) (OnlyBlocks.causeBegins (bs := [3, 4]) (by decide) (by decide) hlt (.refl _ s) _ (by decide))
  have hc : (s.causeBegins k).rbit (regFAULT_CAUSE 1) (k % 32) = true := by
    have h := State.causeBegins_cause s k k hlt hlt
    rwa [hk, decide_eq_true rfl, Bool.or_true] at h
  have hl : s.rbit (regFAULT_CAUSE 1) (k % 32) = false → (s.causeBegins k).faultLatched k = true := fun h => by
    rw [State.causeBegins_latch _ _ _ hlt, hk, h, decide_eq_true rfl]
    exact Bool.or_true _
  obtain ⟨e1, -, e3, e4⟩ := (s.causeBegins k).enterLimp_spec
  rw [hb] at e1
  refine ⟨e1.raiseEvent (by decide), ⟨?_, fun h => ?_⟩, State.raiseEvent_payload _ _ _ (by decide)⟩
  · refine (State.raiseEvent_rbit_block _ _ _ _ _ (by decide) (by decide)).trans ?_
    have h := e3 k hlt (by omega) (by omega)
    rw [hk] at h
    exact h hc
  · refine Eq.trans ?_ (e4 k hlt (hl h))
    exact congrArg (bit · (k % 32)) (State.raiseEvent_reg_block _ _ _ _ (by decide) (by rw [regFAULT_LATCH]; omega))

/-! ## The states of the supervisor (R303) -/

theorem exec_xoQualified_start (h : s.supState = 1) (hx : s.xoFromRun = false) :
    exec .xoQualified s = .next ((s.setRbit regCLK_STATUS 26).setRfld regCLK_STATUS 29 3 2) :=
  congrArg Host.Outcome.next ((if_pos h).trans (if_neg (hx ▸ Bool.false_ne_true)))

theorem exec_xoQualified_limp (h : s.supState = 1) (hx : s.xoFromRun = true) :
    ∃ t, exec .xoQualified s = .next t ∧ InLimp s.bootStage t ∧ t.rbit regCLK_STATUS 26 = true := by
  have hb : (s.setRbit regCLK_STATUS 26).bootStage = s.bootStage := congrArg (fld · 28 4) (State.reg_setReg_ne s _ (by decide))
  obtain ⟨e1, e2, -⟩ := (s.setRbit regCLK_STATUS 26).enterLimp_spec
  rw [hb] at e1
  refine ⟨_, congrArg Host.Outcome.next ((if_pos h).trans (if_pos hx)), e1, e2.trans ((State.rbit_setRbit _ _ _ _ _ (by decide)).trans ?_)⟩
  exact Bool.or_true _

theorem exec_xoWaitTimeout_retry (h : s.supState = 1) (ha : s.rfld regCLK_STATUS 27 2 < 3) : exec .xoWaitTimeout s =
    .next (((s.setRfld regCLK_STATUS 27 2 (s.rfld regCLK_STATUS 27 2 + 1)).setRbit regCLK_HIST 3).raiseEvent 77 1) :=
  congrArg Host.Outcome.next ((if_pos h).trans (if_pos ha))

theorem exec_xoWaitTimeout_limp (h : s.supState = 1) (ha : s.rfld regCLK_STATUS 27 2 = 3) :
    ∃ t, exec .xoWaitTimeout s = .next t ∧ InLimp s.bootStage t ∧ ClockSource s t 41 ∧ t.reg (regEVT_PAYLOAD 77) = 2 :=
  ⟨_, congrArg Host.Outcome.next ((if_pos h).trans (if_neg (by omega))), State.limp_source 41 2 (by decide) (by decide)⟩

theorem exec_pllStartTimeout_limp (h : s.supState = 2) :
    ∃ t, exec .pllStartTimeout s = .next t ∧ InLimp s.bootStage t ∧ ClockSource s t 42 ∧ t.reg (regEVT_PAYLOAD 77) = 5 :=
  ⟨_, congrArg Host.Outcome.next (if_pos h), State.limp_source 42 5 (by decide) (by decide)⟩

/-- The clock status on the limp clock in XO_WAIT, with ATTEMPT 1. -/
def State.released (s : State) (roleGnd : Bool) : State :=
  ((((s.setReg regCLK_STATUS 0x20200000#32).ridgeSlow true).putRbit regPAIR_STATUS 29 roleGnd).putRbit regBOOT_STATUS 25 s.fuseLock).putRbit regBOOT_STATUS 26
    (s.fuseKey.all fun w => decide (w = 0))

theorem State.released_spec (s : State) (g : Bool) : (s.released g).reg regCLK_STATUS = 0x20200000#32 ∧ (s.released g).rbit regRIDGE_CTRL 0 = true ∧
    (s.released g).rbit regPAIR_STATUS 29 = g ∧ (s.released g).rbit regBOOT_STATUS 25 = s.fuseLock ∧
    ((s.released g).rbit regBOOT_STATUS 26 = true ↔ ∀ w ∈ s.fuseKey, w = 0) := by
  have hn : ∀ a, a ≠ regBOOT_STATUS → (s.released g).reg a = (((s.setReg regCLK_STATUS 0x20200000#32).ridgeSlow true).putRbit regPAIR_STATUS 29 g).reg a :=
    fun a ha => (State.reg_setReg_ne _ _ ha).trans (State.reg_setReg_ne _ _ ha)
  refine ⟨?_, ?_, ?_, ?_, ?_⟩
  · exact (hn _ (by decide)).trans ((State.reg_setReg_ne _ _ (by decide)).trans ((State.reg_setReg_ne _ _ (by decide)).trans ((State.reg_setReg_ne _ _ (by decide)).trans
      (State.reg_setReg_self _ _ _))))
  · exact (congrArg (bit · 0) ((hn _ (by decide)).trans ((State.reg_setReg_ne _ _ (by decide)).trans (State.reg_setReg_ne _ _ (by decide))))).trans
      (State.rbit_put_self _ _ _ (by decide))
  · exact (congrArg (bit · 29) (hn _ (by decide))).trans (State.rbit_put_self _ _ _ (by decide))
  · exact ((State.rbit_putRbit _ _ _ _ _ _ (by decide)).trans (if_neg (by decide))).trans (State.rbit_put_self _ _ _ (by decide))
  · refine (iff_of_eq (congrArg (· = true) (State.rbit_put_self regBOOT_STATUS 26 _ (by decide)))).trans ?_
    rw [List.all_eq_true]
    exact forall₂_congr fun w _ => decide_eq_true_iff

theorem exec_powerOnReset_eq (g : Bool) (h1 : s.railsUp = true) (h2 : s.supState = 0) (h3 : s.modeCur = 0) :
    exec (.powerOnResetRelease g) s = .next ((s.released g).setStage 1).tapLock := by
  refine congrArg Host.Outcome.next (if_pos ?_)
  rw [Bool.and_eq_true, Bool.and_eq_true]
  exact ⟨⟨h1, decide_eq_true h2⟩, decide_eq_true h3⟩

theorem exec_powerOnReset_spec (g : Bool) (h1 : s.railsUp = true) (h2 : s.supState = 0) (h3 : s.modeCur = 0) :
    ∃ t, exec (.powerOnResetRelease g) s = .next t ∧ t = { s with regs := t.regs, testPort := if s.fuseLock then TestPort.reset else s.testPort } ∧ t.supState = 1 ∧
      t.rfld regCLK_STATUS 27 2 = 0 ∧ t.rbit regCLK_STATUS 21 = true ∧ t.rbit regRIDGE_CTRL 0 = true ∧ t.rbit regPAIR_STATUS 29 = g ∧ t.bootStage = 1 ∧
      t.rbit regBOOT_STATUS 25 = s.fuseLock ∧ (t.rbit regBOOT_STATUS 26 = true ↔ ∀ w ∈ s.fuseKey, w = 0) := by
  obtain ⟨e1, e2, e3, e4, e5⟩ := s.released_spec g
  have hf : (s.released g).setStage 1 = { s with regs := ((s.released g).setStage 1).regs } := rfl
  have hx := exec_powerOnReset_eq g h1 h2 h3
  generalize hr : s.released g = r at *
  have hn : ∀ a, a ≠ regBOOT_STATUS → (r.setStage 1).reg a = r.reg a := fun a ha => State.reg_setReg_ne _ _ ha
  have hb : ∀ i, i < 28 → (r.setStage 1).rbit regBOOT_STATUS i = r.rbit regBOOT_STATUS i := fun i hi =>
    (State.rbit_setRfld _ _ _ _ _ _ _ (by decide)).trans (if_neg (by omega))
  have hst : (r.setStage 1).bootStage = 1 := State.rfld_setRfld_self _ _ _ _ _ (by decide)
  have hcs : (r.setStage 1).reg regCLK_STATUS = 0x20200000#32 := (hn _ (by decide)).trans e1
  have hlk : (r.setStage 1).tapLocked = s.fuseLock := by
    have h25 : (r.setStage 1).debugLock = s.fuseLock := (hb 25 (by decide)).trans e4
    have hfl : (r.setStage 1).fuseLock = s.fuseLock := by rw [hf]
    have h0 : (r.setStage 1).rfld regCLK_STATUS 29 3 = 1 := (congrArg (fld · 29 3) hcs).trans (by decide)
    rw [State.tapLocked, h25, hfl, h0]
    cases s.fuseLock <;> rfl
  rw [State.tapLock, hlk] at hx
  have h21 : bit (0x20200000#32) 21 = true ∧ fld (0x20200000#32) 29 3 = 1 ∧ fld (0x20200000#32) 27 2 = 0 := by decide
  obtain ⟨k1, k2, k3⟩ := h21
  have hc (P : State → Prop) (h : ∀ p : TestPort, P { r.setStage 1 with testPort := p }) : P (if s.fuseLock then { r.setStage 1 with testPort := TestPort.reset } else r.setStage 1) := by
    split
    · exact h _
    · exact h (r.setStage 1).testPort
  refine ⟨_, hx, ?_, hc (fun t => t.supState = 1) fun _ => (congrArg (fld · 29 3) hcs).trans k2, hc (fun t => t.rfld regCLK_STATUS 27 2 = 0) fun _ => (congrArg (fld · 27 2) hcs).trans k3,
    hc (fun t => t.rbit regCLK_STATUS 21 = true) fun _ => (congrArg (bit · 21) hcs).trans k1, hc (fun t => t.rbit regRIDGE_CTRL 0 = true) fun _ => (congrArg (bit · 0) (hn _ (by decide))).trans e2,
    hc (fun t => t.rbit regPAIR_STATUS 29 = g) fun _ => (congrArg (bit · 29) (hn _ (by decide))).trans e3, hc (fun t => t.bootStage = 1) fun _ => hst,
    hc (fun t => t.rbit regBOOT_STATUS 25 = s.fuseLock) fun _ => (hb 25 (by decide)).trans e4,
    hc (fun t => t.rbit regBOOT_STATUS 26 = true ↔ ∀ w ∈ s.fuseKey, w = 0) fun _ => by
      have h26 := hb 26 (by decide)
      exact (iff_of_eq (congrArg (· = true) h26)).trans e5⟩
  rw [hf]
  cases s.fuseLock <;> rfl

/-- The clocks in RUN with the early words (R299, R303, R319). -/
def State.locked (s : State) : State :=
  ((((((s.setReg regCLK_DIV (s.earlyDiv &&& rwBits regCLK_DIV)).setReg regCLK_SSC (s.earlySsc &&& rwBits regCLK_SSC)).setSup 3).setRfld regCLK_STATUS 22 2 3).setRbit
    regCLK_STATUS 25).putRbit regCLK_STATUS 21 false)

theorem State.locked_spec (s : State) : s.locked.supState = 3 ∧ s.locked.rbit regCLK_STATUS 25 = true ∧ s.locked.rbit regCLK_STATUS 23 = true ∧
    s.locked.rbit regCLK_STATUS 22 = true ∧ s.locked.rbit regCLK_STATUS 21 = false ∧ s.locked.reg regCLK_DIV = s.earlyDiv &&& rwBits regCLK_DIV ∧
    s.locked.reg regCLK_SSC = s.earlySsc &&& rwBits regCLK_SSC := by
  unfold State.locked State.supState State.setSup
  refine ⟨?_, ?_, ?_, ?_, State.rbit_put_self _ _ _ (by decide), ?_, ?_⟩
  · rw [State.rfld_putRbit _ _ _ _ _ _ _ (by decide) (.inr (.inl (by decide))), State.rfld_setRbit _ _ _ _ _ _ (.inr (.inl (by decide))),
      State.rfld_setRfld_ne _ _ _ _ _ _ _ _ (by decide) (.inr (.inl (by decide))), State.rfld_setRfld_self _ _ _ _ _ (by decide)]
    rfl
  · rw [State.rbit_putRbit _ _ _ _ _ _ (by decide), if_neg (by decide), State.rbit_setRbit _ _ _ _ _ (by decide), decide_eq_true rfl, decide_eq_true rfl]
    exact Bool.or_true _
  · rw [State.rbit_putRbit _ _ _ _ _ _ (by decide), if_neg (by decide), State.rbit_setRbit _ _ _ _ _ (by decide), State.rbit_setRfld _ _ _ _ _ _ _ (by decide),
      if_pos (by decide)]
    rfl
  · rw [State.rbit_putRbit _ _ _ _ _ _ (by decide), if_neg (by decide), State.rbit_setRbit _ _ _ _ _ (by decide), State.rbit_setRfld _ _ _ _ _ _ _ (by decide),
      if_pos (by decide)]
    rfl
  · rw [State.reg_putRbit_ne _ _ _ _ _ (by decide), State.reg_setRbit_ne _ _ _ _ (by decide), State.reg_setRfld_ne _ _ _ _ _ _ (by decide),
      State.reg_setRfld_ne _ _ _ _ _ _ (by decide), State.reg_setReg_ne _ _ (by decide), State.reg_setReg_self]
  · rw [State.reg_putRbit_ne _ _ _ _ _ (by decide), State.reg_setRbit_ne _ _ _ _ (by decide), State.reg_setRfld_ne _ _ _ _ _ _ (by decide),
      State.reg_setRfld_ne _ _ _ _ _ _ (by decide), State.reg_setReg_self]

theorem exec_pllLock_run (h : s.supState = 2) : ∃ t, exec .pllLock s = .next t ∧
    t = { s with regs := t.regs, divNow := t.reg regCLK_DIV, divHold := false, sup := { s.sup with muxDue := some true } } ∧ t.supState = 3 ∧
    t.rbit regCLK_STATUS 25 = true ∧ t.rbit regCLK_STATUS 23 = true ∧ t.rbit regCLK_STATUS 22 = true ∧ t.rbit regCLK_STATUS 21 = false ∧
    t.reg regCLK_DIV = s.earlyDiv &&& rwBits regCLK_DIV ∧ t.reg regCLK_SSC = s.earlySsc &&& rwBits regCLK_SSC := by
  have hx : exec .pllLock s = .next { s.locked with divNow := s.earlyDiv &&& rwBits regCLK_DIV, divHold := false, sup := { s.sup with muxDue := some true } } :=
    congrArg Host.Outcome.next (if_pos h)
  obtain ⟨e1, e2, e3, e4, e5, e6, e7⟩ := s.locked_spec
  have hf : s.locked = { s with regs := s.locked.regs } := rfl
  rw [← e6, hf] at hx
  exact ⟨_, hx, rfl, e1, e2, e3, e4, e5, e6, e7⟩

/-! ## A multiplexer change that escapes (R301) -/

theorem exec_muxEscape_idle (h : s.sup.muxDue = none) : exec .muxEscape s = .next s := by
  refine congrArg Host.Outcome.next ?_
  rw [h]

/-- The change is over, and its escape is recorded. -/
def State.muxEscaped (s : State) : State := ({ s with sup := { s.sup with muxDue := none } } : State).setRbit regCLK_HIST 5

theorem exec_muxEscape_due (normal : Bool) (h : s.sup.muxDue = some normal) : exec .muxEscape s =
    .next (if normal then (if bit s.muxEscaped.draw.1 0 then (s.muxEscaped.draw.2.setRbit regCLK_STATUS 21).limpClock else s.muxEscaped.draw.2).raiseEvent 77 3
      else s.muxEscaped.raiseEvent 77 3) := by
  refine congrArg Host.Outcome.next ?_
  rw [h]
  rfl

/-- A change to the normal clocks whose new clock has stopped goes to the limp clock. -/
theorem State.muxEscape_limp (v : State) (h5 : v.rbit regCLK_HIST 5 = true) : ∃ t, t = ((v.setRbit regCLK_STATUS 21).limpClock).raiseEvent 77 3 ∧
    t = { v with regs := t.regs, tokens := t.tokens, seq := t.seq } ∧ t.rbit regCLK_STATUS 21 = true ∧ t.rbit regRIDGE_CTRL 0 = true ∧
    t.rbit regCLK_HIST 5 = true ∧ t.reg (regEVT_PAYLOAD 77) = 3 := by
  have hr : ∀ a, a / 0x10000 ≠ 4 → (((v.setRbit regCLK_STATUS 21).limpClock).raiseEvent 77 3).reg a = ((v.setRbit regCLK_STATUS 21).limpClock).reg a :=
    fun a ha => State.raiseEvent_reg_block _ _ _ a (by decide) ha
  refine ⟨_, rfl, ?_, ?_, ?_, ?_, State.raiseEvent_payload _ _ _ (by decide)⟩
  · rw [State.raiseEvent_frame, State.limpClock_frame]
    rfl
  · refine (congrArg (bit · 21) ((hr _ (by decide)).trans (State.limpClock_reg _ (by decide) (by decide)))).trans ((State.rbit_setRbit _ _ _ _ _ (by decide)).trans ?_)
    exact Bool.or_true _
  · exact (congrArg (bit · 0) (hr _ (by decide))).trans State.limpClock_slow
  · exact (congrArg (bit · 5) ((hr _ (by decide)).trans ((State.limpClock_reg _ (by decide) (by decide)).trans (State.reg_setReg_ne _ _ (by decide))))).trans h5

theorem State.muxEscaped_hist : s.muxEscaped.draw.2.rbit regCLK_HIST 5 = true := by
  refine (State.rbit_setRbit _ _ _ _ _ (by decide)).trans ?_
  exact Bool.or_true _

/-! ## Losses of single PLLs (R289, R304) -/

theorem exec_cpllLoss_locked (h : s.supState = 3) (hl : s.rbit regCLK_STATUS 25 = true) : exec .cpllLoss s =
    .next (((((s.putRbit regCLK_STATUS 25 false).setRbit regCLK_STATUS 24).setRbit regCLK_HIST 2).causeBegins 43).raiseEvent 78 0) :=
  congrArg Host.Outcome.next (if_pos ⟨h, hl⟩)

theorem exec_cpllLoss_idle (hl : s.rbit regCLK_STATUS 25 = false) : exec .cpllLoss s = .next s :=
  congrArg Host.Outcome.next (if_neg fun g => Bool.false_ne_true (hl.symm.trans g.2))

/-- The APLL without lock: its loss is recorded, and source 44 is live. -/
def State.apllLost (s : State) : State := ((s.putRbit regCLK_STATUS 23 false).setRbit regCLK_HIST 1).causeBegins 44

theorem exec_apllLoss_locked (h : s.supState = 3) (hl : s.rbit regCLK_STATUS 23 = true) : ∃ t, exec .apllLoss s = .next t ∧ t.rbit regCLK_STATUS 23 = false ∧
    t.rbit regCLK_HIST 1 = true ∧ t.refState = 4 ∧ t.rbit (regFAULT_CAUSE 1) 12 = true ∧ (s.rbit (regFAULT_CAUSE 1) 12 = false → t.faultLatched 44 = true) := by
  have hk : LossKept s.apllLost s.apllLost.refFault := .refFault (.refl _)
  have hb : OnlyBlocks [3, 4] ((s.putRbit regCLK_STATUS 23 false).setRbit regCLK_HIST 1) s.apllLost := .causeBegins (by decide) (by decide) (by decide) (.refl _ _)
  have hc : s.apllLost.rbit (regFAULT_CAUSE 1) 12 = true := by
    refine (State.causeBegins_cause ((s.putRbit regCLK_STATUS 23 false).setRbit regCLK_HIST 1) 44 44 (by decide) (by decide)).trans ?_
    rw [decide_eq_true rfl, Bool.or_true]
  have hl' : s.rbit (regFAULT_CAUSE 1) 12 = false → s.apllLost.faultLatched 44 = true := fun g => by
    have h0 : ((s.putRbit regCLK_STATUS 23 false).setRbit regCLK_HIST 1).rbit (regFAULT_CAUSE 1) 12 = false :=
      (congrArg (bit · 12) ((State.reg_setReg_ne _ _ (by decide)).trans (State.reg_setReg_ne _ _ (by decide)))).trans g
    have hx := State.causeBegins_latch ((s.putRbit regCLK_STATUS 23 false).setRbit regCLK_HIST 1) 44 44 (by decide)
    refine hx.trans ?_
    rw [h0, decide_eq_true rfl]
    exact Bool.or_true _
  refine ⟨_, congrArg Host.Outcome.next (if_pos ⟨h, hl⟩), (hk.rbit (by decide)).trans ?_, (hk.rbit (by decide)).trans ?_, State.refFault_state,
    hk.causes 44 (by decide) (by decide) (by decide) hc, fun g => hk.latches 44 (by decide) (hl' g)⟩
  · refine (congrArg (bit · 23) ((hb _ (by decide)).trans (State.reg_setReg_ne _ _ (by decide)))).trans ?_
    exact State.rbit_put_self _ _ _ (by decide)
  · refine (congrArg (bit · 1) (hb _ (by decide))).trans ((State.rbit_setRbit _ _ _ _ _ (by decide)).trans ?_)
    exact Bool.or_true _

theorem exec_apllLoss_idle (hl : s.rbit regCLK_STATUS 23 = false) : exec .apllLoss s = .next s :=
  congrArg Host.Outcome.next (if_neg fun g => Bool.false_ne_true (hl.symm.trans g.2))

theorem exec_apllRelock_lost (h : s.supState = 3) (hl : s.rbit regCLK_STATUS 23 = false) : exec .apllRelock s =
    .next (((s.setRbit regCLK_STATUS 23).setReg regREF_DCO (s.reg regREF_FREE)).putRbit (regFAULT_CAUSE 1) 12 false) := by
  refine congrArg Host.Outcome.next (if_pos ⟨h, ?_⟩)
  rw [hl]
  rfl

theorem exec_apllRelock_idle (hl : s.rbit regCLK_STATUS 23 = true) : exec .apllRelock s = .next s := by
  refine congrArg Host.Outcome.next (if_neg ?_)
  rintro ⟨-, g⟩
  rw [hl] at g
  exact Bool.false_ne_true g

theorem exec_dramPllLoss_locked (h : s.supState = 3) (hl : s.rbit regCLK_STATUS 22 = true) :
    exec .dramPllLoss s = .next (((s.putRbit regCLK_STATUS 22 false).setRbit regCLK_HIST 0).causeBegins 45) ∧
    ∃ t, exec .dramPllLoss s = .next t ∧ t.dramOn = false ∧ t.dram = s.dram := by
  have hx : exec .dramPllLoss s = .next (((s.putRbit regCLK_STATUS 22 false).setRbit regCLK_HIST 0).causeBegins 45) := congrArg Host.Outcome.next (if_pos ⟨h, hl⟩)
  have hb : OnlyBlocks [3, 4] ((s.putRbit regCLK_STATUS 22 false).setRbit regCLK_HIST 0) (((s.putRbit regCLK_STATUS 22 false).setRbit regCLK_HIST 0).causeBegins 45) :=
    .causeBegins (by decide) (by decide) (by decide) (.refl _ _)
  have hc : (((s.putRbit regCLK_STATUS 22 false).setRbit regCLK_HIST 0).causeBegins 45).reg regCLK_STATUS = (s.putRbit regCLK_STATUS 22 false).reg regCLK_STATUS :=
    (hb _ (by decide)).trans (State.reg_setReg_ne _ _ (by decide))
  refine ⟨hx, _, hx, ?_, ?_⟩
  · have h0 : (((s.putRbit regCLK_STATUS 22 false).setRbit regCLK_HIST 0).causeBegins 45).rfld regCLK_STATUS 29 3 = 3 :=
      (congrArg (fld · 29 3) hc).trans ((State.rfld_putRbit _ _ _ _ _ _ _ (by decide) (.inr (.inl (by decide)))).trans h)
    have h22 : (((s.putRbit regCLK_STATUS 22 false).setRbit regCLK_HIST 0).causeBegins 45).rbit regCLK_STATUS 22 = false :=
      (congrArg (bit · 22) hc).trans (State.rbit_put_self _ _ _ (by decide))
    rw [State.dramOn, h0, h22]
    rfl
  · rw [State.causeBegins_frame]
    rfl

theorem exec_dramPllLoss_idle (hl : s.rbit regCLK_STATUS 22 = false) : exec .dramPllLoss s = .next s :=
  congrArg Host.Outcome.next (if_neg fun g => Bool.false_ne_true (hl.symm.trans g.2))

/-! ## Dividers and spread (R299, R300) -/

/-- A plain register takes the bits of a value that it holds. -/
def State.putPlain (s : State) (a : Nat) (v : Word) : State := s.setReg a ((s.reg a &&& ~~~(rwBits a)) ||| (v &&& rwBits a))

/-- A plain clock register: what is written, and EV5 where it is reserved. -/
theorem State.regStore_clock (a : Nat) (v : Word) (h : a = regCLK_DIV ∨ a = regCLK_SSC) : s.regStore a v =
    if s.reservedReg a v then (s.putPlain a v).raiseEvent 5 (BitVec.ofNat 32 a) else s.putPlain a v := by
  have h1 : w1cBits a = 0#32 := by rcases h with rfl | rfl <;> decide
  have h2 : clampReg a v = v := by rcases h with rfl | rfl <;> rfl
  have h3 (t : State) : t.reservedReg a v = s.reservedReg a v := by rcases h with rfl | rfl <;> rfl
  rw [State.regStore, h1, h2, merge, BitVec.and_zero, BitVec.not_zero, BitVec.and_allOnes, State.checkReserved, h3]
  rfl

theorem exec_dividerChange_due (h : s.divHold = true) : exec .dividerChange s = .next { s with divNow := s.reg regCLK_DIV, divHold := false } :=
  congrArg Host.Outcome.next (if_pos h)

theorem exec_dividerChange_idle (h : s.divHold = false) : exec .dividerChange s = .next s :=
  congrArg Host.Outcome.next (if_neg (h ▸ Bool.false_ne_true))

/-! ## The loss of the XO (R302 to R304) -/

/-- The history of the clocks at the loss. -/
def State.xoHist (s : State) : State := s.cpllCoasts.setReg regCLK_HIST (s.cpllCoasts.reg regCLK_HIST ||| 0x13#32)

/-- The clock status at the loss, before SLOW. -/
def State.xoStat (s : State) : State :=
  (((s.xoHist.setRfld regCLK_STATUS 26 1 0).setRfld regCLK_STATUS 22 2 0).setRfld regCLK_STATUS 27 2 0).setRbit regCLK_STATUS 21

/-- The clocks after the loss: the supervisor is in XO_WAIT on the limp clock. -/
def State.xoClocks (s : State) : State := s.xoStat.limpClock.setSup 1

theorem State.xoHist_spec (s : State) : s.xoHist.rbit regCLK_HIST 4 = true ∧ s.xoHist.rbit regCLK_HIST 2 = true ∧ s.xoHist.rbit regCLK_HIST 1 = true ∧
    s.xoHist.rbit regCLK_HIST 0 = true ∧ s.xoHist.rbit regCLK_STATUS 25 = false ∧ s.xoHist.rbit regCLK_STATUS 24 = true ∧
    (∀ a, a ≠ regCLK_HIST → a ≠ regCLK_STATUS → s.xoHist.reg a = s.reg a) := by
  have h0 : s.xoHist.reg regCLK_HIST = s.cpllCoasts.reg regCLK_HIST ||| 0x13#32 := State.reg_setReg_self _ _ _
  have h1 : ∀ i, i < 32 → s.xoHist.rbit regCLK_HIST i = (s.cpllCoasts.rbit regCLK_HIST i || bit (0x13#32) i) := fun i _ =>
    (congrArg (bit · i) h0).trans (bit_or _ _ _)
  have hn : ∀ a, a ≠ regCLK_HIST → s.xoHist.reg a = ((s.putRbit regCLK_STATUS 25 false).setRbit regCLK_STATUS 24).reg a := fun a ha =>
    (State.reg_setReg_ne _ _ ha).trans (State.reg_setReg_ne _ _ ha)
  refine ⟨(h1 4 (by decide)).trans (Bool.or_true _), (h1 2 (by decide)).trans ((Bool.or_false _).trans ?_), (h1 1 (by decide)).trans (Bool.or_true _),
    (h1 0 (by decide)).trans (Bool.or_true _), ?_, ?_, fun a ha hb => (hn a ha).trans ((State.reg_setReg_ne _ _ hb).trans (State.reg_setReg_ne _ _ hb))⟩
  · refine (State.rbit_setRbit _ _ _ _ _ (by decide)).trans ?_
    exact Bool.or_true _
  · refine (congrArg (bit · 25) (hn _ (by decide))).trans ((State.rbit_setRbit _ _ _ _ _ (by decide)).trans ((Bool.or_false _).trans ?_))
    exact State.rbit_put_self _ _ _ (by decide)
  · refine (congrArg (bit · 24) (hn _ (by decide))).trans ((State.rbit_setRbit _ _ _ _ _ (by decide)).trans ?_)
    exact Bool.or_true _

/-- The bits of the clock status at the loss, and every other register. -/
theorem State.xoStat_spec (s : State) : (s.xoStat.rfld regCLK_STATUS 27 2 = 0 ∧ s.xoStat.rbit regCLK_STATUS 26 = false ∧ s.xoStat.rbit regCLK_STATUS 25 = false ∧
    s.xoStat.rbit regCLK_STATUS 24 = true ∧ s.xoStat.rbit regCLK_STATUS 23 = false ∧ s.xoStat.rbit regCLK_STATUS 22 = false ∧ s.xoStat.rbit regCLK_STATUS 21 = true) ∧
    (∀ a, a ≠ regCLK_STATUS → s.xoStat.reg a = s.xoHist.reg a) := by
  obtain ⟨-, -, -, -, h25, h24, -⟩ := s.xoHist_spec
  unfold State.xoStat
  generalize s.xoHist = h at *
  have hb : ∀ i, i < 27 → ((((h.setRfld regCLK_STATUS 26 1 0).setRfld regCLK_STATUS 22 2 0).setRfld regCLK_STATUS 27 2 0).setRbit regCLK_STATUS 21).rbit regCLK_STATUS i =
      ((if i = 22 ∨ i = 23 ∨ i = 26 then false else h.rbit regCLK_STATUS i) || decide (i = 21)) := fun i hi => by
    rw [State.rbit_setRbit _ _ _ _ _ (by omega), State.rbit_setRfld _ _ _ _ _ _ _ (by decide), if_neg (by omega), State.rbit_setRfld _ _ _ _ _ _ _ (by decide),
      State.rbit_setRfld _ _ _ _ _ _ _ (by decide), Nat.zero_testBit, Nat.zero_testBit, decide_eq_true rfl, Bool.true_and]
    congr 1
    by_cases h1 : i = 22 ∨ i = 23
    · rw [if_pos ⟨rfl, by omega, by omega⟩, if_pos (by omega)]
    · rw [if_neg (by omega)]
      by_cases h2 : i = 26
      · rw [if_pos ⟨rfl, by omega, by omega⟩, if_pos (by omega)]
      · rw [if_neg (by omega), if_neg (by omega)]
  refine ⟨⟨?_, hb 26 (by decide), (hb 25 (by decide)).trans ((Bool.or_false _).trans h25), (hb 24 (by decide)).trans ((Bool.or_false _).trans h24), hb 23 (by decide),
    hb 22 (by decide), (hb 21 (by decide)).trans (Bool.or_true _)⟩, fun a ha => ?_⟩
  · exact (State.rfld_setRbit _ _ _ _ _ _ (.inr (.inl (by decide)))).trans (State.rfld_setRfld_self _ _ _ _ _ (by decide))
  · exact (State.reg_setReg_ne _ _ ha).trans ((State.reg_setReg_ne _ _ ha).trans ((State.reg_setReg_ne _ _ ha).trans (State.reg_setReg_ne _ _ ha)))

/-- The clock registers after a loss of the XO. -/
structure XoLost (t : State) : Prop where
  sup : t.supState = 1
  attempt : t.rfld regCLK_STATUS 27 2 = 0
  b26 : t.rbit regCLK_STATUS 26 = false
  b25 : t.rbit regCLK_STATUS 25 = false
  b24 : t.rbit regCLK_STATUS 24 = true
  b23 : t.rbit regCLK_STATUS 23 = false
  b22 : t.rbit regCLK_STATUS 22 = false
  b21 : t.rbit regCLK_STATUS 21 = true
  slow : t.rbit regRIDGE_CTRL 0 = true
  h4 : t.rbit regCLK_HIST 4 = true
  h2 : t.rbit regCLK_HIST 2 = true
  h1 : t.rbit regCLK_HIST 1 = true
  h0 : t.rbit regCLK_HIST 0 = true

theorem State.xoClocks_lost (s : State) : XoLost s.xoClocks := by
  obtain ⟨k4, k2, k1, k0, -, -, -⟩ := s.xoHist_spec
  obtain ⟨⟨e1, e2, e3, e4, e5, e6, e7⟩, e8⟩ := s.xoStat_spec
  unfold State.xoClocks
  generalize s.xoStat = x at *
  have hc : x.limpClock.reg regCLK_STATUS = x.reg regCLK_STATUS := State.limpClock_reg _ (by decide) (by decide)
  have hb : ∀ i, i < 29 → (x.limpClock.setSup 1).rbit regCLK_STATUS i = x.rbit regCLK_STATUS i := fun i hi =>
    ((State.rbit_setRfld _ _ _ _ _ _ _ (by decide)).trans (if_neg (by omega))).trans (congrArg (bit · i) hc)
  have hh : (x.limpClock.setSup 1).reg regCLK_HIST = s.xoHist.reg regCLK_HIST :=
    (State.reg_setReg_ne _ _ (by decide)).trans ((State.limpClock_reg _ (by decide) (by decide)).trans (e8 _ (by decide)))
  exact ⟨State.rfld_setRfld_self _ _ _ _ _ (by decide),
    (State.rfld_setRfld_ne _ _ _ _ _ _ _ _ (by decide) (.inr (.inr (by decide)))).trans ((congrArg (fld · 27 2) hc).trans e1),
    (hb 26 (by decide)).trans e2, (hb 25 (by decide)).trans e3, (hb 24 (by decide)).trans e4, (hb 23 (by decide)).trans e5, (hb 22 (by decide)).trans e6,
    (hb 21 (by decide)).trans e7, (congrArg (bit · 0) (State.reg_setReg_ne _ _ (by decide))).trans State.limpClock_slow, (congrArg (bit · 4) hh).trans k4,
    (congrArg (bit · 2) hh).trans k2, (congrArg (bit · 1) hh).trans k1, (congrArg (bit · 0) hh).trans k0⟩

theorem XoLost.kept (h : XoLost s) (k : LossKept s t) : XoLost t :=
  ⟨(k.rfld (by decide)).trans h.sup, (k.rfld (by decide)).trans h.attempt, (k.rbit (by decide)).trans h.b26, (k.rbit (by decide)).trans h.b25,
    (k.rbit (by decide)).trans h.b24, (k.rbit (by decide)).trans h.b23, (k.rbit (by decide)).trans h.b22, (k.rbit (by decide)).trans h.b21,
    (k.rbit (by decide)).trans h.slow, (k.rbit (by decide)).trans h.h4, (k.rbit (by decide)).trans h.h2, (k.rbit (by decide)).trans h.h1, (k.rbit (by decide)).trans h.h0⟩

theorem State.xoClocks_fault (s : State) (a : Nat) (h : a / 0x10000 = 3) : s.xoClocks.reg a = s.reg a := by
  have hn : ∀ b, b / 0x10000 ≠ 3 → a ≠ b := fun b hb e => hb (e ▸ h)
  obtain ⟨-, -, -, -, -, -, h7⟩ := s.xoHist_spec
  obtain ⟨-, e8⟩ := s.xoStat_spec
  unfold State.xoClocks
  exact (State.reg_setReg_ne _ _ (hn _ (by decide))).trans ((State.limpClock_reg _ (hn _ (by decide)) (hn _ (by decide))).trans ((e8 a (hn _ (by decide))).trans
    (h7 a (hn _ (by decide)) (hn _ (by decide)))))

/-! ### Time bases at the loss (R273) -/

theorem timeStat_block (t : Nat) (h : t < 4) : regTIME_STAT t / 0x10000 = 13 := by
  rw [regTIME_STAT]
  omega

/-- A time base without its anchor: the conversions that it placed follow. -/
theorem State.dropAnchor_blocks (s : State) (t : Nat) : OnlyBlocks [4, 9] (s.anchorGone t) (s.dropAnchor t) :=
  .foldl (fun _ c hc h => .asrcUnlocked (by decide) (by decide) ((s.anchorGone t).asrcOn_lt c (List.mem_filter.1 hc).1) h) (.refl _ _)

theorem LossKept.dropAnchor {b : Nat} (hb : b < 4) (h : LossKept s t) : LossKept s (t.dropAnchor b) := by
  have h1 : LossKept s (t.anchorGone b) := h.of_blocks (bs := [13]) (.of_regs (.setReg (timeStat_block b hb ▸ List.mem_singleton.2 rfl) _ (.refl [13] t)) rfl) (by decide)
  exact h1.of_blocks (t.dropAnchor_blocks b) (by decide)

/-- A time base takes a state. -/
theorem LossKept.tbTo {b k : Nat} {c : Bool} (hb : b < 4) (h : LossKept s t) : LossKept s (t.tbTo b k c) := by
  have h13 : 13 ∈ [4, 9, 13, 14] := by decide
  have h1 : LossKept s ((t.setRfld (regTIME_STAT b) 0 2 k).putRbit (regTIME_STAT b) 4 (decide (k = 0))) :=
    setReg (timeStat_block b hb ▸ h13) (setReg (timeStat_block b hb ▸ h13) h)
  have h2 : LossKept s (if k = 1 ∧ b ∉ ((t.setRfld (regTIME_STAT b) 0 2 k).putRbit (regTIME_STAT b) 4 (decide (k = 0))).timing.seen then
      { (t.setRfld (regTIME_STAT b) 0 2 k).putRbit (regTIME_STAT b) 4 (decide (k = 0)) with
        timing := { ((t.setRfld (regTIME_STAT b) 0 2 k).putRbit (regTIME_STAT b) 4 (decide (k = 0))).timing with
          seen := ((t.setRfld (regTIME_STAT b) 0 2 k).putRbit (regTIME_STAT b) 4 (decide (k = 0))).timing.seen ++ [b] } }
      else (t.setRfld (regTIME_STAT b) 0 2 k).putRbit (regTIME_STAT b) 4 (decide (k = 0))) :=
    ite (h1.of_blocks (fun _ _ => rfl : OnlyBlocks [4] _ _) (by decide)) h1
  exact ite (raiseEvent (by omega) h2) h2

theorem LossKept.tbArm {b : Nat} (hb : b < 4) (h : LossKept s t) : LossKept s (t.tbArm b) := by
  have h13 : 13 ∈ [4, 9, 13, 14] := by decide
  rw [State.tbArm, State.tbGo_eq]
  exact tbTo hb (dropAnchor hb (setReg (timeStat_block b hb ▸ h13) h))

/-- A time base that is UNLOCKED with ARMED set. -/
def State.tbArmed (s : State) (i : Nat) : Prop := s.tbState i = 0 ∧ s.rbit (regTIME_STAT i) 4 = true

theorem State.tbTo_stat (u : State) (b k : Nat) (c : Bool) (hb : b < 4) :
    ∀ i, i < 4 → (u.tbTo b k c).reg (regTIME_STAT i) = ((u.setRfld (regTIME_STAT b) 0 2 k).putRbit (regTIME_STAT b) 4 (decide (k = 0))).reg (regTIME_STAT i) := by
  intro i hi
  unfold State.tbTo
  generalize (u.setRfld (regTIME_STAT b) 0 2 k).putRbit (regTIME_STAT b) 4 (decide (k = 0)) = w
  have hx : (if k = 1 ∧ b ∉ w.timing.seen then ({ w with timing := { w.timing with seen := w.timing.seen ++ [b] } } : State) else w).reg (regTIME_STAT i) = w.reg (regTIME_STAT i) := by
    split <;> rfl
  dsimp only
  split
  · exact (State.raiseEvent_reg_block _ _ _ _ (by omega) (by rw [timeStat_block i hi]; decide)).trans hx
  · exact hx

theorem State.tbTo_armed (u : State) (b : Nat) (c : Bool) (hb : b < 4) : (u.tbTo b 0 c).tbArmed b := by
  have hs := u.tbTo_stat b 0 c hb b hb
  exact ⟨(congrArg (fld · 0 2) hs).trans ((State.rfld_putRbit _ _ _ _ _ _ _ (by decide) (.inr (.inr (by decide)))).trans (State.rfld_setRfld_self _ _ _ _ _ (by decide))),
    (congrArg (bit · 4) hs).trans (State.rbit_put_self _ _ _ (by decide))⟩

theorem timeStat_inj {i b : Nat} (h : i ≠ b) : regTIME_STAT i ≠ regTIME_STAT b := by
  rw [regTIME_STAT, regTIME_STAT]
  omega

/-- The state word of another time base stands when one is armed. -/
theorem State.tbArm_stat (u : State) (b i : Nat) (hb : b < 4) (hi : i < 4) (h : i ≠ b) : (u.tbArm b).reg (regTIME_STAT i) = u.reg (regTIME_STAT i) := by
  have hn : regTIME_STAT i / 0x10000 ∉ [4, 9] := by
    rw [timeStat_block i hi]
    decide
  rw [State.tbArm, State.tbGo_eq, State.tbTo_stat _ b _ _ hb i hi]
  refine (State.reg_setReg_ne _ _ (timeStat_inj h)).trans ((State.reg_setReg_ne _ _ (timeStat_inj h)).trans ?_)
  exact (State.dropAnchor_blocks _ b _ hn).trans ((State.reg_setReg_ne _ _ (timeStat_inj h)).trans (State.reg_setReg_ne _ _ (timeStat_inj h)))

theorem State.tbArm_armed (u : State) (b : Nat) (hb : b < 4) : (u.tbArm b).tbArmed b := by
  rw [State.tbArm, State.tbGo_eq]
  exact State.tbTo_armed _ b _ hb

theorem State.tbArmed_congr {i : Nat} (h : t.reg (regTIME_STAT i) = s.reg (regTIME_STAT i)) (hs : s.tbArmed i) : t.tbArmed i :=
  ⟨(congrArg (fld · 0 2) h).trans hs.1, (congrArg (bit · 4) h).trans hs.2⟩

theorem State.tbArm_all (u : State) (i : Nat) (hi : i < 4) : ([0, 1, 2, 3].foldl State.tbArm u).tbArmed i := by
  simp only [List.foldl_cons, List.foldl_nil]
  have step : ∀ v : State, ∀ b, b < 4 → (v.tbArmed i ∨ i = b) → (v.tbArm b).tbArmed i := fun v b hb h => by
    by_cases e : i = b
    · subst e
      exact v.tbArm_armed i hb
    · exact State.tbArmed_congr (v.tbArm_stat b i hb hi e) (h.resolve_right e)
  rcases (by omega : i = 0 ∨ i = 1 ∨ i = 2 ∨ i = 3) with h | h | h | h
  · exact step _ 3 (by decide) (.inl (step _ 2 (by decide) (.inl (step _ 1 (by decide) (.inl (step _ 0 (by decide) (.inr h)))))))
  · exact step _ 3 (by decide) (.inl (step _ 2 (by decide) (.inl (step _ 1 (by decide) (.inr h)))))
  · exact step _ 3 (by decide) (.inl (step _ 2 (by decide) (.inr h)))
  · exact step _ 3 (by decide) (.inr h)

/-- What the selector changes of a time base is its alignment bit. -/
theorem State.alignBits_armed {i : Nat} (h : s.tbArmed i) : s.alignBits.tbArmed i := by
  have step : ∀ (l : List Nat) (f : State → Nat → Bool) (t : State), (∀ b ∈ l, b < 4) → t.tbArmed i →
      (l.foldl (fun (t : State) b => t.putRbit (regTIME_STAT b) 6 (f t b)) t).tbArmed i := by
    intro l f
    induction l with
    | nil => exact fun t _ h => h
    | cons b l ih =>
      intro t hl ht
      refine ih (t.putRbit (regTIME_STAT b) 6 (f t b)) (fun c hc => hl c (List.mem_cons_of_mem b hc)) ⟨?_, ?_⟩
      · exact (State.rfld_putRbit _ _ _ _ _ _ _ (by decide) (.inr (.inr (by decide)))).trans ht.1
      · exact ((State.rbit_putRbit _ _ _ _ _ _ (by decide)).trans (if_neg (by omega))).trans ht.2
  exact step [0, 1, 2, 3] _ s (by decide) h

/-- A state of which every change since lies outside the block TIME. -/
theorem State.tbArmed_blocks {i : Nat} (hi : i < 4) (h : OnlyBlocks [3, 4, 14] s t) (ha : s.tbArmed i) : t.tbArmed i :=
  State.tbArmed_congr (h _ (by rw [timeStat_block i hi]; decide)) ha

theorem OnlyBlocks.refHead {st : Nat} (h : OnlyBlocks [3, 4, 14] s t) : OnlyBlocks [3, 4, 14] s (t.refHead st) := by
  have h1 : OnlyBlocks [3, 4, 14] s (t.setRfld regREF_STATE 0 3 st) := setReg (by decide) _ h
  have h2 : OnlyBlocks [3, 4, 14] s (match histBit st with | some b => (t.setRfld regREF_STATE 0 3 st).setRbit regREF_HIST b | none => t.setRfld regREF_STATE 0 3 st) := by
    split
    · exact setReg (by decide) _ h1
    · exact h1
  have hu {v : State} (hv : OnlyBlocks [3, 4, 14] s v) : OnlyBlocks [3, 4, 14] s v.hoUpdate := ite (setReg (by decide) _ hv) (setReg (by decide) _ (setReg (by decide) _ hv))
  exact ite (setReg (by decide) _ h2) (ite (hu (setReg (by decide) _ h2)) h2)

theorem State.refGo_armed {st i : Nat} (hi : i < 4) (h : s.tbArmed i) : (s.refGo st).tbArmed i := by
  by_cases e : s.refState = st
  · rw [State.refGo_eq s st e]
    exact State.alignBits_armed (State.tbArmed_blocks hi (.setReg (by decide) _ (.refl _ s)) h)
  · rw [State.refGo_ne s st e]
    refine State.alignBits_armed (State.tbArmed_blocks hi ?_ h)
    exact .raiseEvent (by decide) (by decide) (.setCause (by decide) (by decide) (by decide) (.setCause (by decide) (by decide) (by decide) (.refHead (.refl _ s))))

theorem State.refFault_armed {i : Nat} (hi : i < 4) (h : s.tbArmed i) : s.refFault.tbArmed i := by
  unfold State.refFault
  split
  · exact h
  · refine State.refGo_armed hi (State.tbArmed_blocks hi (.setReg (by decide) _ (.ite (.setReg (by decide) _ (.setReg (by decide) _ ?_)) (.refl _ s))) h)
    exact (fun _ _ => rfl : OnlyBlocks [3, 4, 14] s s.draw.2)

/-! ### The loss as a whole -/

/-- The time bases and the selector follow the loss. -/
def State.xoFollow (s : State) : State := ([0, 1, 2, 3].foldl State.tbArm ([0, 1, 2, 3].foldl State.dropAnchor ((s.causeBegins 41).causeBegins 47))).refFault

theorem State.xoFollow_spec (s : State) : LossKept (s.causeBegins 41) s.xoFollow ∧ s.xoFollow.refState = 4 ∧ ∀ i, i < 4 → s.xoFollow.tbArmed i := by
  refine ⟨.refFault (.foldl (fun t b hb h => .tbArm ?_ h) (.foldl (fun t b hb h => .dropAnchor ?_ h) (.causeBegins (by decide) (.refl _)))), State.refFault_state,
    fun i hi => State.refFault_armed hi (State.tbArm_all _ i hi)⟩
  all_goals
    simp only [List.mem_cons, List.not_mem_nil, or_false] at hb
    omega

/-- The state after the loss of the XO, before the tick stops. -/
def State.xoGone (s : State) : State := (s.xoClocks.xoFollow.clkEvent 4).raiseEvent 78 0

theorem exec_xoLoss_eq (h : s.supState = 3) : exec .xoLoss s =
    .next { s.xoGone with ticking := false, xoFromRun := true, sup := { s.sup with muxDue := some false } } := congrArg Host.Outcome.next (if_pos h)

theorem State.xoGone_spec (s : State) : XoLost s.xoGone ∧ s.xoGone.refState = 4 ∧ ClockSource s s.xoGone 41 ∧ s.xoGone.reg (regEVT_PAYLOAD 77) = 4 ∧
    s.xoGone.reg (regEVT_PAYLOAD 78) = 0 ∧ ∀ i, i < 4 → s.xoGone.tbArmed i := by
  have hx := s.xoClocks_lost
  have hfl := s.xoClocks_fault
  unfold State.xoGone
  generalize s.xoClocks = x at *
  obtain ⟨hk, hs, ha⟩ := x.xoFollow_spec
  have hev : LossKept x.xoFollow ((x.xoFollow.clkEvent 4).raiseEvent 78 0) := .raiseEvent (by decide) (.raiseEvent (by decide) (.refl _))
  have hb : OnlyBlocks [4] x.xoFollow ((x.xoFollow.clkEvent 4).raiseEvent 78 0) := .raiseEvent (by decide) (by decide) (.raiseEvent (by decide) (by decide) (.refl _ _))
  have hall := hk.trans hev
  have h0 : x.rbit (regFAULT_CAUSE 1) 9 = s.rbit (regFAULT_CAUSE 1) 9 := congrArg (bit · 9) (hfl _ (by decide))
  refine ⟨hx.kept ((LossKept.causeBegins (by decide) (.refl x)).trans hall), (State.selector_congr (hb _ (by decide))).1.trans hs,
    ⟨hall.causes 41 (by decide) (by decide) (by decide) ?_, fun g => hall.latches 41 (by decide) ?_⟩, ?_, State.raiseEvent_payload _ _ _ (by decide), fun i hi => ?_⟩
  · rw [State.causeBegins_cause _ _ _ (by decide) (by decide), decide_eq_true rfl, Bool.or_true]
  · refine (State.causeBegins_latch x 41 41 (by decide)).trans ?_
    rw [show x.rbit (regFAULT_CAUSE (41 / 32)) (41 % 32) = false from h0.trans g, decide_eq_true rfl]
    exact Bool.or_true _
  · exact (State.raiseEvent_payload_ne _ _ _ (by decide) (by decide) (by decide)).trans (State.raiseEvent_payload _ _ _ (by decide))
  · exact State.tbArmed_congr (hb _ (by rw [timeStat_block i hi]; decide)) (ha i hi)

/-- Settles O51, clause by clause. -/
theorem clocksAndDividers : Obligations.ClocksAndDividers := by
  unfold Obligations.ClocksAndDividers
  refine ⟨fun s g => ⟨exec_powerOnReset_spec g, exec_xoQualified_start, fun h hx => ?_, exec_xoWaitTimeout_retry, fun h ha => ?_, exec_pllLock_run, fun h => ?_,
    exec_muxEscape_idle, fun normal h => ?_, fun h => ?_⟩, fun s h => ⟨exec_cpllLoss_locked h, exec_cpllLoss_idle, exec_apllLoss_locked h,
    fun hl => ⟨exec_apllLoss_idle hl, exec_apllRelock_lost h hl⟩, exec_apllRelock_idle, exec_dramPllLoss_locked h, exec_dramPllLoss_idle⟩, fun s m v => ?_⟩
  · obtain ⟨t, e, ⟨h1, h2, h3, h4, h5, h6⟩, hb⟩ := exec_xoQualified_limp h hx
    exact ⟨t, e, ⟨h1, h2, h3, h4, h5, h6⟩, hb⟩
  · obtain ⟨t, e, ⟨h1, h2, h3, h4, h5, h6⟩, hs, hp⟩ := exec_xoWaitTimeout_limp h ha
    exact ⟨t, e, ⟨h1, h2, h3, h4, h5, h6⟩, hs, hp⟩
  · obtain ⟨t, e, ⟨h1, h2, h3, h4, h5, h6⟩, hs, hp⟩ := exec_pllStartTimeout_limp h
    exact ⟨t, e, ⟨h1, h2, h3, h4, h5, h6⟩, hs, hp⟩
  · have e := exec_muxEscape_due normal h
    refine ⟨fun hn => e.trans (congrArg _ (if_neg (hn ▸ Bool.false_ne_true))), fun hn hs => e.trans (congrArg _ ((if_pos hn).trans (congrArg (State.raiseEvent · 77 3) (if_neg ?_)))),
      fun hn hs => ?_⟩
    · exact fun g => Bool.false_ne_true (hs.symm.trans g)
    · obtain ⟨t, ht, h1⟩ := State.muxEscape_limp s.muxEscaped.draw.2 State.muxEscaped_hist
      exact ⟨t, e.trans (congrArg _ ((if_pos hn).trans ((congrArg (State.raiseEvent · 77 3) (if_pos hs)).trans ht.symm))), h1⟩
  · have e := exec_xoLoss_eq h
    obtain ⟨hx, h1, h2, h3, h4, h5⟩ := s.xoGone_spec
    generalize s.xoGone = t at *
    exact ⟨_, e, hx.sup, hx.attempt, hx.b26, hx.b25, hx.b24, hx.b23, hx.b22, hx.b21, hx.slow, hx.h4, hx.h2, hx.h1, hx.h0, rfl, rfl, rfl, h1, h2, h3, h4, h5⟩
  · refine ⟨congrArg Host.Outcome.next ?_, congrArg Host.Outcome.next (State.regStore_clock regCLK_SSC v (.inr rfl)), exec_dividerChange_due, exec_dividerChange_idle⟩
    exact congrArg (fun t : State => { t with divHold := true }) (State.regStore_clock regCLK_DIV v (.inl rfl))

end Sys2Proof.Machine
end

section
/-! Pairing states, and the samples of BATTEN that decide them (R345, R350 to R352, R359). -/

namespace Sys2Proof.Machine

-- One theorem after another, so that the compile of the whole text stays within its memory.
set_option Elab.async false

variable {s t u : State}

/-! ## Entering a pairing state (R350) -/

/-- The state word and EV86 of a pairing state, before what JOIN and MIRROR start with. -/
def State.pairTo (s : State) (st : Nat) : State :=
  if s.pairState = pREADY ∧ st ≠ pREADY then (s.setRfld regPAIR_STATUS 0 4 st).raiseEvent 86 0
  else if st = pREADY ∧ s.pairState ≠ pREADY then (s.setRfld regPAIR_STATUS 0 4 st).raiseEvent 86 1
  else s.setRfld regPAIR_STATUS 0 4 st

theorem State.pairGo_join : s.pairGo pJOIN = (s.pairTo pJOIN).joinStart := rfl

theorem State.pairGo_mirror : s.pairGo pMIRROR = ({ s.pairTo pMIRROR with matched := [] } : State).setReg regPAIR_MATCH 0 := rfl

theorem State.pairGo_other {st : Nat} (h1 : st ≠ pJOIN) (h2 : st ≠ pMIRROR) : s.pairGo st = s.pairTo st :=
  (if_neg h1).trans (if_neg h2)

/-- The state word changes, and events occur: nothing else. -/
theorem State.pairTo_frame (st : Nat) : s.pairTo st = { s with regs := (s.pairTo st).regs, tokens := (s.pairTo st).tokens, seq := (s.pairTo st).seq } := by
  unfold State.pairTo
  split
  · rw [State.raiseEvent_frame]
    rfl
  · split
    · rw [State.raiseEvent_frame]
      rfl
    · rfl

theorem State.pairTo_blocks (st a : Nat) (h : a / 0x10000 ≠ 4) : (s.pairTo st).reg a = (s.setRfld regPAIR_STATUS 0 4 st).reg a := by
  unfold State.pairTo
  split
  · exact State.raiseEvent_reg_block _ _ _ _ (by decide) h
  · split
    · exact State.raiseEvent_reg_block _ _ _ _ (by decide) h
    · rfl

theorem State.pairTo_reg (st a : Nat) (h : a / 0x10000 ≠ 4) (hp : a ≠ regPAIR_STATUS) : (s.pairTo st).reg a = s.reg a :=
  (State.pairTo_blocks st a h).trans (State.reg_setReg_ne _ _ hp)

theorem State.pairTo_state (st : Nat) (h : st < 16) : (s.pairTo st).pairState = st :=
  (congrArg (fld · 0 4) (State.pairTo_blocks st _ (by decide))).trans ((State.rfld_setRfld_self _ _ _ _ _ (by decide)).trans (Nat.mod_eq_of_lt h))

theorem State.pairTo_rbit (st i : Nat) (h : 4 ≤ i) : (s.pairTo st).rbit regPAIR_STATUS i = s.rbit regPAIR_STATUS i :=
  (congrArg (bit · i) (State.pairTo_blocks st _ (by decide))).trans ((State.rbit_setRfld _ _ _ _ _ _ _ (by decide)).trans (if_neg (by omega)))

theorem State.pairTo_rfld (st lo len : Nat) (h : 4 ≤ lo) : (s.pairTo st).rfld regPAIR_STATUS lo len = s.rfld regPAIR_STATUS lo len :=
  (congrArg (fld · lo len) (State.pairTo_blocks st _ (by decide))).trans (State.rfld_setRfld_ne _ _ _ _ _ _ _ _ (by decide) (.inr (.inl (by omega))))

/-- READY is left with EV86 and payload 0, and entered with payload 1. -/
theorem State.pairTo_event (st : Nat) : (s.pairState = pREADY → st ≠ pREADY → (s.pairTo st).reg (regEVT_PAYLOAD 86) = 0) ∧
    (st = pREADY → s.pairState ≠ pREADY → (s.pairTo st).reg (regEVT_PAYLOAD 86) = 1) := by
  refine ⟨fun h1 h2 => ?_, fun h1 h2 => ?_⟩
  · rw [State.pairTo, if_pos ⟨h1, h2⟩]
    exact State.raiseEvent_payload _ _ _ (by decide)
  · rw [State.pairTo, if_neg fun g => h2 g.1, if_pos ⟨h1, h2⟩]
    exact State.raiseEvent_payload _ _ _ (by decide)

/-! ## Epochs that are discarded, and the start of JOIN (R353, R357) -/

/-- The words of a discarded epoch. -/
def State.epochMarked (s : State) : State := (s.putRbit regPAIR_ESTAT 31 false).setRbit regPAIR_ESTAT 29

theorem State.epochMarked_spec (s : State) : (∀ a, a ≠ regPAIR_ESTAT → s.epochMarked.reg a = s.reg a) ∧ s.epochMarked.rbit regPAIR_ESTAT 31 = false ∧
    s.epochMarked.rbit regPAIR_ESTAT 29 = true := by
  refine ⟨fun a ha => (State.reg_setReg_ne _ _ ha).trans (State.reg_setReg_ne _ _ ha), ?_, ?_⟩
  · exact (State.rbit_setRbit _ _ _ _ _ (by decide)).trans ((Bool.or_false _).trans (State.rbit_put_self _ _ _ (by decide)))
  · exact (State.rbit_setRbit _ _ _ _ _ (by decide)).trans (Bool.or_true _)

theorem State.epochMarked_frame (s : State) : s.epochMarked = { s with regs := s.epochMarked.regs } := rfl

theorem State.epochAbort_spec (s : State) : ∃ r, s.epochAbort = { s with regs := r, epochRun := none, epochRx := none } ∧
    (∀ a, a ≠ regPAIR_ESTAT → mapGet regReset r a = s.reg a) ∧
    ((s.epochRun.isSome || s.epochRx.isSome) = true → bit (mapGet regReset r regPAIR_ESTAT) 31 = false ∧ bit (mapGet regReset r regPAIR_ESTAT) 29 = true) ∧
    ((s.epochRun.isSome || s.epochRx.isSome) = false → r = s.regs) := by
  by_cases h : (s.epochRun.isSome || s.epochRx.isSome) = true
  · have e : s.epochAbort = ({ s with epochRun := none, epochRx := none } : State).epochMarked := if_pos h
    obtain ⟨h1, h2, h3⟩ := ({ s with epochRun := none, epochRx := none } : State).epochMarked_spec
    rw [State.epochMarked_frame] at e
    exact ⟨_, e, h1, fun _ => ⟨h2, h3⟩, fun g => absurd (g.symm.trans h) Bool.false_ne_true⟩
  · have e : s.epochAbort = s := if_neg h
    have h' : (s.epochRun.isSome || s.epochRx.isSome) = false := Bool.eq_false_iff.2 h
    rw [Bool.or_eq_false_iff] at h'
    have h1 : s.epochRun = none := Option.not_isSome_iff_eq_none.1 (Bool.eq_false_iff.1 h'.1)
    have h2 : s.epochRx = none := Option.not_isSome_iff_eq_none.1 (Bool.eq_false_iff.1 h'.2)
    refine ⟨s.regs, e.trans ?_, fun _ _ => rfl, fun g => absurd g h, fun _ => rfl⟩
    rw [← h1, ← h2]

/-- What JOIN starts with (R353). -/
theorem State.joinStart_spec (s : State) : ∃ r, s.joinStart = { s with
      regs := r, epochRun := none, epochRx := none, joinStep := 0, skewGood := 0, skewBad := 0, matched := [], sceneNeed := [], liveStart := 0 } ∧
    mapGet regReset r regPAIR_EPOCH = 0 ∧ (∀ a, a ≠ regPAIR_ESTAT → a ≠ regPAIR_EPOCH → mapGet regReset r a = s.reg a) := by
  obtain ⟨r, e, h, -⟩ := s.epochAbort_spec
  refine ⟨mapSet regReset r regPAIR_EPOCH 0, ?_, mapGet_set_self _ _ _ _, fun a h1 h2 => (mapGet_set_ne _ _ _ h2).trans (h a h1)⟩
  rw [State.joinStart, e]
  rfl

/-- JOIN is entered. -/
theorem State.pairGo_join_spec (s : State) : ∃ r, s.pairGo pJOIN = { s with
      regs := r, tokens := (s.pairTo pJOIN).tokens, seq := (s.pairTo pJOIN).seq, epochRun := none, epochRx := none, joinStep := 0, skewGood := 0, skewBad := 0,
      matched := [], sceneNeed := [], liveStart := 0 } ∧
    mapGet regReset r regPAIR_EPOCH = 0 ∧ (∀ a, a ≠ regPAIR_ESTAT → a ≠ regPAIR_EPOCH → mapGet regReset r a = (s.pairTo pJOIN).reg a) := by
  obtain ⟨r, e, h1, h2⟩ := (s.pairTo pJOIN).joinStart_spec
  refine ⟨r, ?_, h1, h2⟩
  rw [State.pairGo_join, e, State.pairTo_frame]

/-- Every entry: the state word, and the words that an entry may change. -/
theorem State.pairGo_reg (st a : Nat) (h : a / 0x10000 ≠ 4) (h1 : a ≠ regPAIR_ESTAT) (h2 : a ≠ regPAIR_EPOCH) (h3 : a ≠ regPAIR_MATCH) :
    (s.pairGo st).reg a = (s.setRfld regPAIR_STATUS 0 4 st).reg a := by
  refine Eq.trans ?_ (State.pairTo_blocks st a h)
  by_cases e1 : st = pJOIN
  · subst e1
    obtain ⟨r, e, -, hr⟩ := s.pairGo_join_spec
    rw [e]
    exact hr a h1 h2
  · by_cases e2 : st = pMIRROR
    · subst e2
      rw [State.pairGo_mirror]
      exact State.reg_setReg_ne _ _ h3
    · rw [State.pairGo_other e1 e2]

theorem State.pairGo_state (st : Nat) (h : st < 16) : (s.pairGo st).pairState = st :=
  (congrArg (fld · 0 4) (State.pairGo_reg st _ (by decide) (by decide) (by decide) (by decide))).trans
    ((State.rfld_setRfld_self _ _ _ _ _ (by decide)).trans (Nat.mod_eq_of_lt h))

theorem State.pairGo_rbit (st i : Nat) (h : 4 ≤ i) : (s.pairGo st).rbit regPAIR_STATUS i = s.rbit regPAIR_STATUS i :=
  (congrArg (bit · i) (State.pairGo_reg st _ (by decide) (by decide) (by decide) (by decide))).trans
    ((State.rbit_setRfld _ _ _ _ _ _ _ (by decide)).trans (if_neg (by omega)))

/-! ## The rows of R350 that a sample decides -/

/-- The level of BATTEN is shown, and a change raises EV83 (R345). -/
def State.battenShown (s : State) (high : Bool) : State :=
  if s.rbit regPAIR_STATUS 31 = high then s else (s.putRbit regPAIR_STATUS 31 high).raiseEvent 83 (BitVec.ofNat 32 (b2n high))

/-- What a shown level leaves of the module. -/
structure BattenSeen (s : State) (high : Bool) (u : State) : Prop where
  frame : u = { s with regs := u.regs, tokens := u.tokens, seq := u.seq }
  regs : ∀ a, a / 0x10000 ≠ 4 → a ≠ regPAIR_STATUS → u.reg a = s.reg a
  state : u.pairState = s.pairState
  bits : ∀ i, i < 31 → u.rbit regPAIR_STATUS i = s.rbit regPAIR_STATUS i
  level : u.rbit regPAIR_STATUS 31 = high

theorem State.battenShown_seen (s : State) (high : Bool) : BattenSeen s high (s.battenShown high) := by
  unfold State.battenShown
  split
  case isTrue h => exact ⟨rfl, fun _ _ _ => rfl, rfl, fun _ _ => rfl, h⟩
  case isFalse h =>
    have hr : ∀ a, a / 0x10000 ≠ 4 → ((s.putRbit regPAIR_STATUS 31 high).raiseEvent 83 (BitVec.ofNat 32 (b2n high))).reg a = (s.putRbit regPAIR_STATUS 31 high).reg a :=
      fun a ha => State.raiseEvent_reg_block _ _ _ _ (by decide) ha
    refine ⟨?_, fun a ha hp => (hr a ha).trans (State.reg_setReg_ne _ _ hp), ?_, fun i hi => ?_, ?_⟩
    · rw [State.raiseEvent_frame]
      rfl
    · exact (congrArg (fld · 0 4) (hr _ (by decide))).trans (State.rfld_putRbit _ _ _ _ _ _ _ (by decide) (.inr (.inr (by decide))))
    · exact (congrArg (bit · i) (hr _ (by decide))).trans ((State.rbit_putRbit _ _ _ _ _ _ (by decide)).trans (if_neg (by omega)))
    · exact (congrArg (bit · 31) (hr _ (by decide))).trans (State.rbit_put_self _ _ _ (by decide))

theorem BattenSeen.failHeld {high : Bool} (h : BattenSeen s high u) : u.failHeld = s.failHeld := by
  have hl : ∀ k < 256, u.reg (regFAULT_LATCH (k / 32)) = s.reg (regFAULT_LATCH (k / 32)) := fun k hk => by
    refine h.regs _ ?_ ?_ <;> simp only [regFAULT_LATCH, regPAIR_STATUS] <;> omega
  have hc : ∀ k < 256, u.reg (regFAULT_CFG k) = s.reg (regFAULT_CFG k) := fun k hk => by
    refine h.regs _ ?_ ?_ <;> simp only [regFAULT_CFG, regPAIR_STATUS] <;> omega
  have hf : ∀ k ∈ List.range 256, (u.faultLatched k && decide (faultClass k = 3) && u.rbit (regFAULT_CFG k) 2) =
      (s.faultLatched k && decide (faultClass k = 3) && s.rbit (regFAULT_CFG k) 2) := fun k hk => by
    have hk' := List.mem_range.1 hk
    rw [State.faultLatched, State.faultLatched, State.rbit, State.rbit, State.rbit, State.rbit, hl k hk', hc k hk']
  unfold State.failHeld
  rw [Bool.eq_iff_iff, List.any_eq_true, List.any_eq_true]
  exact exists_congr fun k => and_congr_right fun hk => by rw [hf k hk]

theorem exec_battenSample_off (high : Bool) (h : s.pairEn = false) (h2 : s.rbit regPAIR_CFG 31 = false ∨ s.ticking = true) :
    exec (.battenSample high) s = .next s := by
  refine congrArg Host.Outcome.next (if_pos ?_)
  rw [h]
  rcases h2 with h2 | h2 <;> rw [h2]
  · rfl
  · rw [Bool.not_true, Bool.and_false]
    rfl

theorem exec_battenSample_on (high : Bool) (h : s.pairEn = true) : exec (.battenSample high) s =
    .next (if s.ticking then (s.battenShown high).sampleStep high (s.now + 1) else s.battenShown high) := by
  refine congrArg Host.Outcome.next ((if_neg ?_).trans rfl)
  rw [h]
  exact Bool.false_ne_true

/-! ### The rows, state by state -/

theorem State.sampleStep_held_on (high : Bool) (m : Nat) (h : s.failHeld = true) (hs : s.pairState = pHELD) : s.sampleStep high m = s := by
  unfold State.sampleStep
  rw [hs, h]
  rfl

theorem State.sampleStep_idle (high : Bool) (m : Nat) (h : s.pairState = pSINGLE ∨ s.pairState = pACTIVE) : s.sampleStep high m = s := if_pos h

theorem State.sampleStep_to_held (high : Bool) (m : Nat) (h : s.failHeld = true)
    (hs : s.pairState = pCLAIM ∨ s.pairState = pJOIN ∨ s.pairState = pMIRROR ∨ s.pairState = pREADY) : s.sampleStep high m = s.pairGo pHELD := by
  unfold State.sampleStep
  rcases hs with hs | hs | hs | hs <;> rw [hs, h] <;> rfl

theorem State.sampleStep_to_claim (m : Nat) (h : s.failHeld = false) (hs : s.pairState = pHELD ∨ s.pairState = pJOIN ∨ s.pairState = pMIRROR) :
    s.sampleStep true m = s.toClaim := by
  unfold State.sampleStep
  rcases hs with hs | hs | hs <;> rw [hs, h] <;> rfl

theorem State.sampleStep_to_join (m : Nat) (h : s.failHeld = false) (hs : s.pairState = pCLAIM ∨ s.pairState = pHELD) : s.sampleStep false m = s.pairGo pJOIN := by
  unfold State.sampleStep
  rcases hs with hs | hs <;> rw [hs, h] <;> rfl

theorem State.sampleStep_low (m : Nat) (h : s.failHeld = false) (hs : s.pairState = pJOIN ∨ s.pairState = pMIRROR ∨ s.pairState = pREADY) :
    s.sampleStep false m = s := by
  unfold State.sampleStep
  rcases hs with hs | hs | hs <;> rw [hs, h] <;> rfl

theorem State.sampleStep_window (m : Nat) (h : s.failHeld = false) (hs : s.pairState = pCLAIM) : s.sampleStep true m =
    if s.claimWindow ≤ s.claimCount + 1 then s.claim m else { s with claimCount := s.claimCount + 1 } := by
  unfold State.sampleStep
  rw [hs, h]
  rfl

theorem State.sampleStep_ready (m : Nat) (h : s.failHeld = false) (hs : s.pairState = pREADY) : s.sampleStep true m = s.claim m := by
  unfold State.sampleStep
  rw [hs, h]
  rfl

/-! ### ACTIVE (R350, R352, R359) -/

/-- ACTIVE with BATTEN driven low, before what the module forgets. -/
def State.driven (s : State) : State := (s.epochAbort.pairTo pACTIVE).setRbit regPAIR_STATUS 30

/-- What a module that has claimed starts with: the epochs go on behind `e`, nothing is released, forwarding starts afresh. -/
def State.startsActive (s : State) (e : Nat) (mu : List (Nat × Nat)) : State :=
  { s with epochLast := e, epochReq := false, finalEpoch := none, relDue := none, relDone := none, relArmed := false, syncSent := false, mute := mu }

theorem State.driven_mute (s : State) : s.driven.mute = s.mute := by
  obtain ⟨r, e, -⟩ := s.epochAbort_spec
  have hf : s.driven = { s.epochAbort.pairTo pACTIVE with regs := s.driven.regs } := rfl
  rw [hf, State.pairTo_frame, e]

theorem State.pairGo_driven (s : State) : (s.epochAbort.pairGo pACTIVE).setRbit regPAIR_STATUS 30 = s.driven := by
  rw [State.pairGo_other (by decide) (by decide)]
  rfl

/-- A claim: the records of a takeover come first, where there is one. -/
theorem State.claim_eq (m : Nat) : s.claim m = (if s.pairState = pREADY then s.takeover m else s).driven.startsActive (s.reg regPAIR_EPOCH).toNat
    (if s.pairState = pREADY then s.mute else mapSet (fun _ => 64) s.mute 9 0) := by
  have h0 : ∀ b : Bool, ∀ x : State, ((x.epochAbort.pairGo pACTIVE).setRbit regPAIR_STATUS 30).startsActive (s.reg regPAIR_EPOCH).toNat
      (if b then mapSet (fun _ => 64) ((x.epochAbort.pairGo pACTIVE).setRbit regPAIR_STATUS 30).mute 9 0
        else ((x.epochAbort.pairGo pACTIVE).setRbit regPAIR_STATUS 30).mute) =
      x.driven.startsActive (s.reg regPAIR_EPOCH).toNat (if b then mapSet (fun _ => 64) x.mute 9 0 else x.mute) := fun b x => by
    rw [State.pairGo_driven, State.driven_mute]
  have h1 := h0 (decide (s.pairState ≠ pREADY)) (if decide (s.pairState ≠ pREADY) then s else s.takeover m)
  refine Eq.trans (rfl : s.claim m = _) (h1.trans ?_)
  by_cases h : s.pairState = pREADY
  · rw [decide_eq_false (not_not_intro h), if_neg Bool.false_ne_true, if_neg Bool.false_ne_true, if_pos h, if_pos h]
    rfl
  · rw [decide_eq_true h, if_pos rfl, if_pos rfl, if_neg h, if_neg h]

theorem State.driven_spec (s : State) : s.driven.pairState = pACTIVE ∧ s.driven.rbit regPAIR_STATUS 30 = true ∧ s.driven.epochRun = none ∧
    (∀ i, 4 ≤ i → i < 32 → i ≠ 30 → s.driven.rbit regPAIR_STATUS i = s.rbit regPAIR_STATUS i) ∧
    (∀ a, a / 0x10000 ≠ 4 → a ≠ regPAIR_STATUS → a ≠ regPAIR_ESTAT → s.driven.reg a = s.reg a) ∧
    (s.pairState = pREADY → s.driven.reg (regEVT_PAYLOAD 86) = 0) := by
  obtain ⟨r, e, h1, -⟩ := s.epochAbort_spec
  have hr : ∀ a, a ≠ regPAIR_ESTAT → s.epochAbort.reg a = s.reg a := fun a ha => by
    rw [e]
    exact h1 a ha
  have hrun : s.driven.epochRun = none := by
    have hf : s.driven = { s.epochAbort.pairTo pACTIVE with regs := s.driven.regs } := rfl
    rw [hf, State.pairTo_frame, e]
  unfold State.driven at hrun ⊢
  generalize s.epochAbort = x at *
  have hne : ∀ a, a ≠ regPAIR_STATUS → ((x.pairTo pACTIVE).setRbit regPAIR_STATUS 30).reg a = (x.pairTo pACTIVE).reg a := fun a ha => State.reg_setReg_ne _ _ ha
  refine ⟨?_, ?_, hrun, fun i h4 h32 hi => ?_, fun a ha hp hs => ?_, fun h => ?_⟩
  · exact (State.rfld_setRbit _ _ _ _ _ _ (.inr (.inr (by decide)))).trans (State.pairTo_state _ (by decide))
  · exact (State.rbit_setRbit _ _ _ _ _ (by decide)).trans (Bool.or_true _)
  · rw [State.rbit_setRbit _ _ _ _ _ h32, decide_eq_false hi, Bool.and_false, Bool.or_false, State.pairTo_rbit _ _ h4]
    exact congrArg (bit · i) (hr _ (by decide))
  · exact (hne a hp).trans ((State.pairTo_reg _ a ha hp).trans (hr a hs))
  · refine (hne _ (by decide)).trans ((State.pairTo_event pACTIVE).1 ?_ (by decide))
    exact (congrArg (fld · 0 4) (hr _ (by decide))).trans h

/-- What every claim leaves. -/
theorem State.claim_active (m : Nat) : (s.claim m).pairState = pACTIVE ∧ (s.claim m).rbit regPAIR_STATUS 30 = true ∧
    (s.claim m).rbit regPAIR_STATUS 31 = s.rbit regPAIR_STATUS 31 ∧ (s.claim m).epochRun = none ∧ (s.claim m).relDue = none := by
  rw [State.claim_eq]
  have ht : (if s.pairState = pREADY then s.takeover m else s).rbit regPAIR_STATUS 31 = s.rbit regPAIR_STATUS 31 := by
    split
    · refine (congrArg (bit · 31) ((State.reg_setReg_ne _ _ (by decide)).trans (State.reg_setReg_ne _ _ (by decide)))).trans ?_
      exact (State.rbit_setRbit _ _ _ _ _ (by decide)).trans (Bool.or_false _)
    · rfl
  generalize (if s.pairState = pREADY then s.takeover m else s) = x at *
  obtain ⟨h1, h2, h3, h4, -⟩ := x.driven_spec
  exact ⟨h1, h2, (h4 31 (by decide) (by decide) (by decide)).trans ht, h3, rfl⟩

theorem State.claim_fresh (m : Nat) (h : s.pairState ≠ pREADY) : (s.claim m).muteLevel 9 = 0 := by
  rw [State.claim_eq, if_neg h, if_neg h]
  exact mapGet_set_self (fun _ => 64) s.mute 9 0

/-- A takeover out of READY (R359). -/
theorem State.claim_takeover (m : Nat) (h : s.pairState = pREADY) : (s.claim m).rbit regPAIR_STATUS 24 = true ∧
    (s.claim m).reg regPAIR_TAKEOVER = s.reg regPAIR_EPOCH ∧ (s.claim m).muteLevel 9 = s.muteLevel 9 ∧ (s.claim m).reg (regEVT_PAYLOAD 86) = 0 := by
  rw [State.claim_eq, if_pos h, if_pos h]
  obtain ⟨-, -, -, h4, h5, h6⟩ := (s.takeover m).driven_spec
  have hp : (s.takeover m).reg regPAIR_STATUS = (s.setRbit regPAIR_STATUS 24).reg regPAIR_STATUS :=
    (State.reg_setReg_ne _ _ (by decide)).trans (State.reg_setReg_ne _ _ (by decide))
  refine ⟨(h4 24 (by decide) (by decide) (by decide)).trans ((congrArg (bit · 24) hp).trans ?_), (h5 _ (by decide) (by decide) (by decide)).trans ?_, rfl, h6 ?_⟩
  · exact (State.rbit_setRbit _ _ _ _ _ (by decide)).trans (Bool.or_true _)
  · exact (State.reg_setReg_ne _ _ (by decide)).trans (State.reg_setReg_self _ _ _)
  · exact (congrArg (fld · 0 4) hp).trans ((State.rfld_setRbit _ _ _ _ _ _ (.inr (.inr (by decide)))).trans h)

/-! ### A sample of a paired module -/

section
variable {high : Bool} (hp : s.pairEn = true) (ht : s.ticking = true)
include hp

theorem exec_battenSample_early (ht : s.ticking = false) : exec (.battenSample high) s = .next (s.battenShown high) :=
  (exec_battenSample_on high hp).trans (congrArg _ (if_neg (ht ▸ Bool.false_ne_true)))

include ht

theorem exec_battenSample_ticking : exec (.battenSample high) s = .next ((s.battenShown high).sampleStep high (s.now + 1)) :=
  (exec_battenSample_on high hp).trans (congrArg _ (if_pos ht))

theorem exec_battenSample_same (h : (s.battenShown high).sampleStep high (s.now + 1) = s.battenShown high) :
    exec (.battenSample high) s = .next (s.battenShown high) := (exec_battenSample_ticking hp ht).trans (congrArg _ h)

/-- A row that enters a state keeps the level shown. -/
theorem exec_battenSample_goes (st : Nat) (hst : st < 16) (h : (s.battenShown high).sampleStep high (s.now + 1) = (s.battenShown high).pairGo st) :
    ∃ t, exec (.battenSample high) s = .next t ∧ t.pairState = st ∧ t.rbit regPAIR_STATUS 31 = high :=
  ⟨_, (exec_battenSample_ticking hp ht).trans (congrArg _ h), State.pairGo_state st hst, (State.pairGo_rbit st 31 (by decide)).trans (s.battenShown_seen high).level⟩

theorem exec_battenSample_claimed (h : (s.battenShown high).sampleStep high (s.now + 1) = (s.battenShown high).claim (s.now + 1)) :
    exec (.battenSample high) s = .next ((s.battenShown high).claim (s.now + 1)) ∧ ((s.battenShown high).claim (s.now + 1)).pairState = pACTIVE ∧
      ((s.battenShown high).claim (s.now + 1)).rbit regPAIR_STATUS 30 = true ∧ ((s.battenShown high).claim (s.now + 1)).rbit regPAIR_STATUS 31 = high ∧
      ((s.battenShown high).claim (s.now + 1)).epochRun = none ∧ ((s.battenShown high).claim (s.now + 1)).relDue = none := by
  obtain ⟨h1, h2, h3, h4, h5⟩ := (s.battenShown high).claim_active (s.now + 1)
  exact ⟨(exec_battenSample_ticking hp ht).trans (congrArg _ h), h1, h2, h3.trans (s.battenShown_seen high).level, h4, h5⟩

end

theorem exec_battenRelease_armed (st : Nat) (h : s.relDue = some st) (ha : s.relArmed = true) :
    exec .battenRelease s = .next { s.putRbit regPAIR_STATUS 30 false with relDue := none, relArmed := false, relDone := some st } := by
  refine congrArg Host.Outcome.next ?_
  rw [h]
  exact if_pos ha

theorem exec_battenRelease_idle (h : s.relDue = none ∨ s.relArmed = false) : exec .battenRelease s = .next s := by
  refine congrArg Host.Outcome.next ?_
  split
  case h_1 st hs =>
    rcases h with h | h
    · exact nomatch h.symm.trans hs
    · exact if_neg (h ▸ Bool.false_ne_true)
  case h_2 => rfl

/-- Settles O57, row by row. -/
theorem battenRules : Obligations.BattenRules := by
  unfold Obligations.BattenRules
  intro s high
  have hu := s.battenShown_seen high
  have hw : (s.battenShown high).claimWindow = if s.rbit regPAIR_STATUS 29 then 6 else 2 := by rw [State.claimWindow, hu.bits 29 (by decide)]
  have hc : (s.battenShown high).claimCount = s.claimCount := by rw [hu.frame]
  refine ⟨exec_battenSample_off high, exec_battenSample_early, fun hp ht => ⟨fun h => ?_, fun hf h => ?_, fun hf h => ?_, fun hf => ⟨?_, ?_, ?_, ?_, ?_, ?_⟩⟩,
    exec_battenRelease_armed, exec_battenRelease_idle⟩
  · exact exec_battenSample_same hp ht (State.sampleStep_idle _ _ (by rwa [hu.state]))
  · exact exec_battenSample_same hp ht (State.sampleStep_held_on _ _ (hu.failHeld.trans hf) (hu.state.trans h))
  · exact exec_battenSample_goes hp ht pHELD (by decide) (State.sampleStep_to_held _ _ (hu.failHeld.trans hf) (by rwa [hu.state]))
  · rintro rfl h
    exact ⟨_, (exec_battenSample_ticking hp ht).trans (congrArg _ (State.sampleStep_to_claim _ (hu.failHeld.trans hf) (by rwa [hu.state]))),
      State.pairGo_state pCLAIM (by decide), rfl⟩
  · rintro rfl h
    exact exec_battenSample_goes hp ht pJOIN (by decide) (State.sampleStep_to_join _ (hu.failHeld.trans hf) (by rwa [hu.state]))
  · rintro rfl h
    exact exec_battenSample_same hp ht (State.sampleStep_low _ (hu.failHeld.trans hf) (by rwa [hu.state]))
  · rintro rfl h hn
    have e := State.sampleStep_window (s := s.battenShown true) (s.now + 1) (hu.failHeld.trans hf) (hu.state.trans h)
    rw [hw, hc, if_neg (Nat.not_le.2 hn)] at e
    exact (exec_battenSample_ticking hp ht).trans (congrArg _ e)
  · rintro rfl h hn
    have e := State.sampleStep_window (s := s.battenShown true) (s.now + 1) (hu.failHeld.trans hf) (hu.state.trans h)
    rw [hw, hc, if_pos hn] at e
    refine ⟨_, exec_battenSample_claimed hp ht e, State.claim_fresh _ ?_⟩
    rw [hu.state, h]
    decide
  · rintro rfl h
    obtain ⟨h1, h2, h3, h4⟩ := (s.battenShown true).claim_takeover (s.now + 1) (hu.state.trans h)
    have hm : (s.battenShown true).muteLevel 9 = s.muteLevel 9 := by
      rw [hu.frame]
      rfl
    exact ⟨_, exec_battenSample_claimed hp ht (State.sampleStep_ready _ (hu.failHeld.trans hf) (hu.state.trans h)), h1,
      h2.trans (hu.regs _ (by decide) (by decide)), h3.trans hm, h4⟩

end Sys2Proof.Machine
end

section
/-! Epochs, the release and the resync of a pair (R350, R357, R358, R360). -/

namespace Sys2Proof.Machine

-- One theorem after another, so that the compile of the whole text stays within its memory.
set_option Elab.async false

variable {s t u : State}

/-! ## Reads by a block leave the DRAM alone (R370) -/

theorem State.raiseAll_dram (srcs : List Nat) (det : Option (Bool × Word × Word)) : (s.raiseAll srcs det).dram = s.dram := by
  have h := s.raiseAll_shape srcs det
  unfold State.faultShape at h
  rw [h]

theorem State.creset_dram (src : Nat) : (s.creset src).dram = s.dram := by rw [State.creset_frame]

theorem State.corrected_dram (inj : Bool) (det syn : Word) : (s.corrected inj det syn).dram = s.dram := by
  unfold State.corrected
  dsimp only
  split
  · rfl
  · exact State.raiseAll_dram _ _

theorem State.uncorrectable_dram (k : Nat) (inj : Bool) (det syn : Word) : (s.uncorrectable k inj det syn).dram = s.dram := by
  unfold State.uncorrectable
  rw [State.creset_dram]
  split
  · rfl
  · exact State.raiseAll_dram _ _

theorem State.memRead_dram (k u : Nat) : (s.memRead k u).dram = s.dram := by
  unfold State.memRead
  dsimp only
  repeat' split
  all_goals
    simp only [State.corrected_dram, State.uncorrectable_dram]
  all_goals rfl

theorem State.dramTouch_dram (w n : Nat) : (s.dramTouch w n).dram = s.dram := by
  unfold State.dramTouch State.memTouch
  dsimp only
  split
  · exact State.memRead_dram _ _
  · rfl

/-! ## Words of DRAM written one after another -/

/-- The words of a list are in place, and no other word has changed. -/
theorem State.dramSetMany_spec (vs : List Word) (w : Nat) (s : State) :
    (∃ d x, s.dramSetMany w vs = { s with dram := d, raced := x }) ∧ (∀ i, i < vs.length → (s.dramSetMany w vs).dramGet (w + i) = nthD vs i 0) ∧
    ∀ u, (u < w ∨ w + vs.length ≤ u) → (s.dramSetMany w vs).dramGet u = s.dramGet u := by
  induction vs generalizing w s with
  | nil => exact ⟨⟨_, _, rfl⟩, fun _ h => absurd h (Nat.not_lt_zero _), fun _ _ => rfl⟩
  | cons v vs ih =>
    obtain ⟨⟨d, x, e⟩, h1, h2⟩ := ih (w + 1) (s.dramSet w v)
    refine ⟨⟨d, x, e⟩, fun i hi => ?_, fun u hu => (h2 u (by rw [List.length_cons] at hu; omega)).trans (State.dramGet_set_ne _ _ (by
      rw [List.length_cons] at hu
      omega))⟩
    cases i with
    | zero => exact (h2 w (.inl (Nat.lt_succ_self w))).trans (State.dramGet_set_self s w v)
    | succ i =>
      have e := h1 i (Nat.lt_of_succ_lt_succ hi)
      rwa [Nat.add_assoc, Nat.add_comm 1 i] at e

/-! ## The start of an epoch (R357) -/

/-- One region of an epoch, as the registers of `s` place it: read where it lies in its place, EV5 elsewhere. -/
def State.epochRegion (s t : State) (r : Nat) : State := if s.eregOk r then t.dramTouch (s.ereg r 0) (s.ereg r 1) else t.configError (0xF0100 + 16 * r)

/-- The regions of an epoch. -/
def State.epochRegions (s : State) : State := ((List.range 16).filter fun r => decide (0 < s.ereg r 1)).foldl s.epochRegion s

theorem State.epochRegion_dram (s t : State) (r : Nat) : (s.epochRegion t r).dram = t.dram := by
  unfold State.epochRegion
  split
  · exact State.dramTouch_dram _ _
  · rw [State.configError, State.raiseEvent_frame]

theorem State.epochRegions_dram (s : State) : s.epochRegions.dram = s.dram := by
  have h : ∀ (l : List Nat) (t : State), (l.foldl s.epochRegion t).dram = t.dram := fun l => by
    induction l with
    | nil => exact fun _ => rfl
    | cons r l ih => exact fun t => (ih _).trans (s.epochRegion_dram t r)
  exact h _ s

/-- Epoch `n` is in progress since frame `k`. -/
def State.epochRuns (s : State) (n k : Nat) (fin : Option Nat) : State :=
  { s.setRbit regPAIR_ESTAT 31 with epochLast := n, epochRun := some (n, k), epochReq := false, finalEpoch := fin }

theorem exec_epochStart_idle (h : ¬ (s.ticking = true ∧ s.pairState = pACTIVE ∧ s.epochRun = none ∧
    (s.epochReq = true ∨ s.finalEpoch = some 0 ∨ 0 < s.rfld regPAIR_CFG 0 16))) : exec .epochStart s = .next s := congrArg Host.Outcome.next (if_neg h)

/-- The next epoch has begun, or is interrupted at once without a link. -/
def State.epochBegun (s : State) (n : Nat) (fin : Option Nat) : State :=
  if s.rbit regPAIR_STATUS 28 then s.epochRegions.epochRuns n s.now fin
  else { (s.epochRegions.epochRuns n s.now fin).epochAbort with finalEpoch := if fin.isSome then some 0 else none }

/-- The final epoch, where it is asked for, is the one that starts. -/
def State.epochFinal (s : State) (n : Nat) : Option Nat := if s.finalEpoch = some 0 then some n else s.finalEpoch

theorem exec_epochStart_due (h : s.ticking = true ∧ s.pairState = pACTIVE ∧ s.epochRun = none ∧
    (s.epochReq = true ∨ s.finalEpoch = some 0 ∨ 0 < s.rfld regPAIR_CFG 0 16)) :
    exec .epochStart s = .next (s.epochBegun ((s.epochLast + 1) % 2 ^ 32) (s.epochFinal ((s.epochLast + 1) % 2 ^ 32))) := by
  refine (congrArg Host.Outcome.next (if_pos h)).trans ?_
  generalize (s.epochLast + 1) % 2 ^ 32 = n
  rfl

theorem exec_epochStart_spec (h1 : s.ticking = true) (h2 : s.pairState = pACTIVE) (h3 : s.epochRun = none)
    (h4 : s.epochReq = true ∨ s.finalEpoch = some 0 ∨ 0 < s.rfld regPAIR_CFG 0 16) :
    ∃ t, exec .epochStart s = .next t ∧ t.epochLast = (s.epochLast + 1) % 2 ^ 32 ∧ t.epochReq = false ∧ t.dram = s.dram ∧
      (s.rbit regPAIR_STATUS 28 = true → t.epochRun = some ((s.epochLast + 1) % 2 ^ 32, s.now) ∧ t.rbit regPAIR_ESTAT 31 = true ∧
        t.finalEpoch = (if s.finalEpoch = some 0 then some ((s.epochLast + 1) % 2 ^ 32) else s.finalEpoch)) ∧
      (s.rbit regPAIR_STATUS 28 = false → t.epochRun = none ∧ t.rbit regPAIR_ESTAT 31 = false ∧ t.rbit regPAIR_ESTAT 29 = true) := by
  refine ⟨_, exec_epochStart_due ⟨h1, h2, h3, h4⟩, ?_⟩
  have hd := s.epochRegions_dram
  generalize (s.epochLast + 1) % 2 ^ 32 = n
  rw [show (if s.finalEpoch = some 0 then some n else s.finalEpoch) = s.epochFinal n from rfl]
  generalize s.epochFinal n = fin
  unfold State.epochBegun
  generalize s.epochRegions = x at *
  cases s.rbit regPAIR_STATUS 28 with
  | true =>
    rw [if_pos rfl]
    refine ⟨rfl, rfl, hd, fun _ => ⟨rfl, ?_, rfl⟩, fun g => Bool.noConfusion g⟩
    exact (State.rbit_setRbit x _ _ _ _ (by decide)).trans (Bool.or_true _)
  | false =>
    rw [if_neg Bool.false_ne_true]
    obtain ⟨r, e, -, hb, -⟩ := (x.epochRuns n s.now fin).epochAbort_spec
    obtain ⟨b1, b2⟩ := hb rfl
    rw [e]
    exact ⟨rfl, rfl, hd, fun g => Bool.noConfusion g, fun _ => ⟨rfl, b1, b2⟩⟩

/-! ## Epochs that are received (R357) -/

/-- The CRC state that a block of epoch `num` goes on from. -/
def State.epochCrc (s : State) (num : Word) : Word := match s.epochRx with | some (k, c) => if k = num.toNat then c else 0xFFFFFFFF#32 | none => 0xFFFFFFFF#32

theorem exec_epochData_follows (num : Word) (r : Fin 16) (off : Nat) (ws : List Word) (h : s.follows = true) : exec (.epochDataReceive num r off ws) s =
    .next { (if s.eregOk r.val && decide (off + ws.length ≤ s.ereg r.val 1) then s.dramSetMany (s.ereg r.val (if s.rbit regPAIR_ESTAT 30 then 2 else 3) + off) ws else s) with
      epochRx := some (num.toNat, (wordsLE ws).foldl crcByte (s.epochCrc num)) } := congrArg Host.Outcome.next (if_pos h)

theorem exec_epochData_ignored (num : Word) (r : Fin 16) (off : Nat) (ws : List Word) (h : s.follows = false) : exec (.epochDataReceive num r off ws) s = .next s :=
  congrArg Host.Outcome.next (if_neg (h ▸ Bool.false_ne_true))

theorem exec_epochData_spec (num : Word) (r : Fin 16) (off : Nat) (ws : List Word) (h : s.follows = true) :
    ∃ t, exec (.epochDataReceive num r off ws) s = .next t ∧
      t = { s with dram := t.dram, raced := t.raced, epochRx := some (num.toNat, (wordsLE ws).foldl crcByte (s.epochCrc num)) } ∧
      (¬ (s.eregOk r.val = true ∧ off + ws.length ≤ s.ereg r.val 1) → t.dram = s.dram) ∧
      (s.eregOk r.val = true ∧ off + ws.length ≤ s.ereg r.val 1 →
        (∀ i, i < ws.length → t.dramGet (s.ereg r.val (if s.rbit regPAIR_ESTAT 30 then 2 else 3) + off + i) = nthD ws i 0) ∧
        ∀ w, (w < s.ereg r.val (if s.rbit regPAIR_ESTAT 30 then 2 else 3) + off ∨ s.ereg r.val (if s.rbit regPAIR_ESTAT 30 then 2 else 3) + off + ws.length ≤ w) →
          t.dramGet w = s.dramGet w) := by
  refine ⟨_, exec_epochData_follows num r off ws h, ?_⟩
  generalize s.ereg r.val (if s.rbit regPAIR_ESTAT 30 then 2 else 3) + off = base
  generalize (wordsLE ws).foldl crcByte (s.epochCrc num) = crc
  have hc : (s.eregOk r.val && decide (off + ws.length ≤ s.ereg r.val 1)) = true ↔ s.eregOk r.val = true ∧ off + ws.length ≤ s.ereg r.val 1 := by
    rw [Bool.and_eq_true, decide_eq_true_eq]
  by_cases hf : s.eregOk r.val = true ∧ off + ws.length ≤ s.ereg r.val 1
  · obtain ⟨⟨d, x, e⟩, h1, h2⟩ := s.dramSetMany_spec ws base
    rw [if_pos (hc.2 hf)]
    refine ⟨?_, fun g => absurd hf g, fun _ => ⟨h1, h2⟩⟩
    rw [e]
  · rw [if_neg fun g => hf (hc.1 g)]
    exact ⟨rfl, fun _ => rfl, fun g => absurd g hf⟩

theorem State.epochGot (num : Word) : (match s.epochRx with | some (n, c) => if n = num.toNat then ~~~c else ~~~0xFFFFFFFF#32 | none => ~~~0xFFFFFFFF#32) = ~~~(s.epochCrc num) := by
  unfold State.epochCrc
  split
  · split <;> rfl
  · rfl

theorem exec_epochMarker_follows (num : Word) (start : BitVec 64) (crc : Word) (h : s.follows = true) : exec (.epochCommitMarker num start crc) s =
    .next (if ~~~(s.epochCrc num) ≠ crc then ({ s with epochRx := none } : State).setRbit regPAIR_ESTAT 28
      else if s.reg regPAIR_EPOCH = 0 ∨ (s.reg regPAIR_EPOCH).toNat < num.toNat then ({ s with epochRx := none } : State).epochLive num start.toNat
      else { s with epochRx := none }) := by
  refine congrArg Host.Outcome.next ((if_pos h).trans ?_)
  rw [← State.epochGot]
  rfl

theorem exec_epochMarker_ignored (num : Word) (start : BitVec 64) (crc : Word) (h : s.follows = false) : exec (.epochCommitMarker num start crc) s = .next s :=
  congrArg Host.Outcome.next (if_neg (h ▸ Bool.false_ne_true))

/-- LIVE flips, with the number and EV85. -/
def State.epochShown (s : State) (num : Word) (k : Nat) : State :=
  ({ (s.putRbit regPAIR_ESTAT 30 (!s.rbit regPAIR_ESTAT 30)).setReg regPAIR_EPOCH num with liveStart := k } : State).raiseEvent 85 num

theorem State.epochShown_spec (s : State) (num : Word) (k : Nat) : (s.epochShown num k).rbit regPAIR_ESTAT 30 = !s.rbit regPAIR_ESTAT 30 ∧
    (s.epochShown num k).reg regPAIR_EPOCH = num ∧ (s.epochShown num k).liveStart = k ∧ (s.epochShown num k).epochRx = s.epochRx ∧
    (s.epochShown num k).reg (regEVT_PAYLOAD 85) = num ∧ (s.epochShown num k).pairState = s.pairState ∧ (s.epochShown num k).joinStep = s.joinStep := by
  have hf : (s.epochShown num k).liveStart = k ∧ (s.epochShown num k).epochRx = s.epochRx ∧ (s.epochShown num k).joinStep = s.joinStep := by
    rw [State.epochShown, State.raiseEvent_frame]
    exact ⟨rfl, rfl, rfl⟩
  have hr : ∀ a, a / 0x10000 ≠ 4 → (s.epochShown num k).reg a = ((s.putRbit regPAIR_ESTAT 30 (!s.rbit regPAIR_ESTAT 30)).setReg regPAIR_EPOCH num).reg a :=
    fun a ha => State.raiseEvent_reg_block _ _ _ _ (by decide) ha
  obtain ⟨f1, f2, f3⟩ := hf
  refine ⟨?_, (hr _ (by decide)).trans (State.reg_setReg_self _ _ _), f1, f2, State.raiseEvent_payload _ _ _ (by decide), ?_, f3⟩
  · exact (congrArg (bit · 30) ((hr _ (by decide)).trans (State.reg_setReg_ne _ _ (by decide)))).trans (State.rbit_put_self _ _ _ (by decide))
  · exact congrArg (fld · 0 4) ((hr _ (by decide)).trans ((State.reg_setReg_ne _ _ (by decide)).trans (State.reg_setReg_ne _ _ (by decide))))

theorem State.epochLive_eq (num : Word) (k : Nat) : s.epochLive num k =
    if (s.epochShown num k).pairState = pJOIN ∧ (s.epochShown num k).joinStep = 4 then ({ s.epochShown num k with joinStep := 5 } : State).pairGo pMIRROR
    else s.epochShown num k := rfl

/-- MIRROR is entered: the match run starts, nothing else of the epochs changes (R355). -/
theorem State.pairGo_mirror_spec (s : State) : (s.pairGo pMIRROR).pairState = pMIRROR ∧ (s.pairGo pMIRROR).liveStart = s.liveStart ∧ (s.pairGo pMIRROR).epochRx = s.epochRx ∧
    ∀ a, a / 0x10000 ≠ 4 → a ≠ regPAIR_STATUS → a ≠ regPAIR_MATCH → (s.pairGo pMIRROR).reg a = s.reg a := by
  have hf : (s.pairTo pMIRROR).liveStart = s.liveStart ∧ (s.pairTo pMIRROR).epochRx = s.epochRx := by
    rw [State.pairTo_frame]
    exact ⟨rfl, rfl⟩
  refine ⟨State.pairGo_state pMIRROR (by decide), hf.1, hf.2, fun a h1 h2 h3 => ?_⟩
  rw [State.pairGo_mirror]
  exact (State.reg_setReg_ne ({ s.pairTo pMIRROR with matched := [] } : State) _ h3).trans (State.pairTo_reg pMIRROR a h1 h2)

theorem State.epochLive_spec (s : State) (num : Word) (k : Nat) : (s.epochLive num k).rbit regPAIR_ESTAT 30 = !s.rbit regPAIR_ESTAT 30 ∧
    (s.epochLive num k).reg regPAIR_EPOCH = num ∧ (s.epochLive num k).liveStart = k ∧ (s.epochLive num k).epochRx = s.epochRx ∧
    (s.epochLive num k).reg (regEVT_PAYLOAD 85) = num ∧ (s.epochLive num k).pairState = if s.pairState = pJOIN ∧ s.joinStep = 4 then pMIRROR else s.pairState := by
  obtain ⟨h1, h2, h3, h4, h5, h6, h7⟩ := s.epochShown_spec num k
  rw [State.epochLive_eq, h6, h7]
  generalize s.epochShown num k = x at *
  by_cases hj : s.pairState = pJOIN ∧ s.joinStep = 4
  · rw [if_pos hj, if_pos hj]
    obtain ⟨g1, g2, g3, g4⟩ := ({ x with joinStep := 5 } : State).pairGo_mirror_spec
    refine ⟨(congrArg (bit · 30) (g4 _ (by decide) (by decide) (by decide))).trans h1, (g4 _ (by decide) (by decide) (by decide)).trans h2, g2.trans h3, g3.trans h4, ?_, g1⟩
    refine Eq.trans ?_ h5
    have hn : x.pairState ≠ pREADY := by
      rw [h6, hj.1]
      decide
    have he : ({ x with joinStep := 5 } : State).pairTo pMIRROR = ({ x with joinStep := 5 } : State).setRfld regPAIR_STATUS 0 4 pMIRROR :=
      (if_neg fun g => hn g.1).trans (if_neg fun g => absurd g.1 (by decide))
    rw [State.pairGo_mirror, he]
    exact (State.reg_setReg_ne ({ ({ x with joinStep := 5 } : State).setRfld regPAIR_STATUS 0 4 pMIRROR with matched := [] } : State) _ (by decide)).trans
      (State.reg_setReg_ne ({ x with joinStep := 5 } : State) _ (by decide))
  · rw [if_neg hj, if_neg hj]
    exact ⟨h1, h2, h3, h4, h5, h6⟩

/-! ## Commands of software (R350, R357, R358) -/

theorem State.release_other (force : Bool) (h : s.pairState ≠ pACTIVE) : s.release force = s := if_pos h

theorem State.release_active (force : Bool) (h : s.pairState = pACTIVE) : s.release force =
    if s.partnerReady then (if s.finalEpoch.isSome then s else { s with finalEpoch := some 0 })
    else if force then { s with relDue := some pMIRROR, finalEpoch := none } else s.setRbit regPAIR_STATUS 22 := if_neg (not_not_intro h)

theorem exec_resync_standby (m : Master) (h : s.pairState = pJOIN ∨ s.pairState = pMIRROR ∨ s.pairState = pREADY) :
    ∃ t, exec (.resync m) s = .next t ∧ t.pairState = pJOIN ∧ t.joinStep = 0 ∧ t.skewGood = 0 ∧ t.reg regPAIR_EPOCH = 0 ∧ t.epochRun = none ∧
      (s.pairState = pREADY → t.reg (regEVT_PAYLOAD 86) = 0) := by
  refine ⟨_, congrArg Host.Outcome.next (if_pos h), State.pairGo_state pJOIN (by decide), ?_⟩
  obtain ⟨r, e, h1, h2⟩ := s.pairGo_join_spec
  rw [e]
  exact ⟨rfl, rfl, h1, rfl, fun g => (h2 _ (by decide) (by decide)).trans ((State.pairTo_event pJOIN).1 g (by decide))⟩

/-- Settles O60, clause by clause. -/
theorem epochsAndRelease : Obligations.EpochsAndRelease := by
  unfold Obligations.EpochsAndRelease
  intro s m num crc start r off ws
  refine ⟨exec_epochStart_spec, fun h => ⟨exec_epochData_spec num r off ws h, fun hc => ?_, fun hc h0 hle => ?_, fun hc hn => ?_⟩,
    fun h => ⟨exec_epochData_ignored num r off ws h, exec_epochMarker_ignored num start crc h⟩,
    fun h => ⟨congrArg _ (State.release_other false h), congrArg _ (State.release_other true h), congrArg Host.Outcome.next (if_neg h), exec_epochStart_idle fun g => h g.2.1⟩,
    fun h => ⟨congrArg Host.Outcome.next (if_pos h), fun hr hf => ?_, fun hr hf => ?_, fun hr => ?_⟩, exec_resync_standby m, fun h => congrArg Host.Outcome.next (if_neg h)⟩
  · exact (exec_epochMarker_follows num start crc h).trans (congrArg _ (if_pos hc))
  · exact (exec_epochMarker_follows num start crc h).trans (congrArg _ ((if_neg (not_not_intro hc)).trans (if_neg (not_or.2 ⟨h0, Nat.not_lt.2 hle⟩))))
  · obtain ⟨e1, e2, e3, e4, e5, e6⟩ := ({ s with epochRx := none } : State).epochLive_spec num start.toNat
    exact ⟨_, (exec_epochMarker_follows num start crc h).trans (congrArg _ ((if_neg (not_not_intro hc)).trans (if_pos hn))), e1, e2, e3, e4, e5, e6⟩
  · have e : ∀ force, s.release force = { s with finalEpoch := some 0 } := fun force => by
      rw [State.release_active force h, if_pos hr, hf]
      rfl
    exact ⟨congrArg _ (e false), congrArg _ (e true)⟩
  · have e : ∀ force, s.release force = s := fun force => by rw [State.release_active force h, if_pos hr, if_pos hf]
    exact ⟨congrArg _ (e false), congrArg _ (e true)⟩
  · have e : ∀ force, s.release force = if force then { s with relDue := some pMIRROR, finalEpoch := none } else s.setRbit regPAIR_STATUS 22 := fun force =>
      (State.release_active force h).trans (if_neg (hr ▸ Bool.false_ne_true))
    exact ⟨congrArg _ (e false), congrArg _ (e true)⟩

end Sys2Proof.Machine
end

section
/-! Parameter sync, forwarded records and scene copies of a pair (R353, R356). -/

namespace Sys2Proof.Machine

-- One theorem after another, so that the compile of the whole text stays within its memory.
set_option Elab.async false

variable {s t u : State}

/-! ## The sync record, and what a module that does not follow ignores -/

theorem exec_syncRecord_due (h1 : s.pairState = pACTIVE) (h2 : s.rbit regPAIR_STATUS 28 = true) (h3 : s.rfld regPAIR_STATUS 16 4 = pJOIN) (h4 : s.syncSent = false) :
    ∃ t, exec .syncRecord s = .next t ∧ t = { s with syncSent := true, fwdSent := t.fwdSent, freeCtr := t.freeCtr } ∧ s.fwdSent < t.fwdSent := by
  refine ⟨_, congrArg Host.Outcome.next (if_pos ⟨h1, h2, h3, ?_⟩), rfl, ?_⟩
  · exact Nat.lt_succ_of_le (Nat.le_add_right _ _)
  · rw [h4]
    rfl

theorem exec_syncRecord_sent (h : s.syncSent = true) : exec .syncRecord s = .next s := by
  refine congrArg Host.Outcome.next (if_neg ?_)
  rintro ⟨-, -, -, g⟩
  rw [h] at g
  exact Bool.false_ne_true g

theorem exec_forwarded_ignored (hdr mask : Word) (ws : List Word) (ticket : Byte) (c : BitVec 64) (h : s.follows = false) (i : Instr)
    (hi : i = .forwardedEntryReceive hdr ws ∨ i = .resolutionRecordReceive ticket mask c ∨ i = .forwardedCancelReceive ticket) : exec i s = .next s := by
  have hn : (!s.follows) = true := by
    rw [h]
    rfl
  rcases hi with rfl | rfl | rfl
  · exact congrArg Host.Outcome.next (if_pos hn)
  · exact congrArg Host.Outcome.next (if_pos hn)
  · exact congrArg Host.Outcome.next (if_neg (h ▸ Bool.false_ne_true))

theorem State.follows_not (h : s.follows = true) : ¬ (!s.follows) = true := by
  rw [h]
  exact Bool.false_ne_true

theorem exec_forwardedEntry_commit (hdr : Word) (ws : List Word) (h : s.follows = true) (ho : hdrOp hdr = 2) :
    exec (.forwardedEntryReceive hdr ws) s = .next { s with fwdApplied := s.fwdApplied + 1 } :=
  congrArg Host.Outcome.next ((if_neg (State.follows_not h)).trans (if_pos ho))

theorem exec_forwardedEntry_other (hdr : Word) (ws : List Word) (h : s.follows = true) (ho : hdrOp hdr ≠ 2) :
    exec (.forwardedEntryReceive hdr ws) s = .next (ws.foldl (fun t v => t.pegData 11 v) (s.pegHeader 11 hdr)) :=
  congrArg Host.Outcome.next ((if_neg (State.follows_not h)).trans (if_neg ho))

theorem exec_forwardedCancel (ticket : Byte) (h : s.follows = true) :
    exec (.forwardedCancelReceive ticket) s = .next { s.cancel ticket.toNat with fwdApplied := s.fwdApplied + 1 } := congrArg Host.Outcome.next (if_pos h)

/-! ## Resolution records (R353, R356) -/

/-- The entry of a record that waits. -/
def recordEntry (ticket : Byte) (mask : Word) (f : Nat) : PegEntry :=
  { master := 11, hdr := BitVec.ofNat 32 (0x60000000 + ticket.toNat), words := [mask, BitVec.ofNat 32 f, BitVec.ofNat 32 (f / 2 ^ 32)],
    pos := 0, skipped := false, recA := 0, recLeft := 0, crc := 0xFFFFFFFF#32, loading := false, loaded := false, failed := false, dir := [], ack := none }

/-- Nothing is ahead of a record, and its commit has room. -/
def State.recordFree (s : State) (mask : Word) : Bool := s.pegQueue.isEmpty && !s.commitStalls mask && !s.pegHalted

/-- A record is applied, or waits behind the entries. -/
def State.recordTaken (s : State) (ticket : Byte) (mask : Word) (f : Nat) : State :=
  if s.recordFree mask then { s.resolveForwarded ticket.toNat mask f with fwdApplied := s.fwdApplied + 1 }
  else { s with pegQueue := s.pegQueue ++ [recordEntry ticket mask f] }

/-- The record of all groups ends the parameter sync. -/
def State.recordEnds (s : State) (mask : Word) : State := if mask = 0xFFFFFFFF#32 ∧ s.pairState = pJOIN ∧ s.joinStep = 2 then { s with joinStep := 3 } else s

theorem exec_resolutionRecord_eq (ticket : Byte) (mask : Word) (c : BitVec 64) (h : s.follows = true) :
    exec (.resolutionRecordReceive ticket mask c) s = .next ((s.recordTaken ticket mask ((c.toNat : Int) - s.fcOff).toNat).recordEnds mask) := by
  refine (congrArg Host.Outcome.next (if_neg (State.follows_not h))).trans ?_
  generalize ((c.toNat : Int) - s.fcOff).toNat = f
  rfl

theorem State.recordFree_iff (mask : Word) : s.recordFree mask = true ↔ s.pegQueue = [] ∧ mask &&& s.sealed = 0 ∧ s.commits.length < 16 ∧ s.pegHalted = false := by
  rw [State.recordFree, Bool.and_eq_true, Bool.and_eq_true, List.isEmpty_iff, Bool.not_eq_true', Bool.not_eq_true', State.commitStalls, Bool.or_eq_false_iff,
    decide_eq_false_iff_not, decide_eq_false_iff_not, not_not, Nat.not_le, and_assoc, and_assoc]

theorem State.recordEnds_spec (mask : Word) : (s.recordEnds mask).commits = s.commits ∧ (s.recordEnds mask).pegQueue = s.pegQueue ∧
    (s.recordEnds mask).fwdApplied = s.fwdApplied ∧
    (s.recordEnds mask).joinStep = if mask = 0xFFFFFFFF ∧ s.pairState = pJOIN ∧ s.joinStep = 2 then 3 else s.joinStep := by
  unfold State.recordEnds
  split
  case isTrue h => exact ⟨rfl, rfl, rfl, (if_pos h).symm⟩
  case isFalse h => exact ⟨rfl, rfl, rfl, (if_neg h).symm⟩

theorem State.recordTaken_free (ticket : Byte) (mask : Word) (f : Nat) (h : s.recordFree mask = true) :
    (s.recordTaken ticket mask f).commits = s.commits ++ [{ ticket := ticket.toNat, mask := mask, frame := f, fixed := none }] ∧
    (s.recordTaken ticket mask f).pegQueue = s.pegQueue ∧ (s.recordTaken ticket mask f).fwdApplied = s.fwdApplied + 1 ∧
    (s.recordTaken ticket mask f).pairState = s.pairState ∧ (s.recordTaken ticket mask f).joinStep = s.joinStep := by
  obtain ⟨r, e, hr⟩ := s.resolveForwarded_eq ticket.toNat mask f ticket.isLt
  have hp := congrArg (fld · 0 4) hr.pairStatus
  unfold State.recordTaken
  rw [if_pos h, e]
  exact ⟨rfl, rfl, rfl, hp, rfl⟩

theorem exec_resolutionRecord_spec (ticket : Byte) (mask : Word) (c : BitVec 64) (h : s.follows = true) :
    ∃ t, exec (.resolutionRecordReceive ticket mask c) s = .next t ∧
      (s.recordFree mask = true → t.commits = s.commits ++ [{ ticket := ticket.toNat, mask := mask, frame := ((c.toNat : Int) - s.fcOff).toNat, fixed := none }] ∧
        t.pegQueue = s.pegQueue ∧ t.fwdApplied = s.fwdApplied + 1) ∧
      (s.recordFree mask = false → t.commits = s.commits ∧ t.fwdApplied = s.fwdApplied ∧
        t.pegQueue = s.pegQueue ++ [recordEntry ticket mask ((c.toNat : Int) - s.fcOff).toNat]) ∧
      t.joinStep = (if mask = 0xFFFFFFFF ∧ s.pairState = pJOIN ∧ s.joinStep = 2 then 3 else s.joinStep) := by
  refine ⟨_, exec_resolutionRecord_eq ticket mask c h, ?_⟩
  generalize ((c.toNat : Int) - s.fcOff).toNat = f
  obtain ⟨g1, g2, g3, g4⟩ := State.recordEnds_spec (s := s.recordTaken ticket mask f) mask
  rw [g1, g2, g3, g4]
  cases hf : s.recordFree mask with
  | true =>
    obtain ⟨k1, k2, k3, k4, k5⟩ := State.recordTaken_free ticket mask f hf
    rw [k1, k2, k3, k4, k5]
    exact ⟨fun _ => ⟨rfl, rfl, rfl⟩, fun g => Bool.noConfusion g, rfl⟩
  | false =>
    have e : s.recordTaken ticket mask f = { s with pegQueue := s.pegQueue ++ [recordEntry ticket mask f] } := if_neg (hf ▸ Bool.false_ne_true)
    rw [e]
    exact ⟨fun g => Bool.noConfusion g, fun _ => ⟨rfl, rfl, rfl⟩, rfl⟩

/-! ## Scenes of a joining module (R353) -/

/-- An entry of the partner's directory that names a valid scene which is not here as it is there. -/
def State.sceneMissing (s : State) (e : Fin 1024 × Word × Word × Word × Word) : Bool :=
  bit e.2.1 31 && !(bit (s.sceneDir e.1.val 0) 31 && decide (s.sceneDir e.1.val 1 = e.2.2.1) && decide (s.sceneDir e.1.val 3 = e.2.2.2.2))

/-- The request for a scene. -/
def sceneAsk (e : Fin 1024 × Word × Word × Word × Word) : Nat × List Word := (e.1.val, [e.2.1, e.2.2.1, e.2.2.2.1, e.2.2.2.2])

theorem exec_sceneDirectory_joining (dir : List (Fin 1024 × Word × Word × Word × Word)) (h1 : s.pairState = pJOIN) (h2 : s.joinStep = 3) :
    exec (.sceneDirectoryReceive dir) s =
      .next { s with sceneNeed := (dir.filter s.sceneMissing).map sceneAsk, joinStep := if (dir.filter s.sceneMissing).isEmpty then 4 else 3 } :=
  congrArg Host.Outcome.next (if_pos ⟨h1, h2⟩)

theorem exec_sceneDirectory_spec (dir : List (Fin 1024 × Word × Word × Word × Word)) (h1 : s.pairState = pJOIN) (h2 : s.joinStep = 3) :
    ∃ t, exec (.sceneDirectoryReceive dir) s = .next t ∧ t = { s with sceneNeed := t.sceneNeed, joinStep := t.joinStep } ∧
      (∀ k l, (k, l) ∈ t.sceneNeed ↔ ∃ e ∈ dir, bit e.2.1 31 = true ∧ k = e.1.val ∧ l = [e.2.1, e.2.2.1, e.2.2.2.1, e.2.2.2.2] ∧
        ¬(bit (s.sceneDir k 0) 31 = true ∧ s.sceneDir k 1 = e.2.2.1 ∧ s.sceneDir k 3 = e.2.2.2.2)) ∧
      t.joinStep = (if t.sceneNeed = [] then 4 else 3) := by
  refine ⟨_, exec_sceneDirectory_joining dir h1 h2, rfl, fun k l => List.mem_map.trans (exists_congr fun e => ?_), if_congr ?_ rfl rfl⟩
  · have hm : s.sceneMissing e = true ↔ bit e.2.1 31 = true ∧
        ¬(bit (s.sceneDir e.1.val 0) 31 = true ∧ s.sceneDir e.1.val 1 = e.2.2.1 ∧ s.sceneDir e.1.val 3 = e.2.2.2.2) := by
      rw [State.sceneMissing, Bool.and_eq_true, Bool.not_eq_true', Bool.eq_false_iff, ne_eq, Bool.and_eq_true, Bool.and_eq_true, decide_eq_true_eq, decide_eq_true_eq,
        and_assoc]
    rw [List.mem_filter, hm, sceneAsk, Prod.mk.injEq]
    constructor
    · rintro ⟨⟨hd, hv, hn⟩, rfl, rfl⟩
      exact ⟨hd, hv, rfl, rfl, hn⟩
    · rintro ⟨hd, hv, rfl, rfl, hn⟩
      exact ⟨⟨hd, hv, hn⟩, rfl, rfl⟩
  · exact List.isEmpty_iff.trans List.map_eq_nil_iff.symm

/-- A body is copied into the store with its directory entry, where it lies inside the region. -/
def State.bodyCopied (s : State) (n : Nat) (e : List Word) (ws : List Word) : State :=
  if 4096 ≤ fld (nthD e 0 0) 0 31 ∧ fld (nthD e 0 0) 0 31 + (nthD e 1 0).toNat ≤ s.regionSize 3 then
    (s.dramSetMany (s.regionBase 3 + fld (nthD e 0 0) 0 31) (ws.take (nthD e 1 0).toNat)).dramSetMany (s.regionBase 3 + 4 * n) e
  else s

theorem exec_sceneBody_requested (n : Fin 1024) (ws : List Word) (e : List Word) (h1 : s.pairState = pJOIN) (h2 : s.joinStep = 3)
    (h : (s.sceneNeed.find? fun e => decide (e.1 = n.val)) = some (n.val, e)) : exec (.sceneBodyReceive n ws) s =
      .next { s.bodyCopied n.val e ws with
        sceneNeed := (s.bodyCopied n.val e ws).sceneNeed.filter fun d => decide (d.1 ≠ n.val),
        joinStep := if ((s.bodyCopied n.val e ws).sceneNeed.filter fun d => decide (d.1 ≠ n.val)).isEmpty then 4 else 3 } := by
  refine congrArg Host.Outcome.next ?_
  rw [if_pos ⟨h1, h2⟩, h]
  rfl

/-- What a copy leaves: the words of the body, those of the entry, and no other of the DRAM. -/
theorem State.bodyCopied_spec (n : Fin 1024) (w0 w1 w2 w3 : Word) (ws : List Word) (hl : ws.length = w1.toNat) :
    (∃ d x, s.bodyCopied n.val [w0, w1, w2, w3] ws = { s with dram := d, raced := x }) ∧
    (¬ (4096 ≤ fld w0 0 31 ∧ fld w0 0 31 + ws.length ≤ s.regionSize 3) → (s.bodyCopied n.val [w0, w1, w2, w3] ws).dram = s.dram) ∧
    (4096 ≤ fld w0 0 31 ∧ fld w0 0 31 + ws.length ≤ s.regionSize 3 →
      (∀ i, i < ws.length → (s.bodyCopied n.val [w0, w1, w2, w3] ws).dramGet (s.regionBase 3 + fld w0 0 31 + i) = nthD ws i 0) ∧
      (∀ i, i < 4 → (s.bodyCopied n.val [w0, w1, w2, w3] ws).dramGet (s.regionBase 3 + 4 * n.val + i) = nthD [w0, w1, w2, w3] i 0) ∧
      ∀ u, (u < s.regionBase 3 + fld w0 0 31 ∨ s.regionBase 3 + fld w0 0 31 + ws.length ≤ u) → (u < s.regionBase 3 + 4 * n.val ∨ s.regionBase 3 + 4 * n.val + 4 ≤ u) →
        (s.bodyCopied n.val [w0, w1, w2, w3] ws).dramGet u = s.dramGet u) := by
  have hn := n.isLt
  have he : s.bodyCopied n.val [w0, w1, w2, w3] ws = if 4096 ≤ fld w0 0 31 ∧ fld w0 0 31 + w1.toNat ≤ s.regionSize 3 then
      (s.dramSetMany (s.regionBase 3 + fld w0 0 31) (ws.take w1.toNat)).dramSetMany (s.regionBase 3 + 4 * n.val) [w0, w1, w2, w3] else s := rfl
  rw [he, ← hl, List.take_length]
  generalize s.regionBase 3 = base at *
  generalize fld w0 0 31 = off at *
  by_cases hin : 4096 ≤ off ∧ off + ws.length ≤ s.regionSize 3
  · rw [if_pos hin]
    obtain ⟨⟨d1, x1, e1⟩, a1, a2⟩ := s.dramSetMany_spec ws (base + off)
    obtain ⟨⟨d2, x2, e2⟩, b1, b2⟩ := (s.dramSetMany (base + off) ws).dramSetMany_spec [w0, w1, w2, w3] (base + 4 * n.val)
    refine ⟨⟨d2, x2, ?_⟩, fun g => absurd hin g, fun _ => ⟨fun i hi => (b2 _ (.inr ?_)).trans (a1 i hi), b1, fun u h1 h2 => (b2 u h2).trans (a2 u h1)⟩⟩
    · rw [e2, e1]
    · rw [List.length_cons, List.length_cons, List.length_cons, List.length_singleton]
      omega
  · rw [if_neg hin]
    exact ⟨⟨_, _, rfl⟩, fun _ => rfl, fun g => absurd g hin⟩

theorem exec_sceneBody_ignored (n : Fin 1024) (ws : List Word) (h : s.pairState ≠ pJOIN ∨ s.joinStep ≠ 3) : exec (.sceneBodyReceive n ws) s = .next s := by
  refine congrArg Host.Outcome.next ?_
  rw [if_neg fun g => h.elim (fun k => k g.1) fun k => k g.2]

theorem exec_sceneDirectory_ignored (dir : List (Fin 1024 × Word × Word × Word × Word)) (h : s.pairState ≠ pJOIN ∨ s.joinStep ≠ 3) :
    exec (.sceneDirectoryReceive dir) s = .next s := congrArg Host.Outcome.next (if_neg fun g => h.elim (fun k => k g.1) fun k => k g.2)

/-- Settles O59, clause by clause. -/
theorem parameterSync : Obligations.ParameterSync := by
  unfold Obligations.ParameterSync
  intro s hdr mask ws ticket c n dir
  refine ⟨exec_syncRecord_due, exec_syncRecord_sent, exec_forwarded_ignored hdr mask ws ticket c,
    fun h => ⟨exec_forwardedEntry_commit hdr ws h, exec_forwardedEntry_other hdr ws h, exec_forwardedCancel ticket h, ?_⟩,
    fun h1 h2 => ⟨exec_sceneDirectory_spec dir h1 h2, fun w0 w1 w2 w3 hf hl => ?_⟩,
    fun h => ⟨exec_sceneDirectory_ignored dir h, exec_sceneBody_ignored n ws h⟩⟩
  · obtain ⟨t, e, h1, h2, h3⟩ := exec_resolutionRecord_spec ticket mask c h
    refine ⟨t, e, fun hd => h1 ((State.recordFree_iff mask).2 hd), fun hd => ?_, h3⟩
    obtain ⟨k1, k2, k3⟩ := h2 (Bool.eq_false_iff.2 fun g => hd ((State.recordFree_iff mask).1 g))
    exact ⟨k1, k2, _, k3, rfl, rfl⟩
  · obtain ⟨⟨d, x, e⟩, h4, h5⟩ := s.bodyCopied_spec n w0 w1 w2 w3 ws hl
    have hx := exec_sceneBody_requested n ws _ h1 h2 hf
    generalize s.bodyCopied n.val [w0, w1, w2, w3] ws = b at *
    have hs : b.sceneNeed = s.sceneNeed := by rw [e]
    rw [hs] at hx
    refine ⟨_, hx, ?_, fun k => List.mem_filter.trans (and_congr_right fun _ => decide_eq_true_iff), if_congr List.isEmpty_iff rfl rfl, h4, h5⟩
    rw [e]

end Sys2Proof.Machine
end

section
/-! Heartbeats sent, received and lost (R346, R347, R350, R353, R355 to R358). -/

namespace Sys2Proof.Machine

-- One theorem after another, so that the compile of the whole text stays within its memory.
set_option Elab.async false

variable {s t u : State}

/-! ## Entries of pairing states, and cancels -/

/-- An entry changes registers, events and what JOIN and MIRROR start with. -/
theorem State.pairGo_frame (st : Nat) : s.pairGo st = { s with
    regs := (s.pairGo st).regs, tokens := (s.pairGo st).tokens, seq := (s.pairGo st).seq, epochRun := (s.pairGo st).epochRun, epochRx := (s.pairGo st).epochRx,
    joinStep := (s.pairGo st).joinStep, skewGood := (s.pairGo st).skewGood, skewBad := (s.pairGo st).skewBad, matched := (s.pairGo st).matched,
    sceneNeed := (s.pairGo st).sceneNeed, liveStart := (s.pairGo st).liveStart } := by
  by_cases e1 : st = pJOIN
  · subst e1
    obtain ⟨r, e, -⟩ := s.pairGo_join_spec
    rw [e]
  · by_cases e2 : st = pMIRROR
    · subst e2
      rw [State.pairGo_mirror, State.pairTo_frame]
      rfl
    · rw [State.pairGo_other e1 e2, State.pairTo_frame]

theorem regPEG_LOG_block (k : Nat) : regPEG_LOG (k % 64) 0 / 0x10000 = 5 := by
  rw [regPEG_LOG]
  omega

/-- A cancel changes the pending commits, the log and the events. -/
theorem State.cancel_frame (tk : Nat) : ∃ r c tok q, s.cancel tk = { s with regs := r, commits := c, tokens := tok, seq := q } ∧
    ∀ a, a / 0x10000 ≠ 4 → a / 0x10000 ≠ 5 → mapGet regReset r a = s.reg a := by
  cases h : s.cancelTarget tk with
  | none =>
    have e : s.cancel tk = s.setRbit regPEG_STATUS 22 := by simp only [State.cancel, h]
    exact ⟨_, _, _, _, e, fun a _ h5 => State.reg_setReg_ne _ _ fun g => h5 (g ▸ rfl)⟩
  | some k =>
    have e : s.cancel tk = (s.withdrawn k).raiseEvent 38 (BitVec.ofNat 32 tk) := by simp only [State.cancel, h, State.withdrawn]
    have hr (a : Nat) (h4 : a / 0x10000 ≠ 4) (h5 : a / 0x10000 ≠ 5) : ((s.withdrawn k).raiseEvent 38 (BitVec.ofNat 32 tk)).reg a = s.reg a :=
      (State.raiseEvent_reg_block _ _ _ _ (by decide) h4).trans (s.reg_withdrawn_ne k fun g => h5 (g ▸ regPEG_LOG_block _))
    have hw := s.withdrawn_frame k
    generalize s.withdrawn k = w at *
    rw [hw] at e hr
    exact ⟨_, _, _, _, e.trans (State.raiseEvent_frame _ _ _), hr⟩

/-- Cancels one after another. -/
theorem State.cancels_frame (l : List (Nat × Nat)) : ∃ r c tok q, l.foldl (fun (t : State) e => t.cancel e.1) s = { s with regs := r, commits := c, tokens := tok, seq := q } ∧
    ∀ a, a / 0x10000 ≠ 4 → a / 0x10000 ≠ 5 → mapGet regReset r a = s.reg a := by
  induction l generalizing s with
  | nil => exact ⟨_, _, _, _, rfl, fun _ _ _ => rfl⟩
  | cons e l ih =>
    obtain ⟨r1, c1, t1, q1, e1, h1⟩ := s.cancel_frame e.1
    obtain ⟨r2, c2, t2, q2, e2, h2⟩ := ih (s := s.cancel e.1)
    refine ⟨r2, c2, t2, q2, e2.trans ?_, fun a h4 h5 => (h2 a h4 h5).trans ?_⟩
    · rw [e1]
    · rw [e1]
      exact h1 a h4 h5

/-! ## What the later stages keep of the link -/

/-- The count of the link, the shown state of the partner, LINK and the shown skew are kept. -/
structure LinkKept (s t : State) : Prop where
  run : t.linkRun = s.linkRun
  partner : t.rfld regPAIR_STATUS 16 4 = s.rfld regPAIR_STATUS 16 4
  link : t.rbit regPAIR_STATUS 28 = s.rbit regPAIR_STATUS 28
  skew : t.reg regPAIR_SKEW = s.reg regPAIR_SKEW

namespace LinkKept

theorem refl (s : State) : LinkKept s s := ⟨rfl, rfl, rfl, rfl⟩

theorem of_regs (h : LinkKept s t) (hr : u.regs = t.regs) (hl : u.linkRun = t.linkRun) : LinkKept s u := by
  have hg (a : Nat) : u.reg a = t.reg a := congrArg (mapGet regReset · a) hr
  exact ⟨hl.trans h.run, (congrArg (fld · 16 4) (hg _)).trans h.partner, (congrArg (bit · 28) (hg _)).trans h.link, (hg _).trans h.skew⟩

/-- Neither word of the link changes. -/
theorem of_words (h : LinkKept s t) (hl : u.linkRun = t.linkRun) (hp : u.reg regPAIR_STATUS = t.reg regPAIR_STATUS) (hk : u.reg regPAIR_SKEW = t.reg regPAIR_SKEW) :
    LinkKept s u :=
  ⟨hl.trans h.run, (congrArg (fld · 16 4) hp).trans h.partner, (congrArg (bit · 28) hp).trans h.link, hk.trans h.skew⟩

theorem setReg (h : LinkKept s t) (a : Nat) (v : Word) (h1 : regPAIR_STATUS ≠ a) (h2 : regPAIR_SKEW ≠ a) : LinkKept s (t.setReg a v) :=
  h.of_words rfl (State.reg_setReg_ne _ _ h1) (State.reg_setReg_ne _ _ h2)

/-- A flag of PAIR.STATUS other than LINK. -/
theorem setRbit (h : LinkKept s t) (i : Nat) (hi : 20 ≤ i) (hn : 28 ≠ i) : LinkKept s (t.setRbit regPAIR_STATUS i) := by
  refine ⟨h.run, (State.rfld_setRbit _ _ _ _ _ _ (.inr (.inr hi))).trans h.partner, ?_, (State.reg_setReg_ne _ _ (by decide)).trans h.skew⟩
  rw [State.rbit_setRbit _ _ _ _ _ (by decide), decide_eq_false hn, Bool.and_false, Bool.or_false]
  exact h.link

theorem raiseEvent (h : LinkKept s t) (e : Nat) (w : Word) (he : e < 128) : LinkKept s (t.raiseEvent e w) := by
  refine h.of_words ?_ (State.raiseEvent_reg_block _ _ _ _ he (by decide)) (State.raiseEvent_reg_block _ _ _ _ he (by decide))
  rw [State.raiseEvent_frame]

theorem ite {c : Prop} [Decidable c] (h : LinkKept s t) (g : LinkKept s u) : LinkKept s (if c then t else u) := by
  split
  · exact h
  · exact g

theorem pairGo (h : LinkKept s t) (st : Nat) : LinkKept s (t.pairGo st) := by
  have hr (a : Nat) (h0 : a / 0x10000 ≠ 4) (h1 : a ≠ regPAIR_ESTAT) (h2 : a ≠ regPAIR_EPOCH) (h3 : a ≠ regPAIR_MATCH) :=
    State.pairGo_reg (s := t) st a h0 h1 h2 h3
  have hp := hr regPAIR_STATUS (by decide) (by decide) (by decide) (by decide)
  refine ⟨?_, (congrArg (fld · 16 4) hp).trans ?_, (State.pairGo_rbit st 28 (by decide)).trans h.link,
    (hr _ (by decide) (by decide) (by decide) (by decide)).trans ((State.reg_setReg_ne _ _ (by decide)).trans h.skew)⟩
  · rw [State.pairGo_frame]
    exact h.run
  · exact (State.rfld_setRfld_ne _ _ _ _ _ _ _ _ (by decide) (.inr (.inl (by decide)))).trans h.partner

end LinkKept

/-! ## The heartbeat that goes out (R346) -/

/-- The word of a frame in a list of those that are kept, or an open one. -/
def State.keptWord (s : State) (l : List (Nat × Word)) (k d : Nat) : Word × State :=
  match (if d ≤ k then mapFind l (k - d) else none) with
  | some w => (w, s)
  | none => s.draw

theorem State.keptWord_frame (l : List (Nat × Word)) (k d : Nat) : ∃ c, (s.keptWord l k d).2 = { s with freeCtr := c } := by
  unfold State.keptWord
  split
  · exact ⟨_, rfl⟩
  · exact ⟨_, rfl⟩

theorem State.keptWord_found (l : List (Nat × Word)) (k d : Nat) (w : Word) (hd : d ≤ k) (h : mapFind l (k - d) = some w) : (s.keptWord l k d).1 = w := by
  unfold State.keptWord
  rw [if_pos hd, h]

/-- The heartbeat of the current frame. -/
def State.beat (s : State) : Heartbeat :=
  { fc := s.fc, state := BitVec.ofNat 4 s.pairState, hash := (s.keptWord s.hashes s.now 1).1,
    digest := ((s.keptWord s.hashes s.now 1).2.keptWord s.digests s.now 2).1, epoch := s.reg regPAIR_EPOCH, pegAck := BitVec.ofNat 32 s.fwdApplied }

theorem exec_heartbeatSend_on (h : s.pairEn = true) (ht : s.ticking = true) : ∃ c, exec .heartbeatSend s = .next { s with hbSent := some s.beat, freeCtr := c } := by
  obtain ⟨c1, e1⟩ := State.keptWord_frame (s := s) s.hashes s.now 1
  obtain ⟨c2, e2⟩ := State.keptWord_frame (s := (s.keptWord s.hashes s.now 1).2) s.digests s.now 2
  have hs : exec .heartbeatSend s = .next { ((s.keptWord s.hashes s.now 1).2.keptWord s.digests s.now 2).2 with hbSent := some s.beat } := by
    refine congrArg Host.Outcome.next (if_pos ?_)
    rw [h, ht]
    rfl
  refine ⟨c2, hs.trans (congrArg Host.Outcome.next ?_)⟩
  rw [e2]
  exact congrArg (fun x : State => { x with hbSent := some s.beat, freeCtr := c2 }) e1

/-! ## Gaps and the link (R347) -/

theorem State.hbGap_near (h : s.now ≤ s.hbFrame + 1) : s.hbGap = { s with hbFrame := s.now } := if_pos h

/-- What a gap starts afresh. -/
theorem State.hbGap_spec (s : State) : ∃ r l a b m, s.hbGap = { s with hbFrame := s.now, regs := r, linkRun := l, skewGood := a, skewBad := b, matched := m } ∧
    (∀ a, a ≠ regPAIR_MATCH → mapGet regReset r a = s.reg a) ∧
    (s.hbFrame + 1 < s.now → l = 0 ∧ a = 0 ∧ b = 0 ∧ m = [] ∧ ((s.pairState = pMIRROR ∨ s.pairState = pREADY) → mapGet regReset r regPAIR_MATCH = 0)) := by
  by_cases h : s.now ≤ s.hbFrame + 1
  · exact ⟨_, _, _, _, _, State.hbGap_near h, fun _ _ => rfl, fun g => absurd h (Nat.not_le.2 g)⟩
  · by_cases hp : s.pairState = pMIRROR ∨ s.pairState = pREADY
    · exact ⟨_, _, _, _, _, (if_neg h).trans (if_pos hp), fun a ha => mapGet_set_ne _ _ _ ha, fun _ => ⟨rfl, rfl, rfl, rfl, fun _ => mapGet_set_self _ _ _ _⟩⟩
    · exact ⟨_, _, _, _, _, (if_neg h).trans (if_neg hp), fun _ _ => rfl, fun _ => ⟨rfl, rfl, rfl, rfl, fun g => absurd g hp⟩⟩

/-- The link after a heartbeat is counted. -/
def State.hbCounted (s : State) (hb : Heartbeat) : State :=
  (if 64 ≤ s.linkRun + 1 then ({ s with linkRun := s.linkRun + 1 } : State).setRbit regPAIR_STATUS 28 else { s with linkRun := s.linkRun + 1 }).setRfld regPAIR_STATUS 16 4 hb.state.toNat

theorem State.hbCounted_spec (hb : Heartbeat) : ∃ r, s.hbCounted hb = { s with regs := r, linkRun := s.linkRun + 1 } ∧
    (∀ a, a ≠ regPAIR_STATUS → mapGet regReset r a = s.reg a) ∧ fld (mapGet regReset r regPAIR_STATUS) 16 4 = hb.state.toNat ∧
    (bit (mapGet regReset r regPAIR_STATUS) 28 = true ↔ 64 ≤ s.linkRun + 1 ∨ s.rbit regPAIR_STATUS 28 = true) ∧
    fld (mapGet regReset r regPAIR_STATUS) 0 4 = s.pairState ∧ bit (mapGet regReset r regPAIR_STATUS) 29 = s.rbit regPAIR_STATUS 29 := by
  have hx (x : State) : ((x.setRfld regPAIR_STATUS 16 4 hb.state.toNat).rfld regPAIR_STATUS 16 4 = hb.state.toNat) ∧
      (x.setRfld regPAIR_STATUS 16 4 hb.state.toNat).pairState = x.pairState ∧
      ∀ i, 20 ≤ i → (x.setRfld regPAIR_STATUS 16 4 hb.state.toNat).rbit regPAIR_STATUS i = x.rbit regPAIR_STATUS i :=
    ⟨(State.rfld_setRfld_self _ _ _ _ _ (by decide)).trans (Nat.mod_eq_of_lt hb.state.isLt), State.rfld_setRfld_ne _ _ _ _ _ _ _ _ (by decide) (.inr (.inr (by decide))),
      fun i hi => (State.rbit_setRfld _ _ _ _ _ _ _ (by decide)).trans (if_neg (by omega))⟩
  unfold State.hbCounted
  split
  case isTrue h =>
    obtain ⟨h1, h2, h3⟩ := hx (({ s with linkRun := s.linkRun + 1 } : State).setRbit regPAIR_STATUS 28)
    have hb (i : Nat) (hi : i < 32) : (({ s with linkRun := s.linkRun + 1 } : State).setRbit regPAIR_STATUS 28).rbit regPAIR_STATUS i =
        (s.rbit regPAIR_STATUS i || (decide (regPAIR_STATUS = regPAIR_STATUS) && decide (i = 28))) := State.rbit_setRbit _ _ _ _ _ hi
    refine ⟨_, rfl, fun a ha => (State.reg_setReg_ne _ _ ha).trans (State.reg_setReg_ne _ _ ha), h1, ⟨fun _ => .inl h, fun _ => (h3 28 (by decide)).trans ?_⟩,
      h2.trans (State.rfld_setRbit _ _ _ _ _ _ (.inr (.inr (by decide)))), (h3 29 (by decide)).trans ((hb 29 (by decide)).trans (Bool.or_false _))⟩
    exact (hb 28 (by decide)).trans (Bool.or_true _)
  case isFalse h =>
    obtain ⟨h1, h2, h3⟩ := hx { s with linkRun := s.linkRun + 1 }
    refine ⟨_, rfl, fun a ha => State.reg_setReg_ne _ _ ha, h1, ?_, h2, h3 29 (by decide)⟩
    rw [or_iff_right h]
    exact Bool.eq_iff_iff.1 (h3 28 (by decide))

/-- A heartbeat that is counted shows the partner and the skew (R347, R353). -/
theorem State.hbLink_spec (s : State) (hb : Heartbeat) (skew : Word) : ∃ r y, s.hbLink hb skew = { s with regs := r, linkRun := s.linkRun + 1, syncSent := y } ∧
    (∀ a, a ≠ regPAIR_STATUS → a ≠ regPAIR_SKEW → mapGet regReset r a = s.reg a) ∧ fld (mapGet regReset r regPAIR_STATUS) 16 4 = hb.state.toNat ∧
    (bit (mapGet regReset r regPAIR_STATUS) 28 = true ↔ 64 ≤ s.linkRun + 1 ∨ s.rbit regPAIR_STATUS 28 = true) ∧
    (mapGet regReset r regPAIR_SKEW = if bit (mapGet regReset r regPAIR_STATUS) 28 = true then skew else 0) ∧
    fld (mapGet regReset r regPAIR_STATUS) 0 4 = s.pairState ∧ bit (mapGet regReset r regPAIR_STATUS) 29 = s.rbit regPAIR_STATUS 29 := by
  obtain ⟨r, e, h1, h2, h3, h4, h5⟩ := s.hbCounted_spec hb
  have hl : s.hbLink hb skew = if s.rfld regPAIR_STATUS 16 4 ≠ hb.state.toNat ∧ hb.state.toNat = pJOIN then
        { (s.hbCounted hb).setReg regPAIR_SKEW (if (s.hbCounted hb).rbit regPAIR_STATUS 28 then skew else 0) with syncSent := false }
      else (s.hbCounted hb).setReg regPAIR_SKEW (if (s.hbCounted hb).rbit regPAIR_STATUS 28 then skew else 0) := rfl
  have hp : mapGet regReset (mapSet regReset r regPAIR_SKEW (if bit (mapGet regReset r regPAIR_STATUS) 28 = true then skew else 0)) regPAIR_STATUS =
      mapGet regReset r regPAIR_STATUS := mapGet_set_ne _ _ _ (by decide)
  refine ⟨mapSet regReset r regPAIR_SKEW (if bit (mapGet regReset r regPAIR_STATUS) 28 = true then skew else 0),
    if s.rfld regPAIR_STATUS 16 4 ≠ hb.state.toNat ∧ hb.state.toNat = pJOIN then false else s.syncSent, ?_,
    fun a ha hk => (mapGet_set_ne _ _ _ hk).trans (h1 a ha), ?_⟩
  · rw [hl, e]
    split
    · rfl
    · rfl
  · rw [hp]
    exact ⟨h2, h3, mapGet_set_self _ _ _ _, h4, h5⟩

/-! ## Acknowledgements (R356 to R358) -/

/-- The cancels that the partner has acknowledged are applied. -/
def State.hbCancels (s : State) (hb : Heartbeat) : State :=
  (s.cancelWait.filter fun e => decide (e.2 ≤ hb.pegAck.toNat)).foldl (fun (t : State) e => t.cancel e.1)
    { s with cancelWait := s.cancelWait.filter fun e => decide (hb.pegAck.toNat < e.2) }

/-- The epoch in progress is acknowledged: it is over, with EV85. -/
def State.epochOver (s : State) (hb : Heartbeat) : State :=
  ((({ s with epochRun := none } : State).putRbit regPAIR_ESTAT 31 false).setReg regPAIR_EPOCH hb.epoch).raiseEvent 85 hb.epoch

/-- The end of the final epoch starts the release. -/
def State.epochAcked (s : State) (hb : Heartbeat) (n : Nat) : State :=
  if (s.epochOver hb).finalEpoch = some n then { s.epochOver hb with finalEpoch := none, relDue := some pMIRROR } else s.epochOver hb

theorem State.hbCancels_frame (hb : Heartbeat) : ∃ r c tok q w, s.hbCancels hb = { s with regs := r, commits := c, tokens := tok, seq := q, cancelWait := w } ∧
    ∀ a, a / 0x10000 ≠ 4 → a / 0x10000 ≠ 5 → mapGet regReset r a = s.reg a := by
  obtain ⟨r, c, tok, q, e, h⟩ := State.cancels_frame (s := { s with cancelWait := s.cancelWait.filter fun e => decide (hb.pegAck.toNat < e.2) })
    (s.cancelWait.filter fun e => decide (e.2 ≤ hb.pegAck.toNat))
  exact ⟨r, c, tok, q, _, e, h⟩

theorem State.epochAcked_frame (hb : Heartbeat) (n : Nat) : ∃ r tok q f d, s.epochAcked hb n =
      { s with regs := r, tokens := tok, seq := q, epochRun := none, finalEpoch := f, relDue := d } ∧
    mapGet regReset r regPAIR_EPOCH = hb.epoch ∧ bit (mapGet regReset r regPAIR_ESTAT) 31 = false ∧ mapGet regReset r (regEVT_PAYLOAD 85) = hb.epoch ∧
    (∀ a, a / 0x10000 ≠ 4 → a ≠ regPAIR_ESTAT → a ≠ regPAIR_EPOCH → mapGet regReset r a = s.reg a) := by
  have hf := State.raiseEvent_frame ((({ s with epochRun := none } : State).putRbit regPAIR_ESTAT 31 false).setReg regPAIR_EPOCH hb.epoch) 85 hb.epoch
  have hr (a : Nat) (h4 : a / 0x10000 ≠ 4) := State.raiseEvent_reg_block ((({ s with epochRun := none } : State).putRbit regPAIR_ESTAT 31 false).setReg regPAIR_EPOCH hb.epoch)
    85 hb.epoch a (by decide) h4
  have hp := State.raiseEvent_payload ((({ s with epochRun := none } : State).putRbit regPAIR_ESTAT 31 false).setReg regPAIR_EPOCH hb.epoch) 85 hb.epoch (by decide)
  have h1 := (hr regPAIR_EPOCH (by decide)).trans (State.reg_setReg_self _ _ _)
  have h2 := (congrArg (bit · 31) ((hr regPAIR_ESTAT (by decide)).trans (State.reg_setReg_ne _ _ (by decide)))).trans (State.rbit_put_self _ _ _ (by decide))
  have h3 (a : Nat) (h4 : a / 0x10000 ≠ 4) (he : a ≠ regPAIR_ESTAT) (hn : a ≠ regPAIR_EPOCH) :=
    (hr a h4).trans ((State.reg_setReg_ne _ _ hn).trans (State.reg_setReg_ne ({ s with epochRun := none } : State) _ he))
  unfold State.epochAcked State.epochOver
  generalize ((({ s with epochRun := none } : State).putRbit regPAIR_ESTAT 31 false).setReg regPAIR_EPOCH hb.epoch).raiseEvent 85 hb.epoch = x at *
  split
  · exact ⟨x.regs, x.tokens, x.seq, none, some pMIRROR, congrArg (fun y : State => { y with finalEpoch := none, relDue := some pMIRROR }) hf, h1, h2, hp, h3⟩
  · exact ⟨x.regs, x.tokens, x.seq, _, _, hf, h1, h2, hp, h3⟩

theorem State.hbAcks_other (hb : Heartbeat) (h : s.pairState ≠ pACTIVE) : s.hbAcks hb = s := if_pos h

theorem State.hbAcks_active (hb : Heartbeat) (h : s.pairState = pACTIVE) : s.hbAcks hb = match s.epochRun with
    | none => s.hbCancels hb
    | some (n, _) => if hb.epoch.toNat = n then (s.hbCancels hb).epochAcked hb n else s.hbCancels hb := by
  obtain ⟨r, c, tok, q, w, e, -⟩ := State.hbCancels_frame (s := s) hb
  have he : (s.hbCancels hb).epochRun = s.epochRun := by rw [e]
  have hd : s.hbCancels hb = (s.cancelWait.filter fun e => decide (e.2 ≤ hb.pegAck.toNat)).foldl (fun (t : State) e => t.cancel e.1)
      { s with cancelWait := s.cancelWait.filter fun e => decide (hb.pegAck.toNat < e.2) } := rfl
  unfold State.hbAcks
  dsimp only
  rw [if_neg (not_not.2 h), ← hd]
  generalize s.hbCancels hb = x at *
  rw [he]
  cases s.epochRun with
  | none => rfl
  | some p => rfl

theorem State.hbAcks_none (hb : Heartbeat) (h : s.pairState = pACTIVE) (hn : s.epochRun = none) : s.hbAcks hb = s.hbCancels hb := by
  rw [State.hbAcks_active hb h, hn]

theorem State.hbAcks_some (hb : Heartbeat) (c : Nat) (h : s.pairState = pACTIVE) (hn : s.epochRun = some (hb.epoch.toNat, c)) :
    s.hbAcks hb = (s.hbCancels hb).epochAcked hb hb.epoch.toNat := by
  rw [State.hbAcks_active hb h, hn]
  exact if_pos rfl

theorem State.hbAcks_cases (hb : Heartbeat) : s.hbAcks hb = s ∨ s.hbAcks hb = s.hbCancels hb ∨ ∃ n, s.hbAcks hb = (s.hbCancels hb).epochAcked hb n := by
  by_cases h : s.pairState = pACTIVE
  · cases hn : s.epochRun with
    | none => exact .inr (.inl (State.hbAcks_none hb h hn))
    | some p =>
      have e : s.hbAcks hb = if hb.epoch.toNat = p.1 then (s.hbCancels hb).epochAcked hb p.1 else s.hbCancels hb := by
        rw [State.hbAcks_active hb h, hn]
      by_cases hp : hb.epoch.toNat = p.1
      · exact .inr (.inr ⟨_, e.trans (if_pos hp)⟩)
      · exact .inr (.inl (e.trans (if_neg hp)))
  · exact .inl (State.hbAcks_other hb h)

theorem LinkKept.hbCancels (hb : Heartbeat) (h : LinkKept s t) : LinkKept s (t.hbCancels hb) := by
  obtain ⟨r, c, tok, q, w, e, hr⟩ := State.hbCancels_frame (s := t) hb
  rw [e]
  exact h.of_words rfl (hr _ (by decide) (by decide)) (hr _ (by decide) (by decide))

theorem LinkKept.epochAcked (hb : Heartbeat) (n : Nat) (h : LinkKept s t) : LinkKept s (t.epochAcked hb n) := by
  obtain ⟨r, tok, q, f, d, e, -, -, -, hr⟩ := State.epochAcked_frame (s := t) hb n
  rw [e]
  exact h.of_words rfl (hr _ (by decide) (by decide) (by decide)) (hr _ (by decide) (by decide) (by decide))

theorem LinkKept.hbAcks (hb : Heartbeat) (h : LinkKept s t) : LinkKept s (t.hbAcks hb) := by
  rcases State.hbAcks_cases (s := t) hb with e | e | ⟨n, e⟩ <;> rw [e]
  · exact h
  · exact h.hbCancels hb
  · exact (h.hbCancels hb).epochAcked hb n

/-! ## The alignment of JOIN, and a long skew (R353) -/

theorem State.hbAlign_idle (hb : Heartbeat) (skew : Word) (h : s.ticking = false ∨ (s.pairState ≠ pJOIN ∧ s.pairState ≠ pMIRROR ∧ s.pairState ≠ pREADY)) :
    s.hbAlign hb skew = s := by
  refine if_pos ?_
  rcases h with h | ⟨h1, h2, h3⟩
  · rw [h]
    rfl
  · rw [decide_eq_false h1, decide_eq_false h2, decide_eq_false h3]
    exact Bool.or_true _

/-- JOIN is aligned with its partner: FCOFF is known (R353). -/
def State.aligned (s : State) (hb : Heartbeat) (g : Nat) : State :=
  { (s.setReg regPAIR_FCOFF_LO (lo32 (hb.fc - s.fc))).setReg regPAIR_FCOFF_HI (hi32 (hb.fc - s.fc)) with joinStep := 2, skewGood := g, skewBad := 0 }

theorem State.hbAlign_join (hb : Heartbeat) (skew : Word) (ht : s.ticking = true) (hs : s.pairState = pJOIN) (hj : s.joinStep < 2) : s.hbAlign hb skew =
    if !(s.rbit regPAIR_STATUS 28 && decide (hb.state.toNat = pACTIVE)) then { s with joinStep := 0, skewGood := 0 }
    else if 64 ≤ (if skewOk skew then s.skewGood + 1 else 0) then s.aligned hb (if skewOk skew then s.skewGood + 1 else 0)
    else { s with joinStep := 1, skewGood := if skewOk skew then s.skewGood + 1 else 0 } := by
  refine (if_neg ?_).trans ((if_pos ⟨hj, hs⟩).trans rfl)
  rw [ht, decide_eq_true hs]
  exact Bool.false_ne_true

theorem State.hbAlign_skew (hb : Heartbeat) (skew : Word) (ht : s.ticking = true) (hs : s.pairState = pMIRROR ∨ s.pairState = pREADY) : s.hbAlign hb skew =
    if 16 ≤ (if skewOk skew then 0 else s.skewBad + 1) then s.pairGo pJOIN else { s with skewBad := if skewOk skew then 0 else s.skewBad + 1 } := by
  have hj : s.pairState ≠ pJOIN := by
    rcases hs with h | h <;> rw [h] <;> decide
  refine (if_neg ?_).trans (if_neg fun g => hj g.2)
  rw [ht]
  rcases hs with h | h <;> rw [h] <;> decide

theorem LinkKept.hbAlign (hb : Heartbeat) (skew : Word) (h : LinkKept s t) : LinkKept s (t.hbAlign hb skew) := by
  unfold State.hbAlign
  dsimp only
  refine .ite h (.ite (.ite ?_ (.ite ?_ ?_)) (.ite (h.pairGo _) ?_))
  · exact h.of_regs rfl rfl
  · exact ((h.setReg regPAIR_FCOFF_LO _ (by decide) (by decide)).setReg regPAIR_FCOFF_HI _ (by decide) (by decide)).of_regs rfl rfl
  · exact h.of_regs rfl rfl
  · exact h.of_regs rfl rfl

/-! ## The comparison of hashes (R355) -/

/-- The counts and the match run after the comparison of one hash. -/
def State.comparedCounts (s : State) (key : Nat) (ok : Bool) : State :=
  let other := if key % 2 = 0 then key + 1 else key - 1
  let s1 := if ok then s else
    let a := regPAIR_MISCNT
    s.setReg a (if key % 2 = 0 then satAdd (s.reg a) 16 16 1 else satAdd (s.reg a) 0 16 1)
  let s2 := match mapFind s1.matched other with
    | none => if ok then s1 else s1.setReg regPAIR_MATCH 0
    | some o => if ok && o then s1.count regPAIR_MATCH 1 else s1.setReg regPAIR_MATCH 0
  { s2 with matched := (mapIns (mapDel s2.matched key) key ok).filter fun e => decide (key ≤ e.1 + 8) }

theorem State.compared_eq (key : Nat) (ok : Bool) : s.compared key ok =
    if !ok && decide ((s.comparedCounts key ok).pairState = pREADY) then
      (((s.comparedCounts key ok).setRbit regPAIR_STATUS 25).pairGo pMIRROR).raiseEvent 87 (lo32 (s.comparedCounts key ok).fc)
    else s.comparedCounts key ok := rfl

theorem State.comparedCounts_frame (key : Nat) (ok : Bool) : ∃ r m, s.comparedCounts key ok = { s with regs := r, matched := m } ∧
    ∀ a, a ≠ regPAIR_MATCH → a ≠ regPAIR_MISCNT → mapGet regReset r a = s.reg a := by
  have h1 : ∃ r, (if ok then s else s.setReg regPAIR_MISCNT (if key % 2 = 0 then satAdd (s.reg regPAIR_MISCNT) 16 16 1 else satAdd (s.reg regPAIR_MISCNT) 0 16 1)) = { s with regs := r } ∧
      ∀ a, a ≠ regPAIR_MISCNT → mapGet regReset r a = s.reg a := by
    cases ok with
    | true => exact ⟨_, rfl, fun _ _ => rfl⟩
    | false => exact ⟨_, rfl, fun a ha => mapGet_set_ne _ _ _ ha⟩
  obtain ⟨r1, e1, hr1⟩ := h1
  unfold State.comparedCounts
  dsimp only
  rw [e1]
  split
  all_goals
    split
  · exact ⟨_, _, rfl, fun a _ ha => hr1 a ha⟩
  all_goals exact ⟨_, _, rfl, fun a hm ha => (State.reg_setReg_ne { s with regs := r1 } _ hm).trans (hr1 a ha)⟩

theorem LinkKept.compared (key : Nat) (ok : Bool) (h : LinkKept s t) : LinkKept s (t.compared key ok) := by
  obtain ⟨r, m, e, hr⟩ := State.comparedCounts_frame (s := t) key ok
  have hc : LinkKept s (t.comparedCounts key ok) := by
    rw [e]
    exact h.of_words rfl (hr _ (by decide) (by decide)) (hr _ (by decide) (by decide))
  rw [State.compared_eq]
  exact .ite (((hc.setRbit 25 (by decide) (by decide)).pairGo _).raiseEvent _ _ (by decide)) hc

theorem State.compareWith_cases (own : List (Nat × Word)) (f : Int) (theirs : Word) (half : Nat) :
    s.compareWith own f theirs half = s ∨ ∃ key ok, s.compareWith own f theirs half = s.compared key ok := by
  unfold State.compareWith
  dsimp only
  split
  · exact .inl rfl
  · split
    · exact .inr ⟨_, _, rfl⟩
    · exact .inl rfl

theorem LinkKept.compareWith (own : List (Nat × Word)) (f : Int) (theirs : Word) (half : Nat) (h : LinkKept s t) : LinkKept s (t.compareWith own f theirs half) := by
  rcases State.compareWith_cases (s := t) own f theirs half with e | ⟨k, ok, e⟩ <;> rw [e]
  · exact h
  · exact h.compared k ok

theorem State.hbCompare_idle (hb : Heartbeat) (h1 : s.pairState ≠ pMIRROR) (h2 : s.pairState ≠ pREADY) : s.hbCompare hb = s := if_neg fun g => g.elim h1 h2

theorem LinkKept.hbCompare (hb : Heartbeat) (h : LinkKept s t) : LinkKept s (t.hbCompare hb) := by
  unfold State.hbCompare
  dsimp only
  exact .ite (.ite ((h.compareWith _ _ _ _).compareWith _ _ _ _) (h.compareWith _ _ _ _)) h

/-- A module that is not READY is compared: only counts and the match run change. -/
theorem State.compared_counts (key : Nat) (ok : Bool) (h : s.pairState ≠ pREADY) : s.compared key ok = s.comparedCounts key ok := by
  obtain ⟨r, m, e, hr⟩ := State.comparedCounts_frame (s := s) key ok
  have hp : (s.comparedCounts key ok).pairState = s.pairState := by
    rw [e]
    exact congrArg (fld · 0 4) (hr regPAIR_STATUS (by decide) (by decide))
  rw [State.compared_eq, if_neg]
  rw [hp, decide_eq_false h, Bool.and_false]
  exact Bool.false_ne_true

/-- A READY standby whose hash differs is back in MIRROR (R350, R355). -/
structure Mismatched (s t : State) : Prop where
  state : t.pairState = pMIRROR
  flag : t.rbit regPAIR_STATUS 25 = true
  mismatch : t.reg (regEVT_PAYLOAD 87) = lo32 s.fc
  left : t.reg (regEVT_PAYLOAD 86) = 0

theorem Mismatched.of_reg (h : Mismatched s t) (hr : ∀ a, a ≠ regPAIR_MATCH → a ≠ regPAIR_MISCNT → a / 0x10000 ≠ 3 → u.reg a = t.reg a) : Mismatched s u := by
  have hp := hr regPAIR_STATUS (by decide) (by decide) (by decide)
  exact ⟨(congrArg (fld · 0 4) hp).trans h.state, (congrArg (bit · 25) hp).trans h.flag, (hr _ (by decide) (by decide) (by decide)).trans h.mismatch,
    (hr _ (by decide) (by decide) (by decide)).trans h.left⟩

theorem State.compared_mismatch (key : Nat) (h : s.pairState = pREADY) : Mismatched s (s.compared key false) := by
  obtain ⟨r, m, e, hr⟩ := State.comparedCounts_frame (s := s) key false
  have hp : (s.comparedCounts key false).pairState = pREADY := by
    rw [e]
    exact (congrArg (fld · 0 4) (hr regPAIR_STATUS (by decide) (by decide))).trans h
  have hf : (s.comparedCounts key false).fc = s.fc := by rw [e]
  rw [State.compared_eq, hf, if_pos (by rw [hp]; rfl)]
  generalize s.comparedCounts key false = x at *
  have hx : (x.setRbit regPAIR_STATUS 25).pairState = pREADY := (State.rfld_setRbit _ _ _ _ _ _ (.inr (.inr (by decide)))).trans hp
  have hb : (x.setRbit regPAIR_STATUS 25).rbit regPAIR_STATUS 25 = true := (State.rbit_setRbit _ _ _ _ _ (by decide)).trans (Bool.or_true _)
  generalize x.setRbit regPAIR_STATUS 25 = y at *
  have hr (a : Nat) (h4 : a / 0x10000 ≠ 4) := State.raiseEvent_reg_block (y.pairGo pMIRROR) 87 (lo32 s.fc) a (by decide) h4
  refine ⟨(congrArg (fld · 0 4) (hr _ (by decide))).trans (State.pairGo_state _ (by decide)),
    (congrArg (bit · 25) (hr _ (by decide))).trans ((State.pairGo_rbit _ _ (by decide)).trans hb), State.raiseEvent_payload _ _ _ (by decide), ?_⟩
  refine (State.raiseEvent_payload_ne _ _ _ (by decide) (by decide) (by decide)).trans ?_
  rw [State.pairGo_mirror]
  exact (State.reg_setReg_ne ({ y.pairTo pMIRROR with matched := [] } : State) _ (by decide)).trans ((State.pairTo_event (s := y) pMIRROR).1 hx (by decide))

/-- A comparison after the mismatch changes nothing of it. -/
theorem Mismatched.compareWith (own : List (Nat × Word)) (f : Int) (theirs : Word) (half : Nat) (h : Mismatched s t) : Mismatched s (t.compareWith own f theirs half) := by
  rcases State.compareWith_cases (s := t) own f theirs half with e | ⟨k, ok, e⟩ <;> rw [e]
  · exact h
  · have hn : t.pairState ≠ pREADY := by
      rw [h.state]
      decide
    rw [State.compared_counts k ok hn]
    obtain ⟨r, m, e, hr⟩ := State.comparedCounts_frame (s := t) k ok
    rw [e]
    exact h.of_reg fun a h1 h2 _ => hr a h1 h2

theorem State.hbCompare_mismatch (hb : Heartbeat) (h : s.pairState = pREADY) (h0 : 0 ≤ (hb.fc.toNat : Int) - 1 - s.fcOff) (w : Word)
    (hw : mapFind s.hashes ((hb.fc.toNat : Int) - 1 - s.fcOff).toNat = some w) (hne : w ≠ hb.hash) : Mismatched s (s.hbCompare hb) := by
  have e : s.compareWith s.hashes ((hb.fc.toNat : Int) - 1) hb.hash 0 = s.compared (2 * ((hb.fc.toNat : Int) - 1 - s.fcOff).toNat + 0) false := by
    refine (if_neg (Int.not_lt.2 h0)).trans ?_
    rw [hw]
    exact congrArg (s.compared _) (decide_eq_false hne)
  unfold State.hbCompare
  dsimp only
  rw [if_pos (.inr h), e]
  have hm := State.compared_mismatch (s := s) (2 * ((hb.fc.toNat : Int) - 1 - s.fcOff).toNat + 0) h
  rw [if_pos (.inl hm.state)]
  exact hm.compareWith _ _ _ _

/-! ## A double claim (R347, R350) -/

theorem State.hbDual_standby (hb : Heartbeat) (h : s.pairState ≠ pACTIVE) : ∃ r, s.hbDual hb = { s with regs := r } ∧
    ∀ a, a / 0x10000 ≠ 3 → mapGet regReset r a = s.reg a := by
  have e : s.hbDual hb = if s.rbit regPAIR_STATUS 28 then s.causeEnds 49 else s := by
    unfold State.hbDual
    rw [decide_eq_false h]
    rfl
  rw [e]
  split
  · exact ⟨_, rfl, fun a ha => mapGet_set_ne _ _ _ fun g => ha (g ▸ rfl)⟩
  · exact ⟨_, rfl, fun _ _ => rfl⟩

/-- Both modules claim the pair, and this one has to give way. -/
def State.dualClaim (s : State) (hb : Heartbeat) : Bool := decide (s.pairState = pACTIVE) && decide (hb.state.toNat = pACTIVE) && s.rbit regPAIR_STATUS 29

theorem State.hbDual_claimed (hb : Heartbeat) (h : s.dualClaim hb = true) : s.hbDual hb =
    if ((s.causeBegins 49).setRbit regPAIR_STATUS 26).relDue.isSome || ((s.causeBegins 49).setRbit regPAIR_STATUS 26).relDone.isSome then
      (s.causeBegins 49).setRbit regPAIR_STATUS 26
    else { (s.causeBegins 49).setRbit regPAIR_STATUS 26 with relDue := some pJOIN } := by
  unfold State.dualClaim at h
  unfold State.hbDual
  dsimp only
  rw [h, if_pos rfl, if_pos rfl]

theorem State.hbDual_unclaimed (hb : Heartbeat) (h : s.dualClaim hb = false) : s.hbDual hb = if s.rbit regPAIR_STATUS 28 then s.causeEnds 49 else s := by
  unfold State.dualClaim at h
  unfold State.hbDual
  dsimp only
  rw [h]
  rfl

/-- What the last stage leaves: words outside the faults, the record's event and the flag of a double claim. -/
theorem State.hbDual_frame (hb : Heartbeat) : (s.hbDual hb).linkRun = s.linkRun ∧ (s.hbDual hb).epochRun = s.epochRun ∧
    (∀ a, a / 0x10000 ≠ 3 → a ≠ regEVT_PEND 0 → a ≠ regEVT_PAYLOAD 6 → a ≠ regEVT_LOST_CNT → a ≠ regEVT_STATUS → a ≠ regPAIR_STATUS →
      (s.hbDual hb).reg a = s.reg a) := by
  cases h : s.dualClaim hb with
  | true =>
    have hf := State.causeBegins_frame (s := s) 49
    have hr (a : Nat) (h3 : a / 0x10000 ≠ 3) (h1 : a ≠ regEVT_PEND 0) (h2 : a ≠ regEVT_PAYLOAD 6) (h4 : a ≠ regEVT_LOST_CNT) (h5 : a ≠ regEVT_STATUS) :=
      s.causeBegins_reg 49 a (by decide) h3 h1 h2 h4 h5
    rw [State.hbDual_claimed hb h]
    generalize s.causeBegins 49 = x at *
    have h1 : x.linkRun = s.linkRun := by rw [hf]
    have h2 : x.epochRun = s.epochRun := by rw [hf]
    split
    · exact ⟨h1, h2, fun a a1 a2 a3 a4 a5 a6 => (State.reg_setReg_ne _ _ a6).trans (hr a a1 a2 a3 a4 a5)⟩
    · exact ⟨h1, h2, fun a a1 a2 a3 a4 a5 a6 => (State.reg_setReg_ne x _ a6).trans (hr a a1 a2 a3 a4 a5)⟩
  | false =>
    rw [State.hbDual_unclaimed hb h]
    split
    · exact ⟨rfl, rfl, fun a a1 _ _ _ _ _ => s.causeEnds_reg 49 a (by decide) a1⟩
    · exact ⟨rfl, rfl, fun _ _ _ _ _ _ _ => rfl⟩

theorem LinkKept.causeBegins (h : LinkKept s t) : LinkKept s (t.causeBegins 49) := by
  refine h.of_words ?_ (t.causeBegins_reg 49 _ (by decide) (by decide) (by decide) (by decide) (by decide) (by decide))
    (t.causeBegins_reg 49 _ (by decide) (by decide) (by decide) (by decide) (by decide) (by decide))
  rw [State.causeBegins_frame]

theorem LinkKept.hbDual (hb : Heartbeat) (h : LinkKept s t) : LinkKept s (t.hbDual hb) := by
  cases hd : t.dualClaim hb with
  | true =>
    rw [State.hbDual_claimed hb hd]
    exact .ite (h.causeBegins.setRbit 26 (by decide) (by decide)) ((h.causeBegins.setRbit 26 (by decide) (by decide)).of_regs rfl rfl)
  | false =>
    rw [State.hbDual_unclaimed hb hd]
    exact .ite (h.of_words rfl (t.causeEnds_reg 49 _ (by decide) (by decide)) (t.causeEnds_reg 49 _ (by decide) (by decide))) h

/-- A double claim begins the cause of source 49, sets DUALCLAIM, and asks for the way back to JOIN. -/
theorem State.hbDual_spec (hb : Heartbeat) (h : s.dualClaim hb = true) : (s.hbDual hb).rbit regPAIR_STATUS 26 = true ∧ (s.hbDual hb).rbit (regFAULT_CAUSE 1) 17 = true ∧
    (s.relDue = none → s.relDone = none → (s.hbDual hb).relDue = some pJOIN) := by
  have hf := State.causeBegins_frame (s := s) 49
  have hc : (s.causeBegins 49).rbit (regFAULT_CAUSE 1) 17 = true :=
    (s.causeBegins_cause 49 49 (by decide) (by decide)).trans (Bool.or_true _)
  rw [State.hbDual_claimed hb h]
  generalize s.causeBegins 49 = x at *
  have h1 : x.relDue = s.relDue := by rw [hf]
  have h2 : x.relDone = s.relDone := by rw [hf]
  have hb : (x.setRbit regPAIR_STATUS 26).rbit regPAIR_STATUS 26 = true := (State.rbit_setRbit _ _ _ _ _ (by decide)).trans (Bool.or_true _)
  have hk : (x.setRbit regPAIR_STATUS 26).rbit (regFAULT_CAUSE 1) 17 = true := (congrArg (bit · 17) (State.reg_setReg_ne x _ (by decide))).trans hc
  split
  case isTrue g =>
    refine ⟨hb, hk, fun g1 g2 => absurd g ?_⟩
    have e1 : (x.setRbit regPAIR_STATUS 26).relDue = none := h1.trans g1
    have e2 : (x.setRbit regPAIR_STATUS 26).relDone = none := h2.trans g2
    rw [e1, e2]
    exact Bool.false_ne_true
  case isFalse g => exact ⟨hb, hk, fun _ _ => rfl⟩

/-! ## A heartbeat acts (R347, R350, R353, R355 to R357) -/

/-- What a counted heartbeat has left of the module. -/
structure Heard (s : State) (hb : Heartbeat) (skew : Word) (x : State) : Prop where
  run : x.linkRun = s.hbGap.linkRun + 1
  partner : x.rfld regPAIR_STATUS 16 4 = hb.state.toNat
  link : x.rbit regPAIR_STATUS 28 = true ↔ 64 ≤ s.hbGap.linkRun + 1 ∨ s.rbit regPAIR_STATUS 28 = true
  shown : x.reg regPAIR_SKEW = if x.rbit regPAIR_STATUS 28 = true then skew else 0
  state : x.pairState = s.pairState
  role : x.rbit regPAIR_STATUS 29 = s.rbit regPAIR_STATUS 29
  good : x.skewGood = s.hbGap.skewGood
  bad : x.skewBad = s.hbGap.skewBad
  ticking : x.ticking = s.ticking
  step : x.joinStep = s.joinStep
  fc : x.fc = s.fc
  off : x.fcOff = s.fcOff
  hashes : x.hashes = s.hashes
  epoch : x.epochRun = s.epochRun
  due : x.relDue = s.relDue
  done : x.relDone = s.relDone

theorem State.hbGap_hbLink (s : State) (hb : Heartbeat) (skew : Word) : Heard s hb skew (s.hbGap.hbLink hb skew) := by
  obtain ⟨r, l, a, b, m, e, h, -⟩ := s.hbGap_spec
  have hg (w : Nat) (hw : w ≠ regPAIR_MATCH) : s.hbGap.reg w = s.reg w := by
    rw [e]
    exact h w hw
  obtain ⟨r', y, e', h1, h2, h3, h4, h5, h6⟩ := s.hbGap.hbLink_spec hb skew
  rw [State.rbit, hg _ (by decide)] at h3 h6
  rw [State.pairState, State.rfld, hg _ (by decide)] at h5
  have hlo := (h1 regPAIR_FCOFF_LO (by decide) (by decide)).trans (hg _ (by decide))
  have hhi := (h1 regPAIR_FCOFF_HI (by decide) (by decide)).trans (hg _ (by decide))
  have e2 : s.hbGap.hbLink hb skew = { s with
      hbFrame := s.now, regs := r', linkRun := s.hbGap.linkRun + 1, skewGood := s.hbGap.skewGood, skewBad := s.hbGap.skewBad, matched := s.hbGap.matched, syncSent := y } := by
    rw [e', e]
  generalize s.hbGap.hbLink hb skew = x at *
  subst e2
  refine ⟨rfl, h2, h3, h4, h5, h6, rfl, rfl, rfl, rfl, rfl, ?_, rfl, rfl, rfl, rfl⟩
  exact congrArg BitVec.toInt (congrArg₂ (fun a b : Word => a ++ b) hhi hlo)

/-- The stages behind the link. -/
def State.hbActs (x : State) (hb : Heartbeat) (skew : Word) : State := (((x.hbAcks hb).hbAlign hb skew).hbCompare hb).hbDual hb

theorem exec_heartbeatReceive_on (hb : Heartbeat) (skew : Word) (h : s.pairEn = true) :
    exec (.heartbeatReceive hb skew) s = .next ((s.hbGap.hbLink hb skew).hbActs hb skew) := congrArg Host.Outcome.next (if_pos h)

theorem State.hbActs_link (x : State) (hb : Heartbeat) (skew : Word) : LinkKept x (x.hbActs hb skew) := (((LinkKept.refl x).hbAcks hb).hbAlign hb skew |>.hbCompare hb).hbDual hb

/-- In ACTIVE only the acknowledgements and the double claim act. -/
theorem State.hbActs_active (hb : Heartbeat) (skew : Word) (h : (s.hbAcks hb).pairState = pACTIVE) : s.hbActs hb skew = (s.hbAcks hb).hbDual hb := by
  have h1 : (s.hbAcks hb).pairState ≠ pJOIN ∧ (s.hbAcks hb).pairState ≠ pMIRROR ∧ (s.hbAcks hb).pairState ≠ pREADY := by
    rw [h]
    decide
  rw [State.hbActs, State.hbAlign_idle hb skew (.inr h1), State.hbCompare_idle hb h1.2.1 h1.2.2]

theorem State.hbActs_epoch (hb : Heartbeat) (skew : Word) (c : Nat) (h : s.pairState = pACTIVE) (he : s.epochRun = some (hb.epoch.toNat, c)) :
    (s.hbActs hb skew).epochRun = none ∧ (s.hbActs hb skew).reg regPAIR_EPOCH = hb.epoch ∧ (s.hbActs hb skew).rbit regPAIR_ESTAT 31 = false ∧
      (s.hbActs hb skew).reg (regEVT_PAYLOAD 85) = hb.epoch := by
  obtain ⟨r, co, tok, q, w, e, hr⟩ := State.hbCancels_frame (s := s) hb
  obtain ⟨r', tok', q', f, d, e', h1, h2, h3, h4⟩ := State.epochAcked_frame (s := s.hbCancels hb) hb hb.epoch.toNat
  have hp : (s.hbCancels hb).pairState = pACTIVE := by
    rw [e]
    exact (congrArg (fld · 0 4) (hr regPAIR_STATUS (by decide) (by decide))).trans h
  have ha : s.hbAcks hb = { s.hbCancels hb with regs := r', tokens := tok', seq := q', epochRun := none, finalEpoch := f, relDue := d } :=
    (State.hbAcks_some hb c h he).trans e'
  have hpa : (s.hbAcks hb).pairState = pACTIVE := by
    rw [ha]
    exact (congrArg (fld · 0 4) (h4 regPAIR_STATUS (by decide) (by decide) (by decide))).trans hp
  rw [State.hbActs_active hb skew hpa]
  obtain ⟨-, g2, g3⟩ := State.hbDual_frame (s := s.hbAcks hb) hb
  rw [State.rbit, g2, g3 _ (by decide) (by decide) (by decide) (by decide) (by decide) (by decide),
    g3 _ (by decide) (by decide) (by decide) (by decide) (by decide) (by decide),
    g3 _ (by decide) (by decide) (by decide) (by decide) (by decide) (by decide), ha]
  exact ⟨rfl, h1, h2, h3⟩

theorem State.hbActs_dual (hb : Heartbeat) (skew : Word) (h : s.pairState = pACTIVE) (hs : hb.state.toNat = pACTIVE) (hr : s.rbit regPAIR_STATUS 29 = true)
    (he : s.epochRun = none) : (s.hbActs hb skew).rbit regPAIR_STATUS 26 = true ∧ (s.hbActs hb skew).rbit (regFAULT_CAUSE 1) 17 = true ∧
      (s.relDue = none → s.relDone = none → (s.hbActs hb skew).relDue = some pJOIN) := by
  obtain ⟨r, co, tok, q, w, e, hk⟩ := State.hbCancels_frame (s := s) hb
  have hp : (s.hbCancels hb).reg regPAIR_STATUS = s.reg regPAIR_STATUS := by
    rw [e]
    exact hk _ (by decide) (by decide)
  have ha := State.hbAcks_none hb h he
  have hpa : (s.hbAcks hb).pairState = pACTIVE := by
    rw [ha]
    exact (congrArg (fld · 0 4) hp).trans h
  have hd : (s.hbAcks hb).dualClaim hb = true := by
    rw [State.dualClaim, hpa, hs, ha, State.rbit, hp]
    exact hr
  rw [State.hbActs_active hb skew hpa]
  obtain ⟨g1, g2, g3⟩ := State.hbDual_spec (s := s.hbAcks hb) hb hd
  refine ⟨g1, g2, fun k1 k2 => g3 ?_ ?_⟩
  · rw [ha, e]
    exact k1
  · rw [ha, e]
    exact k2

/-- A stage of alignment that leaves the module in JOIN is the last one that changes more than the causes. -/
theorem State.hbActs_join (hb : Heartbeat) (skew : Word) (h : s.pairState ≠ pACTIVE) (hj : (s.hbAlign hb skew).pairState = pJOIN) :
    ∃ r, s.hbActs hb skew = { s.hbAlign hb skew with regs := r } ∧ ∀ a, a / 0x10000 ≠ 3 → mapGet regReset r a = (s.hbAlign hb skew).reg a := by
  have h1 : (s.hbAlign hb skew).pairState ≠ pACTIVE ∧ (s.hbAlign hb skew).pairState ≠ pMIRROR ∧ (s.hbAlign hb skew).pairState ≠ pREADY := by
    rw [hj]
    decide
  rw [State.hbActs, State.hbAcks_other hb h, State.hbCompare_idle hb h1.2.1 h1.2.2]
  exact State.hbDual_standby hb h1.1

theorem skewOk_near (skew : Word) : skewOk skew = decide (skew.toInt.natAbs ≤ 100) := rfl

/-- The steps of R353 in JOIN. -/
theorem State.hbActs_steps (hb : Heartbeat) (skew : Word) (h : s.pairState = pJOIN) (ht : s.ticking = true) (hj : s.joinStep < 2) :
    (s.rbit regPAIR_STATUS 28 = true → hb.state.toNat = pACTIVE → skew.toInt.natAbs ≤ 100 → 64 ≤ s.skewGood + 1 → (s.hbActs hb skew).joinStep = 2 ∧
      (s.hbActs hb skew).reg regPAIR_FCOFF_LO = lo32 (hb.fc - s.fc) ∧ (s.hbActs hb skew).reg regPAIR_FCOFF_HI = hi32 (hb.fc - s.fc)) ∧
    (s.rbit regPAIR_STATUS 28 = true → hb.state.toNat = pACTIVE → skew.toInt.natAbs ≤ 100 → s.skewGood + 1 < 64 → (s.hbActs hb skew).joinStep = 1 ∧
      (s.hbActs hb skew).skewGood = s.skewGood + 1) ∧
    (s.rbit regPAIR_STATUS 28 = true → hb.state.toNat = pACTIVE → ¬ skew.toInt.natAbs ≤ 100 → (s.hbActs hb skew).joinStep = 1 ∧ (s.hbActs hb skew).skewGood = 0) ∧
    ((s.rbit regPAIR_STATUS 28 = false ∨ hb.state.toNat ≠ pACTIVE) → (s.hbActs hb skew).joinStep = 0 ∧ (s.hbActs hb skew).skewGood = 0) := by
  have hna : s.pairState ≠ pACTIVE := by
    rw [h]
    decide
  have e := State.hbAlign_join hb skew ht h hj
  have hlink (h1 : s.rbit regPAIR_STATUS 28 = true) (h2 : hb.state.toNat = pACTIVE) : ¬ (!(s.rbit regPAIR_STATUS 28 && decide (hb.state.toNat = pACTIVE))) = true := by
    rw [h1, decide_eq_true h2]
    exact Bool.false_ne_true
  refine ⟨fun h1 h2 h3 h4 => ?_, fun h1 h2 h3 h4 => ?_, fun h1 h2 h3 => ?_, fun h1 => ?_⟩
  · rw [if_neg (hlink h1 h2), skewOk_near, decide_eq_true h3, if_pos rfl, if_pos h4] at e
    have hp : (s.aligned hb (s.skewGood + 1)).pairState = pJOIN :=
      (congrArg (fld · 0 4) ((State.reg_setReg_ne (s.setReg regPAIR_FCOFF_LO (lo32 (hb.fc - s.fc))) _ (by decide)).trans (State.reg_setReg_ne s _ (by decide)))).trans h
    obtain ⟨r, e2, hr⟩ := State.hbActs_join hb skew hna (e ▸ hp)
    rw [e2, e] at *
    exact ⟨rfl, (hr regPAIR_FCOFF_LO (by decide)).trans ((State.reg_setReg_ne (s.setReg regPAIR_FCOFF_LO (lo32 (hb.fc - s.fc))) _ (by decide)).trans (State.reg_setReg_self s _ _)),
      (hr regPAIR_FCOFF_HI (by decide)).trans (State.reg_setReg_self (s.setReg regPAIR_FCOFF_LO (lo32 (hb.fc - s.fc))) _ _)⟩
  · rw [if_neg (hlink h1 h2), skewOk_near, decide_eq_true h3, if_pos rfl, if_neg (Nat.not_le.2 h4)] at e
    obtain ⟨r, e2, -⟩ := State.hbActs_join hb skew hna (e ▸ h)
    rw [e2, e]
    exact ⟨rfl, rfl⟩
  · rw [if_neg (hlink h1 h2), skewOk_near, decide_eq_false h3, if_neg Bool.false_ne_true, if_neg (by decide)] at e
    obtain ⟨r, e2, -⟩ := State.hbActs_join hb skew hna (e ▸ h)
    rw [e2, e]
    exact ⟨rfl, rfl⟩
  · rw [if_pos] at e
    · obtain ⟨r, e2, -⟩ := State.hbActs_join hb skew hna (e ▸ h)
      rw [e2, e]
      exact ⟨rfl, rfl⟩
    · rcases h1 with h1 | h1
      · rw [h1]
        rfl
      · rw [decide_eq_false h1, Bool.and_false]
        rfl

/-- A skew that has been too long for 16 frames ends the alignment. -/
theorem State.hbActs_far (hb : Heartbeat) (skew : Word) (h : s.pairState = pMIRROR ∨ s.pairState = pREADY) (ht : s.ticking = true) (hs : ¬ skew.toInt.natAbs ≤ 100)
    (hb16 : 16 ≤ s.skewBad + 1) : (s.hbActs hb skew).pairState = pJOIN ∧ (s.hbActs hb skew).joinStep = 0 := by
  have hna : s.pairState ≠ pACTIVE := by
    rcases h with h | h <;> rw [h] <;> decide
  have e := State.hbAlign_skew hb skew ht h
  rw [skewOk_near, decide_eq_false hs, if_neg Bool.false_ne_true, if_pos hb16] at e
  have hp : (s.pairGo pJOIN).pairState = pJOIN := State.pairGo_state _ (by decide)
  obtain ⟨r, e2, hr⟩ := State.hbActs_join hb skew hna (e ▸ hp)
  rw [e2, e] at *
  refine ⟨(congrArg (fld · 0 4) (hr regPAIR_STATUS (by decide))).trans hp, ?_⟩
  obtain ⟨r', e3, -⟩ := s.pairGo_join_spec
  rw [e3]

/-- A hash that differs takes a READY standby back to MIRROR. -/
theorem State.hbActs_mismatch (hb : Heartbeat) (skew : Word) (h : s.pairState = pREADY) (hs : skew.toInt.natAbs ≤ 100) (h0 : 0 ≤ (hb.fc.toNat : Int) - 1 - s.fcOff) (w : Word)
    (hw : mapFind s.hashes ((hb.fc.toNat : Int) - 1 - s.fcOff).toNat = some w) (hne : w ≠ hb.hash) : Mismatched s (s.hbActs hb skew) := by
  have hna : s.pairState ≠ pACTIVE := by
    rw [h]
    decide
  have ha : ∃ b, s.hbAlign hb skew = { s with skewBad := b } := by
    rcases Bool.eq_false_or_eq_true s.ticking with ht | ht
    · have e := State.hbAlign_skew hb skew ht (.inr h)
      rw [skewOk_near, decide_eq_true hs, if_pos rfl, if_neg (by decide)] at e
      exact ⟨_, e⟩
    · exact ⟨_, State.hbAlign_idle hb skew (.inl ht)⟩
  obtain ⟨b, e⟩ := ha
  rw [State.hbActs, State.hbAcks_other hb hna, e]
  obtain ⟨k1, k2, k3, k4⟩ := State.hbCompare_mismatch (s := { s with skewBad := b }) hb h h0 w hw hne
  have hm : Mismatched s (({ s with skewBad := b } : State).hbCompare hb) := ⟨k1, k2, k3, k4⟩
  generalize ({ s with skewBad := b } : State).hbCompare hb = x at *
  obtain ⟨r, e2, hr⟩ := State.hbDual_standby (s := x) hb (by
    rw [k1]
    decide)
  rw [e2]
  exact hm.of_reg fun a _ _ h3 => hr a h3

/-! ## The loss of the heartbeat (R347, R350, R357) -/

theorem State.hbLost_iff : s.hbLost = true ↔ s.hbFrame + (if s.rfld regPAIR_CFG 16 8 < 4 then 16 else s.rfld regPAIR_CFG 16 8) ≤ s.now ∧
    ¬(s.rbit regPAIR_STATUS 28 = false ∧ s.linkRun = 0 ∧ s.rbit (regFAULT_CAUSE 1) 17 = true) := by
  unfold State.hbLost
  rw [Bool.and_eq_true, decide_eq_true_eq, Bool.not_eq_true', Bool.eq_false_iff, ne_eq, Bool.and_eq_true, Bool.and_eq_true, Bool.not_eq_true', decide_eq_true_eq, and_assoc]

/-- LINK clears, and the partner is unreachable. -/
def State.linkLost (s : State) : State :=
  ({ (s.putRbit regPAIR_STATUS 28 false).setRbit regPAIR_STATUS 27 with linkRun := 0, syncSent := false } : State).setReg regPAIR_SKEW 0

theorem State.linkLost_spec (s : State) : ∃ r, s.linkLost = { s with regs := r, linkRun := 0, syncSent := false } ∧
    bit (mapGet regReset r regPAIR_STATUS) 28 = false ∧ bit (mapGet regReset r regPAIR_STATUS) 27 = true ∧ mapGet regReset r regPAIR_SKEW = 0 ∧
    fld (mapGet regReset r regPAIR_STATUS) 0 4 = s.pairState := by
  have hs (a : Nat) (h : a ≠ regPAIR_SKEW) : s.linkLost.reg a = ((s.putRbit regPAIR_STATUS 28 false).setRbit regPAIR_STATUS 27).reg a :=
    State.reg_setReg_ne ({ (s.putRbit regPAIR_STATUS 28 false).setRbit regPAIR_STATUS 27 with linkRun := 0, syncSent := false } : State) _ h
  have hb (i : Nat) (hi : i < 32) : ((s.putRbit regPAIR_STATUS 28 false).setRbit regPAIR_STATUS 27).rbit regPAIR_STATUS i =
      ((s.putRbit regPAIR_STATUS 28 false).rbit regPAIR_STATUS i || (decide (regPAIR_STATUS = regPAIR_STATUS) && decide (i = 27))) := State.rbit_setRbit _ _ _ _ _ hi
  refine ⟨_, rfl, (congrArg (bit · 28) (hs _ (by decide))).trans ((hb 28 (by decide)).trans ((Bool.or_false _).trans (State.rbit_put_self _ _ _ (by decide)))),
    (congrArg (bit · 27) (hs _ (by decide))).trans ((hb 27 (by decide)).trans (Bool.or_true _)), mapGet_set_self _ _ _ _, ?_⟩
  exact (congrArg (fld · 0 4) (hs _ (by decide))).trans ((State.rfld_setRbit _ _ _ _ _ _ (.inr (.inr (by decide)))).trans
    (State.rfld_putRbit _ _ _ _ _ _ _ (by decide) (.inr (.inr (by decide)))))

/-- Cancels that wait for the partner have no effect. -/
def State.cancelsLost (s : State) : State := if s.cancelWait.isEmpty then s else { s.setRbit regPEG_STATUS 22 with cancelWait := [] }

theorem State.cancelsLost_spec (s : State) : ∃ r, s.cancelsLost = { s with regs := r, cancelWait := [] } ∧ (∀ a, a ≠ regPEG_STATUS → mapGet regReset r a = s.reg a) ∧
    (s.cancelWait ≠ [] → bit (mapGet regReset r regPEG_STATUS) 22 = true) := by
  unfold State.cancelsLost
  split
  case isTrue h =>
    have h' := List.isEmpty_iff.1 h
    refine ⟨s.regs, ?_, fun _ _ => rfl, fun g => absurd h' g⟩
    rw [← h']
  case isFalse h =>
    exact ⟨_, rfl, fun a ha => mapGet_set_ne _ _ _ ha, fun _ => (State.rbit_setRbit s _ _ _ _ (by decide)).trans (Bool.or_true _)⟩

/-- The standby states return to JOIN, or start it afresh. -/
def State.lossJoins (s : State) : State :=
  if s.pairState = pJOIN ∨ s.pairState = pMIRROR ∨ s.pairState = pREADY then s.pairGo pJOIN else s

/-- What an epoch in progress leaves at a loss. -/
def State.lossAborts (s : State) : State := { s.epochAbort with finalEpoch := if s.finalEpoch.isSome then some 0 else none }

theorem exec_heartbeatLoss_lost (he : s.pairEn = true) (h : s.hbLost = true) :
    exec .heartbeatLoss s = .next ((s.linkLost.causeBegins 49).raiseEvent 84 0).cancelsLost.lossAborts.lossJoins := by
  refine congrArg Host.Outcome.next (if_pos ?_)
  rw [he, h]
  rfl

/-- The words that a loss has set when the last stages begin. -/
structure Unlinked (s x : State) : Prop where
  run : x.linkRun = 0
  link : x.rbit regPAIR_STATUS 28 = false
  unreached : x.rbit regPAIR_STATUS 27 = true
  skew : x.reg regPAIR_SKEW = 0
  event : x.reg (regEVT_PAYLOAD 84) = 0
  cause : x.rbit (regFAULT_CAUSE 1) 17 = true
  state : x.pairState = s.pairState

theorem Unlinked.of_reg (h : Unlinked s t) (hl : u.linkRun = t.linkRun)
    (hr : ∀ a ∈ [regPAIR_STATUS, regPAIR_SKEW, regEVT_PAYLOAD 84, regFAULT_CAUSE 1], u.reg a = t.reg a) : Unlinked s u := by
  have hp := hr regPAIR_STATUS (by decide)
  exact ⟨hl.trans h.run, (congrArg (bit · 28) hp).trans h.link, (congrArg (bit · 27) hp).trans h.unreached, (hr _ (by decide)).trans h.skew, (hr _ (by decide)).trans h.event,
    (congrArg (bit · 17) (hr _ (by decide))).trans h.cause, (congrArg (fld · 0 4) hp).trans h.state⟩

theorem State.linkLost_unlinked (s : State) : Unlinked s ((s.linkLost.causeBegins 49).raiseEvent 84 0) ∧
    ((s.linkLost.causeBegins 49).raiseEvent 84 0).cancelWait = s.cancelWait := by
  obtain ⟨r, e, h1, h2, h3, h4⟩ := s.linkLost_spec
  have hf := State.causeBegins_frame (s := s.linkLost) 49
  have hr (a : Nat) (g3 : a / 0x10000 ≠ 3) (g4 : a / 0x10000 ≠ 4) : (s.linkLost.causeBegins 49).reg a = mapGet regReset r a := by
    refine (s.linkLost.causeBegins_reg 49 a (by decide) g3 (fun g => g4 (g ▸ rfl)) (fun g => g4 (g ▸ rfl)) (fun g => g4 (g ▸ rfl)) fun g => g4 (g ▸ rfl)).trans ?_
    rw [e]
    rfl
  have hc : (s.linkLost.causeBegins 49).rbit (regFAULT_CAUSE 1) 17 = true := (s.linkLost.causeBegins_cause 49 49 (by decide) (by decide)).trans (Bool.or_true _)
  have hl : (s.linkLost.causeBegins 49).linkRun = 0 ∧ (s.linkLost.causeBegins 49).cancelWait = s.cancelWait := by
    rw [hf, e]
    exact ⟨rfl, rfl⟩
  generalize s.linkLost.causeBegins 49 = x at *
  have hx (a : Nat) (g4 : a / 0x10000 ≠ 4) : (x.raiseEvent 84 0).reg a = x.reg a := State.raiseEvent_reg_block _ _ _ _ (by decide) g4
  have hp := (hx regPAIR_STATUS (by decide)).trans (hr _ (by decide) (by decide))
  refine ⟨⟨?_, (congrArg (bit · 28) hp).trans h1, (congrArg (bit · 27) hp).trans h2, (hx _ (by decide)).trans ((hr _ (by decide) (by decide)).trans h3),
    State.raiseEvent_payload _ _ _ (by decide), (congrArg (bit · 17) (hx _ (by decide))).trans hc, (congrArg (fld · 0 4) hp).trans h4⟩, ?_⟩
  · rw [State.raiseEvent_frame]
    exact hl.1
  · rw [State.raiseEvent_frame]
    exact hl.2

/-- An epoch that is discarded and the cancels leave the words of the link alone. -/
theorem Unlinked.stages {x : State} (h : Unlinked s x) : Unlinked s x.cancelsLost.lossAborts ∧ x.cancelsLost.lossAborts.epochRun = none ∧ x.cancelsLost.lossAborts.cancelWait = [] ∧
    (x.cancelWait ≠ [] → x.cancelsLost.lossAborts.rbit regPEG_STATUS 22 = true) := by
  obtain ⟨r, e, h1, h2⟩ := x.cancelsLost_spec
  obtain ⟨r', e', h1', -⟩ := x.cancelsLost.epochAbort_spec
  have hr (a : Nat) (ha : a ≠ regPEG_STATUS) : x.cancelsLost.reg a = x.reg a := by
    rw [e]
    exact h1 a ha
  have hb (hw : x.cancelWait ≠ []) : x.cancelsLost.rbit regPEG_STATUS 22 = true := by
    rw [e]
    exact h2 hw
  have hl : x.cancelsLost.linkRun = x.linkRun ∧ x.cancelsLost.cancelWait = [] := by
    rw [e]
    exact ⟨rfl, rfl⟩
  rw [State.lossAborts, e']
  generalize x.cancelsLost = y at *
  refine ⟨h.of_reg hl.1 fun a ha => ?_, rfl, hl.2, fun hw => (congrArg (bit · 22) (h1' _ (by decide))).trans (hb hw)⟩
  have hne : a ≠ regPAIR_ESTAT ∧ a ≠ regPEG_STATUS := by
    simp only [List.mem_cons, List.not_mem_nil, or_false] at ha
    rcases ha with rfl | rfl | rfl | rfl <;> decide
  exact (h1' a hne.1).trans (hr a hne.2)

theorem State.pairTo_payload (st i : Nat) (hi : i < 128) (h : i ≠ 86) : (s.pairTo st).reg (regEVT_PAYLOAD i) = s.reg (regEVT_PAYLOAD i) := by
  have hs : (s.setRfld regPAIR_STATUS 0 4 st).reg (regEVT_PAYLOAD i) = s.reg (regEVT_PAYLOAD i) := State.reg_setReg_ne _ _ (by
    simp only [regEVT_PAYLOAD, regPAIR_STATUS]
    omega)
  unfold State.pairTo
  split
  · exact (State.raiseEvent_payload_ne _ _ _ (by decide) hi h).trans hs
  · split
    · exact (State.raiseEvent_payload_ne _ _ _ (by decide) hi h).trans hs
    · exact hs

/-- A loss: the words of the link, and the standby states that go back to JOIN. -/
theorem exec_heartbeatLoss_spec (he : s.pairEn = true) (h : s.hbLost = true) : ∃ t, exec .heartbeatLoss s = .next t ∧
    t.rbit regPAIR_STATUS 28 = false ∧ t.rbit regPAIR_STATUS 27 = true ∧ t.linkRun = 0 ∧ t.reg regPAIR_SKEW = 0 ∧ t.reg (regEVT_PAYLOAD 84) = 0 ∧
    t.rbit (regFAULT_CAUSE 1) 17 = true ∧ t.epochRun = none ∧ t.cancelWait = [] ∧ (s.cancelWait ≠ [] → t.rbit regPEG_STATUS 22 = true) ∧
    ((s.pairState = pJOIN ∨ s.pairState = pMIRROR ∨ s.pairState = pREADY) → t.pairState = pJOIN ∧ t.joinStep = 0 ∧ t.reg regPAIR_EPOCH = 0) ∧
    (s.pairState ≠ pJOIN → s.pairState ≠ pMIRROR → s.pairState ≠ pREADY → t.pairState = s.pairState) := by
  refine ⟨_, exec_heartbeatLoss_lost he h, ?_⟩
  obtain ⟨hx, hw⟩ := s.linkLost_unlinked
  rw [← hw]
  generalize (s.linkLost.causeBegins 49).raiseEvent 84 0 = x at *
  obtain ⟨hy, h1, h2, h3⟩ := hx.stages
  generalize x.cancelsLost.lossAborts = y at *
  obtain ⟨y1, y2, y3, y4, y5, y6, y7⟩ := hy
  unfold State.lossJoins
  by_cases hs : s.pairState = pJOIN ∨ s.pairState = pMIRROR ∨ s.pairState = pREADY
  · rw [if_pos (y7 ▸ hs)]
    obtain ⟨r, e, g1, g2⟩ := y.pairGo_join_spec
    have hst := State.pairGo_state (s := y) pJOIN (by decide)
    have hc : (y.pairGo pJOIN).linkRun = y.linkRun ∧ (y.pairGo pJOIN).cancelWait = y.cancelWait := by
      rw [State.pairGo_frame]
      exact ⟨rfl, rfl⟩
    have hr (a : Nat) (a1 : a ≠ regPAIR_ESTAT) (a2 : a ≠ regPAIR_EPOCH) : (y.pairGo pJOIN).reg a = (y.pairTo pJOIN).reg a := by
      rw [e]
      exact g2 a a1 a2
    have ho (a : Nat) (a0 : a / 0x10000 ≠ 4) (a1 : a ≠ regPAIR_ESTAT) (a2 : a ≠ regPAIR_EPOCH) (a3 : a ≠ regPAIR_STATUS) : (y.pairGo pJOIN).reg a = y.reg a :=
      (hr a a1 a2).trans (State.pairTo_reg _ _ a0 a3)
    have hj : (y.pairGo pJOIN).epochRun = none ∧ (y.pairGo pJOIN).joinStep = 0 ∧ (y.pairGo pJOIN).reg regPAIR_EPOCH = 0 := by
      rw [e]
      exact ⟨rfl, rfl, g1⟩
    exact ⟨(State.pairGo_rbit _ _ (by decide)).trans y2, (State.pairGo_rbit _ _ (by decide)).trans y3, hc.1.trans y1,
      (ho _ (by decide) (by decide) (by decide) (by decide)).trans y4,
      (hr _ (by decide) (by decide)).trans ((State.pairTo_payload _ _ (by decide) (by decide)).trans y5),
      (congrArg (bit · 17) (ho _ (by decide) (by decide) (by decide) (by decide))).trans y6, hj.1, hc.2.trans h2,
      fun k => (congrArg (bit · 22) (ho _ (by decide) (by decide) (by decide) (by decide))).trans (h3 k), fun _ => ⟨hst, hj.2⟩,
      fun k1 k2 k3 => absurd hs fun k => k.elim k1 fun k => k.elim k2 k3⟩
  · rw [if_neg (y7 ▸ hs)]
    exact ⟨y2, y3, y1, y4, y5, y6, h1, h2, h3, fun k => absurd k hs, fun _ _ _ => y7⟩

theorem exec_heartbeatLoss_none (h : s.hbLost = false) : exec .heartbeatLoss s = .next s := by
  refine congrArg Host.Outcome.next (if_neg ?_)
  rw [h, Bool.and_false]
  exact Bool.false_ne_true

/-! ## READY (R350, R355) -/

theorem exec_mirrorReady_ready (h : s.pairState = pMIRROR) (hn : s.pairNeed ≤ (s.reg regPAIR_MATCH).toNat) :
    ∃ t, exec .mirrorReady s = .next t ∧ t.pairState = pREADY ∧ t.reg (regEVT_PAYLOAD 86) = 1 := by
  refine ⟨s.pairTo pREADY, congrArg Host.Outcome.next ((if_pos ⟨h, hn⟩).trans (State.pairGo_other (by decide) (by decide))), State.pairTo_state _ (by decide), ?_⟩
  refine (State.pairTo_event _).2 rfl ?_
  rw [h]
  decide

theorem exec_mirrorReady_idle (h : s.pairState ≠ pMIRROR ∨ (s.reg regPAIR_MATCH).toNat < s.pairNeed) : exec .mirrorReady s = .next s :=
  congrArg Host.Outcome.next (if_neg fun g => h.elim (fun k => k g.1) fun k => absurd g.2 (Nat.not_le.2 k))

/-- Settles O58, clause by clause. -/
theorem heartbeats : Obligations.Heartbeats := by
  unfold Obligations.Heartbeats
  intro s hb skew hen
  refine ⟨fun ht => ?_, State.hbGap_near, fun h => ?_, ?_, fun h => exec_heartbeatLoss_none (Bool.eq_false_iff.2 fun g => h (State.hbLost_iff.1 g)),
    fun h => exec_heartbeatLoss_spec hen (State.hbLost_iff.2 h), exec_mirrorReady_ready, exec_mirrorReady_idle⟩
  · obtain ⟨c, e⟩ := exec_heartbeatSend_on hen ht
    refine ⟨_, e, rfl, _, rfl, rfl, rfl, rfl, rfl, fun w => State.keptWord_found _ _ _ w, fun w h2 hw => ?_⟩
    obtain ⟨c1, e1⟩ := State.keptWord_frame (s := s) s.hashes s.now 1
    exact State.keptWord_found _ _ _ w h2 hw
  · obtain ⟨r, l, a, b, m, e, -, h2⟩ := s.hbGap_spec
    obtain ⟨h3, h4, h5, h6, h7⟩ := h2 h
    rw [e]
    exact ⟨h3, h4, h5, h6, rfl, h7⟩
  · refine ⟨_, exec_heartbeatReceive_on hb skew hen, ?_⟩
    obtain ⟨x1, x2, x3, x4, x5, x6, x7, x8, x9, x10, x11, x12, x13, x14, x15, x16⟩ := s.hbGap_hbLink hb skew
    generalize s.hbGap.hbLink hb skew = x at *
    obtain ⟨l1, l2, l3, l4⟩ := x.hbActs_link hb skew
    rw [← x3, ← x7, ← x8, ← x11, ← x12, ← x13, ← x5, ← x6, ← x9, ← x10, ← x14, ← x15, ← x16]
    refine ⟨l1.trans x1, l2.trans x2, fun k => ⟨l3.trans k, l4.trans (x4.trans (if_pos k))⟩, fun k => ⟨l3.trans (Bool.eq_false_iff.2 k), l4.trans (x4.trans (if_neg k))⟩,
      fun c => State.hbActs_epoch hb skew c, fun k1 k2 k3 => ?_, State.hbActs_far hb skew, fun k1 k2 k3 w k4 k5 => ?_, State.hbActs_dual hb skew⟩
    · obtain ⟨g1, g2, g3, g4⟩ := State.hbActs_steps hb skew k1 k2 k3
      exact ⟨g1, g2, g3, fun k => g4 (k.imp_left Bool.eq_false_iff.2)⟩
    · obtain ⟨m1, m2, m3, m4⟩ := State.hbActs_mismatch hb skew k1 k2 k3 w k4 k5
      exact ⟨m1, m2, m3, m4⟩

end Sys2Proof.Machine
end

section
/-! The launch of a stream packet (R242, R255 to R258, R352). -/

namespace Sys2Proof.Machine

-- One theorem after another, so that the compile of the whole text stays within its memory.
set_option Elab.async false

variable {s t u : State}

/-! ## The samples of a packet -/

theorem State.asrcSample_frame (c k : Nat) : ∃ n cv, (s.asrcSample c k).2 = { s with freeCtr := n, conv := cv } := by
  unfold State.asrcSample
  dsimp only
  split
  · exact ⟨_, _, rfl⟩
  · split
    · split
      · exact ⟨_, _, rfl⟩
      · split
        · exact ⟨_, _, rfl⟩
        · exact ⟨_, _, rfl⟩
    · exact ⟨_, _, rfl⟩

theorem State.flowSamples_frame (v : TxFlow) (i : Nat) : ∃ n cv, (s.flowSamples v i).2 = { s with freeCtr := n, conv := cv } := by
  induction i with
  | zero => exact ⟨_, _, rfl⟩
  | succ i ih =>
    obtain ⟨n, cv, e⟩ := ih
    unfold State.flowSamples
    dsimp only
    split
    · obtain ⟨n', cv', e'⟩ := State.asrcSample_frame (s := (s.flowSamples v i).2) _ _
      exact ⟨n', cv', e'.trans (by rw [e])⟩
    · exact ⟨n, cv, e⟩

/-- The samples of a packet are kept values, or those that rate-conversion channels deliver. -/
theorem State.packetSamples_frame (v : TxFlow) (m : Nat) : ∃ n cv, (s.packetSamples v m).2 = { s with freeCtr := n, conv := cv } ∧
    (fwRate v.words = s.fi → n = s.freeCtr ∧ cv = s.conv) := by
  by_cases h : fwRate v.words = s.fi
  · refine ⟨s.freeCtr, s.conv, ?_, fun _ => ⟨rfl, rfl⟩⟩
    rw [State.packetSamples, if_pos h]
  · obtain ⟨n, cv, e⟩ := State.flowSamples_frame (s := s) v (fwSamples v.words * fwChans v.words)
    refine ⟨n, cv, ?_, fun g => absurd g h⟩
    rw [State.packetSamples, if_neg h]
    exact e

/-! ## The launch -/

/-- The frame of a packet on a path. -/
def State.packetFrame (s : State) (v : TxFlow) (sn : Int) (samples : List Word) (x : Nat) : List Byte :=
  if fwAaf v.words then s.aafFrame x v.words sn (samples.flatMap (sampleBytes v.words)) else s.aes67Frame x v.words sn (samples.flatMap (sampleBytes v.words))

/-- The packet leaves on one path. -/
def State.launchOn (s t : State) (v : TxFlow) (x : Nat) (bs : List Byte) : State := if s.pathSends v.words x then t.sendFrame x bs else t

/-- The number of packets that a launch counts. -/
def State.launchCount (s : State) (v : TxFlow) : Nat := b2n (s.pathSends v.words 0 || s.pathSends v.words 1)

/-- The flow after a launch. -/
def State.launchedFlow (s : State) (v : TxFlow) (sn : Int) (late : Bool) : TxFlow :=
  { v with launched := some sn, sent := Nat.min 4294967295 (v.sent + s.launchCount v), lateLaunch := Nat.min 4294967295 (v.lateLaunch + b2n late * s.launchCount v) }

theorem State.launchOn_frame (v : TxFlow) (x : Nat) (bs : List Byte) : ∃ w, s.launchOn t v x bs = { t with wire := w } ∧
    (s.rbit (regNET_PSTAT x) 31 = t.rbit (regNET_PSTAT x) 31 → s.pathSends v.words x = true → mapFind w x = some (bs ++ List.replicate (60 - bs.length) 0)) ∧
    (s.pathSends v.words x = false → w = t.wire) ∧ ∀ y, y ≠ x → mapFind w y = mapFind t.wire y := by
  unfold State.launchOn
  by_cases h : s.pathSends v.words x = true
  · rw [if_pos h]
    have hl : s.rbit (regNET_PSTAT x) 31 = true := (Bool.and_eq_true_iff.1 h).2
    unfold State.sendFrame
    split
    · exact ⟨_, rfl, fun _ _ => mapFind_ins_self _ _ _ (mapFind_del_self _ _), fun g => absurd (g.symm.trans h) Bool.false_ne_true,
        fun y hy => (mapFind_ins_ne _ _ hy).trans (mapFind_del_ne _ hy)⟩
    case isFalse g => exact ⟨_, rfl, fun e => absurd (e.symm.trans hl) g, fun _ => rfl, fun _ _ => rfl⟩
  · rw [if_neg h]
    exact ⟨_, rfl, fun _ g => absurd g h, fun _ => rfl, fun _ _ => rfl⟩

theorem exec_streamPacketLaunch_none (f : Fin 256) (late : Bool) (v : TxFlow) (hf : mapFind s.txFlows f.val = some v)
    (h : v.run = false ∨ s.now = 0 ∨ s.gatedOff 14 = true ∨ s.packetStart v (s.now - 1) = none ∨ s.packetStart v (s.now - 1) = v.launched) :
    exec (.streamPacketLaunch f late) s = .next s := by
  refine congrArg Host.Outcome.next ?_
  rw [hf]
  dsimp only
  split
  · rfl
  case isFalse h1 =>
    have hn : ¬ (v.run = false ∨ s.now = 0 ∨ s.gatedOff 14 = true) := by
      rintro (g | g | g)
      · exact h1 (by rw [g]; rfl)
      · exact h1 (by rw [decide_eq_true g, Bool.or_true]; rfl)
      · exact h1 (by rw [g, Bool.or_true])
    have h2 : s.packetStart v (s.now - 1) = none ∨ s.packetStart v (s.now - 1) = v.launched := by tauto
    cases hp : s.packetStart v (s.now - 1) with
    | none => rfl
    | some sn =>
      have h3 : v.launched = some sn := by
        rcases h2 with g | g
        · exact absurd (g.symm.trans hp) (by simp)
        · exact g.symm.trans hp
      exact if_pos h3

/-- The state that a launch leaves. -/
def State.launch (s : State) (f : Nat) (v : TxFlow) (sn : Int) (late : Bool) : State :=
  if !s.ownPrev then (s.packetSamples v (s.now - 1)).2.setTxFlow f { v with launched := some sn }
  else
    (s.launchOn (s.launchOn (s.packetSamples v (s.now - 1)).2 v 0 ((s.packetSamples v (s.now - 1)).2.packetFrame v sn (s.packetSamples v (s.now - 1)).1 0)) v 1
      ((s.packetSamples v (s.now - 1)).2.packetFrame v sn (s.packetSamples v (s.now - 1)).1 1)).setTxFlow f (s.launchedFlow v sn late)

theorem exec_streamPacketLaunch_some (f : Fin 256) (late : Bool) (v : TxFlow) (hf : mapFind s.txFlows f.val = some v) (sn : Int) (hr : v.run = true) (hn : s.now ≠ 0)
    (hg : s.gatedOff 14 = false) (hp : s.packetStart v (s.now - 1) = some sn) (hl : v.launched ≠ some sn) :
    exec (.streamPacketLaunch f late) s = .next (s.launch f.val v sn late) := by
  refine congrArg Host.Outcome.next ?_
  have hc : ¬ ((!v.run || decide (s.now = 0) || s.gatedOff 14) = true) := by
    rw [hr, hg, decide_eq_false hn]
    exact Bool.false_ne_true
  rw [hf]
  dsimp only
  rw [if_neg hc, hp]
  refine (if_neg hl).trans ?_
  unfold State.launch State.launchOn State.packetFrame State.launchedFlow State.launchCount
  generalize s.packetSamples v (s.now - 1) = r
  rfl

/-- Settles O42, clause by clause. -/
theorem streamLaunch : Obligations.StreamLaunch := by
  unfold Obligations.StreamLaunch
  intro s f late v hf
  refine ⟨exec_streamPacketLaunch_none f late v hf, fun sn hr hn hg hp hl => ⟨_, exec_streamPacketLaunch_some f late v hf sn hr hn hg hp hl, ?_⟩⟩
  obtain ⟨n, cv, e, hc⟩ := State.packetSamples_frame (s := s) v (s.now - 1)
  have hflow (m : List (Nat × TxFlow)) (x : TxFlow) : mapFind (mapIns (mapDel m f.val) f.val x) f.val = some x ∧
      ∀ g, g ≠ f.val → mapFind (mapIns (mapDel m f.val) f.val x) g = mapFind m g :=
    ⟨mapFind_ins_self _ _ _ (mapFind_del_self _ _), fun g h => (mapFind_ins_ne _ _ h).trans (mapFind_del_ne _ h)⟩
  unfold State.launch
  rcases Bool.eq_false_or_eq_true s.ownPrev with ho | ho
  · rw [if_neg (by rw [ho]; exact Bool.false_ne_true), e]
    generalize (s.packetSamples v (s.now - 1)).1 = samples
    have hframe (x : Nat) : ({ s with freeCtr := n, conv := cv } : State).packetFrame v sn samples x = s.packetFrame v sn samples x := rfl
    rw [hframe, hframe]
    obtain ⟨w0, e0, a0, b0, c0⟩ := State.launchOn_frame (s := s) (t := { s with freeCtr := n, conv := cv }) v 0 (s.packetFrame v sn samples 0)
    obtain ⟨w1, e1, a1, b1, c1⟩ := State.launchOn_frame (s := s) (t := { s with freeCtr := n, conv := cv, wire := w0 }) v 1 (s.packetFrame v sn samples 1)
    rw [e0, e1]
    refine ⟨rfl, hc, (hflow _ _).2, fun g => absurd (g.symm.trans ho) Bool.false_ne_true, fun _ => ⟨(hflow _ _).1, fun x hx hs => ?_, fun x hx => ?_⟩⟩
    · have hx' : x = 0 ∨ x = 1 := by omega
      rcases hx' with rfl | rfl
      · exact (c1 0 (by decide)).trans (a0 rfl hs)
      · exact a1 rfl hs
    · by_cases h1 : x = 1
      · subst h1
        exact (congrArg (mapFind · 1) (b1 (hx.resolve_left (by decide)))).trans (c0 1 (by decide))
      · refine (c1 x h1).trans ?_
        by_cases h0 : x = 0
        · subst h0
          exact congrArg (mapFind · 0) (b0 (hx.resolve_left (by decide)))
        · exact c0 x h0
  · rw [if_pos (by rw [ho]; rfl), e]
    exact ⟨rfl, hc, (hflow _ _).2, fun _ => ⟨rfl, (hflow _ _).1⟩, fun g => absurd (ho.symm.trans g) Bool.false_ne_true⟩

end Sys2Proof.Machine
end

section
/-! The Delron roll-call: partners, announcements and connections (R265, R266, R267, R269). -/

namespace Sys2Proof.Machine

-- One theorem after another, so that the compile of the whole text stays within its memory.
set_option Elab.async false

variable {s t u : State}

/-! ## Numbers in messages (R265) -/

theorem natBE_append (bs : List Byte) (b : Byte) : natBE (bs ++ [b]) = natBE bs * 256 + b.toNat := by
  rw [natBE, List.foldl_append]
  rfl

theorem natBE_lt (bs : List Byte) : natBE bs < 256 ^ bs.length := by
  induction bs using List.reverseRecOn with
  | nil => exact Nat.one_pos
  | append_singleton bs b ih =>
    have hb := b.isLt
    rw [natBE_append, List.length_append, List.length_singleton, Nat.pow_succ]
    omega

theorem numAt_lt (bs : List Byte) (i n : Nat) : numAt bs i n < 256 ^ n :=
  (natBE_lt _).trans_le (Nat.pow_le_pow_right (by decide) (List.length_take_le _ _))

theorem DelronMsg.word_toNat (m : DelronMsg) (i : Nat) : (m.word i).toNat = numAt m.body i 4 := by
  rw [DelronMsg.word, BitVec.toNat_ofNat]
  exact Nat.mod_eq_of_lt (numAt_lt _ _ _)

/-- What an announcement carries (R267). -/
theorem DelronMsg.announce_some {m : DelronMsg} {b : Announce} (h : m.announce = some b) : b.sender = m.sender ∧ b.flows.length = numAt m.body 54 1 ∧ b.flows.length ≤ 64 ∧
    b.ipA.toNat = numAt m.body 46 4 ∧ b.ipB.toNat = numAt m.body 50 4 := by
  unfold DelronMsg.announce at h
  dsimp only at h
  split at h
  case isTrue hn =>
    obtain rfl := Option.some.inj h
    have hl : ((List.range (numAt m.body 54 1)).map fun k => m.flowRec (56 + 16 * k)).length = numAt m.body 54 1 := by rw [List.length_map, List.length_range]
    exact ⟨rfl, hl, hl.trans_le hn.1, m.word_toNat 46, m.word_toNat 50⟩
  case isFalse => exact nomatch h

/-! ## Connections (R270) -/

theorem State.connect_none (h : s.conns = []) (hr : ∀ u, u < 256 → bit (s.connRule u 0) 31 = false) : s.connect = s := by
  have hm : ∀ l : List Nat, (∀ u ∈ l, u < 256) → l.foldl State.connMake s = s := fun l => by
    induction l with
    | nil => exact fun _ => rfl
    | cons u l ih =>
      intro hl
      have hu : s.connMake u = s := by
        unfold State.connMake
        dsimp only
        rw [hr u (hl u List.mem_cons_self), Bool.not_false, Bool.true_or, Bool.true_or, if_pos rfl]
      rw [List.foldl_cons, hu]
      exact ih fun w hw => hl w (List.mem_cons_of_mem _ hw)
  unfold State.connect
  split
  · rw [h, List.foldl_nil]
    exact hm (List.range 256) fun u hu => List.mem_range.1 hu
  · rfl

/-! ## The entries of the partner table (R269) -/

/-- Words written one after another behind word 0 of an entry. -/
theorem State.partnerSets_spec (p k : Nat) (vs : List Word) (s : State) :
    (∃ m, (vs.zipIdx k).foldl (fun (t : State) e => t.partnerSet p (e.2 + 1) e.1) s = { s with tab := m }) ∧
    (∀ i, i < vs.length → ((vs.zipIdx k).foldl (fun (t : State) e => t.partnerSet p (e.2 + 1) e.1) s).tabGet (partnerAddr p (k + 1 + i)) = nthD vs i 0) ∧
    ∀ a, (a < partnerAddr p (k + 1) ∨ partnerAddr p (k + vs.length) < a) →
      ((vs.zipIdx k).foldl (fun (t : State) e => t.partnerSet p (e.2 + 1) e.1) s).tabGet a = s.tabGet a := by
  induction vs generalizing k s with
  | nil => exact ⟨⟨_, rfl⟩, fun _ h => absurd h (Nat.not_lt_zero _), fun _ _ => rfl⟩
  | cons v vs ih =>
    obtain ⟨⟨m, e⟩, h1, h2⟩ := ih (k + 1) (s.tabSet (partnerAddr p (k + 1)) v)
    rw [List.zipIdx_cons, List.foldl_cons, State.partnerSet_pos _ _ _ _ (Nat.succ_ne_zero k), List.length_cons]
    refine ⟨⟨m, e⟩, fun i hi => ?_, fun a ha => (h2 a ?_).trans (State.tabGet_tabSet_ne _ _ ?_)⟩
    · cases i with
      | zero => exact (h2 _ (.inl (by unfold partnerAddr; omega))).trans (State.tabGet_tabSet_self _ _ _)
      | succ i =>
        have e := h1 i (Nat.lt_of_succ_lt_succ hi)
        rwa [Nat.add_assoc (k + 1), Nat.add_comm 1 i] at e
    · unfold partnerAddr at ha ⊢
      omega
    · unfold partnerAddr at ha ⊢
      omega

/-- The paths on which a partner is heard. -/
def heardPaths (x : Path) (paths : Nat) : Nat :=
  match x with
  | .a => if paths % 2 = 1 then paths else paths + 1
  | .b => if paths / 2 = 1 then paths else paths + 2

theorem heardPaths_lt (x : Path) (paths : Nat) (h : paths < 4) : heardPaths x paths < 4 := by
  unfold heardPaths
  cases x with
  | a =>
    dsimp only
    split <;> omega
  | b =>
    dsimp only
    split <;> omega

/-- Word 0 of an entry names it valid, with the number of its flows. -/
theorem partnerWord0_spec (b : Announce) (paths : Nat) (hp : paths < 4) (hl : b.flows.length ≤ 64) :
    bit (partnerWord0 b paths) 31 = true ∧ fld (partnerWord0 b paths) 8 8 = b.flows.length := by
  have h1 := b.pairState.isLt
  have h2 : b2n b.roleB < 2 := by cases b.roleB <;> decide
  have h3 := b.carNo.isLt
  unfold partnerWord0
  refine ⟨?_, ?_⟩
  · rw [bit_ofNat _ _ (by decide), Nat.testBit_eq_decide_div_mod_eq, decide_eq_true_eq]
    omega
  · rw [fld, BitVec.toNat_ofNat]
    omega

/-- The words of an entry behind word 0. -/
def announceWords (b : Announce) (k : Word) : List Word := [hi32 b.sender, lo32 b.sender, b.ipA, b.ipB, k, b.period.zeroExtend 32, b.gid]

/-- An entry has taken the words of an announcement behind word 0. -/
def State.partnerFilled (s : State) (p : Nat) (b : Announce) : State := ((announceWords b (lo32 s.fc)).zipIdx).foldl (fun (t : State) e => t.partnerSet p (e.2 + 1) e.1) s

theorem State.partnerUpdate_eq (p : Nat) (x : Path) (b : Announce) (paths : Nat) : s.partnerUpdate p x b paths =
    { (s.partnerFilled p b).partnerSet p 0 (partnerWord0 b (heardPaths x paths)) with
      partnerFlows := mapIns (mapDel ((s.partnerFilled p b).partnerSet p 0 (partnerWord0 b (heardPaths x paths))).partnerFlows p) p b.flows } := by
  cases x with
  | a => rfl
  | b => rfl

/-- What a change of word 0 leaves. -/
theorem State.partnerSet_zero_spec (p : Nat) (w : Word) (hw : bit w 31 = true) : ∃ m r k q, s.partnerSet p 0 w = { s with tab := m, regs := r, tokens := k, seq := q } ∧
    (s.partnerSet p 0 w).tabGet (partnerAddr p 0) = w ∧ (∀ a, a ≠ partnerAddr p 0 → (s.partnerSet p 0 w).tabGet a = s.tabGet a) ∧
    (s.partnerValid p = false → (s.partnerSet p 0 w).rbit (regEVT_PEND 1) 31 = true ∧ (s.partnerSet p 0 w).reg (regEVT_PAYLOAD 63) = BitVec.ofNat 32 p) := by
  rw [State.partnerSet_zero]
  split
  case isTrue h =>
    exact ⟨_, _, _, _, rfl, State.tabGet_tabSet_self _ _ _, fun a ha => State.tabGet_tabSet_ne _ _ ha, fun g => absurd (hw.symm.trans (h.trans g)) (by decide)⟩
  case isFalse h =>
    have hf := State.raiseEvent_frame (s.tabSet (partnerAddr p 0) w) 63 (BitVec.ofNat 32 p)
    have h1 := State.raiseEvent_pend_self (s.tabSet (partnerAddr p 0) w) 63 (BitVec.ofNat 32 p) (by decide)
    have h2 := State.raiseEvent_payload (s.tabSet (partnerAddr p 0) w) 63 (BitVec.ofNat 32 p) (by decide)
    have ht (a : Nat) : ((s.tabSet (partnerAddr p 0) w).raiseEvent 63 (BitVec.ofNat 32 p)).tabGet a = (s.tabSet (partnerAddr p 0) w).tabGet a := by
      rw [hf]
      rfl
    exact ⟨_, _, _, _, hf, (ht _).trans (State.tabGet_tabSet_self _ _ _), fun a ha => (ht a).trans (State.tabGet_tabSet_ne _ _ ha), fun _ => ⟨h1, h2⟩⟩

/-- The entry after an announcement. -/
theorem State.partnerUpdate_spec (p : Nat) (x : Path) (b : Announce) (paths : Nat) (hp : paths < 4) (hl : b.flows.length ≤ 64) :
    s.partnerUpdate p x b paths = { s with
      tab := (s.partnerUpdate p x b paths).tab, partnerFlows := (s.partnerUpdate p x b paths).partnerFlows, regs := (s.partnerUpdate p x b paths).regs,
      tokens := (s.partnerUpdate p x b paths).tokens, seq := (s.partnerUpdate p x b paths).seq } ∧
    (s.partnerUpdate p x b paths).tabGet (partnerAddr p 0) = partnerWord0 b (heardPaths x paths) ∧
    (∀ i, i < 7 → (s.partnerUpdate p x b paths).tabGet (partnerAddr p (1 + i)) = nthD (announceWords b (lo32 s.fc)) i 0) ∧
    (∀ a, (a < partnerAddr p 0 ∨ partnerAddr p 7 < a) → (s.partnerUpdate p x b paths).tabGet a = s.tabGet a) ∧
    mapFind (s.partnerUpdate p x b paths).partnerFlows p = some b.flows ∧
    (∀ q, q ≠ p → mapFind (s.partnerUpdate p x b paths).partnerFlows q = mapFind s.partnerFlows q) ∧
    (s.partnerValid p = false → (s.partnerUpdate p x b paths).rbit (regEVT_PEND 1) 31 = true ∧
      (s.partnerUpdate p x b paths).reg (regEVT_PAYLOAD 63) = BitVec.ofNat 32 p) := by
  obtain ⟨⟨m, e⟩, h1, h2⟩ := State.partnerSets_spec p 0 (announceWords b (lo32 s.fc)) s
  obtain ⟨m', r, k, q, e', g1, g2, g3⟩ := State.partnerSet_zero_spec (s := s.partnerFilled p b) p (partnerWord0 b (heardPaths x paths))
    (partnerWord0_spec b _ (heardPaths_lt x paths hp) hl).1
  have ef : s.partnerFilled p b = { s with tab := m } := e
  have hv : (s.partnerFilled p b).partnerValid p = s.partnerValid p := congrArg (bit · 31) (h2 _ (.inl (by unfold partnerAddr; omega)))
  have ht (a : Nat) (ha : a < partnerAddr p 0 ∨ partnerAddr p 7 < a) : (s.partnerFilled p b).tabGet a = s.tabGet a :=
    h2 a (ha.imp (fun g => by unfold partnerAddr at g ⊢; omega) id)
  have hw (i : Nat) (hi : i < 7) : (s.partnerFilled p b).tabGet (partnerAddr p (1 + i)) = nthD (announceWords b (lo32 s.fc)) i 0 := by
    have := h1 i hi
    rwa [Nat.zero_add] at this
  rw [State.partnerUpdate_eq]
  have hx : ((s.partnerFilled p b).partnerSet p 0 (partnerWord0 b (heardPaths x paths))) = { s with tab := m', regs := r, tokens := k, seq := q } := by rw [e', ef]
  generalize s.partnerFilled p b = y at *
  generalize y.partnerSet p 0 (partnerWord0 b (heardPaths x paths)) = z at *
  subst hx
  refine ⟨rfl, g1, fun i hi => (g2 _ (by unfold partnerAddr; omega)).trans (hw i hi), fun a ha => (g2 a ?_).trans (ht a ha),
    mapFind_ins_self _ _ _ (mapFind_del_self _ _), fun j hj => (mapFind_ins_ne _ _ hj).trans (mapFind_del_ne _ hj), fun g => g3 (hv.trans g)⟩
  unfold partnerAddr at ha ⊢
  omega

/-! ## The commands of the roll-call -/

theorem exec_delronAnnounce_ignored (x : Path) (msg : List Byte) (h : s.ticking = false ∨ delronParse msg = none) : exec (.delronAnnounce x msg) s = .next s := by
  refine congrArg Host.Outcome.next ?_
  split
  · rfl
  case isFalse ht =>
    have hp : delronParse msg = none := h.resolve_left fun g => ht (by rw [g]; rfl)
    rw [hp]

theorem State.ticking_not (h : s.ticking = true) : ¬ (!s.ticking) = true := by
  rw [h]
  exact Bool.false_ne_true

theorem exec_delronAnnounce_other (x : Path) (msg : List Byte) (m : DelronMsg) (ht : s.ticking = true) (hm : delronParse msg = some m)
    (h : m.type ≠ 0x01 ∨ m.sender = s.devId ∨ m.announce = none) : exec (.delronAnnounce x msg) s = .next s := by
  have hn : (if m.type = 0x01 ∧ m.sender ≠ s.devId then m.announce else none) = none := by
    split
    case isTrue g => exact (h.resolve_left fun k => k g.1).resolve_left g.2
    case isFalse => rfl
  refine congrArg Host.Outcome.next ((if_neg (State.ticking_not ht)).trans ?_)
  rw [hm]
  dsimp only
  rw [hn]

theorem exec_delronAnnounce_heard (x : Path) (msg : List Byte) (m : DelronMsg) (b : Announce) (ht : s.ticking = true) (hm : delronParse msg = some m)
    (h1 : m.type = 0x01) (h2 : m.sender ≠ s.devId) (h3 : m.announce = some b) : exec (.delronAnnounce x msg) s = .next (s.announced x b) := by
  have hn : (if m.type = 0x01 ∧ m.sender ≠ s.devId then m.announce else none) = some b := (if_pos ⟨h1, h2⟩).trans h3
  refine congrArg Host.Outcome.next ((if_neg (State.ticking_not ht)).trans ?_)
  rw [hm]
  dsimp only
  rw [hn]

theorem State.announced_known (x : Path) (b : Announce) (p : Nat) (h : s.partnerOf b.sender = some p) :
    s.announced x b = (s.partnerUpdate p x b (fld (s.tabGet (partnerAddr p 0)) 26 2)).connect := by
  unfold State.announced
  rw [h]

theorem State.announced_new (x : Path) (b : Announce) (p : Nat) (hp : p < 512) (h : s.partnerOf b.sender = none) (hf : s.partnerValid p = false)
    (hl : ∀ q, q < p → s.partnerValid q = true) : s.announced x b = (s.partnerUpdate p x b 0).connect := by
  have hfind : ((List.range 512).find? fun p => !s.partnerValid p) = some p := by
    rw [List.find?_range_eq_some, List.mem_range]
    refine ⟨by rw [hf]; rfl, hp, fun j hj => ?_⟩
    rw [hl j hj]
    rfl
  unfold State.announced
  rw [h]
  dsimp only
  rw [hfind]

theorem State.announced_full (x : Path) (b : Announce) (h : s.partnerOf b.sender = none) (hl : ∀ q, q < 512 → s.partnerValid q = true) :
    s.announced x b = { s with partnersRefused := s.partnersRefused + 1 } := by
  have hfind : ((List.range 512).find? fun p => !s.partnerValid p) = none := by
    rw [List.find?_eq_none]
    intro q hq
    rw [hl q (List.mem_range.1 hq)]
    exact Bool.false_ne_true
  unfold State.announced
  rw [h]
  dsimp only
  rw [hfind]

/-- A request of the asked type is served. -/
theorem State.delronRequest_served (src : DelronSrc) (type : Nat) (msg : List Byte) (f : DelronMsg → State → State) (m : DelronMsg) (ht : s.ticking = true)
    (hh : s.delronHere src msg = true) (hm : delronParse msg = some m) (hty : m.type = type) : s.delronRequest src type msg f = f m (s.delronTake src) := by
  unfold State.delronRequest
  rw [if_pos (by rw [ht, hh]; rfl), hm]
  exact if_pos hty

/-- The entry of a partner that is gone, before the rules follow. -/
def State.goneEntry (s : State) (p : Nat) : State :=
  { s.partnerSet p 0 (s.tabGet (partnerAddr p 0) &&& 0x7FFFFFFF#32) with partnerFlows := mapDel s.partnerFlows p }

theorem State.partnerGone_eq (p : Nat) : s.partnerGone p = (s.goneEntry p).connect := by
  have h : (s.partnerSet p 0 (s.tabGet (partnerAddr p 0) &&& 0x7FFFFFFF#32)).partnerFlows = s.partnerFlows := by
    rw [State.partnerSet_zero]
    split
    · rfl
    · rw [State.raiseEvent_frame]
      rfl
  unfold State.partnerGone
  dsimp only
  rw [h]
  rfl

theorem exec_delronLeave_host (msg : List Byte) (m : DelronMsg) (ht : s.ticking = true) (hm : delronParse msg = some m) (hty : m.type = 0x02)
    (hh : s.delronHere .spi msg = true) : exec (.delronLeave (.spi, msg)) s = .next (s.delronTake .spi).sendLeave :=
  congrArg Host.Outcome.next (State.delronRequest_served .spi 0x02 msg _ m ht hh hm hty)

theorem exec_delronLeave_known (msg : List Byte) (m : DelronMsg) (ip : Word) (port : BitVec 16) (p : Nat) (ht : s.ticking = true) (hm : delronParse msg = some m)
    (hty : m.type = 0x02) (h : s.partnerOf m.sender = some p) : exec (.delronLeave (.net ip port, msg)) s = .next (s.goneEntry p).connect := by
  refine congrArg Host.Outcome.next ((State.delronRequest_served (.net ip port) 0x02 msg _ m ht rfl hm hty).trans ?_)
  have e : s.delronTake (.net ip port) = s := rfl
  dsimp only
  rw [e, h]
  exact State.partnerGone_eq p

theorem exec_delronLeave_unknown (msg : List Byte) (m : DelronMsg) (ip : Word) (port : BitVec 16) (ht : s.ticking = true) (hm : delronParse msg = some m)
    (hty : m.type = 0x02) (h : s.partnerOf m.sender = none) : exec (.delronLeave (.net ip port, msg)) s = .next s := by
  refine congrArg Host.Outcome.next ((State.delronRequest_served (.net ip port) 0x02 msg _ m ht rfl hm hty).trans ?_)
  have e : s.delronTake (.net ip port) = s := rfl
  dsimp only
  rw [e, h]

theorem exec_partnerTimeout_valid (p : Fin 512) (ht : s.ticking = true) (hv : s.partnerValid p.val = true) :
    exec (.partnerTimeout p) s = .next (s.goneEntry p.val).connect :=
  congrArg Host.Outcome.next ((if_pos ⟨ht, hv⟩).trans (State.partnerGone_eq p.val))

theorem exec_partnerTimeout_idle (p : Fin 512) (h : s.ticking = false ∨ s.partnerValid p.val = false) : exec (.partnerTimeout p) s = .next s :=
  congrArg Host.Outcome.next (if_neg fun g => h.elim (fun k => Bool.false_ne_true (k.symm.trans g.1)) fun k => Bool.false_ne_true (k.symm.trans g.2))

theorem exec_announceSend_linked (ht : s.ticking = true) (h : s.rbit (regNET_PSTAT 0) 31 = true ∨ s.rbit (regNET_PSTAT 1) 31 = true) : exec .announceSend s =
    .next { s with freeCtr := s.freeCtr + 1, delronNet := some (0xEFC0B01A#32, 0xB01A#16, delronMsg s.devId 0x01 (s.draw.1.extractLsb' 0 16) s.announceBody) } :=
  congrArg Host.Outcome.next (if_pos ⟨ht, h⟩)

theorem exec_announceSend_idle (h : s.ticking = false ∨ (s.rbit (regNET_PSTAT 0) 31 = false ∧ s.rbit (regNET_PSTAT 1) 31 = false)) : exec .announceSend s = .next s := by
  refine congrArg Host.Outcome.next (if_neg ?_)
  rintro ⟨g1, g2⟩
  rcases h with h | ⟨h1, h2⟩
  · exact Bool.false_ne_true (h.symm.trans g1)
  · exact g2.elim (fun k => Bool.false_ne_true (h1.symm.trans k)) fun k => Bool.false_ne_true (h2.symm.trans k)

/-- Settles O45, clause by clause. -/
theorem delronRollCall : Obligations.DelronRollCall := by
  unfold Obligations.DelronRollCall
  intro s x msg p gone
  refine ⟨State.connect_none, exec_delronAnnounce_ignored x msg,
    fun m ht hm => ⟨exec_delronAnnounce_other x msg m ht hm, fun b h1 h2 h3 => ?_, exec_delronLeave_host msg m ht hm,
      fun ip port h => ⟨exec_delronLeave_known msg m ip port p.val ht hm h, exec_delronLeave_unknown msg m ip port ht hm h⟩⟩,
    fun b paths hp hl => ?_, exec_partnerTimeout_valid p, exec_partnerTimeout_idle p,
    ⟨s.draw.1.extractLsb' 0 16, rfl, exec_announceSend_linked⟩, exec_announceSend_idle⟩
  · have he := exec_delronAnnounce_heard x msg m b ht hm h1 h2 h3
    obtain ⟨g1, g2, g3, g4, g5⟩ := DelronMsg.announce_some h3
    rw [he, ← g1]
    exact ⟨rfl, g2, g3, g4, g5, fun h => congrArg Host.Outcome.next (State.announced_known x b p.val h),
      fun h hf hl => congrArg Host.Outcome.next (State.announced_new x b p.val p.isLt h hf hl), fun h hl => congrArg Host.Outcome.next (State.announced_full x b h hl)⟩
  · obtain ⟨h1, h2, h3, h4, h5, h6, h7⟩ := State.partnerUpdate_spec (s := s) p.val x b paths hp hl
    obtain ⟨w1, w2⟩ := partnerWord0_spec b _ (heardPaths_lt x paths hp) hl
    exact ⟨h1, (congrArg (bit · 31) h2).trans w1, h3 0 (by decide), h3 1 (by decide), h3 2 (by decide), h3 3 (by decide), h3 4 (by decide),
      (congrArg (fld · 8 8) h2).trans w2, h5, h6, h4, h7⟩

end Sys2Proof.Machine
end

section
/-! Delron requests and their replies (R265, R266, R268, R339). -/

namespace Sys2Proof.Machine

-- One theorem after another, so that the compile of the whole text stays within its memory.
set_option Elab.async false

variable {s t u : State}

/-! ## Numbers and messages (R265) -/

theorem beBytes_length (len n : Nat) : (beBytes len n).length = len := by rw [beBytes, List.length_map, List.length_reverse, List.length_range]

theorem beBytes_succ (len n : Nat) : beBytes (len + 1) n = beBytes len (n / 256) ++ [BitVec.ofNat 8 n] := by
  have h : (fun i => BitVec.ofNat 8 (n / 256 ^ i)) ∘ Nat.succ = fun i => BitVec.ofNat 8 (n / 256 / 256 ^ i) := by
    funext i
    rw [Function.comp, Nat.succ_eq_add_one, Nat.pow_succ, Nat.mul_comm, Nat.div_div_eq_div_mul]
  rw [beBytes, List.range_succ_eq_map, List.reverse_cons, List.map_append, ← List.map_reverse, List.map_map, h, List.map_singleton, Nat.pow_zero, Nat.div_one]
  rfl

theorem natBE_beBytes (len n : Nat) : natBE (beBytes len n) = n % 256 ^ len := by
  induction len generalizing n with
  | zero => exact (Nat.mod_one n).symm
  | succ len ih =>
    have h : 256 ^ (len + 1) = 256 * 256 ^ len := Nat.pow_succ'
    rw [beBytes_succ, natBE_append, ih, BitVec.toNat_ofNat, h, Nat.mod_mul, Nat.mul_comm, Nat.add_comm]

/-- A number behind leading bytes. -/
theorem numAt_skip (x ys : List Byte) (i n : Nat) : numAt (x ++ ys) (x.length + i) n = numAt ys i n := by
  rw [numAt, bytesAt, List.drop_append, List.drop_eq_nil_of_le (Nat.le_add_right _ _), Nat.add_sub_cancel_left]
  rfl

theorem numAt_head (x ys : List Byte) : numAt (x ++ ys) 0 x.length = natBE x := by rw [numAt, bytesAt, List.drop_zero, List.take_left]

theorem numAt_beBytes (len n : Nat) (ys : List Byte) : numAt (beBytes len n ++ ys) 0 len = n % 256 ^ len := by
  have h := numAt_head (beBytes len n) ys
  rwa [beBytes_length, natBE_beBytes] at h

/-- The parts of a message in their order. -/
theorem delronMsg_parts (dev : BitVec 64) (type : Nat) (seq : BitVec 16) (body : List Byte) : ∃ crc : Word,
    delronMsg dev type seq body = [0xDE#8, 0x1A#8] ++ ([0x01#8] ++ ([BitVec.ofNat 8 type] ++ (beBytes 2 body.length ++ (beBytes 2 seq.toNat ++ (beBytes 8 dev.toNat ++ (body ++ bytesBE crc)))))) ∧
    crc = crc32 ((delronMsg dev type seq body).take (16 + body.length)) ∧ (delronMsg dev type seq body).length = body.length + 20 ∧
    (delronMsg dev type seq body).drop (16 + body.length) = bytesBE crc := by
  have hl : ([0xDE#8, 0x1A#8, 0x01#8, BitVec.ofNat 8 type] ++ beBytes 2 body.length ++ beBytes 2 seq.toNat ++ beBytes 8 dev.toNat ++ body).length = 16 + body.length := by
    rw [List.length_append, List.length_append, List.length_append, List.length_append, beBytes_length, beBytes_length, beBytes_length]
    rfl
  unfold delronMsg
  dsimp only
  refine ⟨_, ?_, congrArg crc32 (List.take_left' hl).symm, ?_, List.drop_left' hl⟩
  · simp only [List.append_assoc, List.cons_append, List.nil_append]
  · rw [List.length_append, hl]
    exact Nat.add_right_comm 16 body.length 4 ▸ Nat.add_comm 20 body.length

/-- A well-formed message is read as it was built. -/
theorem delronParse_delronMsg (dev : BitVec 64) (type : Nat) (seq : BitVec 16) (body : List Byte) (hb : body.length ≤ 1400) (ht : type < 256) :
    delronParse (delronMsg dev type seq body) = some { type := type, seq := seq, sender := dev, body := body } := by
  obtain ⟨crc, e, hc, hl, hd⟩ := delronMsg_parts dev type seq body
  generalize delronMsg dev type seq body = msg at *
  have hskip (x ys : List Byte) (i n k : Nat) (hk : k = x.length + i) : numAt (x ++ ys) k n = numAt ys i n := hk ▸ numAt_skip x ys i n
  have h0 : numAt msg 0 2 = 0xDE1A := by
    rw [e]
    exact numAt_head [0xDE#8, 0x1A#8] _
  have h2 : numAt msg 2 1 = 1 := by
    rw [e, hskip [0xDE#8, 0x1A#8] _ 0 1 2 rfl]
    exact numAt_head [0x01#8] _
  have h3 : numAt msg 3 1 = type := by
    rw [e, hskip [0xDE#8, 0x1A#8] _ 1 1 3 rfl, hskip [0x01#8] _ 0 1 1 rfl]
    refine (numAt_head [BitVec.ofNat 8 type] _).trans ?_
    rw [natBE, List.foldl_cons, List.foldl_nil, BitVec.toNat_ofNat, Nat.zero_mul, Nat.zero_add]
    exact Nat.mod_eq_of_lt ht
  have h4 : numAt msg 4 2 = body.length := by
    rw [e, hskip [0xDE#8, 0x1A#8] _ 2 2 4 rfl, hskip [0x01#8] _ 1 2 2 rfl, hskip [BitVec.ofNat 8 type] _ 0 2 1 rfl, numAt_beBytes]
    exact Nat.mod_eq_of_lt (by omega)
  have h6 : numAt msg 6 2 = seq.toNat := by
    rw [e, hskip [0xDE#8, 0x1A#8] _ 4 2 6 rfl, hskip [0x01#8] _ 3 2 4 rfl, hskip [BitVec.ofNat 8 type] _ 2 2 3 rfl,
      hskip (beBytes 2 body.length) _ 0 2 2 (by rw [beBytes_length]), numAt_beBytes]
    exact Nat.mod_eq_of_lt seq.isLt
  have h8 : numAt msg 8 8 = dev.toNat := by
    rw [e, hskip [0xDE#8, 0x1A#8] _ 6 8 8 rfl, hskip [0x01#8] _ 5 8 6 rfl, hskip [BitVec.ofNat 8 type] _ 4 8 5 rfl,
      hskip (beBytes 2 body.length) _ 2 8 4 (by rw [beBytes_length]), hskip (beBytes 2 seq.toNat) _ 0 8 2 (by rw [beBytes_length]), numAt_beBytes]
    exact Nat.mod_eq_of_lt dev.isLt
  have hbody : bytesAt msg 16 body.length = body := by
    have hx : msg = ([0xDE#8, 0x1A#8] ++ ([0x01#8] ++ ([BitVec.ofNat 8 type] ++ (beBytes 2 body.length ++ (beBytes 2 seq.toNat ++ beBytes 8 dev.toNat))))) ++ (body ++ bytesBE crc) := by
      rw [e]
      simp only [List.append_assoc, List.cons_append, List.nil_append]
    have h16 : ([0xDE#8, 0x1A#8] ++ ([0x01#8] ++ ([BitVec.ofNat 8 type] ++ (beBytes 2 body.length ++ (beBytes 2 seq.toNat ++ beBytes 8 dev.toNat))))).length = 16 := by
      simp only [List.length_append, beBytes_length, List.length_cons, List.length_nil]
    rw [bytesAt, hx, List.drop_left' h16, List.take_left]
  unfold delronParse
  dsimp only
  rw [h0, h2, h3, h4, h6, h8, hbody, if_pos ⟨rfl, rfl, hb, hl, by rw [hd, hc]⟩, BitVec.ofNat_toNat, BitVec.ofNat_toNat, BitVec.setWidth_eq, BitVec.setWidth_eq]

/-! ## Requests that are not served (R265, R266, R268) -/

section
variable {src : DelronSrc} {type : Nat} {msg : List Byte} {f : DelronMsg → State → State}

theorem State.delronRequest_idle (h : s.ticking = false ∨ s.delronHere src msg = false) : s.delronRequest src type msg f = s := by
  refine if_neg ?_
  rw [Bool.and_eq_true]
  rintro ⟨g1, g2⟩
  exact h.elim (fun k => Bool.false_ne_true (k.symm.trans g1)) fun k => Bool.false_ne_true (k.symm.trans g2)

theorem State.delronRequest_damaged (ht : s.ticking = true) (hh : s.delronHere src msg = true) (hm : delronParse msg = none) :
    s.delronRequest src type msg f = s.delronTake src := by
  unfold State.delronRequest
  rw [if_pos (Bool.and_eq_true_iff.2 ⟨ht, hh⟩), hm]

theorem State.delronRequest_unknown (m : DelronMsg) (ht : s.ticking = true) (hh : s.delronHere src msg = true) (hm : delronParse msg = some m)
    (hty : m.type ∉ delronTypes) (htype : type ∈ delronTypes) : s.delronRequest src type msg f = (s.delronTake src).nak src m.seq m.type 1 := by
  unfold State.delronRequest
  rw [if_pos (Bool.and_eq_true_iff.2 ⟨ht, hh⟩), hm]
  exact (if_neg fun e : m.type = type => hty (e ▸ htype)).trans (if_neg fun e => hty (List.contains_iff_mem.1 e))

end

/-! ## Served requests (R266) -/

theorem DelronMsg.words_eq (m : DelronMsg) (i k : Nat) (h : m.body.length = i + 4 * k) :
    m.words i = (List.range k).map fun j => BitVec.ofNat 32 (numAt m.body (i + 4 * j) 4) := by
  rw [DelronMsg.words, show (m.body.length - i) / 4 = k by omega]
  rfl

/-! ## Replies (R265, R339) -/

/-- Words written one after another change the table there only. -/
theorem tabSet_words_frame (ws : List Word) (base k : Nat) (s : State) :
    (∃ m, (ws.zipIdx k).foldl (fun (t : State) e => t.tabSet (base + 4 * e.2) e.1) s = { s with tab := m }) ∧
    ∀ b, (b < base + 4 * k ∨ base + 4 * (k + ws.length) ≤ b) → ((ws.zipIdx k).foldl (fun (t : State) e => t.tabSet (base + 4 * e.2) e.1) s).tabGet b = s.tabGet b := by
  induction ws generalizing k s with
  | nil => exact ⟨⟨_, rfl⟩, fun _ _ => rfl⟩
  | cons w ws ih =>
    obtain ⟨⟨m, e⟩, h⟩ := ih (k + 1) (s.tabSet (base + 4 * k) w)
    refine ⟨⟨m, e⟩, fun b hb => (h b ?_).trans (State.tabGet_tabSet_ne _ _ ?_)⟩
    · rw [List.length_cons] at hb
      omega
    · rw [List.length_cons] at hb
      omega

theorem State.writeSlot_frame (base : Nat) (msg : List Byte) (h : msg.length ≤ 1532) : (∃ m, s.writeSlot base msg = { s with tab := m }) ∧
    ∀ a, (a < base ∨ base + 0x600 ≤ a) → (s.writeSlot base msg).tabGet a = s.tabGet a := by
  obtain ⟨⟨m, e⟩, hf⟩ := tabSet_words_frame (packBE msg) (base + 4) 0 s
  refine ⟨⟨mapSet tabDefault m base (BitVec.ofNat 32 msg.length), ?_⟩, fun a ha => (State.tabGet_tabSet_ne _ _ ?_).trans (hf a ?_)⟩
  · unfold State.writeSlot
    dsimp only
    rw [e]
    rfl
  · omega
  · rw [(packBE_bytes msg).2]
    omega

theorem State.slotBytes_of_tab (base : Nat) (h : t.tab = s.tab) : t.slotBytes base = s.slotBytes base := by
  unfold State.slotBytes State.tabGet
  rw [h]

theorem State.replySpi_written (msg : List Byte) (h1 : s.outWait = []) (h2 : s.tabGet (outSlot s.outFill) = 0) :
    s.replySpi msg = { s.writeSlot (outSlot s.outFill) msg with outFill := (s.outFill + 1) % 4 } := by
  refine if_pos ?_
  rw [h1, decide_eq_true h2]
  rfl

theorem State.replySpi_full (msg : List Byte) (h : s.outWait ≠ [] ∨ s.tabGet (outSlot s.outFill) ≠ 0) : s.replySpi msg =
    if s.outWait.length < 16 then { s with outWait := s.outWait ++ [msg] } else s.count regBOOT_HOSTDROP 1 := by
  refine if_neg ?_
  rw [Bool.and_eq_true, List.isEmpty_iff, decide_eq_true_eq]
  exact fun g => h.elim (fun k => k g.1) fun k => k g.2

/-! ## The requests, one by one -/

section
variable {src : DelronSrc} {p0 p1 p2 p3 p4 p5 : List Byte}

/-- What every request that is not served leaves. -/
theorem exec_delron_all (x : State) (hr : ∀ type ∈ delronTypes, ∀ f, s.delronRequest src type (p0 ++ (p1 ++ p2 ++ p3 ++ p4) ++ p5) f = x) :
    exec (.delronRead src p0 (p1 ++ p2 ++ p3 ++ p4) p5) s = .next x ∧ exec (.delronWrite src p0 (p1 ++ p2 ++ p3 ++ p4) p5) s = .next x ∧
    exec (.delronPeg src (p0 ++ (p1 ++ p2 ++ p3 ++ p4)) p5) s = .next x ∧ exec (.delronSceneCommit src p0 p1 p2 p3 p4 p5) s = .next x ∧
    exec (.delronStatusReq src (p0 ++ (p1 ++ p2 ++ p3 ++ p4) ++ p5)) s = .next x ∧ exec (.delronLeave (src, p0 ++ (p1 ++ p2 ++ p3 ++ p4) ++ p5)) s = .next x :=
  ⟨congrArg Host.Outcome.next (hr 0x10 (by decide) _), congrArg Host.Outcome.next (hr 0x12 (by decide) _), congrArg Host.Outcome.next (hr 0x14 (by decide) _),
    congrArg Host.Outcome.next (hr 0x20 (by decide) _), congrArg Host.Outcome.next (hr 0x30 (by decide) _), congrArg Host.Outcome.next (hr 0x02 (by decide) _)⟩

variable {m : DelronMsg} (ht : s.ticking = true) (hh : s.delronHere src (p0 ++ (p1 ++ p2 ++ p3 ++ p4) ++ p5) = true)
  (hm : delronParse (p0 ++ (p1 ++ p2 ++ p3 ++ p4) ++ p5) = some m)
include ht hh hm

theorem exec_delronRead_served (hty : m.type = 0x10) :
    ((m.body.length ≠ 8 ∨ numAt m.body 4 2 = 0 ∨ 256 < numAt m.body 4 2) →
      exec (.delronRead src p0 (p1 ++ p2 ++ p3 ++ p4) p5) s = .next ((s.delronTake src).nak src m.seq 0x10 2)) ∧
    (m.body.length = 8 → 1 ≤ numAt m.body 4 2 → numAt m.body 4 2 ≤ 256 →
      let c := (s.delronTake src).delronMaster
      let r := c.2.delronReads c.1 (numAt m.body 0 4) (numAt m.body 4 2)
      exec (.delronRead src p0 (p1 ++ p2 ++ p3 ++ p4) p5) s =
        .next (r.1.2.reply src 0x11 m.seq (bytesAt m.body 0 6 ++ beBytes 2 (if r.2 = 0 then 0 else 4) ++ r.1.1.flatMap bytesBE))) := by
  refine ⟨fun h => ?_, fun h1 h2 h3 => ?_⟩
  · refine congrArg Host.Outcome.next ((State.delronRequest_served src 0x10 _ _ m ht hh hm hty).trans (if_pos ?_))
    omega
  · refine congrArg Host.Outcome.next ((State.delronRequest_served src 0x10 _ _ m ht hh hm hty).trans ((if_neg ?_).trans ?_))
    · omega
    · rw [DelronMsg.word_toNat]
      rfl

theorem exec_delronWrite_served (hty : m.type = 0x12) :
    (delronAllowed src = false → exec (.delronWrite src p0 (p1 ++ p2 ++ p3 ++ p4) p5) s = .next ((s.delronTake src).nak src m.seq 0x12 3)) ∧
    (delronAllowed src = true → (m.body.length ≠ 8 + 4 * numAt m.body 4 2 ∨ numAt m.body 4 2 = 0 ∨ 256 < numAt m.body 4 2) →
      exec (.delronWrite src p0 (p1 ++ p2 ++ p3 ++ p4) p5) s = .next ((s.delronTake src).nak src m.seq 0x12 2)) ∧
    (delronAllowed src = true → m.body.length = 8 + 4 * numAt m.body 4 2 → 1 ≤ numAt m.body 4 2 → numAt m.body 4 2 ≤ 256 →
      let c := (s.delronTake src).delronMaster
      let r := c.2.delronWrites c.1 (numAt m.body 0 4) ((List.range (numAt m.body 4 2)).map fun k => BitVec.ofNat 32 (numAt m.body (8 + 4 * k) 4))
      exec (.delronWrite src p0 (p1 ++ p2 ++ p3 ++ p4) p5) s = .next
        (if r.1.2.ticking then r.1.2.reply src 0x13 m.seq (bytesAt m.body 0 4 ++ beBytes 2 r.1.1 ++ beBytes 2 (if r.2 = 0 then 0 else 4)) else r.1.2)) := by
  have ha (h : delronAllowed src = true) : ¬ (!delronAllowed src) = true := by
    rw [h]
    exact Bool.false_ne_true
  refine ⟨fun h => ?_, fun h h1 => ?_, fun h h1 h2 h3 => ?_⟩
  · refine congrArg Host.Outcome.next ((State.delronRequest_served src 0x12 _ _ m ht hh hm hty).trans (if_pos ?_))
    rw [h]
    rfl
  · refine congrArg Host.Outcome.next ((State.delronRequest_served src 0x12 _ _ m ht hh hm hty).trans ((if_neg (ha h)).trans (if_pos ?_)))
    omega
  · refine congrArg Host.Outcome.next ((State.delronRequest_served src 0x12 _ _ m ht hh hm hty).trans ((if_neg (ha h)).trans ((if_neg ?_).trans ?_)))
    · omega
    · rw [DelronMsg.word_toNat, m.words_eq 8 _ h1]
      rfl

theorem exec_delronPeg_served (hty : m.type = 0x14) :
    let h : Word := BitVec.ofNat 32 (numAt m.body 0 4)
    (delronAllowed src = false → exec (.delronPeg src (p0 ++ (p1 ++ p2 ++ p3 ++ p4)) p5) s = .next ((s.delronTake src).nak src m.seq 0x14 3)) ∧
    (delronAllowed src = true → ((s.delronTake src).standby = true ∨ (s.delronTake src).pegClosed = true) →
      exec (.delronPeg src (p0 ++ (p1 ++ p2 ++ p3 ++ p4)) p5) s = .next ((s.delronTake src).nak src m.seq 0x14 6)) ∧
    (delronAllowed src = true → (s.delronTake src).standby = false → (s.delronTake src).pegClosed = false →
      ((m.body.length ≠ 4 * (hdrLen h + 1) ∨ hdrOk h = false) → exec (.delronPeg src (p0 ++ (p1 ++ p2 ++ p3 ++ p4)) p5) s = .next ((s.delronTake src).nak src m.seq 0x14 2)) ∧
      (m.body.length = 4 * (hdrLen h + 1) → hdrOk h = true →
        ((s.delronTake src).pegFree < hdrSpace h → exec (.delronPeg src (p0 ++ (p1 ++ p2 ++ p3 ++ p4)) p5) s = .next ((s.delronTake src).nak src m.seq 0x14 5)) ∧
        (hdrSpace h ≤ (s.delronTake src).pegFree →
          let c := (s.delronTake src).delronMaster
          let t := ((List.range (hdrLen h)).map fun k => BitVec.ofNat 32 (numAt m.body (4 + 4 * k) 4)).foldl (fun (t : State) v => t.pegData c.1.val v) (c.2.pegHeader c.1.val h)
          exec (.delronPeg src (p0 ++ (p1 ++ p2 ++ p3 ++ p4)) p5) s = .next (t.reply src 0x15 m.seq (beBytes 2 0 ++ beBytes 2 t.pegFree))))) := by
  intro h
  have e {f : DelronMsg → State → State} := State.delronRequest_served src 0x14 (p0 ++ (p1 ++ p2 ++ p3 ++ p4) ++ p5) f m ht hh hm hty
  have ha (g : delronAllowed src = true) : ¬ (!delronAllowed src) = true := by
    rw [g]
    exact Bool.false_ne_true
  have hb (g1 : (s.delronTake src).standby = false) (g2 : (s.delronTake src).pegClosed = false) : ¬ ((s.delronTake src).standby || (s.delronTake src).pegClosed) = true := by
    rw [g1, g2]
    exact Bool.false_ne_true
  have hc (g1 : m.body.length = 4 * (hdrLen h + 1)) (g2 : hdrOk h = true) : ¬ (m.body.length ≠ 4 * (hdrLen h + 1) ∨ (!hdrOk h) = true) := by
    rw [g2]
    exact fun k => k.elim (fun k => k g1) Bool.false_ne_true
  refine ⟨fun k => ?_, fun k1 k2 => ?_, fun k1 k2 k3 => ⟨fun k4 => ?_, fun k4 k5 => ⟨fun k6 => ?_, fun k6 => ?_⟩⟩⟩
  · refine congrArg Host.Outcome.next (e.trans (if_pos ?_))
    rw [k]
    rfl
  · exact congrArg Host.Outcome.next (e.trans ((if_neg (ha k1)).trans (if_pos (Bool.or_eq_true_iff.2 k2))))
  · exact congrArg Host.Outcome.next (e.trans ((if_neg (ha k1)).trans ((if_neg (hb k2 k3)).trans (if_pos (k4.imp id fun g => congrArg Bool.not g)))))
  · exact congrArg Host.Outcome.next (e.trans ((if_neg (ha k1)).trans ((if_neg (hb k2 k3)).trans ((if_neg (hc k4 k5)).trans (if_pos k6)))))
  · refine congrArg Host.Outcome.next (e.trans ((if_neg (ha k1)).trans ((if_neg (hb k2 k3)).trans ((if_neg (hc k4 k5)).trans ((if_neg (Nat.not_lt.2 k6)).trans ?_)))))
    rw [m.words_eq 4 (hdrLen h) (by omega)]
    rfl

theorem exec_delronSceneCommit_served (hty : m.type = 0x20) :
    let scene := numAt m.body 0 2
    let mode := numAt m.body 2 1
    let tb := numAt m.body 3 1
    (delronAllowed src = false → exec (.delronSceneCommit src p0 p1 p2 p3 p4 p5) s = .next ((s.delronTake src).nak src m.seq 0x20 3)) ∧
    (delronAllowed src = true → ((s.delronTake src).standby = true ∨ (s.delronTake src).pegClosed = true) →
      exec (.delronSceneCommit src p0 p1 p2 p3 p4 p5) s = .next ((s.delronTake src).nak src m.seq 0x20 6)) ∧
    (delronAllowed src = true → (s.delronTake src).standby = false → (s.delronTake src).pegClosed = false →
      ((m.body.length ≠ 16 ∨ 1024 ≤ scene ∨ 3 ≤ mode ∨ 4 ≤ tb) → exec (.delronSceneCommit src p0 p1 p2 p3 p4 p5) s = .next ((s.delronTake src).nak src m.seq 0x20 2)) ∧
      (m.body.length = 16 → scene < 1024 → mode < 3 → tb < 4 →
        let w := (s.delronTake src).sceneWords mode (BitVec.ofNat 32 (numAt m.body 4 4)) (BitVec.ofNat 48 (numAt m.body 8 6))
        let k := w.2.delronMaster
        let h := BitVec.ofNat 32 (0x30000000 + w.1.length * 65536 + tb * 4096 + mode * 1024 + scene)
        (w.2.pegFree < hdrSpace h → exec (.delronSceneCommit src p0 p1 p2 p3 p4 p5) s = .next (w.2.nak src m.seq 0x20 5)) ∧
        (hdrSpace h ≤ w.2.pegFree →
          exec (.delronSceneCommit src p0 p1 p2 p3 p4 p5) s = .next ((k.2.pegClose k.1.val).joinQueue k.1.val h w.1 (some (src, m.seq)))))) := by
  intro scene mode tb
  have e {f : DelronMsg → State → State} := State.delronRequest_served src 0x20 (p0 ++ (p1 ++ p2 ++ p3 ++ p4) ++ p5) f m ht hh hm hty
  have ha (g : delronAllowed src = true) : ¬ (!delronAllowed src) = true := by
    rw [g]
    exact Bool.false_ne_true
  have hb (g1 : (s.delronTake src).standby = false) (g2 : (s.delronTake src).pegClosed = false) : ¬ ((s.delronTake src).standby || (s.delronTake src).pegClosed) = true := by
    rw [g1, g2]
    exact Bool.false_ne_true
  refine ⟨fun k => ?_, fun k1 k2 => ?_, fun k1 k2 k3 => ⟨fun k4 => ?_, fun k4 k5 k6 k7 => ?_⟩⟩
  · refine congrArg Host.Outcome.next (e.trans (if_pos ?_))
    rw [k]
    rfl
  · exact congrArg Host.Outcome.next (e.trans ((if_neg (ha k1)).trans (if_pos (Bool.or_eq_true_iff.2 k2))))
  · exact congrArg Host.Outcome.next (e.trans ((if_neg (ha k1)).trans ((if_neg (hb k2 k3)).trans (if_pos k4))))
  · have hc : ¬ (m.body.length ≠ 16 ∨ 1024 ≤ scene ∨ 3 ≤ mode ∨ 4 ≤ tb) := by omega
    exact ⟨fun k8 => congrArg Host.Outcome.next (e.trans ((if_neg (ha k1)).trans ((if_neg (hb k2 k3)).trans ((if_neg hc).trans (if_pos k8))))),
      fun k8 => congrArg Host.Outcome.next (e.trans ((if_neg (ha k1)).trans ((if_neg (hb k2 k3)).trans ((if_neg hc).trans (if_neg (Nat.not_lt.2 k8))))))⟩

theorem exec_delronStatusReq_served (hty : m.type = 0x30) :
    (m.body ≠ [] → exec (.delronStatusReq src (p0 ++ (p1 ++ p2 ++ p3 ++ p4) ++ p5)) s = .next ((s.delronTake src).nak src m.seq 0x30 2)) ∧
    (m.body = [] →
      let u := s.delronTake src
      let p := u.regValue regGLOBAL_PIPE_STAT
      exec (.delronStatusReq src (p0 ++ (p1 ++ p2 ++ p3 ++ p4) ++ p5)) s =
        .next (p.2.reply src 0x31 m.seq (bytesBE p.1 ++ beBytes 8 u.fc.toNat ++ bytesBE (u.reg regNET_STATUS) ++
          beBytes 2 u.validPartners ++ beBytes 2 u.partnersRefused ++ [u.tbStates, BitVec.ofNat 8 u.delronPair, 0, 0]))) := by
  have e {f : DelronMsg → State → State} := State.delronRequest_served src 0x30 (p0 ++ (p1 ++ p2 ++ p3 ++ p4) ++ p5) f m ht hh hm hty
  exact ⟨fun h => congrArg Host.Outcome.next (e.trans (if_pos h)), fun h => congrArg Host.Outcome.next (e.trans (if_neg (not_not.2 h)))⟩

end

/-- Settles O44, clause by clause. -/
theorem delronRequests : Obligations.DelronRequests := by
  unfold Obligations.DelronRequests
  refine ⟨fun s src p0 p1 p2 p3 p4 p5 => ⟨fun h => exec_delron_all s fun _ _ _ => State.delronRequest_idle h,
      fun ht hh hm => exec_delron_all _ fun _ _ _ => State.delronRequest_damaged ht hh hm,
      fun m ht hh hm hty => exec_delron_all _ fun _ htype _ => State.delronRequest_unknown m ht hh hm hty htype⟩,
    fun s src p0 p1 p2 p3 p4 p5 m ht hh hm => ?_, fun s dev type seq body hb ht => ⟨delronParse_delronMsg dev type seq body hb ht, fun _ _ => rfl, fun h1 h2 => ?_, fun h1 h2 => ?_, fun h => ?_⟩⟩
  · exact ⟨exec_delronRead_served ht hh hm, exec_delronWrite_served ht hh hm, exec_delronPeg_served ht hh hm, exec_delronSceneCommit_served ht hh hm,
      exec_delronStatusReq_served ht hh hm⟩
  · have hl : (delronMsg s.devId type seq body).length ≤ 1532 := by
      obtain ⟨_, -, -, h, -⟩ := delronMsg_parts s.devId type seq body
      omega
    have e : s.reply .spi type seq body = _ := State.replySpi_written (delronMsg s.devId type seq body) h1 h2
    obtain ⟨⟨m, em⟩, ho⟩ := State.writeSlot_frame (s := s) (outSlot s.outFill) _ hl
    have hs := State.slotBytes_writeSlot (s := s) (outSlot s.outFill) _ hl
    dsimp only
    rw [e]
    generalize s.writeSlot (outSlot s.outFill) (delronMsg s.devId type seq body) = y at *
    have hy : ({ y with outFill := (s.outFill + 1) % 4 } : State).slotBytes (outSlot s.outFill) = y.slotBytes (outSlot s.outFill) := State.slotBytes_of_tab _ rfl
    refine ⟨?_, hy.trans hs, ho⟩
    rw [em]
  · have e : s.reply .spi type seq body = _ := State.replySpi_full (delronMsg s.devId type seq body) h1
    rw [e, if_pos h2]
  · have hne : s.outWait ≠ [] := fun g => by
      rw [g, List.length_nil] at h
      omega
    have e : s.reply .spi type seq body = _ := State.replySpi_full (delronMsg s.devId type seq body) (.inl hne)
    rw [e, if_neg (Nat.not_lt.2 h)]

end Sys2Proof.Machine
end

section
/-! The frame tick (R22, R36), and what it does to a Course (R35, R69, R71 to R73, R77, R100). -/

namespace Sys2Proof.Machine

-- One theorem after another, so that the compile of the whole text stays within its memory.
set_option Elab.async false

/-! ## The preemption of a background (R69, R71, R100) -/

theorem Ctx.advance_stall (c : Ctx) : c.advance.stall = c.stall := by
  have h : c.advance = { c.advance with bundle := c.bundle, stall := c.stall } := Ctx.advance_congr c c.bundle c.stall
  rw [h]

theorem Ctx.drain_stall (c : Ctx) : c.drain.stall = c.stall := by
  unfold Ctx.drain
  iterate 8 rw [Ctx.advance_stall]

/-- A preempted context with no bundle stalled has its results in flight written, and no more (R69). -/
theorem Ctx.preempt_of_stall {c : Ctx} (h : c.stall = none) : c.preempt = c.drain := by
  have hd : c.drain.stall = none := c.drain_stall.trans h
  unfold Ctx.preempt
  rw [h]
  generalize c.drain = d at hd
  obtain ⟨⟩ := d
  subst hd
  rfl

theorem State.settle_due (s : State) (n : CourseId) (hd : (s.course n).preemptDue = true) (hp : (s.course n).phase = .back)
    (hst : (s.course n).bg.stall = none) (hr : (s.course n).bg.rep = none) :
    s.settle n = s.setCourse n { s.course n with phase := .entry, preemptDue := false, bg := (s.course n).bg.drain } := by
  rw [← Ctx.preempt_of_stall hst]
  exact if_pos (by rw [hd, hp, hst, hr]; rfl)

theorem State.settle_not_due (s : State) (n : CourseId)
    (h : (s.course n).preemptDue = false ∨ (s.course n).phase ≠ .back ∨ (s.course n).bg.stall.isSome = true ∨ (s.course n).bg.rep.isSome = true) :
    s.settle n = s := by
  rcases h with h | h | h | h
  · exact s.settle_id n (.inl h)
  · exact s.settle_id n (.inr h)
  all_goals
    refine if_neg ?_
    simp only [Bool.and_eq_true, Option.isNone_iff_eq_none, Option.isSome_iff_ne_none] at h ⊢
    tauto

/-! ## The tick of one Course -/

theorem State.retireTaps_fold (s : State) (n : CourseId) (frame : Nat → Nat) (ws : Nat → List (Nat × Word)) (l : List Nat) :
    ∃ ls, l.foldl (fun s i => s.retireTaps n (frame i) (ws i)) s = { s with lines := ls } := by
  induction l generalizing s with
  | nil => exact ⟨s.lines, rfl⟩
  | cons i l ih =>
    obtain ⟨ls, e⟩ := s.retireTaps_shape n (frame i) (ws i)
    obtain ⟨ls', e'⟩ := ih { s with lines := ls }
    exact ⟨ls', by rw [List.foldl_cons, e, e']⟩

theorem State.course_congr {s t : State} (h : t.courses = s.courses) (m : CourseId) : t.course m = s.course m := by
  rw [State.course, State.course, h]

/-- A Course that does not run at the tick. -/
def Course.stopped (c : Course) : Bool := decide (c.phase = .halted) || decide (c.phase = .reset)

/-- The backlog that the tick of frame `k` counts (R35). -/
def State.tickBacklog (s : State) (n : CourseId) (k : Nat) : State :=
  if decide ((s.course n).frame < k) && !(s.course n).stopped then s.count (regC_BACKLOG_CNT n.val) 1 else s

/-- The counts at the tick, with the zeros of a stopped Course's tap ports (R35, R73, R77). -/
def State.tickCounts (s : State) (n : CourseId) (k : Nat) : State :=
  let b := (s.tickBacklog n k).stallField 0 (s.course n).bgRan
  let s2 := b.2.setRfld (regC_CYCLES n.val) 0 16 b.1
  if (s.course n).stopped then s2.retireZero n (s.course n).frame k else s2

section
variable (s : State) (n : CourseId) (k : Nat)

theorem State.stallField_frame (m : Nat) (o : Bool) : ∃ f, (s.stallField m o).2 = { s with freeCtr := f } := by
  cases o
  · exact ⟨s.freeCtr, rfl⟩
  · exact ⟨_, rfl⟩

theorem State.tickBacklog_frame : ∃ r, s.tickBacklog n k = { s with regs := r } := by
  unfold State.tickBacklog
  split
  · exact ⟨_, rfl⟩
  · exact ⟨s.regs, rfl⟩

theorem State.tickCounts_courses : (s.tickCounts n k).courses = s.courses := by
  obtain ⟨r, hr⟩ := s.tickBacklog_frame n k
  obtain ⟨f, hf⟩ := (s.tickBacklog n k).stallField_frame 0 (s.course n).bgRan
  have hb : ((s.tickBacklog n k).stallField 0 (s.course n).bgRan).2.courses = s.courses := by rw [hf, hr]
  unfold State.tickCounts
  generalize (s.tickBacklog n k).stallField 0 (s.course n).bgRan = b at hb
  dsimp only
  split
  · obtain ⟨ls, e⟩ := (b.2.setRfld (regC_CYCLES n.val) 0 16 b.1).retireTaps_fold n ((s.course n).frame + ·) (fun _ => []) (List.range (k - (s.course n).frame))
    exact (congrArg State.courses e).trans hb
  · exact hb

theorem State.tickCounts_backlog (hf : (s.course n).frame < k) (hr : (s.course n).stopped = false) :
    (s.tickCounts n k).reg (regC_BACKLOG_CNT n.val) = satAdd (s.reg (regC_BACKLOG_CNT n.val)) 0 32 1 := by
  obtain ⟨f, e⟩ := (s.tickBacklog n k).stallField_frame 0 (s.course n).bgRan
  have hb : (s.tickBacklog n k).reg (regC_BACKLOG_CNT n.val) = satAdd (s.reg (regC_BACKLOG_CNT n.val)) 0 32 1 := by
    rw [State.tickBacklog, decide_eq_true hf, hr]
    exact State.reg_setReg_self _ _ _
  have hs : ((s.tickBacklog n k).stallField 0 (s.course n).bgRan).2.reg (regC_BACKLOG_CNT n.val) = (s.tickBacklog n k).reg (regC_BACKLOG_CNT n.val) := by
    rw [e]
    rfl
  unfold State.tickCounts
  rw [if_neg (by rw [hr]; decide), State.reg_setRfld_ne _ _ _ _ _ _ (by simp only [regC_BACKLOG_CNT, regC_CYCLES]; omega), hs, hb]

end

/-- A Course behind the tick of frame `k`, with what its HALT bit and its background ask for (R35, R69 to R73). -/
def Course.ticked (c : Course) (halt finish : Bool) (k : Nat) : Course :=
  { c with
    bgRan := finish
    preemptDue := finish
    frame := if c.stopped then k else c.frame
    phase := match c.phase with
      | .back => if finish then .back else .entry
      | .sleep => .entry
      | .halted => if halt then .halted else .entry
      | .reset => if c.reloaded then (if halt then .halted else .entry) else .reset
      | p => p
    bg := if c.phase = .back ∧ !finish then c.bg.preempt else c.bg
    task := if c.phase = .halted then c.task else c.task.map fun t => { t with ticks := t.ticks + 1 }
    haltDue := c.haltDue || (halt && !c.stopped) }

/-- The background of a Course must finish before a tick preempts it (R71, R100). -/
def State.tickFinish (s : State) (n : CourseId) : Bool := decide ((s.course n).phase = .back) && (s.course n).bg.mustFinish (s.amode n .bg)

/-- The state behind the tick of a Course, before a requested reset. -/
def State.tickRun (s : State) (n : CourseId) (k : Nat) : State :=
  (s.tickCounts n k).setCourse n ((s.course n).ticked (s.rbit (regC_CTRL n.val) 0) (s.tickFinish n) k)

/-- A Course that a requested reset has taken at the tick of frame `k` (R72). -/
def Course.resetAt (c : Course) (k : Nat) : Course :=
  { c with
    phase := .reset, resetReq := false, reloaded := false, bg := Ctx.reset, frame := k, feedCur := [], feedOut := [], feedFrame := none
    feedLevel := 0, tapCur := [], missed := none, haltDue := false, preemptDue := false, pageOld := []
    fg := { c.fg with stall := none, bundle := [], slot := none, rep := none, ended := false } }

section
variable (s : State) (n : CourseId) (k : Nat)

theorem State.course_tickRun_ne {m : CourseId} (h : m ≠ n) : (s.tickRun n k).course m = s.course m :=
  (State.course_setCourse_ne _ _ h).trans (State.course_congr (s.tickCounts_courses n k) m)

theorem State.course_tickRun : (s.tickRun n k).course n = (s.course n).ticked (s.rbit (regC_CTRL n.val) 0) (s.tickFinish n) k :=
  State.course_setCourse_self _ _ _

theorem State.courseTick_eq : s.courseTick n k = if (s.course n).resetReq then (s.tickRun n k).courseReset n k else s.tickRun n k := by
  have hrun : (s.tickCounts n k).modCourse n (fun c => { c with
      bgRan := s.tickFinish n
      preemptDue := s.tickFinish n
      frame := if (s.course n).stopped then k else c.frame
      phase := match c.phase with
        | .back => if s.tickFinish n then .back else .entry
        | .sleep => .entry
        | .halted => if s.rbit (regC_CTRL n.val) 0 then .halted else .entry
        | .reset => if c.reloaded then (if s.rbit (regC_CTRL n.val) 0 then .halted else .entry) else .reset
        | p => p
      bg := if c.phase = .back ∧ !s.tickFinish n then c.bg.preempt else c.bg
      task := if c.phase = .halted then c.task else c.task.map fun t => { t with ticks := t.ticks + 1 }
      haltDue := c.haltDue || (s.rbit (regC_CTRL n.val) 0 && !(s.course n).stopped) }) = s.tickRun n k := by
    rw [State.modCourse, State.course_congr (s.tickCounts_courses n k)]
    rfl
  rw [← hrun]
  rfl

theorem State.courseTick_runs (h : (s.course n).resetReq = false) : s.courseTick n k = s.tickRun n k := by
  rw [State.courseTick_eq, h]
  rfl

theorem State.courseTick_resets (h : (s.course n).resetReq = true) : s.courseTick n k = (s.tickRun n k).courseReset n k := by
  rw [State.courseTick_eq, h]
  rfl

/-! ## The reset of a Course at the tick -/

theorem State.abortTask_courses : (s.abortTask n).course n = { s.course n with task := none } ∧ ∀ m, m ≠ n → (s.abortTask n).course m = s.course m := by
  unfold State.abortTask
  split
  next h =>
    refine ⟨?_, fun _ _ => rfl⟩
    rw [← h]
  next t h =>
    refine ⟨?_, fun m hm => ?_⟩
    · rw [State.raiseEvent_course]
      exact State.course_modCourse_self s n (fun c => { c with task := none })
    · rw [State.raiseEvent_course]
      exact State.course_modCourse_ne s (fun c => { c with task := none }) hm

/-- The report of an aborted task (R205). -/
theorem State.abortTask_event {t : Task} (h : (s.course n).task = some t) :
    (s.abortTask n).reg (regEVT_PAYLOAD 3) = BitVec.ofNat 32 (t.tag + n.val * 65536) ∧ (s.abortTask n).rbit (regEVT_PEND 0) 3 = true := by
  unfold State.abortTask
  rw [h]
  exact ⟨State.raiseEvent_payload _ 3 _ (by decide), State.raiseEvent_pend_self _ 3 _ (by decide)⟩

theorem State.courseReset_spec :
    (s.courseReset n k).course n = { (s.course n).resetAt k with task := none } ∧
    (∀ m, m ≠ n → (s.courseReset n k).course m = s.course m) ∧
    ∀ t, (s.course n).task = some t → (s.courseReset n k).reg (regEVT_PAYLOAD 3) = BitVec.ofNat 32 (t.tag + n.val * 65536) ∧
      (s.courseReset n k).rbit (regEVT_PEND 0) 3 = true := by
  obtain ⟨ls, e⟩ := s.retireTaps_fold n ((s.course n).frame + ·) (fun i => if i = 0 ∧ (s.course n).phase = .fore then (s.course n).tapCur else [])
    (List.range (k - (s.course n).frame))
  have hreset : s.courseReset n k = ((({ s with lines := ls } : State).abortTask n).modCourse n (Course.resetAt · k)).clearBound n := by
    rw [← e]
    rfl
  rw [hreset]
  obtain ⟨hself, hother⟩ := State.abortTask_courses { s with lines := ls } n
  refine ⟨?_, fun m hm => ?_, fun t ht => State.abortTask_event { s with lines := ls } n ht⟩
  · refine (State.course_modCourse_self (({ s with lines := ls } : State).abortTask n) n (Course.resetAt · k)).trans ?_
    rw [hself]
    rfl
  · exact (State.course_modCourse_ne (({ s with lines := ls } : State).abortTask n) (Course.resetAt · k) hm).trans (hother m hm)

theorem State.courseTick_ne {m : CourseId} (h : m ≠ n) : (s.courseTick n k).course m = s.course m := by
  rw [State.courseTick_eq]
  split
  · exact (((s.tickRun n k).courseReset_spec n k).2.1 m h).trans (s.course_tickRun_ne n k h)
  · exact s.course_tickRun_ne n k h

end

/-! ## The phases of a Course at the tick -/

section
variable {c : Course} {halt finish : Bool} {k : Nat}

theorem Course.stopped_of_runs (h1 : c.phase ≠ .halted) (h2 : c.phase ≠ .reset) : c.stopped = false := by
  rw [Course.stopped, decide_eq_false h1, decide_eq_false h2]
  rfl

theorem Course.ticked_sleep (h : c.phase = .sleep) : (c.ticked halt finish k).phase = .entry ∧ (c.ticked halt finish k).bg = c.bg := by
  simp [Course.ticked, h]

theorem Course.ticked_back (h : c.phase = .back) :
    (c.ticked halt false k).phase = .entry ∧ (c.ticked halt false k).bg = c.bg.preempt ∧
    (c.ticked halt true k).phase = .back ∧ (c.ticked halt true k).bg = c.bg := by
  simp [Course.ticked, h]

/-- A preempted or sleeping Course keeps its frame, its foreground, its memory and its task. -/
theorem Course.ticked_idle (h : c.phase = .sleep ∨ c.phase = .back) :
    (c.ticked halt finish k).frame = c.frame ∧ (c.ticked halt finish k).task.map Task.tag = c.task.map Task.tag := by
  have hs : c.stopped = false := by rcases h with h | h <;> exact Course.stopped_of_runs (by simp [h]) (by simp [h])
  have hh : c.phase ≠ .halted := by rcases h with h | h <;> simp [h]
  refine ⟨if_neg (by rw [hs]; decide), ?_⟩
  rw [show (c.ticked halt finish k).task = _ from if_neg hh, Option.map_map]
  rfl

theorem Course.ticked_fore (h : c.phase = .fore) :
    (c.ticked halt finish k).phase = .fore ∧ (c.ticked halt finish k).frame = c.frame ∧ (c.ticked halt finish k).bg = c.bg := by
  simp [Course.ticked, Course.stopped, h]

theorem Course.ticked_halted (h : c.phase = .halted) :
    (c.ticked true finish k).phase = .halted ∧ (c.ticked false finish k).phase = .entry ∧ (c.ticked halt finish k).frame = k ∧
    (c.ticked halt finish k).bg = c.bg := by
  simp [Course.ticked, Course.stopped, h]

theorem Course.ticked_reset (h : c.phase = .reset) (hr : c.reloaded = true) :
    (c.ticked true finish k).phase = .halted ∧ (c.ticked false finish k).phase = .entry ∧ (c.ticked halt finish k).frame = k := by
  simp [Course.ticked, Course.stopped, h, hr]

theorem Course.ticked_reloading (h : c.phase = .reset) (hr : c.reloaded = false) : (c.ticked halt finish k).phase = .reset := by
  simp [Course.ticked, h, hr]

theorem Course.ticked_haltDue (h1 : c.phase ≠ .halted) (h2 : c.phase ≠ .reset) : (c.ticked true finish k).haltDue = true := by
  simp [Course.ticked, Course.stopped_of_runs h1 h2]

end

section
variable (s : State) (n : CourseId) (k : Nat)

theorem State.tickFinish_back {f : Bool} (h : (s.course n).phase = .back) (hf : (s.course n).bg.mustFinish (s.amode n .bg) = f) : s.tickFinish n = f := by
  rw [State.tickFinish, h, hf]
  rfl

/-- The tick of a Course with no reset requested. -/
theorem courseTick_effect (hq : (s.course n).resetReq = false) : let c := s.course n
    let t := s.courseTick n k
    let d := t.course n
    ((c.phase = .sleep ∨ c.phase = .back) → d.frame = c.frame ∧ d.fg = c.fg ∧ d.lmem = c.lmem ∧ (d.task.map Task.tag) = (c.task.map Task.tag)) ∧
    (c.phase = .sleep → d.phase = .entry ∧ d.bg = c.bg) ∧
    (c.phase = .back → c.bg.mustFinish (s.amode n .bg) = false → d.phase = .entry ∧ d.bg = c.bg.preempt) ∧
    (c.phase = .back → c.bg.mustFinish (s.amode n .bg) = true → d.phase = .back ∧ d.bg = c.bg ∧ d.preemptDue = true) ∧
    (c.phase = .fore → d.phase = .fore ∧ d.frame = c.frame ∧ d.fg = c.fg ∧ d.bg = c.bg) ∧
    (c.phase = .halted → s.rbit (regC_CTRL n.val) 0 = true → d.phase = .halted ∧ d.frame = k) ∧
    (c.phase = .halted → s.rbit (regC_CTRL n.val) 0 = false → d.phase = .entry ∧ d.frame = k ∧ d.fg = c.fg ∧ d.bg = c.bg) ∧
    (c.phase = .reset → c.reloaded = true → d.frame = k ∧ (s.rbit (regC_CTRL n.val) 0 = false → d.phase = .entry) ∧
      (s.rbit (regC_CTRL n.val) 0 = true → d.phase = .halted)) ∧ (c.phase = .reset → c.reloaded = false → d.phase = .reset) ∧
    (c.phase ≠ .halted → c.phase ≠ .reset → s.rbit (regC_CTRL n.val) 0 = true → d.haltDue = true) ∧
    (c.frame < k → c.phase ≠ .halted → c.phase ≠ .reset → t.reg (regC_BACKLOG_CNT n.val) = satAdd (s.reg (regC_BACKLOG_CNT n.val)) 0 32 1) := by
  intro c t d
  have hd : d = c.ticked (s.rbit (regC_CTRL n.val) 0) (s.tickFinish n) k :=
    (congrArg (State.course · n) (s.courseTick_runs n k hq)).trans (s.course_tickRun n k)
  rw [hd]
  refine ⟨fun h => ?_, Course.ticked_sleep, fun h hf => ?_, fun h hf => ?_, fun h => ?_, fun h hh => ?_, fun h hh => ?_, fun h hr => ?_,
    Course.ticked_reloading, fun h1 h2 hh => ?_, fun hf h1 h2 => ?_⟩
  · obtain ⟨h1, h2⟩ := Course.ticked_idle (halt := s.rbit (regC_CTRL n.val) 0) (finish := s.tickFinish n) (k := k) h
    exact ⟨h1, rfl, rfl, h2⟩
  · rw [s.tickFinish_back n h hf]
    obtain ⟨h1, h2, -, -⟩ := Course.ticked_back (halt := s.rbit (regC_CTRL n.val) 0) (k := k) h
    exact ⟨h1, h2⟩
  · rw [s.tickFinish_back n h hf]
    obtain ⟨-, -, h1, h2⟩ := Course.ticked_back (halt := s.rbit (regC_CTRL n.val) 0) (k := k) h
    exact ⟨h1, h2, rfl⟩
  · obtain ⟨h1, h2, h3⟩ := Course.ticked_fore (halt := s.rbit (regC_CTRL n.val) 0) (finish := s.tickFinish n) (k := k) h
    exact ⟨h1, h2, rfl, h3⟩
  · rw [hh]
    obtain ⟨h1, -, h2, -⟩ := Course.ticked_halted (halt := true) (finish := s.tickFinish n) (k := k) h
    exact ⟨h1, h2⟩
  · rw [hh]
    obtain ⟨-, h1, h2, h3⟩ := Course.ticked_halted (halt := false) (finish := s.tickFinish n) (k := k) h
    exact ⟨h1, h2, rfl, h3⟩
  · obtain ⟨h1, h2, h3⟩ := Course.ticked_reset (halt := s.rbit (regC_CTRL n.val) 0) (finish := s.tickFinish n) (k := k) h hr
    exact ⟨h3, fun hh => by rw [hh]; exact h2, fun hh => by rw [hh]; exact h1⟩
  · rw [hh]
    exact Course.ticked_haltDue h1 h2
  · show (s.courseTick n k).reg _ = _
    rw [s.courseTick_runs n k hq]
    exact s.tickCounts_backlog n k hf (Course.stopped_of_runs h1 h2)

/-- The tick that carries out a requested reset (R72). -/
theorem courseTick_reset_effect (hq : (s.course n).resetReq = true) : let c := s.course n
    let t := s.courseTick n k
    let d := t.course n
    d.phase = .reset ∧ d.resetReq = false ∧ d.reloaded = false ∧ d.bg = Ctx.reset ∧ d.task = none ∧ d.frame = k ∧
      d.feedOut = [] ∧ d.feedFrame = none ∧ d.pmem = c.pmem ∧ d.lmem = c.lmem ∧ d.fg.d = c.fg.d ∧
      (∀ w, c.task = some w → t.reg (regEVT_PAYLOAD 3) = BitVec.ofNat 32 (w.tag + n.val * 65536) ∧ t.rbit (regEVT_PEND 0) 3 = true) := by
  intro c t d
  obtain ⟨hself, -, hevent⟩ := (s.tickRun n k).courseReset_spec n k
  rw [s.course_tickRun n k] at hself hevent
  have hd : d = { (c.ticked (s.rbit (regC_CTRL n.val) 0) (s.tickFinish n) k).resetAt k with task := none } :=
    (congrArg (State.course · n) (s.courseTick_resets n k hq)).trans hself
  rw [hd]
  refine ⟨rfl, rfl, rfl, rfl, rfl, rfl, rfl, rfl, rfl, rfl, rfl, fun w hw => ?_⟩
  obtain ⟨w', hw', htag⟩ : ∃ w', (c.ticked (s.rbit (regC_CTRL n.val) 0) (s.tickFinish n) k).task = some w' ∧ w'.tag = w.tag := by
    unfold Course.ticked
    dsimp only
    rw [hw]
    split
    · exact ⟨w, rfl, rfl⟩
    · exact ⟨_, rfl, rfl⟩
  obtain ⟨h1, h2⟩ := hevent w' hw'
  rw [htag] at h1
  show (s.courseTick n k).reg _ = _ ∧ (s.courseTick n k).rbit _ _ = _
  rw [s.courseTick_resets n k hq]
  exact ⟨h1, h2⟩

end

/-! ## The tick of the module (R22, R36) -/

section
variable (s : State)

/-- A snapshot that the last tick took is dropped, or stored with its event (R372 to R374). -/
theorem State.snapDone_cases : s.snapDone = s ∨ s.snapDone = s.snapCleared.count regSNAP_DROP_CNT 1 ∨
    ∃ causes w, s.snapDone = (s.snapStored causes w).raiseEvent 7 (nthD w 0 0) := by
  have hexec : exec .snapshotTake s = .next s.snapDone := rfl
  rcases h : s.snap.held with _ | ⟨causes, w⟩
  · exact .inl (Host.Outcome.next.inj (hexec.symm.trans (exec_snapshotTake_idle s h)))
  · by_cases hkeep : s.rbit regSNAP_STATUS 31 = false ∨ s.rbit regSNAP_CTRL 5 = false
    · exact .inr (.inr ⟨causes, w, Host.Outcome.next.inj (hexec.symm.trans (exec_snapshotTake_stores s h hkeep))⟩)
    · obtain ⟨h1, h2⟩ := not_or.1 hkeep
      exact .inr (.inl (Host.Outcome.next.inj (hexec.symm.trans
        (exec_snapshotTake_drops s h (Bool.eq_true_of_not_eq_false h1) (Bool.eq_true_of_not_eq_false h2)))))

theorem State.snapDone_frame : ∃ r k q p, s.snapDone = { s with regs := r, tokens := k, seq := q, snap := p } := by
  rcases s.snapDone_cases with e | e | ⟨causes, w, e⟩
  · exact ⟨s.regs, s.tokens, s.seq, s.snap, e⟩
  · exact ⟨_, s.tokens, s.seq, _, e⟩
  · rw [State.raiseEvent_frame, s.snapStored_frame causes w] at e
    exact ⟨_, _, _, _, e⟩

theorem State.snapStored_reg_below (causes : Nat) (w : List Word) {a : Nat} (ha : a < 0x130000) : (s.snapStored causes w).reg a = s.reg a := by
  have hne : a ≠ regSNAP_STATUS := by simp only [regSNAP_STATUS]; omega
  have hw : (s.snapWritten causes w).reg a = s.reg a := by
    rw [State.snapWritten, State.reg_setRbit_ne _ _ _ _ hne, State.reg_setRfld_ne _ _ _ _ _ _ hne]
    exact s.snapCleared.snapStoreFrom_reg_lt 0 w (by simp only [regSNAP_D]; omega)
  unfold State.snapStored
  split
  · exact (State.reg_setRbit_ne _ _ _ _ hne).trans hw
  · exact hw

theorem State.snapDone_reg_below {a : Nat} (ha : a < 0x130000) (he : a / 0x10000 ≠ 4) : s.snapDone.reg a = s.reg a := by
  rcases s.snapDone_cases with e | e | ⟨causes, w, e⟩
  · rw [e]
  · rw [e]
    exact State.reg_setReg_ne _ _ (by simp only [regSNAP_DROP_CNT]; omega)
  · rw [e, State.raiseEvent_reg_block _ _ _ _ (by decide) he, s.snapStored_reg_below causes w ha]

/-- The state whose frame ends: a waiting snapshot is stored, and its triggers are taken. -/
def State.tickStart : State := { s.snapDone with snap := { pend := 0, held := none } }

theorem State.tickStart_overran : s.tickStart.matrixOverran = s.matrixOverran := by
  obtain ⟨r, k, q, p, e⟩ := s.snapDone_frame
  have hmode : s.tickStart.reg regGLOBAL_MODE = s.reg regGLOBAL_MODE := s.snapDone_reg_below (by decide) (by decide)
  have hgate : s.tickStart.reg regCLK_GATE_SLEEP = s.reg regCLK_GATE_SLEEP := s.snapDone_reg_below (by decide) (by decide)
  have hrest : s.tickStart.sup = s.sup ∧ s.tickStart.matFrame = s.matFrame ∧ s.tickStart.fc = s.fc := by
    rw [State.tickStart, e]
    exact ⟨rfl, rfl, rfl⟩
  obtain ⟨hsup, hmat, hfc⟩ := hrest
  unfold State.matrixOverran State.gatedOff State.asleep State.rfld State.rbit State.now
  rw [hmode, hgate, hsup, hmat, hfc]

/-- The state behind the work of the frame that ends. -/
def State.tickWorked : State := s.tickStart.fixedLate.2.endFrame.lateWork s.tickStart.fixedLate.1

/-- The state behind the beginning of the new frame. -/
def State.tickBegun : State := ({ s.tickWorked with fc := s.tickWorked.fc + 1 } : State).restart.beginFrame

/-- A fixed block has overrun the frame that ends (R36). -/
def State.tickOverran : Bool := s.tickStart.matrixOverran || s.tickStart.fixedLate.1.1 || s.tickStart.fixedLate.1.2

/-- The state behind the tick, with the overrun of a fixed block raised. -/
def State.tickRaised : State := if s.tickOverran then s.tickBegun.faultOccurs 40 else s.tickBegun

theorem exec_frameTick (h : s.ticking = true) : exec .frameTick s = .next (s.tickRaised.snapTick s.snap.pend) :=
  congrArg Host.Outcome.next (if_pos h)

theorem exec_frameTick_before (h : s.ticking = false) : exec .frameTick s = .next s :=
  congrArg Host.Outcome.next (if_neg (by rw [h]; decide))

theorem State.tickWorked_kept : Kept .work s s.tickWorked := by
  have h0 : Kept .work s s.tickStart := by
    unfold State.tickStart
    exact Kept.of_core (Kept.snapDone (.refl s))
  unfold State.tickWorked
  generalize s.tickStart = u at h0
  exact Kept.lateWork (Kept.endFrame (Kept.fixedLate h0))

theorem State.tickEnd_kept (p : Nat) : Kept .work { s.tickWorked with fc := s.tickWorked.fc + 1 } (s.tickRaised.snapTick p) := by
  have hb : Kept .work { s.tickWorked with fc := s.tickWorked.fc + 1 } s.tickBegun := Kept.beginFrame (Kept.restart (.refl _))
  refine Kept.snapTick ?_
  unfold State.tickRaised
  generalize s.tickBegun = u at hb ⊢
  exact Kept.ite (Kept.faultOccurs hb) hb

/-- The tick of the module once frames run: FC, and what it leaves alone (R22). -/
theorem State.frameTick_still (p : Nat) : let t := s.tickRaised.snapTick p
    t.fc = s.fc + 1 ∧ t.ticking = s.ticking ∧ t.pending = s.pending ∧ t.dram = s.dram ∧ t.scratch = s.scratch ∧ t.flash = s.flash := by
  have hw := s.tickWorked_kept
  have he := s.tickEnd_kept p
  have hs1 := hw.still rfl
  have hs2 := he.still rfl
  have hp1 := hw.pending
  have hp2 := he.pending
  generalize s.tickWorked = w at *
  generalize s.tickRaised.snapTick p = t at *
  injection hs1 with fc1 tick1 _ _ scr1 dram1 flash1
  injection hs2 with fc2 tick2 _ _ scr2 dram2 flash2
  exact ⟨fc2.trans (congrArg (· + 1) fc1), tick2.trans tick1, hp2.trans hp1, dram2.trans dram1, scr2.trans scr1, flash2.trans flash1⟩

theorem State.frameTick_overran (p : Nat) (h : s.matrixOverran = true) : (s.tickRaised.snapTick p).faultLatched 40 = true := by
  have hover : s.tickOverran = true := by
    rw [State.tickOverran, State.tickStart_overran, h]
    rfl
  rw [State.faultLatched, State.rbit, State.snapTick_reg, State.tickRaised, hover]
  exact (State.faultOccurs_latch s.tickBegun 40 40 (by decide)).trans (Bool.or_true _)

end

/-- Settles O19: a tick is the work of the frame that ends and the beginning of the new one, and each keeps the counter, the memories and the waiting commands. -/
theorem frameTick : Obligations.FrameTick := by
  unfold Obligations.FrameTick
  refine ⟨fun s => ⟨fun ht => ?_, exec_frameTick_before s⟩, fun s n k => ?_, fun s n => ?_⟩
  · obtain ⟨hfc, htick, hpend, hdram, hscr, hflash⟩ := s.frameTick_still s.snap.pend
    refine ⟨_, exec_frameTick s ht, hfc, htick.trans ht, hpend, hdram, hscr, hflash, fun hg hm => s.frameTick_overran _ ?_⟩
    rw [State.matrixOverran, hg, decide_eq_true hm]
    rfl
  · exact ⟨fun m hm => s.courseTick_ne n k hm, courseTick_effect s n k, courseTick_reset_effect s n k⟩
  · exact ⟨s.settle_due n, s.settle_not_due n⟩

end Sys2Proof.Machine
end

section
/-! The start of the image (R309, R318 to R343): the early words, the passes of a copy, its rejection and the release of the first frame tick. -/

namespace Sys2Proof.Machine

-- One theorem after another, so that the compile of the whole text stays within its memory.
set_option Elab.async false

section
variable (s : State)

/-! ## The early words and the hold-up log (R319, R342) -/

theorem State.earlyOk_iff (b : Bool) : s.earlyOk b = true ↔ s.imgField b 0 4 = 0xB01A5448 ∧ s.imgField b 8 2 = s.rfld regGLOBAL_ID 16 16 ∧
    s.imgField b 10 1 = s.rfld regGLOBAL_ID 8 8 ∧ (crc32 (s.flashBytes (copyBase b) 252)).toNat = s.imgField b 252 4 := by
  simp only [State.earlyOk, State.imgMagic, State.imgMember, State.imgHdrCrc, Bool.and_eq_true, decide_eq_true_eq, and_assoc]

/-- The state with the early words of a copy. -/
def State.earlyFrom (b : Bool) : State := { s with earlyDiv := BitVec.ofNat 32 (s.imgField b 32 4), earlySsc := BitVec.ofNat 32 (s.imgField b 36 4) }

theorem exec_earlyHeaderRead (h1 : s.supState = 1) (h2 : s.bootStage = 1) :
    exec .earlyHeaderRead s = .next (if s.flashOn && s.earlyOk false then s.earlyFrom false else if s.flashOn && s.earlyOk true then s.earlyFrom true
      else { s with earlyDiv := regReset regCLK_DIV, earlySsc := regReset regCLK_SSC }) :=
  congrArg Host.Outcome.next (if_pos ⟨h1, h2⟩)

theorem exec_earlyHeaderRead_idle (h : s.supState ≠ 1 ∨ s.bootStage ≠ 1) : exec .earlyHeaderRead s = .next s :=
  congrArg Host.Outcome.next (if_neg (not_and_or.2 h))

/-- The newer of two slots of the log; the first of equal ones. -/
def State.logNewer (b : Option Nat) (k : Nat) : Option Nat :=
  match b with
  | none => some k
  | some j => if s.logSeq j < s.logSeq k then some k else some j

theorem State.logNewer_fold (l : List Nat) (j : Nat) :
    ∃ m, l.foldl s.logNewer (some j) = some m ∧ (m = j ∨ m ∈ l) ∧ s.logSeq j ≤ s.logSeq m ∧ ∀ k ∈ l, s.logSeq k ≤ s.logSeq m := by
  induction l generalizing j with
  | nil => exact ⟨j, rfl, .inl rfl, Nat.le_refl _, fun _ h => absurd h List.not_mem_nil⟩
  | cons a l ih =>
    by_cases h : s.logSeq j < s.logSeq a
    · obtain ⟨m, e, hm, hj, hall⟩ := ih a
      refine ⟨m, ?_, .inr ?_, by omega, fun k hk => ?_⟩
      · rw [List.foldl_cons, State.logNewer, if_pos h, e]
      · rcases hm with rfl | hm
        · exact List.mem_cons_self
        · exact List.mem_cons_of_mem _ hm
      · rcases List.mem_cons.1 hk with rfl | hk
        · exact hj
        · exact hall k hk
    · obtain ⟨m, e, hm, hj, hall⟩ := ih j
      refine ⟨m, ?_, hm.imp_right (List.mem_cons_of_mem _), hj, fun k hk => ?_⟩
      · rw [List.foldl_cons, State.logNewer, if_neg h, e]
      · rcases List.mem_cons.1 hk with rfl | hk
        · omega
        · exact hall k hk

/-- The word that BOOT.LOG shows for its newest slot (R342). -/
def logShown : Option Nat → Word
  | none => 0
  | some k => BitVec.ofNat 32 (0x80000000 + k * 65536 + (k + 1) % 16384)

theorem State.logScan_eq : s.logScan = logShown ((s.logSlots.filter s.logValid).foldl s.logNewer none) := by
  unfold State.logScan logShown
  rfl

theorem State.logScan_none (h : ∀ k ∈ s.logSlots, s.logValid k = false) : s.logScan = 0 := by
  have hnil : s.logSlots.filter s.logValid = [] := List.filter_eq_nil_iff.2 fun k hk => by
    rw [h k hk]
    exact Bool.false_ne_true
  rw [State.logScan_eq, hnil]
  rfl

/-- A valid slot gives way to the newest one only. -/
theorem State.logScan_newest {k : Nat} (hk : k ∈ s.logSlots) (hv : s.logValid k = true) : ∃ j ∈ s.logSlots, s.logValid j = true ∧
    s.logSeq k ≤ s.logSeq j ∧ s.logScan = BitVec.ofNat 32 (0x80000000 + j * 65536 + (j + 1) % 16384) := by
  rw [State.logScan_eq]
  have hmem : k ∈ s.logSlots.filter s.logValid := List.mem_filter.2 ⟨hk, hv⟩
  rcases hl : s.logSlots.filter s.logValid with _ | ⟨a, l⟩
  · rw [hl] at hmem
    exact absurd hmem List.not_mem_nil
  · obtain ⟨m, e, hm, hj, hall⟩ := s.logNewer_fold l a
    have hin : m ∈ s.logSlots.filter s.logValid := by
      rw [hl]
      exact List.mem_cons.2 hm
    obtain ⟨h1, h2⟩ := List.mem_filter.1 hin
    refine ⟨m, h1, h2, ?_, congrArg logShown e⟩
    rw [hl] at hmem
    rcases List.mem_cons.1 hmem with rfl | hk
    · exact hj
    · exact hall k hk

/-- The first pass of copy A begins with the log position known (R325, R342). -/
def State.passFirst : State :=
  { ((s.setReg regBOOT_LOG s.logScan).setStage 2).putRbit regBOOT_STATUS 27 false with flashPart := true, loading := false }

theorem exec_dramTrainingComplete_answers (h1 : s.supState = 3) (h2 : s.bootStage = 1) (hf : s.flashOn = true) :
    exec (.dramTrainingComplete true) s = .next s.passFirst :=
  congrArg Host.Outcome.next ((if_pos ⟨h1, h2⟩).trans (if_pos (by rw [hf]; rfl)))

theorem exec_dramTrainingComplete_silent {sfdp : Bool} (h1 : s.supState = 3) (h2 : s.bootStage = 1) (hf : sfdp = false ∨ s.flashOn = false) :
    exec (.dramTrainingComplete sfdp) s = .next (({ s with flashPart := false } : State).setStage 9) :=
  congrArg Host.Outcome.next ((if_pos ⟨h1, h2⟩).trans (if_neg (by rcases hf with h | h <;> simp [h])))

theorem exec_dramTrainingComplete_idle {sfdp : Bool} (h : s.supState ≠ 3 ∨ s.bootStage ≠ 1) : exec (.dramTrainingComplete sfdp) s = .next s :=
  congrArg Host.Outcome.next (if_neg (not_and_or.2 h))

theorem State.setStage_stage (n : Nat) (h : n < 16) : (s.setStage n).bootStage = n :=
  (s.rfld_setRfld_self _ 28 4 n (by decide)).trans (Nat.mod_eq_of_lt h)

theorem State.setStage_rbit (n i : Nat) (h : i < 28) : (s.setStage n).rbit regBOOT_STATUS i = s.rbit regBOOT_STATUS i := by
  rw [State.setStage, State.rbit_setRfld _ _ _ _ _ _ _ (by decide), if_neg (by omega)]

theorem State.passFirst_spec : s.passFirst.bootStage = 2 ∧ s.passFirst.bootCopy = false ∧ s.passFirst.flashPart = true ∧
    s.passFirst.reg regBOOT_LOG = s.logScan := by
  have hstage : ((s.setReg regBOOT_LOG s.logScan).setStage 2).bootStage = 2 := State.setStage_stage _ 2 (by decide)
  have hlog : ((s.setReg regBOOT_LOG s.logScan).setStage 2).reg regBOOT_LOG = s.logScan :=
    (State.reg_setRfld_ne _ _ _ _ _ _ (by decide)).trans (State.reg_setReg_self _ _ _)
  unfold State.passFirst
  generalize (s.setReg regBOOT_LOG s.logScan).setStage 2 = u at hstage hlog
  have hreg (a : Nat) : State.reg { u.putRbit regBOOT_STATUS 27 false with flashPart := true, loading := false } a =
      (u.putRbit regBOOT_STATUS 27 false).reg a := rfl
  refine ⟨?_, ?_, rfl, ?_⟩
  · rw [State.bootStage, State.rfld, hreg]
    exact (u.rfld_putRbit _ 27 _ 28 4 false (by decide) (.inr (.inl (by decide)))).trans hstage
  · rw [State.bootCopy, State.rbit, hreg]
    exact State.rbit_put_self regBOOT_STATUS 27 false (by decide)
  · rw [hreg, State.reg_putRbit_ne _ _ _ _ _ (by decide), hlog]

/-! ## The rejection of a copy (R326, R327, R343) -/

/-- The sequencer has turned from copy `b` to copy B, or to NOIMAGE. -/
def Turned (b : Bool) (t : State) : Prop := (b = false → t.bootStage = 2 ∧ t.bootCopy = true) ∧
  (b = true → t.bootStage = 7 ∧ t.rbit (regFAULT_CAUSE 0) 6 = true ∧ t.rbit regPAIR_STATUS 30 = false)

theorem State.causeBegins_reg_other (src a : Nat) (hs : src < 256) (h3 : a / 0x10000 ≠ 3) (h4 : a / 0x10000 ≠ 4) : (s.causeBegins src).reg a = s.reg a :=
  OnlyBlocks.causeBegins (bs := [3, 4]) (by decide) (by decide) hs (.refl _ s) a (by simp [h3, h4])

theorem State.faultOccurs_reg_other (src a : Nat) (hs : src < 256) (h3 : a / 0x10000 ≠ 3) (h4 : a / 0x10000 ≠ 4) : (s.faultOccurs src).reg a = s.reg a := by
  refine s.faultOccurs_reg src a hs h3 ?_ ?_ ?_ ?_ <;> simp only [regEVT_PEND, regEVT_PAYLOAD, regEVT_LOST_CNT, regEVT_STATUS] <;> omega

theorem State.noImage_spec : s.noImage.bootStage = 7 ∧ s.noImage.rbit (regFAULT_CAUSE 0) 6 = true ∧ s.noImage.rbit regPAIR_STATUS 30 = false ∧
    (∀ f, f < 256 → s.faultLatched f = true → s.noImage.faultLatched f = true) := by
  have hreg (a : Nat) (h3 : a / 0x10000 ≠ 3) (h4 : a / 0x10000 ≠ 4) : s.noImage.reg a = ((s.setStage 7).putRbit regPAIR_STATUS 30 false).reg a :=
    State.causeBegins_reg_other _ 6 a (by decide) h3 h4
  refine ⟨?_, ?_, ?_, fun f hf hl => ?_⟩
  · rw [State.bootStage, State.rfld, hreg _ (by decide) (by decide)]
    exact (State.rfld_putRbit (s.setStage 7) _ 30 _ 28 4 false (by decide) (.inl (by decide))).trans (s.setStage_stage 7 (by decide))
  · exact (State.causeBegins_cause _ 6 6 (by decide) (by decide)).trans (by simp)
  · rw [State.rbit, hreg _ (by decide) (by decide)]
    exact State.rbit_put_self regPAIR_STATUS 30 false (by decide)
  · have hkeep : ((s.setStage 7).putRbit regPAIR_STATUS 30 false).faultLatched f = true := by
      rw [State.faultLatched, State.rbit, State.reg_putRbit_ne _ _ _ _ _ (by simp only [regFAULT_LATCH, regPAIR_STATUS]; omega), State.setStage,
        State.reg_setRfld_ne _ _ _ _ _ _ (by simp only [regFAULT_LATCH, regBOOT_STATUS]; omega)]
      exact hl
    refine (State.causeBegins_latch _ 6 f hf).trans ?_
    rw [hkeep, Bool.true_or]

theorem State.noImage_reg_other {a : Nat} (h3 : a / 0x10000 ≠ 3) (h4 : a / 0x10000 ≠ 4) (h1 : a ≠ regBOOT_STATUS) (h2 : a ≠ regPAIR_STATUS) :
    s.noImage.reg a = s.reg a :=
  (State.causeBegins_reg_other _ 6 a (by decide) h3 h4).trans ((State.reg_putRbit_ne _ _ _ _ _ h2).trans (State.reg_setRfld_ne _ _ _ _ _ _ h1))

/-- Copy B is turned to (R326). -/
def State.secondCopy : State := (s.setRbit regBOOT_STATUS 27).setStage 2

theorem State.secondCopy_spec : s.secondCopy.bootStage = 2 ∧ s.secondCopy.bootCopy = true ∧ ∀ a, a ≠ regBOOT_STATUS → s.secondCopy.reg a = s.reg a := by
  refine ⟨State.setStage_stage _ 2 (by decide), ?_, fun a ha => ?_⟩
  · refine ((s.setRbit regBOOT_STATUS 27).setStage_rbit 2 27 (by decide)).trans ?_
    rw [State.rbit_setRbit _ _ _ _ _ (by decide)]
    simp
  · exact (State.reg_setRfld_ne _ _ _ _ _ _ ha).trans (State.reg_setRbit_ne _ _ _ _ ha)

theorem State.nextCopy_second (h : s.bootCopy = false) : s.nextCopy = s.secondCopy := if_neg (by rw [h]; decide)

theorem State.nextCopy_none (h : s.bootCopy = true) : s.nextCopy = s.noImage := if_pos h

theorem State.nextCopy_turned : Turned s.bootCopy s.nextCopy := by
  refine ⟨fun h => ?_, fun h => ?_⟩
  · obtain ⟨h1, h2, -⟩ := s.secondCopy_spec
    rw [s.nextCopy_second h]
    exact ⟨h1, h2⟩
  · obtain ⟨h1, h2, h3, -⟩ := s.noImage_spec
    rw [s.nextCopy_none h]
    exact ⟨h1, h2, h3⟩

theorem State.nextCopy_latch {f : Nat} (hf : f < 256) (hl : s.faultLatched f = true) : s.nextCopy.faultLatched f = true := by
  rcases Bool.eq_false_or_eq_true s.bootCopy with h | h
  · obtain ⟨-, -, -, hkeep⟩ := s.noImage_spec
    rw [s.nextCopy_none h]
    exact hkeep f hf hl
  · obtain ⟨-, -, hkeep⟩ := s.secondCopy_spec
    rw [s.nextCopy_second h, State.faultLatched, State.rbit, hkeep _ (by simp only [regFAULT_LATCH, regBOOT_STATUS]; omega)]
    exact hl

theorem State.nextCopy_reg_other {a : Nat} (h3 : a / 0x10000 ≠ 3) (h4 : a / 0x10000 ≠ 4) (h1 : a ≠ regBOOT_STATUS) (h2 : a ≠ regPAIR_STATUS) :
    s.nextCopy.reg a = s.reg a := by
  rcases Bool.eq_false_or_eq_true s.bootCopy with h | h
  · rw [s.nextCopy_none h]
    exact s.noImage_reg_other h3 h4 h1 h2
  · obtain ⟨-, -, hkeep⟩ := s.secondCopy_spec
    rw [s.nextCopy_second h]
    exact hkeep a h1

/-- Copy `b` of `s` is rejected with a reason: BOOT.REJECT, source 5, and what follows before and after the start of PASS2 (R326, R327). -/
def Rejected (s : State) (b : Bool) (code : Nat) (t : State) : Prop :=
  t.rfld regBOOT_REJECT (if b then 8 else 0) 8 = code ∧ t.faultLatched 5 = true ∧
    (s.loading = true → t.resetDue = true ∧ t.bootStage = s.bootStage) ∧ (s.loading = false → Turned b t)

/-- The reason is shown and source 5 is raised. -/
def State.rejectShown (code : Nat) : State := (s.setRfld regBOOT_REJECT (if s.bootCopy then 8 else 0) 8 code).faultOccurs 5

theorem State.rejectShown_spec {code : Nat} (hc : code < 256) :
    (s.rejectShown code).rfld regBOOT_REJECT (if s.bootCopy then 8 else 0) 8 = code ∧ (s.rejectShown code).faultLatched 5 = true ∧
    (s.rejectShown code).reg regBOOT_STATUS = s.reg regBOOT_STATUS := by
  have hlo : (if s.bootCopy then 8 else 0) + 8 ≤ 32 := by split <;> decide
  refine ⟨?_, ?_, ?_⟩
  · rw [State.rfld, State.rejectShown, State.faultOccurs_reg_other _ 5 _ (by decide) (by decide) (by decide)]
    exact (s.rfld_setRfld_self _ _ 8 code hlo).trans (Nat.mod_eq_of_lt hc)
  · exact (State.faultOccurs_latch _ 5 5 (by decide)).trans (by simp)
  · exact (State.faultOccurs_reg_other _ 5 _ (by decide) (by decide) (by decide)).trans (State.reg_setRfld_ne _ _ _ _ _ _ (by decide))

theorem State.copyReject_eq (code : Nat) :
    s.copyReject code = if s.loading then { s.rejectShown code with resetDue := true } else (s.rejectShown code).nextCopy := rfl

theorem State.copyReject_rejected {code : Nat} (hc : code < 256) : Rejected s s.bootCopy code (s.copyReject code) := by
  obtain ⟨hcode, hlatch, hstat⟩ := s.rejectShown_spec hc
  have hcopy : (s.rejectShown code).bootCopy = s.bootCopy := by rw [State.bootCopy, State.rbit, hstat]; rfl
  rw [State.copyReject_eq]
  generalize s.rejectShown code = v at *
  rcases Bool.eq_false_or_eq_true s.loading with hl | hl
  · rw [hl, if_pos rfl]
    refine ⟨hcode, hlatch, fun _ => ⟨rfl, ?_⟩, fun h => absurd (hl.symm.trans h) (by decide)⟩
    show v.bootStage = _
    rw [State.bootStage, State.rfld, hstat]
    rfl
  · rw [hl, if_neg (by decide)]
    refine ⟨?_, v.nextCopy_latch (by decide) hlatch, fun h => absurd (hl.symm.trans h) (by decide), fun _ => ?_⟩
    · rw [State.rfld, v.nextCopy_reg_other (by decide) (by decide) (by decide) (by decide)]
      exact hcode
    · rw [← hcopy]
      exact v.nextCopy_turned

/-! ## The passes (R325) -/

section
variable {ok : Bool}

theorem exec_pass1Complete (h1 : s.bootStage = 2) (h2 : s.resetDue = false) : exec (.pass1Complete ok) s =
    .next (match s.pass1Reject s.bootCopy ok with | some c => s.copyReject c | none => s.setStage 3) :=
  congrArg Host.Outcome.next (if_pos ⟨h1, by rw [h2]; rfl⟩)

/-- A copy of PASS1 is rejected with the first reason (R343). -/
theorem exec_pass1Complete_rejects (h1 : s.bootStage = 2) (h2 : s.resetDue = false) {code : Nat} (hc : code < 256)
    (hr : s.pass1Reject s.bootCopy ok = some code) : ∃ t, exec (.pass1Complete ok) s = .next t ∧ Rejected s s.bootCopy code t := by
  refine ⟨s.copyReject code, ?_, s.copyReject_rejected hc⟩
  rw [exec_pass1Complete s h1 h2, hr]

theorem State.pass1Reject_unread {b : Bool} (h : ¬ (ok = true ∧ s.flashOn = true)) : s.pass1Reject b ok = some 11 := by
  refine if_pos ?_
  rw [Bool.or_eq_true, Bool.not_eq_true', Bool.not_eq_true', ← Bool.not_eq_true, ← Bool.not_eq_true]
  exact not_and_or.1 h

/-- The reason with which PASS1 rejects a copy that it could read (R343). -/
theorem State.pass1Reject_read {b : Bool} (h : ok = true ∧ s.flashOn = true) : s.pass1Reject b ok =
    if !s.imgHeader b then some 1 else if !(s.imgMember b && s.imgIssue b) then some 2 else if copyArea b < s.imgLength b then some 12
    else if !s.imgDirOk b then some 6 else none := by
  refine if_neg ?_
  rw [h.1, h.2]
  decide

end

theorem exec_verifyComplete (h : s.bootStage = 3) : exec .verifyComplete s =
    .next (if !s.keyOk s.bootCopy then s.copyReject 3 else if !s.sigOk s.bootCopy then s.copyReject 4 else { s.setStage 4 with loading := true }) :=
  congrArg Host.Outcome.next (if_pos h)

theorem exec_pass2Complete {ok : Bool} (h1 : s.bootStage = 4) (h2 : s.resetDue = false) : exec (.pass2Complete ok) s =
    .next (if !ok || !s.flashOn then s.copyReject 11
      else match s.loadImage s.bootCopy with | (t, some c) => t.copyReject c | (t, none) => t.setStage 5) :=
  congrArg Host.Outcome.next (if_pos ⟨h1, by rw [h2]; rfl⟩)

theorem exec_checksComplete (h1 : s.bootStage = 5) (h2 : s.resetDue = false) : exec .checksComplete s =
    .next (match s.checksReject s.bootCopy with | some c => s.copyReject c | none => s.firstTick) :=
  congrArg Host.Outcome.next (if_pos ⟨h1, by rw [h2]; rfl⟩)

theorem exec_checksComplete_rejects (h1 : s.bootStage = 5) (h2 : s.resetDue = false) {code : Nat} (hc : code < 256)
    (hr : s.checksReject s.bootCopy = some code) : ∃ t, exec .checksComplete s = .next t ∧ Rejected s s.bootCopy code t := by
  refine ⟨s.copyReject code, ?_, s.copyReject_rejected hc⟩
  rw [exec_checksComplete s h1 h2, hr]

/-- The effect of VERIFY_COMPLETE (R323, R324). -/
theorem verifyComplete_effect (h : s.bootStage = 3) :
    (s.keyOk s.bootCopy = false → ∃ t, exec .verifyComplete s = .next t ∧ Rejected s s.bootCopy 3 t) ∧
    (s.keyOk s.bootCopy = true → s.sigOk s.bootCopy = false → ∃ t, exec .verifyComplete s = .next t ∧ Rejected s s.bootCopy 4 t) ∧
    (s.keyOk s.bootCopy = true → s.sigOk s.bootCopy = true → exec .verifyComplete s = .next { s.setStage 4 with loading := true }) := by
  rw [exec_verifyComplete s h]
  refine ⟨fun hk => ?_, fun hk hs => ?_, fun hk hs => ?_⟩
  · rw [hk]
    exact ⟨_, rfl, s.copyReject_rejected (by decide)⟩
  · rw [hk, hs]
    exact ⟨_, rfl, s.copyReject_rejected (by decide)⟩
  · rw [hk, hs]
    rfl

/-- The effect of PASS1_COMPLETE (R320, R321, R325). -/
theorem pass1Complete_effect {ok : Bool} (h1 : s.bootStage = 2) (h2 : s.resetDue = false) : let b := s.bootCopy
    let out (code : Nat) : Prop := ∃ t, exec (.pass1Complete ok) s = .next t ∧ Rejected s b code t
    let readable : Prop := ok = true ∧ s.flashOn = true
    let same : Prop := s.imgMember b = true ∧ s.imgIssue b = true
    (¬ readable → out 11) ∧ (readable → s.imgHeader b = false → out 1) ∧ (readable → s.imgHeader b = true → ¬ same → out 2) ∧
    (readable → s.imgHeader b = true → same → copyArea b < s.imgLength b → out 12) ∧
    (readable → s.imgHeader b = true → same → s.imgLength b ≤ copyArea b → s.imgDirOk b = false → out 6) ∧
    (readable → s.imgHeader b = true → same → s.imgLength b ≤ copyArea b → s.imgDirOk b = true → exec (.pass1Complete ok) s = .next (s.setStage 3)) := by
  intro b out readable same
  have reject {code : Nat} (hc : code < 256) (hr : s.pass1Reject b ok = some code) : out code := exec_pass1Complete_rejects s h1 h2 hc hr
  have hsame (h : same) : (s.imgMember b && s.imgIssue b) = true := Bool.and_eq_true_iff.2 h
  refine ⟨fun hr => reject (by decide) (s.pass1Reject_unread hr), fun hr hh => reject (by decide) ?_, fun hr hh hs => reject (by decide) ?_,
    fun hr hh hs hl => reject (by decide) ?_, fun hr hh hs hl hd => reject (by decide) ?_, fun hr hh hs hl hd => ?_⟩
  · rw [s.pass1Reject_read hr, hh]
    rfl
  · have hs' : (s.imgMember b && s.imgIssue b) = false := Bool.eq_false_iff.2 fun h => hs (Bool.and_eq_true_iff.1 h)
    rw [s.pass1Reject_read hr, hh, hs']
    rfl
  · rw [s.pass1Reject_read hr, hh, hsame hs]
    exact if_pos hl
  · rw [s.pass1Reject_read hr, hh, hsame hs, hd]
    exact if_neg (Nat.not_lt.2 hl)
  · have hnone : s.pass1Reject b ok = none := by
      rw [s.pass1Reject_read hr, hh, hsame hs, hd]
      exact if_neg (Nat.not_lt.2 hl)
    rw [exec_pass1Complete s h1 h2, hnone]

/-- The effect of PASS2_COMPLETE (R325, R328). -/
theorem pass2Complete_effect {ok : Bool} (h1 : s.bootStage = 4) (h2 : s.resetDue = false) :
    ((ok = false ∨ s.flashOn = false) → ∃ t, exec (.pass2Complete ok) s = .next t ∧ Rejected s s.bootCopy 11 t) ∧
    (ok = true → s.flashOn = true → ∀ u code, s.loadImage s.bootCopy = (u, some code) → exec (.pass2Complete ok) s = .next (u.copyReject code)) ∧
    (ok = true → s.flashOn = true → ∀ u, s.loadImage s.bootCopy = (u, none) → exec (.pass2Complete ok) s = .next (u.setStage 5)) := by
  rw [exec_pass2Complete s h1 h2]
  refine ⟨fun h => ⟨_, congrArg Host.Outcome.next (if_pos ?_), s.copyReject_rejected (by decide)⟩, fun hok hf u code hl => ?_, fun hok hf u hl => ?_⟩
  · rcases h with h | h <;> simp [h]
  · rw [hok, hf, hl]
    rfl
  · rw [hok, hf, hl]
    rfl

end

/-! ## The registers that the release of the first tick leaves alone -/

/-- The blocks that start from their loaded settings: EVT, ASRC, TDM, NET, TIME, REF, PAIR and DLY. -/
abbrev startBlocks : List Nat := [4, 9, 10, 12, 13, 14, 15, 17]

namespace OnlyBlocks

variable {s t : State}

theorem configError {a : Nat} (h : OnlyBlocks startBlocks s t) : OnlyBlocks startBlocks s (t.configError a) := raiseEvent (by decide) (by decide) h

theorem delayError {kind n i : Nat} (h : OnlyBlocks startBlocks s t) : OnlyBlocks startBlocks s (t.delayError kind n i) :=
  have h1 : OnlyBlocks startBlocks s (t.setRbit regDLY_STATUS 30) := setReg (by decide) _ h
  raiseEvent (by decide) (by decide) (ite h1 (setReg (by decide) _ h1))

theorem checkLine {n l : Nat} (h : OnlyBlocks startBlocks s t) : OnlyBlocks startBlocks s (t.checkLine n l) :=
  ite (ite (delayError h) (ite (delayError h) h)) h

theorem checkTap {n j : Nat} (h : OnlyBlocks startBlocks s t) : OnlyBlocks startBlocks s (t.checkTap n j) :=
  ite (ite (delayError h) (ite (delayError h) h)) h

theorem bootEvents (h : OnlyBlocks startBlocks s t) : OnlyBlocks startBlocks s t.bootEvents :=
  foldl (fun _ _ _ h => ite h (ite (checkTap h) (checkLine h))) (foldl (fun _ _ _ h => configError h) (h.of_regs rfl))

theorem portStart {p : Fin 16} (h : OnlyBlocks startBlocks s t) : OnlyBlocks startBlocks s ((t.portFirst p).portCfgCheck p) := by
  have hp : regTDM_STAT p.val / 0x10000 ∈ startBlocks := by
    rw [show regTDM_STAT p.val / 0x10000 = 10 by simp only [regTDM_STAT]; omega]
    decide
  have h1 : OnlyBlocks startBlocks s (t.portFirst p) := h.of_regs rfl
  generalize t.portFirst p = u at h1
  exact ite (configError (setReg hp _ h1)) h1

theorem asrcMisfit {c : Nat} (h : OnlyBlocks startBlocks s t) : OnlyBlocks startBlocks s (t.asrcMisfit c) := configError (setReg (by decide) _ h)

theorem asrcChanged {c : Nat} (hc : c < 512) (h : OnlyBlocks startBlocks s t) : OnlyBlocks startBlocks s (t.asrcChanged c) := by
  have h9 : 9 ∈ startBlocks := by decide
  unfold State.asrcChanged
  extract_lets _ s1 s2
  have h_s1 : OnlyBlocks startBlocks s s1 := ite (asrcMisfit h) h
  clear_value s1
  have h_s2 : OnlyBlocks startBlocks s s2 :=
    ite (asrcFollow (by decide) h9 hc h_s1) (ite (asrcUnlocked (by decide) h9 hc h_s1) (setReg (chstat_block c hc ▸ h9) _ h_s1))
  clear_value s2
  refine foldl (fun u d hd h => ite h (asrcFollow (by decide) h9 (s2.asrcOn_lt d hd) (ite (asrcMisfit h) h))) h_s2

theorem flowFollow {d f : Nat} (h : OnlyBlocks startBlocks s t) : OnlyBlocks startBlocks s (t.flowFollow d f) := by
  have hstart : OnlyBlocks startBlocks s (t.flowStart d f) := ite (h.of_regs rfl) (h.of_regs rfl)
  have hleave (off : Bool) : OnlyBlocks startBlocks s (t.flowLeave d f off) := by
    unfold State.flowLeave
    split
    all_goals
      split
      · exact h.of_regs rfl
      · exact h
  exact ite (ite hstart h) (ite (hleave true) (ite hstart (ite (hleave false) h)))

theorem flowCheck {d : Nat} (h : OnlyBlocks startBlocks s t) : OnlyBlocks startBlocks s (t.flowCheck d) := by
  unfold State.flowCheck
  extract_lets held s1 s2
  have h1 : OnlyBlocks startBlocks s s1 := h.of_regs rfl
  clear_value s1
  have h2 : OnlyBlocks startBlocks s s2 := foldl (fun _ _ _ h => configError (setReg (by decide) _ h)) h1
  clear_value s2
  exact asrcEndpoints (by decide) (by decide) (foldl (fun _ _ _ h => flowFollow h) h2)

theorem genRequestAll (h : OnlyBlocks startBlocks s t) : OnlyBlocks startBlocks s t.genRequestAll := by
  refine foldl (fun u g hg h => ite ?_ h) h
  have hb : regREF_OUTSTAT g / 0x10000 ∈ startBlocks := by
    have hg4 : g < 4 := by
      simp only [List.mem_cons, List.not_mem_nil, or_false] at hg
      omega
    rw [show regREF_OUTSTAT g / 0x10000 = 14 by simp only [regREF_OUTSTAT]; omega]
    decide
  unfold State.genRequest
  extract_lets s1
  have h1 : OnlyBlocks startBlocks s s1 := ite h (h.of_regs rfl)
  exact ite h1 (setReg hb _ h1)

theorem setSlot {i st : Nat} (hi : i < 8) (h : OnlyBlocks startBlocks s t) : OnlyBlocks startBlocks s (t.setSlot i st) := by
  have hb : regREF_SLOTSTAT i / 0x10000 ∈ startBlocks := by
    rw [show regREF_SLOTSTAT i / 0x10000 = 14 by simp only [regREF_SLOTSTAT]; omega]
    decide
  exact setReg hb _ h

theorem blocksStart (h : OnlyBlocks startBlocks s t) : OnlyBlocks startBlocks s t.blocksStart := by
  have hon (u : State) (c : Nat) (hc : c ∈ u.asrcEnabled) : c < 512 := by
    obtain ⟨e, -, he⟩ := List.mem_filterMap.1 hc
    split at he
    next hr =>
      obtain ⟨hlo, hhi, -⟩ := hr
      obtain rfl := Option.some.inj he
      omega
    next => nomatch he
  have hslot (i : Nat) (hi : i ∈ slotIds) : i < 8 := by
    simp only [slotIds, List.mem_cons, List.not_mem_nil, or_false] at hi
    omega
  unfold State.blocksStart
  extract_lets s1 s2 s3 s4 s5
  have h_s1 : OnlyBlocks startBlocks s s1 := foldl (fun _ _ _ h => portStart h) h
  clear_value s1
  have h_s2 : OnlyBlocks startBlocks s s2 := foldl (fun _ c hc h => asrcChanged (hon s1 c hc) h) h_s1
  clear_value s2
  have h_s3 : OnlyBlocks startBlocks s s3 := flowCheck (flowCheck h_s2)
  clear_value s3
  have h_s4 : OnlyBlocks startBlocks s s4 := foldl (fun _ i hi h => ite (setSlot (hslot i hi) h) h) h_s3
  clear_value s4
  have h_s5 : OnlyBlocks startBlocks s s5 := genRequestAll h_s4
  clear_value s5
  exact ite (setReg (by decide) _ h_s5) h_s5

theorem tickErrs (h : OnlyBlocks startBlocks s t) : OnlyBlocks startBlocks s t.tickErrs := by
  refine foldl (fun u b hb h => ?_) h
  have hb4 : b < 4 := by
    simp only [List.mem_cons, List.not_mem_nil, or_false] at hb
    omega
  have hblock : regTIME_TICKERR b / 0x10000 ∈ startBlocks := by
    rw [show regTIME_TICKERR b / 0x10000 = 13 by simp only [regTIME_TICKERR]; omega]
    decide
  have hd : OnlyBlocks startBlocks s u.draw.2 := h.of_regs u.draw_regs
  exact ite (setReg hblock _ hd) h

theorem pairGo {st : Nat} (h : OnlyBlocks startBlocks s t) : OnlyBlocks startBlocks s (t.pairGo st) := fun a ha => by
  simp only [List.mem_cons, List.not_mem_nil, or_false, not_or] at ha
  obtain ⟨h4, -, -, -, -, -, h15, -⟩ := id ha
  have hne {r : Nat} (hr : r / 0x10000 = 15) : a ≠ r := fun e => h15 (e ▸ hr)
  rw [State.pairGo_reg _ _ h4 (hne (by decide)) (hne (by decide)) (hne (by decide)), State.reg_setRfld_ne _ _ _ _ _ _ (hne (by decide))]
  exact h a (by simp only [List.mem_cons, List.not_mem_nil, or_false, not_or]; exact ha)

theorem pairFirst (h : OnlyBlocks startBlocks s t) : OnlyBlocks startBlocks s t.pairFirst := by
  unfold State.pairFirst
  extract_lets v w
  have hv : OnlyBlocks startBlocks s v := h.of_regs rfl
  clear_value v
  have hw : OnlyBlocks startBlocks s w := ite hv (ite ((pairGo hv).of_regs rfl) (pairGo hv))
  clear_value w
  exact hw.of_regs rfl

theorem setMute {scope m : Nat} (h : OnlyBlocks startBlocks s t) : OnlyBlocks startBlocks s (t.setMute scope m) := h.of_regs rfl

theorem muteTick (h : OnlyBlocks startBlocks s t) : OnlyBlocks startBlocks s t.muteTick := by
  unfold State.muteTick
  extract_lets s1
  have h1 : OnlyBlocks startBlocks s s1 := setMute (foldl (fun _ _ _ h => setMute h) h)
  clear_value s1
  exact ite (h1.of_regs rfl) h1

end OnlyBlocks

/-! ## The release of the first frame tick (R331) -/

section
variable (s : State)

theorem State.latchAll_reg_other (srcs : List Nat) (hs : ∀ n ∈ srcs, n < 256) (a : Nat) (h : a / 0x10000 ≠ 3) : (srcs.foldl State.latchFault s).reg a = s.reg a := by
  induction srcs generalizing s with
  | nil => rfl
  | cons n l ih =>
    rw [List.foldl_cons, ih _ fun m hm => hs m (List.mem_cons_of_mem _ hm), State.latchFault_reg_block _ _ _ (hs n List.mem_cons_self) h]

theorem State.latchAll_latch (srcs : List Nat) (f : Nat) (h : s.faultLatched f = true) : (srcs.foldl State.latchFault s).faultLatched f = true := by
  induction srcs generalizing s with
  | nil => exact h
  | cons n l ih => exact ih _ (by rw [State.latchFault_latched, h, Bool.true_or])

/-- The sources of a tick are raised: what is outside FAULT and EVT stays, and no latch clears. -/
theorem State.raiseAll_keeps (srcs : List Nat) (hs : ∀ n ∈ srcs, n < 256) :
    (∀ a, a / 0x10000 ≠ 3 → a / 0x10000 ≠ 4 → (s.raiseAll srcs none).reg a = s.reg a) ∧
    (∀ f, f < 256 → s.faultLatched f = true → (s.raiseAll srcs none).faultLatched f = true) := by
  have hcount (u : State) (n : Nat) : (∀ a, a / 0x10000 ≠ 3 → (u.count regFAULT_COUNT n).reg a = u.reg a) ∧
      ∀ f, f < 256 → u.faultLatched f = true → (u.count regFAULT_COUNT n).faultLatched f = true := by
    refine ⟨fun a ha => State.reg_setReg_ne _ _ fun e => ha (e ▸ rfl), fun f hf h => ?_⟩
    rw [State.faultLatched, State.rbit, State.count, State.reg_setReg_ne _ _ (by simp only [regFAULT_LATCH, regFAULT_COUNT]; omega)]
    exact h
  have hrecord (u : State) (src : Nat) : (∀ a, a / 0x10000 ≠ 3 → a / 0x10000 ≠ 4 → (u.recordFault src false 0 0).reg a = u.reg a) ∧
      ∀ f, f < 256 → u.faultLatched f = true → (u.recordFault src false 0 0).faultLatched f = true := by
    refine ⟨fun a h3 h4 => ?_, fun f hf h => ?_⟩
    · exact State.recordFault_reg u src false 0 0 a h3 (fun e => h4 (e ▸ rfl)) (fun e => h4 (e ▸ rfl)) (fun e => h4 (e ▸ rfl)) fun e => h4 (e ▸ rfl)
    · rw [State.faultLatched, State.rbit, State.recordFault_latches _ _ _ _ _ _ (by simp only [regFAULT_LATCH]; omega) (by simp only [regFAULT_LATCH]; omega)]
      exact h
  have hall := s.latchAll_reg_other srcs hs
  have hlatch := s.latchAll_latch srcs
  unfold State.raiseAll
  generalize srcs.foldl State.latchFault s = u at hall hlatch
  split
  · exact ⟨fun _ _ _ => rfl, fun _ _ h => h⟩
  dsimp only
  split
  · exact ⟨fun a h3 _ => ((hcount _ _).1 a h3).trans (hall a h3), fun f hf h => (hcount _ _).2 f hf (hlatch f h)⟩
  split
  · exact ⟨fun a h3 _ => hall a h3, fun f _ h => hlatch f h⟩
  · exact ⟨fun a h3 h4 => ((hrecord _ _).1 a h3 h4).trans (((hcount _ _).1 a h3).trans (hall a h3)),
      fun f hf h => (hrecord _ _).2 f hf ((hcount _ _).2 f hf (hlatch f h))⟩

theorem State.faultTick_keeps : (∀ a, a / 0x10000 ≠ 3 → a / 0x10000 ≠ 4 → s.faultTick.reg a = s.reg a) ∧
    (∀ f, f < 256 → s.faultLatched f = true → s.faultTick.faultLatched f = true) := by
  have hfold (l : List Nat) (u : State) (a : Nat) : (l.foldl (fun (t : State) n => t.creset n) u).reg a = u.reg a := by
    induction l generalizing u with
    | nil => rfl
    | cons n l ih => rw [List.foldl_cons, ih, State.creset_reg]
  have hsrc (u : State) : ∀ n ∈ u.causesClear, n < 256 := fun n hn => List.mem_range.1 (List.mem_filter.1 hn).1
  unfold State.faultTick
  extract_lets s1 srcs
  obtain ⟨h1, h2⟩ := s1.raiseAll_keeps srcs (hsrc s1)
  refine ⟨fun a h3 h4 => (hfold _ _ a).trans (h1 a h3 h4), fun f hf h => ?_⟩
  rw [State.faultLatched, State.rbit, hfold]
  exact h2 f hf h

/-- Frames run from FC = 0 on, and no image is loaded any more. -/
def State.framesRun : State :=
  { s with ticking := true, fc := 0, loading := false, snap := { pend := 0, held := none }, sup := { s.sup with ticked := true, muxDue := none } }

/-- The state whose loaded settings come into force: RATE, SLOW, STAGE, and the released tick. -/
def State.tickReleased : State :=
  ((((s.atRate (decide (s.imgField s.bootCopy 13 1 = 1))).ridgeSlow false).setReg regBOOT_IMAGE (BitVec.ofNat 32 (s.imgField s.bootCopy 20 4))).setStage 6).framesRun

/-- The blocks have started from their loaded settings. -/
def State.tickStarted : State := s.tickReleased.ownersIn.bootEvents.blocksStart

/-- An unfused module has source 4 raised (R324). -/
def State.tickUnfused : State := if s.tickStarted.unfused then s.tickStarted.faultOccurs 4 else s.tickStarted

/-- The levels of the first frame are taken. -/
def State.tickMuted : State :=
  (if s.tickUnfused.rbit regBOOT_STATUS 24 then s.tickUnfused.raiseEvent 82 0 else s.tickUnfused).tickErrs.pairFirst.muteTick

theorem State.firstTick_eq : s.firstTick = s.tickMuted.faultTick.snapTick s.snap.pend := rfl

theorem State.tickReleased_spec : s.tickReleased.bootStage = 6 ∧ s.tickReleased.bootOwn = s.bootOwn ∧ s.tickReleased.fuseKey = s.fuseKey ∧
    s.tickReleased.fc = 0 ∧ s.tickReleased.ticking = true ∧ s.tickReleased.loading = false ∧ s.tickReleased.sup.ticked = true := by
  have hstage (u : State) : u.framesRun.bootStage = u.bootStage := rfl
  have hrest (u : State) : u.framesRun.bootOwn = u.bootOwn ∧ u.framesRun.fuseKey = u.fuseKey := ⟨rfl, rfl⟩
  refine ⟨(hstage _).trans (State.setStage_stage _ 6 (by decide)), (hrest _).1, (hrest _).2, rfl, rfl, rfl, rfl⟩

theorem State.tickStarted_kept : Kept .work s.tickReleased s.tickStarted :=
  Kept.blocksStart (Kept.bootEvents (Kept.ownersIn (.refl _)))

theorem State.tickUnfused_kept : Kept .work s.tickReleased s.tickUnfused := by
  have h := s.tickStarted_kept
  unfold State.tickUnfused
  generalize s.tickStarted = u at h ⊢
  exact Kept.ite (Kept.faultOccurs h) h

theorem State.firstTick_kept : Kept .work s.tickReleased s.firstTick := by
  have h := s.tickUnfused_kept
  rw [State.firstTick_eq]
  unfold State.tickMuted
  generalize s.tickUnfused = u at h ⊢
  exact Kept.snapTick (Kept.faultTick (Kept.muteTick (Kept.pairFirst (Kept.tickErrs (Kept.ite (Kept.raiseEvent h) h)))))

theorem State.tickMuted_blocks : OnlyBlocks startBlocks s.tickUnfused s.tickMuted := by
  unfold State.tickMuted
  generalize s.tickUnfused = u
  exact OnlyBlocks.muteTick (OnlyBlocks.pairFirst (OnlyBlocks.tickErrs (OnlyBlocks.ite (OnlyBlocks.raiseEvent (by decide) (by decide) (.refl _ u)) (.refl _ u))))

/-- With no owner loaded, the stage of the released tick stands (R331). -/
theorem State.firstTick_stage (h : s.bootOwn = []) : s.firstTick.bootStage = 6 := by
  obtain ⟨hstage, hown, -⟩ := s.tickReleased_spec
  have hstart : s.tickStarted.reg regBOOT_STATUS = s.tickReleased.reg regBOOT_STATUS := by
    have howners : s.tickReleased.ownersIn.regs = s.tickReleased.regs := by
      unfold State.ownersIn
      rw [hown, h]
      rfl
    exact OnlyBlocks.blocksStart (OnlyBlocks.bootEvents ((OnlyBlocks.refl _ s.tickReleased).of_regs howners)) _ (by decide)
  have hunfused : s.tickUnfused.reg regBOOT_STATUS = s.tickStarted.reg regBOOT_STATUS := by
    unfold State.tickUnfused
    split
    · exact State.faultOccurs_reg_other _ 4 _ (by decide) (by decide) (by decide)
    · rfl
  have hmuted : s.tickMuted.reg regBOOT_STATUS = s.tickUnfused.reg regBOOT_STATUS := s.tickMuted_blocks _ (by decide)
  obtain ⟨hfault, -⟩ := s.tickMuted.faultTick_keeps
  rw [State.bootStage, State.rfld, State.firstTick_eq, State.snapTick_reg, hfault _ (by decide) (by decide), hmuted, hunfused, hstart]
  exact hstage

theorem State.firstTick_unfused (h : s.unfused = true) : s.firstTick.faultLatched 4 = true := by
  have hkey : s.tickStarted.unfused = true := by
    obtain ⟨-, -, hreleased, -⟩ := s.tickReleased_spec
    have hstill := s.tickStarted_kept.still rfl
    injection hstill with _ _ _ _ _ _ _ hk
    rw [State.unfused, hk, hreleased]
    exact h
  have hlatch : s.tickUnfused.faultLatched 4 = true := by
    rw [State.tickUnfused, if_pos hkey, State.faultOccurs_latch _ 4 4 (by decide), decide_eq_true rfl, Bool.or_true]
  have hmuted : s.tickMuted.faultLatched 4 = true := by
    rw [State.faultLatched, State.rbit, s.tickMuted_blocks _ (by decide)]
    exact hlatch
  obtain ⟨-, hfault⟩ := s.tickMuted.faultTick_keeps
  rw [State.firstTick_eq, State.faultLatched, State.rbit, State.snapTick_reg]
  exact hfault 4 (by decide) hmuted

/-- The release of the first tick (R331). -/
theorem State.firstTick_spec : s.firstTick.ticking = true ∧ s.firstTick.fc = 0 ∧ s.firstTick.loading = false ∧ s.firstTick.sup.ticked = true ∧
    (s.bootOwn = [] → s.firstTick.bootStage = 6) ∧ (s.unfused = true → s.firstTick.faultLatched 4 = true) := by
  obtain ⟨-, -, -, hfc, htick, hload, hsup⟩ := s.tickReleased_spec
  have hstill := s.firstTick_kept.still rfl
  have hstage := s.firstTick_stage
  have hlatch := s.firstTick_unfused
  generalize s.firstTick = t at *
  generalize s.tickReleased = u at *
  injection hstill with kfc ktick kload ksup
  exact ⟨ktick.trans htick, kfc.trans hfc, kload.trans hload, ksup.trans hsup, hstage, hlatch⟩

/-- The effect of CHECKS_COMPLETE (R325, R331). -/
theorem checksComplete_effect (h1 : s.bootStage = 5) (h2 : s.resetDue = false) : let b := s.bootCopy
    let out (code : Nat) : Prop := ∃ t, exec .checksComplete s = .next t ∧ Rejected s b code t
    let tmpls : Prop := ∀ k, k < 256 → s.templateOk b k = true
    (s.partitionOk b = false → out 7) ∧ (s.partitionOk b = true → s.equalisersOk = false → out 8) ∧
    (s.partitionOk b = true → s.equalisersOk = true → ¬ tmpls → out 9) ∧
    (s.partitionOk b = true → s.equalisersOk = true → tmpls → exec .checksComplete s = .next s.firstTick) := by
  intro b out tmpls
  have htmpls : (List.range 256).all (s.templateOk b) = true ↔ tmpls := by
    rw [List.all_eq_true]
    exact ⟨fun h k hk => h k (List.mem_range.2 hk), fun h k hk => h k (List.mem_range.1 hk)⟩
  have reject {code : Nat} (hc : code < 256) (hr : s.checksReject b = some code) : out code := exec_checksComplete_rejects s h1 h2 hc hr
  refine ⟨fun hp => reject (by decide) ?_, fun hp he => reject (by decide) ?_, fun hp he ht => reject (by decide) ?_, fun hp he ht => ?_⟩
  · rw [State.checksReject, hp]
    rfl
  · rw [State.checksReject, hp, he]
    rfl
  · rw [State.checksReject, hp, he, Bool.eq_false_iff.2 fun h => ht (htmpls.1 h)]
    rfl
  · have hnone : s.checksReject b = none := by
      rw [State.checksReject, hp, he, htmpls.2 ht]
      rfl
    rw [exec_checksComplete s h1 h2, hnone]

/-! ## The block reset (R326) -/

theorem mapWfFrom_mem {α : Type} [DecidableEq α] (d : Nat → α) (m : List (Nat × α)) {i : Nat} (w : mapWfFrom d i m = true) {e : Nat × α} (h : e ∈ m) :
    i ≤ e.1 ∧ mapFind m e.1 = some e.2 := by
  induction m generalizing i with
  | nil => exact absurd h List.not_mem_nil
  | cons a m ih =>
    simp only [mapWfFrom, Bool.and_eq_true, decide_eq_true_eq] at w
    obtain ⟨⟨hlo, -⟩, hw⟩ := w
    rcases List.mem_cons.1 h with rfl | h
    · exact ⟨hlo, if_pos rfl⟩
    · obtain ⟨h1, h2⟩ := ih hw h
      exact ⟨by omega, (if_neg (by omega)).trans h2⟩

/-- A register that the block reset keeps (R326). -/
def blockKept (a : Nat) : Bool := decide (a / 0x10000 = 1) || decide (a / 0x10000 = 21) || decide (a = regGLOBAL_RSTCAUSE)

theorem State.reg_of_mem (hw : mapWf regReset s.regs = true) {e : Nat × Word} (h : e ∈ s.regs) : s.reg e.1 = e.2 := by
  obtain ⟨-, hf⟩ := mapWfFrom_mem regReset s.regs hw h
  rw [State.reg, mapGet, hf]
  rfl

/-- The sequencer's register is kept by the block reset (R326). -/
theorem State.blockRegs_status (hw : mapWf regReset s.regs = true) : mapGet regReset s.blockRegs regBOOT_STATUS = s.reg regBOOT_STATUS := by
  let kept := s.regs.filter fun e => blockKept e.1
  obtain ⟨r, e, hkept, hother⟩ := setRegs_fold s.reg (kept.map Prod.fst) { State.reset with regs := s.liveRegs }
  have hfold : kept.foldl (fun (t : State) e => t.setReg e.1 e.2) { State.reset with regs := s.liveRegs } = { State.reset with regs := r } := by
    rw [← e, List.foldl_map]
    refine List.foldl_ext _ _ _ fun u x hx => ?_
    rw [s.reg_of_mem hw (List.mem_filter.1 hx).1]
  have hregs : s.blockRegs = (({ State.reset with regs := r } : State).setReg (regFAULT_CAUSE 1) (s.reg (regFAULT_CAUSE 1) &&& 0x00007E00#32)).regs :=
    congrArg (fun t : State => (t.setReg (regFAULT_CAUSE 1) (s.reg (regFAULT_CAUSE 1) &&& 0x00007E00#32)).regs) hfold
  rw [hregs]
  refine (mapGet_set_ne regReset r _ (by decide)).trans ?_
  by_cases hin : regBOOT_STATUS ∈ kept.map Prod.fst
  · exact hkept _ hin
  · have hnone : mapFind s.regs regBOOT_STATUS = none := mapFind_none_of_keys _ _ fun x hx hk =>
      hin (List.mem_map.2 ⟨x, List.mem_filter.2 ⟨hx, by rw [hk]; decide⟩, hk⟩)
    refine (hother _ hin).trans ((liveRegs_rest regBOOT_STATUS (by decide) (by decide) (by decide)).trans ?_)
    rw [State.reg, mapGet, hnone]
    rfl

theorem State.faultOccurs_courses {src : Nat} (h : faultCourse src = none) : (s.faultOccurs src).courses = s.courses := by
  have hc (u : State) : u.creset src = u := by
    unfold State.creset
    rw [h]
  have hs := s.raisedOnce_shape src
  unfold State.faultShape at hs
  rw [State.faultOccurs_eq, hc, hs]

theorem State.causeBegins_courses {src : Nat} (h : faultCourse src = none) : (s.causeBegins src).courses = s.courses := by
  rcases s.causeBegins_cases src with e | e <;> rw [e]
  · rfl
  · rw [State.faultOccurs_courses _ h]
    rfl

/-- The parts of a state that neither a fault source nor the sequencer's turn touches. -/
structure TurnKept (s t : State) : Prop where
  dram : t.dram = s.dram
  flash : t.flash = s.flash
  fuseKey : t.fuseKey = s.fuseKey
  fuseLock : t.fuseLock = s.fuseLock
  tab : t.tab = s.tab
  resetDue : t.resetDue = s.resetDue
  courses : t.courses = s.courses

theorem TurnKept.faultOccurs {t : State} {src : Nat} (hs : faultCourse src = none) (h : TurnKept s t) : TurnKept s (t.faultOccurs src) := by
  have hc := t.faultOccurs_courses hs
  have hf := t.faultOccurs_frame src
  generalize t.faultOccurs src = u at hc hf
  rw [hf]
  exact ⟨h.dram, h.flash, h.fuseKey, h.fuseLock, h.tab, h.resetDue, hc.trans h.courses⟩

theorem TurnKept.causeBegins {t : State} {src : Nat} (hs : faultCourse src = none) (h : TurnKept s t) : TurnKept s (t.causeBegins src) := by
  have hc := t.causeBegins_courses hs
  have hf := t.causeBegins_frame src
  generalize t.causeBegins src = u at hc hf
  rw [hf]
  exact ⟨h.dram, h.flash, h.fuseKey, h.fuseLock, h.tab, h.resetDue, hc.trans h.courses⟩

theorem TurnKept.nextCopy {t : State} (h : TurnKept s t) : TurnKept s t.nextCopy := by
  rcases Bool.eq_false_or_eq_true t.bootCopy with hb | hb
  · rw [t.nextCopy_none hb]
    obtain ⟨h1, h2, h3, h4, h5, h6, h7⟩ := h
    exact TurnKept.causeBegins s (by decide) ⟨h1, h2, h3, h4, h5, h6, h7⟩
  · rw [t.nextCopy_second hb]
    obtain ⟨h1, h2, h3, h4, h5, h6, h7⟩ := h
    exact ⟨h1, h2, h3, h4, h5, h6, h7⟩

/-- The block reset keeps the flash buffer and the message window (R326). -/
theorem State.blockReset_tab (a : Nat) : s.blockReset.tabGet a = if 0x01B00000 ≤ a ∧ a < 0x01B12000 then s.tabGet a else State.reset.tabGet a := by
  have htab : s.blockReset.tabGet a = (mapFind (s.tab.filter fun e => decide (0x01B00000 ≤ e.1) && decide (e.1 < 0x01B12000)) a).getD (tabDefault a) := rfl
  rw [htab, mapFind_filter fun k => decide (0x01B00000 ≤ k) && decide (k < 0x01B12000)]
  by_cases h : 0x01B00000 ≤ a ∧ a < 0x01B12000
  · obtain ⟨h1, h2⟩ := id h
    rw [if_pos h, decide_eq_true h1, decide_eq_true h2]
    rfl
  · rw [if_neg h, if_neg]
    · rfl
    · rw [Bool.and_eq_true, decide_eq_true_eq, decide_eq_true_eq]
      exact h

theorem exec_blockResetComplete (h : s.resetDue = true) : exec .blockResetComplete s = .next (s.blockReset.faultOccurs 5).nextCopy :=
  congrArg Host.Outcome.next (if_pos h)

theorem exec_blockResetComplete_idle (h : s.resetDue = false) : exec .blockResetComplete s = .next s :=
  congrArg Host.Outcome.next (if_neg (by rw [h]; decide))

/-- The effect of BLOCK_RESET_COMPLETE (R326). -/
theorem blockResetComplete_effect (hd : s.resetDue = true) (hw : mapWf regReset s.regs = true) : ∃ t, exec .blockResetComplete s = .next t ∧
    Turned s.bootCopy t ∧ t.faultLatched 5 = true ∧ t.resetDue = false ∧
    t.dram = s.dram ∧ t.flash = s.flash ∧ t.fuseKey = s.fuseKey ∧ t.fuseLock = s.fuseLock ∧ t.courses = State.reset.courses ∧
    (∀ a, t.tabGet a = if 0x01B00000 ≤ a ∧ a < 0x01B12000 then s.tabGet a else State.reset.tabGet a) := by
  have hcopy : (s.blockReset.faultOccurs 5).bootCopy = s.bootCopy := by
    rw [State.bootCopy, State.rbit, State.faultOccurs_reg_other _ 5 _ (by decide) (by decide) (by decide)]
    exact congrArg (bit · 27) (s.blockRegs_status hw)
  have hlatch : (s.blockReset.faultOccurs 5).faultLatched 5 = true := (State.faultOccurs_latch _ 5 5 (by decide)).trans (by simp)
  have hkeep : TurnKept s.blockReset (s.blockReset.faultOccurs 5).nextCopy :=
    TurnKept.nextCopy _ (TurnKept.faultOccurs _ (by decide) ⟨rfl, rfl, rfl, rfl, rfl, rfl, rfl⟩)
  refine ⟨_, exec_blockResetComplete s hd, ?_, State.nextCopy_latch _ (by decide) hlatch, hkeep.resetDue, hkeep.dram, hkeep.flash, hkeep.fuseKey,
    hkeep.fuseLock, hkeep.courses, fun a => ?_⟩
  · rw [← hcopy]
    exact State.nextCopy_turned _
  · rw [State.tabGet, hkeep.tab]
    exact s.blockReset_tab a

end

/-- Settles O54: each pass of a copy ends with its next stage or with the first reason of its rejection, and the released tick starts every block from its loaded settings. -/
theorem imageStart : Obligations.ImageStart := by
  unfold Obligations.ImageStart
  refine ⟨fun s sfdp => ?_, fun s ok => ?_⟩
  · refine ⟨s.earlyOk_iff, fun h1 h2 => ?_, exec_earlyHeaderRead_idle s, fun h1 h2 => ⟨fun hs hf => ?_, fun hf => ?_⟩, exec_dramTrainingComplete_idle s⟩
    · rw [exec_earlyHeaderRead s h1 h2]
      refine ⟨fun hf ha => ?_, fun hf ha hb => ?_, fun h => ?_⟩
      · rw [hf, ha]
        rfl
      · rw [hf, ha, hb]
        rfl
      · rcases h with hf | ⟨ha, hb⟩
        · rw [hf]
          rfl
        · rw [ha, hb, Bool.and_false]
          rfl
    · subst hs
      obtain ⟨hstage, hcopy, hpart, hlog⟩ := s.passFirst_spec
      refine ⟨s.passFirst, exec_dramTrainingComplete_answers s h1 h2 hf, hstage, hcopy, hpart, fun h => hlog.trans (s.logScan_none h), fun k hk hv => ?_⟩
      obtain ⟨j, hj, hvj, hle, e⟩ := s.logScan_newest hk hv
      exact ⟨j, hj, hvj, hle, hlog.trans e⟩
    · exact ⟨_, exec_dramTrainingComplete_silent s h1 h2 hf, State.setStage_stage _ 9 (by decide), rfl⟩
  · refine ⟨pass1Complete_effect s, verifyComplete_effect s, pass2Complete_effect s, fun h1 h2 => ?_, blockResetComplete_effect s, exec_blockResetComplete_idle s⟩
    obtain ⟨h7, h8, h9, hgo⟩ := checksComplete_effect s h1 h2
    exact ⟨h7, h8, h9, fun hp he ht => ⟨s.firstTick, hgo hp he ht, s.firstTick_spec⟩⟩

end Sys2Proof.Machine
end

section
/-! AES3 receivers and transmitters, and the locks of rate-conversion channels (R224 to R235). -/

namespace Sys2Proof.Machine

-- One theorem after another, so that the compile of the whole text stays within its memory.
set_option Elab.async false

/-! ## Receivers and transmitters of the state -/

section
variable (s : State)

theorem State.rx_modRx_self (r : Fin 4) (f : AesRx → AesRx) : (s.modRx r f).rx r = f (s.rx r) := by
  show (s.rxs.set r.val (f (s.rx r)) r.isLt)[r.val] = _
  simp

theorem State.rx_modRx_ne {r o : Fin 4} (f : AesRx → AesRx) (h : o ≠ r) : (s.modRx r f).rx o = s.rx o := by
  have h' : r.val ≠ o.val := fun e => h (Fin.ext e.symm)
  show (s.rxs.set r.val (f (s.rx r)) r.isLt)[o.val] = s.rxs[o.val]
  simp [h']

theorem State.rbit_modRx (r : Fin 4) (f : AesRx → AesRx) (a i : Nat) : (s.modRx r f).rbit a i = s.rbit a i := rfl

theorem State.rfld_modRx (r : Fin 4) (f : AesRx → AesRx) (a lo len : Nat) : (s.modRx r f).rfld a lo len = s.rfld a lo len := rfl

theorem State.tx_modTx_self (t : Fin 4) (f : AesTx → AesTx) : (s.modTx t f).tx t = f (s.tx t) := by
  show (s.txs.set t.val (f (s.tx t)) t.isLt)[t.val] = _
  simp

theorem State.tx_modTx_ne {t o : Fin 4} (f : AesTx → AesTx) (h : o ≠ t) : (s.modTx t f).tx o = s.tx o := by
  have h' : t.val ≠ o.val := fun e => h (Fin.ext e.symm)
  show (s.txs.set t.val (f (s.tx t)) t.isLt)[o.val] = s.txs[o.val]
  simp [h']

end

/-! ## What a slip and the non-audio state of a receiver leave alone (R215, R227) -/

/-- Of receiver `r` only its non-audio and slip marks, their events and its count of frames differ. -/
structure RxQuiet (r : Fin 4) (s t : State) : Prop where
  frame : t = { s with regs := t.regs, rxs := t.rxs, tokens := t.tokens, seq := t.seq }
  others : ∀ o, o ≠ r → t.rx o = s.rx o
  last : (t.rx r).last = (s.rx r).last
  lev : (t.rx r).lev = (s.rx r).lev
  buf : (t.rx r).buf = (s.rx r).buf
  regs : ∀ a, a / 0x10000 ≠ 4 → a ≠ regAES_RXSTAT r.val → a ≠ regAES_RXSLIP r.val → t.reg a = s.reg a
  bits : ∀ i, i < 32 → i ≠ 28 → i ≠ 24 → t.rbit (regAES_RXSTAT r.val) i = s.rbit (regAES_RXSTAT r.val) i
  pend : ∀ e, e < 128 → s.rbit (regEVT_PEND (e / 32)) (e % 32) = true → t.rbit (regEVT_PEND (e / 32)) (e % 32) = true
  payload : ∀ e, e < 128 → e ≠ 48 → e ≠ 53 → t.reg (regEVT_PAYLOAD e) = s.reg (regEVT_PAYLOAD e)

namespace RxQuiet

variable {r : Fin 4} {s t u : State}

theorem refl (r : Fin 4) (s : State) : RxQuiet r s s :=
  ⟨rfl, fun _ _ => rfl, rfl, rfl, rfl, fun _ _ _ _ => rfl, fun _ _ _ _ => rfl, fun _ _ h => h, fun _ _ _ _ => rfl⟩

/-- Registers and events change: the receivers stay as they are. -/
theorem of_regs (h : RxQuiet r s t) (e : u = { t with regs := u.regs, tokens := u.tokens, seq := u.seq })
    (hr : ∀ a, a / 0x10000 ≠ 4 → a ≠ regAES_RXSTAT r.val → a ≠ regAES_RXSLIP r.val → u.reg a = t.reg a)
    (hb : ∀ i, i < 32 → i ≠ 28 → i ≠ 24 → u.rbit (regAES_RXSTAT r.val) i = t.rbit (regAES_RXSTAT r.val) i)
    (hp : ∀ e, e < 128 → t.rbit (regEVT_PEND (e / 32)) (e % 32) = true → u.rbit (regEVT_PEND (e / 32)) (e % 32) = true)
    (hpl : ∀ e, e < 128 → e ≠ 48 → e ≠ 53 → u.reg (regEVT_PAYLOAD e) = t.reg (regEVT_PAYLOAD e)) : RxQuiet r s u := by
  have hrx : u.rxs = t.rxs := by rw [e]
  have hx (o : Fin 4) : u.rx o = t.rx o := by rw [State.rx, State.rx, hrx]
  refine ⟨?_, fun o ho => (hx o).trans (h.others o ho), (congrArg AesRx.last (hx r)).trans h.last, (congrArg AesRx.lev (hx r)).trans h.lev,
    (congrArg AesRx.buf (hx r)).trans h.buf, fun a h4 h1 h2 => (hr a h4 h1 h2).trans (h.regs a h4 h1 h2),
    fun i hi h1 h2 => (hb i hi h1 h2).trans (h.bits i hi h1 h2), fun e he h1 => hp e he (h.pend e he h1), fun e he h1 h2 => (hpl e he h1 h2).trans (h.payload e he h1 h2)⟩
  have hf := h.frame
  generalize t.regs = g at hf
  rw [hf] at e
  rw [e]

theorem raiseEvent {e : Nat} {pl : Word} (he : e = 48 ∨ e = 53) (h : RxQuiet r s t) : RxQuiet r s (t.raiseEvent e pl) := by
  have he' : e < 128 := by omega
  refine h.of_regs (State.raiseEvent_frame t e pl) (fun a h4 _ _ => State.raiseEvent_reg_block _ _ _ _ he' h4)
    (fun i _ _ _ => State.raiseEvent_rbit_block _ _ _ _ _ he' (by simp only [regAES_RXSTAT]; omega)) (fun f hf hp => ?_)
    (fun f hf h1 h2 => State.raiseEvent_payload_ne _ _ _ he' hf (by omega))
  rw [State.raiseEvent_pend _ _ _ _ he' hf, hp, Bool.true_or]

/-- A mark of the receiver's status is set. -/
theorem setMark {i : Nat} (hi : i = 24 ∨ i = 28) (h : RxQuiet r s t) : RxQuiet r s (t.setRbit (regAES_RXSTAT r.val) i) := by
  refine h.of_regs rfl (fun a _ h1 _ => State.reg_setRbit_ne _ _ _ _ h1) (fun j hj h1 h2 => ?_) (fun e he hp => ?_)
    (fun e he _ _ => State.reg_setRbit_ne _ _ _ _ (by simp only [regEVT_PAYLOAD, regAES_RXSTAT]; omega))
  · rw [State.rbit_setRbit _ _ _ _ _ hj, decide_eq_false (by omega : ¬ j = i), Bool.and_false, Bool.or_false]
  · rw [State.rbit_setRbit _ _ _ _ _ (by omega), hp, Bool.true_or]

/-- The slip counter counts. -/
theorem setSlip {v : Word} (h : RxQuiet r s t) : RxQuiet r s (t.setReg (regAES_RXSLIP r.val) v) := by
  refine h.of_regs rfl (fun a _ _ h2 => State.reg_setReg_ne _ _ h2) (fun j _ _ _ => ?_) (fun e he hp => ?_)
    (fun e he _ _ => State.reg_setReg_ne _ _ (by simp only [regEVT_PAYLOAD, regAES_RXSLIP]; omega))
  · rw [State.rbit_setReg, if_neg (by simp only [regAES_RXSTAT, regAES_RXSLIP]; omega)]
  · rw [State.rbit_setReg, if_neg (by simp only [regEVT_PEND, regAES_RXSLIP]; omega)]
    exact hp

theorem rxSlip (h : RxQuiet r s t) : RxQuiet r s (t.rxSlip r) := raiseEvent (.inl rfl) (setMark (.inl rfl) (setSlip h))

theorem nonAudioSet (h : RxQuiet r s t) : RxQuiet r s (t.nonAudioSet r) := by
  have h1 : RxQuiet r s (t.modRx r fun v => { v with absent := 0 }) := by
    have hx := State.rx_modRx_self t r fun v => { v with absent := 0 }
    refine ⟨?_, fun o ho => (State.rx_modRx_ne t _ ho).trans (h.others o ho), ?_, ?_, ?_, h.regs, h.bits, h.pend, h.payload⟩
    · have hf := h.frame
      generalize t.regs = g, t.rxs = x, t.tokens = k, t.seq = q at hf
      rw [hf]
      rfl
    · rw [hx]
      exact h.last
    · rw [hx]
      exact h.lev
    · rw [hx]
      exact h.buf
  unfold State.nonAudioSet
  split
  · dsimp only
    split
    · exact h1
    · exact raiseEvent (.inr rfl) (setMark (.inr rfl) h1)
  · exact h

end RxQuiet

/-! ## The frame of a receiver (R224, R225, R227) -/

section
variable (s : State) (r : Fin 4)

theorem State.subSample_spec (prev : Word) (f : Subframe) : (s.subSample r prev f).1 = (if f.parityErr then prev else f.data ++ 0#8) ∧
    (∃ g, (s.subSample r prev f).2 = { s with regs := g }) ∧ (∀ a, a ≠ regAES_RXERR r.val → (s.subSample r prev f).2.reg a = s.reg a) ∧
    (s.subSample r prev f).2.rfld (regAES_RXERR r.val) 16 16 = min 65535 (s.rfld (regAES_RXERR r.val) 16 16 + b2n f.parityErr) := by
  unfold State.subSample
  rcases Bool.eq_false_or_eq_true f.parityErr with h | h <;> rw [h]
  · refine ⟨rfl, ⟨_, rfl⟩, fun a ha => State.reg_setReg_ne _ _ ha, ?_⟩
    refine (State.rfld_setReg _ _ _ _ _ _).trans ((if_pos rfl).trans ((fld_setFld_self _ 16 16 _ (by decide)).trans ?_))
    show min 65535 (fld (s.reg _) 16 16 + 1) % 65536 = min 65535 (fld (s.reg _) 16 16 + 1)
    omega
  · refine ⟨rfl, ⟨s.regs, rfl⟩, fun _ _ => rfl, ?_⟩
    have hlt : s.rfld (regAES_RXERR r.val) 16 16 < 65536 := Nat.mod_lt _ (by decide)
    show s.rfld (regAES_RXERR r.val) 16 16 = min 65535 (s.rfld (regAES_RXERR r.val) 16 16 + 0)
    omega

variable (sa sb : Subframe)

/-- The sample of the first subframe, and the state with its parity error counted. -/
def State.subA : Word × State := s.subSample r (nthD (s.rx r).last 0 0) sa

/-- The sample of the second subframe, and the state with both parity errors counted. -/
def State.subB : Word × State := (s.subA r sa).2.subSample r (nthD (s.rx r).last 1 0) sb

/-- The parity errors are counted and the validity bit is shown. -/
def State.rxReported : State := (s.subB r sa sb).2.putRbit (regAES_RXSTAT r.val) 26 sb.v

/-- The receiver behind a frame: its samples, and the frame held where it is taken directly. -/
def AesRx.taken (v : AesRx) (since : Option Nat) (ws : List Word) (buf : InBuf) : AesRx :=
  { v with last := ws, sinceBurst := since, absent := v.absent + 1, buf := buf }

/-- The frames since the last burst preamble. -/
def State.rxSince : Option Nat :=
  if decide (fld (s.subA r sa).1 16 16 = 0xF872) && decide (fld (s.subB r sa sb).1 16 16 = 0x4E1F) then some 0 else (s.rx r).sinceBurst.map (· + 1)

/-- The capture buffer behind a frame. -/
def State.rxBuf : InBuf :=
  if s.rxValid r && s.rxDirect then (s.rx r).buf.complete s.now [(s.subA r sa).1, (s.subB r sa sb).1] else (s.rx r).buf

/-- The receiver has taken the frame. -/
def State.rxTaken : State :=
  (s.rxReported r sa sb).modRx r fun v => v.taken (s.rxSince r sa sb) [(s.subA r sa).1, (s.subB r sa sb).1] (if s.rxValid r && s.rxDirect then v.buf.complete s.now [(s.subA r sa).1, (s.subB r sa sb).1] else v.buf)

/-- A third held frame slips. -/
def State.rxThird : State :=
  if (s.rxValid r && s.rxDirect) && decide (2 ≤ (s.rx r).buf.held.length) then (s.rxTaken r sa sb).rxSlip r else s.rxTaken r sa sb

/-- The samples reach the rate-conversion channels of a valid receiver; any other is qualifying. -/
def State.rxDelivered : State :=
  if s.rxValid r then ((s.rxThird r sa sb).endpointSample 2 (2 * r.val) (s.subA r sa).1).endpointSample 2 (2 * r.val + 1) (s.subB r sa sb).1
  else (s.rxThird r sa sb).setRbit (regAES_RXSTAT r.val) 30

theorem exec_aesFrameReceive (h : s.rxOn r = true) : exec (.aesFrameReceive r sa sb) s = .next ((s.rxDelivered r sa sb).nonAudioSet r) :=
  congrArg Host.Outcome.next (if_neg (by rw [h]; decide))

theorem exec_aesFrameReceive_off (h : s.rxOn r = false) : exec (.aesFrameReceive r sa sb) s = .next s :=
  congrArg Host.Outcome.next (if_pos (by rw [h]; rfl))

theorem State.rxReported_spec : (∃ g, s.rxReported r sa sb = { s with regs := g }) ∧ (s.rxReported r sa sb).rbit (regAES_RXSTAT r.val) 26 = sb.v ∧
    (s.rxReported r sa sb).rfld (regAES_RXERR r.val) 16 16 = min 65535 (s.rfld (regAES_RXERR r.val) 16 16 + b2n sa.parityErr + b2n sb.parityErr) := by
  obtain ⟨-, ⟨g, e⟩, -, he⟩ := s.subSample_spec r (nthD (s.rx r).last 0 0) sa
  obtain ⟨-, ⟨g', e'⟩, -, he'⟩ := (s.subA r sa).2.subSample_spec r (nthD (s.rx r).last 1 0) sb
  refine ⟨?_, State.rbit_put_self _ _ _ (by decide), ?_⟩
  · have hb : (s.subB r sa sb).2 = { s with regs := g' } := by
      rw [State.subB, e', State.subA, e]
    unfold State.rxReported
    rw [hb]
    exact ⟨_, rfl⟩
  · have hne : regAES_RXERR r.val ≠ regAES_RXSTAT r.val := by simp only [regAES_RXERR, regAES_RXSTAT]; omega
    unfold State.rxReported
    rw [State.rfld, State.reg_putRbit_ne _ _ _ _ _ hne]
    refine he'.trans ?_
    have hA : (s.subA r sa).2.rfld (regAES_RXERR r.val) 16 16 = _ := he
    rw [hA]
    omega

theorem State.rxDelivered_spec : let d := s.rxDelivered r sa sb
    let q := s.rxThird r sa sb
    d = { q with regs := d.regs, conv := d.conv } ∧ (s.rxValid r = false → d.conv = q.conv ∧ d.rbit (regAES_RXSTAT r.val) 30 = true) ∧
    (∀ a, a ≠ regAES_RXSTAT r.val → d.reg a = q.reg a) ∧ ∀ i, i < 32 → i ≠ 30 → d.rbit (regAES_RXSTAT r.val) i = q.rbit (regAES_RXSTAT r.val) i := by
  intro d q
  rcases Bool.eq_false_or_eq_true (s.rxValid r) with h | h
  · obtain ⟨⟨k, e⟩, -⟩ := q.endpointSample_spec 2 (2 * r.val) (s.subA r sa).1
    obtain ⟨⟨k', e'⟩, -⟩ := (q.endpointSample 2 (2 * r.val) (s.subA r sa).1).endpointSample_spec 2 (2 * r.val + 1) (s.subB r sa sb).1
    have hd : d = { q with conv := k' } := (if_pos h).trans (e'.trans (by rw [e]))
    rw [hd]
    exact ⟨rfl, fun h' => absurd (h.symm.trans h') (by decide), fun _ _ => rfl, fun _ _ _ => rfl⟩
  · have hd : d = q.setRbit (regAES_RXSTAT r.val) 30 := if_neg (by rw [h]; decide)
    rw [hd]
    refine ⟨rfl, fun _ => ⟨rfl, ?_⟩, fun a ha => State.reg_setRbit_ne _ _ _ _ ha, fun i hi hne => ?_⟩
    · rw [State.rbit_setRbit _ _ _ _ _ (by decide), decide_eq_true rfl, decide_eq_true rfl, Bool.and_self, Bool.or_true]
    · rw [State.rbit_setRbit _ _ _ _ _ hi, decide_eq_false hne, Bool.and_false, Bool.or_false]

theorem State.rxThird_quiet : RxQuiet r (s.rxTaken r sa sb) (s.rxThird r sa sb) := by
  unfold State.rxThird
  split
  · exact RxQuiet.rxSlip (.refl r _)
  · exact .refl r _

/-- The state behind a frame, and what it leaves alone (R224, R225). -/
theorem aesFrameReceive_effect (h : s.rxOn r = true) :
    let v := s.rx r
    let st := regAES_RXSTAT r.val
    let err := regAES_RXERR r.val
    let xa := if sa.parityErr then nthD v.last 0 0 else sa.data ++ 0#8
    let xb := if sb.parityErr then nthD v.last 1 0 else sb.data ++ 0#8
    ∃ t, exec (.aesFrameReceive r sa sb) s = .next t ∧ t = { s with regs := t.regs, rxs := t.rxs, tokens := t.tokens, seq := t.seq, conv := t.conv } ∧
      (s.rxValid r = false → t.conv = s.conv) ∧ (∀ o, o ≠ r → t.rx o = s.rx o) ∧ (t.rx r).last = [xa, xb] ∧ (t.rx r).lev = v.lev ∧ t.rbit st 26 = sb.v ∧
      (s.rxValid r = true → s.rxDirect = true → (t.rx r).buf = v.buf.complete s.now [xa, xb]) ∧
      ((s.rxValid r = false ∨ s.rxDirect = false) → (t.rx r).buf = v.buf) ∧ (s.rxValid r = false → t.rbit st 30 = true) ∧
      t.rfld err 16 16 = min 65535 (s.rfld err 16 16 + b2n sa.parityErr + b2n sb.parityErr) := by
  intro v st err xa xb
  obtain ⟨⟨g, hrep⟩, hv, herr⟩ := s.rxReported_spec r sa sb
  have hxa : (s.subA r sa).1 = xa := (s.subSample_spec r _ sa).1
  have hxb : (s.subB r sa sb).1 = xb := ((s.subA r sa).2.subSample_spec r _ sb).1
  have hw : s.rxTaken r sa sb = { s with regs := g, rxs := (s.rxTaken r sa sb).rxs } := by
    rw [State.rxTaken, hrep]
    rfl
  have hwconv : (s.rxTaken r sa sb).conv = s.conv := by rw [hw]
  have hwreg (a : Nat) : (s.rxTaken r sa sb).reg a = (s.rxReported r sa sb).reg a := rfl
  have hwself : (s.rxTaken r sa sb).rx r = v.taken (s.rxSince r sa sb) [xa, xb] (if s.rxValid r && s.rxDirect then v.buf.complete s.now [xa, xb] else v.buf) := by
    rw [State.rxTaken, State.rx_modRx_self, hrep, hxa, hxb]
    rfl
  have hwne (o : Fin 4) (ho : o ≠ r) : (s.rxTaken r sa sb).rx o = s.rx o := by
    rw [State.rxTaken, State.rx_modRx_ne _ _ ho, hrep]
    rfl
  have hq := s.rxThird_quiet r sa sb
  obtain ⟨hd, hdoff, hdreg, hdbit⟩ := s.rxDelivered_spec r sa sb
  have ht : RxQuiet r (s.rxDelivered r sa sb) ((s.rxDelivered r sa sb).nonAudioSet r) := RxQuiet.nonAudioSet (.refl r _)
  have hdrx (o : Fin 4) : (s.rxDelivered r sa sb).rx o = (s.rxThird r sa sb).rx o := by
    rw [State.rx, State.rx]
    rw [hd]
  have hne : err / 0x10000 ≠ 4 ∧ err ≠ st ∧ err ≠ regAES_RXSLIP r.val := by
    simp only [err, st, regAES_RXERR, regAES_RXSTAT, regAES_RXSLIP]
    omega
  obtain ⟨hne4, hnest, hnesl⟩ := hne
  refine ⟨_, exec_aesFrameReceive s r sa sb h, ?_, fun hoff => ?_, fun o ho => ?_, ?_, ?_, ?_, fun hval hdir => ?_, fun hno => ?_, fun hoff => ?_, ?_⟩
  · have f1 := ht.frame
    have f2 := hq.frame
    generalize (s.rxDelivered r sa sb).nonAudioSet r = t at f1 ⊢
    generalize s.rxDelivered r sa sb = d at f1 hd
    generalize s.rxThird r sa sb = q at hd f2
    generalize s.rxTaken r sa sb = k at f2 hw
    rw [hw] at f2
    rw [f2] at hd
    rw [hd] at f1
    rw [f1]
  · have hc : ((s.rxDelivered r sa sb).nonAudioSet r).conv = (s.rxDelivered r sa sb).conv := by rw [ht.frame]
    have hc' : (s.rxThird r sa sb).conv = (s.rxTaken r sa sb).conv := by rw [hq.frame]
    exact hc.trans ((hdoff hoff).1.trans (hc'.trans hwconv))
  · exact (ht.others o ho).trans ((hdrx o).trans ((hq.others o ho).trans (hwne o ho)))
  · rw [ht.last, hdrx, hq.last, hwself]
    rfl
  · rw [ht.lev, hdrx, hq.lev, hwself]
    rfl
  · rw [ht.bits 26 (by decide) (by decide) (by decide), hdbit 26 (by decide) (by decide), hq.bits 26 (by decide) (by decide) (by decide)]
    exact hv
  · rw [ht.buf, hdrx, hq.buf, hwself, hval, hdir]
    rfl
  · rw [ht.buf, hdrx, hq.buf, hwself]
    exact if_neg (by rcases hno with e | e <;> simp [e])
  · rw [ht.bits 30 (by decide) (by decide) (by decide)]
    exact (hdoff hoff).2
  · rw [State.rfld, ht.regs _ hne4 hnest hnesl, hdreg _ hnest, hq.regs _ hne4 hnest hnesl]
    exact herr

end

/-! ## Channel status (R226, R227) -/

/-- Words written to registers that differ. -/
theorem State.setWords_fold (s : State) (addr : Nat → Nat) (f : Nat → Word) (l : List Nat) (hinj : ∀ i j, addr i = addr j → i = j) :
    ∃ g, l.foldl (fun (t : State) w => t.setReg (addr w) (f w)) s = { s with regs := g } ∧ (∀ w, w ∈ l → mapGet regReset g (addr w) = f w) ∧
      ∀ a, (∀ w, w ∈ l → a ≠ addr w) → mapGet regReset g a = s.reg a := by
  induction l generalizing s with
  | nil => exact ⟨s.regs, rfl, fun _ h => absurd h List.not_mem_nil, fun _ _ => rfl⟩
  | cons b l ih =>
    obtain ⟨g, e, h1, h2⟩ := ih (s.setReg (addr b) (f b))
    refine ⟨g, e, fun w hw => ?_, fun a ha => ?_⟩
    · by_cases hl : w ∈ l
      · exact h1 w hl
      · obtain rfl : w = b := (List.mem_cons.1 hw).resolve_right hl
        exact (h2 _ fun w' hw' he => hl (by rw [hinj w w' he]; exact hw')).trans (State.reg_setReg_self _ _ _)
    · exact (h2 a fun w hw => ha w (List.mem_cons_of_mem b hw)).trans (State.reg_setReg_ne _ _ (ha b List.mem_cons_self))

section
variable (s : State) (r : Fin 4) (sub : Bool) (block : BitVec 192)

/-- The first word of a subframe's held channel status. -/
def csBase (sub : Bool) : Nat := if sub then 6 else 0

/-- The words of a channel-status block are held. -/
def State.csHeld : State :=
  (List.range 6).foldl (fun (t : State) w => t.setReg (regAES_RXCS r.val (csBase sub + w)) (block.extractLsb' (32 * w) 32)) s

/-- The block differs from the held one. -/
def State.csDiffers : Bool := (List.range 6).any fun w => s.reg (regAES_RXCS r.val (csBase sub + w)) != block.extractLsb' (32 * w) 32

/-- PRO of subframe A is shown. -/
def State.csShown : State := if sub then s.csHeld r sub block else (s.csHeld r sub block).putRbit (regAES_RXSTAT r.val) 27 (block.getLsbD 0)

/-- A changed block is reported. -/
def State.csReported : State := if s.csDiffers r sub block then (s.csShown r sub block).raiseEvent 54 (BitVec.ofNat 32 r.val) else s.csShown r sub block

theorem blockBytes_last : nthD (blockBytes block) 23 0 = block.extractLsb' 184 8 := rfl

theorem block_pro : bit (block.extractLsb' 0 32) 0 = block.getLsbD 0 := by
  simp [bit]

theorem exec_channelStatusBlock_bad (h : s.rxOn r = true) (hp : bit (block.extractLsb' 0 32) 0 = true)
    (hc : csCrc (blockBytes block) ≠ block.extractLsb' 184 8) :
    exec (.channelStatusBlock r sub block) s = .next (s.setReg (regAES_RXERR r.val) (satAdd (s.reg (regAES_RXERR r.val)) 0 16 1)) := by
  rw [block_pro] at hp
  refine congrArg Host.Outcome.next ((if_neg ?_).trans (if_pos ?_))
  · rw [h]
    decide
  · rw [blockBytes_last, hp, Bool.true_and, bne_iff_ne]
    exact hc

theorem exec_channelStatusBlock_good (h : s.rxOn r = true)
    (hc : bit (block.extractLsb' 0 32) 0 = false ∨ csCrc (blockBytes block) = block.extractLsb' 184 8) :
    exec (.channelStatusBlock r sub block) s = .next ((s.csReported r sub block).nonAudioSet r) := by
  rw [block_pro] at hc
  refine congrArg Host.Outcome.next ((if_neg ?_).trans (if_neg ?_))
  · rw [h]
    decide
  · rw [blockBytes_last]
    rcases hc with hp | hc
    · rw [hp]
      simp
    · rw [hc]
      simp

theorem State.csHeld_spec : (∃ g, s.csHeld r sub block = { s with regs := g }) ∧
    (∀ w, w < 6 → (s.csHeld r sub block).reg (regAES_RXCS r.val (csBase sub + w)) = block.extractLsb' (32 * w) 32) ∧
    ∀ a, (∀ w, w < 6 → a ≠ regAES_RXCS r.val (csBase sub + w)) → (s.csHeld r sub block).reg a = s.reg a := by
  obtain ⟨g, e, h1, h2⟩ := s.setWords_fold (fun w => regAES_RXCS r.val (csBase sub + w)) (fun w => block.extractLsb' (32 * w) 32) (List.range 6) fun i j h => by
    simp only [regAES_RXCS] at h
    omega
  rw [State.csHeld, e]
  exact ⟨⟨g, rfl⟩, fun w hw => h1 w (List.mem_range.2 hw), fun a ha => h2 a fun w hw => ha w (List.mem_range.1 hw)⟩

theorem State.csReported_frame : ∃ g k q, s.csReported r sub block = { s with regs := g, tokens := k, seq := q } := by
  obtain ⟨⟨g, e⟩, -⟩ := s.csHeld_spec r sub block
  have hs : ∃ g, s.csShown r sub block = { s with regs := g } := by
    unfold State.csShown
    rw [e]
    cases sub <;> exact ⟨_, rfl⟩
  obtain ⟨g', e'⟩ := hs
  unfold State.csReported
  rw [e']
  split
  · exact ⟨_, _, _, State.raiseEvent_frame _ _ _⟩
  · exact ⟨g', s.tokens, s.seq, rfl⟩

/-- The held words lie outside the event block, and none of them is the status. -/
theorem State.csReported_words (j : Nat) (hj : j < 12) :
    (s.csReported r sub block).reg (regAES_RXCS r.val j) = (s.csHeld r sub block).reg (regAES_RXCS r.val j) := by
  have hne : regAES_RXCS r.val j ≠ regAES_RXSTAT r.val ∧ regAES_RXCS r.val j / 0x10000 ≠ 4 := by
    simp only [regAES_RXCS, regAES_RXSTAT]
    omega
  obtain ⟨h1, h2⟩ := hne
  have hs : (s.csShown r sub block).reg (regAES_RXCS r.val j) = (s.csHeld r sub block).reg (regAES_RXCS r.val j) := by
    unfold State.csShown
    split
    · rfl
    · exact State.reg_putRbit_ne _ _ _ _ _ h1
  unfold State.csReported
  split
  · exact (State.raiseEvent_reg_block _ _ _ _ (by decide) h2).trans hs
  · exact hs

/-- A taken block of channel status (R226). -/
theorem channelStatusBlock_effect (h : s.rxOn r = true)
    (hc : bit (block.extractLsb' 0 32) 0 = false ∨ csCrc (blockBytes block) = block.extractLsb' 184 8) :
    ∃ t, exec (.channelStatusBlock r sub block) s = .next t ∧ t = { s with regs := t.regs, rxs := t.rxs, tokens := t.tokens, seq := t.seq } ∧
      (∀ w, w < 6 → t.reg (regAES_RXCS r.val (csBase sub + w)) = block.extractLsb' (32 * w) 32 ∧
        t.reg (regAES_RXCS r.val (6 - csBase sub + w)) = s.reg (regAES_RXCS r.val (6 - csBase sub + w))) ∧
      ((∃ w, w < 6 ∧ s.reg (regAES_RXCS r.val (csBase sub + w)) ≠ block.extractLsb' (32 * w) 32) →
        t.rbit (regEVT_PEND 1) 22 = true ∧ t.reg (regEVT_PAYLOAD 54) = BitVec.ofNat 32 r.val) := by
  have hbase : csBase sub = 0 ∨ csBase sub = 6 := by cases sub <;> simp [csBase]
  have hq : RxQuiet r (s.csReported r sub block) ((s.csReported r sub block).nonAudioSet r) := RxQuiet.nonAudioSet (.refl r _)
  obtain ⟨-, hself, hother⟩ := s.csHeld_spec r sub block
  have hword (j : Nat) (hj : j < 12) : ((s.csReported r sub block).nonAudioSet r).reg (regAES_RXCS r.val j) = (s.csHeld r sub block).reg (regAES_RXCS r.val j) := by
    refine (hq.regs _ ?_ ?_ ?_).trans (s.csReported_words r sub block j hj) <;> simp only [regAES_RXCS, regAES_RXSTAT, regAES_RXSLIP] <;> omega
  refine ⟨_, exec_channelStatusBlock_good s r sub block h hc, ?_, fun w hw => ⟨?_, ?_⟩, fun hd => ?_⟩
  · obtain ⟨g, k, q, e⟩ := s.csReported_frame r sub block
    have hf := hq.frame
    rw [e] at hf ⊢
    rw [hf]
  · rw [hword _ (by omega)]
    exact hself w hw
  · rw [hword _ (by omega)]
    refine hother _ fun w' hw' he => ?_
    simp only [regAES_RXCS] at he
    omega
  · obtain ⟨w, hw, hne⟩ := hd
    have hdiff : s.csDiffers r sub block = true := List.any_eq_true.2 ⟨w, List.mem_range.2 hw, bne_iff_ne.2 hne⟩
    have hrep : s.csReported r sub block = (s.csShown r sub block).raiseEvent 54 (BitVec.ofNat 32 r.val) := if_pos hdiff
    refine ⟨hq.pend 54 (by decide) ?_, (hq.payload 54 (by decide) (by decide) (by decide)).trans ?_⟩
    · rw [hrep]
      exact State.raiseEvent_pend_self _ 54 _ (by decide)
    · rw [hrep]
      exact State.raiseEvent_payload _ 54 _ (by decide)

end

/-! ## Qualification and loss of a receiver (R217, R218, R224) -/

section
variable (s : State) (r : Fin 4)

theorem State.rxOff_bit (h : s.rxValid r = false) : s.rbit (regAES_RXSTAT r.val) 31 = false := h

/-- The measured rate is shown, and the receiver is no longer qualifying. -/
def State.rxMeasured (rate : BitVec 18) : State := (s.setRfld (regAES_RXSTAT r.val) 0 18 rate.toNat).putRbit (regAES_RXSTAT r.val) 30 false

/-- The receiver is valid, with nothing held. -/
def State.rxQualified (rate : BitVec 18) : State :=
  (((s.rxMeasured r rate).setRbit (regAES_RXSTAT r.val) 31).putRbit (regAES_RXSTAT r.val) 29 false).modRx r fun v =>
    { v with buf := { v.buf with held := [], begun := false } }

/-- Its qualification is reported and its fault ends. -/
def State.rxAnnounced (rate : BitVec 18) : State := ((s.rxQualified r rate).raiseEvent 52 (BitVec.ofNat 32 r.val)).causeEnds (72 + r.val)

variable {rate : BitVec 18}

theorem exec_aesReceiverQualified_refused (h1 : s.rxOn r = true) (h2 : s.rxValid r = false)
    (h : aesRateOk rate.toNat = false ∨ (s.rxDirect = true ∧ s.nearFi rate.toNat = false)) :
    exec (.aesReceiverQualified r rate) s = .next ((s.rxMeasured r rate).setRbit (regAES_RXSTAT r.val) 29) := by
  refine congrArg Host.Outcome.next ((if_pos ?_).trans (if_pos ?_))
  · rw [h1, h2]
    rfl
  · rcases h with h | ⟨h, h'⟩
    · rw [h]
      rfl
    · rw [h, h', Bool.or_eq_true]
      exact .inr rfl

theorem exec_aesReceiverQualified_valid (h1 : s.rxOn r = true) (h2 : s.rxValid r = false) (ha : aesRateOk rate.toNat = true)
    (hf : s.rxDirect = true → s.nearFi rate.toNat = true) :
    exec (.aesReceiverQualified r rate) s = .next ((s.rxAnnounced r rate).asrcEndpoints (onRx r)) := by
  refine congrArg Host.Outcome.next ((if_pos ?_).trans (if_neg ?_))
  · rw [h1, h2]
    rfl
  · rw [ha, Bool.not_true, Bool.false_or]
    rcases Bool.eq_false_or_eq_true s.rxDirect with h | h
    · rw [h, hf h]
      decide
    · rw [h, Bool.false_and]
      decide

/-- A receiver that is refused shows its rate and RATEERR. -/
theorem aesReceiverQualified_refused_effect (h1 : s.rxOn r = true) (h2 : s.rxValid r = false)
    (h : aesRateOk rate.toNat = false ∨ (s.rxDirect = true ∧ s.nearFi rate.toNat = false)) :
    ∃ t, exec (.aesReceiverQualified r rate) s = .next t ∧ OnlyRegs [regAES_RXSTAT r.val] s t ∧ t.rbit (regAES_RXSTAT r.val) 29 = true ∧
      t.rbit (regAES_RXSTAT r.val) 31 = false := by
  refine ⟨_, exec_aesReceiverQualified_refused s r h1 h2 h, ⟨rfl, fun a ha => ?_⟩, ?_, ?_⟩
  · have hne : a ≠ regAES_RXSTAT r.val := fun e => ha (List.mem_singleton.2 e)
    rw [State.rxMeasured, State.reg_setRbit_ne _ _ _ _ hne, State.reg_putRbit_ne _ _ _ _ _ hne, State.reg_setRfld_ne _ _ _ _ _ _ hne]
  · rw [State.rbit_setRbit _ _ _ _ _ (by decide), decide_eq_true rfl, decide_eq_true rfl, Bool.and_self, Bool.or_true]
  · rw [State.rbit_setRbit _ _ _ _ _ (by decide), State.rxMeasured, State.rbit_putRbit _ _ _ _ _ _ (by decide), State.rbit_setRfld _ _ _ _ _ _ _ (by decide)]
    simp [s.rxOff_bit r h2]

theorem State.rxQualified_spec : s.rxQualified r rate = { s with regs := (s.rxQualified r rate).regs, rxs := (s.rxQualified r rate).rxs } ∧
    (s.rxQualified r rate).rbit (regAES_RXSTAT r.val) 31 = true ∧ (s.rxQualified r rate).rfld (regAES_RXSTAT r.val) 0 18 = rate.toNat ∧
    (s.rxQualified r rate).rx r = { s.rx r with buf := { (s.rx r).buf with held := [], begun := false } } := by
  refine ⟨rfl, ?_, ?_, State.rx_modRx_self _ _ _⟩
  · rw [State.rxQualified, State.rbit_modRx, State.rbit_putRbit _ _ _ _ _ _ (by decide), if_neg (by omega), State.rbit_setRbit _ _ _ _ _ (by decide)]
    simp
  · rw [State.rxQualified, State.rfld_modRx, State.rfld_putRbit _ _ _ _ _ _ _ (by decide) (by omega), State.rfld_setRbit _ _ _ _ _ _ (by omega), State.rxMeasured,
      State.rfld_putRbit _ _ _ _ _ _ _ (by decide) (by omega), State.rfld_setRfld_self _ _ _ _ _ (by decide)]
    exact Nat.mod_eq_of_lt rate.isLt

/-- A receiver that qualifies (R224). -/
theorem aesReceiverQualified_valid_effect (h1 : s.rxOn r = true) (h2 : s.rxValid r = false) (ha : aesRateOk rate.toNat = true)
    (hf : s.rxDirect = true → s.nearFi rate.toNat = true) :
    ∃ t : State, exec (.aesReceiverQualified r rate) s = .next (t.asrcEndpoints (onRx r)) ∧
      t = { s with regs := t.regs, rxs := t.rxs, tokens := t.tokens, seq := t.seq } ∧ t.rbit (regAES_RXSTAT r.val) 31 = true ∧
      t.rfld (regAES_RXSTAT r.val) 0 18 = rate.toNat ∧ t.rx r = { s.rx r with buf := { (s.rx r).buf with held := [], begun := false } } ∧
      t.reg (regEVT_PAYLOAD 52) = BitVec.ofNat 32 r.val ∧ t.rbit (regEVT_PEND 1) 20 = true := by
  obtain ⟨hframe, hv, hrate, hrx⟩ := s.rxQualified_spec r (rate := rate)
  have hf1 := (s.rxQualified r rate).raiseEvent_frame 52 (BitVec.ofNat 32 r.val)
  have hblock : regAES_RXSTAT r.val / 0x10000 = 11 := by simp only [regAES_RXSTAT]; omega
  have hreg (a : Nat) (h3 : a / 0x10000 ≠ 3) : (s.rxAnnounced r rate).reg a = ((s.rxQualified r rate).raiseEvent 52 (BitVec.ofNat 32 r.val)).reg a :=
    State.causeEnds_reg _ _ _ (by omega) h3
  have hstat : (s.rxAnnounced r rate).reg (regAES_RXSTAT r.val) = (s.rxQualified r rate).reg (regAES_RXSTAT r.val) :=
    (hreg _ (by omega)).trans (State.raiseEvent_reg_block _ _ _ _ (by decide) (by omega))
  refine ⟨s.rxAnnounced r rate, exec_aesReceiverQualified_valid s r h1 h2 ha hf, ?_, ?_, ?_, ?_, ?_, ?_⟩
  · unfold State.rxAnnounced
    generalize (s.rxQualified r rate).raiseEvent 52 (BitVec.ofNat 32 r.val) = u at hf1 ⊢
    generalize s.rxQualified r rate = q at hframe hf1
    rw [hframe] at hf1
    rw [hf1]
    rfl
  · rw [State.rbit, hstat]
    exact hv
  · rw [State.rfld, hstat]
    exact hrate
  · refine Eq.trans ?_ hrx
    show ((s.rxQualified r rate).raiseEvent 52 (BitVec.ofNat 32 r.val)).rx r = _
    rw [hf1]
    rfl
  · rw [hreg _ (by decide)]
    exact State.raiseEvent_payload _ 52 _ (by decide)
  · rw [State.rbit, hreg _ (by decide)]
    exact State.raiseEvent_pend_self _ 52 _ (by decide)

theorem exec_aesReceiverLost_valid (h : s.rxValid r = true) :
    exec (.aesReceiverLost r) s = .next ((s.putRbit (regAES_RXSTAT r.val) 30 false).rxInvalid r false) :=
  congrArg Host.Outcome.next (if_pos h)

theorem exec_aesReceiverLost_invalid (h : s.rxValid r = false) : exec (.aesReceiverLost r) s = .next (s.putRbit (regAES_RXSTAT r.val) 30 false) :=
  congrArg Host.Outcome.next (if_neg (by rw [h]; decide))

theorem exec_rxRateChange_valid (h : s.rxValid r = true) :
    exec (.portRateChange (.rx r)) s = .next ((s.rxInvalid r true).setRbit (regAES_RXSTAT r.val) 30) :=
  congrArg Host.Outcome.next (if_pos h)

theorem exec_rxRateChange_invalid (h : s.rxValid r = false) : exec (.portRateChange (.rx r)) s = .next s :=
  congrArg Host.Outcome.next (if_neg (by rw [h]; decide))

end

/-! ## Transmitters (R228) -/

section
variable (s : State) (t : Fin 4)

/-- The template that a frame of the block uses. -/
def State.txTmpl : List Word := if (s.tx t).pos = 0 then s.txTemplate t else (s.tx t).tmpl

/-- A transmitter behind a frame with the samples `x` and `y`. -/
def AesTx.transmitted (tmpl : List Word) (own cs : Bool) (x y : Word) (v : AesTx) : AesTx :=
  { v with
    pos := (v.pos + 1) % 192, tmpl := tmpl, sent := if own then some (slotOut x 24, slotOut y 24) else none
    csBit := cs, vBit := false, uBit := false, parity := (subParity (slotOut x 24) false false cs, subParity (slotOut y 24) false false cs) }

/-- The channel-status bit of a frame. -/
def State.txBit : Bool := csBitOf (s.txTmpl t) (s.rbit (regAES_TXCTRL t.val) 30) (s.tx t).pos

theorem exec_aesFrameTransmit_direct (h : s.rbit (regAES_TXCTRL t.val) 31 = true) (hr : s.txRate t = 0) :
    exec (.aesFrameTransmit t) s = .next (s.modTx t
      (AesTx.transmitted (s.txTmpl t) s.ownPrev (s.txBit t) (s.tx t).next.1 (s.tx t).next.2)) := by
  show execAesFrameTransmit t s = _
  unfold execAesFrameTransmit
  rw [h, hr]
  rfl

/-- The converted samples of both subframes. -/
def State.txBoth : Word × Word × State := ((s.txConverted t 0).1, (s.txConverted t 0).2.txConverted t 1)

theorem exec_aesFrameTransmit_converted (h : s.rbit (regAES_TXCTRL t.val) 31 = true) (hr : s.txRate t ≠ 0) :
    exec (.aesFrameTransmit t) s = .next ((s.txBoth t).2.2.modTx t
      (AesTx.transmitted (s.txTmpl t) s.ownPrev (s.txBit t) (s.txBoth t).1 (s.txBoth t).2.1)) := by
  show execAesFrameTransmit t s = _
  unfold execAesFrameTransmit
  rw [h]
  simp only [if_neg hr]
  rfl

theorem State.txConverted_frame (sub : Nat) : ∃ n cv, (s.txConverted t sub).2 = { s with freeCtr := n, conv := cv } := by
  unfold State.txConverted
  split
  · exact ⟨_, _, rfl⟩
  · split
    · next c _ =>
      obtain ⟨n, cv, e⟩ := State.asrcSample_frame (s := s) c s.now
      exact ⟨n, cv, e⟩
    · exact ⟨_, _, rfl⟩

theorem State.txBoth_frame : ∃ n cv, (s.txBoth t).2.2 = { s with freeCtr := n, conv := cv } := by
  obtain ⟨n, cv, e⟩ := s.txConverted_frame t 0
  obtain ⟨n', cv', e'⟩ := (s.txConverted t 0).2.txConverted_frame t 1
  exact ⟨n', cv', e'.trans (by rw [e])⟩

/-- A transmitter at another rate (R228). -/
theorem aesFrameTransmit_converted_effect (h : s.rbit (regAES_TXCTRL t.val) 31 = true) (hr : s.txRate t ≠ 0) :
    ∃ u, exec (.aesFrameTransmit t) s = .next u ∧ u = { s with txs := u.txs, freeCtr := u.freeCtr, conv := u.conv } ∧
      (u.tx t).pos = ((s.tx t).pos + 1) % 192 ∧ (u.tx t).vBit = false ∧ (u.tx t).uBit = false ∧ ((u.tx t).sent = none ↔ s.ownPrev = false) ∧
      (∀ o, o ≠ t → u.tx o = s.tx o) := by
  refine ⟨_, exec_aesFrameTransmit_converted s t h hr, ?_⟩
  obtain ⟨n, cv, e⟩ := s.txBoth_frame t
  generalize (s.txBoth t).1 = x, (s.txBoth t).2.1 = y, (s.txBoth t).2.2 = w at e ⊢
  rw [e, State.tx_modTx_self]
  refine ⟨rfl, rfl, rfl, rfl, ?_, fun o ho => State.tx_modTx_ne _ _ ho⟩
  cases s.ownPrev <;> simp [AesTx.transmitted]

end

/-! ## The status of a rate-conversion channel (R235) -/

theorem statusBit {l a e v o d : Bool} {m r : Nat} (hm : m ≤ 1) (hr : r < 2 ^ 18) :
    let w := BitVec.ofNat 32 (b2n l * 2 ^ 31 + b2n a * 2 ^ 30 + b2n e * 2 ^ 29 + b2n v * 2 ^ 28 + b2n o * 2 ^ 27 + m * 2 ^ 25 + b2n d * 2 ^ 24 + r)
    bit w 31 = l ∧ bit w 30 = a ∧ bit w 29 = e ∧ bit w 28 = v ∧ fld w 0 18 = r := by
  intro w
  have hb (b : Bool) : b2n b ≤ 1 ∧ decide (b2n b = 1) = b := by cases b <;> exact ⟨by decide, rfl⟩
  obtain ⟨hl, el⟩ := hb l
  obtain ⟨ha, ea⟩ := hb a
  obtain ⟨he, ee⟩ := hb e
  obtain ⟨hv, ev⟩ := hb v
  obtain ⟨ho, -⟩ := hb o
  obtain ⟨hd, -⟩ := hb d
  rw [← el, ← ea, ← ee, ← ev]
  simp only [w]
  generalize b2n l = l, b2n a = a, b2n e = e, b2n v = v, b2n o = o, b2n d = d at *
  refine ⟨?_, ?_, ?_, ?_, ?_⟩
  iterate 4
    rw [bit_ofNat _ _ (by decide), Nat.testBit_eq_decide_div_mod_eq]
    congr 1
    simp only [eq_iff_iff]
    omega
  · simp only [fld, BitVec.toNat_ofNat]
    omega

section
variable (s : State) (c : Nat)

theorem State.asrcMode_le : s.asrcMode c ≤ 1 := by
  unfold State.asrcMode
  split <;> decide

theorem State.asrcStatus_bits (lock acq rangeErr : Bool) (rate : Nat) : let w := s.asrcStatus c lock acq rangeErr rate
    bit w 31 = lock ∧ bit w 30 = acq ∧ bit w 29 = rangeErr ∧ bit w 28 = (!s.asrcEndpointValid c) ∧ fld w 0 18 = rate % 2 ^ 18 :=
  statusBit (s.asrcMode_le c) (Nat.mod_lt _ (by decide))

end

/-! ## Lock and unlock of a channel (R231 to R235) -/

section
variable (s : State) (c : Nat) (acq : Bool) (rate : Nat)

/-- The marks of a lost lock: its status, its count and UNLOCK. -/
def State.asrcMarked : State := ((s.setReg (regASRC_CHSTAT c) (s.asrcStatus c false acq false rate)).count regASRC_UNLOCK_CNT 1).setRbit regASRC_STATUS 29

/-- A channel forgets its ratio and its samples. -/
def State.asrcForgotten : State :=
  { s with
    asrcRatio := mapDel s.asrcRatio c, conv := { hist := mapDel s.conv.hist c, turn := mapDel s.conv.turn c }
    asrcLost := if s.asrcLost.contains c then s.asrcLost else s.asrcLost ++ [c] }

theorem State.asrcUnlocked_eq : s.asrcUnlocked c acq rate = ((s.asrcMarked c acq rate).asrcForgotten c).raiseEvent 55 (BitVec.ofNat 32 c) := rfl

/-- Registers that are set, counted and marked leave the ratios and the samples alone. -/
theorem State.marks_fields (s : State) (a b d i : Nat) (v : Word) : (((s.setReg a v).count b 1).setRbit d i).asrcRatio = s.asrcRatio ∧
    (((s.setReg a v).count b 1).setRbit d i).conv = s.conv := ⟨rfl, rfl⟩

theorem State.asrcMarked_fields : (s.asrcMarked c acq rate).asrcRatio = s.asrcRatio ∧ (s.asrcMarked c acq rate).conv = s.conv :=
  s.marks_fields _ _ _ _ _

theorem State.reg_asrcForgotten (a : Nat) : (s.asrcForgotten c).reg a = s.reg a := rfl

theorem State.asrcForgotten_spec : (s.asrcForgotten c).asrcRatio = mapDel s.asrcRatio c ∧ (s.asrcForgotten c).conv.hist = mapDel s.conv.hist c ∧
    c ∈ (s.asrcForgotten c).asrcLost := by
  refine ⟨rfl, rfl, ?_⟩
  show c ∈ if s.asrcLost.contains c then s.asrcLost else s.asrcLost ++ [c]
  split
  next h => exact List.contains_iff_mem.1 h
  next => exact List.mem_append_right _ List.mem_cons_self

theorem chstat_ne (c : Nat) : regASRC_CHSTAT c ≠ regASRC_STATUS ∧ regASRC_CHSTAT c ≠ regASRC_UNLOCK_CNT := by
  simp only [regASRC_CHSTAT, regASRC_STATUS, regASRC_UNLOCK_CNT]
  omega

theorem State.asrcMarked_status : (s.asrcMarked c acq rate).reg (regASRC_CHSTAT c) = s.asrcStatus c false acq false rate := by
  obtain ⟨h1, h2⟩ := chstat_ne c
  unfold State.asrcMarked
  rw [State.reg_setRbit_ne _ _ _ _ h1, State.count_eq, State.reg_setReg_ne _ _ h2, State.reg_setReg_self]

theorem State.asrcMarked_mark : (s.asrcMarked c acq rate).rbit regASRC_STATUS 29 = true := by
  rw [State.asrcMarked, State.rbit_setRbit _ _ _ _ _ (by decide), decide_eq_true rfl, decide_eq_true rfl, Bool.and_self, Bool.or_true]

theorem State.asrcMarked_count : (s.asrcMarked c acq rate).reg regASRC_UNLOCK_CNT = satAdd (s.reg regASRC_UNLOCK_CNT) 0 32 1 := by
  obtain ⟨h1, h2⟩ := chstat_ne c
  rw [State.asrcMarked, State.reg_setRbit_ne _ _ _ _ (by decide), State.reg_count, if_pos rfl, State.reg_setReg_ne _ _ h2.symm]

/-- What a channel that has lost its lock shows (R232, R234). -/
structure AsrcUnlocked (s : State) (c : Nat) (acq : Bool) (rate : Nat) (u : State) : Prop where
  status : u.reg (regASRC_CHSTAT c) = s.asrcStatus c false acq false rate
  mark : u.rbit regASRC_STATUS 29 = true
  count : u.reg regASRC_UNLOCK_CNT = satAdd (s.reg regASRC_UNLOCK_CNT) 0 32 1
  event : u.reg (regEVT_PAYLOAD 55) = BitVec.ofNat 32 c
  ratio : u.asrcRatio = mapDel s.asrcRatio c
  hist : u.conv.hist = mapDel s.conv.hist c
  lost : c ∈ u.asrcLost

theorem State.asrcUnlocked_spec (hc : c < 512) : AsrcUnlocked s c acq rate (s.asrcUnlocked c acq rate) := by
  have h1 := s.asrcMarked_status c acq rate
  have h2 := s.asrcMarked_mark c acq rate
  have h3 := s.asrcMarked_count c acq rate
  obtain ⟨hr, hcv⟩ := s.asrcMarked_fields c acq rate
  rw [State.asrcUnlocked_eq]
  generalize s.asrcMarked c acq rate = v at *
  obtain ⟨k1, k2, k3⟩ := v.asrcForgotten_spec c
  have hreg (a : Nat) (h4 : a / 0x10000 ≠ 4) : ((v.asrcForgotten c).raiseEvent 55 (BitVec.ofNat 32 c)).reg a = v.reg a :=
    (State.raiseEvent_reg_block _ _ _ _ (by decide) h4).trans (v.reg_asrcForgotten c a)
  have hblock := chstat_block c hc
  have hf := (v.asrcForgotten c).raiseEvent_frame 55 (BitVec.ofNat 32 c)
  have hp : ((v.asrcForgotten c).raiseEvent 55 (BitVec.ofNat 32 c)).reg (regEVT_PAYLOAD 55) = BitVec.ofNat 32 c := State.raiseEvent_payload _ 55 _ (by decide)
  generalize v.asrcForgotten c = w at *
  generalize w.raiseEvent 55 (BitVec.ofNat 32 c) = u at *
  have hfield : u.asrcRatio = w.asrcRatio ∧ u.conv = w.conv ∧ u.asrcLost = w.asrcLost := by
    rw [hf]
    exact ⟨rfl, rfl, rfl⟩
  obtain ⟨e1, e2, e3⟩ := hfield
  refine ⟨(hreg _ (by omega)).trans h1, ?_, (hreg _ (by decide)).trans h3, hp, ?_, ?_, ?_⟩
  · rw [State.rbit, hreg _ (by decide)]
    exact h2
  · rw [e1, k1, hr]
  · rw [e2, k2, hcv]
  · rw [e3]
    exact k3

theorem AsrcUnlocked.faultOccurs {u : State} {src : Nat} (hs : src < 256) (hc : c < 512) (h : AsrcUnlocked s c acq rate u) :
    AsrcUnlocked s c acq rate (u.faultOccurs src) := by
  have hreg (a : Nat) (h3 : a / 0x10000 ≠ 3) (h4 : a / 0x10000 ≠ 4) : (u.faultOccurs src).reg a = u.reg a := State.faultOccurs_reg_other u src a hs h3 h4
  have hev : (u.faultOccurs src).reg (regEVT_PAYLOAD 55) = u.reg (regEVT_PAYLOAD 55) :=
    State.faultOccurs_reg u src _ hs (by decide) (by decide) (by decide) (by decide) (by decide)
  have hblock := chstat_block c hc
  have hf := u.faultOccurs_frame src
  have hfield : (u.faultOccurs src).asrcRatio = u.asrcRatio ∧ (u.faultOccurs src).conv = u.conv ∧ (u.faultOccurs src).asrcLost = u.asrcLost := by
    rw [hf]
    exact ⟨rfl, rfl, rfl⟩
  obtain ⟨h1, h2, h3⟩ := hfield
  refine ⟨(hreg _ (by omega) (by omega)).trans h.status, ?_, (hreg _ (by decide) (by decide)).trans h.count, hev.trans h.event, h1.trans h.ratio,
    (congrArg (·.hist) h2).trans h.hist, h3 ▸ h.lost⟩
  rw [State.rbit, hreg _ (by decide) (by decide)]
  exact h.mark

end

section
variable (s : State) (c : Fin 512)

/-- A channel with the status `w` and its ratio. -/
def State.asrcLockedWith (s : State) (c : Nat) (w ratio : Word) : State :=
  ({ s.setReg (regASRC_CHSTAT c) w with asrcRatio := wmSet (s.setReg (regASRC_CHSTAT c) w).asrcRatio c ratio } : State).raiseEvent 55 (BitVec.ofNat 32 c)

theorem State.asrcLockedWith_eq (c : Nat) (w ratio : Word) : s.asrcLockedWith c w ratio =
    ({ s.setReg (regASRC_CHSTAT c) w with asrcRatio := wmSet s.asrcRatio c ratio } : State).raiseEvent 55 (BitVec.ofNat 32 c) := rfl

/-- A channel whose rate is admitted locks (R231 to R235). -/
theorem exec_asrcLock_locks {ratio : Word} {rate : BitVec 18} (h1 : s.asrcUsed c.val = true) (h2 : s.asrcLocked c.val = false)
    (h3 : s.asrcEndpointValid c.val = true) (h4 : s.asrcRateOk rate.toNat = true)
    (h5 : s.asrcMode c.val = 1 → s.tbAnchored (fld (s.asrcWord c.val 1) 24 2) = true) :
    exec (.asrcLock c ratio rate) s = .next (s.asrcLockedWith c.val (s.asrcStatus c.val true false false rate.toNat) ratio) := by
  refine congrArg Host.Outcome.next ((if_neg ?_).trans ((if_neg ?_).trans (if_neg ?_)))
  · rw [h1, h2, h3]
    decide
  · rw [h4]
    decide
  · rintro ⟨hm, ha⟩
    rw [h5 hm] at ha
    exact absurd ha (by decide)

theorem exec_asrcLock_refused {ratio : Word} {rate : BitVec 18} (h1 : s.asrcUsed c.val = true) (h2 : s.asrcLocked c.val = false)
    (h3 : s.asrcEndpointValid c.val = true) (h4 : s.asrcRateOk rate.toNat = false) :
    exec (.asrcLock c ratio rate) s = .next (s.setReg (regASRC_CHSTAT c.val) (s.asrcStatus c.val false false true rate.toNat)) := by
  refine congrArg Host.Outcome.next ((if_neg ?_).trans (if_pos ?_))
  · rw [h1, h2, h3]
    decide
  · rw [h4]
    rfl

/-- The state behind the unlock of a channel; a drift is a fault (R232, R233). -/
def State.asrcUnlockedFor (why : UnlockCause) : State :=
  if why = .drift then (s.asrcUnlocked c.val true (s.asrcRateHz c.val)).faultOccurs 76 else s.asrcUnlocked c.val true (s.asrcRateHz c.val)

theorem exec_asrcUnlock_due {why : UnlockCause} (h1 : s.asrcLocked c.val = true) (h2 : s.unlockDue c.val why = true) :
    exec (.asrcUnlock c why) s = .next (s.asrcUnlockedFor c why) :=
  congrArg Host.Outcome.next (if_pos (by rw [h1, h2]; rfl))

theorem exec_asrcUnlock_idle {why : UnlockCause} (h : s.asrcLocked c.val = false ∨ s.unlockDue c.val why = false) :
    exec (.asrcUnlock c why) s = .next s :=
  congrArg Host.Outcome.next (if_neg (by rcases h with h | h <;> simp [h]))

theorem State.asrcUnlockedFor_spec (why : UnlockCause) : AsrcUnlocked s c.val true (s.asrcRateHz c.val) (s.asrcUnlockedFor c why) ∧
    (why = .drift → (s.asrcUnlockedFor c why).faultLatched 76 = true) := by
  have h := s.asrcUnlocked_spec c.val true (s.asrcRateHz c.val) c.isLt
  unfold State.asrcUnlockedFor
  generalize s.asrcUnlocked c.val true (s.asrcRateHz c.val) = u at h
  split
  · refine ⟨AsrcUnlocked.faultOccurs s c.val true _ (by decide) c.isLt h, fun _ => ?_⟩
    rw [State.faultOccurs_latch _ 76 76 (by decide), decide_eq_true rfl, Bool.or_true]
  next hw => exact ⟨h, fun e => absurd e hw⟩

end

section
variable {s u : State} {c : Nat} {acq : Bool} {rate : Nat} (h : AsrcUnlocked s c acq rate u)
include h

theorem AsrcUnlocked.locked : u.asrcLocked c = false := by
  obtain ⟨h1, -⟩ := s.asrcStatus_bits c false acq false rate
  rw [State.asrcLocked, State.rbit, h.status]
  exact h1

theorem AsrcUnlocked.placed : u.asrcPlaced c = [] := by
  rw [State.asrcPlaced, h.hist, mapFind_del_self]
  rfl

theorem AsrcUnlocked.ratio_self : wmGet u.asrcRatio c = 0 := by
  rw [h.ratio, wmGet, mapGet, mapFind_del_self]
  rfl

theorem AsrcUnlocked.ratio_ne {k : Nat} (hk : k ≠ c) : wmGet u.asrcRatio k = wmGet s.asrcRatio k := by
  rw [h.ratio, wmGet, mapGet, mapFind_del_ne _ hk]
  rfl

end

section
variable (s : State) (c : Fin 512)

/-- A channel whose lost cause unlocks it (R232, R233). -/
theorem asrcUnlock_effect {why : UnlockCause} (h1 : s.asrcLocked c.val = true) (h2 : s.unlockDue c.val why = true) :
    ∃ u, exec (.asrcUnlock c why) s = .next u ∧ u.asrcLocked c.val = false ∧ u.asrcPlaced c.val = [] ∧ wmGet u.asrcRatio c.val = 0 ∧ c.val ∈ u.asrcLost ∧
      u.rbit regASRC_STATUS 29 = true ∧ u.reg regASRC_UNLOCK_CNT = satAdd (s.reg regASRC_UNLOCK_CNT) 0 32 1 ∧
      u.reg (regEVT_PAYLOAD 55) = BitVec.ofNat 32 c.val ∧ (why = .drift → u.faultLatched 76 = true) ∧
      (∀ k, k ≠ c.val → wmGet u.asrcRatio k = wmGet s.asrcRatio k) := by
  obtain ⟨h, hdrift⟩ := s.asrcUnlockedFor_spec c why
  exact ⟨_, exec_asrcUnlock_due s c h1 h2, h.locked, h.placed, h.ratio_self, h.lost, h.mark, h.count, h.event, hdrift, fun _ hk => h.ratio_ne hk⟩

theorem State.unlockDue_anchor : s.unlockDue c.val .anchor = true ↔ s.asrcMode c.val = 1 ∧ s.tbAnchored (s.asrcTb c.val) = false := by
  simp only [State.unlockDue, Bool.and_eq_true, decide_eq_true_eq, Bool.not_eq_true']

/-- A locked channel follows the loss of its endpoint (R232, R235). -/
theorem asrcFollow_lost (h1 : s.asrcLocked c.val = true) (h2 : s.asrcEndpointValid c.val = false) : let u := s.asrcFollow c.val
    u.asrcLocked c.val = false ∧ u.rbit (regASRC_CHSTAT c.val) 30 = true ∧ u.rbit (regASRC_CHSTAT c.val) 28 = true ∧
      u.rfld (regASRC_CHSTAT c.val) 0 18 = 0 ∧ c.val ∈ u.asrcLost ∧
      u.reg regASRC_UNLOCK_CNT = satAdd (s.reg regASRC_UNLOCK_CNT) 0 32 1 ∧ u.reg (regEVT_PAYLOAD 55) = BitVec.ofNat 32 c.val := by
  intro u
  have hu : u = s.asrcUnlocked c.val true 0 := if_pos (by rw [h1, h2]; rfl)
  have h := s.asrcUnlocked_spec c.val true 0 c.isLt
  rw [← hu] at h
  obtain ⟨-, b30, -, b28, b0⟩ := s.asrcStatus_bits c.val false true false 0
  refine ⟨h.locked, ?_, ?_, ?_, h.lost, h.count, h.event⟩
  · rw [State.rbit, h.status]
    exact b30
  · rw [State.rbit, h.status, b28, h2]
    rfl
  · rw [State.rfld, h.status]
    exact b0

/-- Any other channel shows its present state (R235). -/
theorem asrcFollow_shown (h : s.asrcLocked c.val = false ∨ s.asrcEndpointValid c.val = true) : let u := s.asrcFollow c.val
    u = { s with regs := u.regs, conv := u.conv } ∧ (∀ b, b ≠ regASRC_CHSTAT c.val → u.reg b = s.reg b) ∧ u.asrcLocked c.val = s.asrcLocked c.val ∧
      u.rbit (regASRC_CHSTAT c.val) 28 = (!s.asrcEndpointValid c.val) ∧ u.rbit (regASRC_CHSTAT c.val) 30 = (!s.asrcLocked c.val) ∧
      u.rfld (regASRC_CHSTAT c.val) 0 18 = s.asrcRateHz c.val % 2 ^ 18 := by
  intro u
  let conv := if s.asrcEndpointValid c.val then s.conv else { s.conv with hist := mapDel s.conv.hist c.val }
  let w := s.asrcStatus c.val (s.asrcLocked c.val) (!s.asrcLocked c.val) (s.rbit (regASRC_CHSTAT c.val) 29) (s.asrcRateHz c.val)
  have hu : u = ({ s with conv := conv } : State).setReg (regASRC_CHSTAT c.val) w := if_neg (by rcases h with h | h <;> simp [h])
  obtain ⟨b31, b30, -, b28, b0⟩ : bit w 31 = s.asrcLocked c.val ∧ bit w 30 = (!s.asrcLocked c.val) ∧ bit w 29 = s.rbit (regASRC_CHSTAT c.val) 29 ∧
    bit w 28 = (!s.asrcEndpointValid c.val) ∧ fld w 0 18 = s.asrcRateHz c.val % 2 ^ 18 := s.asrcStatus_bits c.val _ _ _ _
  clear_value u conv w
  have hreg : u.reg (regASRC_CHSTAT c.val) = w := by rw [hu, State.reg_setReg_self]
  refine ⟨by rw [hu]; rfl, fun b hb => by rw [hu]; exact State.reg_setReg_ne _ _ hb, ?_, ?_, ?_, ?_⟩
  · rw [State.asrcLocked, State.rbit, hreg]
    exact b31
  · rw [State.rbit, hreg, b28]
  · rw [State.rbit, hreg, b30]
  · rw [State.rfld, hreg, b0]

end

theorem State.modTx_congr (s : State) (t : Fin 4) {f g : AesTx → AesTx} (h : f (s.tx t) = g (s.tx t)) : s.modTx t f = s.modTx t g := by
  rw [State.modTx, State.modTx, h]

/-- Settles O39: a frame, a block of channel status, a qualification and a loss of a receiver each change its own words, and a channel's status follows its lock and its endpoint. -/
theorem aesAndConverters : Obligations.AesAndConverters := by
  unfold Obligations.AesAndConverters
  refine ⟨fun s r sa sb rate sub block => ?_, fun s t c ratio rate why => ?_⟩
  · refine ⟨fun hon => ⟨aesFrameReceive_effect s r sa sb hon, exec_channelStatusBlock_bad s r sub block hon, channelStatusBlock_effect s r sub block hon,
      fun hv => ⟨aesReceiverQualified_refused_effect s r hon hv, aesReceiverQualified_valid_effect s r hon hv⟩⟩,
      fun hv => ⟨exec_aesReceiverLost_valid s r hv, exec_rxRateChange_valid s r hv⟩, fun hv => ⟨exec_aesReceiverLost_invalid s r hv, exec_rxRateChange_invalid s r hv⟩,
      fun hoff => ⟨exec_aesFrameReceive_off s r sa sb hoff, congrArg Host.Outcome.next (if_neg (by rw [hoff]; decide))⟩,
      fun hon => congrArg Host.Outcome.next (if_pos hon), fun h1 h2 h3 h4 => congrArg Host.Outcome.next (if_pos ?_)⟩
    rw [h1, h2, h3, decide_eq_true h4]
    rfl
  · refine ⟨fun h hr => (exec_aesFrameTransmit_direct s t h hr).trans (congrArg Host.Outcome.next (s.modTx_congr t rfl)), aesFrameTransmit_converted_effect s t, fun h1 h2 h3 h4 h5 => ?_, fun h1 h2 h3 h4 => ?_,
      asrcUnlock_effect s c, exec_asrcUnlock_idle s c, rfl, s.unlockDue_anchor c, asrcFollow_lost s c, asrcFollow_shown s c⟩
    · obtain ⟨b31, b30, b29, b28, b0⟩ := s.asrcStatus_bits c.val true false false rate.toNat
      have hlock := exec_asrcLock_locks s c (ratio := ratio) h1 h2 h3 h4 h5
      rw [State.asrcLockedWith_eq] at hlock
      refine ⟨_, b31, b30, b29, ?_, b0.trans (Nat.mod_eq_of_lt rate.isLt), hlock⟩
      rw [b28, h3]
      rfl
    · obtain ⟨b31, -, b29, -, -⟩ := s.asrcStatus_bits c.val false false true rate.toNat
      exact ⟨_, b31, b29, exec_asrcLock_refused s c h1 h2 h3 h4⟩

end Sys2Proof.Machine
end
